-- ==== Sys2Proof/Word.lean ====
section
/-! DEFINITION. The word types of the block: bytes, register words, and the keys that name its objects.
Sizes follow 00_scope.md R11 (registers of 32 or 64 bits, little-endian structures in memory). -/

namespace Sys2Proof

/-- One byte of a structure, a frame or a memory cell. -/
abbrev Byte := BitVec 8

/-- A 32-bit register or parameter field (R11). -/
abbrev W32 := BitVec 32

/-- A 64-bit register or parameter field (R11). -/
abbrev W64 := BitVec 64

/-- A list of bytes: an entry, a parameter block, a frame, a record. -/
abbrev Bytes := List Byte

/-- A value of at most 255 as a byte. -/
def byte (n : Nat) : Byte := BitVec.ofNat 8 n

end Sys2Proof
end

