-- ==== Sys2Proof/Syntax.lean ====
section
/-! DEFINITION. The commands of the block, one constructor of `Instr` for each of the 294 rows of
spec/opcode_table.json, with the operands that the outside world gives each row. No row has bits. -/

namespace Sys2Proof

/-- Where a command packet comes from: a CMD_SQ ring by its QID, the MCTP endpoint with its message tag, or the JTAG
mailbox (04 R117 R118, 17 R471). -/
inductive CmdSrc where
  | ring (qid : Nat)
  | mctp (tag : Nat)
  | jtag
deriving DecidableEq, Repr

/-- A command packet: the header of R110 with its parameter area (bytes 16 to 63), the parameter block as it is read
(or the R103 status with which its read ends) and the data that the opcode carries (R118). -/
structure Cmd where
  src : CmdSrc
  flags : BitVec 16
  tag : W32
  target : W32
  pbLen : Nat
  rsv : BitVec 16
  params : Bytes
  pb : Bytes
  pbErr : Option Nat
  data : Bytes
deriving DecidableEq, Repr

/-- A function of a host port: its port and its number in FN_ID form, [10] VF and [9:0] PF or VF (13 R365 R369). -/
structure FnRef where
  port : Nat
  vf : Bool
  num : Nat
deriving DecidableEq, Repr

/-- A write to a function's BAR0 or BAR2: offset, size in bytes and value (03 R94, 13 R368 R371). -/
structure BarWrite where
  fn : FnRef
  bar : Nat
  offset : Nat
  size : Nat
  value : W64
deriving DecidableEq, Repr

/-- How a host read or a beat's access ends: data, poisoned data, or one of the failures of 03 R103. -/
inductive ReadEnd where
  | data (bytes : Bytes)
  | poisoned
  | timeout
  | unsupported
  | aborted
  | translation
deriving DecidableEq, Repr

/-- Which side of a DMA beat an access failed on, and how (11 R324). -/
inductive BeatFault where
  | readTimeout
  | readError
  | writeError
  | poisoned
  | uncorrectable
  | busMaster
deriving DecidableEq, Repr

/-- Sampled strap levels (19 R521): BOOT_SEL[2:0], HP0_BIF[1:0], HP1_BIF[1:0]. -/
structure Straps where
  bootSel : Nat
  hp0Bif : Nat
  hp1Bif : Nat
deriving DecidableEq, Repr

/-- A request that service firmware makes of Buckram without a command: an input's route (18 R488), or a DRAM region laid out, disabled
or enabled, or removed (01 R27). -/
inductive SfAsk where
  | route (source : Nat) (thread : Bool) (input tid : Nat)
  | place (index : Nat) (local3 : Option Nat) (base size chanBase used : Nat) (enabled : Bool)
  | enable (index : Nat) (on : Bool)
  | remove (index : Nat)
deriving DecidableEq, Repr

/-- What the outside world answers while Buckram applies a request: whether the image media and RPMB accept the access,
whether the noise source passes its health test (15 R436, 17 R463 R478), and how Buckram's own read of a parameter block in host
memory ends: its bytes, or a status of 03 R103 (04 R122). `ask`: what service firmware asks where no request waits. `changed`: payload blocks
that an image medium gives otherwise than they were written (15 R437 R439). -/
structure BkEnv where
  mediaOk : Bool
  rpmbOk : Bool
  noiseOk : Bool
  pb : Bytes := []
  pbErr : Option Nat := none
  ask : Option SfAsk := none
  changed : List (Nat × Bytes) := []
deriving DecidableEq, Repr

/-- A debugger access to a thread (12 R355): a register (0 pc, 1-31 x, 32 kzwake, 33 kzwdog, 34 cycle, 35 instret) or
a buffer. -/
inductive DebugAccess where
  | readReg (r : Nat)
  | writeReg (r : Nat) (v : W64)
  | readStaging
  | readReceive
deriving DecidableEq, Repr

/-- The configuration fields of a function that have no row of their own (13 R367 R368 R372 to R375 R388 R390): `aer` and `aerCor` clear
logged uncorrectable and correctable errors; `bar` and `vfBar` are BAR0, BAR2 and BAR4 by 0 to 2, and the VF BARs. -/
inductive CfgField where
  | mse | msixEnable | msixMask | pasidEnable | relaxed | ctoValue | maxPayload | maxRead | aspmL1 | aer | l1Substates | fatalReporting
  | nonFatalReporting | corReporting | aerCor | uncSeverity | uncMask | corMask | ltrEnable
  | bar (n : Nat)
  | vfBar (n : Nat)
deriving DecidableEq, Repr

/-- Who makes a register access: the host through a function's configuration space, BAR0, BAR2 or BAR4, or a core thread or an engine in the
register space of a die (13 R369, 10 R301, 17 R460). -/
inductive RegAccess where
  | config (fn : FnRef) (reg : CfgField) (value : Nat)
  | control (fn : FnRef) (offset size : Nat) (value : W64)
  | msix (fn : FnRef) (offset : Nat) (value : W32)
  | cipher (fn : FnRef) (page offset size : Nat) (value : W64)
  | device (die offset size : Nat) (value : W64)
deriving DecidableEq, Repr

/-- The eight PF records of a host port profile (13 R363). -/
structure PfRecord where
  present : Bool
  sriov : Bool
  totalVfs : Nat
  pfVec : Nat
  vfVec : Nat
deriving DecidableEq, Repr

/-- One image slot as it lies on a medium: the manifest block, the payload blocks that were written and the five words
of the state record, true when programmed (15 R419 R420 R421). -/
structure MediaSlot where
  manifest : Option Bytes
  payload : List (Nat × Bytes)
  words : List Bool
deriving DecidableEq, Repr

/-- An MCTP message received whole: its message type (0 control, 0x7F the device's vendor-defined one) and its body (04 R118). -/
structure MctpMsg where
  kind : Nat
  bytes : Bytes
deriving DecidableEq, Repr

/-- A boot medium as ROM or Buckram finds it: source code 0 X, 1 E; and what a programmer outside the device has put on it since the device
last booted, as 64 KiB blocks by area and number, none where it is as the device left it. Area 0 is the flash or the eMMC's user area, 1
and 2 the eMMC's boot partitions (15 R416 R419). -/
structure Medium where
  source : Nat
  present : Bool
  readOk : Bool
  blocks : Option (List (Nat × Nat × Bytes))
deriving DecidableEq, Repr

/-- A module as its SPD gives it (14 R394): a JEDEC DDR5 RDIMM with ECC and 80 bits, the width and the density (in Gb) of its devices, its
capacity in bytes, its package ranks and its 3DS height. -/
structure ModuleSpd where
  rdimmEcc80 : Bool
  width : Nat
  density : Nat
  capacity : Nat
  packageRanks : Nat
  height : Nat
deriving DecidableEq, Repr

/-- What training finds on a channel (14 R394 R396): the modules of its two slots, whether the channel trains, and whether its sideband
serves (R414). -/
structure ChannelPop where
  slot0 : Option ModuleSpd
  slot1 : Option ModuleSpd
  trains : Bool
  sidebandOk : Bool
deriving DecidableEq, Repr

/-- The logical ranks of a module: its package ranks times its 3DS height. -/
def ModuleSpd.ranks (m : ModuleSpd) : Nat := m.packageRanks * m.height

/-- The modules of a channel, its logical ranks and its capacity. -/
def ChannelPop.modules (p : ChannelPop) : List ModuleSpd := p.slot0.toList ++ p.slot1.toList
def ChannelPop.ranks (p : ChannelPop) : Nat := (p.modules.map (·.ranks)).sum
def ChannelPop.capacity (p : ChannelPop) : Nat := (p.modules.map (·.capacity)).sum

/-- The channel has x4 modules. -/
def ChannelPop.x4 (p : ChannelPop) : Bool := p.modules.all (·.width == 4)

/-- The errors of 13 R390 that link-level retry deals with. -/
inductive LinkErr where
  | receiverError | badTlp | badDllp | replayTimeout | replayRollover
deriving DecidableEq, Repr

/-- The errors of 13 R390 that take the link down. -/
inductive FatalErr where
  | dataLinkProtocol | surpriseDown | flowControlProtocol | receiverOverflow | malformedTlp
deriving DecidableEq, Repr

/-- A PCI Express error of 13 R390 found on a host link. -/
inductive TlpErr where
  | linkLevel (e : LinkErr)
  | unexpectedCompletion
  | poisonedWrite
  | poisonedRead (tag : Nat)
  | fatalLink (e : FatalErr)
deriving DecidableEq, Repr

/-- A request that the device does not support as completer (13 R361 R368). -/
inductive BadRequest where
  | ioOrAtomic
  | memoryRead
  | memoryWrite
deriving DecidableEq, Repr

/-- The commands: the rows of spec/opcode_table.json in its order. -/
inductive Instr where
  /-- FT_MEAS_AT_WRITE (R43): A write to FT_MEAS_AT commits FT_MEAS_OFFS as a measurement, which passes the median filter and may move the discipline state machine. -/
  | ftMeasAtWrite (ftAt : W64)
  /-- PPS_EDGE (R40): A rising edge of FT_PPS_IN is paired, accepted as a measurement or ignored. -/
  | ppsEdge (nearClkFall : Bool)
  /-- PPS_IN_FALL (R528): A falling edge of FT_PPS_IN completes the high-time measurement that decides the input's polarity or absence. -/
  | ppsInFall
  /-- FT_CLK_INVERT (R528): At a frame boundary the receiver inverts a swapped FT_CLK_IN and sets FT_CLK_SWAP. -/
  | ftClkInvert
  /-- SOURCE_LOST (R41): At the first frame boundary after the loss condition, the FTU declares its source lost and changes state. -/
  | sourceLost (announceTimeout : Bool)
  /-- FT_CLK_IN_ABSENT (R41): FT_CLK_IN absent for 1 us changes the holdover oscillator to SYSCLK, or loses a PPS_CLK source. -/
  | ftClkInAbsent
  /-- HOLDOVER_BOUND_CHECK (R49): At each frame boundary in HOLDOVER, the bound e(t) is compared with THRESH and may move the state to UNLOCKED. -/
  | holdoverBoundCheck
  /-- FT_STEP (R45): At its frame boundary a pending step is applied on every die, recorded in FT_STEP_AT and FT_STEP_AMT, and raises FT_STEP. -/
  | ftStep
  /-- FT_SET_WRITE (R61): A write to FT_SET schedules a step to the new FT, or is ignored and sets SET_IGN. -/
  | ftSetWrite (value : W64)
  /-- FT_NOW_READ (R60): A read of FT_NOW latches the high word and FT_NOW_FRAC for the next read. -/
  | ftNowRead (die : Nat) (wide : Bool)
  /-- FT_ALIGN_STAT_READ (R60): A read of FT_ALIGN_STAT returns MAX_ERR and clears it. -/
  | ftAlignStatRead
  /-- FT_DISTRIBUTE (R51): At each frame boundary the master FTU sends FT to every die and each die compensates its route. -/
  | ftDistribute (misalign : List Int)
  /-- FT_CFG_APPLY (R62): An accepted FT configuration change takes effect at the next frame boundary and the TIME command replies. -/
  | ftCfgApply
  /-- PPS_OUT_CFG_APPLY (R58): A change to FT_PPS_OUT_CFG takes effect at the next whole second of FT. -/
  | ppsOutCfgApply
  /-- FT_PPS_OUT_PULSE (R58): FT_PPS_OUT is asserted for WIDTH us at each whole second adjusted by ADJ. -/
  | ftPpsOutPulse
  /-- PPS_OUT_CONTEND (R529): A level disagreement lasting 100 ns on FT_PPS_OUT tri-states the output and sets PPS_OUT_CONTEND. -/
  | ppsOutContend
  /-- DEV_IDENTIFY (R131): Returns part, stepping, serial number and image versions. -/
  | devIdentify (c : Cmd)
  /-- DEV_HEALTH (R131): Returns health flags and the parked-tile mask. -/
  | devHealth (c : Cmd)
  /-- DEV_PORT_MODE (R210): Changes the logical ports of a physical port at the next rebalance point. -/
  | devPortMode (c : Cmd)
  /-- DEV_PORT_QUERY (R131): Returns link state, lanes and FEC counts of a logical port. -/
  | devPortQuery (c : Cmd)
  /-- DEV_RESET (R131): Arms a device reset at the first rebalance point after the reply. -/
  | devReset (c : Cmd)
  /-- DEVICE_RESET_BEGIN (R131): At the armed rebalance point the device reset begins. -/
  | deviceResetBegin (straps : Straps)
  /-- QUEUE_CREATE (R130): Creates a DISABLED queue context and has Buckram bind the QID to its owner. -/
  | queueCreate (c : Cmd)
  /-- QUEUE_ENABLE (R89): Sets P, C and F to the start index and moves the queue to ENABLED. -/
  | queueEnable (c : Cmd)
  /-- QUEUE_DISABLE (R106): Begins the drain or discard course of a work queue, or idles a CQ. -/
  | queueDisable (c : Cmd)
  /-- QUEUE_IDLE (R106): When every completion of a disabling queue is written, the queue enters IDLE, publishes its write-back and replies. -/
  | queueIdle (qid : Nat)
  /-- QUEUE_DESTROY (R89): Destroys a DISABLED or IDLE queue. -/
  | queueDestroy (c : Cmd)
  /-- QUEUE_QUERY (R87): Returns the 64-byte queue context. -/
  | queueQuery (c : Cmd)
  /-- QUEUE_MOVE (R91): Requests a home move of a queue at the next rebalance point. -/
  | queueMove (c : Cmd)
  /-- HOME_MOVE (R91): At a rebalance point a queue's context passes to its new home tile and fetching resumes there from C. -/
  | homeMove (qid : Nat)
  /-- FN_QUERY (R131): Returns the VF count, slices and queues of a function. -/
  | fnQuery (c : Cmd)
  /-- SLICE_CREATE (R376): Buckram binds a SID to the calling function and a PASID. -/
  | sliceCreate (c : Cmd)
  /-- SLICE_BINDING_EFFECT (R376): The slice exists from the first frame boundary at which the host die holds its binding. -/
  | sliceBindingEffect (sid : Nat)
  /-- SLICE_QUIESCE (R377): Takes every work queue of a slice through the discard course and replies when all are IDLE. -/
  | sliceQuiesce (c : Cmd)
  /-- SLICE_RESET (R378): Stops a slice's queues and destroys its objects, keeping the SID and its bindings. -/
  | sliceReset (c : Cmd)
  /-- SLICE_RESET_COMPLETE (R378): When every read of the slice has completed or timed out, Buckram destroys its queues and replies. -/
  | sliceResetComplete (sid : Nat)
  /-- SLICE_DESTROY (R379): Removes the PASID binding, spoof sets and doorbell page and frees the SID. -/
  | sliceDestroy (c : Cmd)
  /-- VF_QUIESCE (R377): Drains a VF's queues and discards its slices' queues, replying when all are IDLE. -/
  | vfQuiesce (c : Cmd)
  /-- SPOOF_SET (R380): Replaces the allowed MAC, VLAN, IPv4, IPv6 and KRM sets of a slice. -/
  | spoofSet (c : Cmd)
  /-- SPOOF_SET_EFFECT (R382): New spoof sets take effect at the first frame boundary at which the host die holds them. -/
  | spoofSetEffect (sid : Nat)
  /-- SPOOF_QUERY (R380): Returns the allowed sets of a slice. -/
  | spoofQuery (c : Cmd)
  /-- TBL_CREATE (R160): Creates a forwarding table, rule bank or parse profile table under a table identifier. -/
  | tblCreate (c : Cmd)
  /-- TBL_SEARCH (R183): Looks up a key in a table without setting HIT. -/
  | tblSearch (c : Cmd)
  /-- TBL_NEXT (R184): Returns the next buckets or stash of a table iteration, or opens a new one. -/
  | tblNext (c : Cmd)
  /-- ITERATION_TIMEOUT (R184): An iteration with no TBL_NEXT for 1 s of FT closes. -/
  | iterationTimeout (table : Nat)
  /-- TBL_INSERT (R176): Inserts or replaces an entry, rule, profile entry or miss action. -/
  | tblInsert (c : Cmd)
  /-- TBL_DELETE (R183): Deletes an entry, rule or profile entry. -/
  | tblDelete (c : Cmd)
  /-- TBL_FLUSH_BY_PORT (R185): Deletes the non-static entries learned on or bound to a logical port. -/
  | tblFlushByPort (c : Cmd)
  /-- TBL_AGING_SET (R179): Sets or turns off the aging period and phase of a table. -/
  | tblAgingSet (c : Cmd)
  /-- RULE_CHANGE_EFFECT (R159): A rule or profile change takes effect at the first frame boundary at which every unparked tile holds it. -/
  | ruleChangeEffect
  /-- AGING_PASS_START (R180): At each instant of the aging period a sweep pass starts in every partition. -/
  | agingPassStart (table : Nat)
  /-- AGING_VISIT (R180): A sweep visit clears HIT or deletes each non-static entry of a bucket or stash. -/
  | agingVisit (table part line : Nat)
  /-- TW_SHAPER_SET (R199): Sets the rate, burst, overhead, destination and limit of a queue's shaper. -/
  | twShaperSet (c : Cmd)
  /-- SHAPER_REFILL (R198): At each frame boundary a shaper's credit is brought up to date. -/
  | shaperRefill (qid : Nat)
  /-- TW_POLICER_SET (R204): Sets the rates and bursts of a policer. -/
  | twPolicerSet (c : Cmd)
  /-- POLICER_SET_APPLY (R206): A policer change takes effect at the next frame boundary with its buckets updated and clipped. -/
  | policerSetApply (policer : Nat)
  /-- TW_DG_SET (R211): Writes or deletes the record of a destination group. -/
  | twDgSet (c : Cmd)
  /-- DG_SET_APPLY (R212): A DG record change takes effect at the first frame boundary at which all dies and tiles hold it. -/
  | dgSetApply (dgid : Nat)
  /-- TW_SCHED_LOAD (R216): Writes slots into the shadow schedule table of a physical port. -/
  | twSchedLoad (c : Cmd)
  /-- TW_SCHED_SWAP (R220): Arms an exchange of the active and shadow tables at a cycle boundary. -/
  | twSchedSwap (c : Cmd)
  /-- TW_MODE_SET_SCHEDULED (R221): Requests SCHEDULED mode from the next cycle boundary. -/
  | twModeSetScheduled (c : Cmd)
  /-- TW_MODE_SET_UNSCHEDULED (R221): Requests UNSCHEDULED mode from the next cycle boundary. -/
  | twModeSetUnscheduled (c : Cmd)
  /-- TW_QUERY (R229): Returns the mode, schedules and samples of a physical port. -/
  | twQuery (c : Cmd)
  /-- CYCLE_BOUNDARY (R219): At a port's cycle boundary pending swaps, mode changes and fallbacks take effect. -/
  | cycleBoundary (port : Nat)
  /-- SLOT_START (R223): At the start of a schedule slot the network die begins serving the slot's queues after its guard. -/
  | slotStart (port : Nat)
  /-- CALENDAR_FIRE (R193): A calendar entry fires at its rounded eligible instant and moves its object to the ready lists. -/
  | calendarFire (tile : Nat)
  /-- KRM_CONN_CREATE (R236): Creates a KRM connection and has Buckram bind its CID to the caller. -/
  | krmConnCreate (c : Cmd)
  /-- KRM_CONN_SET_PEER (R238): KRM_CONN_CREATE on a PENDING CID with PEER_SET 1 sets the peer only. -/
  | krmConnSetPeer (c : Cmd)
  /-- KRM_CONN_DESTROY (R239): Moves a connection to CLOSING and begins its destruction. -/
  | krmConnDestroy (c : Cmd)
  /-- CONN_DESTROY_COMPLETE (R239): When every admitted memory access is accepted, Buckram unbinds the CID, increments CGEN and replies. -/
  | connDestroyComplete (cid : Nat)
  /-- KRM_CONN_QUERY (R131): Returns a connection's state, window and counters. -/
  | krmConnQuery (c : Cmd)
  /-- CONN_TRANSITION (R235): A connection state change takes effect at the next frame boundary and raises KRM_CONN_STATE. -/
  | connTransition (cid : Nat)
  /-- KRM_WINDOW_OPEN (R252): Buckram opens a window descriptor for the caller and returns its key. -/
  | krmWindowOpen (c : Cmd)
  /-- KRM_WINDOW_MODIFY (R253): Changes a window's base, length and permissions, or closes it with length 0. -/
  | krmWindowModify (c : Cmd)
  /-- KRM_WINDOW_REVOKE (R254): Increments a window's generation and returns the new key. -/
  | krmWindowRevoke (c : Cmd)
  /-- WINDOW_CHANGE_EFFECT (R253): A descriptor change takes effect at the first frame boundary at which every engine holds it. -/
  | windowChangeEffect (index : Nat)
  /-- KRM_CONFIG (R159): Sets the device's KRM UDP destination port. -/
  | krmConfig (c : Cmd)
  /-- BLK_VOLUME_CREATE (R267): Creates a remote or RAM volume and binds its VID to the caller. -/
  | blkVolumeCreate (c : Cmd)
  /-- BLK_VOLUME_DESTROY (R271): Destroys a volume that has no started command. -/
  | blkVolumeDestroy (c : Cmd)
  /-- BLK_VOLUME_QUERY (R272): Returns the state and layout of a volume. -/
  | blkVolumeQuery (c : Cmd)
  /-- BLK_QUEUE_RESET (R284): Ends every command of a block queue and aborts its outstanding pieces. -/
  | blkQueueReset (c : Cmd)
  /-- BLK_RESET_ABANDON (R284): A piece still unanswered 150 ms after a queue reset is abandoned and counted. -/
  | blkResetAbandon (qid : Nat)
  /-- BLK_QUEUE_RESET_COMPLETE (R284): When every started command has ended the queue returns to ENABLED and the reset replies. -/
  | blkQueueResetComplete (qid : Nat)
  /-- BLK_SELFTEST_START (R285): Starts a short or extended self-test of a volume. -/
  | blkSelftestStart (c : Cmd)
  /-- BLK_SELFTEST_ABORT (R285): Aborts the running self-test of a volume. -/
  | blkSelftestAbort (c : Cmd)
  /-- BLK_SELFTEST_QUERY (R287): Returns the state and progress of a volume's self-test. -/
  | blkSelftestQuery (c : Cmd)
  /-- SELFTEST_REQUEST (R286): A self-test request is issued to a member when no host piece waits and a spare engine slice exists. -/
  | selftestRequest (vid member : Nat)
  /-- CY_CHANNEL_CREATE (R298): Creates a lookaside cipher channel and binds its page and queue. -/
  | cyChannelCreate (c : Cmd)
  /-- CY_CHANNEL_DESTROY (R299): Buckram wipes a channel's key slots and unbinds its page. -/
  | cyChannelDestroy (c : Cmd)
  /-- CY_SLICE_TABLE_SET (R297): Loads a new Calico slice table for a tile. -/
  | cySliceTableSet (c : Cmd)
  /-- SLICE_TABLE_EFFECT (R297): A new slice table governs from the first frame boundary at which the tile holds it. -/
  | sliceTableEffect (tile : Nat)
  /-- CY_QUERY (R313): Returns the state of a Calico channel. -/
  | cyQuery (c : Cmd)
  /-- FW_INFO (R435): Returns slots, sequence numbers, trial state and confirmation window. -/
  | fwInfo (c : Cmd)
  /-- FW_WRITE (R436): Writes one 64 KiB block to an inactive image slot. -/
  | fwWrite (c : Cmd)
  /-- FW_VERIFY (R437): Buckram checks a written slot from its media and marks it STAGED and VERIFIED. -/
  | fwVerify (c : Cmd)
  /-- FW_ACTIVATE (R439): Arms and loads a verified slot and starts the handover threads, or arms a Buckram slot. -/
  | fwActivate (c : Cmd)
  /-- HANDOVER_READY (R439): The new image reports ready and the command pause begins. -/
  | handoverReady
  /-- HANDOVER_STATE_TIMEOUT (R440): After 30 ms of pause Buckram restarts the cores at the new image and ends the pause. -/
  | handoverStateTimeout
  /-- HANDOVER_COMPLETE (R439): The old image's state is written, Buckram starts the new image and writes the reply. -/
  | handoverComplete (state : Bytes)
  /-- ACTIVATE_TIMEOUT (R440): A new image not ready within 1 s is stopped and FW_ACTIVATE ends with S_TIMEOUT. -/
  | activateTimeout
  /-- FW_HEALTH_CONFIRM (R441): Closes the open trial by confirming its slot and raising SV. -/
  | fwHealthConfirm (c : Cmd)
  /-- TRIAL_DEADLINE (R442): A trial open at its deadline is reverted to the previous image, or logs REVERT_NONE. -/
  | trialDeadline
  /-- FW_ABORT (R438): Ends a write in progress on a slot. -/
  | fwAbort (c : Cmd)
  /-- SEC_LIFECYCLE_SET (R468): Buckram checks an authorisation, burns fuses and the new lifecycle record. -/
  | secLifecycleSet (c : Cmd)
  /-- LIFECYCLE_RESET (R468): At the first rebalance point 10 ms after a lifecycle transition Buckram resets the device. -/
  | lifecycleReset (straps : Straps)
  /-- SEC_DEBUG_CHALLENGE (R469): Issues a new challenge for a debug level or lifecycle code. -/
  | secDebugChallenge (c : Cmd)
  /-- SEC_DEBUG_RESPONSE (R470): Checks a signed response and grants a debug level. -/
  | secDebugResponse (c : Cmd)
  /-- DEBUG_LEVEL_EFFECT (R473): A granted or closed debug level takes effect at the next frame boundary and extends MR3. -/
  | debugLevelEffect
  /-- SEC_DEBUG_CLOSE (R473): Closes the debug session and returns to the initial level. -/
  | secDebugClose (c : Cmd)
  /-- DEBUG_SESSION_EXPIRE (R473): A session ends at the first frame boundary after its DURATION. -/
  | debugSessionExpire
  /-- JTAG_KZAUTH (R471): A command written to the KZAUTH mailbox runs a debug command over JTAG. -/
  | jtagKzauth (opcode : Nat) (c : Cmd)
  /-- SEC_ATTEST (R476): Signs an attestation report or returns a part of one. -/
  | secAttest (c : Cmd)
  /-- SEC_MEASURE_READ (R475): Returns MR0 to MR3 and their extension counts. -/
  | secMeasureRead (c : Cmd)
  /-- SEC_KEY_INSTALL (R465): Buckram unwraps a key blob and installs it for a CID, VID or Calico channel. -/
  | secKeyInstall (c : Cmd)
  /-- REKEY_GRACE_EXPIRE (R306): 1,048,576 ns after a CID rekey the previous key is discarded. -/
  | rekeyGraceExpire (cid : Nat)
  /-- PW_TILE_PARK (R451): Begins parking a tile at the next park point. -/
  | pwTilePark (c : Cmd)
  /-- PARK_POINT (R452): At the park point queues, steering, partitions, policers, connections and channels move off the tile. -/
  | parkPoint
  /-- PARK_DRAIN_LIMIT (R453): At the drain limit remaining frames are dropped and operations end with S_TIMEOUT. -/
  | parkDrainLimit
  /-- TILE_POWER_OFF (R453): When the parking tile holds nothing Buckram switches off its domains and replies. -/
  | tilePowerOff
  /-- PW_TILE_UNPARK (R455): Powers and loads a parked tile and starts its cores. -/
  | pwTileUnpark (c : Cmd)
  /-- UNPARK_POINT (R455): At the first rebalance point after the tile reports ready it is used again. -/
  | unparkPoint
  /-- PW_CAP_SET (R456): Sets the package power cap. -/
  | pwCapSet (c : Cmd)
  /-- PW_STATE_SET_STANDBY (R449): Saves contexts, puts DRAM in self-refresh and parks all tiles. -/
  | pwStateSetStandby (c : Cmd)
  /-- PW_STATE_SET_RUN (R449): Unparks all tiles, restores contexts and restarts service firmware. -/
  | pwStateSetRun (c : Cmd)
  /-- PW_QUERY (R458): Returns power states, power, cap and domain states. -/
  | pwQuery (c : Cmd)
  /-- TIME_QUERY (R131): Returns the FT register set. -/
  | timeQuery (c : Cmd)
  /-- TIME_CFG_SET (R62): Writes the selected FT configuration registers. -/
  | timeCfgSet (c : Cmd)
  /-- TIME_ASYM_SET (R62): Writes FT_ASYM of a logical port. -/
  | timeAsymSet (c : Cmd)
  /-- TIME_SET (R61): Writes FT_SET and replies with the new FT at the step point. -/
  | timeSet (c : Cmd)
  /-- CT_READ (R500): Latches and returns every word of a counter block. -/
  | ctRead (c : Cmd)
  /-- CT_DUMP_SET (R503): Arms a one-shot or periodic dump of a counter block. -/
  | ctDumpSet (c : Cmd)
  /-- CT_DUMP_CANCEL (R507): Cancels a dump. -/
  | ctDumpCancel (c : Cmd)
  /-- CT_SLICE_PERM (R502): Allows or denies a slice the reading of its own counters. -/
  | ctSlicePerm (c : Cmd)
  /-- CT_SAMPLE_SET_CORE (R358): Sets the instruction sampling rate of a tile's cores. -/
  | ctSampleSetCore (c : Cmd)
  /-- CT_SAMPLE_SET_PACKET (R508): Sets the packet sampling rate of a tile. -/
  | ctSampleSetPacket (c : Cmd)
  /-- SAMPLE_SET_EFFECT (R358): A sampling setting takes effect at the next frame boundary, seeding the LFSR. -/
  | sampleSetEffect (tile : Nat)
  /-- DIAG_ECHO (R131): Echoes parameter bytes 16 to 31. -/
  | diagEcho (c : Cmd)
  /-- DIAG_PIN_FAULT (R530): Returns the PIN_FAULT register. -/
  | diagPinFault (c : Cmd)
  /-- DIAG_LOG_READ (R495): Returns up to 128 records of the device log. -/
  | diagLogRead (c : Cmd)
  /-- DIAG_DRAM_CAL (R409): Requests retraining of a DDR channel in 64 calibration windows. -/
  | diagDramCal (c : Cmd)
  /-- DIAG_SCRUB_SET (R410): Sets the patrol scrub period. -/
  | diagScrubSet (c : Cmd)
  /-- DIAG_ERR_INJECT (R131): Buckram injects an error pattern at a site of a die. -/
  | diagErrInject (c : Cmd)
  /-- MCTP_REQUEST (R118): A management MCTP request is received whole and started as a command, or answered at once. -/
  | mctpRequest (tag : Nat) (body : MctpMsg)
  /-- BUCKRAM_REQUEST (R123): Buckram takes the next request from its mailbox, repeats the checks and applies it. -/
  | buckramRequest (env : BkEnv)
  /-- DOORBELL_WORK (R97): A doorbell for a work queue sets its P, or is dropped or ignored. -/
  | doorbellWork (w : BarWrite)
  /-- DOORBELL_INV (R100): A doorbell with INV drops the queue's cached entries at or above C. -/
  | doorbellInv (w : BarWrite)
  /-- DOORBELL_CQ (R98): A CQ doorbell returns completion space and releases held completions. -/
  | doorbellCq (w : BarWrite)
  /-- DOORBELL_ARM (R496): A CQ doorbell with ARM arms the CQ's interrupt. -/
  | doorbellArm (w : BarWrite)
  /-- ENTRY_FETCH_DONE (R99): A host read of work entries completes and the entries enter the entry cache. -/
  | entryFetchDone (tag : Nat) (data : Bytes)
  /-- ENTRY_FETCH_FAIL (R103): A failed entry fetch completes the entry with a host read status. -/
  | entryFetchFail (tag : Nat) (how : ReadEnd)
  /-- ENTRY_HEAD_CHECK (R102): An entry reaching the head of its queue is checked and either ended or made to wait for its gates. -/
  | entryHeadCheck (qid : Nat)
  /-- NOP (R70): A NOP entry completes with S_OK. -/
  | nop (qid : Nat)
  /-- PKT_TX_SEND (R80): A SEND entry starts and its frame is read and admitted to Twill. -/
  | pktTxSend (qid : Nat)
  /-- PKT_RX_POST (R81): A POST entry posts a receive buffer. -/
  | pktRxPost (qid : Nat)
  /-- PKT_RX_DELIVER (R190): A frame in a PKT_RX source queue is written to a posted buffer when the shaper permits. -/
  | pktRxDeliver (qid : Nat)
  /-- KRM_WRITE (R258): A KRM WRITE entry starts and is cut into sequenced packets. -/
  | krmWrite (qid : Nat)
  /-- KRM_READ (R258): A KRM READ entry starts and sends a READ_REQ. -/
  | krmRead (qid : Nat)
  /-- KRM_SEND (R258): A KRM SEND entry starts and sends a message. -/
  | krmSend (qid : Nat)
  /-- KRM_RQ_POST (R259): A KRM_RQ POST entry posts a receive buffer. -/
  | krmRqPost (qid : Nat)
  /-- BLK_READ (R276): A block READ starts and is split into member pieces. -/
  | blkRead (qid : Nat)
  /-- BLK_WRITE (R276): A block WRITE starts and is split into member pieces. -/
  | blkWrite (qid : Nat)
  /-- BLK_FLUSH (R277): A block FLUSH starts as one piece per member. -/
  | blkFlush (qid : Nat)
  /-- BLK_TRIM (R276): A block TRIM starts and is split into member pieces. -/
  | blkTrim (qid : Nat)
  /-- BLK_PIECE_ISSUE (R280): A piece is issued to its target when ordering and response-area room allow. -/
  | blkPieceIssue (piece : Nat)
  /-- BLK_RESP_RECEIVE (R279): A target RESP completes a piece, or is dropped as BAD_RESP. -/
  | blkRespReceive (cid : Nat)
  /-- CRY_ENCRYPT (R308): A cipher ENCRYPT job starts. -/
  | cryEncrypt (qid : Nat)
  /-- CRY_DECRYPT (R312): A cipher DECRYPT job starts. -/
  | cryDecrypt (qid : Nat)
  /-- CRY_DIGEST (R308): A SHAKE256 DIGEST job starts. -/
  | cryDigest (qid : Nat)
  /-- ENGINE_SLICE (R291): Each 32 ns engine slice is given to its table channel or by rotation to a ready channel. -/
  | engineSlice (tile lane : Nat)
  /-- CY_KEY_STORE_256 (R302): CY_KEY_CTRL with KLEN 1 stores staging words 0-3 into a slot. -/
  | cyKeyStore256 (fn : FnRef) (page : Nat) (value : W32)
  /-- CY_KEY_STORE_512 (R302): CY_KEY_CTRL with KLEN 2 stores a 512-bit key into an even slot pair. -/
  | cyKeyStore512 (fn : FnRef) (page : Nat) (value : W32)
  /-- CY_KEY_CLEAR (R302): CY_KEY_CTRL with KLEN 0 clears a slot or whole 512-bit key. -/
  | cyKeyClear (fn : FnRef) (page : Nat) (value : W32)
  /-- CY_KEY_DATA_WRITE (R301): A write stages eight key bytes in CY_KEY_DATA. -/
  | cyKeyDataWrite (fn : FnRef) (page word : Nat) (value : W64)
  /-- CY_JOB_DB (R303): A doorbell written through a cipher page rings the channel's queue, or is dropped. -/
  | cyJobDb (fn : FnRef) (page : Nat) (value : W64)
  /-- DMA_COPY (R319): A DMA COPY entry starts and issues its beats. -/
  | dmaCopy (qid : Nat)
  /-- DMA_FILL (R319): A DMA FILL entry starts and issues its beats. -/
  | dmaFill (qid : Nat)
  /-- DMA_BEAT_COMPLETE (R320): A beat's write is accepted; the last one finishes the entry. -/
  | dmaBeatComplete (tile chan beat : Nat)
  /-- DMA_BEAT_FAIL (R324): A failed beat is scheduled for retry or ends the entry. -/
  | dmaBeatFail (tile chan beat : Nat) (how : BeatFault)
  /-- DMA_BEAT_RETRY (R324): At the next frame boundary a failed beat is issued again. -/
  | dmaBeatRetry (tile chan beat : Nat)
  /-- COMPLETION_WRITE (R86): A finished operation writes its completion to its CQ. -/
  | completionWrite (cq : Nat)
  /-- WRITEBACK_BLOCK (R93): At a frame boundary after C changes the write-back block is written. -/
  | writebackBlock (qid : Nat)
  /-- FRAME_RECEIVE (R156): A frame arrives at a network die, is timestamped and steered to a tile. -/
  | frameReceive (port : Nat) (bytes : Bytes) (fcsOk : Bool)
  /-- STEER_HOLD_EXPIRED (R158): Frames held across a steering change are released after 4,096 ns and counted. -/
  | steerHoldExpired (frame : Nat)
  /-- STEERING_UPDATE (R158): Indirection table and home map changes take effect at a rebalance point. -/
  | steeringUpdate
  /-- FRAME_CLASSIFY (R149): Damask parses a frame, builds its key and applies the rule banks. -/
  | frameClassify (frame : Nat)
  /-- POLICER_DECIDE (R205): A policer colours or drops a received frame. -/
  | policerDecide (frame : Nat)
  /-- TABLE_LOOKUP (R173): A frame's destination and learn lookups are answered by the serving engine. -/
  | tableLookup (frame : Nat)
  /-- LEARN_INSERT (R175): A queued learn request is inserted into its partition. -/
  | learnInsert (table part : Nat)
  /-- TWILL_ADMIT (R188): A frame is admitted to a Twill queue or dropped. -/
  | twillAdmit (frame : Nat)
  /-- SOURCE_QUEUE_ADVANCE (R189): A held PKT_TX frame passes to its DEST queue when it would be admitted. -/
  | sourceQueueAdvance (qid : Nat)
  /-- FRAME_TRANSMIT_START (R207): A free port starts the next nominated frame. -/
  | frameTransmitStart (port : Nat)
  /-- SP_DISP (R349): An SP_DISP message disposes of a slow-path frame. -/
  | spDisp (tile : Nat)
  /-- PORT_MODE_POINT (R210): At the mode point the old logical ports go down and the new ones begin training. -/
  | portModePoint (port : Nat)
  /-- PORT_TRAINED (R210): A logical port completes training and comes up. -/
  | portTrained (port : Nat) (laneDropped laneRemapped : Bool)
  /-- NETWORK_LINK_DOWN (R209): A logical port link goes down and its queued frames are discarded. -/
  | networkLinkDown (port : Nat)
  /-- KRM_PACKET_RECEIVE (R249): A received KRM packet is checked and applied, held, acknowledged or dropped. -/
  | krmPacketReceive (frame : Nat)
  /-- KRM_STATE_FETCHED (R232): An uncached connection's state arrives from DRAM and its waiting work proceeds. -/
  | krmStateFetched (cid : Nat)
  /-- KRM_WRITE_ACCEPTED (R255): The host die accepts a packet's write and AT and the bitmap advance. -/
  | krmWriteAccepted (cid psn : Nat)
  /-- KRM_READ_RESPONSE (R256): A responder's host read completes and READ_RESP packets are queued, or a NAK is sent. -/
  | krmReadResponse (cid psn : Nat) (how : ReadEnd)
  /-- KRM_PACKET_SEND (R264): A packet is sent when CWND and the sequence window allow. -/
  | krmPacketSend (cid : Nat)
  /-- KRM_ACK_TIMER (R261): 2,048 ns after the first unacknowledged packet an ACK is sent. -/
  | krmAckTimer (cid : Nat)
  /-- KRM_RETRANSMIT_TIMEOUT (R263): The oldest unacknowledged packet is resent at its backed-off timeout, or the connection enters ERROR. -/
  | krmRetransmitTimeout (cid : Nat)
  /-- KRM_RNR_RETRY (R263): A packet refused with NO_RECV_BUF is resent after RNR_WAIT. -/
  | krmRnrRetry (cid : Nat)
  /-- HOST_READ_COMPLETION (R373): A completion for a host read arrives and its data is delivered to the requester. -/
  | hostReadCompletion (tag : Nat) (how : ReadEnd)
  /-- COMPLETION_TIMEOUT (R375): A host read times out, frees its tag and ends its access. -/
  | completionTimeout (tag : Nat)
  /-- MSIX_SEND (R496): A requested vector sends one MSI-X message at the next 256 ns instant. -/
  | msixSend (fn : FnRef) (vector : Nat)
  /-- EVENT_RECORD_WRITE (R491): An open event record is written to a function's command CQ at a frame boundary. -/
  | eventRecordWrite (fn : FnRef)
  /-- EVENT_MCTP_SEND (R492): An event record is sent to the management controller as an MCTP message. -/
  | eventMctpSend
  /-- DUMP_LATCH (R504): At a dump instant every word of the block is latched. -/
  | dumpLatch (dump : Nat)
  /-- DUMP_RECORD_WRITE (R506): A latched dump record is written to its slot in three steps. -/
  | dumpRecordWrite (dump : Nat)
  /-- RV64_INSTRUCTION (R333): A core issues and executes a base RV64 instruction. -/
  | rv64Instruction (tid : Nat)
  /-- CH_WRF (R345): Opens a channel message by reserving space and staging word 0. -/
  | chWrf (tid : Nat) (rd rs1 rs2 : BitVec 5)
  /-- CH_WR (R345): Stages the next word and commits the message at its last word. -/
  | chWr (tid : Nat) (rd rs2 : BitVec 5)
  /-- CH_RECV (R347): Takes the oldest message of a channel, or blocks. -/
  | chRecv (tid : Nat) (rd rs1 : BitVec 5)
  /-- CH_TRY (R347): Takes the oldest message of a channel without blocking. -/
  | chTry (tid : Nat) (rd rs1 : BitVec 5)
  /-- CH_GET (R347): Returns a word of the receive buffer. -/
  | chGet (tid : Nat) (rd rs1 : BitVec 5)
  /-- CH_ABORT (R346): Discards the open message and releases its reservation. -/
  | chAbort (tid : Nat) (rd : BitVec 5)
  /-- CH_STAT (R347): Returns the fill state of a channel. -/
  | chStat (tid : Nat) (rd rs1 : BitVec 5)
  /-- CH_CFG (R343): Configures a channel. -/
  | chCfg (tid : Nat) (rd rs1 rs2 : BitVec 5)
  /-- EV_WAIT (R350): Returns masked pending events or blocks until one is pending. -/
  | evWait (tid : Nat) (rd rs1 : BitVec 5)
  /-- EV_CLR (R350): Clears pending event bits. -/
  | evClr (tid : Nat) (rd rs1 : BitVec 5)
  /-- EV_READ (R350): Returns the pending event bits. -/
  | evRead (tid : Nat) (rd : BitVec 5)
  /-- EV_POST (R350): Sets a software event bit in a thread. -/
  | evPost (tid : Nat) (rd rs1 rs2 : BitVec 5)
  /-- TH_CTL_QUERY (R351): Returns a thread's state word. -/
  | thCtlQuery (tid : Nat) (rd rs1 rs2 : BitVec 5)
  /-- TH_CTL_STOP (R351): Stops a thread into SSTOP. -/
  | thCtlStop (tid : Nat) (rd rs1 rs2 : BitVec 5)
  /-- TH_CTL_RESUME (R351): Resumes a stopped or faulted thread. -/
  | thCtlResume (tid : Nat) (rd rs1 rs2 : BitVec 5)
  /-- TH_CTL_KILL (R351): Makes a thread IDLE and discards its staging. -/
  | thCtlKill (tid : Nat) (rd rs1 rs2 : BitVec 5)
  /-- TH_CTL_START (R351): Starts an IDLE thread at a given pc. -/
  | thCtlStart (tid : Nat) (rd rs1 rs2 : BitVec 5)
  /-- TH_CTL_DISCARD (R351): Discards a stopped thread's staging buffer. -/
  | thCtlDiscard (tid : Nat) (rd rs1 rs2 : BitVec 5)
  /-- TH_CTL_SETPRI (R336): Marks or unmarks a thread as high-priority. -/
  | thCtlSetpri (tid : Nat) (rd rs1 rs2 : BitVec 5)
  /-- TH_CTL_FPC (R351): Returns a faulted thread's faulting pc. -/
  | thCtlFpc (tid : Nat) (rd rs1 rs2 : BitVec 5)
  /-- TH_CTL_FVAL (R351): Returns a faulted thread's faulting address or instruction bits. -/
  | thCtlFval (tid : Nat) (rd rs1 rs2 : BitVec 5)
  /-- DEADLOCK_DETECT (R352): A core all-blocked for 4,096 clocks sets DEADLOCK in thread 0. -/
  | deadlockDetect (core : Nat)
  /-- WATCHDOG_EXPIRE (R353): A core's watchdog expires while its condition holds. -/
  | watchdogExpire (core : Nat)
  /-- DEBUG_STOP (R356): The debugger stops a thread into DSTOP. -/
  | debugStop (tid : Nat)
  /-- DEBUG_RESUME (R356): The debugger restores a thread's remembered state. -/
  | debugResume (tid : Nat)
  /-- DEBUG_STEP (R356): The debugger runs a thread for one instruction. -/
  | debugStep (tid : Nat)
  /-- DEBUG_DISCARD (R356): The debugger empties a thread's staging buffer. -/
  | debugDiscard (tid : Nat)
  /-- DEBUG_KILL (R356): The debugger makes a thread IDLE. -/
  | debugKill (tid : Nat)
  /-- DEBUG_REG_ACCESS (R355): The debugger reads or writes a thread's registers or buffers. -/
  | debugRegAccess (tid : Nat) (access : DebugAccess)
  /-- CMD_EN_SET (R370): Setting CMD_EN creates the function's command ring and CQ, or is refused. -/
  | cmdEnSet (fn : FnRef)
  /-- CMD_EN_CLEAR (R370): Clearing CMD_EN drains and destroys the command ring and CQ. -/
  | cmdEnClear (fn : FnRef)
  /-- REGISTER_WRITE (R12): A write to a register without its own row updates it by its type. -/
  | registerWrite (access : RegAccess)
  /-- FLR (R383): A function-level reset stops the function and destroys its objects. -/
  | flr (fn : FnRef)
  /-- FLR_COMPLETE (R383): When its reads have ended the function returns to reset values and is ready. -/
  | flrComplete (fn : FnRef)
  /-- BME_CLEAR (R386): Clearing Bus Master Enable stops the function's requests and holds its completions. -/
  | bmeClear (fn : FnRef)
  /-- BME_SET (R386): Setting Bus Master Enable writes held completions, write-backs and MSI-X and resumes fetching. -/
  | bmeSet (fn : FnRef)
  /-- D3HOT_ENTER (R387): A function entering D3hot is handled as with Bus Master Enable 0. -/
  | d3hotEnter (fn : FnRef)
  /-- D3HOT_EXIT (R387): A function returning to D0 keeps its state. -/
  | d3hotExit (fn : FnRef)
  /-- VF_ENABLE_CHANGE (R384): Clearing VF Enable or reducing NumVFs resets the removed VFs. -/
  | vfEnableChange (fn : FnRef) (enable : Bool) (numVfs : Nat)
  /-- HOT_RESET (R385): A hot reset or DL_Down resets every function of the sub-link. -/
  | hotReset (port sub : Nat)
  /-- PERST_ASSERT (R385): PERSTn# asserted resets the port and switches off its host-die domains. -/
  | perstAssert (port : Nat)
  /-- PERST_DEASSERT (R366): PERSTn# deasserted powers the port, which answers with retry status until its profile is in force. -/
  | perstDeassert (port : Nat)
  /-- PROFILE_RECOVERY_TIMEOUT (R366): 900 ms after deassertion without a verified profile the recovery profile governs. -/
  | profileRecoveryTimeout (port : Nat)
  /-- L1_ENTRY (R388): After 8 us idle the device requests ASPM L1 entry. -/
  | l1Entry (port sub : Nat) (idleNs : Nat)
  /-- L0P_NARROW (R389): At a 65,536 ns boundary with low utilisation the link narrows by half. -/
  | l0pNarrow (port sub : Nat) (inPermille outPermille : Nat)
  /-- L0P_WIDEN (R389): At a frame boundary with high utilisation the link widens to full width. -/
  | l0pWiden (port sub : Nat) (inPermille outPermille : Nat)
  /-- FLIT_RETRANSMIT (R18): An uncorrectable flit is retransmitted from the replay buffer; `again`: it is itself a retransmission. -/
  | flitRetransmit (link : Nat) (again : Bool)
  /-- REFRESH (R408): A rank receives all-bank REFRESH at its FT instant. -/
  | refresh (channel rank : Nat)
  /-- FORCED_REFRESH (R408): A REFRESH is issued at once when oscillator time would exceed 4 T_REF. -/
  | forcedRefresh (channel rank : Nat)
  /-- CAL_WINDOW (R409): A channel holds a calibration window in its slot; what its thermal sensors read, and the load of the interval before in
thousandths of its peak. -/
  | calWindow (channel : Nat) (hot0 hot1 : Bool) (loadPermille : Nat)
  /-- SCRUB_PASS (R410): A patrol scrub pass starts at an instant of the scrub period. -/
  | scrubPass (channel : Nat)
  /-- SCRUB_READ (R410): The scrubber reads one line, correcting or poisoning it. -/
  | scrubRead (channel rank sub : Nat) (errors : Bytes)
  /-- CE_WRITEBACK (R401): A corrected line is written back at the first idle cycle of its rank. -/
  | ceWriteback (channel : Nat)
  /-- SIDEBAND_FAULT (R414): A DIMM sideband line held low for 1 ms is isolated and reported. -/
  | sidebandFault (channel : Nat)
  /-- DRAM_TRAINED (R396): Channel training completes and empty channels are logged. -/
  | dramTrained (found : List ChannelPop)
  /-- POWER_WINDOW (R456): At each 10 us window the cap ladder moves one level. -/
  | powerWindow (watts : Nat)
  /-- THERM_THROTTLE (R457): Tj reaching 100 C raises THERM_THROTTLE and forces the ladder. -/
  | thermThrottle (die tj : Nat)
  /-- THERM_STEP (R457): Each 100 us at Tj of 100 C or more raises the forced level by one. -/
  | thermStep (die tj : Nat)
  /-- THERM_CRIT (R457): Tj above 105 C for 100 ms raises THERM_CRIT. -/
  | thermCrit (die tj : Nat)
  /-- THERMAL_TRIP (R457): Tj reaching 115 C asserts THERM_TRIP#, enters FATAL and powers off. -/
  | thermalTrip (die tj : Nat)
  /-- TILE_IDLE (R448): A tile quiet for 4,096 ns gates its clocks. -/
  | tileIdle (tile : Nat)
  /-- TILE_WAKE (R448): An arrival wakes an IDLE tile. -/
  | tileWake (tile : Nat)
  /-- AUX_ENTER (R450): MAIN_PWR_OK deasserted switches off every switched domain. -/
  | auxEnter
  /-- AUX_EXIT (R450): MAIN_PWR_OK asserted restarts from DRAM training. -/
  | auxExit
  /-- POWER_OFF (R447): Loss of the auxiliary rail turns the device off. -/
  | powerOff
  /-- SYS_RESET (R523): SYS_RST# asserted tri-states outputs and clears device state. -/
  | sysReset
  /-- ROM_BOOT (R423): On release of reset ROM senses fuses, samples straps, and loads and starts Buckram. -/
  | romBoot (straps : Straps) (media : List Medium)
  /-- BOOT_SOURCE_PROBE_TIMEOUT (R416): A boot source not present within its probe time is skipped. -/
  | bootSourceProbeTimeout (source : Nat)
  /-- STRAP_TEST (R522): Within 100 us after sampling each strap is driven and read back. -/
  | strapTest (stuck : Nat)
  /-- BUCKRAM_BOOT (R425): Buckram programs the firewall, places regions, loads service firmware and starts the cores. -/
  | buckramBoot (media : List Medium)
  /-- PUSH_TIMEOUT (R431): A push source with no activation within 10 s fails. -/
  | pushTimeout
  /-- SYSCLK_LOST (R520): SYSCLK absent for 100 ns moves clocks to the internal oscillator and downs the network links. -/
  | sysclkLost
  /-- SYSCLK_RETURN (R520): SYSCLK present again for 1 ms returns to the clocks and the ports retrain. -/
  | sysclkReturn
  /-- HREFCLK_LOST (R520): HREFCLKn absent for 1 us takes port n to DL_Down. -/
  | hrefclkLost (port : Nat)
  /-- OPEN_DRAIN_FAULT (R526): An open-drain line held low for 1 ms is released and its interface stopped. -/
  | openDrainFault (bit : Nat)
  /-- FT_CLK_IN_RETURN (R520): FT_CLK_IN present again for 1 ms is used again, as the holdover oscillator under CLK_HOLD or as the PPS_CLK frequency source. -/
  | ftClkInReturn
  /-- HREFCLK_RETURN (R520): HREFCLKn present again for 100 us lets host port n retrain. -/
  | hrefclkReturn (port : Nat)
  /-- LINK_TRAINING_END (R366): A host port sub-link completes PCI Express training, after which Configuration Requests complete and boot source H becomes present. -/
  | linkTrainingEnd (port sub : Nat) (width : Nat) (remapped dropped : Bool)
  /-- THERM_FORCING_END (R457): Tj falling below 98 C ends thermal forcing of the ladder, leaving the cap alone to govern. -/
  | thermForcingEnd (die tj : Nat)
  /-- HELD_RESET_RELEASE (R523): A SYS_RST# release or DEV_RESET held while Tj is at or above 100 C proceeds once Tj falls below 100 C. -/
  | heldResetRelease (tj : Nat) (straps : Straps)
  /-- SAMPLE_RECORD_LATCH (R228): At each FT rebalance point Twill latches the sample record of every port queue and every sampled queue. -/
  | sampleRecordLatch
  /-- TLP_ERROR (R390): A host link receives an erroneous TLP or DLLP or hits replay timeout, which is logged in AER and answered by link-level retry, a dropped poisoned write or the link being taken down. -/
  | tlpError (port sub : Nat) (fn : FnRef) (err : TlpErr)
  /-- UNSUPPORTED_REQUEST (R361): A host request the device does not support as completer, such as an I/O request or AtomicOp, or a memory request to a function with Memory Space Enable 0 or in D3hot, is answered with Unsupported Request or dropped. -/
  | unsupportedRequest (fn : FnRef) (req : BadRequest)
deriving DecidableEq, Repr

end Sys2Proof
end

