-- ==== Sys2Proof/Decode.lean ====
section
/-! DEFINITION. The command that a word spells by the bits of spec/opcode_table.json. No row of the table has bits (each
row's `fields` is empty), so no word spells a command. -/

namespace Sys2Proof

/-- The command of a word of `nbits` bits: none, since the table gives bits to no row. -/
def decodeTableWord (nbits w : Nat) : Option Instr :=
  let _ := (nbits, w)
  none

end Sys2Proof
end

