-- ==== Sys2Proof/Machine/Bits.lean ====
section
/-! DEFINITION. Byte order, bit fields, sign extension, the CRC-32C of 05 R157, and tables keyed by numbers. -/

namespace Sys2Proof.Machine

/-- Byte `i` of a structure; 0 beyond its end. -/
def byteAt (b : Bytes) (i : Nat) : Nat := (b.getD i 0).toNat

/-- The little-endian number in bytes `i` to `i + n - 1` (00 R11). -/
def le (b : Bytes) (i : Nat) : Nat → Nat
  | 0 => 0
  | n + 1 => byteAt b i + 256 * le b (i + 1) n

/-- The number in bytes `i` to `i + n - 1` in network byte order (00 R11). -/
def be (b : Bytes) (i n : Nat) : Nat := (List.range n).foldl (fun a k => a * 256 + byteAt b (i + k)) 0

/-- `n` bytes of a number, little-endian. -/
def toLe : Nat → Nat → Bytes
  | 0, _ => []
  | n + 1, v => byte (v % 256) :: toLe n (v / 256)

/-- `n` bytes of a number, in network byte order. -/
def toBe (n v : Nat) : Bytes := (toLe n v).reverse

/-- `n` zero bytes. -/
def zeros (n : Nat) : Bytes := List.replicate n 0

/-- Bytes `i` to `i + n - 1`, fewer where the structure ends. -/
def slice (b : Bytes) (i n : Nat) : Bytes := (b.drop i).take n

/-- Bytes `i` to `i + n - 1`, filled with zeros where the structure ends. -/
def sliceZ (b : Bytes) (i n : Nat) : Bytes := (List.range n).map fun k => b.getD (i + k) 0

/-- `new` written over `b` from byte `i`. -/
def splice (b : Bytes) (i : Nat) (new : Bytes) : Bytes := b.take i ++ new ++ b.drop (i + new.length)

/-- Bits [lo + n - 1 : lo] of a number. -/
def field (v lo n : Nat) : Nat := v / 2 ^ lo % 2 ^ n

/-- Bit `i` of a number. -/
def bit (v i : Nat) : Bool := v / 2 ^ i % 2 == 1

/-- One or zero. -/
def b2n (b : Bool) : Nat := if b then 1 else 0

/-- The signed value of an `n`-bit field. -/
def signed (n v : Nat) : Int := if v % 2 ^ n < 2 ^ (n - 1) then (v % 2 ^ n : Nat) else ((v % 2 ^ n : Nat) : Int) - (2 ^ n : Nat)

/-- An integer as an `n`-bit two's complement field. -/
def unsigned (n : Nat) (v : Int) : Nat := (v % (2 ^ n : Nat)).toNat

/-- An integer held within `-2^(n-1)` and `2^(n-1) - 1`. -/
def saturate (n : Nat) (v : Int) : Int :=
  if v < -((2 ^ (n - 1) : Nat) : Int) then -((2 ^ (n - 1) : Nat) : Int)
  else if v > ((2 ^ (n - 1) : Nat) : Int) - 1 then ((2 ^ (n - 1) : Nat) : Int) - 1 else v

/-- The least multiple of `m` at or above `v`. -/
def roundUp (v m : Nat) : Nat := (v + m - 1) / m * m

/-- Division rounded up; 0 for a zero divisor. -/
def ceilDiv (a b : Nat) : Nat := if b = 0 then 0 else (a + b - 1) / b

/-- Whether every byte of a range is zero. -/
def allZero (b : Bytes) (i n : Nat) : Bool := (slice b i n).all (· == 0)

/-- One bit of the reflected CRC-32C register (05 R157). -/
def crcBit (r : Nat) : Nat := if r % 2 = 1 then (r / 2) ^^^ 0x82F63B78 else r / 2

/-- One byte of the reflected CRC-32C register. -/
def crcByte (r : Nat) (b : Byte) : Nat :=
  crcBit (crcBit (crcBit (crcBit (crcBit (crcBit (crcBit (crcBit (r ^^^ b.toNat))))))))

/-- CRC-32C (Castagnoli, reflected, final complement) with a register preset (05 R157). -/
def crc32c (preset : Nat) (b : Bytes) : Nat := (b.foldl crcByte preset) ^^^ 0xFFFFFFFF

/-- Serial comparison of 32-bit sequence numbers: a ≤ b (08 R249). -/
def seqLe (a b : Nat) : Bool := decide ((b + 2 ^ 32 - a % 2 ^ 32) % 2 ^ 32 < 2 ^ 31)

/-- A table keyed by numbers, in rising order of its keys. -/
abbrev Tab (α : Type) := List (Nat × α)

/-- The value at a key. -/
def Tab.get {α : Type} : Tab α → Nat → Option α
  | [], _ => none
  | (j, v) :: t, k => if j = k then some v else Tab.get t k

/-- The table with a value at a key. -/
def Tab.set {α : Type} : Tab α → Nat → α → Tab α
  | [], k, v => [(k, v)]
  | (j, w) :: t, k, v => if k < j then (k, v) :: (j, w) :: t else if k = j then (k, v) :: t else (j, w) :: Tab.set t k v

/-- The table without a key. -/
def Tab.del {α : Type} : Tab α → Nat → Tab α
  | [], _ => []
  | (j, w) :: t, k => if j = k then t else (j, w) :: Tab.del t k

/-- The value at a key changed, where there is one. -/
def Tab.mod {α : Type} : Tab α → Nat → (α → α) → Tab α
  | [], _, _ => []
  | (j, w) :: t, k, f => if j = k then (j, f w) :: t else (j, w) :: Tab.mod t k f

/-- Whether a key is present. -/
def Tab.has {α : Type} (t : Tab α) (k : Nat) : Bool := (t.get k).isSome

/-- The least number from `lo` on, among the next `fuel`, that is not a key. -/
def Tab.firstFree {α : Type} (t : Tab α) (lo : Nat) : Nat → Option Nat
  | 0 => none
  | n + 1 => if t.has lo then Tab.firstFree t (lo + 1) n else some lo

/-- Element `i` of a list changed. -/
def modAt {α : Type} (l : List α) (i : Nat) (f : α → α) : List α := l.modify i f

end Sys2Proof.Machine
end

