-- ==== Sys2Proof/Machine/Crypto.lean ====
section
/-! DEFINITION. The algorithms of 10 R289: AES-256 (FIPS 197), GCM (SP 800-38D), XTS-AES-256 (IEEE 1619),
ChaCha20-Poly1305 (RFC 8439) and SHAKE256 (FIPS 202), PRESUMED from those standards, which the spec cites and does not
print (assumption log 9). -/

namespace Sys2Proof.Machine

/-- Bytewise exclusive or, as long as the shorter. -/
def xorBytes (a b : Bytes) : Bytes := List.zipWith (· ^^^ ·) a b

/-- Bytes cut into blocks of `n`; `fuel` bounds their number. -/
def blocksOf (n : Nat) : Nat → Bytes → List Bytes
  | 0, _ => []
  | k + 1, b => if b.isEmpty then [] else b.take n :: blocksOf n k (b.drop n)

/-- Bytes cut into blocks of `n`, the last one shorter where they do not fill it. -/
def chunks (n : Nat) (b : Bytes) : List Bytes := blocksOf n (b.length / n + 1) b

/-! ## AES-256 -/

/-- Multiplication by x in GF(2^8). -/
def xtime (a : Nat) : Nat := if a < 128 then 2 * a else (2 * a - 256) ^^^ 0x1B

/-- Multiplication in GF(2^8), over the `n` low bits of the second factor. -/
def gmulN : Nat → Nat → Nat → Nat
  | 0, _, _ => 0
  | n + 1, a, b => (if b % 2 = 1 then a else 0) ^^^ gmulN n (xtime a) (b / 2)

/-- Multiplication in GF(2^8). -/
def gmul (a b : Nat) : Nat := gmulN 8 a b

/-- The inverse in GF(2^8): the 254th power; 0 for 0. -/
def ginv (a : Nat) : Nat := (List.range 253).foldl (fun r _ => gmul r a) a

/-- A byte rotated left. -/
def rotl8 (a n : Nat) : Nat := (a * 2 ^ n) % 256 + a / 2 ^ (8 - n)

/-- One entry of the S-box. -/
def sboxOf (a : Nat) : Nat :=
  let b := ginv a
  b ^^^ rotl8 b 1 ^^^ rotl8 b 2 ^^^ rotl8 b 3 ^^^ rotl8 b 4 ^^^ 0x63

/-- The S-box and its inverse. -/
def sboxTable : List Nat := (List.range 256).map sboxOf
def invSboxTable : List Nat := (List.range 256).map fun a => (sboxTable.findIdx? (· == a)).getD 0
def subByte (a : Byte) : Byte := byte (sboxTable.getD a.toNat 0)
def invSubByte (a : Byte) : Byte := byte (invSboxTable.getD a.toNat 0)

/-- The words of the key schedule from word `i` on; the list holds the words so far, latest first. -/
def expandKey : Nat → Nat → Nat → List Bytes → List Bytes
  | 0, _, _, w => w
  | n + 1, i, rc, w =>
    let t := w.headD []
    let t' := if i % 8 = 0 then
        match (t.drop 1 ++ t.take 1).map subByte with
        | a :: r => (a ^^^ byte rc) :: r
        | [] => []
      else if i % 8 = 4 then t.map subByte else t
    expandKey n (i + 1) (if i % 8 = 0 then xtime rc else rc) (xorBytes (w.getD 7 []) t' :: w)

/-- The 15 round keys of 16 bytes. -/
def roundKeys (key : Bytes) : List Bytes :=
  let w := (expandKey 52 8 1 ((chunks 4 (sliceZ key 0 32)).reverse)).reverse
  chunks 16 w.flatten

/-- ShiftRows and its inverse. -/
def shiftRows (b : Bytes) : Bytes := (List.range 16).map fun i => b.getD ((i + 4 * (i % 4)) % 16) 0
def invShiftRows (b : Bytes) : Bytes := (List.range 16).map fun i => b.getD ((i + 12 * (i % 4)) % 16) 0

/-- One column times the circulant matrix of four coefficients. -/
def mixColumn (m : List Nat) (c : Bytes) : Bytes :=
  (List.range 4).map fun i => byte ((List.range 4).foldl (fun a j => a ^^^ gmul (c.getD j 0).toNat (m.getD ((j + 4 - i) % 4) 0)) 0)

/-- MixColumns and its inverse. -/
def mixColumns (m : List Nat) (b : Bytes) : Bytes := ((chunks 4 b).map (mixColumn m)).flatten

/-- One block encrypted under round keys. -/
def aesRounds : List Bytes → Bytes → Bytes
  | [], b => b
  | [k], b => xorBytes (shiftRows (b.map subByte)) k
  | k :: r, b => aesRounds r (xorBytes (mixColumns [2, 3, 1, 1] (shiftRows (b.map subByte))) k)

/-- One block decrypted under the reversed round keys. -/
def aesInvRounds : List Bytes → Bytes → Bytes
  | [], b => b
  | [k], b => xorBytes ((invShiftRows b).map invSubByte) k
  | k :: r, b => aesInvRounds r (mixColumns [14, 11, 13, 9] (xorBytes ((invShiftRows b).map invSubByte) k))

/-- AES-256 of one 16-byte block under round keys. -/
def aesEnc (rk : List Bytes) (b : Bytes) : Bytes :=
  match rk with
  | k :: r => aesRounds r (xorBytes b k)
  | [] => b

/-- Its inverse. -/
def aesDec (rk : List Bytes) (b : Bytes) : Bytes :=
  match rk.reverse with
  | k :: r => aesInvRounds r (xorBytes b k)
  | [] => b

/-! ## GCM -/

/-- Multiplication in GF(2^128) with the bit order of GCM; `n` bits of the first factor remain. -/
def ghMulN : Nat → Nat → Nat → Nat → Nat
  | 0, _, _, z => z
  | n + 1, x, v, z =>
    ghMulN n x (if v % 2 = 1 then (v / 2) ^^^ (0xE1 * 2 ^ 120) else v / 2) (if bit x n then z ^^^ v else z)

/-- GHASH over blocks, each filled with zeros. -/
def ghash (h : Nat) (l : List Bytes) : Nat := l.foldl (fun y b => ghMulN 128 (y ^^^ be (sliceZ b 0 16) 0 16) h 0) 0

/-- The counter blocks' key stream applied from a 32-bit counter on. -/
def gcmCtr (rk : List Bytes) (iv : Bytes) : Nat → List Bytes → List Bytes
  | _, [] => []
  | c, b :: l => xorBytes b (aesEnc rk (iv ++ toBe 4 (c % 2 ^ 32))) :: gcmCtr rk iv (c + 1) l

/-- The GCM key stream over data (encryption and decryption alike). -/
def gcmCrypt (key iv data : Bytes) : Bytes := (gcmCtr (roundKeys key) (sliceZ iv 0 12) 2 (chunks 16 data)).flatten

/-- The GCM tag of additional data and ciphertext, for a 96-bit IV. -/
def gcmTag (key iv aad ct : Bytes) : Bytes :=
  let rk := roundKeys key
  let h := be (aesEnc rk (zeros 16)) 0 16
  let s := ghash h (chunks 16 aad ++ chunks 16 ct ++ [toBe 8 (8 * aad.length) ++ toBe 8 (8 * ct.length)])
  xorBytes (toBe 16 s) (aesEnc rk (sliceZ iv 0 12 ++ [0, 0, 0, 1]))

/-- AES-256-GCM: ciphertext and tag. -/
def gcmSeal (key iv aad pt : Bytes) : Bytes × Bytes :=
  let ct := gcmCrypt key iv pt
  (ct, gcmTag key iv aad ct)

/-- AES-256-GCM opened: none where the tag does not verify. -/
def gcmOpen (key iv aad ct tag : Bytes) : Option Bytes := if gcmTag key iv aad ct = tag then some (gcmCrypt key iv ct) else none

/-! ## XTS-AES-256 -/

/-- A tweak times alpha. -/
def xtsNext (t : Nat) : Nat := if t < 2 ^ 127 then 2 * t else (2 * t - 2 ^ 128) ^^^ 0x87

/-- A block under a tweak. -/
def xtsBlock (f : Bytes → Bytes) (t : Nat) (b : Bytes) : Bytes := xorBytes (f (xorBytes b (toLe 16 t))) (toLe 16 t)

/-- The blocks of a data unit; a short last block steals ciphertext. `swap` for decryption. -/
def xtsBlocks (f : Bytes → Bytes) (swap : Bool) : Nat → List Bytes → Bytes
  | _, [] => []
  | t, [b] => xtsBlock f t b
  | t, b :: c :: l =>
    if c.length = 16 ∨ !l.isEmpty then xtsBlock f t b ++ xtsBlocks f swap (xtsNext t) (c :: l)
    else
      let (t1, t2) := if swap then (xtsNext t, t) else (t, xtsNext t)
      let cc := xtsBlock f t1 b
      xtsBlock f t2 (c ++ cc.drop c.length) ++ cc.take c.length

/-- One data unit under a 64-byte key (Key1 then Key2) and a tweak number. -/
def xtsUnit (dec : Bool) (key : Bytes) (tweak : Nat) (b : Bytes) : Bytes :=
  let rk := roundKeys (key.take 32)
  let t := le (aesEnc (roundKeys (key.drop 32)) (toLe 16 (tweak % 2 ^ 128))) 0 16
  xtsBlocks (if dec then aesDec rk else aesEnc rk) dec t (chunks 16 b)

/-- Data units of a length under consecutive tweaks. -/
def xtsUnits (dec : Bool) (key : Bytes) : Nat → List Bytes → Bytes
  | _, [] => []
  | tw, u :: l => xtsUnit dec key tw u ++ xtsUnits dec key (tw + 1) l

/-! ## ChaCha20-Poly1305 -/

/-- A 32-bit word rotated left. -/
def rotl32 (a n : Nat) : Nat := (a * 2 ^ n) % 2 ^ 32 + a / 2 ^ (32 - n)

/-- The quarter round on four words of a state. -/
def quarter (w : List Nat) (a b c d : Nat) : List Nat :=
  let g := fun (w : List Nat) i => w.getD i 0
  let f := fun (w : List Nat) x y z n =>
    let s := (g w x + g w y) % 2 ^ 32
    (w.set x s).set z (rotl32 (g w z ^^^ s) n)
  f (f (f (f w a b d 16) c d b 12) a b d 8) c d b 7

/-- Two rounds. -/
def chachaDouble (w : List Nat) : List Nat :=
  let w := quarter (quarter (quarter (quarter w 0 4 8 12) 1 5 9 13) 2 6 10 14) 3 7 11 15
  quarter (quarter (quarter (quarter w 0 5 10 15) 1 6 11 12) 2 7 8 13) 3 4 9 14

/-- Block `n` of the key stream. -/
def chachaBlock (key nonce : Bytes) (n : Nat) : Bytes :=
  let w := [0x61707865, 0x3320646e, 0x79622d32, 0x6b206574] ++ (List.range 8).map (fun i => le key (4 * i) 4)
    ++ [n % 2 ^ 32] ++ (List.range 3).map (fun i => le nonce (4 * i) 4)
  let r := (List.range 10).foldl (fun w _ => chachaDouble w) w
  (List.zipWith (fun a b => toLe 4 ((a + b) % 2 ^ 32)) r w).flatten

/-- The key stream over data from a block on. -/
def chachaBlocks (key nonce : Bytes) : Nat → List Bytes → Bytes
  | _, [] => []
  | n, b :: l => xorBytes b (chachaBlock key nonce n) ++ chachaBlocks key nonce (n + 1) l

/-- ChaCha20 over data from block 1 on. -/
def chachaCrypt (key nonce data : Bytes) : Bytes := chachaBlocks key nonce 1 (chunks 64 data)

/-- Poly1305 under a 32-byte one-time key. -/
def poly1305 (key msg : Bytes) : Bytes :=
  let r := le key 0 16 &&& 0x0ffffffc0ffffffc0ffffffc0fffffff
  let p := 2 ^ 130 - 5
  let a := (chunks 16 msg).foldl (fun a b => (a + le b 0 b.length + 2 ^ (8 * b.length)) * r % p) 0
  toLe 16 ((a + le key 16 16) % 2 ^ 128)

/-- Filled to a multiple of 16 with zeros. -/
def pad16 (b : Bytes) : Bytes := b ++ zeros ((16 - b.length % 16) % 16)

/-- The AEAD tag of RFC 8439. -/
def chachaTag (key nonce aad ct : Bytes) : Bytes :=
  poly1305 (chachaBlock key nonce 0) (pad16 aad ++ pad16 ct ++ toLe 8 aad.length ++ toLe 8 ct.length)

/-! ## SHAKE256 -/

/-- A 64-bit lane rotated left. -/
def rotl64 (a n : Nat) : Nat := (a * 2 ^ n) % 2 ^ 64 + a / 2 ^ (64 - n)

/-- Rotation offsets of the lanes, x fastest. -/
def rhoOffsets : List Nat := [0, 1, 62, 28, 27, 36, 44, 6, 55, 20, 3, 10, 43, 25, 39, 41, 45, 15, 21, 8, 18, 2, 61, 56, 14]

/-- One bit of the round constants' LFSR. -/
def rcStep (r : Nat) : Nat := if r < 128 then 2 * r else (2 * r - 256) ^^^ 0x71

/-- The LFSR after `n` steps. -/
def rcAt (n : Nat) : Nat := (List.range n).foldl (fun r _ => rcStep r) 1

/-- The round constant of a round. -/
def roundConst (i : Nat) : Nat := ((List.range 7).map fun j => if rcAt (7 * i + j) % 2 = 1 then 2 ^ (2 ^ j - 1) else 0).sum

/-- The constants of the 24 rounds. -/
def roundConsts : List Nat := (List.range 24).map roundConst

/-- One round of Keccak-f[1600] on 25 lanes. -/
def keccakRound (a : List Nat) (rc : Nat) : List Nat :=
  let g := fun (l : List Nat) x y => l.getD (x % 5 + 5 * (y % 5)) 0
  let c := (List.range 5).map fun x => g a x 0 ^^^ g a x 1 ^^^ g a x 2 ^^^ g a x 3 ^^^ g a x 4
  let d := (List.range 5).map fun x => c.getD ((x + 4) % 5) 0 ^^^ rotl64 (c.getD ((x + 1) % 5) 0) 1
  let e := (List.range 25).map fun i => rotl64 (a.getD i 0 ^^^ d.getD (i % 5) 0) (rhoOffsets.getD i 0)
  let b := (List.range 25).map fun i => g e (i % 5 + 3 * (i / 5)) (i % 5)
  let r := (List.range 25).map fun i =>
    g b (i % 5) (i / 5) ^^^ ((2 ^ 64 - 1 - g b (i % 5 + 1) (i / 5)) &&& g b (i % 5 + 2) (i / 5))
  r.set 0 (r.getD 0 0 ^^^ rc)

/-- Keccak-f[1600]. -/
def keccakF (a : List Nat) : List Nat := roundConsts.foldl keccakRound a

/-- A block of 136 bytes absorbed. -/
def absorb (a : List Nat) (b : Bytes) : List Nat :=
  keccakF ((List.range 25).map fun i => a.getD i 0 ^^^ (if i < 17 then le b (8 * i) 8 else 0))

/-- Output of the sponge, 136 bytes at a time. -/
def squeeze : Nat → List Nat → Bytes
  | 0, _ => []
  | n + 1, a => ((a.take 17).map (toLe 8)).flatten ++ squeeze n (keccakF a)

/-- SHAKE256 of a message, `n` bytes. -/
def shake256 (msg : Bytes) (n : Nat) : Bytes :=
  let pad := 136 - msg.length % 136
  let p := if pad = 1 then [0x9F] else [0x1F] ++ zeros (pad - 2) ++ [0x80]
  let a := (chunks 136 (msg ++ p)).foldl absorb (List.replicate 25 0)
  (squeeze (n / 136 + 1) a).take n

end Sys2Proof.Machine
end

