-- ==== Sys2Proof/Machine/Ecc.lean ====
section
/-! DEFINITION. The error-correcting code of memory (14 R397 to R402): a Reed-Solomon code over GF(2^8) that corrects one symbol,
and the decoding of a 64-byte line of eight codewords. -/

namespace Sys2Proof.Machine

/-- A field element times alpha, with field polynomial 0x11D (R398). -/
def gfDouble (a : Nat) : Nat := if a < 128 then 2 * a else (2 * a) ^^^ 0x11D

/-- A field element times a power of alpha. -/
def gfShift : Nat → Nat → Nat
  | 0, a => a
  | n + 1, a => gfShift n (gfDouble a)

/-- The two check symbols of data symbols: the remainder by g(x) = x^2 + 3x + 2 (R398). -/
def rsCheck (data : List Nat) : Nat × Nat :=
  data.foldl (fun (h, l) d => (l ^^^ gfDouble (d ^^^ h) ^^^ (d ^^^ h), gfDouble (d ^^^ h))) (0, 0)

/-- A codeword: the data symbols, then the check symbols. -/
def rsEncode (data : List Nat) : List Nat := data ++ [(rsCheck data).1, (rsCheck data).2]

/-- The syndromes of a codeword: its values at 1 and at alpha. -/
def rsSyndrome (cw : List Nat) : Nat × Nat := (cw.foldl (· ^^^ ·) 0, cw.foldl (fun a c => gfDouble a ^^^ c) 0)

/-- The syndrome that marks poison: both check symbols XORed with 0xA5 (R402). -/
def poisonSyndrome : Nat × Nat := (0, gfDouble 0xA5 ^^^ 0xA5)

/-- The correction of a codeword: nothing to correct, one symbol and its error, or none where no single symbol explains it. -/
def rsFix (cw : List Nat) : Option (List (Nat × Nat)) :=
  let (a, b) := rsSyndrome cw
  if a = 0 ∧ b = 0 then some []
  else if a = 0 then none
  else ((List.range cw.length).find? fun s => gfShift (cw.length - 1 - s) a == b).map fun s => [(s, a)]

/-- An error changes exactly one bit. -/
def oneBit (e : Nat) : Bool := [1, 2, 4, 8, 16, 32, 64, 128].contains e

/-- How reading a line ends (R399): poisoned, uncorrectable, or good with its corrections (codeword, symbol, error). -/
inductive LineEnd where
  | poisoned
  | uncorrectable
  | good (fixes : List (Nat × Nat × Nat))
deriving DecidableEq, Repr

/-- The eight codewords of a line decoded together (R399). -/
def decodeLine (line : List (List Nat)) : LineEnd :=
  if line.all fun cw => rsSyndrome cw == poisonSyndrome then .poisoned
  else
    let fixes := line.zipIdx.map fun (cw, k) => (rsFix cw).map fun l => l.map fun (s, e) => (k, s, e)
    if fixes.any (·.isNone) then .uncorrectable
    else
      let l := (fixes.filterMap id).flatten
      if (List.range 10).any fun p => l.all fun (_, s, e) => s == p || oneBit e then .good l else .uncorrectable

/-- The codewords that a channel holds for the 64 bytes of a line, and those it returns with errors, eight times ten symbols. -/
def lineCodewords (data errors : Bytes) (poisoned : Bool) : List (List Nat) :=
  (List.range 8).map fun k =>
    ((rsEncode ((List.range 8).map fun s => byteAt data (8 * k + s))).zipIdx).map fun (c, s) =>
      c ^^^ byteAt errors (10 * k + s) ^^^ (if poisoned && 8 ≤ s then 0xA5 else 0)

/-- The 80 symbols of a burst of 16 beats of 40 lanes, five bytes a beat: symbol s of codeword k takes lanes 4s to 4s + 3, its low half from
beat 2k and its high half from beat 2k + 1 (R397). -/
def burstSymbols (burst : Bytes) : Bytes :=
  (List.range 80).map fun i =>
    let half := fun (beat : Nat) => byteAt burst (5 * beat + i % 10 / 2) / 16 ^ (i % 2) % 16
    byte (half (2 * (i / 10)) + 16 * half (2 * (i / 10) + 1))

/-- The DRAM device of a symbol position: on an x4 module the device on its lanes, on an x8 module device d gives symbols 2d and 2d + 1 (R397). -/
def deviceOf (x4 : Bool) (pos : Nat) : Nat := if x4 then pos else pos / 2

/-- The 64 data bytes of a line as read, with corrections made. -/
def lineData (line : List (List Nat)) (fixes : List (Nat × Nat × Nat)) : Bytes :=
  (List.range 64).map fun i =>
    byte (fixes.foldl (fun c (k, s, e) => if k = i / 8 ∧ s = i % 8 then c ^^^ e else c) ((line.getD (i / 8) []).getD (i % 8) 0))

end Sys2Proof.Machine
end

