-- ==== Sys2Proof/Config.lean ====
section
/-! DEFINITION. What the spec leaves open: free values (opaque, without a body that Lean can evaluate) and the
results of the signature schemes that the spec cites and does not define (assumption log 4, 10, 11, 14). -/

namespace Sys2Proof.Config

/-- A fresh free value: what a host error leaves in a register, or a choice the spec leaves to the device
(00_scope.md R6; assumption log 4). The argument is the model's free-value counter. -/
opaque freeNat : Nat → Nat

/-- The free values of one host error, numbered, independent of one another (00_scope.md R6; assumption log 4). -/
opaque freeAt : Nat → Nat → Nat

/-- The places that reply data gives its fields, where the spec names the fields and no layout: a free function of the
opcode and of the field values (log 13). -/
opaque layout : Nat → List Nat → Bytes

/-- The CRC-16 over the fields of a queue context, whose polynomial and form the spec does not give (03_rings.md R87; log 13). -/
opaque crc16 : List Nat → Nat

/-- The site that the parameters of a DIAG_ERR_INJECT name on a die, and the error pattern there, of the 18 symbols of an SRAM
word or the 80 of a DRAM line, for which the spec gives no form (04_commands.md R131; log 43). -/
opaque errSite : Nat → Bytes → Nat
opaque errPattern : Nat → Bytes → Bytes

/-- 32 random bytes of Buckram's noise source (17_trust_lifecycle_debug.md R463 R469; log 11). -/
opaque random32 : Nat → Bytes

/-- The frequency estimate that matches FT to its source after a measurement, in 1/256 ppb (02_fabric_time.md R44
gives its use and its limit, not its computation; log 14). -/
opaque freqEstimate : Nat → Int

/-- The rate at which a slew removes an offset, in 1/256 ppb, of which at most 1,000 ppm are used (R44; log 14). -/
opaque slewRate : Nat → Nat

/-- XMSS-SHAKE256_20_256 verification of a 64-byte digest: public key, digest, signature (15 R420; log 10). -/
opaque xmssVerify : Bytes → Bytes → Bytes → Bool

/-- The XMSS^MT signature of a digest under the attestation seeds at an index (17 R464 R477; log 10). -/
opaque xmssmtSign : Bytes → Nat → Bytes → Bytes

/-- The XMSS^MT public key (OID, root, SEED: 68 bytes) of the attestation seeds (17 R464; log 10). -/
opaque xmssmtPublic : Bytes → Bytes

/-- SHAKE256 digest of the manufacturing key that ROM holds (15 R422; log 10). -/
opaque romMfgKeyDigest : Bytes

/-- SHAKE256 digest of the Floanhus authority key that ROM holds (17 R467; log 10). -/
opaque romAuthorityDigest : Bytes

/-- The 64-byte event digest of ROM and the stepping (17 R474; log 10). -/
opaque romDigest : Bytes

/-- The 8-byte Device Serial Number of the part (01 R28; log 13). -/
opaque deviceSerial : Bytes

/-- The enterprise number of the device's MCTP vendor messages (04 R118; log 13). -/
opaque enterpriseNumber : W32

/-- Where in the range of its Completion Timeout Value the timeout of a read lies, in ns (13 R375; log 17). -/
opaque completionTimeout : Nat → Nat → Nat

/-- A sub-link of a host port is in Flit mode, which the rate and the link partner settle and which the spec's commands do not give
(13 R361; log 27). -/
opaque flitMode : Nat → Nat → Bool

/-- The first PSN of a connection direction, which the spec does not give (08 R243; log 16). -/
opaque firstPsn : Nat

/-- The source MAC address of KRM packets on a logical port, which the spec does not give (08 R241; log 16). -/
opaque portMac : Nat → Nat

/-- A logical port is in one-step mode, for which the spec gives no register (02 R54 R57; log 46). -/
opaque oneStep : Nat → Bool

/-- What picks the logical rank and the subchannel of a line of a channel, whose map the spec does not give (14 R399 R411; log 36). -/
opaque lineRank : Nat → Nat → Nat

/-- Which of the two standard forms of the sampling LFSR of 12 R358 the device uses, whose polynomial alone is given (log 28). -/
opaque lfsrGalois : Bool

/-- The identifier that PCI-SIG has assigned to Floanhus, which the spec does not give (13 R364; log 27). -/
opaque vendorId : Nat

/-- Steps of the service firmware and Buckram entry points are the images' own; this is the stepping B0 (13 R364). -/
def stepping : Nat := 0x10

end Sys2Proof.Config
end

