-- ==== Sys2Proof/Machine/State.lean ====
section
/-! DEFINITION. The state of the block: every register, queue, table, counter, mode and pin that the spec gives it, as
plain data, the queue of waiting commands, and the state after device reset. -/

namespace Sys2Proof.Machine

/-- No command stops this machine: every error of the spec is a status, an event, a counter or the FATAL state, and all
of these are state (13 R391). -/
inductive Fault where
deriving DecidableEq, Repr

/-- What the model refuses. -/
inductive Refusal where
  /-- Raised by a dispatch arm whose command has no meaning yet; safe, since nothing can be proved of its effect. -/
  | notModelled (mnemonic : String)
deriving DecidableEq, Repr

/-! ## Owners, references and outputs -/

/-- A host reference without its address: the function and the PASID, or none (01 R24). -/
structure HostRef where
  fn : FnRef
  pasid : Option Nat
deriving DecidableEq, Repr

/-- The owner of an object: service firmware, a function or slice (08 R250, 03 R87), or the management controller, which may
create volumes (04 R131). -/
inductive Owner where
  | firmware
  | management
  | function (fn : FnRef)
  | slice (sid : Nat) (mgr : FnRef)
deriving DecidableEq, Repr

/-- Who issues a command (04 R119). -/
inductive Caller where
  | management
  | fn (f : FnRef)
  | slice (sid : Nat) (mgr : FnRef)
  | firmware
deriving DecidableEq, Repr

/-- What leaves the block. -/
inductive Out where
  /-- A posted write to host memory, and whether it carries Relaxed Ordering (13 R373 R532, 08 R255). -/
  | hostWrite (ref : HostRef) (addr : Nat) (bytes : Bytes) (relaxed : Bool := false)
  /-- Any writes to the host memory that a reference reaches: the outcome of a host error (00 R6). -/
  | hostAny (ref : HostRef)
  /-- A read request to a host port (13 R373). -/
  | hostRead (tag : Nat) (ref : HostRef) (addr len : Nat)
  /-- A frame on a logical port with its timestamp point (05, 07). -/
  | frame (port : Nat) (bytes : Bytes) (ft : Nat)
  /-- An MCTP message of the management endpoint: Tag Owner, tag, body (04 R118, 18 R492). -/
  | mctp (tagOwner : Bool) (tag : Nat) (body : Bytes)
  /-- A reply and its data in the JTAG mailbox (17 R471). -/
  | jtag (body : Bytes)
  /-- An MSI-X message: a memory write of the vector's address and data (13 R372). -/
  | msix (fn : FnRef) (vector : Nat) (addr : Nat := 0) (data : Nat := 0)
  /-- The value a register read returns. -/
  | readValue (value : Nat)
  /-- The buffer a debugger read returns (12 R355). -/
  | readBuffer (bytes : Bytes)
  /-- Unsupported Request answered to a host read (13 R361 R368). -/
  | unsupported (fn : FnRef)
  /-- Request Retry Status answered to a Configuration Request (13 R366 R383). -/
  | retryStatus (fn : FnRef)
  /-- ERR_FATAL of a sub-link (13 R391), ERR_NONFATAL and ERR_COR of a function (13 R390). -/
  | errFatal (port sub : Nat)
  | errNonFatal (fn : FnRef)
  | errCor (fn : FnRef)
  /-- The frame that a logical port transmits ends with an inverted FCS (14 R406). -/
  | badFcs (port : Nat)
  /-- FT_PPS_OUT driven high or low, or tri-stated (02 R58, 19 R529). -/
  | ppsOut (level : Option Bool)
  /-- THERM_TRIP# asserted (16 R457). -/
  | thermTrip
  /-- An LTR message of a sub-link: a tolerance in ns, or no requirement (13 R388). -/
  | ltr (port sub : Nat) (tolerance : Option Nat)
  /-- An all-bank REFRESH of a rank (14 R408). -/
  | refresh (channel rank : Nat)
deriving DecidableEq, Repr

/-! ## Fabric time -/

/-- Discipline states, in the order of the codes of 02 R42. -/
inductive FtState where
  | free | acquiring | locked | holdover | unlocked
deriving DecidableEq, Repr

/-- A step decided by measurement or by FT_SET and not yet applied (02 R45 R61). -/
structure PendStep where
  amount : Int
  setTo : Option Nat
  boundary : Nat
  cmd : Option Cmd
deriving DecidableEq, Repr

/-- A configuration change that awaits a frame boundary (02 R62): register number in R60 offset form and value. -/
structure CfgChange where
  writes : List (Nat × W32)
  accepted : Nat
  cmd : Option Cmd
deriving DecidableEq, Repr

/-- The clocks: oscillator time, FT with its fraction, FT one oscillator nanosecond ago, and the read latch of each die (02 R35
R60 R64). -/
structure TimeSt where
  osc : Nat
  ft : Nat
  prev : Nat
  frac : Nat
  rem : Nat
  latchHigh : List Nat
  latchFrac : List Nat
deriving DecidableEq, Repr

/-- The fabric-time unit (02 R39 to R62). Offsets are in 2^-16 ns, frequencies in 1/256 ppb. `misalign` is how far each die's
counter stands from the master's, in 0.25 ns, and `comp` the route latency in ns that each die compensates (R51 R52), and `shown` what each
die's counter has come to, below which it does not go back but over a step, in 2^-16 ns (R38). -/
structure FtuSt where
  state : FtState
  lockCount : Nat
  setIgn : Bool
  srcPresent : Bool
  holdOscClk : Bool
  intOsc : Bool
  srcCfg : W32
  lockThresh : W32
  holdCfg : W32
  ppsOutCfg : W32
  ppsOutLive : W32
  utc : W32
  asym : List W32
  estimate : Int
  freqEst : Int
  slewPart : Int
  slewLeft : Int
  boundBase : Nat
  boundFrom : Nat
  stepAt : Nat
  stepAmt : Int
  pendStep : Option PendStep
  measOffs : W64
  med1 : Option Int
  med2 : Option Int
  lastMeasAt : Option Nat
  bigMeas : Option Int
  overCount : Nat
  commitAt : Nat
  lost : Bool
  announceLost : Bool
  ppsRef : Option Nat
  ppsPaired : Bool
  cfgPend : List CfgChange
  ppsOutPend : Option (W32 × Nat)
  misalign : List Int
  comp : List Nat
  shown : List Nat
  dieErr : Nat
  maxErr : Nat
deriving DecidableEq, Repr

/-! ## Fabric, memory and DRAM -/

/-- A package fabric link (01 R15 R18). -/
structure LinkSt where
  up : Bool
  fails : Nat
deriving DecidableEq, Repr

/-- Owner class of a DRAM region (14 R403) or the areas that 17 R459 names apart. -/
inductive RegionOwner where
  | device | secure | function | code | push | handover
deriving DecidableEq, Repr

/-- A DRAM region (01 R25 R26 R27): `local3` is the tile of LOCAL3(t), none for GLOBAL12; `holder` is the function or slice that
a FUNCTION region was created for (14 R403); `checked` is false for a code region whose copy has not been checked (15 R429). -/
structure Region where
  base : Nat
  size : Nat
  local3 : Option Nat
  chanBase : Nat
  enabled : Bool
  owner : RegionOwner
  used : Nat
  holder : Option Owner := none
  checked : Bool := true
deriving DecidableEq, Repr

/-- A DDR channel and its controller (14): `hot` is what the sensors of its two modules last read, `calLeft` the requested windows
to come and `calNext` the instant from which the next may begin, `scrubPass` the lines that an earlier pass has left. -/
structure ChannelSt where
  pop : Option ChannelPop
  trained : Bool
  hot : List Bool
  sidebandBad : Bool
  calLeft : Nat
  calNext : Nat
  calCmd : Option Cmd
  calUntil : Nat
  lastRefresh : List (Nat × Nat)
  scrubStart : Option Nat
  scrubNext : Nat
  scrubPass : Nat
  writebacks : List Nat
  stormFrame : Nat
  stormCount : Tab Nat
  stormRaised : List Nat
  failLines : List (Nat × Nat)
  failRaised : List Nat
deriving DecidableEq, Repr

/-- What stands in the symbols of a line and no read has met yet (14 R399): corrections that a read makes, as codeword, symbol and error,
or an error that cannot be corrected. -/
inductive LineFault where
  | fixes (l : List (Nat × Nat × Nat))
  | bad
deriving DecidableEq, Repr

/-- The memory system (14); `done`: training has ended (R396); `faults`: the lines in error that no read has met. -/
structure DramSt where
  channels : List ChannelSt
  regions : Tab Region
  poison : List Nat
  faults : Tab LineFault := []
  scrubPeriod : Nat
  scrubPend : Option Nat
  done : Bool
deriving DecidableEq, Repr

/-! ## Host ports -/

/-- Allowed sets of a slice (13 R380): MAC addresses, VLAN IDs, IPv4 and IPv6 prefixes, flags, and KRM owner set. -/
structure SpoofSets where
  macs : List Nat
  vlans : List Nat
  v4 : List (Nat × Nat)
  v6 : List (Nat × Nat)
  anyMac : Bool
  anyVlan : Bool
  anyIp : Bool
  krm : Bool
deriving DecidableEq, Repr

/-- A tenant slice (13 R376 to R382). -/
structure SliceSt where
  mgr : FnRef
  pasid : Nat
  live : Bool
  createdAt : Nat
  createCmd : Option Cmd
  spoof : SpoofSets
  spoofPend : Option (SpoofSets × Nat × Cmd)
  ctAllowed : Bool
  resetAt : Option Nat
  resetCmd : Option Cmd
  krmOwned : List Nat
deriving DecidableEq, Repr

/-- The AER errors that 13 R390 logs. -/
inductive AerErr where
  | link (e : LinkErr)
  | fatalLink (e : FatalErr)
  | completionTimeout | unexpectedCompletion | unsupportedRequest | poisonedTlp | internal
deriving DecidableEq, Repr

/-- A PCI Express function: its configuration fields and its control page (13 R364 to R371). `bars` are the addresses in BAR0, BAR2 and
BAR4, `vfBars` those in the SR-IOV VF BAR fields of a PF; the AER registers of severity and masks, with the bits of the specification. -/
structure FnSt where
  ref : FnRef
  bme : Bool
  mse : Bool
  d3hot : Bool
  msixEnable : Bool
  msixMask : Bool
  vecPending : List Nat
  vecSent : Tab Nat
  vecEntries : Tab Nat
  vfEnable : Bool
  numVfs : Nat
  pasidEnable : Bool
  relaxed : Bool
  aspmL1 : Bool
  l1ss : Nat := 0
  fatalReporting : Bool := false
  nonFatalReporting : Bool := false
  corReporting : Bool := false
  uncSeverity : Nat := 0x00462030
  uncMask : Nat := 0
  corMask : Nat := 0
  bars : List Nat := [0, 0, 0]
  vfBars : List Nat := [0, 0, 0]
  ltrEnable : Bool := false
  ctoValue : Nat
  maxPayload : Nat
  maxRead : Nat
  aer : List AerErr
  flrAt : Option Nat
  cmdEn : Bool
  cmdActive : Bool
  cmdErr : Bool
  cmdClosing : Bool
  sqBase : W64
  cqBase : W64
  wbBase : W64
  cmdCfg : W32
  sqQid : Nat
  cqQid : Nat
deriving DecidableEq, Repr

/-- A sub-link of a host port (13 R361 R362 R388 R389): lanes corrected or excluded at its training; in L1 with the substate L1.1 or
L1.2, or 0; whether its last LTR message carried a requirement; its rate in MT/s, and whether L0p was negotiated at its training. -/
structure SubLink where
  up : Bool
  inL1 : Bool
  l1sub : Nat := 0
  ltr : Bool := false
  rate : Nat := 0
  l0p : Bool := false
  trainedWidth : Nat
  width : Nat
  remapped : Bool
  dropped : Bool
deriving DecidableEq, Repr

/-- A host port (13). -/
structure HostPort where
  perst : Bool
  deassertedAt : Option Nat
  subLinks : List SubLink
  profile : Option (List PfRecord)
  verified : Option (List PfRecord)
  recovery : Bool
deriving DecidableEq, Repr

/-- What an outstanding host read is for. -/
inductive ReadFor where
  /-- Work entries from an index of a queue. -/
  | entries (qid idx count : Nat)
  /-- The fragment table of the entry at a queue's head. -/
  | fragTable (qid idx : Nat)
  /-- Data of a started operation, at an offset of its stream. -/
  | opData (op offset : Nat)
  /-- A beat of a DMA channel. -/
  | beat (tile chan beat : Nat)
  /-- A piece of block data or another engine's read whose data goes nowhere else in the state. -/
  | serve (cid psn : Nat)
deriving DecidableEq, Repr

/-- A host read: outstanding, or waiting for a tag of its port and not yet made (13 R373 R375); `own`: for whom. -/
structure HostReadSt where
  ref : HostRef
  addr : Nat
  len : Nat
  deadline : Nat
  dead : Bool
  why : ReadFor
  waiting : Bool := false
  own : Owner := .firmware
deriving DecidableEq, Repr

/-- The host dies (13); `timedOut`: the reads that have timed out and whose completion has not come since, with their function (R375). -/
structure HostSt where
  ports : List HostPort
  fns : List FnSt
  slices : Tab SliceSt
  reads : Tab HostReadSt
  nextTag : Nat
  timedOut : Tab FnRef := []
  msixReq : List (FnRef × Nat × Nat)
deriving DecidableEq, Repr

/-! ## Queues and operations -/

/-- Queue classes with the codes of 03 R78. -/
inductive QClass where
  | pktTx | pktRx | blkSq | krmSq | krmRq | cryJq | dmaCh | cmdSq | cq
deriving DecidableEq, Repr

/-- Queue states with the codes of 03 R87. -/
inductive QState where
  | disabled | enabled | draining | idle
deriving DecidableEq, Repr

/-- A fragment descriptor (03 R75). -/
structure Frag where
  addr : Nat
  len : Nat
  dev : Bool
deriving DecidableEq, Repr

/-- Where a PKT_TX queue sends its frames (07 R195). -/
inductive Dest where
  | none
  | port (n tc : Nat)
  | dg (d tc : Nat)
deriving DecidableEq, Repr

/-- New values of a shaper that await the queue's refill (07 R199). -/
structure ShaperSet where
  rate : Nat
  vs : Bool
  burst : Nat
  overhead : Int
  dest : Option Dest
  limit : Option Nat
  sample : Bool
  acceptedAt : Nat
  cmd : Cmd
deriving DecidableEq, Repr

/-- A queue's shaper (07 R195 to R199). Credit is in 10^-6 bit. -/
structure Shaper where
  rate : Nat
  burst : Nat
  overhead : Int
  dest : Dest
  limit : Nat
  sample : Bool
  credit : Int
  last : Nat
  ceiling : Option Nat
  pend : List ShaperSet
  waitUntil : Option Nat
deriving DecidableEq, Repr

/-- A finished operation's completion on its way to its CQ (03 R82 R86): the work queue, whether it ended S_OK and is
suppressed, and its 32 bytes with the reply buffer and data that go before it; `tag`: the tag of a block command; `reply`: the opcode
and TARGET of the command that it answers; `tile`: the tile whose operation context holds it (R105); `eoc`: the source and status
of an end-of-count event that follows it (11 R328). -/
structure Compl where
  qid : Nat
  ok : Bool
  suppressed : Bool
  bytes : Bytes
  data : Option (Frag × Bytes)
  event : Bool
  tag : Option Nat
  eoc : Option (Nat × Nat) := none
  reply : Option (Nat × Nat) := none
  tile : Option Nat := none
  ordered : Bool := false
deriving DecidableEq, Repr

/-- A queue context (03 R87) with what the queue manager keeps beside it. `maker`: the QUEUE_CREATE for which service firmware has
written the context, while Buckram has not bound the QID yet (04 R121); `headEnd`: the status of a read of the head's fragment table that
failed, until the head may start (03 R103). -/
structure Queue where
  cls : QClass
  logSize : Nat
  ring : Nat
  owner : Owner
  dbPage : Nat
  home : Nat
  cq : Nat
  wb : Nat
  vector : Nat
  ts4400 : Bool
  p : Nat
  c : Nat
  f : Nat
  state : QState
  cache : Tab Bytes
  failed : Tab Nat
  fetching : Nat
  headOk : Bool
  headFrags : Option (List Frag)
  headReading : Bool
  headEnd : Option Nat := none
  nextDone : Nat
  waitDone : Tab Compl
  due : List Compl
  held : List Compl
  episode : Bool
  replayHead : Option Nat
  armed : Bool
  wbDue : Bool
  wbP : Nat
  wbShown : Bytes
  disableCmds : List (Cmd × Nat)
  moveTo : Option Nat
  moveCmds : List Cmd
  moveAt : Nat
  destroyCmds : List Cmd
  resetAt : Option Nat
  resetEnd : Nat
  resetTags : Nat
  resetAbandoned : Nat
  resetCmd : Option Cmd
  command : Bool
  shaper : Shaper
  maker : Option Cmd
deriving DecidableEq, Repr

/-- A started operation (03 R67, 04 R122); `sets`: the spoof sets that were in force when the first byte of its frame passed the host die
(13 R382). -/
structure Op where
  qid : Nat
  idx : Nat
  tile : Nat
  entry : Bytes
  frags : List Frag
  got : List (Nat × Bytes)
  reading : Nat
  failAt : Option (Nat × Nat)
  startFt : Nat
  dest : Dest
  admitted : Bool
  status : Option Nat
  bytes : Nat
  ending : Bool
  sets : Option SpoofSets := none
deriving DecidableEq, Repr

/-- The queue managers (03); `rot`: the queue of each tile that fetched last (R99). -/
structure QmSt where
  queues : Tab Queue
  ops : Tab Op
  nextOp : Nat
  rot : List Nat
deriving DecidableEq, Repr

/-- A command that has started and not been replied to (04 R124): its ring or endpoint, opcode, TARGET and tag, and for a ring's
command the tile whose operation context holds it (03 R109); `start`: the FT of its start, for a management request that of its receipt
(R128). -/
structure InProgress where
  src : CmdSrc
  opcode : Nat
  target : Nat
  tag : Nat
  fence : Bool
  tile : Option Nat
  start : Nat
deriving DecidableEq, Repr

/-- A request in Buckram's mailbox (04 R122 R123): a command, or a request of service firmware's own. -/
inductive BkReq where
  | command (opcode : Nat) (c : Cmd) (caller : Caller)
  | route (source : Nat) (th : Bool) (inp thread : Nat)
  /-- a region made, changed or removed, with the TBL_CREATE that waits for it: log2 of its entries and its key form (01 R27) -/
  | region (index : Nat) (r : Option Region) (why : Option (Cmd × Nat × Nat))
deriving DecidableEq, Repr

/-- What a command ends with (04 R113). `ft`: the instant it took effect. -/
structure Answer where
  status : Nat
  d0 : Nat
  d1 : Nat
  data : Bytes
  ft : Option Nat
deriving DecidableEq, Repr

/-- Command handling (04); `held` and `heldAt`: management requests that wait, and when each was received; `waiting`: replies that
service firmware may not write during a command pause (R129). -/
structure CmdSt where
  inProgress : List InProgress
  mctpOut : List Nat
  mailbox : List BkReq
  rota : List Caller
  sfReady : Bool
  paused : Bool
  held : List (Nat × Cmd)
  heldAt : List Nat
  quiesce : List (Cmd × Nat × List Nat)
  waiting : List (Nat × Cmd × Answer)
deriving DecidableEq, Repr

/-! ## Damask, tables and frames -/

/-- A parse profile entry (05 R140). -/
structure Profile where
  depth : Nat
  hashInner : Bool
  hashSym : Bool
  mplsEth : Bool
  ptpAgent : Bool
  vlanStrip : Bool
  tpidA : Nat
  tpidB : Nat
  vxlanPort : Nat
  genevePort : Nat
  hashSeed : Nat
deriving DecidableEq, Repr

/-- A ternary rule (05 R147). -/
structure Rule where
  action : Nat
  value : Nat
  mask : Nat
deriving DecidableEq, Repr

/-- A rule bank (05 R146). -/
structure Bank where
  table : Nat
  level : Nat
  size : Nat
  rules : Tab Rule
deriving DecidableEq, Repr

/-- A change that awaits the frame boundary of 05 R159. -/
inductive RuleChange where
  | setRule (rank index : Nat) (r : Rule)
  | delRule (rank index : Nat)
  | setProfile (port : Nat) (raw : Bytes)
  | delProfile (port : Nat)
  | krmPort (p : Nat)
deriving DecidableEq, Repr

/-- Damask and the steering stages (05), with the most recently used buckets of each tile's table cache and those of them that are dirty (06 R169), and the
indirection entries (die and entry) moved at a rebalance point: the old tile and the point (R158). -/
structure DamaskSt where
  profileTable : Option Nat
  profiles : Tab Bytes
  banks : Tab Bank
  changes : List (RuleChange × Nat × Option (Cmd × Nat))
  ind : List (List Nat)
  home : Tab Nat
  indPend : Option (List (List Nat))
  homePend : List (Nat × Option Nat)
  krmPort : Nat
  tblCache : List (List Nat)
  tblDirty : List Nat := []
  moved : Tab (Nat × Nat)
deriving DecidableEq, Repr

/-- A forwarding-table entry (06 R164): CTL bits, PORT byte, ACTION. -/
structure TblEntry where
  key : Bytes
  hit : Bool
  isStatic : Bool
  learned : Bool
  port : Nat
  portValid : Bool
  action : Nat
deriving DecidableEq, Repr

/-- One partition: buckets of four ways (only those with an entry are listed), a stash of eight slots, the queue
of learn requests (06 R167 R175: VLAN and MAC key, receiving port), and the sweep pass in progress (R180): its instant, its
period and the next bucket, the stash counting as the one after the last. -/
structure Partition where
  buckets : Tab (List (Option TblEntry))
  stash : List (Option TblEntry)
  learnQ : List (Bytes × Nat)
  pass : Option (Nat × Nat)
  passNext : Nat
deriving DecidableEq, Repr

/-- An open TBL_NEXT iteration (06 R184). -/
structure Iter where
  number : Nat
  cursor : Nat
  lastFt : Nat
deriving DecidableEq, Repr

/-- A forwarding table (06 R160 R167): its region and base TB, and the rest of its settings. -/
structure Table where
  region : Nat
  base : Nat
  log2 : Nat
  form : Nat
  level : Nat
  learn : Bool
  miss : Nat
  period : Nat
  phase : Nat
  agingPend : List (Nat × Nat × Nat)
  parts : List Partition
  iter : Option Iter
  iterCount : Nat
deriving DecidableEq, Repr

/-- The parse of a frame as far as later stages use it (05 R142). -/
structure Parse where
  reason : Nat
  depth : Nat
  l3Ok : Bool
  l4Ok : Bool
  cls : Nat
  colour : Nat
  verdict : Nat
  qid : Option Nat
  policer : Option Nat
  table : Nat
  krm : Bool
  ptpEvent : Bool
  strip : Bool
  result : Bytes
deriving DecidableEq, Repr

/-- Stages of a received frame. -/
inductive Stage where
  /-- held by the steering change of 05 R158 -/
  | steerHold (since : Nat)
  | arrived
  | classified
  | policed
  | resolved (action : Nat)
  /-- with a core thread, under a handle, at an address in the packet buffer (12 R349) -/
  | slowPath (handle addr : Nat)
  | krm
deriving DecidableEq, Repr

/-- The rules, profiles and KRM port of one version (05 R159). -/
structure Version where
  banks : Tab Bank
  profiles : Tab Bytes
  krmPort : Nat
deriving DecidableEq, Repr

/-- A received frame in a tile's packet buffer. `frozen`: the version in force at its timestamp, where it has changed since; `byHome`: the
connection map steered it and no indirection entry (05 R156 R158). -/
structure RxFrame where
  frozen : Option Version
  byHome : Bool := false
  port : Nat
  bytes : Bytes
  ft : Nat
  frac : Nat
  tile : Nat
  hash : Nat
  stage : Stage
  parse : Option Parse
  sampled : Bool
  parsedAt : Nat
  tableAt : Nat
  admitAt : Nat
deriving DecidableEq, Repr

/-! ## Twill -/

/-- The queues in which frames wait (07 R187). -/
inductive TwKey where
  | source (qid : Nat)
  | port (n tc : Nat)
  | dg (d : Nat)
  | relay (d : Nat)
deriving DecidableEq, Repr

/-- A frame in a Twill queue. `op` is the PKT_TX operation that sends it, `rx` the received frame that it was, `copy` the
flooded frame of which it is one copy, `launch` the calendar entry it waits for. -/
structure TwFrame where
  bytes : Bytes
  colour : Nat
  admitFt : Nat
  op : Option Nat
  rx : Option RxFrame
  copy : Option Nat
  launch : Option Nat
  dest : Dest
deriving DecidableEq, Repr

/-- A Twill queue of a tile. -/
structure TwQueue where
  tile : Nat
  key : TwKey
  frames : List TwFrame
  maxDepth : Nat
  maxDelay : Nat
  sumDelay : Nat
  left : Nat
  latched : Bytes
deriving DecidableEq, Repr

/-- A calendar entry's object (07 The calendar). -/
inductive CalObj where
  | launch (qid op : Nat)
  | shaper (qid : Nat)
deriving DecidableEq, Repr

/-- A calendar entry of a tile: its eligible instant, its object, and the level and bin of the wheel in which it stands; none in the
overflow list (07 R192 R193). -/
structure CalEntry where
  e : Nat
  obj : CalObj
  tile : Nat
  place : Option (Nat × Nat)
deriving DecidableEq, Repr

/-- A policer, with the tile that serves it (07 R203 to R206). -/
structure Policer where
  tile : Nat
  rate : Nat
  cbs : Nat
  overhead : Int
  ebs : Nat
  aware : Bool
  tc : Nat
  te : Nat
  last : Nat
  pend : List (Bytes × Nat × Cmd)
deriving DecidableEq, Repr

/-- A destination-group record (07 R211). -/
structure DgRec where
  port : Nat
  tc : Nat
  self : Bool
  relayHold : Bool
  via0 : Option Nat
  via1 : Option Nat
  mac : Nat
deriving DecidableEq, Repr

/-- A schedule table (07 R216 R217). -/
structure Sched where
  base : Nat
  slotLen : Nat
  nslots : Nat
  guardNs : Nat
  slots : Tab Nat
deriving DecidableEq, Repr

/-- A physical network port (07). `modeWait` holds the acceptance and the mode point of a mode change that waits for training, `modeOld` those of earlier changes
whose ports have not come up, with their modes, `fallback` the instant of the transition, `lastBoundary` the last cycle boundary taken, `freeFrom` the instant from which R207 governs again. -/
structure PhysPort where
  mode : Nat
  modePend : Option (Nat × Nat × Cmd)
  modeWait : Option (Nat × Nat × Cmd)
  modeOld : List (Nat × Nat × Nat × Cmd) := []
  scheduled : Bool
  schedPend : List (Bool × Cmd × Nat)
  fallback : Option Nat
  active : Option Sched
  shadow : Option Sched
  swap : Option (Nat × Cmd)
  slot : Option (Nat × Nat)
  lastBoundary : Nat
  freeFrom : Nat
  fallbackFrames : Nat
deriving DecidableEq, Repr

/-- A logical network port; `busyUntil` in 1/200 ns of FT, `txTile` the tile whose packet buffer holds the frame that it transmits until then
(14 R406). -/
structure LogPort where
  up : Bool
  training : Bool
  dropped : Bool
  busyUntil : Nat
  txTile : Option Nat := none
  remapped : Bool := false
deriving DecidableEq, Repr

/-- Twill and the network dies' transmit side (07); `calendar` holds the entries in the order in which they were entered, `rot` what
each rotation served last. -/
structure TwillSt where
  queues : List TwQueue
  calendar : List CalEntry
  rot : Tab Nat
  policers : Tab Policer
  dgs : Tab DgRec
  dgPend : List (Nat × Option DgRec × Nat × Cmd)
  phys : List PhysPort
  logical : List LogPort
  frames : Tab RxFrame
  nextFrame : Nat
  nextHandle : Nat
deriving DecidableEq, Repr

/-! ## KRM -/

/-- Connection states, numbered in the row order of 08 R234. -/
inductive ConnState where
  | free | pending | open | error | closing
deriving DecidableEq, Repr

/-- A packet of the send side (08 R262): `op` or `piece` sends it; `resend`: it is to be sent again; `lost`: it no longer
counts as in flight. A packet not yet sent has no PSN. -/
structure SentPkt where
  psn : Nat
  op : Option Nat
  piece : Option Nat
  opc : Nat
  pfl : Nat
  w : Nat
  offset : Nat
  len : Nat
  x : Nat
  body : Bytes
  wire : Nat
  firstFt : Nat
  lastFt : Nat
  retx : Bool
  rnr : Nat
  rnrAt : Option Nat
  resend : Bool
  lost : Bool
deriving DecidableEq, Repr

/-- A received message under way (08 R257): the posted buffer that takes it (none for the block engine), and for the block
engine its bytes. -/
structure RxMsg where
  ssn : Nat
  buffer : Option Nat
  mlen : Nat
  imm : Nat
  body : Bytes
  applied : Nat
  written : Nat
  truncated : Bool
  packets : Nat
deriving DecidableEq, Repr

/-- A received packet that is held, or admitted at an instant with its write not yet accepted (08 R255 R260). -/
structure HeldPkt where
  psn : Nat
  header : Bytes
  body : Bytes
  ce : Bool
  admitted : Option Nat
  waited : Bool := false
  refuse : Option Nat := none
deriving DecidableEq, Repr

/-- A read this end has asked for (08 R243 RTAG): its operation, its READ_REQ's PSN once sent, and the bytes to come. -/
structure PendRead where
  rtag : Nat
  op : Nat
  psn : Option Nat
  acked : Bool
  left : Nat
deriving DecidableEq, Repr

/-- A READ_REQ that this end serves (08 R256): its PSN, window index, window offset, length, tag, instant of admission,
whether its host read is issued, and the tile that serves it. -/
structure Served where
  psn : Nat
  window : Nat
  addr : Nat
  len : Nat
  rtag : Nat
  admitted : Nat
  issued : Bool
  tile : Nat := 0
deriving DecidableEq, Repr

/-- A message that the block engine has received: its first 64 bytes, or all of a shorter one, and its length (09 R278). -/
structure BlkMsg where
  head : Bytes
  len : Nat
deriving DecidableEq, Repr

/-- A connection (08 R232 to R265); `acked`: the PSNs of operations still unfinished that an acknowledgement has covered, with the operation and
the bytes that it counted for it, so that a NAK of one of them that comes later finds its operation (R246). -/
structure Conn where
  state : ConnState
  next : List (ConnState × Nat)
  cause : Nat
  failOp : Option Nat
  failPiece : Option Nat
  cgen : Nat
  owner : Owner
  params : Bytes
  block : Bytes
  peer : Option Nat
  keyed : Bool
  home : Nat
  sndNext : Nat
  ssnNext : Nat
  queue : List SentPkt
  sent : List SentPkt
  backoff : Nat
  haveRtt : Bool
  srtt : Nat
  rttvar : Nat
  cwnd : Nat
  roundEnd : Option Nat
  at' : Nat
  bitmap : Nat
  hold : List HeldPkt
  firsts : List (Nat × Nat)
  unacked : Nat
  ackDue : Option Nat
  ctl : List (Nat × Nat × Nat)
  ceUntil : Nat
  rcvSsn : Nat
  msgs : List RxMsg
  reads : List PendRead
  nextRtag : Nat
  served : List Served
  acked : List (Nat × Nat × Nat) := []
  claims : Nat
  blkMsgs : List BlkMsg
  createCmd : Option Cmd
  destroyCmd : Option Cmd
  endedOps : List Nat
  sealTx : Nat
deriving DecidableEq, Repr

/-- Window descriptor states (08 R250). -/
inductive WinState where
  | free | open | retired
deriving DecidableEq, Repr

/-- WGS state code (08 R250). -/
def WinState.code : WinState → Nat
  | .free => 0
  | .open => 1
  | .retired => 2

/-- A descriptor change that awaits its frame boundary (08 R253): the values, when it was accepted, its opcode and command,
and the key of its reply. -/
structure WinChange where
  base : Nat
  wlen : Nat
  perm : Nat
  gen : Nat
  state : WinState
  accepted : Nat
  code : Nat
  cmd : Cmd
  key : Nat
deriving DecidableEq, Repr

/-- A window descriptor (08 R250) with the changes that await their boundary, and the replies that await the accesses
admitted before one: opcode, command, key and effect point (R253). -/
structure Window where
  base : Nat
  wlen : Nat
  perm : Nat
  gen : Nat
  state : WinState
  owner : Owner
  pend : List WinChange
  waits : List (Nat × Cmd × Nat × Nat)
deriving DecidableEq, Repr

/-- The KRM engines (08). -/
structure KrmSt where
  conns : Tab Conn
  windows : Tab Window
  cached : List Nat
  gens : Tab Nat
  retired : List Nat
deriving DecidableEq, Repr

/-! ## Block storage, Calico and DMA -/

/-- A member of a volume (09 R267). -/
structure Member where
  cid : Nat
  rvol : Nat
  rbase : Nat
deriving DecidableEq, Repr

/-- Self-test states with the codes of 09 R287. -/
inductive TestState where
  | none | short | extended | passed | failed | aborted
deriving DecidableEq, Repr

/-- A volume (09 R267 to R287): `readyAt` is the instant from which it is READY (none: PENDING without a key); a running
self-test has the next request of each member, the requests done, and those outstanding: member, request tag, number. -/
structure Volume where
  owner : Owner
  readyAt : Option Nat
  vfl : Nat
  stripe : Nat
  nblocks : Nat
  members : List Member
  region : Option Nat
  cmds : Nat
  failLba : Option Nat
  vseq : Nat
  test : TestState
  testNext : List Nat
  testDone : Nat
  testBad : Bool
  testBusy : List (Nat × Nat × Nat)
  testStale : List (Nat × Nat)
deriving DecidableEq, Repr

/-- A piece of a block command (09 R276 R277 R283): its command, member, opcode, member blocks and first volume block (for a
FLUSH its member), whether it is issued and its request sent, and how it ended; `waiting`: the offsets of its data that have
not been read; `answered`: it ended with an answer; `slot`: the tile and the offset of the response area that its response takes (R280). -/
structure Piece where
  op : Nat
  vid : Nat
  member : Nat
  bop : Nat
  mlba : Nat
  nblk : Nat
  lba : Nat
  vseq : Nat
  issued : Bool
  sent : Bool
  rtag : Nat
  done : Bool
  answered : Bool
  status : Nat
  tstat : Nat
  waiting : List Nat
  failAt : Option (Nat × Nat)
  slot : Option (Nat × Nat) := none
deriving DecidableEq, Repr

/-- The block engines (09). -/
structure BlkSt where
  volumes : Tab Volume
  pieces : Tab Piece
  nextPiece : Nat
  nextRtag : Nat
deriving DecidableEq, Repr

/-- A cipher job in progress (10 R310): bytes to process, bytes given to engine slices, bytes of a slice, the oscillator instant (plus
one) at which its last slice began, and the output bytes written. -/
structure Job where
  op : Nat
  key : Bytes
  total : Nat
  done : Nat
  perSlice : Nat
  lastRow : Nat
  written : Nat
deriving DecidableEq, Repr

/-- A lookaside cipher channel (10 R294 to R313); `pageFn`: the function in whose BAR2 its page lies (R298). -/
structure CyChan where
  owner : Owner
  sid : Nat
  pageFn : Option FnRef
  page : Nat
  jq : Nat
  algs : Nat
  slots : List Bytes
  valid : Nat
  wide : Nat
  staging : List W64
  err : Nat
  jobs : Nat
  bytes : Nat
  slicesTable : Nat
  slicesSpare : Nat
  active : List Job
deriving DecidableEq, Repr

/-- An inline key record (10 R305 R306): key bytes, salt, initial counter, and a replacement under way. -/
structure InlineKey where
  key : Bytes
  salt : Bytes
  previous : Option (Bytes × Bytes)
  graceEnd : Nat
  next : Option (Bytes × Bytes × Nat × Nat)
deriving DecidableEq, Repr

/-- The row of engine slices that a tile runs (10 R291 R293): when it began in oscillator time, its number (32: spare time), the FT
frame it belongs to, and the lanes whose slice has begun. -/
structure CyRow where
  start : Nat
  row : Nat
  frame : Nat
  lanes : Nat
deriving DecidableEq, Repr

/-- Work of an inline channel (10 R294 to R296): its tile and channel (0 or 1), the received frame that waits for it, if any, and the
bytes it counts against the hold of the tile, and the engine slices still to be given. -/
structure InlineWork where
  tile : Nat
  chan : Nat
  frame : Option Nat
  bytes : Nat
  left : Nat
deriving DecidableEq, Repr

/-- Calico (10). `inlineCount`: the engine slices from the table and by rotation that the inline channels 0 and 1 of each tile have
received (R313). -/
structure CySt where
  tables : List (List Nat)
  pend : List (Nat × List Nat × Nat × Cmd)
  rotate : List Nat
  rows : List CyRow
  chans : Tab CyChan
  cidKeys : Tab InlineKey
  vidKeys : Tab Bytes
  inlineWork : List InlineWork
  inlineCount : Tab (Nat × Nat)
  kek : Option Bytes
deriving DecidableEq, Repr

/-- A beat that is issued and not complete (11 R320 R324). -/
structure Beat where
  k : Nat
  len : Nat
  data : Option Bytes
  tries : Nat
  retryAt : Option Nat
deriving DecidableEq, Repr

/-- A DMA channel (11 R315 R323); `failing`: the status, the side (true: destination) and the address of the beat whose retries have
run out, until the beats already issued are over (R325). -/
structure DmaChan where
  qid : Nat
  op : Option Nat
  lastStatus : Nat
  paced : Bool
  errDst : Bool
  halt : Bool
  err : Bool
  errAddr : Nat
  retries : Nat
  nextK : Nat
  count : Nat
  beats : List Beat
  doneBytes : Nat
  failing : Option (Nat × Bool × Nat)
deriving DecidableEq, Repr

/-! ## Cores -/

/-- Thread states with the codes of 12 R338. -/
inductive ThState where
  | idle | run | blockedCh | blockedEv | sstop | dstop | faulted
deriving DecidableEq, Repr

/-- A hardware thread (12). -/
structure Thread where
  state : ThState
  remembered : ThState
  pc : Nat
  regs : List W64
  cause : Nat
  fval : Nat
  reservation : Option Nat
  stagingCh : Option Nat
  stagingLen : Nat
  staging : List W64
  recv : List W64
  pending : Nat
  waitCh : Nat
  waitRd : Nat
  waitMask : Nat
  spaceWatch : Option (Nat × Nat)
  kzwake : W32
  kzwdog : W32
  cycle : Nat
  instret : Nat
  stepping : Bool
deriving DecidableEq, Repr

/-- A core (12 R336 R352 R353 R358). -/
structure CoreSt where
  hipri : Option Nat
  wdStart : Option Nat
  wdElapsed : Nat
  blockedSince : Option Nat
  deadlockArmed : Bool
  hung : Bool
  lfsr : Nat
  follow : Option (Nat × Nat × Nat)
deriving DecidableEq, Repr

/-- A message channel (12 R343). -/
structure Chan where
  en : Bool
  prod : Nat
  pcore : Nat
  logDepth : Nat
  maxLen : Nat
  msgs : List (Nat × List W64)
  reserved : Nat
  readers : List Nat
deriving DecidableEq, Repr

/-- The cores and channels of the device (12). -/
structure CoresSt where
  threads : Tab Thread
  cores : Tab CoreSt
  chans : Tab Chan
  sampleK : List Nat
  samplePend : List (Nat × Bool × Nat × Nat × Cmd)
  entry : Nat
deriving DecidableEq, Repr

/-! ## Boot, power, trust, events, pins -/

/-- An image slot of the update source (15 R419 R421 R435). -/
structure ImgSlot where
  manifest : Option Bytes
  payload : List (Nat × Bytes)
  words : List Bool
  writing : Bool
  verified : Bool
  held : Option Bytes
  received : List Nat
deriving DecidableEq, Repr

/-- Where boot stands (15 R423 R425 R430 R431). -/
inductive BootStage where
  | rom | buckram | recovery (sf : Bool) | push (source deadline : Nat) (sf : Bool) | running | retired
deriving DecidableEq, Repr

/-- An activation under way (15 R439). -/
structure Activation where
  slot : Nat
  cmd : Option Cmd
  startedAt : Nat
  ready : Bool
  pauseAt : Nat
  window : Nat
  revert : Bool
  manifest : Bytes := []
deriving DecidableEq, Repr

/-- Boot and update (15): the update source of each component (0 X, 1 E, 2 H, 3 M) and its two slots, the sources still to try,
whether pushes are refused (R425), cores found hung during a pause with their cause (R440), the code region that runs (0 or 1), and
the deadline of each open trial; `probeFrom` is when the search for the next medium began (R416), and `bkImage` and `bkEntry` are Buckram's
copy in its private SRAM and the offset at which its cores started (R423 R429). -/
structure BootSt where
  stage : BootStage
  bootSel : Nat
  source : Nat
  sourceBk : Nat
  left : List Nat
  refused : Bool
  hungPend : List (Nat × Nat)
  slots : List ImgSlot
  runSf : Nat
  runBk : Nat
  runManifest : Bytes
  bkManifest : Bytes
  prevManifest : Option Bytes
  codeRegion : Nat
  trialSf : Option Nat
  trialBk : Option Nat
  activation : Option Activation
  handover : Bytes
  probed : List Nat
  probeFrom : Nat := 0
  bkImage : List Bytes := []
  bkEntry : Nat := 0
  store : Tab (List MediaSlot) := []
deriving DecidableEq, Repr

/-- Device power states (16 R447). -/
inductive DevPower where
  | run | standby | aux | off
deriving DecidableEq, Repr

/-- Tile states with the codes of 16 R458. -/
inductive TileState where
  | active | idle | parked | off
deriving DecidableEq, Repr

/-- A park or unpark in progress (16 R451 to R455). -/
structure ParkOp where
  tile : Nat
  unpark : Bool
  point : Nat
  passed : Bool
  limit : Nat
  ready : Bool
  cmd : Cmd
deriving DecidableEq, Repr

/-- Power and thermal control (16); `away`: the connections moved off each tile by its last park, tile and CID (R455); `standby`: the
command that puts the device into STANDBY, whose tiles still drain, and the limit of that (R449 R453); `clk`: the core clocks that each tile
had counted, in eighths, at an oscillator instant (R448 R456, 12 R333). -/
structure PowerSt where
  dev : DevPower
  tiles : List TileState
  domains : Nat
  op : Option ParkOp
  cap : Nat
  capPend : List (Nat × Nat × Cmd)
  windows : List Nat
  level : Nat
  capUnmet : Bool
  forced : Nat
  throttle : Bool
  crit : Bool
  hotSince : Option Nat
  lastForce : Nat
  tj : Nat
  lastWindow : Nat
  away : List (Nat × Nat)
  standby : Option (Cmd × Nat) := none
  clk : List (Nat × Nat) := List.replicate 4 (0, 0)
deriving DecidableEq, Repr

/-- The fuse array (17 R463). A secret is none before it is burned; `destroyed` fields read all ones. -/
structure Fuses where
  lcLog : List Nat
  dsDev : Option Bytes
  dsDevDead : Bool
  ds : List (Option Bytes)
  dsDead : List Bool
  tk : Option Bytes
  tkDead : Bool
  ork : Option Bytes
  orkDead : Bool
  fwKey : List (Option Bytes)
  fwRevoked : List Bool
  ownerAuth : List (Option Bytes)
  bootLock : Bool
  bootOrder : Nat
  svSf : List Nat
  svBk : List Nat
  attEpoch : Nat
  attStore : Nat
deriving DecidableEq, Repr

/-- Trust, debug and attestation (17). -/
structure TrustSt where
  fuses : Fuses
  lc : Nat
  challenge : Option (Bytes × Nat)
  challengeCount : Nat
  level : Nat
  levelPend : Option (Nat × Cmd × Nat × Nat)
  sessionEnd : Option Nat
  session : Bool
  carrierJtag : Bool
  mr : List Bytes
  mrCount : List Nat
  attNext : Nat
  attLimit : Nat
  rpmb : Option (Nat × Nat)
  attRpmb : Bool
  tokens : Nat
  tokenAt : Nat
  reports : List (Caller × Nat × Bytes × Nat)
  nextHandle : Nat
  resetAt : Option Nat
deriving DecidableEq, Repr

/-- Who receives event records (18 R486). -/
inductive EvDest where
  | fn (f : FnRef)
  | management
deriving DecidableEq, Repr

/-- An open event record (18 R490 R491). -/
structure OpenRec where
  dest : EvDest
  source : Nat
  object : Nat
  count : Nat
  ft : Nat
  detail : Nat
  sid : Option Nat
deriving DecidableEq, Repr

/-- Event routing, records and the device log (18). -/
structure EvSt where
  routes : Tab (Bool × Nat × Nat)
  routePend : List (Nat × Bool × Nat × Nat × Nat)
  fwBase : List W64
  fwP : List Nat
  opened : List OpenRec
  lostDests : List EvDest
  log : List Bytes
  logCount : Nat
deriving DecidableEq, Repr

/-- A Gingham dump (18 R503 to R507). -/
structure Dump where
  owner : Caller
  block : Nat
  period : Nat
  phase : Nat
  area : Option (HostRef × Frag)
  latched : Option (Nat × Nat × List Nat)
  /-- SKIPPED of the record that is latched: instants that passed without a latch before it. -/
  latchedSkip : Bool := false
  seq : Nat
  skipped : Bool
  lastRecord : Option Bytes
  fromFt : Nat
  oneShotDone : Bool
deriving DecidableEq, Repr

/-- Counters, dumps and samples (18). -/
structure CtSt where
  words : Tab Nat
  dumps : Tab Dump
  coreBuf : List (List Bytes)
  pktBuf : List (List Bytes)
  pktK : List Nat
  pktLfsr : List Nat
deriving DecidableEq, Repr

/-- The pins and PIN_FAULT (19). -/
structure PinSt where
  fault : Nat
  straps : Straps
  sysRst : Bool
  mainPwrOk : Bool
  thermTrip : Bool
  clkIn : Bool
  clkSwapAt : Option Nat
  clkSwapDue : Bool
  sysclk : Bool
  hrefclk : List Bool
  hrefReadyAt : List Nat
  ppsHigh : Bool
  ppsRise : Option Nat
  ppsFall : Option Nat
  ppsSwap : Option Bool
  ppsFrom : Nat
  ppsOut : Option Bool
  ppsDriveAt : Nat
  ppsPulseClean : Bool
  heldReset : Bool
  resetArmed : Option (Nat × Bool)
deriving DecidableEq, Repr

/-- The state of the block. -/
structure State where
  pending : List Instr
  arrivals : List (Nat × Instr)
  time : TimeSt
  ftu : FtuSt
  links : List LinkSt
  fatal : Bool
  mem : List Host.Cell
  dram : DramSt
  host : HostSt
  qm : QmSt
  cmd : CmdSt
  damask : DamaskSt
  tables : Tab Table
  twill : TwillSt
  krm : KrmSt
  blk : BlkSt
  cy : CySt
  dma : Tab DmaChan
  cores : CoresSt
  boot : BootSt
  power : PowerSt
  trust : TrustSt
  ev : EvSt
  ct : CtSt
  pins : PinSt
  out : List Out
  free : Nat
deriving DecidableEq, Repr

/-! ## The state after device reset -/

/-- No fuse burned: the BLANK part (17 R463 R467). -/
def Fuses.blank : Fuses where
  lcLog := []
  dsDev := none
  dsDevDead := false
  ds := [none, none, none, none]
  dsDead := [false, false, false, false]
  tk := none
  tkDead := false
  ork := none
  orkDead := false
  fwKey := [none, none, none, none]
  fwRevoked := [false, false, false, false]
  ownerAuth := [none, none]
  bootLock := false
  bootOrder := 0
  svSf := []
  svBk := []
  attEpoch := 0
  attStore := 0

/-- The lifecycle code of the last record of LC_LOG: 0 BLANK, 1 TEST, 2 DEVELOP, 3 PRODUCTION, 4 RECOVERY, 5 RETIRED,
and RETIRED for any other code (17 R467). -/
def Fuses.lcCode (f : Fuses) : Nat :=
  match f.lcLog.getLast? with
  | none => 0
  | some c => if 1 ≤ c ∧ c ≤ 4 then c else 5

/-- The FTU at device reset (02 R37 R60); the registers without a reset value are 0 (DESIGN CHOICE, log 5). -/
def FtuSt.reset : FtuSt where
  state := .free
  lockCount := 0
  setIgn := false
  srcPresent := false
  holdOscClk := false
  intOsc := false
  srcCfg := 0x30
  lockThresh := 0x14
  holdCfg := 0x200
  ppsOutCfg := 0x642
  ppsOutLive := 0x642
  utc := 0x25
  asym := List.replicate 32 0
  estimate := 0
  freqEst := 0
  slewPart := 0
  slewLeft := 0
  boundBase := 0
  boundFrom := 0
  stepAt := 0
  stepAmt := 0
  pendStep := none
  measOffs := 0
  med1 := none
  med2 := none
  lastMeasAt := none
  bigMeas := none
  overCount := 0
  commitAt := 0
  lost := false
  announceLost := false
  ppsRef := none
  ppsPaired := false
  cfgPend := []
  ppsOutPend := none
  misalign := List.replicate 8 0
  comp := [12, 12, 24, 24, 0, 36, 24, 36]
  shown := List.replicate 8 0
  dieErr := 0
  maxErr := 0

/-- The clocks at device reset: FT and FT_FRAC 0 (02 R37). -/
def TimeSt.reset : TimeSt where
  osc := 0
  ft := 0
  prev := 0
  frac := 0
  rem := 0
  latchHigh := List.replicate 8 0
  latchFrac := List.replicate 8 0

/-- A DDR channel before training (14). -/
def ChannelSt.reset : ChannelSt where
  pop := none
  trained := false
  hot := [false, false]
  sidebandBad := false
  calLeft := 0
  calNext := 0
  calCmd := none
  calUntil := 0
  lastRefresh := []
  scrubStart := none
  scrubNext := 0
  scrubPass := 0
  writebacks := []
  stormFrame := 0
  stormCount := []
  stormRaised := []
  failLines := []
  failRaised := []

/-- The patrol scrub period at device reset (14 R410): 24 hours of FT. -/
def scrubPeriodReset : Nat := 86400000000000

/-- A host port at device reset: no profile in force, PERSTn# asserted (DESIGN CHOICE, log 5). -/
def HostPort.reset : HostPort where
  perst := true
  deassertedAt := none
  subLinks := []
  profile := none
  verified := none
  recovery := false

/-- The spoof sets of a new slice: empty (13 R380). -/
def SpoofSets.empty : SpoofSets where
  macs := []
  vlans := []
  v4 := []
  v6 := []
  anyMac := false
  anyVlan := false
  anyIp := false
  krm := false

/-- A physical network port at device reset: UNSCHEDULED, schedules never written (07 R216 R221). -/
def PhysPort.reset : PhysPort where
  mode := 0
  modePend := none
  modeWait := none
  scheduled := false
  schedPend := []
  fallback := none
  active := none
  shadow := none
  swap := none
  slot := none
  lastBoundary := 0
  freeFrom := 0
  fallbackFrames := 0

/-- A logical network port with its link down. -/
def LogPort.reset : LogPort where
  up := false
  training := false
  dropped := false
  busyUntil := 0

/-- The default slice table of a tile (10 R297): entries 0-799 channel 0, 800-927 channel 1, 928-1,023 OPEN, in the
16-bit form of R291. -/
def sliceTableReset : List Nat := List.replicate 800 0 ++ List.replicate 128 1 ++ List.replicate 96 0x8000

/-- An image slot that holds nothing. -/
def ImgSlot.none : ImgSlot where
  manifest := Option.none
  payload := []
  words := []
  writing := false
  verified := false
  held := Option.none
  received := []

/-- The boot state before ROM has run (15 R423). -/
def BootSt.reset : BootSt where
  stage := .rom
  bootSel := 0
  source := 0
  sourceBk := 0
  left := []
  refused := false
  hungPend := []
  slots := List.replicate 4 ImgSlot.none
  runSf := 0
  runBk := 0
  runManifest := []
  bkManifest := []
  prevManifest := none
  codeRegion := 0
  trialSf := none
  trialBk := none
  activation := none
  handover := []
  probed := []

/-- Power at device reset: RUN, every tile ACTIVE, every switched domain on but domains 0 to 5 of the host dies, whose PERSTn# is asserted,
cap 650 W (16 R446 R447 R456; log 5). -/
def PowerSt.reset : PowerSt where
  dev := .run
  tiles := List.replicate 4 .active
  domains := 2 ^ 160 - 1 - 63 * 2 ^ 144 - 63 * 2 ^ 152
  op := none
  cap := 650
  capPend := []
  windows := []
  level := 0
  capUnmet := false
  forced := 0
  throttle := false
  crit := false
  hotSince := none
  lastForce := 0
  tj := 25
  lastWindow := 0
  away := []

/-- A thread at tile power-up; the registers are 0 (log 5). -/
def Thread.fresh (tid : Nat) : Thread where
  state := .idle
  remembered := .idle
  pc := 0
  regs := List.replicate 32 0
  cause := 0
  fval := 0
  reservation := none
  stagingCh := none
  stagingLen := 0
  staging := []
  recv := []
  pending := 0
  waitCh := 0
  waitRd := 0
  waitMask := 0
  spaceWatch := none
  kzwake := if tid % 8 = 0 then 0x30000000 else 0x20000000
  kzwdog := 0x64
  cycle := 0
  instret := 0
  stepping := false

/-- A core at tile power-up. -/
def CoreSt.fresh : CoreSt where
  hipri := none
  wdStart := none
  wdElapsed := 0
  blockedSince := none
  deadlockArmed := true
  hung := false
  lfsr := 0
  follow := none

/-- The cores at device reset: every thread IDLE, at its reset values (12 R338 R341). -/
def CoresSt.reset : CoresSt where
  threads := (List.range 1024).map fun k => (k, Thread.fresh k)
  cores := (List.range 128).map fun k => (k, CoreSt.fresh)
  chans := []
  sampleK := List.replicate 4 0
  samplePend := []
  entry := 0

/-- The cores of a device whose tiles have no power: no thread exists. -/
def CoresSt.off : CoresSt := { CoresSt.reset with threads := [], cores := [] }

/-- Trust state at device reset over a fuse array: registers 0, no session, the level FULL of a BLANK part (17 R473,
15 R424); `TrustSt.level` is set again by ROM for a part with a lifecycle record. -/
def TrustSt.reset (fuses : Fuses) : TrustSt where
  fuses := fuses
  lc := fuses.lcCode
  challenge := none
  challengeCount := 0
  level := 3
  levelPend := none
  sessionEnd := none
  session := false
  carrierJtag := false
  mr := List.replicate 4 (List.replicate 64 0)
  mrCount := List.replicate 4 0
  attNext := 0
  attLimit := 0
  rpmb := none
  attRpmb := false
  tokens := 200
  tokenAt := 0
  reports := []
  nextHandle := 0
  resetAt := none

/-- The pins right after the release of SYS_RST#, with every clock present (log 5). -/
def PinSt.reset (straps : Straps) : PinSt where
  fault := 0
  straps := straps
  sysRst := false
  mainPwrOk := true
  thermTrip := false
  clkIn := true
  clkSwapAt := none
  clkSwapDue := false
  sysclk := true
  hrefclk := [true, true]
  hrefReadyAt := [0, 0]
  ppsHigh := false
  ppsRise := none
  ppsFall := none
  ppsSwap := none
  ppsFrom := 0
  ppsOut := none
  ppsDriveAt := 0
  ppsPulseClean := false
  heldReset := false
  resetArmed := none

/-- The device after device reset, over what R523 says device reset keeps: the fuses and the device log. -/
def State.afterReset (fuses : Fuses) (log : List Bytes) (logCount : Nat) (straps : Straps) : State where
  pending := []
  arrivals := []
  time := TimeSt.reset
  ftu := FtuSt.reset
  links := List.replicate 12 { up := true, fails := 0 }
  fatal := false
  mem := []
  dram := { channels := List.replicate 12 ChannelSt.reset, regions := [], poison := [], scrubPeriod := scrubPeriodReset,
            scrubPend := none, done := false }
  host := { ports := [HostPort.reset, HostPort.reset], fns := [], slices := [], reads := [], nextTag := 0, msixReq := [] }
  qm := { queues := [], ops := [], nextOp := 0, rot := List.replicate 4 0 }
  cmd := { inProgress := [], mctpOut := [], mailbox := [], rota := [], sfReady := false, paused := false,
           held := [], heldAt := [], quiesce := [], waiting := [] }
  damask := { profileTable := none, profiles := [], banks := [], changes := [],
              ind := List.replicate 2 (List.replicate 512 0), home := [], indPend := none, homePend := [],
              krmPort := 49901, tblCache := List.replicate 4 [], moved := [] }
  tables := []
  twill := { queues := [], calendar := [], rot := [], policers := [], dgs := [], dgPend := [],
             phys := List.replicate 4 PhysPort.reset, logical := List.replicate 32 LogPort.reset,
             frames := [], nextFrame := 0, nextHandle := 0 }
  krm := { conns := [], windows := [], cached := [], gens := [], retired := [] }
  blk := { volumes := [], pieces := [], nextPiece := 0, nextRtag := 0 }
  cy := { tables := List.replicate 4 sliceTableReset, pend := [], rotate := List.replicate 4 0,
          rows := List.replicate 4 { start := 0, row := 0, frame := 0, lanes := 0 }, chans := [],
          cidKeys := [], vidKeys := [], inlineWork := [], inlineCount := [], kek := none }
  dma := []
  cores := CoresSt.reset
  boot := BootSt.reset
  power := PowerSt.reset
  trust := TrustSt.reset fuses
  ev := { routes := [], routePend := [], fwBase := List.replicate 8 0, fwP := List.replicate 8 0, opened := [],
          lostDests := [], log := log, logCount := logCount }
  ct := { words := [], dumps := [], coreBuf := List.replicate 4 [], pktBuf := List.replicate 4 [],
          pktK := List.replicate 4 0, pktLfsr := List.replicate 4 0 }
  pins := PinSt.reset straps
  out := []
  free := 0

/-- The device right after its first device reset: BLANK fuses, an empty log, all straps 0 (log 5). -/
def State.reset : State := State.afterReset Fuses.blank [] 0 { bootSel := 0, hp0Bif := 0, hp1Bif := 0 }

end Sys2Proof.Machine
end

