-- ==== Sys2Proof/Machine/Flags.lean ====
section
/-! DEFINITION. Every flag, status code and status field that the spec computes: the status space of 04 R132, the
write-back QSTAT of 03 R92, the thread state word of 12 R339, FT_STATE of 02 R60, FN_STATUS of 13 R369, the DMA status
of 11 R323 and the counter words of 18 R498. -/

namespace Sys2Proof.Machine

/-! ## Status codes (04 R132) -/

def St.ok : Nat := 0x0000
def St.badOp : Nat := 0x0101
def St.badFlags : Nat := 0x0102
def St.badFrags : Nat := 0x0103
def St.badLength : Nat := 0x0104
def St.badParam : Nat := 0x0105
def St.badTarget : Nat := 0x0106
def St.badPblock : Nat := 0x0107
def St.rxTruncated : Nat := 0x0201
def St.noResource : Nat := 0x0202
def St.busy : Nat := 0x0203
def St.rateLimited : Nat := 0x0204
def St.noRecvBuf : Nat := 0x0205
def St.insertFail : Nat := 0x0206
def St.badState : Nat := 0x0301
def St.exist : Nat := 0x0302
def St.notFound : Nat := 0x0303
def St.busySpan : Nat := 0x0304
def St.notLocked : Nat := 0x0305
def St.fwPending : Nat := 0x0306
def St.notVerified : Nat := 0x0307
def St.tagBusy : Nat := 0x0308
def St.abortedBme : Nat := 0x0310
def St.abortedReset : Nat := 0x0311
def St.denied : Nat := 0x0401
def St.lifecycle : Nat := 0x0402
def St.windowRevoked : Nat := 0x0403
def St.windowDenied : Nat := 0x0404
def St.connGen : Nat := 0x0405
def St.poisoned : Nat := 0x0501
def St.authfail : Nat := 0x0502
def St.sigInvalid : Nat := 0x0503
def St.crcErr : Nat := 0x0504
def St.rollback : Nat := 0x0505
def St.uncorrectable : Nat := 0x0506
def St.timeout : Nat := 0x0601
def St.remoteTimeout : Nat := 0x0602
def St.hostReadTimeout : Nat := 0x0701
def St.hostReadErr : Nat := 0x0702
def St.hostWriteErr : Nat := 0x0703
def St.linkDown : Nat := 0x0704
def St.mediaErr : Nat := 0x0705

/-- The status of an access that ends other than with data (03 R103). -/
def readStatus : ReadEnd → Nat
  | .data _ => St.ok
  | .poisoned => St.poisoned
  | .timeout => St.hostReadTimeout
  | .unsupported => St.hostReadErr
  | .aborted => St.hostReadErr
  | .translation => St.hostReadErr

/-! ## Codes of states -/

/-- The code of a discipline state (02 R42). -/
def FtState.code : FtState → Nat
  | .free => 0
  | .acquiring => 1
  | .locked => 2
  | .holdover => 3
  | .unlocked => 4

/-- The code of a queue class (03 R78). -/
def QClass.code : QClass → Nat
  | .pktTx => 0
  | .pktRx => 1
  | .blkSq => 2
  | .krmSq => 3
  | .krmRq => 4
  | .cryJq => 5
  | .dmaCh => 6
  | .cmdSq => 7
  | .cq => 8

/-- The queue class of a code. -/
def QClass.ofCode : Nat → Option QClass
  | 0 => some .pktTx
  | 1 => some .pktRx
  | 2 => some .blkSq
  | 3 => some .krmSq
  | 4 => some .krmRq
  | 5 => some .cryJq
  | 6 => some .dmaCh
  | 7 => some .cmdSq
  | 8 => some .cq
  | _ => none

/-- The code of a queue state (03 R87). -/
def QState.code : QState → Nat
  | .disabled => 0
  | .enabled => 1
  | .draining => 2
  | .idle => 3

/-- The code of a thread state (12 R338). -/
def ThState.code : ThState → Nat
  | .idle => 0
  | .run => 1
  | .blockedCh => 2
  | .blockedEv => 3
  | .sstop => 4
  | .dstop => 5
  | .faulted => 6

/-- The number of a connection state, in the row order of 08 R234. -/
def ConnState.code : ConnState → Nat
  | .free => 0
  | .pending => 1
  | .open => 2
  | .error => 3
  | .closing => 4

/-- The code of a self-test state (09 R287). -/
def TestState.code : TestState → Nat
  | .none => 0
  | .short => 1
  | .extended => 2
  | .passed => 3
  | .failed => 4
  | .aborted => 5

/-- The code of a tile state (16 R458). -/
def TileState.code : TileState → Nat
  | .active => 0
  | .idle => 1
  | .parked => 2
  | .off => 3

/-! ## FT_STATE (02 R60) -/

/-- FT_STATE as a read returns it. -/
def FtuSt.stateWord (f : FtuSt) : Nat :=
  f.state.code + 8 * b2n f.intOsc + 16 * b2n f.srcPresent + 32 * b2n f.holdOscClk + 64 * b2n f.pendStep.isSome
    + 128 * b2n (f.slewLeft != 0) + 256 * b2n f.setIgn + 65536 * min f.lockCount 15

/-- FT_OFFSET: the estimate in 0.25 ns, signed, saturating. An estimate between two such values is cut toward 0: DESIGN CHOICE, R60 gives
the unit and no rounding (log 48). -/
def FtuSt.offsetWord (f : FtuSt) : Nat := unsigned 32 (saturate 32 (f.estimate.tdiv 16384))

/-- FT_FREQ_ADJ: frequency estimate and slew part together (02 R44). -/
def FtuSt.freqAdj (f : FtuSt) : Int := f.freqEst + f.slewPart

/-- FT_ALIGN_STAT. -/
def FtuSt.alignWord (f : FtuSt) : Nat := min f.maxErr 255 + 2 ^ 24 * (f.dieErr % 256)

/-! ## QSTAT (03 R92) -/

/-- The QSTAT field of a queue: `blocked` for a work queue whose CQ has an episode open. -/
def Queue.qstat (q : Queue) (blocked : Bool) : Nat :=
  b2n (q.state == .enabled) + 2 * b2n (q.state == .draining) + 4 * b2n (q.state == .idle)
    + 8 * b2n q.replayHead.isSome + 16 * b2n (q.cls == .cq && q.episode) + 32 * b2n blocked

/-! ## The thread state word (12 R339) -/

/-- The thread state word. -/
def Thread.word (t : Thread) (hipri : Bool) : Nat :=
  t.pending % 2 ^ 31 + 2 ^ 32 * (t.stagingCh.getD 0) + 2 ^ 45 * t.staging.length + 2 ^ 50 * b2n t.stagingCh.isSome
    + 2 ^ 51 * b2n hipri + 2 ^ 52 * t.state.code
    + 2 ^ 56 * (if t.state = .faulted ∨ (t.state = .dstop ∧ t.remembered = .faulted) then t.cause else 0)

/-! ## Counter words (18 R498 R499) -/

/-! Counter kinds (18 R499); 64 and above are counters the spec names outside the kinds. -/

def Ct.damask : Nat := 0
def Ct.table : Nat := 1
def Ct.twill : Nat := 2
def Ct.krm : Nat := 3
def Ct.block : Nat := 4
def Ct.calico : Nat := 5
def Ct.dma : Nat := 6
def Ct.cores : Nat := 7
def Ct.netPort : Nat := 8
def Ct.hostPort : Nat := 9
def Ct.ddr : Nat := 10
def Ct.queue : Nat := 16
def Ct.policer : Nat := 17
def Ct.conn : Nat := 18
def Ct.rules : Nat := 19
def Ct.func : Nat := 20
def Ct.slice : Nat := 21
/-- ISO_VIOLATION (17 R460 R461), one word. -/
def Ct.iso : Nat := 64
/-- FLIT_CE of a fabric link (14 R407). -/
def Ct.flit : Nat := 65
/-- BUF_UE of a tile (14 R406). -/
def Ct.bufUe : Nat := 66

/-- The corrected words of an on-die store, eight stores a die (14 R406). -/
def Ct.sramCe : Nat := 68

/-- The table key of a counter word. -/
def ctKey (kind index word : Nat) : Nat := (kind * 2 ^ 27 + index) * 128 + word

/-- A counter word after `n` more counts: 48-bit wrap, OVF in bit 63. -/
def ctAdd (v n : Nat) : Nat :=
  (v % 2 ^ 48 + n) % 2 ^ 48 + 2 ^ 63 * b2n (2 ^ 63 ≤ v || 2 ^ 48 ≤ v % 2 ^ 48 + n)

/-- A counter word with OVF cleared. -/
def ctClearOvf (v : Nat) : Nat := v % 2 ^ 63

end Sys2Proof.Machine
end

