-- ==== Sys2Proof/Machine/Update.lean ====
section
/-! DEFINITION. One update for each field of `State`: the field changed by a function, all others kept. -/

namespace Sys2Proof.Machine

/-- What a meaning answers. -/
abbrev Res := Host.Outcome State Fault Refusal

/-- `pending` changed. -/
def State.onPending (s : State) (f : List Instr → List Instr) : State := { s with pending := f s.pending }

/-- `arrivals` changed. -/
def State.onArrivals (s : State) (f : List (Nat × Instr) → List (Nat × Instr)) : State := { s with arrivals := f s.arrivals }

/-- `time` changed. -/
def State.onTime (s : State) (f : TimeSt → TimeSt) : State := { s with time := f s.time }

/-- `ftu` changed. -/
def State.onFtu (s : State) (f : FtuSt → FtuSt) : State := { s with ftu := f s.ftu }

/-- `links` changed. -/
def State.onLinks (s : State) (f : List LinkSt → List LinkSt) : State := { s with links := f s.links }

/-- `fatal` changed. -/
def State.onFatal (s : State) (f : Bool → Bool) : State := { s with fatal := f s.fatal }

/-- `mem` changed. -/
def State.onMem (s : State) (f : List Host.Cell → List Host.Cell) : State := { s with mem := f s.mem }

/-- `dram` changed. -/
def State.onDram (s : State) (f : DramSt → DramSt) : State := { s with dram := f s.dram }

/-- `host` changed. -/
def State.onHost (s : State) (f : HostSt → HostSt) : State := { s with host := f s.host }

/-- `qm` changed. -/
def State.onQm (s : State) (f : QmSt → QmSt) : State := { s with qm := f s.qm }

/-- `cmd` changed. -/
def State.onCmd (s : State) (f : CmdSt → CmdSt) : State := { s with cmd := f s.cmd }

/-- `damask` changed. -/
def State.onDamask (s : State) (f : DamaskSt → DamaskSt) : State := { s with damask := f s.damask }

/-- `tables` changed. -/
def State.onTables (s : State) (f : Tab Table → Tab Table) : State := { s with tables := f s.tables }

/-- `twill` changed. -/
def State.onTwill (s : State) (f : TwillSt → TwillSt) : State := { s with twill := f s.twill }

/-- `krm` changed. -/
def State.onKrm (s : State) (f : KrmSt → KrmSt) : State := { s with krm := f s.krm }

/-- `blk` changed. -/
def State.onBlk (s : State) (f : BlkSt → BlkSt) : State := { s with blk := f s.blk }

/-- `cy` changed. -/
def State.onCy (s : State) (f : CySt → CySt) : State := { s with cy := f s.cy }

/-- `dma` changed. -/
def State.onDma (s : State) (f : Tab DmaChan → Tab DmaChan) : State := { s with dma := f s.dma }

/-- `cores` changed. -/
def State.onCores (s : State) (f : CoresSt → CoresSt) : State := { s with cores := f s.cores }

/-- `boot` changed. -/
def State.onBoot (s : State) (f : BootSt → BootSt) : State := { s with boot := f s.boot }

/-- `power` changed. -/
def State.onPower (s : State) (f : PowerSt → PowerSt) : State := { s with power := f s.power }

/-- `trust` changed. -/
def State.onTrust (s : State) (f : TrustSt → TrustSt) : State := { s with trust := f s.trust }

/-- `ev` changed. -/
def State.onEv (s : State) (f : EvSt → EvSt) : State := { s with ev := f s.ev }

/-- `ct` changed. -/
def State.onCt (s : State) (f : CtSt → CtSt) : State := { s with ct := f s.ct }

/-- `pins` changed. -/
def State.onPins (s : State) (f : PinSt → PinSt) : State := { s with pins := f s.pins }

/-- `out` changed. -/
def State.onOut (s : State) (f : List Out → List Out) : State := { s with out := f s.out }

/-- `free` changed. -/
def State.onFree (s : State) (f : Nat → Nat) : State := { s with free := f s.free }

end Sys2Proof.Machine
end

