-- ==== Sys2Proof/Machine/Routes.lean ====
section
/-! DEFINITION. The twelve links of the package fabric and the routes over them (01 R15 R16 R18). Commands are whole, so no
transfer is in flight when a route is replaced (log 47). -/

namespace Sys2Proof.Machine

/-- The ends of the twelve links of R15, as die numbers (01 R21). -/
def linkEnds : List (Nat × Nat) :=
  [(0, 1), (2, 3), (0, 2), (1, 3), (4, 0), (4, 1), (5, 2), (5, 3), (6, 0), (6, 1), (7, 2), (7, 3)]

/-- The row of an I/O die: N0 and H0 sit beside T0 and T1, N1 and H1 beside T2 and T3. -/
def dieRow (d : Nat) : Nat := if d < 4 then d / 2 else d % 2

/-- The route between two dies while every link is up, as the dies it passes (01 R16). -/
def fixedRoute (a b : Nat) : List Nat :=
  if a = b then [a]
  else if a < 4 ∧ b < 4 then (if a ^^^ b = 3 then [a, a ^^^ 1, b] else [a, b])
  else if b < 4 then (if dieRow a = dieRow b then [a, b] else [a, b ^^^ 2, b])
  else if a < 4 then (if dieRow a = dieRow b then [a, b] else [a, a ^^^ 2, b])
  else
    let col := if a < 6 then 1 else 0
    let from' := 2 * dieRow a + col
    if dieRow a = dieRow b then [a, from', b] else [a, from', 2 * dieRow b + col, b]

/-- The link between two dies is up. -/
def State.dieLinkUp (s : State) (a b : Nat) : Bool :=
  linkEnds.zipIdx.any fun (e, i) => (e == (a, b) || e == (b, a)) && (s.links.getD i { up := false, fails := 0 }).up

/-- One step between neighbouring tiles: the direct link, or the other way round the ring of four (01 R18). -/
def State.tileStep (s : State) (a b : Nat) : Option (List Nat) :=
  let c := if a ^^^ b = 1 then a ^^^ 2 else a ^^^ 1
  let d := if a ^^^ b = 1 then b ^^^ 2 else b ^^^ 1
  if s.dieLinkUp a b then some [b]
  else if s.dieLinkUp a c && s.dieLinkUp c d && s.dieLinkUp d b then some [c, d, b] else none

/-- One step of a route between dies that a link joins: that link, or what replaces it; an I/O die reaches a tile through its
other linked tile and the row link (01 R18). None where nothing replaces it. -/
def State.routeStep (s : State) (a b : Nat) : Option (List Nat) :=
  if a < 4 ∧ b < 4 then s.tileStep a b
  else if s.dieLinkUp a b then some [b]
  else if b < 4 then (if s.dieLinkUp a (b ^^^ 1) then (s.tileStep (b ^^^ 1) b).map ((b ^^^ 1) :: ·) else none)
  else (if s.dieLinkUp (a ^^^ 1) b then (s.tileStep a (a ^^^ 1)).map (· ++ [b]) else none)

/-- The dies that a transfer passes from a die on, along a list of dies that links join (01 R16 R18). Each link that is down is replaced by
itself, so that a route of two links may come back over a die (T0 to T3 with T0-T1 down: T0, T2, T3, T1, T3): DESIGN CHOICE, R18 replaces
the link on the route and does not say that the detour is shortened (log 47). -/
def State.routeVia (s : State) (a : Nat) : List Nat → Option (List Nat)
  | [] => some [a]
  | b :: l => match s.routeStep a b, State.routeVia s b l with
    | some x, some y => some (a :: (x.dropLast ++ y))
    | _, _ => none

/-- The route in use between two dies, none where the links that remain give none (01 R16 R18). -/
def State.route (s : State) (a b : Nat) : Option (List Nat) := s.routeVia a ((fixedRoute a b).drop 1)

/-- The latency in ns that the links of the route in use add to a transfer (01 R15). -/
def State.routeNs (s : State) (a b : Nat) : Nat := 12 * (((s.route a b).getD []).length - 1)

/-- The lowest die that some die cannot reach over the links that remain, no transfer passing through an I/O die (01 R16 R19).
That DEV_FATAL and the log name this die is a DESIGN CHOICE: the spec says "die" and not which of those parted (log 47). -/
def State.cutOff (s : State) : Option Nat :=
  (List.range 8).find? fun d => (List.range 8).any fun a => (s.route a d).isNone

end Sys2Proof.Machine
end

