-- ==== Sys2Proof/Machine/Ops.lean ====
section
/-! DEFINITION. The shared operations: time, device memory, counters, functions and host references, the device log,
events, MSI-X requests, PIN_FAULT, thread wakes and the FATAL state. -/

namespace Sys2Proof.Machine

/-! ## Fabric time (02 R35 R44 R63) -/

/-- FT in nanoseconds. -/
abbrev State.ft (s : State) : Nat := s.time.ft

/-- How far FT lies past the last instant of a period and phase (02 R63). -/
def State.past (s : State) (p φ : Nat) : Nat := (s.ft + (p - φ % p)) % p

/-- FT has come to an instant of a period and phase: it equals one, or it passed one in the oscillator nanosecond that ends now,
so that this is the first FT at or after it (02 R63 R64). -/
def State.onGrid (s : State) (p φ : Nat) : Bool := p != 0 && decide (s.past p φ < max 1 (s.ft - s.time.prev))

/-- A 1,024 ns frame boundary. -/
def State.onFrame (s : State) : Bool := s.onGrid 1024 0

/-- A rebalance point (02 R63). -/
def State.onRebalance (s : State) : Bool := s.onGrid 1048576 0

/-- The instant of a grid that FT has come to now; at a step point the new FT (R46). -/
def State.gridFt (s : State) (p φ : Nat) : Nat := if s.onGrid p φ then s.ft - s.past p φ else s.ft

/-- The frame boundary at which a change takes effect now, the reply FT of its command. -/
def State.frameFt (s : State) : Nat := s.gridFt 1024 0

/-- The rebalance point at which a change takes effect now. -/
def State.rebalanceFt (s : State) : Nat := s.gridFt 1048576 0

/-- The first frame boundary after an instant. -/
def nextFrame (t : Nat) : Nat := (t / 1024 + 1) * 1024

/-- The first rebalance point after an instant. -/
def nextRebalance (t : Nat) : Nat := (t / 1048576 + 1) * 1048576

/-- A one-shot change for instant `t` of a grid is due: at a point of the grid, or at a forward step that passed it (R46). -/
def State.dueAt (s : State) (t : Nat) (grid : Bool) : Bool :=
  decide (t ≤ s.ft) && (grid || (s.ftu.stepAt == s.ft && decide (0 < s.ftu.stepAmt) && decide (s.ft < t + s.ftu.stepAmt.toNat)))

/-- A change accepted at an instant is due at the first frame boundary after it. -/
def State.dueFrame (s : State) (accepted : Nat) : Bool := s.dueAt (nextFrame accepted) s.onFrame

/-- A change accepted at an instant is due at the first rebalance point after it. -/
def State.dueRebalance (s : State) (accepted : Nat) : Bool := s.dueAt (nextRebalance accepted) s.onRebalance

/-- The limit of FT_FREQ_ADJ, 1,000 ppm in 1/256 ppb (02 R60). -/
def freqLimit : Int := 256000000

/-- A frequency held within the limit. -/
def clampFreq (v : Int) : Int := if v < -freqLimit then -freqLimit else if v > freqLimit then freqLimit else v

/-- One unit of 2^-16 ns in the unit of the clock's residue (log 1). -/
def remUnit : Nat := 256000000000

/-- `dt` ns of oscillator time pass: FT gains them at the rate of FT_FREQ_ADJ (02 R44). The slew gives at most what is
left of its offset, and ends when that is given. -/
def State.run (s : State) (dt : Nat) : State :=
  let f := s.ftu
  let want := (dt : Int) * 65536 * f.slewPart
  let ends := decide (f.slewLeft.natAbs ≤ want.natAbs)
  let slew := if ends then f.slewLeft else want
  let num := (dt : Int) * 65536 * (remUnit + f.freqEst) + slew + s.time.rem
  let num := num.toNat
  let units := s.time.frac + num / remUnit
  let s := s.onTime fun t =>
    { t with osc := t.osc + dt, ft := t.ft + units / 65536, frac := units % 65536, rem := num % remUnit, prev := t.ft }
  s.onFtu fun f => if ends then { f with slewPart := 0, slewLeft := 0 } else { f with slewLeft := f.slewLeft - slew }

/-- `dt` ns of oscillator time pass, the last of them by itself, so that `prev` is FT one oscillator nanosecond ago. FT stands
still while the device is OFF (02 R37). -/
def State.advance (s : State) (dt : Nat) : State :=
  if dt = 0 then s
  else if s.power.dev = .off then s.onTime fun t => { t with osc := t.osc + dt, prev := t.ft }
  else (if dt = 1 then s else s.run (dt - 1)).run 1

/-! ## The dies' counters (02 R51 R53) -/

/-- FT and FT_FRAC as a die's counter shows them: the master's, on N0, and elsewhere off it by the die's misalignment, in
units of 0.25 ns. A counter that is set back stands still instead, until FT has come to what it showed (02 R38). -/
def State.dieClock (s : State) (die : Nat) : Nat × Nat :=
  if die = 4 then (s.ft, s.time.frac)
  else
    let u := max (s.ftu.shown.getD die 0)
      ((s.ft * 65536 + s.time.frac : Nat) + s.ftu.misalign.getD die 0 * 16384).toNat
    (u / 65536, u % 65536)

/-- The state with the clock of a die in place of the master's; a step point stays one. -/
def State.seenFrom (s : State) (die : Nat) : State :=
  let (ft, frac) := s.dieClock die
  let s' := s.onTime fun t => { t with ft := ft, frac := frac, prev := if ft = t.ft then t.prev else ft - (t.ft - t.prev) }
  if s.ftu.stepAt = s.ft then s'.onFtu fun f => { f with stepAt := ft } else s'

/-- A state that a die has reached by its own counter, with the clocks of the state before. -/
def State.backFrom (s u : State) : State :=
  let v := u.onTime fun t => { s.time with latchHigh := t.latchHigh, latchFrac := t.latchFrac }
  if s.ftu.stepAt = s.ft then v.onFtu fun f => { f with stepAt := s.ftu.stepAt } else v

/-- What a die does, by its own counter: each change named for an instant takes effect at the first FT of that counter at or after it, and
each timestamp is of that counter (02 R53 R64). -/
def State.onDie (die : Nat) (act : State → State) (s : State) : State := s.backFrom (act (s.seenFrom die))

/-- The dies of a queue, of a connection, of a slice's functions and of a counter block (R64). -/
def State.queueDie (s : State) (qid : Nat) : Nat := ((s.qm.queues.get qid).map (·.home)).getD 4
def State.connDie (s : State) (cid : Nat) : Nat := ((s.krm.conns.get cid).map (·.home)).getD 4
def State.sliceDie (s : State) (sid : Nat) : Nat := 6 + ((s.host.slices.get sid).map fun x => x.mgr.port % 2).getD 0
def blockDie (kind idx : Nat) : Nat :=
  if kind = 8 then 4 + idx / 2 % 2 else if kind = 9 then 6 + idx % 2 else if kind = 10 then idx % 16 / 3
  else if kind < 8 ∨ kind = 25 then idx % 4 else 4
def State.dumpDie (s : State) (n : Nat) : Nat := ((s.ct.dumps.get n).map fun d => blockDie (field d.block 27 5) (field d.block 0 27)).getD 4

/-- FT_NOW read on a die latches its high word and FT_NOW_FRAC (02 R60). -/
def State.latchFt (s : State) (die : Nat) : State :=
  let (ft, frac) := s.dieClock die
  s.onTime fun t => { t with
    latchHigh := modAt t.latchHigh die fun _ => ft / 2 ^ 32 % 2 ^ 32
    latchFrac := modAt t.latchFrac die fun _ => frac }

/-! ## Device memory (01 R21 R22 R26, 14 R402) -/

/-- The byte of a cell list; an unlisted cell reads 0 (log 6). -/
def memGet : List Host.Cell → Nat → Byte
  | [], _ => 0
  | (k, v) :: m, a => if k = a then v else memGet m a

/-- A cell list with one byte written, in canonical form: rising keys, no zero byte listed. -/
def memPut : List Host.Cell → Nat → Byte → List Host.Cell
  | [], a, b => if b = 0 then [] else [(a, b)]
  | (k, v) :: m, a, b =>
    if a < k then (if b = 0 then (k, v) :: m else (a, b) :: (k, v) :: m)
    else if a = k then (if b = 0 then m else (a, b) :: m)
    else (k, v) :: memPut m a b

/-- The canonical form of a cell list. -/
abbrev Memory.wf (m : List Host.Cell) : Prop := m.Pairwise (fun x y => x.1 < y.1) ∧ ∀ c ∈ m, c.2 ≠ 0

/-- A DRAM region's stripe: 48 KiB in GLOBAL12 mode and 12 KiB in LOCAL3 (01 R25). -/
def Region.stripe (r : Region) : Nat := if r.local3.isSome then 12288 else 49152

/-- The channel and the channel address of a device address in a region (01 R26). -/
def Region.map (r : Region) (a : Nat) : Nat × Nat :=
  let off := a - r.base
  let g := off / 4096
  let ch := match r.local3 with
    | none => g % 12
    | some t => 3 * t + g % 3
  let cg := match r.local3 with
    | none => g / 12
    | some _ => g / 3
  (ch, r.chanBase + cg * 4096 + off % 4096)

/-- The region that holds a device address. -/
def State.regionAt (s : State) (a : Nat) : Option (Nat × Region) :=
  s.dram.regions.find? fun (_, r) => r.enabled && r.base ≤ a && a < r.base + r.size

/-- The offset in a tile SRAM window lies in a store (01 R22). -/
def sramMapped (off : Nat) : Bool :=
  off < 0x8000000 || (0x10000000 ≤ off && off < 0x11000000) || (0x20000000 ≤ off && off < 0x20400000)
    || (0x30000000 ≤ off && off < 0x30800000)

/-- Where a device address lies. -/
inductive DevLoc where
  | dram (region : Nat) (r : Region) (channel caddr : Nat)
  | sram (tile : Nat)
  | regs (die off : Nat)
  | unmapped
deriving DecidableEq, Repr

/-- A tile has power. -/
def State.tileOn (s : State) (t : Nat) : Bool :=
  match s.power.tiles.getD t .off with
  | .active | .idle => true
  | _ => false

/-- A tile takes frames and work: it has power, has not been parked past its park point, is not still being unparked, and does not drain for
STANDBY (16 R449 R451 to R455). -/
def State.tileUsed (s : State) (t : Nat) : Bool :=
  s.tileOn t && s.power.standby.isNone && match s.power.op with
    | some o => o.tile != t || (!o.unpark && !o.passed)
    | none => true

/-- The map of R21 and R22. -/
def State.devLoc (s : State) (a : Nat) : DevLoc :=
  if a < 0x80000000000 then
    match s.regionAt a with
    | some (i, r) => let (c, ca) := r.map a; .dram i r c ca
    | none => .unmapped
  else if 0xF00000000000 ≤ a && a < 0xF00400000000 then
    let t := (a - 0xF00000000000) / 0x100000000
    if sramMapped ((a - 0xF00000000000) % 0x100000000) && s.tileOn t then .sram t else .unmapped
  else if 0xFF0000000000 ≤ a && a < 0xFF0080000000 then
    .regs ((a - 0xFF0000000000) / 0x10000000) ((a - 0xFF0000000000) % 0x10000000)
  else .unmapped

/-- The key of a device byte in the memory list: DRAM by channel and channel address, so that a region laid out anew
shows the channel's bytes; SRAM by its device address. What engines keep in the stores of a tile (queue and operation contexts,
cached table lines, frames) is state of its own beside these bytes, but for slow-path frames: DESIGN CHOICE, R22 gives the
windows no layout (log 49). -/
def State.memKey (s : State) (a : Nat) : Option Nat :=
  match s.devLoc a with
  | .dram _ _ c ca => some (c * 2 ^ 40 + ca)
  | .sram _ => some a
  | _ => none

/-- Who makes an access (17 R459). -/
inductive Requester where
  | buckram
  | thread (handover : Bool)
  | engine
  | volume (region : Nat)
  | krm
  | calico
  | debugger
deriving DecidableEq, Repr

/-- The regions of the window descriptors and of the inline key table (log 31). -/
def windowRegion : Nat := 2
def keyRegion : Nat := 3

/-- The firewall of R459: read, write or execute of a region by a requester; the tail of a region beyond its area is
Buckram's alone (01 R25). -/
def Region.allows (r : Region) (idx : Nat) (a : Nat) (q : Requester) (write exec : Bool) : Bool :=
  match q with
  | .buckram => true
  | .debugger => a < r.base + r.used
  | .thread h => a < r.base + r.used &&
      match r.owner with
      | .device => !exec
      | .code => !write && r.checked
      | .handover => h && !exec
      | _ => false
  | .engine => a < r.base + r.used && r.owner == .device
  | .volume v => a < r.base + r.used && (r.owner == .device || (r.owner == .function && idx == v))
  | .krm => a < r.base + r.used && (r.owner == .device || (r.owner == .secure && idx == windowRegion && !write))
  | .calico => a < r.base + r.used && (r.owner == .device || (r.owner == .secure && idx == keyRegion && !write))

/-- A requester may reach a device byte of memory. -/
def State.mayReach (s : State) (q : Requester) (a : Nat) (write exec : Bool) : Bool :=
  match s.devLoc a with
  | .dram i r _ _ => r.allows i a q write exec
  | .sram _ => true
  | _ => false

/-- How a device read ends. -/
inductive DevRead where
  | data (b : Bytes)
  | fault
  | poisoned
deriving DecidableEq, Repr

/-- The addresses of `n` bytes from `a`. -/
def addrs (a n : Nat) : List Nat := (List.range n).map (a + ·)

/-- A line whose data is not returned: it is poisoned, or in error beyond correction (14 R404). -/
def DramSt.lineBad (d : DramSt) (k : Nat) : Bool := d.poison.contains k || d.faults.get k == some .bad

/-- The line of a device address is bad. -/
def State.linePoisoned (s : State) (a : Nat) : Bool :=
  match s.memKey a with
  | some k => s.dram.lineBad (k / 64)
  | none => false

/-- A read of device memory by a requester (01 R21, 14 R404). -/
def State.devRead (s : State) (q : Requester) (a n : Nat) (exec : Bool := false) : DevRead :=
  if (addrs a n).all fun x => s.mayReach q x false exec then
    if (addrs a n).any s.linePoisoned then .poisoned
    else .data ((addrs a n).map fun x => match s.memKey x with
        | some k => memGet s.mem k
        | none => 0)
  else .fault

/-- One byte written at a device address that is mapped. -/
def State.pokeByte (s : State) (a : Nat) (b : Byte) : State :=
  match s.memKey a with
  | some k => s.onMem fun m => memPut m k b
  | none => s

/-- Bytes written from a device address on. -/
def State.pokeBytes (s : State) (a : Nat) (bs : Bytes) : State :=
  (bs.zipIdx).foldl (fun s (b, i) => s.pokeByte (a + i) b) s

/-! ## DRAM regions (01 R25 R27, 14 R396) -/

/-- The channels of a mode. -/
def regionChans : Option Nat → List Nat
  | none => List.range 12
  | some t => [3 * t, 3 * t + 1, 3 * t + 2]

/-- What a region takes on each of its channels. -/
def Region.share (r : Region) : Nat := r.size / (regionChans r.local3).length

/-- A channel is populated and trained; its capacity. -/
def State.channelCap (s : State) (c : Nat) : Nat :=
  match s.dram.channels[c]? with
  | some x => if x.trained then (x.pop.map (·.capacity)).getD 0 else 0
  | none => 0

/-- No region meets a share at a channel base on these channels. -/
def State.shareFree (s : State) (chans : List Nat) (base share : Nat) : Bool :=
  s.dram.regions.all fun (_, r) =>
    !((regionChans r.local3).any chans.contains) || r.chanBase + r.share ≤ base || base + share ≤ r.chanBase

/-- No region meets a range of device addresses. -/
def State.addrFree (s : State) (base size : Nat) : Bool :=
  s.dram.regions.all fun (_, r) => r.base + r.size ≤ base || base + size ≤ r.base

/-- A region is laid out as R25 asks: base and size are multiples of its stripe, its area starts it and leaves less than a stripe, it
lies in the DRAM range, and no other region meets it there or on a channel that can hold it. -/
def State.regionOk (s : State) (i : Nat) (r : Region) : Bool :=
  let others := s.onDram fun d => { d with regions := d.regions.del i }
  r.size != 0 && r.base % r.stripe == 0 && r.size % r.stripe == 0 && r.used ≤ r.size && r.size < r.used + r.stripe
    && r.base + r.size ≤ 2 ^ 43 && r.local3.all (decide <| · < 4)
    && others.addrFree r.base r.size && others.shareFree (regionChans r.local3) r.chanBase r.share
    && (regionChans r.local3).all fun c => r.chanBase + r.share ≤ s.channelCap c

/-- Buckram accepts service firmware's request for a region (R27): a free number takes a new DEVICE region, an enabled region is only
disabled, and a disabled one is laid out anew, enabled or removed. The regions of other owners are Buckram's own (14 R403). -/
def State.regionChangeOk (s : State) (i : Nat) (r : Option Region) : Bool :=
  decide (i < 64) && match s.dram.regions.get i, r with
    | none, some r => r.owner == .device && s.regionOk i r
    | none, none => false
    | some o, some r => o.owner == .device && (if o.enabled then r == { o with enabled := false } else r.owner == .device && s.regionOk i r)
    | some o, none => o.owner == .device && !o.enabled

/-- The region register as a request leaves it. -/
def State.putRegion (s : State) (i : Nat) (r : Option Region) : State :=
  s.onDram fun d => { d with regions := match r with
    | some r => d.regions.set i r
    | none => d.regions.del i }

/-- An enabled region for an area of `used` bytes, placed first-fit (log 15), and a number for it. None where no channel or number is
left. -/
def State.layRegion (s : State) (local3 : Option Nat) (owner : RegionOwner) (used : Nat) : Option (Nat × Region) :=
  let chans := regionChans local3
  let stripe := 4096 * chans.length
  let size := roundUp used stripe
  let share := size / chans.length
  let ends := 0 :: s.dram.regions.map fun (_, r) => r.chanBase + r.share
  let cb := ends.find? fun b => s.shareFree chans b share && chans.all fun c => b + share ≤ s.channelCap c
  let addrEnds := 0 :: s.dram.regions.map fun (_, r) => roundUp (r.base + r.size) stripe
  let base := addrEnds.find? fun b => s.addrFree b size && b + size ≤ 2 ^ 43
  match cb, base, s.dram.regions.firstFree 0 64 with
  | some cb, some base, some k =>
    if size = 0 then none
    else some (k, { base := base, size := size, local3 := local3, chanBase := cb, enabled := true, owner := owner, used := used })
  | _, _, _ => none

/-- A new region of Buckram's own making: its number. -/
def State.newRegion (s : State) (local3 : Option Nat) (owner : RegionOwner) (used : Nat) (holder : Option Owner := none) :
    Option (State × Nat) :=
  (s.layRegion local3 owner used).map fun (k, r) => (s.putRegion k (some { r with holder := holder }), k)

/-- A region removed. -/
def State.dropRegion (s : State) (k : Nat) : State := s.onDram fun d => { d with regions := d.regions.del k }

/-! ## Counters (18 R498) -/

/-- `n` more counts of a counter word. -/
def State.countBy (s : State) (kind index word n : Nat) : State :=
  s.onCt fun c => { c with words := c.words.set (ctKey kind index word) (ctAdd ((c.words.get (ctKey kind index word)).getD 0) n) }

/-- One more count. -/
def State.count (s : State) (kind index word : Nat) : State := s.countBy kind index word 1

/-- A counter word. -/
def State.counter (s : State) (kind index word : Nat) : Nat := (s.ct.words.get (ctKey kind index word)).getD 0

/-- Every word of a block ceases to exist (18 R501). -/
def State.dropCounters (s : State) (kind index : Nat) : State :=
  s.onCt fun c => { c with words := c.words.filter fun (k, _) => k / 128 != kind * 2 ^ 27 + index }

/-! ## Writing device memory (01 R21, 14 R401 R402 R405) -/

/-- The lines that a write covers whole lose their poison and their errors (14 R402), and a load reservation on a written line is lost
(12 R333; log 12). -/
def State.cleanMem (s : State) (whole touched : List Nat) : State :=
  let s := s.onDram fun d => { d with
    poison := d.poison.filter fun l => !whole.contains l, faults := d.faults.filter fun (l, _) => !whole.contains l }
  s.onCores fun c => { c with threads := c.threads.map fun (k, t) =>
    (k, if t.reservation.any touched.contains then { t with reservation := none } else t) }

/-- The lines of a write. A pending write-back of a written line is dropped, and counted in WB_DROP (14 R401 R411). -/
def State.cleanLines (s : State) (a n : Nat) : State :=
  let whole := (addrs a n).filterMap fun x =>
    if x % 64 = 0 ∧ x + 64 ≤ a + n then (s.memKey x).map (· / 64) else none
  let touched := (addrs a n).filterMap fun x => (s.memKey x).map (· / 64)
  let s := s.cleanMem whole touched
  let lost := s.dram.channels.zipIdx.filter fun (c, _) => c.writebacks.any touched.contains
  let s := lost.foldl (fun s (c, i) => s.countBy Ct.ddr (512 + i) 0 (c.writebacks.filter touched.contains).length) s
  s.onDram fun d => { d with
    channels := d.channels.map fun c => { c with writebacks := c.writebacks.filter fun l => !touched.contains l } }

/-- A write to device memory by a requester; none where it is an access fault (01 R21). -/
def State.devWrite (s : State) (q : Requester) (a : Nat) (bs : Bytes) : Option State :=
  if (addrs a bs.length).all fun x => s.mayReach q x true false then
    some ((s.pokeBytes a bs).cleanLines a bs.length)
  else none

/-! ## Output and free values -/

/-- One more output of the block (log 3). -/
def State.emit (s : State) (o : Out) : State := s.onOut (· ++ [o])

/-- The next free value (log 4). -/
def State.freeVal (s : State) : Nat := Config.freeNat s.free

/-- One free value used. -/
def State.useFree (s : State) : State := s.onFree (· + 1)

/-! ## Functions (13 R363 R365) -/

/-- The number of sub-links of a port by its bifurcation straps (13 R362). -/
def State.subLinks (s : State) (port : Nat) : Nat :=
  match (if port = 0 then s.pins.straps.hp0Bif else s.pins.straps.hp1Bif) with
  | 1 => 2
  | 2 => 4
  | _ => 1

/-- A host port. -/
def State.hostPort (s : State) (p : Nat) : HostPort := s.host.ports.getD p HostPort.reset

/-- A host port changed. -/
def State.onHostPort (s : State) (p : Nat) (f : HostPort → HostPort) : State :=
  s.onHost fun h => { h with ports := modAt h.ports p f }

/-- The PF record in force of PF `k` of a port. -/
def State.pfRecord (s : State) (port k : Nat) : Option PfRecord :=
  match (s.hostPort port).profile with
  | some l => match l[k]? with
    | some r => if r.present then some r else none
    | none => none
  | none => none

/-- TOTAL_VFS of PF `k`, 0 where it is not present. -/
def State.totalVfs (s : State) (port k : Nat) : Nat :=
  match s.pfRecord port k with
  | some r => r.totalVfs
  | none => 0

/-- The first global VF number of PF `k` (13 R365). -/
def State.firstVf (s : State) (port k : Nat) : Nat :=
  let m := s.subLinks port
  let sl := k * m / 8
  sl * (1024 / m) + ((List.range (k - 8 * sl / m)).map fun j => s.totalVfs port (8 * sl / m + j)).sum

/-- The PF of a function: itself, or the PF that owns a VF. -/
def State.pfOf (s : State) (f : FnRef) : Nat :=
  if f.vf then
    ((List.range 8).find? fun k => s.firstVf f.port k ≤ f.num && f.num < s.firstVf f.port k + s.totalVfs f.port k).getD 8
  else f.num

/-- The sub-link of a function. -/
def State.subLinkOf (s : State) (f : FnRef) : Nat := s.pfOf f * s.subLinks f.port / 8

/-- The MSI-X Table Size of a function (13 R363). -/
def State.tableSize (s : State) (f : FnRef) : Nat :=
  match s.pfRecord f.port (s.pfOf f) with
  | some r => if f.vf then r.vfVec else r.pfVec
  | none => 0

/-- A function's registers. -/
def State.fn (s : State) (f : FnRef) : Option FnSt := s.host.fns.find? (·.ref == f)

/-- A function changed. -/
def State.onFn (s : State) (f : FnRef) (g : FnSt → FnSt) : State :=
  s.onHost fun h => { h with fns := h.fns.map fun x => if x.ref == f then g x else x }

/-- The registers of a function at reset (13 R369; PCI Express defaults, log 17). -/
def FnSt.reset (f : FnRef) : FnSt where
  ref := f
  bme := false
  mse := false
  d3hot := false
  msixEnable := false
  msixMask := false
  vecPending := []
  vecSent := []
  vecEntries := []
  vfEnable := false
  numVfs := 0
  pasidEnable := false
  relaxed := false
  aspmL1 := false
  ctoValue := 0
  maxPayload := 128
  maxRead := 512
  aer := []
  flrAt := none
  cmdEn := false
  cmdActive := false
  cmdErr := false
  cmdClosing := false
  sqBase := 0
  cqBase := 0
  wbBase := 0
  cmdCfg := 0
  sqQid := 0xFFFF
  cqQid := 0xFFFF

/-- FnRef of a PF. -/
def pfRef (port k : Nat) : FnRef := { port := port, vf := false, num := k }

/-- A function exists and is enabled: in the profile in force, and a VF only under its PF's VF Enable and NumVFs. -/
def State.fnPresent (s : State) (f : FnRef) : Bool :=
  (s.fn f).isSome &&
  if f.vf then
    match s.fn (pfRef f.port (s.pfOf f)) with
    | some p => p.vfEnable && f.num < s.firstVf f.port (s.pfOf f) + p.numVfs
    | none => false
  else (s.pfRecord f.port f.num).isSome

/-- PASID Enable of a function, its PF's for a VF (13 R367). -/
def State.pasidOn (s : State) (f : FnRef) : Bool :=
  match s.fn (pfRef f.port (s.pfOf f)) with
  | some p => p.pasidEnable
  | none => false

/-- A function may make requests: Bus Master Enable 1 and not in D3hot (13 R386 R387). -/
def State.mastering (s : State) (f : FnRef) : Bool :=
  match s.fn f with
  | some x => x.bme && !x.d3hot
  | none => false

/-- The 13-bit TARGET form of a function (04 R112). -/
def fnWord (f : FnRef) : Nat := f.port % 2 * 4096 + b2n f.vf * 1024 + f.num % 1024

/-- The function of a TARGET word. -/
def fnOfWord (w : Nat) : FnRef := { port := field w 12 1, vf := bit w 10, num := field w 0 10 }

/-- A slice by its SID. -/
def State.slice (s : State) (sid : Nat) : Option SliceSt := s.host.slices.get sid

/-- The PASID of a slice. -/
def State.pasidOf (s : State) (sid : Nat) : Nat :=
  match s.slice sid with
  | some x => x.pasid
  | none => 0

/-- The function through which an owner reaches the host, with its PASID; none for service firmware. -/
def State.refOf (s : State) : Owner → Option HostRef
  | .firmware => none
  | .management => none
  | .function f => some { fn := f, pasid := none }
  | .slice sid m => some { fn := m, pasid := some (s.pasidOf sid) }

/-- The function of an owner. -/
def Owner.fnRef : Owner → Option FnRef
  | .firmware => none
  | .management => none
  | .function f => some f
  | .slice _ m => some m

/-- The SID of an owner. -/
def Owner.sid : Owner → Option Nat
  | .slice i _ => some i
  | _ => none

/-- The owner word of 08 R250: [31:30] 0 function, 1 slice, 2 firmware; the function or the SID below. -/
def Owner.word : Owner → Nat
  | .function f => (fnWord f)
  | .slice i _ => 2 ^ 30 + i
  | .firmware => 2 ^ 31
  | .management => 2 ^ 31 + 2 ^ 30

/-- An owner is being reset: its function in FLR, or its slice under SLICE_RESET. -/
def State.ownerResetting (s : State) (o : Owner) : Bool :=
  (match o.fnRef with
   | some f => match s.fn f with
     | some x => x.flrAt.isSome
     | none => true
   | none => false) ||
  (match o.sid with
   | some i => match s.slice i with
     | some x => x.resetAt.isSome
     | none => true
   | none => false)

/-- The host die makes a request of this owner (13 R374): otherwise the access is a translation failure. -/
def State.requestOk (s : State) (o : Owner) : Bool :=
  match o.fnRef with
  | none => false
  | some f => s.fnPresent f && !s.ownerResetting o && (o.sid.isNone || s.pasidOn f)

/-- The owner's accesses wait or are held: its function has Bus Master Enable 0 (13 R386). -/
def State.ownerHeld (s : State) (o : Owner) : Bool :=
  match o.fnRef with
  | none => false
  | some f => !s.mastering f

/-- A sub-link in L1 leaves it for a request of a function (13 R388). -/
def State.leaveL1 (s : State) (f : FnRef) : State :=
  s.onHostPort f.port fun p => { p with subLinks := modAt p.subLinks (s.subLinkOf f) fun l => { l with inL1 := false, l1sub := 0 } }

/-- The first PF of a sub-link. -/
def State.firstPf (s : State) (port sub : Nat) : FnRef := pfRef port (8 * sub / s.subLinks port)

/-- The Max_Payload_Size that governs a function: that of the first PF of its sub-link (13 R373). -/
def State.payloadOf (s : State) (f : FnRef) : Nat := ((s.fn (s.firstPf f.port (s.subLinkOf f))).map (·.maxPayload)).getD 128

/-- Bytes for an address cut into writes of at most `m` bytes. -/
def cutWrites (m a : Nat) (b : Bytes) : List (Nat × Bytes) :=
  (List.range (max 1 ((b.length + m - 1) / m))).map fun k => (a + k * m, (b.drop (k * m)).take m)

/-- A posted write for an owner: into DRAM for service firmware, else through the host die, where the host die makes
it (13 R532), split at the Max_Payload_Size (13 R373). The answer says whether it was made. `ro`: 08 R255 allows Relaxed Ordering, which is
then set where the function enables it (13 R374). -/
def State.ownerWrite (s : State) (o : Owner) (a : Nat) (b : Bytes) (ro : Bool := false) : State × Bool :=
  match s.refOf o with
  | none => match s.devWrite .engine a b with
    | some s' => (s', true)
    | none => (s, false)
  | some r =>
    if s.requestOk o then
      let l := cutWrites (max 1 (s.payloadOf r.fn)) a b
      let ro := ro && (s.fn r.fn).any (·.relaxed)
      ((l.foldl (fun s (x, d) => s.emit (.hostWrite r x d ro)) (s.leaveL1 r.fn)).countBy Ct.hostPort r.fn.port 1 l.length, true)
    else (s, false)

/-- The read requests that a read is split into at the Max_Read_Request_Size of its function (13 R373, log 27). -/
def State.readRequests (s : State) (r : HostReadSt) : Nat :=
  let m := (s.fn r.ref.fn).elim 128 fun x => max 128 x.maxRead
  max 1 ((r.len + m - 1) / m)

/-- A sub-link is in Flit mode: always at 64 GT/s and above, below as the partner settles it (13 R361, log 27). -/
def State.flitMode (s : State) (port sub : Nat) : Bool :=
  ((s.hostPort port).subLinks[sub]?).any (64000 ≤ ·.rate) || Config.flitMode port sub

/-- The tags of a function: 14-bit in Flit mode, 10-bit otherwise (13 R361). -/
def State.tagsOf (s : State) (f : FnRef) : Nat := if s.flitMode f.port (s.subLinkOf f) then 16384 else 1024

/-- The tags that a read holds while it is outstanding: one for each of its requests, or every tag that it can have, through which its
requests then follow one another (13 R373, log 27). -/
def State.readTags (s : State) (r : HostReadSt) : Nat := min (s.readRequests r) (min 12288 (s.tagsOf r.ref.fn))

/-- The tags in use by functions that a test picks. -/
def State.requestsOut (s : State) (p : FnRef → Bool) : Nat :=
  ((s.host.reads.filter fun (_, x) => p x.ref.fn && !x.waiting).map fun (_, x) => s.readTags x).sum

/-- A read may be made beside those outstanding: at most 12,288 requests of its port, and its function's tags (13 R361 R373 R393). -/
def State.readFits (s : State) (r : HostReadSt) : Bool :=
  let n := s.readTags r
  s.requestsOut (·.port == r.ref.fn.port) + n ≤ 12288 && s.requestsOut (· == r.ref.fn) + n ≤ s.tagsOf r.ref.fn

/-- The least and greatest timeout, in ns, of a Completion Timeout Value: the ranges of the PCI Express specification for the values of
Ranges A to D, 50 to 100 ms for 0000b and for every other value (13 R375, log 17). -/
def ctoRange : Nat → Nat × Nat
  | 1 => (50000, 100000)
  | 2 => (1000000, 10000000)
  | 5 => (16000000, 55000000)
  | 6 => (65000000, 210000000)
  | 9 => (260000000, 900000000)
  | 10 => (1000000000, 3500000000)
  | 13 => (4000000000, 13000000000)
  | 14 => (17000000000, 64000000000)
  | _ => (50000000, 100000000)

/-- The timeout of one read, a free value of its range. -/
def State.readTimeout (s : State) (x : FnSt) : Nat :=
  let (lo, hi) := ctoRange x.ctoValue
  lo + Config.completionTimeout x.ctoValue s.free % (hi - lo + 1)

/-- A read is made: its deadline is the function's completion timeout in oscillator time (13 R375; log 17). -/
def State.makeRead (s : State) (tag : Nat) (r : HostReadSt) : State :=
  let cto := match s.fn r.ref.fn with
    | some x => s.readTimeout x
    | none => 0
  let s := ((s.leaveL1 r.ref.fn).emit (.hostRead tag r.ref r.addr r.len)).count Ct.hostPort r.ref.fn.port 0
  let s := s.useFree
  s.onHost fun h => { h with reads := h.reads.set tag { r with deadline := s.time.osc + cto, waiting := false } }

/-- The reads of a port that wait are made while they find tags, in the order in which they came (13 R373); one whose data nothing
awaits any more is given up. -/
def State.makeReads (s : State) (port : Nat) : State :=
  let s := s.onHost fun h => { h with reads := h.reads.filter fun (_, r) => !(r.waiting && r.dead) }
  (s.host.reads.filter fun (_, r) => r.ref.fn.port == port && r.waiting).foldl (fun s (tag, r) =>
    match s.host.reads.find? fun (_, x) => x.ref.fn.port == port && x.waiting with
    | some (t, _) => if t = tag ∧ s.readFits r = true then s.makeRead tag r else s
    | none => s) s

/-- A read that is outstanding. -/
def State.readOut (s : State) (tag : Nat) : Option HostReadSt :=
  match s.host.reads.get tag with
  | some r => if r.waiting then none else some r
  | none => none

/-- The read of a tag is over: its tags are free for reads that wait. -/
def State.dropRead (s : State) (tag : Nat) : State :=
  match s.host.reads.get tag with
  | some r => (s.onHost fun h => { h with reads := h.reads.del tag }).makeReads r.ref.fn.port
  | none => s

/-- A host read for an owner, with what it is for; `none` where the host die does not make it. One that finds no tag waits. -/
def State.hostRead (s : State) (o : Owner) (a n : Nat) (why : ReadFor) : State × Option Nat :=
  match s.refOf o with
  | none => (s, none)
  | some r =>
    if s.requestOk o then
      let tag := s.host.nextTag
      let x : HostReadSt := { ref := r, addr := a, len := n, deadline := 0, dead := false, why := why, waiting := true, own := o }
      let behind := s.host.reads.any fun (_, y) => y.ref.fn.port == r.fn.port && y.waiting
      let s := s.onHost fun h => { h with nextTag := tag + 1, reads := h.reads.set tag x }
      (if !behind && s.readFits x then s.makeRead tag x else s, some tag)
    else (s, none)

/-- One more AER error of a function. -/
def FnSt.logAer (x : FnSt) (e : AerErr) : FnSt := { x with aer := if x.aer.contains e then x.aer else x.aer ++ [e] }

/-- An error is correctable. -/
def AerErr.cor : AerErr → Bool
  | .link _ => true
  | _ => false

/-- The bit of an error in its AER status, mask and severity registers, as the PCI Express specification numbers them (log 27). -/
def AerErr.index : AerErr → Nat
  | .link .receiverError => 0
  | .link .badTlp => 6
  | .link .badDllp => 7
  | .link .replayRollover => 8
  | .link .replayTimeout => 12
  | .fatalLink .dataLinkProtocol => 4
  | .fatalLink .surpriseDown => 5
  | .poisonedTlp => 12
  | .fatalLink .flowControlProtocol => 13
  | .completionTimeout => 14
  | .unexpectedCompletion => 16
  | .fatalLink .receiverOverflow => 17
  | .fatalLink .malformedTlp => 18
  | .unsupportedRequest => 20
  | .internal => 22

/-- The message that an error calls for by the function's masks, severities and enables, if any. -/
def State.aerMessage (s : State) (x : FnSt) (e : AerErr) : Option Out :=
  if e.cor then (if x.corReporting && !bit x.corMask e.index then some (.errCor x.ref) else none)
  else if bit x.uncMask e.index then none
  else if bit x.uncSeverity e.index then (if x.fatalReporting then some (.errFatal x.ref.port (s.subLinkOf x.ref)) else none)
  else if x.nonFatalReporting then some (.errNonFatal x.ref) else none

/-- An error logged in a function, and signalled as its registers select (13 R390). -/
def State.logAer (s : State) (f : FnRef) (e : AerErr) : State :=
  match s.fn f with
  | none => s
  | some x =>
    let s := s.onFn f (·.logAer e)
    match s.aerMessage x e with
    | some o => s.emit o
    | none => s

/-! ## The device log (18 R495) -/

/-- One more 32-byte record of the device log: FT, KIND, and bytes laid over it. -/
def State.logRecord (s : State) (kind : Nat) (parts : List (Nat × Bytes)) : State :=
  let base := toLe 8 s.ft ++ zeros 8 ++ [byte kind] ++ zeros 15
  let rec' := parts.foldl (fun b (i, x) => splice b i x) base
  s.onEv fun e =>
    { e with log := (e.log ++ [rec']).drop (e.log.length + 1 - 4096), logCount := (e.logCount + 1) % 2 ^ 32 }

/-! ## Threads and event inputs (12 R350) -/

/-- The threads of a core, by the core's number in the device. -/
def coreThreads (core : Nat) : List Nat := (List.range 8).map (core * 8 + ·)

/-- The ladder level in force: the cap's, and the forced one (16 R456 R457). -/
def PowerSt.ladder (p : PowerSt) : Nat := max p.level p.forced

/-- Core clocks of a tile in an oscillator nanosecond, in eighths: 2.0 GHz, 125 MHz less for each level up to 8, and none while the tile is
not ACTIVE (12 R331, 16 R448 R456). -/
def PowerSt.rate (p : PowerSt) (t : Nat) : Nat := if p.tiles.getD t .off = .active then 16 - min 8 p.ladder else 0

/-- The core clocks of a tile up to an oscillator instant, in eighths. -/
def PowerSt.clocks8 (p : PowerSt) (osc t : Nat) : Nat :=
  let (n, at') := p.clk.getD t (0, 0)
  n + (osc - at') * p.rate t

/-- The clocks counted so far, before what governs their rate changes. -/
def PowerSt.rebase (p : PowerSt) (osc : Nat) : PowerSt := { p with clk := (List.range 4).map fun t => (p.clocks8 osc t, osc) }

/-- Power changed in what governs the core clocks. -/
def State.onClocks (s : State) (f : PowerSt → PowerSt) : State :=
  let osc := s.time.osc
  s.onPower fun p => f (p.rebase osc)

/-- The core clocks of a tile, as its CSR `cycle` counts them from. -/
def State.coreClocks (s : State) (t : Nat) : Nat := s.power.clocks8 s.time.osc t / 8

/-- A thread changed. -/
def State.onThread (s : State) (tid : Nat) (f : Thread → Thread) : State :=
  s.onCores fun c => { c with threads := c.threads.mod tid f }

/-- A register of a thread written; x0 discards (12 R333). -/
def Thread.setReg (t : Thread) (r : Nat) (v : Nat) : Thread :=
  if r = 0 then t else { t with regs := t.regs.set r (BitVec.ofNat 64 v) }

/-- The wake mask as a read returns it: bits 28 and 29 always set in thread 0 (12 R341). -/
def Thread.wakeMask (t : Thread) (tid : Nat) : Nat :=
  if tid % 8 = 0 then t.kzwake.toNat ||| 0x30000000 else t.kzwake.toNat

/-- The record of a tagged instruction goes to its tile's sample buffer (12 R359, 18 R510). -/
def State.coreRecord (s : State) (tile : Nat) (b : Bytes) : State :=
  if 2048 ≤ (s.ct.coreBuf.getD tile []).length then s.count Ct.cores tile 34
  else s.onCt fun c => { c with coreBuf := modAt c.coreBuf tile (· ++ [b]) }

/-- The 32 bytes of R359; WAIT is free, and LAT adds free clocks to the time that the instruction blocked (log 19). -/
def sampleBytes (ft pc addr tid sfl level free blocked : Nat) : Bytes :=
  toLe 8 ft ++ toLe 8 pc ++ toLe 8 addr ++ toLe 2 tid ++ [byte sfl, byte level] ++ toLe 2 (free % 65536)
    ++ toLe 2 (min 65535 (2 * blocked + free / 65536 % 65536))

/-- The record of a followed instruction that blocked and now completes; LEVEL is 7 where a message came of it. -/
def State.settleFollow (s : State) (tid : Nat) (t : Thread) (level : Nat) : State :=
  match s.cores.cores.get (tid / 8) with
  | none => s
  | some c =>
    match c.follow with
    | none => s
    | some (k, ft, osc) =>
      if k = tid then
        let s := s.onCores fun x => { x with cores := x.cores.mod (tid / 8) fun c => { c with follow := none } }
        let addr := if t.state = .blockedCh then t.waitCh else 0
        (s.coreRecord (tid / 256) (sampleBytes ft t.pc addr tid (4 + 16 * b2n (c.hipri == some (tid % 8))) level s.freeVal
          (s.time.osc - osc))).useFree
      else s

/-- A thread leaves the readers of the channel it blocked on. -/
def State.leaveReaders (s : State) (tid : Nat) (t : Thread) : State :=
  s.onCores fun c => { c with chans := c.chans.mod t.waitCh fun x => { x with readers := x.readers.erase tid } }

/-- A channel. -/
def State.chan (s : State) (ch : Nat) : Option Chan := s.cores.chans.get ch

/-- A channel changed. -/
def State.onChan (s : State) (ch : Nat) (f : Chan → Chan) : State :=
  s.onCores fun c => { c with chans := c.chans.mod ch f }

/-- A thread. -/
def State.thread (s : State) (tid : Nat) : Option Thread := s.cores.threads.get tid

/-- A core, by its number in the device. -/
def State.core (s : State) (core : Nat) : Option CoreSt := s.cores.cores.get core

/-- A core changed. -/
def State.onCore (s : State) (core : Nat) (f : CoreSt → CoreSt) : State :=
  s.onCores fun c => { c with cores := c.cores.mod core f }

/-! ## Deadlock and watchdog (R352 R353) -/

/-- A thread of a core cannot be served from outside it: IDLE, or blocked on a channel that only this core writes. -/
def State.innerBlocked (s : State) (core : Nat) (t : Thread) : Bool :=
  match t.state with
  | .idle => true
  | .blockedCh => match s.chan t.waitCh with
    | some c => c.prod == 1 && c.pcore == core % 32 && t.waitCh / 2048 == core / 32
    | none => false
  | _ => false

/-- A core is all-blocked (R352). -/
def State.allBlocked (s : State) (core : Nat) : Bool :=
  ((coreThreads core).all fun k => match s.thread k with
    | some t => s.innerBlocked core t
    | none => true)
  && match s.thread (core * 8) with
     | some t => t.state == .blockedCh
     | none => false

/-- The watchdog's condition: FAULT or DEADLOCK pending in thread 0, or a thread FAULTED. -/
def State.wdCondition (s : State) (core : Nat) : Bool :=
  (match s.thread (core * 8) with
   | some t => bit t.pending 28 || bit t.pending 29
   | none => false)
  || (coreThreads core).any fun k => match s.thread k with
     | some t => t.state == .faulted
     | none => false

/-- A thread of the core is in DSTOP. -/
def State.wdPaused (s : State) (core : Nat) : Bool :=
  (coreThreads core).any fun k => match s.thread k with
    | some t => t.state == .dstop
    | none => false

/-- The all-blocked detection and the watchdog of a core follow its threads. -/
def State.coreSettle (s : State) (core : Nat) : State :=
  let all := s.allBlocked core
  let cond := s.wdCondition core
  let paused := s.wdPaused core
  let ft := s.ft
  let osc := s.time.osc
  s.onCore core fun c =>
    let c := { c with blockedSince := if all then some (c.blockedSince.getD osc) else none }
    if !cond then { c with wdStart := none, wdElapsed := 0 }
    else if paused then
      match c.wdStart with
      | some t => { c with wdStart := none, wdElapsed := c.wdElapsed + (ft - t) }
      | none => c
    else { c with wdStart := some (c.wdStart.getD ft) }

/-- A blocked instruction completes with a value in rd: the thread runs on, or returns to DSTOP after a step (12 R338
R356). -/
def Thread.unblock (t : Thread) (v : Nat) : Thread :=
  { (t.setReg t.waitRd v) with
    state := if t.stepping then .dstop else .run, remembered := .run, stepping := false
    pc := (t.pc + 4) % 2 ^ 64, instret := t.instret + 1 }

/-- A blocked thread's instruction completes. -/
def State.unblock (s : State) (tid v level : Nat) : State :=
  match s.cores.threads.get tid with
  | none => s
  | some t => (((s.leaveReaders tid t).settleFollow tid t level).onThread tid (·.unblock v)).coreSettle (tid / 8)

/-- A blocked EV.WAIT whose masked bits are pending returns them. -/
def State.wakeEv (s : State) (tid : Nat) : State :=
  match s.cores.threads.get tid with
  | none => s
  | some t =>
    if t.state = .blockedEv ∧ t.pending &&& t.waitMask ≠ 0 then s.unblock tid (t.pending &&& t.waitMask) 0 else s

/-- A wake event ends the blocking read of a thread whose wake mask has its bit (12 R350): CH.RECV returns
INTERRUPTED, EV.WAIT its masked bits with bit 63. -/
def State.wakeBy (s : State) (bitNo tid : Nat) : State :=
  match s.cores.threads.get tid with
  | none => s
  | some t =>
    if bit (t.wakeMask tid) bitNo then
      match t.state with
      | .blockedCh => s.unblock tid 3 0
      | .blockedEv => s.unblock tid ((t.pending &&& t.waitMask) ||| 2 ^ 63) 0
      | _ => s
    else s

/-- A pending bit set in a thread. FAULT (28) and DEADLOCK (29) becoming pending in thread 0 wake the core. -/
def State.postEvent (s : State) (tid bitNo : Nat) : State :=
  match s.cores.threads.get tid with
  | none => s
  | some t =>
    let s := s.onThread tid fun t => { t with pending := t.pending ||| 2 ^ bitNo }
    if (bitNo = 28 ∨ bitNo = 29) ∧ !bit t.pending bitNo then (coreThreads (tid / 8)).foldl (fun s k => s.wakeBy bitNo k) s
    else s.wakeEv tid

/-! ## Events (18) -/

/-- To whom a source is delivered (18 R486). -/
inductive Scope where
  | own (o : Owner)
  | dev
  | fw
  | sec
  | region (o : Option Owner)
deriving DecidableEq, Repr

/-- The source number of a local index of a die (18 R484). -/
def sourceNo (die idx : Nat) : Nat := if die < 4 then 1024 * die + idx else 4096 + 256 * (die - 4) + idx

/-- The die of a source. -/
def sourceDie (src : Nat) : Nat := if src < 4096 then src / 1024 else 4 + (src - 4096) / 256

/-- No object. -/
def noObject : Nat := 0xFFFFFFFF

/-- A delivery lost for want of a record: EV_LOST of a function, and the LOST mark (18 R491). -/
def State.loseRecord (s : State) (d : EvDest) : State :=
  let s := match d with
    | .fn f => s.count Ct.func (fnWord f) 4
    | .management => s
  s.onEv fun e => { e with lostDests := if e.lostDests.contains d then e.lostDests else d :: e.lostDests }

/-- A raise opens a record of a destination, or adds to the open one (18 R489 R491). -/
def State.openRecord (s : State) (d : EvDest) (src obj detail : Nat) (sid : Option Nat) : State :=
  if s.ev.opened.any fun r => r.dest == d && r.source == src && r.object == obj then
    s.onEv fun e => { e with opened := e.opened.map fun r =>
      if r.dest == d && r.source == src && r.object == obj then
        { r with count := min (r.count + 1) 0xFFFFFFFF, detail := detail }
      else r }
  else if 64 ≤ (s.ev.opened.filter (·.dest == d)).length then s.loseRecord d
  else s.onEv fun e => { e with opened := e.opened ++
    [{ dest := d, source := src, object := obj, count := 1, ft := s.ft, detail := detail, sid := sid }] }

/-- A raise toward a function: no record while CMD_ACTIVE reads 0 (18 R491). -/
def State.toFn (s : State) (f : FnRef) (src obj detail : Nat) (sid : Option Nat) : State :=
  match s.fn f with
  | none => s
  | some x => if x.cmdActive then s.openRecord (.fn f) src obj detail sid else s.loseRecord (.fn f)

/-- A 32-byte event record (18 R490). -/
def eventBytes (src count obj ft detail : Nat) (sid : Option Nat) (lost : Bool) : Bytes :=
  toLe 4 (src % 8192) ++ zeros 4 ++ toLe 4 count ++ toLe 4 obj ++ toLe 8 ft ++ toLe 4 detail
    ++ toLe 2 (match sid with
        | some i => i % 16384 + 32768
        | none => 0)
    ++ [byte (4 + 8 * b2n lost), 0]

/-- The route of a source at this instant: the last change that a frame boundary has followed, or the route before it
(18 R488). -/
def State.routeOf (s : State) (src : Nat) : Option (Bool × Nat × Nat) :=
  s.ev.routePend.foldl (fun r (k, th, inp, t, at') => if k = src ∧ nextFrame at' ≤ s.ft then some (th, inp, t) else r)
    (s.ev.routes.get src)

/-- An address in a DEVICE region. -/
def State.inDeviceRegion (s : State) (a : Nat) : Bool := (s.regionAt a).any fun x => x.2.owner == .device

/-- The thread route and the firmware event ring of a source's die (18 R489 R493); an EV_FW_BASE outside a DEVICE region disables the
ring (R487). -/
def State.toFirmware (s : State) (src obj detail : Nat) (sid : Option Nat) : State :=
  let s := match s.routeOf src with
    | some (true, inp, th) => s.postEvent th inp
    | _ => s
  let die := sourceDie src
  let base := (s.ev.fwBase.getD die 0).toNat
  let p := s.ev.fwP.getD die 0
  if base = 0 ∨ s.inDeviceRegion base = false then s
  else match s.devWrite .engine (base + p % 4096 * 32) (eventBytes src 1 obj s.ft detail sid false) with
    | some s' => s'.onEv fun e => { e with fwP := modAt e.fwP die fun p => (p + 1) % 65536 }
    | none => s

/-- A raise of a source for an object (18 R486 R489). After FATAL only security sources are reported (R494). -/
def State.raise (s : State) (src obj detail : Nat) (sc : Scope) : State :=
  match sc with
  | .sec => s.openRecord .management src obj detail none
  | _ =>
    if s.fatal then s else
    let sid := match sc with
      | .own o => o.sid
      | .region (some o) => o.sid
      | _ => none
    let s := match sc with
      | .own o => match o.fnRef with
        | some f => s.toFn f src obj detail sid
        | none => s
      | .region (some o) => match o.fnRef with
        | some f => s.toFn f src obj detail sid
        | none => s
      | .dev =>
        let s := s.openRecord .management src obj detail none
        let s := s.toFn (pfRef 0 0) src obj detail none
        s.toFn (pfRef 1 0) src obj detail none
      | _ => s
    s.toFirmware src obj detail sid

/-! ## The FATAL state (13 R391, 18 R494) -/

/-- The device enters FATAL: cause and address of 18 R495, DEV_FATAL to Buckram, and the AER of every function.
ERR_FATAL goes to each sub-link that is up and whose first PF has Fatal Error Reporting enabled. -/
def State.enterFatal (s : State) (cause die addr : Nat) : State :=
  if s.fatal then s else
  let s := s.onFatal fun _ => true
  let s := s.logRecord 33 [(8, [byte cause]), (9, [byte die]), (24, toLe 8 addr)]
  let s := s.raise (sourceNo 6 21) noObject die .sec
  let s := s.onHost fun h => { h with fns := h.fns.map (·.logAer .internal) }
  (List.range 2).foldl (fun s p => (List.range (s.hostPort p).subLinks.length).foldl (fun s k =>
    if ((s.hostPort p).subLinks[k]?).any (·.up) && (s.fn (pfRef p (8 * k / s.subLinks p))).any (·.fatalReporting) then s.emit (.errFatal p k) else s) s) s

/-- All ones, the address of R495 where none applies. -/
def noAddr : Nat := 2 ^ 64 - 1

/-! ## MSI-X (18 R496) -/

/-- A vector requested: its message goes at the first instant with FT mod 256 = 0; a request within one interval joins
the one before. Where the message of that instant has been sent, the request waits for the next: one message in 256 ns. -/
def State.requestVector (s : State) (f : FnRef) (v : Nat) : State :=
  let u := roundUp s.ft 256
  let t := if (s.fn f).any fun x => Tab.get x.vecSent v == some u then u + 256 else u
  if s.host.msixReq.any fun (g, w, u) => g == f && w == v && u == t then s
  else s.onHost fun h => { h with msixReq := h.msixReq ++ [(f, v, t)] }

/-! ## PIN_FAULT (19 R530) -/

/-- ROM has begun since the last device reset: the first step of boot has extended MR0 (15 R423 R424). -/
def State.romBegan (s : State) : Bool := s.trust.mrCount.getD 0 0 != 0

/-- A PIN_FAULT bit set; each change to 1 raises the event. -/
def State.pinFault (s : State) (b : Nat) : State :=
  if bit s.pins.fault b then s
  else
    let s := s.onPins fun p => { p with fault := p.fault + 2 ^ b }
    s.raise (sourceNo 6 3) noObject (s.pins.fault % 2 ^ 32) .dev

/-- A PIN_FAULT bit cleared. -/
def State.pinClear (s : State) (b : Nat) : State :=
  if bit s.pins.fault b then s.onPins fun p => { p with fault := p.fault - 2 ^ b } else s

/-- A PIN_FAULT bit follows its condition. -/
def State.pinFollow (s : State) (b : Nat) (v : Bool) : State := if v then s.pinFault b else s.pinClear b

/-- An MCTP message leaves the management endpoint, unless its interface has stopped (19 R526). -/
def State.emitMctp (s : State) (own : Bool) (tag : Nat) (b : Bytes) : State :=
  if bit s.pins.fault 51 then s else s.emit (.mctp own tag b)

/-! ## Isolation violations (17 R460 R461) -/

/-- A dropped access to what only Buckram may write, on a die's host side. -/
def State.isoViolation (s : State) (hostDie detail : Nat) : State :=
  (s.count Ct.iso 0 0).raise (sourceNo hostDie 2) noObject detail .sec

end Sys2Proof.Machine
end

