-- ==== Sys2Proof/Machine/Sense.lean ====
section
/-! DEFINITION. What a read of DRAM meets (14 R399 R404 R405 R411 to R413): corrected and uncorrectable lines, their counters, records and
events. -/

namespace Sys2Proof.Machine

/-- A channel. -/
def State.channel (s : State) (c : Nat) : ChannelSt := s.dram.channels.getD c ChannelSt.reset

/-- A channel changed. -/
def State.onChannel (s : State) (c : Nat) (f : ChannelSt → ChannelSt) : State :=
  s.onDram fun d => { d with channels := modAt d.channels c f }

/-- The slot of a logical rank. -/
def ChannelSt.slotOf (x : ChannelSt) (rank : Nat) : Nat :=
  match x.pop with
  | some p => if (p.slot0.map (·.ranks)).getD 0 ≤ rank then 1 else 0
  | none => 0

/-! ## Records (R413) -/

/-- The device address of a channel address, where it lies in a region (01 R26). -/
def State.deviceAddr (s : State) (c ca : Nat) : Option (Nat × Region × Nat) :=
  s.dram.regions.findSome? fun (i, r) =>
    let chans := regionChans r.local3
    if chans.contains c && r.chanBase ≤ ca && ca < r.chanBase + r.share then
      let off := ca - r.chanBase
      let g := off / 4096 * chans.length + c % chans.length
      some (i, r, r.base + g * 4096 + off % 4096)
    else none

/-- A record of R413 of a line. -/
def State.memLog (s : State) (kind c rank sub pos src : Nat) (ca : Nat) : State :=
  let addr := match s.deviceAddr c ca with
    | some (_, _, a) => a
    | none => 2 ^ 64 - 1
  s.logRecord kind [(8, toLe 8 addr), (17, [byte c, byte (rank + 16 * sub + 32 * (s.channel c).slotOf rank), byte pos, byte src]),
                    (24, toLe 8 ca)]

/-- The tile source of a channel: 768 + 4j and those after it (18 R485). -/
def memSource (c k : Nat) : Nat := sourceNo (c / 3) (768 + 4 * (c % 3) + k)

/-! ## Counting (R411 R412) -/

/-- The counter index of a logical rank and subchannel. -/
def rankIndex (c rank sub : Nat) : Nat := c + 16 * rank + 256 * sub

/-- Storm and device-failure counts begin anew with a frame of 2^30 ns. -/
def State.stormFrame (s : State) (c : Nat) : State :=
  let n := s.ft / 2 ^ 30
  s.onChannel c fun x => if x.stormFrame = n then x else
    { x with stormFrame := n, stormCount := [], stormRaised := [], failLines := [], failRaised := [] }

/-- The lines of a rank on which a position was corrected in more than one bit, in this frame. -/
def ChannelSt.failAt (x : ChannelSt) (rank pos : Nat) : List Nat :=
  (x.failLines.filter fun (k, _) => k == rank * 16 + pos).map (·.2)

/-- A corrected error of a rank: MEM_CE_STORM beyond 4,096 in a frame, once. -/
def State.countCe (s : State) (c rank sub pos src ca : Nat) : State :=
  let s := s.stormFrame c
  let n := (Tab.get (s.channel c).stormCount rank).getD 0 + 1
  let s := s.onChannel c fun x => { x with stormCount := Tab.set x.stormCount rank n }
  if 4096 < n ∧ !(s.channel c).stormRaised.contains rank then
    let s := s.onChannel c fun x => { x with stormRaised := x.stormRaised ++ [rank] }
    (s.memLog 2 c rank sub pos src ca).raise (memSource c 1) c rank .fw
  else s

/-- A multi-bit correction: MEM_DEVICE_FAIL on the sixteenth distinct line of a position in a frame. -/
def State.countFail (s : State) (c rank sub pos src ca : Nat) : State :=
  let s := s.stormFrame c
  let key := rank * 16 + pos
  let s := if ((s.channel c).failAt rank pos).contains (ca / 64) then s
    else s.onChannel c fun x => { x with failLines := x.failLines ++ [(key, ca / 64)] }
  if 16 ≤ ((s.channel c).failAt rank pos).length ∧ !(s.channel c).failRaised.contains key then
    let s := s.onChannel c fun x => { x with failRaised := x.failRaised ++ [key] }
    (s.memLog 3 c rank sub pos src ca).raise (memSource c 2) c (rank + 256 * pos) .fw
  else s

/-- The scope of MEM_UE for a line (R405); none where the error goes to Buckram alone. -/
def State.ueScope (s : State) (c ca : Nat) : Option Scope :=
  match s.deviceAddr c ca with
  | some (_, r, _) => match r.owner with
    | .secure => none
    | .function => some (.region r.holder)
    | _ => some (.region none)
  | none => some (.region none)

/-- An uncorrectable line is found: it is poisoned, logged and reported once. -/
def State.foundUe (s : State) (c rank sub src ca : Nat) : State :=
  let k := c * 2 ^ 34 + ca / 64
  let s := s.onDram fun d => { d with poison := if d.poison.contains k then d.poison else d.poison ++ [k] }
  let s := s.memLog 1 c rank sub 0xFF src ca
  match s.ueScope c ca with
  | some sc => s.raise (memSource c 0) c (rank + 16 * sub + 32 * (s.channel c).slotOf rank) sc
  | none => s

/-! ## Lines read (R399 R404 R405) -/

/-- The 64 bytes of a line, and the bytes put in their place. -/
def State.lineBytes (s : State) (k : Nat) : Bytes := (List.range 64).map fun i => memGet s.mem (64 * k + i)
def State.setLine (s : State) (k : Nat) (b : Bytes) : State :=
  (b.zipIdx).foldl (fun s (x, i) => s.onMem fun m => memPut m (64 * k + i) x) s

/-- A line is corrected by a read: it is counted, and will be written back (R401 R411 R412); `w` is its counter word. -/
def State.correctLine (s : State) (k rank sub src w : Nat) (l : List (Nat × Nat × Nat)) : State :=
  let c := k / 2 ^ 34
  let ca := k % 2 ^ 34 * 64
  match l with
  | [] => s
  | (_, p, _) :: _ =>
    let s := (s.count Ct.ddr (rankIndex c rank sub) w).countCe c rank sub p src ca
    let s := match l.find? fun (_, _, e) => !oneBit e with
      | some (_, q, _) => s.countFail c rank sub q src ca
      | none => s
    s.onChannel c fun x => { x with writebacks := if x.writebacks.contains k then x.writebacks else x.writebacks ++ [k] }

/-- The logical rank and the subchannel of a line, among those of its channel (log 36). -/
def State.lineRank (s : State) (k : Nat) : Nat × Nat :=
  let n := Config.lineRank (k / 2 ^ 34) (k % 2 ^ 34)
  (n / 2 % max 1 (((s.channel (k / 2 ^ 34)).pop.map (·.ranks)).getD 0), n % 2)

/-- A requester's read meets the error of a line, for the first time (R404 R405). `src` is 1 for a core, 2 for an engine (R413). -/
def State.meetLine (s : State) (src k : Nat) : State :=
  let (rank, sub) := s.lineRank k
  let clear := fun (s : State) => s.onDram fun d => { d with faults := d.faults.del k }
  match s.dram.faults.get k with
  | none => s
  | some (.fixes l) => (clear s).correctLine k rank sub src 0 l
  | some .bad => ((clear s).count Ct.ddr (rankIndex (k / 2 ^ 34) rank sub) 1).foundUe (k / 2 ^ 34) rank sub src (k % 2 ^ 34 * 64)

/-- The lines of device memory that a requester's read covers: those already poisoned are counted in POISON_READ, and those in error are
met (R404 R405 R411). -/
def State.meet (s : State) (src a n : Nat) : State :=
  if s.dram.poison.isEmpty && s.dram.faults.isEmpty then s else
  let l := ((addrs a n).filterMap fun x => (s.memKey x).map (· / 64)).dedup
  let s := (l.filter s.dram.poison.contains).foldl (fun s k =>
    s.count Ct.ddr (rankIndex (k / 2 ^ 34) (s.lineRank k).1 (s.lineRank k).2) 2) s
  (l.filter fun k => !s.dram.poison.contains k).foldl (fun s k => s.meetLine src k) s

/-- The status of an engine's operation whose read of device memory met a bad line: S_POISONED on a line already poisoned,
S_UNCORRECTABLE where this read is the first to find it (R404). -/
def State.badStatus (s : State) (a n : Nat) : Nat :=
  if (addrs a n).any fun x => (s.memKey x).any fun k => s.dram.poison.contains (k / 64) then St.poisoned else St.uncorrectable

end Sys2Proof.Machine
end

