-- ==== Sys2Proof/Machine/Operands.lean ====
section
/-! DEFINITION. Every operand form: work-entry fields, fragments and fragment tables (03 R69 to R76), doorbells
(03 R94), command headers (04 R110 R111) and the TARGET forms (04 R112). -/

namespace Sys2Proof.Machine

/-! ## Work entries (03 R69) -/

def entryOp (e : Bytes) : Nat := byteAt e 0
def entryFl (e : Bytes) : Nat := byteAt e 1
def entryIndirect (e : Bytes) : Bool := bit (entryFl e) 0
def entryFence (e : Bytes) : Bool := bit (entryFl e) 1
def entrySuppress (e : Bytes) : Bool := bit (entryFl e) 2
def entryOrdered (e : Bytes) : Bool := bit (entryFl e) 3
def entryFragCount (e : Bytes) : Nat := byteAt e 2
def entryCookie (e : Bytes) : Nat := le e 4 4

/-! ## Fragments (03 R74 R75) -/

/-- The fragment descriptor at an offset. -/
def fragAt (b : Bytes) (i : Nat) : Frag := { addr := le b i 8, len := le b (i + 8) 4, dev := bit (le b (i + 12) 4) 0 }

/-- The FFL field of a descriptor is free of reserved bits. -/
def fragFlOk (b : Bytes) (i : Nat) : Bool := le b (i + 12) 4 < 2

/-- The fragments of a table of `n` descriptors. -/
def fragTable (b : Bytes) (n : Nat) : List Frag := (List.range n).map fun k => fragAt b (16 * k)

/-- The total length of fragments. -/
def fragTotal (l : List Frag) : Nat := (l.map (·.len)).sum

/-- The part of a fragment list from an offset of its data, of a length: as pieces of (address, length, device). -/
def fragSlice : List Frag → Nat → Nat → List Frag
  | [], _, _ => []
  | f :: l, off, n =>
    if n = 0 then []
    else if f.len ≤ off then fragSlice l (off - f.len) n
    else
      let k := min n (f.len - off)
      { addr := f.addr + off, len := k, dev := f.dev } :: fragSlice l 0 (n - k)

/-- The largest data of an entry of a class (03 R78, 08 R258, 09 R274, 10 R289, 11 R321). -/
def QClass.maxData : QClass → Nat
  | .pktTx => 9596
  | .pktRx => 16777216
  | .blkSq => 2097152
  | .krmSq => 16777216
  | .krmRq => 16777216
  | .cryJq => 16777216
  | .dmaCh => 1073741824
  | .cmdSq => 4096
  | .cq => 0

/-- The class has a fragment slot (03 R78). -/
def QClass.hasSlot : QClass → Bool
  | .pktTx | .pktRx | .blkSq | .krmSq | .krmRq | .cryJq => true
  | _ => false

/-- The operation codes of a class; 0 is NOP in every class (03 R69). -/
def QClass.ops : QClass → List Nat
  | .pktTx => [0, 1]
  | .pktRx => [0, 2]
  | .blkSq => [0, 1, 2, 3, 4]
  | .krmSq => [0, 1, 2, 3]
  | .krmRq => [0, 1]
  | .cryJq => [0, 1, 2, 3]
  | .dmaCh => [0, 1, 2]
  | .cmdSq => []
  | .cq => []

/-- The entry names a fragment table. -/
def usesTable (c : QClass) (e : Bytes) : Bool := c.hasSlot && entryIndirect e

/-- The number of descriptors of the table that an entry names. -/
def tableCount (e : Bytes) : Nat := (fragAt e 48).len / 16

/-- A fragment's LEN or DEV is out of what check 3 of R102 allows (R75). `fw`: a FIRMWARE queue. -/
def fragBad (fw : Bool) (d : Frag) : Bool := d.len < 1 || 16777216 < d.len || (d.dev && !fw)

/-- Checks 1 to 4 of R102 that need no fragment table: none, or the status; DST of a cipher entry is a fragment too (10 R307). `fw`: a
FIRMWARE queue. -/
def headCheckSlot (c : QClass) (fw : Bool) (e : Bytes) : Option Nat :=
  if !c.ops.contains (entryOp e) then some St.badOp
  else if 16 ≤ entryFl e || (entryIndirect e && (!c.hasSlot || c == .pktRx)) then some St.badFlags
  else if !c.hasSlot then (if 1 < entryFragCount e then some St.badFrags else none)
  else if c == .cryJq && entryOp e != 0 && fragBad fw (fragAt e 32) then some St.badFrags
  else if entryIndirect e then
    let d := fragAt e 48
    if entryFragCount e != 0 || d.addr % 16 != 0 || d.len % 16 != 0 || d.len < 16 || 65536 < d.len
       || (d.dev && !fw) then some St.badFrags
    else none
  else if 1 < entryFragCount e then some St.badFrags
  else if entryFragCount e = 0 then none
  else
    if fragBad fw (fragAt e 48) then some St.badFrags else none

/-- The fragments of an entry, with the table as read where it names one. -/
def entryFrags (c : QClass) (e : Bytes) (table : Option (List Frag)) : List Frag :=
  if !c.hasSlot then []
  else if entryIndirect e then table.getD []
  else if entryFragCount e = 1 then [fragAt e 48] else []

/-- The checks of R102 that see the fragments: each LEN and DEV of the table, and the total length. NOP carries no
other action, so its length is not checked against a buffer's least size. -/
def headCheckFrags (c : QClass) (fw : Bool) (e : Bytes) (l : List Frag) : Option Nat :=
  if entryIndirect e && l.any (fragBad fw) then some St.badFrags
  else if c.maxData < fragTotal l then some St.badLength
  else if c == .pktRx && entryOp e == 2 && fragTotal l < 64 then some St.badLength
  else none

/-! ## Doorbells (03 R94) -/

/-- QID rung. -/
def dbQid (w : BarWrite) : Nat := field w.value.toNat 0 16
/-- INDEX. -/
def dbIndex (w : BarWrite) : Nat := field w.value.toNat 16 16
/-- INV. -/
def dbInv (w : BarWrite) : Bool := bit w.value.toNat 32
/-- ARM. -/
def dbArm (w : BarWrite) : Bool := bit w.value.toNat 33

/-! ## Command headers (04 R110 R111) -/

/-- PB_FORM. -/
def cmdPbForm (c : Cmd) : Nat := c.flags.toNat % 4
/-- RBUF. -/
def cmdRbuf (c : Cmd) : Bool := bit c.flags.toNat 2
/-- FENCE. -/
def cmdFence (c : Cmd) : Bool := bit c.flags.toNat 3
/-- A parameter byte by its offset in the header (16 to 63). -/
def cmdByte (c : Cmd) (i : Nat) : Nat := byteAt c.params (i - 16)
/-- A little-endian parameter by its offset in the header. -/
def cmdLe (c : Cmd) (i n : Nat) : Nat := le c.params (i - 16) n
/-- RBUF_DESC. -/
def cmdRbufDesc (c : Cmd) : Frag := fragAt c.params 16
/-- PB_DESC. -/
def cmdPbDesc (c : Cmd) : Frag := fragAt c.params 32
/-- The 64 header bytes of a command with its opcode. -/
def cmdHeader (opcode : Nat) (c : Cmd) : Bytes :=
  toLe 2 opcode ++ toLe 2 c.flags.toNat ++ toLe 4 c.tag.toNat ++ toLe 4 c.target.toNat ++ toLe 2 c.pbLen
    ++ toLe 2 c.rsv.toNat ++ sliceZ c.params 0 48

/-- The command comes from a ring. -/
def isRing : CmdSrc → Bool
  | .ring _ => true
  | _ => false

/-! ## TARGET forms (04 R112) -/

/-- The kinds of object a TARGET names. -/
inductive TKind where
  | none | qid | sid | vid | dgid | cid | window | func | tile | pport | lport | dram | die | table | policer | calico
  | slot | ctblock | dump
  /-- CID, VID or Calico channel by byte 16 (SEC_KEY_INSTALL) -/
  | key
deriving DecidableEq, Repr

/-- TARGET none. -/
def targetNone : Nat := 0xFFFFFFFF

/-- A TARGET word is well formed for a kind; `orNone`: TARGET none is allowed as well. -/
def targetOk (k : TKind) (orNone : Bool) (w : Nat) : Bool :=
  if orNone && w == targetNone then true else
  match k with
  | .none => w == targetNone
  | .qid | .policer => w < 65536
  | .sid | .vid | .dgid => w < 16384
  | .cid => w < 1048576
  | .window => w < 2 ^ 32
  | .func => w < 8192 && !bit w 11 && (bit w 10 || w % 1024 < 8)
  | .tile | .pport => w < 4
  | .lport => w < 32
  | .dram => w < 12
  | .die => w < 8
  | .table => w < 16
  | .calico => w % 65536 < 4096 && w / 65536 < 4
  | .slot => w < 4
  | .ctblock => w < 2 ^ 32
  | .dump => w < 4096
  | .key => true

end Sys2Proof.Machine
end

