-- ==== Sys2Proof/Machine/Queues.lean ====
section
/-! DEFINITION. The shared operations of the queue managers: contexts, starting and finishing entries, completions,
write-back blocks and full completion rings (03 R66 R82 R86 R92 R93 R105). -/

namespace Sys2Proof.Machine

/-- A queue context. -/
def State.queue (s : State) (qid : Nat) : Option Queue := s.qm.queues.get qid

/-- A queue changed. -/
def State.onQueue (s : State) (qid : Nat) (f : Queue → Queue) : State :=
  s.onQm fun m => { m with queues := m.queues.mod qid f }

/-- Ring size (03 R65). -/
def Queue.size (q : Queue) : Nat := 2 ^ q.logSize

/-- Entries held: (P − C) mod 65,536 (03 R66). -/
def Queue.used (q : Queue) : Nat := (q.p + 65536 - q.c) % 65536

/-- Entry size of a ring (03 R65). -/
def Queue.entrySize (q : Queue) : Nat := if q.cls = .cq then 32 else 64

/-- Address of the slot of an index (03 R65). -/
def Queue.slotAddr (q : Queue) (i : Nat) : Nat := q.ring + i % q.size * q.entrySize

/-- The queues whose completions go to a CQ. -/
def State.workQueuesOf (s : State) (cq : Nat) : List Nat :=
  (s.qm.queues.filter fun (_, q) => q.cls != .cq && q.cq == cq).map (·.1)

/-- A queue is held by a full CQ (03 R105). -/
def State.blocked (s : State) (q : Queue) : Bool :=
  match s.queue q.cq with
  | some c => q.cls != .cq && c.episode
  | none => false

/-! ## Write-back blocks (03 R92 R93) -/

/-- The write-back block as the queue stands. -/
def State.wbBytes (s : State) (q : Queue) : Bytes :=
  toLe 2 (if q.cls = .cq then q.p else q.c) ++ toLe 2 (q.qstat (s.blocked q)) ++ toLe 2 (q.replayHead.getD 0)
    ++ zeros 2 ++ toLe 8 s.ft

/-- An armed CQ whose written-back P differs from its C fires: it is disarmed and its vector requested (18 R496). -/
def State.cqFire (s : State) (cq : Nat) : State :=
  match s.queue cq with
  | some q =>
    if q.armed && q.wbP != q.c then
      let s := s.onQueue cq fun q => { q with armed := false }
      match q.owner.fnRef with
      | some f => s.requestVector f q.vector
      | none => s
    else s
  | none => s

/-- The write-back block is written, or waits while its function's Bus Master Enable is 0 (13 R386). A work queue whose C has changed
keeps its write of the next frame boundary (R93). -/
def State.writeBack (s : State) (qid : Nat) : State :=
  match s.queue qid with
  | none => s
  | some q =>
    if s.fatal then s
    else if s.ownerHeld q.owner then s.onQueue qid fun q => { q with wbDue := true }
    else
      let (s, _) := s.ownerWrite q.owner q.wb (s.wbBytes q)
      let s := s.onQueue qid fun q => { q with wbDue := q.wbDue && q.cls != .cq, wbP := q.p, wbShown := (s.wbBytes q).take 6 }
      if q.cls = .cq then s.cqFire qid else s

/-- The write-back blocks of several queues. -/
def State.writeBacks (s : State) (l : List Nat) : State := l.foldl State.writeBack s

/-! ## Completions (03 R82) -/

/-- A 32-byte completion. -/
def complBytes (cookie status qid bytes c12 ft : Nat) (tail : Bytes) : Bytes :=
  toLe 4 cookie ++ toLe 2 status ++ toLe 2 qid ++ toLe 4 bytes ++ toLe 4 c12 ++ toLe 8 ft ++ sliceZ tail 0 8

/-- The FT field and the last eight bytes of a packet completion (03 R83 to R85). -/
def pktStamp (ts4400 : Bool) (ft frac : Nat) (tail : Bytes) : Nat × Bytes :=
  if ts4400 then (ft / 1000000000 % 2 ^ 32 + ft % 1000000000 * 2 ^ 32, zeros 2 ++ tail) else (ft, toLe 2 frac ++ tail)

/-- The FT field and the last eight bytes of a completion that a queue's class gives nothing of its own: the instant, in the TS4400 form
where the queue has it (R83 R85). -/
def Queue.stamp (q : Queue) (ft : Nat) : Nat × Bytes :=
  if q.cls = .pktTx ∨ q.cls = .pktRx then pktStamp q.ts4400 ft 0 (zeros 6) else (ft, zeros 8)

/-- The classes whose completions are written in index order (03 R86, 08 R258 R259, 10 R310). -/
def QClass.indexed : QClass → Bool
  | .pktTx | .krmSq | .krmRq | .cryJq => true
  | _ => false

/-- A completion goes to its queue's CQ: it is due there. -/
def State.deliver (s : State) (c : Compl) : State :=
  match s.queue c.qid with
  | some q => s.onQueue q.cq fun x => { x with due := x.due ++ [c] }
  | none => s

/-- Completions parked for index order go out while the next index has one. -/
def State.release (s : State) (qid : Nat) : Nat → State
  | 0 => s
  | n + 1 =>
    match s.queue qid with
    | none => s
    | some q =>
      match q.waitDone.get q.nextDone with
      | none => s
      | some c =>
        let s := s.onQueue qid fun q =>
          { q with waitDone := q.waitDone.del q.nextDone, nextDone := (q.nextDone + 1) % 65536 }
        State.release (s.deliver c) qid n

/-- An operation of a queue has finished with a completion: in index order where the class asks it. The queue's and the
tile's counters follow (18 R499). -/
def State.finish (s : State) (qid idx : Nat) (c : Compl) (status bytes : Nat) : State :=
  match s.queue qid with
  | none => s
  | some q =>
    let s := s.count Ct.queue qid (if status = St.ok then 1 else 2)
    let s := s.countBy Ct.queue qid 3 bytes
    if q.cls.indexed then
      let s := s.onQueue qid fun q => { q with waitDone := q.waitDone.set idx c }
      s.release qid ((s.queue qid).map (·.waitDone.length) |>.getD 0)
    else s.deliver c

/-- An entry starts: its index is consumed (03 R67), its cached copy dropped, the counters follow. -/
def State.consume (s : State) (qid : Nat) : State :=
  match s.queue qid with
  | none => s
  | some q =>
    let s := s.onQueue qid fun q =>
      { q with c := (q.c + 1) % 65536, f := if q.f = q.c then (q.c + 1) % 65536 else q.f, cache := q.cache.del q.c,
               failed := q.failed.del q.c, headOk := false, headFrags := none, headReading := false, headEnd := none, wbDue := true }
    (s.count Ct.queue qid 0).count Ct.dma q.home 3

/-- A suppressed completion is one that ended S_OK under CQ_SUPPRESS, which PKT_RX and KRM_RQ ignore (03 R72). -/
def suppressed (cls : QClass) (entry : Bytes) (status : Nat) : Bool :=
  status == St.ok && entrySuppress entry && cls != .pktRx && cls != .krmRq && cls != .cmdSq

/-- The DMA channel of a queue at its home tile (11 R315): its key, tile × 256 + number. -/
def State.dmaKey (s : State) (qid : Nat) (q : Queue) : Option Nat :=
  if q.cls = .dmaCh then (s.dma.find? fun (k, x) => x.qid == qid && k / 256 == q.home).map (·.1) else none

/-- The entry at the head starts only to end with a status (03 R102 R103). On a DMA channel it is the last entry that finished, and
its EOC is raised as for any other (11 R323 R328). -/
def State.endHead (s : State) (qid status c12 : Nat) (entry : Bytes) : State :=
  match s.queue qid with
  | none => s
  | some q =>
    let key := s.dmaKey qid q
    let s := match key with
      | some k => s.onDma fun d => d.mod k fun x => { x with lastStatus := status, retries := 0 }
      | none => s
    let s := s.consume qid
    let c : Compl := { qid := qid, ok := status == St.ok, suppressed := suppressed q.cls entry status,
                       bytes := complBytes (entryCookie entry) status qid 0 c12 (q.stamp s.ft).1 (q.stamp s.ft).2, data := none, event := false,
                       tag := none, tile := some q.home, ordered := q.cls == .blkSq && entryOrdered entry
                       eoc := if entryOp entry != 0 && bit (byteAt entry 8) 2 then key.map fun k => (sourceNo (k / 256) (k % 256), status)
                         else none }
    s.finish qid q.c c status 0

/-! ## Operations -/

/-- Operations in flight on a tile: started ones, started commands, and those whose completion stays in the operation's context
until it is written (03 R105 R109). -/
def State.opsOnTile (s : State) (t : Nat) : Nat :=
  let mine := fun (c : Compl) => c.tile == some t
  (s.qm.ops.filter fun (_, o) => o.tile == t).length + (s.cmd.inProgress.filter fun x => x.tile == some t).length
    + (s.qm.queues.map fun (_, q) =>
        (q.due.filter mine).length + (q.held.filter mine).length + (q.waitDone.filter fun (_, c) => mine c).length).sum

/-- A started operation of a queue's head entry: its context and number. -/
def State.newOp (s : State) (qid : Nat) (entry : Bytes) (frags : List Frag) : State × Nat :=
  match s.queue qid with
  | none => (s, 0)
  | some q =>
    let n := s.qm.nextOp
    let s := s.onQm fun m => { m with
      nextOp := n + 1
      ops := m.ops.set n { qid := qid, idx := q.c, tile := q.home, entry := entry, frags := frags, got := [], reading := 0,
                           failAt := none, startFt := s.ft, dest := q.shaper.dest, admitted := false, status := none,
                           bytes := 0, ending := false } }
    (s.consume qid, n)

/-- An operation. -/
def State.op (s : State) (n : Nat) : Option Op := s.qm.ops.get n

/-- An operation changed. -/
def State.onOp (s : State) (n : Nat) (f : Op → Op) : State := s.onQm fun m => { m with ops := m.ops.mod n f }

/-- An operation finishes: its context is given up for its completion, at an FT instant, with class-specific bytes. -/
def State.finishOp (s : State) (n status bytes c12 ft : Nat) (tail : Bytes) : State :=
  match s.op n with
  | none => s
  | some o =>
    match s.queue o.qid with
    | none => s.onQm fun m => { m with ops := m.ops.del n }
    | some q =>
      let s := s.onQm fun m => { m with ops := m.ops.del n }
      let c : Compl := { qid := o.qid, ok := status == St.ok, suppressed := suppressed q.cls o.entry status,
                         bytes := complBytes (entryCookie o.entry) status o.qid bytes c12 ft tail, data := none,
                         event := false, tag := none, tile := some o.tile }
      s.finish o.qid o.idx c status bytes

/-- An operation ends with a status and no more: bytes 8 to 15 are 0. -/
def State.stopOp (s : State) (n status : Nat) : State :=
  match (s.op n).bind fun o => s.queue o.qid with
  | some q => s.finishOp n status 0 0 (q.stamp s.ft).1 (q.stamp s.ft).2
  | none => s.finishOp n status 0 0 s.ft []

/-- Every earlier entry of a queue has finished: none is started and unfinished (03 R71). -/
def State.allFinished (s : State) (qid : Nat) : Bool :=
  s.qm.ops.all (fun (_, o) => o.qid != qid)
    && match s.queue qid with
       | none => true
       | some q => q.waitDone.isEmpty && match s.queue q.cq with
         | none => true
         | some c => (c.due ++ c.held).all fun x => x.qid != qid

/-- A DMA channel takes an entry only when the one before it has finished, and none while it is halted (11 R316 R326). -/
def State.dmaTakes (s : State) (qid : Nat) (q : Queue) : Bool :=
  q.cls != .dmaCh || (s.allFinished qid && !s.dma.any fun (_, x) => x.qid == qid && (x.op.isSome || x.halt))

/-- The head entry of a queue, where it may start as far as the rules common to every class go: the queue runs, its head
has passed R102, FENCE allows it, its CQ is not full, a context is free, its DMA channel takes it, and its function masters. -/
def State.readyHead (s : State) (qid : Nat) : Option (Queue × Bytes) :=
  match s.queue qid with
  | none => none
  | some q =>
    match q.cache.get q.c with
    | none => none
    | some e =>
      if !s.fatal && s.power.standby.isNone && (q.state == .enabled || q.state == .draining) && q.headOk && !s.blocked q
         && s.opsOnTile q.home < 65536 && !s.ownerHeld q.owner && !s.ownerResetting q.owner && q.resetAt.isNone
         && (!entryFence e || s.allFinished qid) && s.dmaTakes qid q
      then some (q, e) else none

/-! ## Writing completions (03 R86 R93 R105 R116) -/

/-- Data into a fragment or a reply buffer: whether it was written. Service firmware has no host (17 R461). -/
def State.writeData (s : State) (o : Owner) (d : Frag) (b : Bytes) (ro : Bool := false) : State × Bool :=
  if d.dev then
    match s.devWrite .engine d.addr b with
    | some s' => (s', true)
    | none => (s, false)
  else match s.refOf o with
    | none => (s, false)
    | some _ => s.ownerWrite o d.addr b ro

/-- The reply as it is when its data could not be written: S_HOST_WRITE_ERR, the status kept in DETAIL0 (04 R116). -/
def hostWriteErrReply (b : Bytes) : Bytes :=
  splice (splice (splice b 4 (toLe 2 St.hostWriteErr)) 8 (zeros 4)) 12 (toLe 4 (le b 4 2))

/-- The command of a written reply is no longer in progress. One ring has at most one command of an opcode and TARGET in progress, so
these name it, whatever tags software gives (04 R124). -/
def State.endProgress (s : State) (src : CmdSrc) (opcode target : Nat) : State :=
  s.onCmd fun c => { c with
    inProgress := c.inProgress.eraseP fun x => x.src == src && x.opcode == opcode && x.target == target }

/-- The end-of-count event that follows a completion, written or suppressed (11 R328). -/
def State.afterCompl (s : State) (c : Compl) : State :=
  match c.eoc, s.queue c.qid with
  | some (src, st), some q => s.raise src c.qid st (.own q.owner)
  | _, _ => s

/-- Write-back blocks of queues: written, or due once the held completions of their function are written (13 R386). -/
def State.blocksOf (s : State) (now : Bool) (l : List Nat) : State :=
  if now then s.writeBacks l else l.foldl (fun s k => s.onQueue k fun q => { q with wbDue := true }) s

/-- One completion written to its CQ, which has room: reply data first, the completion, then the write-back of P. -/
def State.writeCompl (s : State) (cq : Nat) (c : Compl) (wb : Bool := true) : State :=
  match s.queue cq with
  | none => s
  | some q =>
    let (s, b) := match c.data with
      | some (d, x) =>
        let (s, ok) := s.writeData q.owner d x
        (s, if ok then c.bytes else hostWriteErrReply c.bytes)
      | none => (s, c.bytes)
    let (s, _) := s.ownerWrite q.owner (q.slotAddr q.p) b
    let s := s.onQueue cq fun q => { q with p := (q.p + 1) % 65536 }
    let s := if c.event then s else s.count Ct.dma q.home 4
    let s := match c.reply with
      | some (code, t) => s.endProgress (.ring c.qid) code t
      | none => s
    (s.blocksOf wb [cq]).afterCompl c

/-- The CQ is full (03 R66). -/
def Queue.full (q : Queue) : Bool := q.used == q.size

/-- A full episode begins: CQ_FULL once, the work queues BLOCKED (03 R105). -/
def State.openEpisode (s : State) (cq : Nat) (wb : Bool := true) : State :=
  match s.queue cq with
  | none => s
  | some q =>
    if q.episode then s else
    let s := s.onQueue cq fun q => { q with episode := true }
    let s := s.count Ct.dma q.home 5
    let s := s.raise (sourceNo q.home 256) cq 0 (.own q.owner)
    s.blocksOf wb (cq :: s.workQueuesOf cq)

/-- An episode ends when every held completion has been written (03 R105). -/
def State.closeEpisode (s : State) (cq : Nat) (wb : Bool := true) : State :=
  match s.queue cq with
  | none => s
  | some q =>
    if q.episode && q.held.isEmpty then
      (s.onQueue cq fun q => { q with episode := false }).blocksOf wb (cq :: s.workQueuesOf cq)
    else s

/-- The oldest completion due at a CQ is written, or held while the CQ is full or its function does not master.
Held completions go first. A suppressed completion takes no slot. -/
def State.writeNext (s : State) (cq : Nat) (wb : Bool := true) : State :=
  match s.queue cq with
  | none => s
  | some q =>
    if s.fatal || q.cls != .cq || q.state != .enabled then s
    else if s.ownerHeld q.owner then
      match q.due with
      | [] => s
      | c :: l =>
        if c.suppressed && q.held.isEmpty then (s.onQueue cq fun q => { q with due := l }).afterCompl c
        else
          let s := s.onQueue cq fun q => { q with due := l, held := q.held ++ [c] }
          match q.owner.fnRef with
          | some f => s.count Ct.hostPort f.port 4
          | none => s
    else
      match q.held, q.due with
      | c :: l, due =>
        if c.suppressed then ((s.onQueue cq fun q => { q with held := l }).closeEpisode cq wb).afterCompl c
        else if q.full then
          match due with
          | [] => s
          | d :: r => s.onQueue cq fun q => { q with due := r, held := q.held ++ [d] }
        else ((s.onQueue cq fun q => { q with held := l }).writeCompl cq c wb).closeEpisode cq wb
      | [], c :: l =>
        if c.suppressed then (s.onQueue cq fun q => { q with due := l }).afterCompl c
        else if q.full then (s.onQueue cq fun q => { q with due := l, held := [c] }).openEpisode cq wb
        else (s.onQueue cq fun q => { q with due := l }).writeCompl cq c wb
      | [], [] => s

/-- Held completions written while the CQ has room, at most `n`, with their write-back blocks or with these left due. -/
def State.drainHeldBy (wb : Bool) (s : State) (cq : Nat) : Nat → State
  | 0 => s
  | n + 1 =>
    match s.queue cq with
    | none => s
    | some q =>
      if q.held.isEmpty || (q.full && !(q.held.head?.map (·.suppressed)).getD false) then s
      else State.drainHeldBy wb (s.writeNext cq wb) cq n

/-- Held completions written while the CQ has room, at most `n`. -/
def State.drainHeld (s : State) (cq n : Nat) : State := State.drainHeldBy true s cq n

/-- What is due or held at a CQ written, at most `n` completions. -/
def State.drainAll (s : State) (cq : Nat) : Nat → State
  | 0 => s
  | n + 1 => State.drainAll (s.writeNext cq) cq n

/-! ## Fetching (03 R99) -/

/-- The entries in flight or cached of a tile's queues. -/
def State.cacheUse (s : State) (t : Nat) : Nat :=
  ((s.qm.queues.filter fun (_, q) => q.home == t).map fun (_, q) => q.cache.length + q.fetching).sum

/-- The queue is the last of its tile to have fetched: the rotation goes on from it (R99). -/
def State.fetchedBy (s : State) (qid : Nat) : State :=
  match s.queue qid with
  | some q => s.onQm fun m => { m with rot := m.rot.set q.home qid }
  | none => s

/-- The next fetch of a queue: entries F up to P, at most 64 beyond C, up to the ring end, while the cache of the tile
has room. In STANDBY entries stay in their rings (16 R449). A FIRMWARE ring is read at once from DRAM. A queue under BLK_QUEUE_RESET fetches the entries that the reset ends. -/
def State.fetch (s : State) (qid : Nat) : State :=
  match s.queue qid with
  | none => s
  | some q =>
    let inFlight := (q.f + 65536 - q.c) % 65536
    let want := (q.p + 65536 - q.f) % 65536
    let room := 32768 - s.cacheUse q.home
    let n := min (min want (64 - inFlight)) (min room (q.size - q.f % q.size))
    if s.fatal || s.power.dev != .run || s.power.standby.isSome || q.cls == .cq || (q.state != .enabled && q.resetAt.isNone) || n == 0 || s.ownerHeld q.owner || s.ownerResetting q.owner then s
    else
      let s := s.fetchedBy qid
      match s.refOf q.owner with
      | none =>
        let get := fun i => match s.devRead .engine (q.slotAddr i) 64 with
          | .data b => some b
          | _ => none
        let bad := fun i => s.badStatus (q.slotAddr i) 64
        let got := (List.range n).map fun k => s.devRead .engine (q.slotAddr ((q.f + k) % 65536)) 64
        let s := (List.range n).foldl (fun s k => s.meet 2 (q.slotAddr ((q.f + k) % 65536)) 64) s
        s.onQueue qid fun q => { q with
          f := (q.f + n) % 65536
          cache := (List.range n).foldl (fun c k => match get ((q.f + k) % 65536) with
            | some b => c.set ((q.f + k) % 65536) b
            | none => c) q.cache
          failed := (List.range n).foldl (fun c k => match got.getD k .fault with
            | .data _ => c
            | .poisoned => c.set ((q.f + k) % 65536) (bad ((q.f + k) % 65536))
            | .fault => c.set ((q.f + k) % 65536) St.hostReadErr) q.failed }
      | some _ =>
        let (s', tag) := s.hostRead q.owner (q.slotAddr q.f) (64 * n) (.entries qid q.f n)
        match tag with
        | some _ => s'.onQueue qid fun q => { q with f := (q.f + n) % 65536, fetching := q.fetching + n }
        | none => s.onQueue qid fun q => { q with
            f := (q.f + n) % 65536
            failed := (List.range n).foldl (fun c k => c.set ((q.f + k) % 65536) St.hostReadErr) q.failed }

/-- A queue of a tile wants entries: it has posted ones beyond F, and fewer than 64 beyond C. -/
def Queue.wantsFetch (q : Queue) (t : Nat) : Bool :=
  q.home == t && q.cls != .cq && q.p != q.f && (q.f + 65536 - q.c) % 65536 < 64

/-- The queues of a tile that want entries fetch in rotation, after the one that fetched last, while the cache has room (R99). -/
def State.fetchRound (s : State) (t : Nat) : State :=
  let l := (s.qm.queues.filter fun (_, q) => q.wantsFetch t).map (·.1)
  let last := s.qm.rot.getD t 0
  (l.filter (last < ·) ++ l.filter (· ≤ last)).foldl State.fetch s

/-! ## Stopping (03 R106) -/

/-- The unstarted cached entries are dropped and F set to C. -/
def Queue.dropCached (q : Queue) : Queue :=
  { q with cache := [], failed := [], f := q.c, fetching := 0, headOk := false, headFrags := none, headReading := false, headEnd := none }

/-- A queue is removed with all it holds, its commands in progress included; its counters cease to exist (18 R501). -/
def State.removeQueue (s : State) (qid : Nat) : State :=
  let s := s.onCmd fun c => { c with inProgress := c.inProgress.filter (·.src != .ring qid) }
  (s.onQm fun m => { m with queues := m.queues.del qid, ops := m.ops.filter fun (_, o) => o.qid != qid }).dropCounters
    Ct.queue qid

end Sys2Proof.Machine
end

