-- ==== Sys2Proof/Machine/Protocol.lean ====
section
/-! DEFINITION. Command packets: the opcode table of 04 R131, callers and scopes (R119 R120), the checks of R127, the
start of a command (R124), the mailbox of Buckram (R123) and replies (R113 to R116). -/

namespace Sys2Proof.Machine

/-! ## Callers (04 R119) -/

/-- The caller classes of the opcode table. -/
inductive CClass where
  | m | p0 | p | v | s | f
deriving DecidableEq, Repr

/-- A caller belongs to a class; physical function 0 belongs to P as well. -/
def Caller.inClass : Caller → CClass → Bool
  | .management, .m => true
  | .fn f, .p0 => !f.vf && f.num == 0
  | .fn f, .p => !f.vf
  | .fn f, .v => f.vf
  | .slice _ _, .s => true
  | .firmware, .f => true
  | _, _ => false

/-- The caller of a command source, by the binding of its CMD_SQ. -/
def State.callerOf (s : State) : CmdSrc → Option Caller
  | .ring qid =>
    match s.queue qid with
    | some q =>
      if q.cls = .cmdSq then
        match q.owner with
        | .firmware => some .firmware
        | .management => none
        | .function f => some (.fn f)
        | .slice i m => some (.slice i m)
      else none
    | none => none
  | .mctp _ => some .management
  | .jtag => some .management

/-- The owner that objects created by a caller get. -/
def Caller.owner : Caller → Owner
  | .management => .management
  | .fn f => .function f
  | .slice i m => .slice i m
  | .firmware => .firmware

/-- An object of an owner lies in a caller's scope (04 R120). Service firmware's scope is what it owns (log 20). -/
def State.inScope (s : State) (c : Caller) (o : Owner) : Bool :=
  match c with
  | .management => true
  | .firmware => o == .firmware
  | .slice i _ => o.sid == some i
  | .fn f =>
    if f.vf then o.fnRef == some f
    else if f.num == 0 then true
    else match o.fnRef with
      | some g => g.port == f.port && s.pfOf g == f.num
      | none => false

/-! ## The opcode table (04 R131) -/

/-- By whom an opcode is applied (04 R121). -/
inductive Applied where
  | sf | bk | both
deriving DecidableEq, Repr

/-- A row of the opcode table: code, callers, applier, kind of TARGET, whether TARGET none is allowed, whether a parameter
block belongs to it, and the parameter bytes it uses (offset and length). -/
structure OpInfo where
  code : Nat
  callers : List CClass
  by_ : Applied
  kind : TKind
  orNone : Bool
  pb : Bool
  used : List (Nat × Nat)
deriving DecidableEq, Repr

def anyCaller : List CClass := [.m, .p, .v, .s]
def anyCallerF : List CClass := [.m, .p, .v, .s, .f]
def mP0 : List CClass := [.m, .p0]

/-- A row of the table. -/
def opRow (code : Nat) (callers : List CClass) (b : Applied) (k : TKind) (used : List (Nat × Nat)) (orNone : Bool := false)
    (pb : Bool := false) : OpInfo :=
  { code := code, callers := callers, by_ := b, kind := k, orNone := orNone, pb := pb, used := used }

def opsDevQueue : List OpInfo := [
  opRow 0x0101 anyCaller .sf .none [],
  opRow 0x0102 anyCaller .sf .none [],
  opRow 0x0103 mP0 .sf .pport [(16, 1)],
  opRow 0x0104 anyCaller .sf .lport [],
  opRow 0x0105 [.m] .bk .none [],
  opRow 0x0201 [.p, .v, .s, .f] .both .qid [(16, 10), (32, 16)] true,
  opRow 0x0202 anyCallerF .sf .qid [(16, 2)],
  opRow 0x0203 anyCallerF .sf .qid [],
  opRow 0x0204 anyCallerF .both .qid [],
  opRow 0x0205 anyCallerF .sf .qid [],
  opRow 0x0206 [.m, .p] .sf .qid [(16, 1)]]

def opsFnTable : List OpInfo := [
  opRow 0x0301 anyCaller .sf .func [],
  opRow 0x0302 [.p, .v] .bk .sid [(16, 4)] true,
  opRow 0x0303 [.p, .v] .sf .sid [],
  opRow 0x0304 [.p, .v] .both .sid [],
  opRow 0x0305 [.p, .v] .bk .sid [],
  opRow 0x0306 [.p] .sf .func [],
  opRow 0x0307 [.m, .p, .v] .bk .sid [] false true,
  opRow 0x0308 [.m, .p, .v] .sf .sid [],
  opRow 0x0401 mP0 .sf .table [(16, 2)],
  opRow 0x0402 [.m, .p] .sf .table [] false true,
  opRow 0x0403 [.m, .p] .sf .table [(16, 8)],
  opRow 0x0404 [.m, .p] .sf .table [] false true,
  opRow 0x0405 [.m, .p] .sf .table [] false true,
  opRow 0x0406 [.m, .p] .sf .table [(16, 1)],
  opRow 0x0407 mP0 .sf .table [(16, 16)]]

def opsTwKrm : List OpInfo := [
  opRow 0x0501 anyCaller .sf .qid [(16, 16)],
  opRow 0x0502 [.m, .p] .sf .policer [(16, 16)],
  opRow 0x0503 mP0 .sf .dgid [(16, 16)],
  opRow 0x0504 mP0 .sf .pport [] false true,
  opRow 0x0505 mP0 .sf .pport [(16, 8)],
  opRow 0x0506 mP0 .sf .pport [(16, 1)],
  opRow 0x0507 [.m, .p] .sf .pport [],
  opRow 0x0601 [.p, .v, .s] .both .cid [(16, 16)] true true,
  opRow 0x0602 [.p, .v, .s] .both .cid [],
  opRow 0x0603 anyCaller .sf .cid [],
  opRow 0x0604 [.p, .v, .s] .both .none [(16, 16)],
  opRow 0x0605 [.p, .v, .s] .both .window [(16, 16)],
  opRow 0x0606 [.p, .v, .s] .both .window [],
  opRow 0x0607 mP0 .sf .none [(16, 2)]]

def opsBlkCyFw : List OpInfo := [
  opRow 0x0701 [.m, .p, .v] .both .vid [(16, 16)] true true,
  opRow 0x0702 [.m, .p, .v] .both .vid [],
  opRow 0x0703 anyCaller .sf .vid [],
  opRow 0x0704 anyCaller .sf .qid [],
  opRow 0x0705 [.m, .p, .v] .sf .vid [(16, 1)],
  opRow 0x0706 anyCaller .sf .vid [],
  opRow 0x0801 [.p, .v] .both .calico [(16, 7)] true,
  opRow 0x0802 [.p, .v] .bk .calico [],
  opRow 0x0803 mP0 .sf .tile [] false true,
  opRow 0x0804 [.p, .v, .s] .sf .calico [],
  opRow 0x0901 anyCaller .sf .none [],
  opRow 0x0902 mP0 .sf .slot [(16, 8), (32, 16)],
  opRow 0x0903 mP0 .bk .slot [],
  opRow 0x0904 mP0 .bk .slot [(16, 4)],
  opRow 0x0905 [.f] .bk .none [],
  opRow 0x0906 mP0 .sf .slot []]

def opsSecPw : List OpInfo := [
  opRow 0x0A01 [.m] .bk .none [] false true,
  opRow 0x0A02 [.m] .bk .none [(16, 1)],
  opRow 0x0A03 [.m] .bk .none [] false true,
  opRow 0x0A04 [.m] .bk .none [],
  opRow 0x0A05 anyCaller .bk .none [(16, 5)] false true,
  opRow 0x0A06 anyCaller .bk .none [],
  opRow 0x0A07 [.p, .v, .s] .bk .key [(16, 2)] false true,
  opRow 0x0B01 mP0 .both .tile [],
  opRow 0x0B02 mP0 .both .tile [],
  opRow 0x0B03 mP0 .bk .none [(16, 2)],
  opRow 0x0B04 [.m] .both .none [(16, 1)],
  opRow 0x0B05 anyCaller .sf .none []]

def opsTimeDiag : List OpInfo := [
  opRow 0x0C01 anyCaller .sf .none [],
  opRow 0x0C02 mP0 .sf .none [(16, 1), (20, 20)],
  opRow 0x0C03 mP0 .sf .lport [(16, 4)],
  opRow 0x0C04 mP0 .sf .none [(16, 8)],
  opRow 0x0D01 anyCaller .sf .ctblock [],
  opRow 0x0D02 [.m, .p] .sf .ctblock [(16, 16)],
  opRow 0x0D03 [.m, .p] .sf .dump [],
  opRow 0x0D04 [.p, .v] .sf .sid [(16, 1)],
  opRow 0x0D05 mP0 .sf .tile [(16, 2)],
  opRow 0x0E01 anyCallerF .sf .none [(16, 16)],
  opRow 0x0E02 mP0 .sf .none [],
  opRow 0x0E03 mP0 .sf .none [(16, 4)],
  opRow 0x0E04 mP0 .sf .dram [],
  opRow 0x0E05 mP0 .sf .none [(16, 8)],
  opRow 0x0E06 [.m] .bk .die [(16, 16)]]

/-- The opcode table. -/
def opTable : List OpInfo := opsDevQueue ++ opsFnTable ++ opsTwKrm ++ opsBlkCyFw ++ opsSecPw ++ opsTimeDiag

/-- The row of an opcode. -/
def opInfo (code : Nat) : Option OpInfo := opTable.find? (·.code == code)

/-! ## Lifecycle (17 R480) -/

/-- The lifecycle state refuses an opcode with S_LIFECYCLE. -/
def lifecycleRefuses (lc code : Nat) : Bool :=
  match lc with
  | 0 => code == 0x0A05 || code == 0x0A07 || code == 0x0E06 || (0x0200 ≤ code && code < 0x0800)
  | 1 => code == 0x0A05
  | 2 => code == 0x0A05
  | 3 => code == 0x0E06
  | 4 => code == 0x0A05 || code == 0x0A07 || code == 0x0E06
  | _ => code != 0x0101 && code != 0x0A02 && code != 0x0A03 && code != 0x0A04

/-! ## Objects -/

/-- State and generation of a descriptor with its pending changes made. -/
def Window.latest (x : Window) : WinState × Nat :=
  match x.pend.getLast? with
  | some c => (c.state, c.gen)
  | none => (x.state, x.gen)

/-- The owner of the object that a TARGET names: none where it does not exist, `some none` for an object of device scope,
which is in every caller's scope that the opcode admits (log 20). -/
def State.objectOwner (s : State) (k : TKind) (w : Nat) : Option (Option Owner) :=
  match k with
  | .qid => match s.queue w with
    | some q => if q.maker.isNone then some (some q.owner) else none
    | none => none
  | .sid => match s.slice w with
    | some x => if x.live then some (some (.function x.mgr)) else none
    | none => none
  | .vid => (s.blk.volumes.get w).map fun v => some v.owner
  | .cid => (s.krm.conns.get w).map fun c => some c.owner
  | .window => match s.krm.windows.get (w / 1024) with
    | some x => if x.latest = (.open, w % 1024) then some (some x.owner) else none
    | none => none
  | .func => if s.fnPresent (fnOfWord w) then some (some (.function (fnOfWord w))) else none
  | .calico => (s.cy.chans.get w).map fun c => some c.owner
  | .table =>
    if s.tables.has w || s.damask.banks.any (fun (_, b) => b.table == w) || s.damask.profileTable == some w then some none
    else none
  | _ => some none

/-! ## The checks of R127 -/

/-- The parameter bytes that neither the opcode uses nor a descriptor takes are 0. -/
def reservedZero (i : OpInfo) (c : Cmd) : Bool :=
  c.rsv == 0 && (List.range 48).all fun k =>
    let off := k + 16
    i.used.any (fun (a, n) => a ≤ off && off < a + n)
      || (cmdRbuf c && 32 ≤ off && off < 48) || (cmdPbForm c == 1 && 48 ≤ off) || c.params.getD k 0 == 0

/-- Check 2: flags, and the descriptors that are present; that of FW_WRITE's data on a ring is one of them (R111). -/
def flagsOk (code : Nat) (c : Cmd) (fw : Bool) : Bool :=
  c.flags.toNat < 16 && cmdPbForm c != 3
    && (if isRing c.src then cmdPbForm c != 2 else cmdPbForm c != 1 && !cmdRbuf c)
    && (!(cmdRbuf c || (isRing c.src && code == 0x0902)) || (fragFlOk c.params 16 && (fw || !(cmdRbufDesc c).dev)))
    && (cmdPbForm c != 1 || (fragFlOk c.params 32 && (fw || !(cmdPbDesc c).dev)))

/-- Check 5: PB_LEN agrees with PB_FORM and with the opcode, and the block can be read. -/
def pbCheck (i : OpInfo) (c : Cmd) (lenOk : Bool) : Option Nat :=
  if 4096 < c.pbLen || (cmdPbForm c == 0) != (c.pbLen == 0) || (cmdPbForm c == 1 && (cmdPbDesc c).len != c.pbLen)
     || (!i.pb && c.pbLen != 0) || !lenOk then some St.badPblock
  else if c.pbLen = 0 then none
  else match c.pbErr with
    | some e => some e
    | none => if c.pb.length = c.pbLen then none else some St.badPblock

/-- Checks 1 to 8 of R127, those that need no more than the table, in order; `deny` and `lenOk` are the opcode's own part of
checks 3 and 5, `form` and `found` what an opcode whose TARGET the kind alone does not settle adds to checks 6 and 7. Buckram makes
them from check 3 on. -/
def State.precheck (s : State) (code : Nat) (c : Cmd) (who : Caller) (fromThree deny lenOk exists_ : Bool) (form : Bool := true)
    (found : Bool := true) : Option Nat :=
  match opInfo code with
  | none => some St.badOp
  | some i =>
    if !fromThree && !flagsOk code c (who == .firmware) then some St.badFlags
    else if !(i.callers.any who.inClass) || deny then some St.denied
    else if lifecycleRefuses s.trust.lc code then some St.lifecycle
    else match pbCheck i c lenOk with
      | some e => some e
      | none =>
        let w := c.target.toNat
        if !targetOk i.kind i.orNone w || !form then some St.badTarget
        else if (exists_ && !(i.orNone && w == targetNone) && match s.objectOwner i.kind w with
            | none => true
            | some none => false
            | some (some o) => !s.inScope who o) || !found then some St.notFound
        else if !reservedZero i c then some St.badParam
        else none

/-! ## Replies (04 R113) -/

/-- An answer that is a status alone. -/
def Answer.just (st : Nat) : Answer := { status := st, d0 := 0, d1 := 0, data := [], ft := none }

/-- S_OK with DETAIL0 and DETAIL1. -/
def Answer.ok (d0 : Nat := 0) (d1 : Nat := 0) : Answer := { status := St.ok, d0 := d0, d1 := d1, data := [], ft := none }

/-- The 32 bytes of a reply. -/
def replyBytes (code : Nat) (c : Cmd) (a : Answer) (now n : Nat) (byBk trunc : Bool) : Bytes :=
  toLe 4 c.tag.toNat ++ toLe 2 a.status ++ toLe 2 (match c.src with
      | .ring q => q
      | _ => 0xFFFF)
    ++ toLe 4 n ++ toLe 4 a.d0 ++ toLe 8 (a.ft.getD now) ++ toLe 4 a.d1 ++ toLe 2 code
    ++ [byte (b2n byBk + 2 * b2n trunc), 0]

/-- A reply goes to the ring's CQ, or out on MCTP or JTAG. A command of a caller being reset, or of a device in FATAL, gets none (R114),
nor one whose ring is gone. -/
def State.sendReply (s : State) (code : Nat) (c : Cmd) (byBk : Bool) (a : Answer) : State :=
  match c.src with
  | .ring qid =>
    match s.queue qid with
    | none => s
    | some q =>
      if !(s.cmd.inProgress.any fun x => x.src == c.src && x.opcode == code && x.target == c.target.toNat) then s
      else if s.fatal || s.ownerResetting q.owner || q.resetAt.isSome then s.endProgress c.src code c.target.toNat
      else
        let d := cmdRbufDesc c
        let n := if cmdRbuf c && !a.data.isEmpty then min (min a.data.length d.len) 4096 else 0
        let trunc := cmdRbuf c && n < a.data.length
        let b := replyBytes code c a s.ft n byBk trunc
        let x : Compl := { qid := qid, ok := a.status == St.ok, suppressed := false, bytes := b,
                           data := if n = 0 then none else some ({ d with len := n }, a.data.take n), event := false,
                           tag := none, reply := some (code, c.target.toNat) }
        s.onQueue q.cq fun y => { y with due := y.due ++ [x] }
  | .mctp t =>
    let s := (s.onCmd fun m => { m with mctpOut := m.mctpOut.erase t }).endProgress c.src code c.target.toNat
    if s.fatal then s else s.emitMctp false t (replyBytes code c a s.ft a.data.length byBk false ++ a.data)
  | .jtag =>
    let s := s.endProgress c.src code c.target.toNat
    if s.fatal then s else s.emit (.jtag (replyBytes code c a s.ft a.data.length byBk false ++ a.data))

/-- The reply of a command, written by service firmware or by Buckram (R33 R115). During a command pause service firmware writes none:
its reply waits, with the instant of the effect, for the image that runs after the pause (R129). -/
def State.reply (s : State) (code : Nat) (c : Cmd) (byBk : Bool) (a : Answer) : State :=
  if s.cmd.paused && !byBk then
    s.onCmd fun m => { m with waiting := m.waiting ++ [(code, c, { a with ft := some (a.ft.getD s.ft) })] }
  else s.sendReply code c byBk a

/-- The replies that a command pause held back (R129). -/
def State.sendWaiting (s : State) : State :=
  s.cmd.waiting.foldl (fun s (code, c, a) => s.sendReply code c false a) (s.onCmd fun m => { m with waiting := [] })

/-! ## Starting a command (04 R124 R127 R129) -/

/-- The opcodes served over MCTP before service firmware runs (15 R431) and in STANDBY and AUX (16 R449 R450). -/
def earlyOps : List Nat := [0x0101, 0x0E03, 0x0901, 0x0902, 0x0903, 0x0904]
def standbyOps : List Nat := [0x0101, 0x0102, 0x0B04, 0x0B05, 0x0C01, 0x0E03]

/-- What becomes of a command that arrives. -/
inductive Gate where
  | run | answer (st : Nat) | hold | ignore
deriving DecidableEq, Repr

/-- Pushes are accepted from a source (15 R430 R431): over the ring of HP0 or MCTP as the stage has it. -/
def State.pushOpen (s : State) (src : CmdSrc) : Bool :=
  match s.boot.stage with
  | .push 2 _ _ => isRing src
  | .push _ _ _ => !isRing src
  | .recovery _ => !s.boot.refused
  | _ => false

/-- What ROM or Buckram does with a command before service firmware runs (15 R425 R431, 19 R520). -/
def State.earlyGate (s : State) (code : Nat) (src : CmdSrc) : Gate :=
  if src == .jtag then .run
  else if isRing src && !s.pushOpen src then .ignore
  else if code == 0x0101 || code == 0x0E03 then .run
  else if !s.pins.sysclk || s.boot.refused then .answer St.badState
  else if code == 0x0901 then .run
  else if earlyOps.contains code && s.pushOpen src then .run
  else .answer St.badState

/-- Whether the device takes commands, and which. -/
def State.gate (s : State) (code : Nat) (src : CmdSrc) : Gate :=
  if s.fatal || s.power.dev == .off || s.pins.sysRst then .ignore
  else if s.boot.stage == .retired && isRing src then .ignore
  else if s.boot.stage == .retired && lifecycleRefuses 5 code then .answer St.lifecycle
  else if s.power.dev == .standby || s.power.dev == .aux || s.power.standby.isSome then
    if isRing src then .ignore else if standbyOps.contains code then .run else .answer St.badState
  else if s.boot.stage == .retired then .run
  else if s.cmd.sfReady then (if s.cmd.paused then .hold else .run)
  else if s.boot.stage == .running then (if isRing src then .ignore else .hold)
  else s.earlyGate code src

/-- Two sources are one stream (the management stream counts as one ring, R118). -/
def sameStream : CmdSrc → CmdSrc → Bool
  | .ring a, .ring b => a == b
  | .mctp _, .mctp _ => true
  | .jtag, .jtag => true
  | _, _ => false

/-- The TARGET kind of an opcode that service firmware accepts, alone or before Buckram; none where it names no object. -/
def objectKind (code w : Nat) : Option TKind :=
  match opInfo code with
  | some i => if i.by_ == .bk || i.kind == .none || w == targetNone then none else some i.kind
  | none => none

/-- A command that service firmware accepted names this object and waits for Buckram, or is a QUEUE_DESTROY that waits for the queue's refill
(07 R199): commands of one object are applied one at a time, in the order of acceptance (R125). -/
def State.objectBusy (s : State) (code w : Nat) : Bool :=
  match objectKind code w with
  | none => false
  | some k => (k == .qid && (s.queue w).any (!·.destroyCmds.isEmpty)) || s.cmd.mailbox.any fun r => match r with
    | .command code' c' _ => objectKind code' c'.target.toNat == some k && c'.target.toNat == w
    | .region _ _ (some (c', _)) => k == .table && c'.target.toNat == w
    | _ => false

/-- The order of R124 and R125 lets a command start: at most 32 in progress, FENCE only with none and no later command past one that
waits, none of the same class and TARGET, and none that is being applied to the same object. -/
def State.orderOk (s : State) (code : Nat) (c : Cmd) : Bool :=
  let l := s.cmd.inProgress.filter fun x => sameStream x.src c.src
  l.length < 32 && (!cmdFence c || l.isEmpty)
    && !l.any (fun x => x.opcode / 256 == code / 256 && x.target == c.target.toNat) && !s.objectBusy code c.target.toNat

/-- The ring's head is this command: its entry has been fetched, the queue runs, and the entry is these 64 bytes (03 R79 R99). -/
def State.ringHead (s : State) (code : Nat) (c : Cmd) (qid : Nat) : Bool :=
  match s.queue qid with
  | none => false
  | some q =>
    q.cls == .cmdSq && (q.state == .enabled || q.state == .draining)
      && !s.blocked q && !s.ownerHeld q.owner && !s.ownerResetting q.owner && q.resetAt.isNone
      && s.opsOnTile q.home < 65536
      && q.cache.get q.c == some (cmdHeader code c)

/-- A command enters progress, from an instant that counts as its start. -/
def State.enter (s : State) (code : Nat) (c : Cmd) (start : Nat) : State :=
  s.onCmd fun m => { m with inProgress := m.inProgress ++
    [{ src := c.src, opcode := code, target := c.target.toNat, tag := c.tag.toNat, fence := cmdFence c
       tile := match c.src with
         | .ring q => (s.queue q).map (·.home)
         | _ => none
       start := start }] }

/-- A management request leaves the head of those that wait, or comes straight in, and enters progress. -/
def State.enterMctp (s : State) (code : Nat) (c : Cmd) (t : Nat) : State :=
  let was := s.cmd.held.contains (code, c)
  (s.onCmd fun m => { m with
    held := m.held.erase (code, c), heldAt := if was then m.heldAt.drop 1 else m.heldAt
    mctpOut := m.mctpOut ++ [t] }).enter code c (if was then s.cmd.heldAt.headD s.ft else s.ft)

/-- A management request waits. -/
def State.hold (s : State) (code : Nat) (c : Cmd) : State :=
  let ft := s.ft
  s.onCmd fun m => { m with held := m.held ++ [(code, c)], heldAt := m.heldAt ++ [ft] }

/-- A command starts, and `body` is applied to it, or it is answered at once, held or not due. A row of the opcode table
that may not start changes nothing (log 2). -/
def State.start (s : State) (code : Nat) (c : Cmd) (body : Caller → State → State) : State :=
  match s.callerOf c.src with
  | none => s
  | some who =>
    match c.src with
    | .ring qid =>
      if s.ringHead code c qid && s.orderOk code c then
        match s.gate code c.src with
        | .run => body who ((s.consume qid).enter code c s.ft)
        | .answer st => ((s.consume qid).enter code c s.ft).reply code c (!s.cmd.sfReady) (Answer.just st)
        | _ => s
      else s
    | .mctp t =>
      let wasHeld := s.cmd.held.contains (code, c)
      if !wasHeld && 8 ≤ s.cmd.mctpOut.length + s.cmd.held.length then
        if s.fatal then s else s.emitMctp false t (replyBytes code c (Answer.just St.busy) s.ft 0 (!s.cmd.sfReady) false)
      else if wasHeld && s.cmd.held.head? != some (code, c) then s
      else match s.gate code c.src with
        | .ignore => s
        | .answer st => (s.onCmd fun m => { m with
            held := m.held.erase (code, c), heldAt := if wasHeld then m.heldAt.drop 1 else m.heldAt }).emitMctp false t
              (replyBytes code c (Answer.just st) s.ft 0 (!s.cmd.sfReady) false)
        | .hold => if wasHeld then s else s.hold code c
        | .run =>
          if s.orderOk code c && (wasHeld || s.cmd.held.isEmpty) then body who (s.enterMctp code c t)
          else if wasHeld then s
          else s.hold code c
    | .jtag =>
      match s.gate code c.src with
      | .run => if s.orderOk code c then body who (s.enter code c s.ft) else s
      | .answer st => s.emit (.jtag (replyBytes code c (Answer.just st) s.ft 0 (!s.cmd.sfReady) false))
      | _ => s

/-- A command that service firmware applies, or ROM or Buckram before it runs (15 R431, 16 R449): the checks, then its effect; an
answer of none is written later. -/
def State.sf (s : State) (code : Nat) (c : Cmd) (deny : Caller → State → Bool) (lenOk exists_ : Bool)
    (eff : Caller → State → State × Option Answer) (form : Bool := true) (found : Caller → State → Bool := fun _ _ => true) :
    State :=
  s.start code c fun who s =>
    match s.precheck code c who false (deny who s) lenOk exists_ form (found who s) with
    | some e => s.reply code c (!s.cmd.sfReady) (Answer.just e)
    | none =>
      match eff who s with
      | (s, some a) => s.reply code c (!s.cmd.sfReady) a
      | (s, none) => s

/-- No caller is denied by a parameter. -/
def noDeny : Caller → State → Bool := fun _ _ => false

/-- The caller of a mailbox request; the requests that are no commands come from service firmware. -/
def bkCaller : BkReq → Caller
  | .command _ _ who => who
  | .route _ _ _ _ => .firmware
  | .region _ _ _ => .firmware

/-- A request enters Buckram's mailbox. A caller that had none waiting comes last in the rotation (04 R123). -/
def State.post (s : State) (r : BkReq) : State :=
  s.onCmd fun m => { m with
    mailbox := m.mailbox ++ [r]
    rota := if m.mailbox.any fun x => bkCaller x == bkCaller r then m.rota else m.rota.erase (bkCaller r) ++ [bkCaller r] }

/-- A command enters Buckram's mailbox. -/
def State.toBuckram (s : State) (code : Nat) (c : Cmd) (who : Caller) : State := s.post (.command code c who)

/-- An opcode's own part of check 8: its parameters are in range. -/
def paramCheck (ok : Bool) : Caller → State → Option Nat := fun _ _ => if ok then none else some St.badParam

/-- Buckram's mailbox is full (04 R123). -/
def State.mailboxFull (s : State) : Bool := decide (256 ≤ s.cmd.mailbox.length)

/-- A command that goes to Buckram. Service firmware makes the two checks that Buckram does not repeat; checks 3 to 9 are
repeated by Buckram, whose result governs and which writes the reply (R121 R127). A full mailbox is a resource of check 9, so the
checks before it decide first: `own` is the first of the opcode's own checks that fails. -/
def State.bk (s : State) (code : Nat) (c : Cmd) (deny : Caller → State → Bool) (lenOk exists_ : Bool)
    (own : Caller → State → Option Nat := fun _ _ => none) (form : Bool := true) (found : Caller → State → Bool := fun _ _ => true) :
    State :=
  s.start code c fun who s =>
    if !flagsOk code c (who == .firmware) then s.reply code c false (Answer.just St.badFlags)
    else if s.mailboxFull then
      s.reply code c false (Answer.just
        ((s.precheck code c who true (deny who s) lenOk exists_ form (found who s)).getD ((own who s).getD St.busy)))
    else s.toBuckram code c who

/-- A command of which service firmware applies a part of its own before it forwards it (R121); a part that it refuses is a check
of state that service firmware holds, and it ends the command itself. -/
def State.bkPart (s : State) (code : Nat) (c : Cmd) (deny : Caller → State → Bool) (lenOk exists_ : Bool)
    (part : Caller → State → State × Option Nat) (found : Caller → State → Bool := fun _ _ => true) : State :=
  s.start code c fun who s =>
    if !flagsOk code c (who == .firmware) then s.reply code c false (Answer.just St.badFlags)
    else match s.precheck code c who true (deny who s) lenOk exists_ true (found who s) with
      | some e => if s.mailboxFull then s.reply code c false (Answer.just e) else s.toBuckram code c who
      | none =>
        match part who s with
        | (_, some e) => s.reply code c false (Answer.just e)
        | (t, none) => if s.mailboxFull then s.reply code c false (Answer.just St.busy) else t.toBuckram code c who

/-- Buckram's turn at a command: checks 3 to 9 again, then its effect (04 R122 R127). -/
def State.bkApply (s : State) (code : Nat) (c : Cmd) (who : Caller) (deny lenOk exists_ : Bool)
    (eff : State → State × Option Answer) (form : Bool := true) (found : Bool := true) : State :=
  match s.precheck code c who true deny lenOk exists_ form found with
  | some e => s.reply code c true (Answer.just e)
  | none =>
    match eff s with
    | (s, some a) => s.reply code c true a
    | (s, none) => s

end Sys2Proof.Machine
end

