-- ==== Sys2Proof/Machine/Damask.lean ====
section
/-! DEFINITION. Damask (05_damask_parsing.md): the parser, the checksums, the key, the rule banks and the steering hash. -/

namespace Sys2Proof.Machine

/-! ## Parse profiles (R140) -/

/-- The settings of a port without an entry. -/
def Profile.default : Profile where
  depth := 128
  hashInner := true
  hashSym := false
  mplsEth := false
  ptpAgent := true
  vlanStrip := false
  tpidA := 0
  tpidB := 0
  vxlanPort := 4789
  genevePort := 6081
  hashSeed := 0xFFFFFFFF

/-- The settings of a 32-byte entry. -/
def Profile.ofBytes (b : Bytes) : Profile where
  depth := 64 * (byteAt b 1 % 16)
  hashInner := bit (byteAt b 2) 0
  hashSym := bit (byteAt b 2) 1
  mplsEth := bit (byteAt b 2) 2
  ptpAgent := bit (byteAt b 2) 3
  vlanStrip := bit (byteAt b 2) 4
  tpidA := le b 4 2
  tpidB := le b 6 2
  vxlanPort := le b 8 2
  genevePort := le b 10 2
  hashSeed := le b 12 4

/-- The version now in force (R159). -/
def DamaskSt.version (d : DamaskSt) : Version := { banks := d.banks, profiles := d.profiles, krmPort := d.krmPort }

/-- The profile of a logical port. -/
def Version.profile (v : Version) (port : Nat) : Profile :=
  match v.profiles.get port with
  | some b => Profile.ofBytes b
  | none => Profile.default

/-- The version in force at a frame's receive timestamp. -/
def State.versionOf (s : State) (f : RxFrame) : Version := f.frozen.getD s.damask.version

/-! ## The parser (R135 to R139, R151, R153) -/

/-- An absent header's offset (R142). -/
def noOff : Nat := 0xFFFF

/-- What is found at one level. `after`: where the header that follows the level's IP chain lies. -/
structure Lvl where
  encKind : Nat
  tunnel : Nat
  l2 : Nat
  l3 : Nat
  l4 : Nat
  enc : Nat
  dmac : Nat
  smac : Nat
  tci : Nat
  vlans : Nat
  etype : Nat
  l3Kind : Nat
  tos : Nat
  proto : Nat
  src : Nat
  dst : Nat
  ttlLe1 : Bool
  ipopt : Bool
  ehCount : Nat
  frag : Nat
  l4Kind : Nat
  sport : Nat
  dport : Nat
  tcpFlags : Nat
  after : Option Nat
deriving DecidableEq, Repr

/-- A level just opened by an encapsulation header (kind 0: level 0). -/
def Lvl.opened (kind tunnel : Nat) : Lvl where
  encKind := kind
  tunnel := tunnel
  l2 := noOff
  l3 := noOff
  l4 := noOff
  enc := noOff
  dmac := 0
  smac := 0
  tci := 0
  vlans := 0
  etype := 0
  l3Kind := 0
  tos := 0
  proto := 0
  src := 0
  dst := 0
  ttlLe1 := false
  ipopt := false
  ehCount := 0
  frag := 0
  l4Kind := 0
  sport := 0
  dport := 0
  tcpFlags := 0
  after := none

/-- The TCP or UDP header whose checksum R143 judges: offset, length, pseudo-header addresses, protocol, and a zero UDP
checksum over IPv4. -/
structure L4Sum where
  off : Nat
  len : Nat
  addrs : Bytes
  proto : Nat
  zeroOk : Bool
deriving DecidableEq, Repr

/-- What a parse knows so far: levels from the innermost out, slow-path reason, checksums, PTP and KRM. -/
structure PState where
  lvls : List Lvl
  reason : Nat
  l3Ok : Bool
  sum : Option L4Sum
  ptpMsg : Bool
  ptpEvent : Bool
  krm : Bool
deriving DecidableEq, Repr

/-- What a parse works on. -/
structure PCtx where
  frame : Bytes
  depth : Nat
  prof : Profile
  krmPort : Nat
deriving DecidableEq, Repr

/-- Where the parse goes on. -/
inductive Pos where
  | eth (off : Nat)
  | tag (off : Nat)
  | label (start off count : Nat)
  | mplsPayload (off : Nat)
  | ip4 (off : Nat)
  | ip6 (off : Nat)
  | ext (off nh used plen : Nat) (addrs : Bytes)
  | l4 (off proto len : Nat) (v6 : Bool) (addrs : Bytes)
  | vxlan (off : Nat)
  | geneve (off : Nat)
  | gre (off : Nat)
  | ptp (off : Nat)
deriving DecidableEq, Repr

/-- The innermost level. -/
def PState.cur (p : PState) : Lvl := p.lvls.headD (Lvl.opened 0 0)

/-- The innermost level changed. -/
def PState.upd (p : PState) (f : Lvl → Lvl) : PState :=
  match p.lvls with
  | l :: t => { p with lvls := f l :: t }
  | [] => p

/-- Parsing stops with a reason. -/
def PState.stop (p : PState) (r : Nat) : PState × Option Pos := ({ p with reason := r }, none)

/-- The encapsulation header at an offset ends its level and opens the next. -/
def PState.open' (p : PState) (off kind tunnel : Nat) : PState :=
  { (p.upd fun l => { l with enc := off }) with lvls := Lvl.opened kind tunnel :: (p.upd fun l => { l with enc := off }).lvls }

/-- A fourth encapsulation header (R139). -/
def PState.deepest (p : PState) : Bool := p.lvls.length == 4

/-- A header does not lie wholly within the frame, or not within PARSE_DEPTH (R153). -/
def PCtx.lack (c : PCtx) (off n : Nat) : Option Nat :=
  if c.frame.length < off + n then some 0x0B else if c.depth < off + n then some 0x0A else none

/-- A header with a fixed part and a length of its own, `n`, does not lie wholly within the frame, or its fixed part not within
PARSE_DEPTH (R153): a header that the frame's end cuts is malformed whatever PARSE_DEPTH is. -/
def PCtx.lackFixed (c : PCtx) (off fixed n : Nat) : Option Nat :=
  if c.frame.length < off + fixed then some 0x0B
  else if c.depth < off + fixed then (if c.frame.length < off + n then some 0x0B else some 0x0A)
  else none

/-- A network-order number of the frame. -/
def PCtx.u (c : PCtx) (off n : Nat) : Nat := be c.frame off n

/-- The one's complement sum of 16-bit words, not folded. -/
def csumWords : Bytes → Nat
  | a :: b :: t => a.toNat * 256 + b.toNat + csumWords t
  | [a] => a.toNat * 256
  | [] => 0

/-- A sum folded to 16 bits. -/
def csumFold (v : Nat) : Nat :=
  let a := v / 65536 + v % 65536
  let b := a / 65536 + a % 65536
  b / 65536 + b % 65536

/-- A one's complement checksum over bytes that hold it is correct. -/
def csumOk (b : Bytes) : Bool := csumFold (csumWords b) == 0xFFFF

/-- The one's complement checksum of bytes. -/
def csumOf (b : Bytes) : Nat := 65535 - csumFold (csumWords b)

/-- An Ethernet header (R135). -/
def parseEth (c : PCtx) (p : PState) (off : Nat) : PState × Option Pos :=
  match c.lack off 14 with
  | some r => p.stop r
  | none => (p.upd fun l => { l with l2 := off, dmac := c.u off 6, smac := c.u (off + 6) 6 }, some (.tag (off + 12)))

/-- What follows an Ethertype at an offset; PTP at level 0 only (R135 R154). -/
def afterType (level0 : Bool) (t off : Nat) : Option Pos :=
  match t with
  | 0x0800 => some (.ip4 off)
  | 0x86DD => some (.ip6 off)
  | 0x8847 => some (.label off off 0)
  | 0x8848 => some (.label off off 0)
  | 0x88F7 => if level0 then some (.ptp off) else none
  | _ => none

/-- A tag, or the Ethertype after the tags. -/
def parseTag (c : PCtx) (p : PState) (off : Nat) : PState × Option Pos :=
  let t := c.u off 2
  if t = 0x8100 ∨ t = 0x88A8 ∨ (t ≠ 0 ∧ (t = c.prof.tpidA ∨ t = c.prof.tpidB)) then
    if 4 ≤ p.cur.vlans then p.stop 0x06
    else match c.lack off 6 with
      | some r => p.stop r
      | none =>
        (p.upd fun l => { l with tci := if l.vlans = 0 then c.u (off + 2) 2 else l.tci, vlans := l.vlans + 1 },
         some (.tag (off + 4)))
  else (p.upd fun l => { l with etype := t }, afterType (p.lvls.length == 1) t (off + 2))

/-- An MPLS label (R135 R153); the bottom label opens a level (R144). -/
def parseLabel (c : PCtx) (p : PState) (start off n : Nat) : PState × Option Pos :=
  if p.deepest then p.stop 0x08
  else if n = 8 then p.stop 0x07
  else if c.frame.length < off + 4 ∨ c.depth < off + 4 then p.stop 0x0B
  else
    let e := c.u off 4
    if bit e 8 then (p.open' start 1 (e / 4096), some (.mplsPayload (off + 4)))
    else (p, some (.label start (off + 4) (n + 1)))

/-- The MPLS payload by its first nibble (R138). -/
def parseMplsPayload (c : PCtx) (p : PState) (off : Nat) : PState × Option Pos :=
  match c.lack off 1 with
  | some r => p.stop r
  | none =>
    let nib := byteAt c.frame off / 16
    (p, if nib = 4 then some (.ip4 off) else if nib = 6 then some (.ip6 off)
        else if !c.prof.mplsEth then none
        else if nib = 0 then some (.eth (off + 4)) else some (.eth off))

/-- The size of the fixed part of an L4 header; none for a protocol that is not recognised (R135 R137). That of an ICMP or ICMPv6 header is
its type, code and checksum: DESIGN CHOICE, R144 names type and code and gives no size (log 56). -/
def l4Fixed (proto : Nat) (v6 : Bool) : Option Nat :=
  match proto with
  | 6 => some 20
  | 17 => some 8
  | 1 => some 4
  | 58 => if v6 then some 4 else none
  | _ => none

/-- L4_KIND of a recognised protocol (R145). -/
def l4KindOf : Nat → Nat
  | 6 => 1
  | 17 => 2
  | 1 => 3
  | _ => 4

/-- Ports, or ICMP type and code, and TCP flags of an L4 header (R144). -/
def PCtx.l4Fields (c : PCtx) (off proto : Nat) (l : Lvl) : Lvl :=
  if proto = 6 ∨ proto = 17 then
    { l with l4 := off, l4Kind := l4KindOf proto, sport := c.u off 2, dport := c.u (off + 2) 2,
             tcpFlags := if proto = 6 then byteAt c.frame (off + 13) else 0 }
  else { l with l4 := off, l4Kind := l4KindOf proto, sport := byteAt c.frame off, dport := byteAt c.frame (off + 1) }

/-- The read of a first fragment's L4 header, made only when it lies within the frame and PARSE_DEPTH (R144). -/
def PCtx.fragL4 (c : PCtx) (off proto : Nat) (first v6 : Bool) (l : Lvl) : Lvl :=
  match l4Fixed proto v6 with
  | some n => if first ∧ off + n ≤ c.frame.length ∧ off + n ≤ c.depth then c.l4Fields off proto l else l
  | none => l

/-- An IPv4 header. R153 does not say which reason wins where two of its conditions hold of one header. DESIGN CHOICE (log 56): a header whose
fixed part is there is judged by it first, IHL below 5 or a total length below 4 × IHL before options, and options before the end of the
frame or PARSE_DEPTH. -/
def parseIp4 (c : PCtx) (p : PState) (off : Nat) : PState × Option Pos :=
  match c.lackFixed off 20 (4 * (byteAt c.frame off % 16)) with
  | some r => p.stop r
  | none =>
    let ihl := byteAt c.frame off % 16
    let total := c.u (off + 2) 2
    let ff := c.u (off + 6) 2
    let proto := byteAt c.frame (off + 9)
    let p := p.upd fun l => { l with
      l3 := off, l3Kind := 1, tos := byteAt c.frame (off + 1), proto := proto, src := c.u (off + 12) 4
      dst := c.u (off + 16) 4, ttlLe1 := byteAt c.frame (off + 8) ≤ 1, ipopt := decide (5 < ihl)
      frag := if ff / 8192 % 2 = 1 ∨ ff % 8192 ≠ 0 then (if ff % 8192 = 0 then 3 else 1) else 0
      after := if ihl < 5 then none else some (off + 4 * ihl) }
    let p := { p with
      l3Ok := 5 ≤ ihl && off + 4 * ihl ≤ c.frame.length && csumOk (slice c.frame off (4 * ihl)), sum := none }
    if ihl < 5 ∨ total < 4 * ihl then p.stop 0x0B
    else if 5 < ihl then p.stop 0x01
    else if p.cur.frag ≠ 0 then (p.upd (c.fragL4 (off + 20) proto (p.cur.frag == 3) false)).stop 0x02
    else (p, some (.l4 (off + 20) proto (total - 20) false (slice c.frame (off + 12) 8)))

/-- An IPv6 header; its Next Header chain follows. -/
def parseIp6 (c : PCtx) (p : PState) (off : Nat) : PState × Option Pos :=
  match c.lack off 40 with
  | some r => p.stop r
  | none =>
    let nh := byteAt c.frame (off + 6)
    let p := p.upd fun l => { l with
      l3 := off, l3Kind := 2, tos := c.u off 4 / 2 ^ 20 % 256, proto := nh, src := c.u (off + 8) 16
      dst := c.u (off + 24) 16, ttlLe1 := byteAt c.frame (off + 7) ≤ 1 }
    ({ p with l3Ok := true, sum := none }, some (.ext (off + 40) nh 0 (c.u (off + 4) 2) (slice c.frame (off + 8) 32)))

/-- The Next Header values that IANA lists as IPv6 extension headers (R136; the list is IANA's, log 24). -/
def ianaExt : List Nat := [0, 43, 44, 50, 51, 60, 135, 139, 140, 253, 254]

/-- One element of an IPv6 Next Header chain (R136). At ESP the chain ends at a header that is not parsed, and no header whose ports are
hashed follows it (R157). -/
def parseExt (c : PCtx) (p : PState) (off nh used plen : Nat) (addrs : Bytes) : PState × Option Pos :=
  if nh = 50 ∨ !ianaExt.contains nh then
    (p.upd fun l => { l with proto := nh, after := if nh = 50 then l.after else some off }, some (.l4 off nh (plen - used) true addrs))
  else if nh ≠ 0 ∧ nh ≠ 43 ∧ nh ≠ 60 ∧ nh ≠ 44 then (p.upd fun l => { l with proto := nh }).stop 0x04
  else if 4 ≤ p.cur.ehCount then (p.upd fun l => { l with proto := nh }).stop 0x05
  else
    let n := if nh = 44 then 8 else (byteAt c.frame (off + 1) + 1) * 8
    match (c.lackFixed off 8 n).or (c.lack off n) with
    | some r => p.stop r
    | none =>
      if plen < used + n then p.stop 0x0B
      else
        let nxt := byteAt c.frame off
        let p := p.upd fun l => { l with ehCount := l.ehCount + 1, proto := nxt }
        if nh = 44 then
          let first := c.u (off + 2) 2 / 8 == 0
          ((p.upd fun l => { l with frag := if first then 3 else 1, after := some (off + 8) }).upd
            (c.fragL4 (off + 8) nxt first true)).stop 0x03
        else (p, some (.ext (off + n) nxt (used + n) plen addrs))

/-- What a UDP port leads to: tunnels at any level, KRM and PTP at level 0 (R135 R154 R155). Where one port is set to be several of these the
tunnel comes first, then KRM, then PTP: DESIGN CHOICE, the spec gives no order (log 56). -/
def parseUdp (c : PCtx) (p : PState) (off : Nat) : PState × Option Pos :=
  let port := p.cur.dport
  let level0 := p.lvls.length == 1
  if port = c.prof.vxlanPort then (p, some (.vxlan (off + 8)))
  else if port = c.prof.genevePort then (p, some (.geneve (off + 8)))
  else if level0 && port == c.krmPort then ({ (p.upd fun l => { l with l4Kind := 5 }) with krm := true }, none)
  else if level0 && (port == 319 || port == 320) then (p.upd fun l => { l with l4Kind := 6 }, some (.ptp (off + 8)))
  else (p, none)

/-- What follows an IP header and its chain. -/
def parseL4 (c : PCtx) (p : PState) (off proto len : Nat) (v6 : Bool) (addrs : Bytes) : PState × Option Pos :=
  if proto = 47 then (p.upd fun l => { l with l4Kind := 7 }, some (.gre off))
  else match l4Fixed proto v6 with
    | none => (p.upd fun l => { l with l4Kind := 7 }, none)
    | some n =>
      match c.lack off n with
      | some r => p.stop r
      | none =>
        let p := p.upd (c.l4Fields off proto)
        if proto = 6 then
          ({ p with sum := some { off := off, len := len, addrs := addrs, proto := 6, zeroOk := false } }, none)
        else if proto = 17 then
          parseUdp c { p with sum := some { off := off, len := c.u (off + 4) 2, addrs := addrs, proto := 17,
                                            zeroOk := c.u (off + 6) 2 == 0 && !v6 } } off
        else (p, none)

/-- A VXLAN header (R135). -/
def parseVxlan (c : PCtx) (p : PState) (off : Nat) : PState × Option Pos :=
  if p.deepest then p.stop 0x08
  else match c.lack off 8 with
    | some r => p.stop r
    | none => (p.open' off 4 (c.u (off + 4) 3), some (.eth (off + 8)))

/-- A GENEVE header with its options (R135). Options that are too long are judged before the end of the frame (log 56). -/
def parseGeneve (c : PCtx) (p : PState) (off : Nat) : PState × Option Pos :=
  if p.deepest then p.stop 0x08
  else
    let opt := byteAt c.frame off % 64 * 4
    match c.lackFixed off 8 (8 + opt) with
    | some r => p.stop r
    | none =>
      if 64 < opt then p.stop 0x09
      else match c.lack off (8 + opt) with
        | some r => p.stop r
        | none =>
          let t := c.u (off + 2) 2
          (p.open' off 5 (c.u (off + 4) 3),
           if t = 0x6558 then some (.eth (off + 8 + opt)) else afterType false t (off + 8 + opt))

/-- A GRE or NVGRE header; a version other than 0 ends the parse (R135). -/
def parseGre (c : PCtx) (p : PState) (off : Nat) : PState × Option Pos :=
  let b := byteAt c.frame off
  let n := 4 + 4 * (b2n (bit b 7) + b2n (bit b 5) + b2n (bit b 4))
  match c.lackFixed off 4 n with
  | some r => p.stop r
  | none =>
    if byteAt c.frame (off + 1) % 8 ≠ 0 then (p, none)
    else if p.deepest then p.stop 0x08
    else
      match c.lack off n with
      | some r => p.stop r
      | none =>
        let t := c.u (off + 2) 2
        let key := if bit b 5 then c.u (off + 4 + 4 * b2n (bit b 7)) 4 else 0
        (p.open' off (if bit b 5 ∧ t = 0x6558 then 3 else 2) key,
         if t = 0x6558 then some (.eth (off + n)) else if t = 0x8848 then none else afterType false t (off + n))

/-- A PTP message at level 0 (R154). The byte of its messageType must lie within the frame and PARSE_DEPTH: DESIGN CHOICE, R154 gives the
message no length (log 56). -/
def parsePtp (c : PCtx) (p : PState) (off : Nat) : PState × Option Pos :=
  match c.lack off 1 with
  | some r => p.stop r
  | none =>
    let p := { p with ptpMsg := true, ptpEvent := byteAt c.frame off % 16 ≤ 3 }
    if c.prof.ptpAgent then p.stop 0x0C else (p, none)

/-- One header. -/
def parseAt (c : PCtx) (p : PState) : Pos → PState × Option Pos
  | .eth off => parseEth c p off
  | .tag off => parseTag c p off
  | .label start off n => parseLabel c p start off n
  | .mplsPayload off => parseMplsPayload c p off
  | .ip4 off => parseIp4 c p off
  | .ip6 off => parseIp6 c p off
  | .ext off nh used plen addrs => parseExt c p off nh used plen addrs
  | .l4 off proto len v6 addrs => parseL4 c p off proto len v6 addrs
  | .vxlan off => parseVxlan c p off
  | .geneve off => parseGeneve c p off
  | .gre off => parseGre c p off
  | .ptp off => parsePtp c p off

/-- Headers one after the other; no frame has more than 128. -/
def parseFrom (c : PCtx) : Nat → PState → Pos → PState
  | 0, p, _ => p
  | n + 1, p, pos =>
    match parseAt c p pos with
    | (p, none) => p
    | (p, some q) => parseFrom c n p q

/-- A frame parsed to a depth under a version. -/
def Version.parse (v : Version) (frame : Bytes) (port depth : Nat) : PState :=
  parseFrom { frame := frame, depth := depth, prof := v.profile port, krmPort := v.krmPort } 128
    { lvls := [Lvl.opened 0 0], reason := 0, l3Ok := false, sum := none, ptpMsg := false, ptpEvent := false, krm := false }
    (.eth 0)

/-! ## What a parse says (R142 to R145) -/

/-- The innermost level present. -/
def PState.depth (p : PState) : Nat := p.lvls.length - 1

/-- Level `j`, counted from level 0. -/
def PState.level (p : PState) (j : Nat) : Option Lvl := if j < p.lvls.length then p.lvls[p.lvls.length - 1 - j]? else none

/-- L4_OK (R143). -/
def PState.l4Ok (p : PState) (frame : Bytes) : Bool :=
  match p.sum with
  | none => false
  | some l =>
    l.zeroOk || ((match l4Fixed l.proto true with
        | some n => decide (n ≤ l.len)
        | none => false) && l.off + l.len ≤ frame.length
      && csumOk (l.addrs ++ [0, byte l.proto] ++ toBe 2 l.len ++ slice frame l.off l.len))

/-- The Ethernet header used for a level: its own or the nearest at a lower level (R144). -/
def PState.ethUsed (p : PState) (j : Nat) : Lvl :=
  (((List.range (j + 1)).reverse.filterMap p.level).find? (·.l2 != noOff)).getD (Lvl.opened 0 0)

/-- CAST of a MAC address (R145). -/
def castOf (mac : Nat) : Nat := if mac = 0xFFFFFFFFFFFF then 2 else if bit mac 40 then 1 else 0

/-- META of a level (R145). -/
def PState.meta (p : PState) (port j : Nat) : Nat :=
  let base := port % 32 + 256 * p.depth
  match p.level j with
  | none => base
  | some l =>
    let e := p.ethUsed j
    base + 32 * j + 128 + 2 ^ 10 * l.encKind + 2 ^ 13 * e.vlans + 2 ^ 16 * l.l3Kind + 2 ^ 18 * l.l4Kind + 2 ^ 21 * l.frag
      + 2 ^ 23 * b2n l.ipopt + 2 ^ 24 * l.ehCount + 2 ^ 27 * b2n p.ptpEvent + 2 ^ 28 * b2n l.ttlLe1 + 2 ^ 29 * castOf e.dmac

/-- The 512-bit key of a level (R144); KEY_LEVEL 4 is the innermost. -/
def PState.key (p : PState) (port keyLevel : Nat) : Nat :=
  let j := if keyLevel = 4 then p.depth else keyLevel
  let base := 2 ^ 504 * p.reason + p.meta port j
  match p.level j with
  | none => base
  | some l =>
    let e := p.ethUsed j
    base + 2 ^ 496 * l.tcpFlags + 2 ^ 480 * l.dport + 2 ^ 464 * l.sport + 2 ^ 456 * l.proto + 2 ^ 448 * l.tos
      + 2 ^ 320 * l.dst + 2 ^ 192 * l.src + 2 ^ 176 * e.etype + 2 ^ 160 * e.tci + 2 ^ 112 * e.smac + 2 ^ 64 * e.dmac
      + 2 ^ 32 * l.tunnel

/-! ## Rules (R148 R149) -/

/-- A key matches a rule. -/
def Rule.hit (r : Rule) (key : Nat) : Bool := key &&& r.mask == r.value &&& r.mask

/-- The hit of a bank: its lowest-index matching rule. -/
def Bank.hit (b : Bank) (key : Nat) : Option (Nat × Rule) := b.rules.find? fun (_, r) => r.hit key

/-- A classification under way: decided fields, and the counted hits as bank table and index. -/
structure Classified where
  verdict : Nat
  cls : Option Nat
  colour : Option Nat
  qid : Option Nat
  policer : Option Nat
  table : Option Nat
  hits : List (Nat × Nat)
deriving DecidableEq, Repr

/-- Nothing decided. -/
def Classified.none : Classified :=
  { verdict := 0, cls := Option.none, colour := Option.none, qid := Option.none, policer := Option.none,
    table := Option.none, hits := [] }

/-- A field set by an ACTION and not yet decided. -/
def decideField (old : Option Nat) (action setBit lo n : Nat) : Option Nat :=
  match old with
  | some v => some v
  | none => if bit action setBit then some (field action lo n) else none

/-- The contribution of one bank's hit. -/
def Classified.add (c : Classified) (a : Nat) (table index : Nat) : Classified where
  verdict := if c.verdict = 0 then a % 8 else c.verdict
  cls := decideField c.cls a 4 5 8
  colour := decideField c.colour a 13 14 2
  qid := decideField c.qid a 16 17 16
  policer := decideField c.policer a 33 34 16
  table := decideField c.table a 50 51 4
  hits := if bit a 55 then c.hits ++ [(table, index)] else c.hits

/-- The banks in increasing RANK, until a STOP. -/
def classifyFrom (key : Nat → Nat) : List (Nat × Bank) → Classified → Classified
  | [], c => c
  | (_, b) :: t, c =>
    match b.hit (key b.level) with
    | none => classifyFrom key t c
    | some (i, r) => if bit r.action 3 then c.add r.action b.table i else classifyFrom key t (c.add r.action b.table i)

/-- The classification of a parse. -/
def Version.classify (v : Version) (p : PState) (port : Nat) : Classified := classifyFrom (p.key port) v.banks Classified.none

/-- The 64-byte parse result (R142). `reason` is the parse's, or RULE_TRAP or RULE_COPY. -/
def parseResult (f : RxFrame) (p : PState) (c : Classified) (reason : Nat) (noTable : Bool) : Bytes :=
  let offs := fun j => match p.level j with
    | some l => toLe 2 l.l2 ++ toLe 2 l.l3 ++ toLe 2 l.l4 ++ toLe 2 l.enc
    | none => toLe 2 noOff ++ toLe 2 noOff ++ toLe 2 noOff ++ toLe 2 noOff
  toLe 2 f.bytes.length ++ [byte reason, byte (p.depth + 4 * b2n p.l3Ok + 8 * b2n (p.l4Ok f.bytes))] ++ toLe 4 f.hash
    ++ toLe 8 f.ft ++ toLe 2 f.frac ++ [byte f.port, 0] ++ offs 0 ++ offs 1 ++ offs 2 ++ offs 3
    ++ [byte (c.cls.getD 0), byte (c.colour.getD 0 + 4 * c.verdict), 0, 0]
    ++ toLe 2 (c.qid.getD 0xFFFF) ++ toLe 2 (c.policer.getD 0xFFFF)
    ++ [byte (c.table.getD 0 + 128 * b2n noTable), 0, 0, 0]

/-! ## Steering (R156 R157) -/

/-- The IP header of a level lies wholly within the first 128 bytes. -/
def Lvl.ipWithin (l : Lvl) (frame : Bytes) : Bool :=
  l.l3Kind != 0 && l.l3 + (if l.l3Kind = 1 then 4 * (byteAt frame l.l3 % 16) else 40) ≤ 128

/-- The level whose IP header the hash uses. -/
def PState.hashLevel (p : PState) (frame : Bytes) (inner : Bool) : Option Lvl :=
  if inner then p.lvls.find? (·.ipWithin frame)
  else match p.level 0 with
    | some l => if l.l3Kind ≠ 0 then some l else none
    | none => none

/-- The ports of the tuple: the first four bytes after the IP chain, or zeros in the three cases of R157. Of a chain that ends with Next
Header 59, after which there is no header, they are the next four bytes of the frame: DESIGN CHOICE, the three cases do not name it
(log 56). -/
def Lvl.hashPorts (l : Lvl) (frame : Bytes) : Nat × Nat :=
  match l.after with
  | some o => if l.frag = 0 ∧ o + 4 ≤ 128 ∧ o + 4 ≤ frame.length
                 ∧ (l.l3Kind ≠ 1 ∨ be frame (l.l3 + 6) 2 % 16384 = 0) then (be frame o 2, be frame (o + 2) 2) else (0, 0)
  | none => (0, 0)

/-- FLOW_HASH of a parse over the first 128 bytes. -/
def PState.flowHash (p : PState) (frame : Bytes) (prof : Profile) : Nat :=
  match p.hashLevel frame prof.hashInner with
  | some l =>
    let (sp, dp) := l.hashPorts frame
    let swap := prof.hashSym && l.dst * 65536 + dp < l.src * 65536 + sp
    let (a, b, sp, dp) := if swap then (l.dst, l.src, dp, sp) else (l.src, l.dst, sp, dp)
    crc32c prof.hashSeed (toBe 16 a ++ toBe 16 b ++ [byte l.proto] ++ toBe 2 sp ++ toBe 2 dp)
  | none =>
    let l := (p.level 0).getD (Lvl.opened 0 0)
    crc32c prof.hashSeed (toBe 6 l.dmac ++ toBe 6 l.smac ++ toBe 2 l.etype)

/-- The first tile from `t` on that is not parked (R156). -/
def State.unparked (s : State) (t : Nat) : Nat :=
  ((List.range 4).map fun k => (t + k) % 4).find? (s.tileUsed ·) |>.getD (t % 4)

/-- The network die of a logical port: NP0 and NP1 on N0, NP2 and NP3 on N1. -/
def netDie (port : Nat) : Nat := port / 16

/-- The tile that parses a frame (R156): the home of a KRM connection, or the indirection entry. The CID of a KRM header that does not lie
within the frame or the first 128 bytes is read all the same, bytes that are not there as 0: DESIGN CHOICE, R156 does not say (log 56). -/
def State.steer (s : State) (port : Nat) (p : PState) (frame : Bytes) (hash : Nat) : Nat :=
  let byInd := (s.damask.ind.getD (netDie port) []).getD (hash % 512) 0
  let t := if p.krm then
      match p.level 0 with
      | some l => (s.damask.home.get (be frame (l.l4 + 12) 4 / 4096)).getD byInd
      | none => byInd
    else byInd
  s.unparked t

end Sys2Proof.Machine
end

