-- ==== Sys2Proof/Machine/Tables.lean ====
section
/-! DEFINITION. Forwarding tables (06_forwarding_tables.md): layout and hashing, insertion and relocation, learning, aging,
and the commands of class TABLE, with those on rule banks (05 R146 R147) and on the parse profile table (05 R140). -/

namespace Sys2Proof.Machine

/-! ## Layout (R167 R168) -/

/-- Buckets of a partition. -/
def Table.nb (t : Table) : Nat := 2 ^ (t.log2 - 4)

/-- Partition and candidate buckets of a key in table `id`. -/
def Table.place (t : Table) (id : Nat) (key : Bytes) : Nat × Nat × Nat :=
  let ha := crc32c 0xFFFFFFFF (byte id :: key)
  let hb := crc32c 0x5A827999 (byte id :: key)
  let b0 := ha % t.nb
  let b1 := hb % t.nb
  (ha / 2 ^ 30, b0, if b1 = b0 then b0 ^^^ 1 else b1)

/-- Device address of a bucket, or of the stash as bucket NB. -/
def Table.lineAddr (t : Table) (p b : Nat) : Nat :=
  if b < t.nb then t.base + p * 2 ^ (t.log2 + 3) + b * 128 else t.base + 2 ^ (t.log2 + 5) + p * 256

/-- A partition. -/
def Table.part (t : Table) (p : Nat) : Partition :=
  t.parts.getD p { buckets := [], stash := List.replicate 8 none, learnQ := [], pass := none, passNext := 0 }

/-- The index of a partition's counter block (18 R499 kind 1). -/
def partIndex (id p : Nat) : Nat := 4 * id + p

/-- A table changed. -/
def State.onTable (s : State) (id : Nat) (f : Table → Table) : State := s.onTables fun l => l.mod id f

/-- A partition changed. -/
def State.onPart (s : State) (id p : Nat) (f : Partition → Partition) : State :=
  s.onTable id fun t => { t with parts := modAt t.parts p f }

/-- The tile that serves a partition. -/
def State.serving (s : State) (p : Nat) : Nat := s.unparked p

/-- The number of a bucket in the caches. -/
def bucketId (id p b : Nat) : Nat := (id * 4 + p) * 2 ^ 22 + b

/-- A bucket stands in the cache of its engine; the stash never does (R169). -/
def State.cachedBucket (s : State) (t : Table) (p b : Nat) : Bool :=
  decide (b < t.nb) && match s.tables.find? fun (_, x) => x.base == t.base with
    | some (id, _) => (s.damask.tblCache.getD (s.serving p) []).contains (bucketId id p b)
    | none => false

/-- The slots of a bucket (`b < NB`) or of the stash (`b = NB`). Of one that is not cached, a slot in a poisoned line holds no entry
(R169 R173). -/
def State.slots (s : State) (t : Table) (p b : Nat) : List (Option TblEntry) :=
  let l := if b < t.nb then ((t.part p).buckets.get b).getD (List.replicate 4 none) else (t.part p).stash
  if s.cachedBucket t p b then l
  else l.zipIdx.map fun (e, i) => if s.linePoisoned (t.lineAddr p b + i * 32) then none else e

/-- A poisoned line among those of a bucket that is not cached, or of the stash. -/
def State.slotsPoisoned (s : State) (t : Table) (p b : Nat) : Bool :=
  !s.cachedBucket t p b && (List.range (if b < t.nb then 2 else 4)).any fun i => s.linePoisoned (t.lineAddr p b + i * 64)

/-- A bucket is written back to DRAM whole (14 R402). -/
def State.writeBucket (s : State) (n : Nat) : State :=
  let s := s.onDamask fun d => { d with tblDirty := d.tblDirty.erase n }
  match s.tables.get (n / 2 ^ 24) with
  | some t => s.cleanLines (t.lineAddr (n / 2 ^ 22 % 4) (n % 2 ^ 22)) 128
  | none => s

/-- Buckets leave the caches: the dirty ones are written back (R169). -/
def State.writeBuckets (s : State) (l : List Nat) : State := (l.filter s.damask.tblDirty.contains).foldl State.writeBucket s

/-- A slot written: in the cache, where its bucket stands there, which is then dirty; else in DRAM. A write takes the whole bucket or the
whole stash, so that poisoned lines beside the slot are clean after it and hold no entry: DESIGN CHOICE, the spec does not say how
much an engine's write of a slot covers (14 R402, log 57). -/
def State.putSlot (s : State) (id : Nat) (t : Table) (p b i : Nat) (e : Option TblEntry) : State :=
  let l := (s.slots t p b).set i e
  let s := if s.cachedBucket t p b then s.onDamask fun d => { d with
      tblDirty := if d.tblDirty.contains (bucketId id p b) then d.tblDirty else bucketId id p b :: d.tblDirty }
    else s.cleanLines (t.lineAddr p b) (if b < t.nb then 128 else 256)
  s.onPart id p fun x =>
    if b < t.nb then { x with buckets := if l.all (·.isNone) then x.buckets.del b else x.buckets.set b l }
    else { x with stash := l }

/-- The slots that hold a key among its two candidate buckets and the stash: as bucket, slot and entry. -/
def State.findKey (s : State) (t : Table) (p b0 b1 : Nat) (key : Bytes) : List (Nat × Nat × TblEntry) :=
  [b0, b1, t.nb].flatMap fun b => ((s.slots t p b).zipIdx).filterMap fun (e, i) => match e with
    | some e => if e.key = key then some (b, i, e) else none
    | none => none

/-- The lowest free slot of a bucket. -/
def State.freeSlot (s : State) (t : Table) (p b : Nat) : Option Nat := (s.slots t p b).findIdx? (·.isNone)

/-! ## The table cache (R169) -/

/-- Buckets become the most recently used of their engine's cache, but for those whose lines could not be read; a lookup that missed one is
counted (R171). Those that make room are written back where they are dirty. -/
def State.touch (s : State) (id p : Nat) (bs : List Nat) (lookup : Bool) : State :=
  let tile := s.serving p
  let ids := (bs.filter fun b => match s.tables.get id with
    | some t => !s.slotsPoisoned t p b
    | none => false).map (bucketId id p)
  let old := s.damask.tblCache.getD tile []
  let all := ids ++ old.filter fun i => !ids.contains i
  let miss := bs.any fun b => !old.contains (bucketId id p b)
  let s := (s.writeBuckets (all.drop 65536)).onDamask fun d => { d with tblCache := modAt d.tblCache tile fun _ => all.take 65536 }
  if lookup && miss then s.count Ct.table (partIndex id p) 11 else s

/-- Buckets and stashes that are not cached are read from DRAM: poisoned lines that the read meets are counted in POISON_READ, and errors are
found (R173, 14 R405). -/
def State.meetBuckets (s : State) (t : Table) (p : Nat) (bs : List Nat) : State :=
  if s.dram.poison.isEmpty && s.dram.faults.isEmpty then s
  else (bs.filter fun b => !s.cachedBucket t p b).foldl (fun s b => s.meet 2 (t.lineAddr p b) (if b < t.nb then 128 else 256)) s

/-- Buckets read by their engine for anything but a sweep, with the stash: they become the most recently used (R169). -/
def State.readBuckets (s : State) (id p : Nat) (t : Table) (bs : List Nat) (lookup : Bool) : State :=
  (s.meetBuckets t p (bs ++ [t.nb])).touch id p bs lookup

/-- Each cache keeps what its engine serves: the buckets of partitions that another tile serves now are written back and dropped (R172). -/
def State.settleCaches (s : State) : State :=
  (List.range 4).foldl (fun s tile =>
    let out := fun n => s.serving (n / 2 ^ 22 % 4) != tile
    (s.writeBuckets ((s.damask.tblCache.getD tile []).filter out)).onDamask fun d => { d with
      tblCache := modAt d.tblCache tile fun l => l.filter (!out ·) }) s

/-! ## Insertion and relocation (R176 R177 R184) -/

/-- The position before which no entry may be carried back while an iteration is open (R184). -/
def Table.cursorPos (t : Table) (p : Nat) : Option Nat :=
  match t.iter with
  | some it =>
    if field it.cursor 30 2 = p then some (if bit it.cursor 29 then t.nb else it.cursor % 2 ^ 22) else none
  | none => none

/-- A move of an entry between positions is allowed. -/
def Table.moveOk (t : Table) (p src dst : Nat) : Bool :=
  match t.cursorPos p with
  | some c => !(c ≤ src && dst < c)
  | none => true

/-- The other candidate bucket of an entry. -/
def Table.other (t : Table) (id : Nat) (e : TblEntry) (b : Nat) : Nat :=
  let (_, b0, b1) := t.place id e.key
  if b = b0 then b1 else b0

/-- One breadth-first level of the search: paths as lists of positions, the latest first, and the buckets that it has read. The answer is a
path ended at a free way, or the paths of the next level, with the buckets read. -/
def State.searchLevel (s : State) (id : Nat) (t : Table) (p : Nat) : List (List (Nat × Nat)) → List (List (Nat × Nat)) → List Nat →
    Option (List (Nat × Nat)) × List (List (Nat × Nat)) × List Nat
  | [], acc, rd => (none, acc, rd)
  | path :: rest, acc, rd =>
    match path with
    | [] => State.searchLevel s id t p rest acc rd
    | (b, w) :: _ =>
      match (s.slots t p b).getD w none with
      | none => State.searchLevel s id t p rest acc rd
      | some e =>
        let o := t.other id e b
        if !t.moveOk p b o then State.searchLevel s id t p rest acc rd
        else match s.freeSlot t p o with
          | some f => (some ((o, f) :: path), [], o :: rd)
          | none =>
            State.searchLevel s id t p rest
              (acc ++ (((List.range 4).map fun k => (o, k)).filter fun x => !path.contains x).map (· :: path)) (o :: rd)

/-- The first path of at most `n` relocations, and the buckets that the search has read, the latest first. -/
def State.searchPath (s : State) (id : Nat) (t : Table) (p : Nat) : Nat → List (List (Nat × Nat)) → List Nat →
    Option (List (Nat × Nat)) × List Nat
  | 0, _, rd => (none, rd)
  | n + 1, paths, rd =>
    match s.searchLevel id t p paths [] rd with
    | (some path, _, rd) => (some path, rd)
    | (none, next, rd) => State.searchPath s id t p n next rd

/-- The moves of a path, from its end backward: the new copy is written, then the old one cleared (R177). -/
def State.movePath (s : State) (id : Nat) (t : Table) (p : Nat) : List (Nat × Nat) → State
  | (ob, ow) :: (b, w) :: rest =>
    let e := (s.slots t p b).getD w none
    let s := (s.touch id p [ob, b] false).putSlot id t p ob ow e
    let t := (s.tables.get id).getD t
    let s := s.putSlot id t p b w none
    State.movePath s id ((s.tables.get id).getD t) p ((b, w) :: rest)
  | _ => s

/-- A new entry into its partition (R176 steps 2 to 4): its bucket and slot, or none where it fails. -/
def State.placeEntry (s : State) (id : Nat) (t : Table) (p b0 b1 : Nat) (e : TblEntry) : Option (State × Nat × Nat) :=
  match s.freeSlot t p b0, s.freeSlot t p b1 with
  | some w, _ => some (s.putSlot id t p b0 w (some e), b0, w)
  | none, some w => some (s.putSlot id t p b1 w (some e), b1, w)
  | none, none =>
    let found := s.searchPath id t p 4 (((List.range 4).map fun k => [(b0, k)]) ++ (List.range 4).map fun k => [(b1, k)]) []
    let s := s.readBuckets id p t found.2.dedup false
    match found.1 with
    | some path =>
      let s := s.movePath id t p path
      match path.getLast? with
      | some (b, w) => some (s.putSlot id ((s.tables.get id).getD t) p b w (some e), b, w)
      | none => none
    | none =>
      match s.freeSlot t p t.nb with
      | some w => some (s.putSlot id t p t.nb w (some e), t.nb, w)
      | none => none

/-- A stash entry moves into the freed way `w` of a candidate bucket, the lowest stash slot first (R178; log 25). -/
def State.stashMove (s : State) (id p b w : Nat) : State :=
  match s.tables.get id with
  | none => s
  | some t =>
    if b = t.nb || !t.moveOk p t.nb b || ((s.slots t p b).getD w none).isSome then s
    else
      let cand := ((s.slots t p t.nb).zipIdx).find? fun (e, _) => match e with
        | some e => let (_, x, y) := t.place id e.key; x == b || y == b
        | none => false
      match cand with
      | some (e, i) =>
        let s := (s.touch id p [b] false).putSlot id t p b w e
        s.putSlot id ((s.tables.get id).getD t) p t.nb i none
      | none => s

/-- An entry's slot cleared, and the stash served from it. -/
def State.clearSlot (s : State) (id p b i : Nat) : State :=
  match s.tables.get id with
  | none => s
  | some t => (s.putSlot id t p b i none).stashMove id p b i

/-! ## Lookups (R173 R174) -/

/-- HIT set in every copy found. -/
def State.setHits (s : State) (id p : Nat) (l : List (Nat × Nat × TblEntry)) (f : TblEntry → TblEntry) : State :=
  l.foldl (fun s (b, i, e) => match s.tables.get id with
    | some t => s.putSlot id t p b i (some (f { e with hit := true }))
    | none => s) s

/-- A destination lookup: the action that applies to the frame. One that finds a poisoned line takes the miss action. -/
def State.destLookup (s : State) (id : Nat) (t : Table) (key : Bytes) : State × Nat :=
  let (p, b0, b1) := t.place id key
  let s := s.count Ct.table (partIndex id p) 0
  let bad := [b0, b1, t.nb].any (s.slotsPoisoned t p ·)
  let s := if bad then s.count Ct.table (partIndex id p) 10 else s
  let s := s.readBuckets id p t [b0, b1] true
  match if bad then [] else s.findKey t p b0 b1 key with
  | [] =>
    let s := s.count Ct.table (partIndex id p) 2
    (if t.miss / 2 ^ 60 = 5 then s.count Ct.table (partIndex id p) 3 else s, t.miss)
  | (b, i, e) :: l =>
    let s := s.count Ct.table (partIndex id p) 1
    (s.setHits id p ((b, i, e) :: l) fun e => e, e.action)

/-- The ACTION of a learned entry: PORT, traffic class 0. -/
def learnAction (port : Nat) : Nat := 2 ^ 60 + port

/-- A learned entry found again: HIT, and a station move where the port differs (R174). -/
def relearn (port : Nat) (e : TblEntry) : TblEntry :=
  if e.learned && e.port != port then { e with port := port, action := learnAction port } else e

/-- The engine answers a learn key that is present. -/
def State.relearnFound (s : State) (id p port : Nat) (l : List (Nat × Nat × TblEntry)) : State :=
  let moved := l.any fun (_, _, e) => e.learned && e.port != port
  let s := s.setHits id p l (relearn port)
  if moved then s.count Ct.table (partIndex id p) 6 else s

/-- A learn lookup (R174 R175). A poisoned line holds no entries for it either; it is not counted in POISON_MISS: DESIGN CHOICE, R173 counts
the destination lookup that finds one and R174 says nothing of it (log 57). -/
def State.learnLookup (s : State) (id : Nat) (t : Table) (key : Bytes) (port : Nat) : State :=
  let (p, b0, b1) := t.place id key
  let s := s.readBuckets id p t [b0, b1] true
  match s.findKey t p b0 b1 key with
  | [] =>
    if 1024 ≤ (t.part p).learnQ.length then s.count Ct.table (partIndex id p) 5
    else s.onPart id p fun x => { x with learnQ := x.learnQ ++ [(key, port)] }
  | l => s.relearnFound id p port l

/-- A queued learn request inserted (R175 R176). -/
def doLearnInsert (table part : Nat) (s : State) : State :=
  if s.fatal then s else
  match s.tables.get table with
  | none => s
  | some t =>
    match (t.part part).learnQ with
    | [] => s
    | (key, port) :: rest =>
      let s := s.onPart table part fun x => { x with learnQ := rest }
      let t := (s.tables.get table).getD t
      let (_, b0, b1) := t.place table key
      let s := s.readBuckets table part t [b0, b1] false
      match s.findKey t part b0 b1 key with
      | [] =>
        let e : TblEntry := { key := key, hit := true, isStatic := false, learned := true, port := port, portValid := true,
                              action := learnAction port }
        match s.placeEntry table t part b0 b1 e with
        | some (s, _, _) => s.count Ct.table (partIndex table part) 4
        | none => s.count Ct.table (partIndex table part) 7
      | l => s.relearnFound table part port l

/-- LEARN_INSERT (R175). -/
def execLearnInsert (table part : Nat) (s : State) : Res := .next (doLearnInsert table part s)

/-! ## Entries and keys (R163 R164 R165) -/

/-- The 32 bytes of an entry. -/
def TblEntry.bytes (e : TblEntry) : Bytes :=
  sliceZ e.key 0 20 ++ toLe 2 (1 + 2 * b2n e.hit + 4 * b2n e.isStatic + 8 * b2n e.learned)
    ++ [byte (e.port % 32 + 128 * b2n e.portValid), 0] ++ toLe 8 e.action

/-- An ACTION without reserved bits or kinds. The bits of ARG that a kind gives no meaning are taken as reserved, and TC, which kinds without
one do not read, is not checked: DESIGN CHOICE, R165 says neither (log 57). -/
def actionOk (a : Nat) : Bool :=
  a < 2 ^ 64 && field a 32 25 == 0 &&
  match a / 2 ^ 60 with
  | 0 => a % 2 ^ 32 == 0
  | 1 => decide (a % 2 ^ 32 < 32)
  | 2 => decide (a % 2 ^ 32 < 65536)
  | 3 => decide (a % 2 ^ 32 < 16384)
  | 4 => a % 2 ^ 32 == 0
  | 5 => true
  | _ => false

/-- A KEY is valid for a FORM. -/
def keyOk (form : Nat) (k : Bytes) : Bool :=
  match form with
  | 1 => decide (be k 0 2 < 4096) && allZero k 8 12
  | 2 => byteAt k 1 == 0 && allZero k 6 14
  | 3 => byteAt k 1 == 0 && allZero k 18 2
  | 4 => byteAt k 1 == 0 && allZero k 15 5
  | _ => decide (byteAt k 0 < 6) && byteAt k 1 == 0 && allZero k 6 14

/-- The lookup key of a parsed frame (R163). -/
def Table.keyOf (t : Table) (p : PState) (cls : Nat) : Bytes :=
  let j := if t.level = 4 then p.depth else t.level
  let l := (p.level j).getD (Lvl.opened 0 0)
  let e := if (p.level j).isSome then p.ethUsed j else Lvl.opened 0 0
  let v4 := l.l3Kind == 1
  sliceZ (match t.form with
    | 1 => toBe 2 (e.tci % 4096) ++ toBe 6 e.dmac
    | 2 => [byte cls, 0] ++ toBe 4 (if v4 then l.dst else 0)
    | 3 => [byte cls, 0] ++ toBe 16 (if v4 then 0 else l.dst)
    | 4 => [byte cls, 0] ++ toBe 4 (if v4 then l.src else 0) ++ toBe 4 (if v4 then l.dst else 0) ++ [byte l.proto]
             ++ toBe 2 l.sport ++ toBe 2 l.dport
    | _ => [byte l.encKind, 0] ++ toBe 4 l.tunnel) 0 20

/-- The learn key: VLAN ID and SMAC, zeros where the level has none; none where SMAC is not unicast. -/
def Table.learnKey (t : Table) (p : PState) : Option Bytes :=
  let j := if t.level = 4 then p.depth else t.level
  let e := if (p.level j).isSome then p.ethUsed j else Lvl.opened 0 0
  if castOf e.smac ≠ 0 then none else some (sliceZ (toBe 2 (e.tci % 4096) ++ toBe 6 e.smac) 0 20)

/-! ## Aging (R179 R180) -/

/-- The latest setting whose first instant after its reply is now takes effect; those accepted before it end (R179). -/
def State.takeAging (s : State) (t : Table) : Table :=
  match t.agingPend.reverse.find? fun x => s.onGrid x.1 x.2.1 && decide (x.2.2 < s.gridFt x.1 x.2.1) with
  | some x => { t with period := x.1, phase := x.2.1, agingPend := (t.agingPend.dropWhile (· != x)).drop 1 }
  | none => t

/-- A pass in progress started under another setting than the one in force. -/
def Table.oldPass (t : Table) (x : Partition) : Bool :=
  x.pass.any fun (start, period) => period != t.period || t.period == 0 || start % t.period != t.phase % t.period

/-- A pass starts in every partition at an instant of the period; a pending setting takes effect at its first instant. A partition whose
pass began under an older setting finishes it, and takes its next pass at a later instant: DESIGN CHOICE (R179, log 25). -/
def doAgingPassStart (table : Nat) (s : State) : State :=
  if s.fatal then s else
  match s.tables.get table with
  | none => s
  | some t =>
    let t := s.takeAging t
    if !s.onGrid t.period t.phase then s
    else
      let now := s.gridFt t.period t.phase
      let stays := fun (x : Partition) => t.oldPass x || x.pass == some (now, t.period)
      let late := (List.range 4).filter fun p => (t.part p).pass.isSome && !stays (t.part p)
      let s := s.onTable table fun _ => { t with parts := t.parts.map fun x => if stays x then x else
        { x with pass := some (now, t.period), passNext := if x.pass.isSome then x.passNext else 0 } }
      late.foldl (fun s p => s.count Ct.table (partIndex table p) 9) s

/-- AGING_PASS_START (R180). -/
def execAgingPassStart (table : Nat) (s : State) : Res := .next (doAgingPassStart table s)

/-- The visit of one slot: HIT is cleared, or the entry deleted. -/
def State.visitSlot (s : State) (id p b i : Nat) : State :=
  match s.tables.get id with
  | none => s
  | some t =>
    match (s.slots t p b).getD i none with
    | none => s
    | some e =>
      if e.isStatic then s
      else if e.hit then s.putSlot id t p b i (some { e with hit := false })
      else (s.clearSlot id p b i).count Ct.table (partIndex id p) 8

/-- A sweep visit to the next bucket at a frame boundary, or after the last to the stash at T + P/2. -/
def doAgingVisit (table part line : Nat) (s : State) : State :=
  if s.fatal then s else
  match s.tables.get table with
  | none => s
  | some t =>
    match (t.part part).pass with
    | none => s
    | some (start, period) =>
      let off := if line < t.nb then line * period / (2 * t.nb) else period / 2
      let at' := if line < t.nb then roundUp (start + off) 1024 else start + off
      if line ≠ (t.part part).passNext || t.nb < line || s.ft < at' then s
      else
        let s := (List.range (if line < t.nb then 4 else 8)).foldl (fun s i => s.visitSlot table part line i) (s.meetBuckets t part [line])
        s.onPart table part fun x =>
          if line < t.nb then { x with passNext := line + 1 } else { x with pass := none, passNext := 0 }

/-- AGING_VISIT (R180). -/
def execAgingVisit (table part line : Nat) (s : State) : Res := .next (s.onDie part (doAgingVisit table part line))

/-! ## TBL_CREATE (R160 R161 R167, 05 R140 R146) -/

/-- A table identifier is in use (R161). -/
def State.tableInUse (s : State) (id : Nat) : Bool :=
  s.tables.has id || s.damask.banks.any (fun (_, b) => b.table == id) || s.damask.profileTable == some id

/-- An empty forwarding table (R161). -/
def Table.fresh (log2 form level : Nat) (learn : Bool) (region base : Nat) : Table where
  region := region
  base := base
  log2 := log2
  form := form
  level := level
  learn := learn
  miss := 5 * 2 ^ 60 + 0xFFFFFFFF
  period := 0
  phase := 0
  agingPend := []
  parts := List.replicate 4 { buckets := [], stash := List.replicate 8 none, learnQ := [], pass := none, passNext := 0 }
  iter := none
  iterCount := 0

/-- A forwarding table is to be created: service firmware asks Buckram for a GLOBAL12 region, laid out past those it has asked for and
not got yet, and the command waits for it (01 R27). -/
def State.createForwarding (s : State) (c : Cmd) (id k form : Nat) : State × Option Answer :=
  let asked := s.cmd.mailbox.foldl (fun t r => match r with
    | .region i r _ => t.putRegion i r
    | _ => t) s
  if k < 12 || 26 < k || 128 ≤ form || 5 ≤ field form 3 3 || form % 8 < 1 || 5 < form % 8 || (bit form 6 && form % 8 != 1) then
    (s, some (Answer.just St.badParam))
  else if s.tableInUse id then (s, some (Answer.just St.exist))
  else match asked.layRegion none .device (2 ^ (k + 5) + 1024) with
    | none => (s, some (Answer.just St.noResource))
    | some (i, r) =>
      if s.mailboxFull then (s, some (Answer.just St.busy)) else (s.post (.region i (some r) (some (c, k, form))), none)

/-- The forwarding table of a TBL_CREATE whose region Buckram has made, or not. -/
def State.finishForwarding (s : State) (c : Cmd) (k form : Nat) (region : Option Nat) : State :=
  match region with
  | none => s.reply 0x0401 c false (Answer.just St.noResource)
  | some r =>
    let base := ((s.dram.regions.get r).map (·.base)).getD 0
    (s.onTables fun l => l.set c.target.toNat (Table.fresh k (form % 8) (field form 3 3) (bit form 6) r base)).reply 0x0401 c false
      (Answer.ok (2 ^ k))

/-- A rule bank created. -/
def State.createBank (s : State) (id k form : Nat) : State × Answer :=
  if k < 4 || 15 < k || 0xA0 ≤ form || 4 < form % 8 then (s, Answer.just St.badParam)
  else if s.tableInUse id || s.damask.banks.has (field form 3 2) then (s, Answer.just St.exist)
  else if 32768 < 2 ^ k + ((s.damask.banks.map fun (_, b) => b.size).sum) then (s, Answer.just St.noResource)
  else
    let b : Bank := { table := id, level := form % 8, size := 2 ^ k, rules := [] }
    (s.onDamask fun d => { d with banks := d.banks.set (field form 3 2) b }, Answer.ok (2 ^ k))

/-- The parse profile table created. -/
def State.createProfiles (s : State) (id k : Nat) : State × Answer :=
  if k ≠ 5 then (s, Answer.just St.badParam)
  else if s.tableInUse id || s.damask.profileTable.isSome then (s, Answer.just St.exist)
  else (s.onDamask fun d => { d with profileTable := some id }, Answer.ok 32)

/-- TBL_CREATE. -/
def doTblCreate (c : Cmd) (s : State) : State :=
  s.sf 0x0401 c noDeny true false fun _ s =>
    let id := c.target.toNat
    let k := cmdByte c 16
    let form := cmdByte c 17
    if form = 0xC0 then
      let (s, a) := s.createProfiles id k
      (s, some a)
    else if 0x80 ≤ form then
      let (s, a) := s.createBank id k form
      (s, some a)
    else s.createForwarding c id k form

/-- TBL_CREATE (R160). -/
def execTblCreate (c : Cmd) (s : State) : Res := .next (doTblCreate c s)

/-! ## Commands on tables -/

/-- The bank under a table identifier, with its RANK. -/
def State.bankOf (s : State) (id : Nat) : Option (Nat × Bank) := s.damask.banks.find? fun (_, b) => b.table == id

/-- The parameter block length that an opcode takes on a table of each sort: forwarding, rule bank, profile table. -/
def State.tblLenOk (s : State) (c : Cmd) (fwd bank prof : Nat) : Bool :=
  let id := c.target.toNat
  if s.tables.has id then c.pbLen == fwd
  else if (s.bankOf id).isSome then c.pbLen == bank
  else if s.damask.profileTable == some id then c.pbLen == prof
  else true

/-- The 144-byte record of a rule (05 R147). -/
def Rule.bytes (r : Rule) (i : Nat) : Bytes := toLe 4 i ++ zeros 4 ++ toLe 8 r.action ++ toLe 64 r.value ++ toLe 64 r.mask

/-- The entry of a key in a forwarding table. -/
def State.tblFind (s : State) (id : Nat) (t : Table) (pb : Bytes) : Answer :=
  let (p, b0, b1) := t.place id pb
  match s.findKey t p b0 b1 pb with
  | (_, _, e) :: _ => { Answer.ok 1 with data := e.bytes }
  | [] => Answer.ok 0

/-- The buckets that the search of a key reads. -/
def State.readKey (s : State) (id : Nat) (t : Table) (key : Bytes) : State :=
  let (p, b0, b1) := t.place id key
  s.readBuckets id p t [b0, b1] false

/-- TBL_SEARCH. -/
def State.tblSearch (s : State) (id : Nat) (pb : Bytes) : Answer :=
  match s.tables.get id, s.bankOf id with
  | some t, _ => s.tblFind id t pb
  | none, some (_, b) =>
    match b.hit (le pb 0 64) with
    | some (i, r) => { Answer.ok 1 with data := toLe 4 i ++ zeros 4 ++ toLe 8 r.action ++ zeros 16 }
    | none => Answer.ok 0
  | none, none =>
    if 32 ≤ byteAt pb 0 then Answer.just St.badParam
    else match s.damask.profiles.get (byteAt pb 0) with
      | some e => { Answer.ok 1 with data := e }
      | none => Answer.ok 0

/-- TBL_SEARCH. -/
def doTblSearch (c : Cmd) (s : State) : State :=
  s.sf 0x0402 c noDeny (s.tblLenOk c 20 64 1) true fun _ s =>
    let id := c.target.toNat
    (match s.tables.get id with
      | some t => s.readKey id t c.pb
      | none => s, some (s.tblSearch id c.pb))

/-- TBL_SEARCH (R183). -/
def execTblSearch (c : Cmd) (s : State) : Res := .next (doTblSearch c s)

/-- A cursor of R184: iteration number, partition, stash bit, bucket. -/
def cursorWord (number p : Nat) (stash : Bool) (b : Nat) : Nat := number % 65536 * 2 ^ 48 + p * 2 ^ 30 + 2 ^ 29 * b2n stash + b

/-- The next cursor after a reply at a position, all ones after the last stash. -/
def Table.nextCursor (t : Table) (number p : Nat) (stash : Bool) (b : Nat) : Nat :=
  if stash then (if p = 3 then 2 ^ 64 - 1 else cursorWord number (p + 1) false 0)
  else if b + 32 < t.nb then cursorWord number p false (b + 32) else cursorWord number p true 0

/-- One reply of an iteration at a cursor (R184). -/
def State.tblStep (s : State) (id : Nat) (t : Table) (cursor : Nat) : State × Answer :=
  let number := cursor / 2 ^ 48
  let p := field cursor 30 2
  let stash := bit cursor 29
  let b := cursor % 2 ^ 22
  let lines := if stash then [t.nb] else ((List.range 32).map (b + ·)).filter (· < t.nb)
  let es := lines.flatMap fun x => (s.slots t p x).filterMap fun e => e
  let nxt := t.nextCursor number p stash b
  let s := (s.meetBuckets t p lines).touch id p (lines.filter (· < t.nb)).reverse false
  let s := s.onTable id fun t => { t with iter :=
    if nxt = 2 ^ 64 - 1 then none else some { number := number, cursor := nxt, lastFt := s.ft } }
  (s, { Answer.ok (nxt % 2 ^ 32) (nxt / 2 ^ 32) with data := (es.map (·.bytes)).flatten })

/-- A cursor that names a position of the table, its other bits 0. -/
def Table.cursorOk (t : Table) (cursor : Nat) : Bool :=
  field cursor 32 16 == 0 && field cursor 22 7 == 0
    && (if bit cursor 29 then cursor % 2 ^ 22 == 0 else decide (cursor % 2 ^ 22 < t.nb))

/-- TBL_NEXT on a forwarding table: cursor 0 opens an iteration and closes an earlier one. -/
def State.tblNext (s : State) (id : Nat) (t : Table) (cursor : Nat) : State × Answer :=
  if cursor = 0 then
    let n := (t.iterCount + 1) % 65536
    let s := s.onTable id fun t => { t with iterCount := n }
    s.tblStep id t (cursorWord n 0 false 0)
  else if cursor = 2 ^ 64 - 1 then (s, Answer.just St.badState)
  else if !t.cursorOk cursor then (s, Answer.just St.badParam)
  else match t.iter with
    | some it =>
      if it.number = cursor / 2 ^ 48 ∧ s.ft < it.lastFt + 1000000000 then s.tblStep id t cursor else (s, Answer.just St.badState)
    | none => (s, Answer.just St.badState)

/-- TBL_NEXT on a rule bank (05 R147), and on the profile table (log 25): entries in index order from the cursor. -/
def State.tblNextRules (s : State) (id cursor : Nat) : Answer :=
  match s.bankOf id with
  | some (_, b) =>
    if b.size ≤ cursor then Answer.just St.badParam
    else
      let l := b.rules.filter fun (i, _) => cursor ≤ i
      let out := l.take 28
      let nxt := match l.drop 28 with
        | (i, _) :: _ => i
        | [] => 2 ^ 64 - 1
      { Answer.ok (nxt % 2 ^ 32) (nxt / 2 ^ 32) with data := (out.map fun (i, r) => r.bytes i).flatten }
  | none =>
    if 32 ≤ cursor then Answer.just St.badParam
    else { Answer.ok 0xFFFFFFFF 0xFFFFFFFF with
           data := ((s.damask.profiles.filter fun (i, _) => cursor ≤ i).map (·.2)).flatten }

/-- TBL_NEXT. -/
def doTblNext (c : Cmd) (s : State) : State :=
  s.sf 0x0403 c noDeny true true fun _ s =>
    let id := c.target.toNat
    match s.tables.get id with
    | some t => let (s, a) := s.tblNext id t (cmdLe c 16 8); (s, some a)
    | none => (s, some (s.tblNextRules id (cmdLe c 16 8)))

/-- TBL_NEXT (R184). -/
def execTblNext (c : Cmd) (s : State) : Res := .next (doTblNext c s)

/-- An iteration with no TBL_NEXT for 1 s closes. -/
def doIterationTimeout (table : Nat) (s : State) : State :=
  match s.tables.get table with
  | some t =>
    match t.iter with
    | some it => if it.lastFt + 1000000000 ≤ s.ft then s.onTable table fun t => { t with iter := none } else s
    | none => s
  | none => s

/-- ITERATION_TIMEOUT (R184). -/
def execIterationTimeout (table : Nat) (s : State) : Res := .next (doIterationTimeout table s)

/-- The reply word of an inserted entry's position (R183). -/
def posWord (nb p b i : Nat) : Nat := p * 2 ^ 30 + 2 ^ 29 * b2n (b == nb) + i * 2 ^ 26 + (if b = nb then 0 else b)

/-- TBL_INSERT on a forwarding table (R164 R166 R176 R183). -/
def State.tblInsert (s : State) (id : Nat) (t : Table) (pb : Bytes) : State × Answer :=
  let key := sliceZ pb 0 20
  let ctl := le pb 20 2
  let port := byteAt pb 22
  let action := le pb 24 8
  if !bit ctl 0 || 32 ≤ ctl || field port 5 2 != 0 || byteAt pb 23 != 0 || !actionOk action then (s, Answer.just St.badParam)
  else if bit ctl 4 then
    if !allZero pb 0 20 then (s, Answer.just St.badParam)
    else (s.onTable id fun t => { t with miss := action }, Answer.ok 0xFFFFFFFF)
  else if !keyOk t.form key then (s, Answer.just St.badParam)
  else
    let (p, b0, b1) := t.place id key
    let e : TblEntry := { key := key, hit := true, isStatic := bit ctl 2, learned := false, port := port % 32,
                          portValid := bit port 7, action := action }
    let s := s.readBuckets id p t [b0, b1] false
    match s.findKey t p b0 b1 key with
    | (b, i, _) :: _ => (s.putSlot id t p b i (some e), Answer.ok (posWord t.nb p b i))
    | [] =>
      match s.placeEntry id t p b0 b1 e with
      | some (s, b, i) => (s, Answer.ok (posWord t.nb p b i))
      | none => (s.count Ct.table (partIndex id p) 7, Answer.just St.insertFail)

/-- A change of a rule, a profile or the KRM port, which takes effect at a frame boundary (05 R159). -/
def State.later (s : State) (x : RuleChange) (c : Cmd) (code : Nat) : State × Option Answer :=
  (s.onDamask fun d => { d with changes := d.changes ++ [(x, s.ft, some (c, code))] }, none)

/-- TBL_INSERT on a rule bank (05 R147). -/
def State.ruleInsert (s : State) (rank : Nat) (b : Bank) (c : Cmd) : State × Option Answer :=
  let i := le c.pb 0 4
  let a := le c.pb 8 8
  if b.size ≤ i || le c.pb 4 4 != 0 || 2 ^ 56 ≤ a || field a 14 2 == 3 || 4 < a % 8 then (s, some (Answer.just St.badParam))
  else s.later (.setRule rank i { action := a, value := le c.pb 16 64, mask := le c.pb 80 64 }) c 0x0404

/-- TBL_INSERT on the profile table (05 R140). -/
def State.profileInsert (s : State) (c : Cmd) : State × Option Answer :=
  let b := c.pb
  if 32 ≤ byteAt b 0 || byteAt b 1 < 1 || 8 < byteAt b 1 || 32 ≤ byteAt b 2 || byteAt b 3 != 0 || !allZero b 16 16 then
    (s, some (Answer.just St.badParam))
  else s.later (.setProfile (byteAt b 0) b) c 0x0404

/-- TBL_INSERT. -/
def doTblInsert (c : Cmd) (s : State) : State :=
  s.sf 0x0404 c noDeny (s.tblLenOk c 32 144 32) true fun _ s =>
    let id := c.target.toNat
    match s.tables.get id, s.bankOf id with
    | some t, _ => let (s, a) := s.tblInsert id t c.pb; (s, some a)
    | none, some (rank, b) => s.ruleInsert rank b c
    | none, none => s.profileInsert c

/-- TBL_INSERT (R176). -/
def execTblInsert (c : Cmd) (s : State) : Res := .next (doTblInsert c s)

/-- TBL_DELETE on a forwarding table (R183). -/
def State.tblDelete (s : State) (id : Nat) (t : Table) (key : Bytes) : State × Answer :=
  let (p, b0, b1) := t.place id key
  let s := s.readBuckets id p t [b0, b1] false
  match s.findKey t p b0 b1 key with
  | [] => (s, Answer.ok 0)
  | l => (l.foldl (fun s (b, i, _) => s.clearSlot id p b i) s, Answer.ok 1)

/-- TBL_DELETE. -/
def doTblDelete (c : Cmd) (s : State) : State :=
  s.sf 0x0405 c noDeny (s.tblLenOk c 20 4 1) true fun _ s =>
    let id := c.target.toNat
    match s.tables.get id, s.bankOf id with
    | some t, _ => let (s, a) := s.tblDelete id t c.pb; (s, some a)
    | none, some (rank, b) =>
      if b.size ≤ le c.pb 0 4 then (s, some (Answer.just St.badParam)) else s.later (.delRule rank (le c.pb 0 4)) c 0x0405
    | none, none =>
      if 32 ≤ byteAt c.pb 0 then (s, some (Answer.just St.badParam)) else s.later (.delProfile (byteAt c.pb 0)) c 0x0405

/-- TBL_DELETE (R183). -/
def execTblDelete (c : Cmd) (s : State) : Res := .next (doTblDelete c s)

/-- The entries of a partition's line that a flush deletes. -/
def flushes (port : Nat) (e : TblEntry) : Bool := !e.isStatic && (port == 0xFF || (e.portValid && e.port == port))

/-- A flush of one line: the ways freed. Each position is tested once, as it then stands. -/
def State.flushLine (s : State) (id p b port : Nat) : State × List Nat :=
  (List.range 8).foldl (fun (s, l) i => match s.tables.get id with
    | none => (s, l)
    | some t => match (s.slots t p b).getD i none with
      | some e => if flushes port e then (s.putSlot id t p b i none, l ++ [i]) else (s, l)
      | none => (s, l)) (s, [])

/-- A flush of a partition, which reads every bucket: its listed buckets, its stash, then one stash move for each freed way (R178). -/
def State.flushPart (s : State) (id p port : Nat) : State × Nat :=
  match s.tables.get id with
  | none => (s, 0)
  | some t =>
    let s := s.meetBuckets t p (List.range (t.nb + 1))
    let s := s.touch id p ((List.range (min t.nb 65536)).map (t.nb - 1 - ·)) false
    let (s, l) := ((t.part p).buckets.map (·.1) ++ [t.nb]).foldl
      (fun (s, l) b => let (s, k) := s.flushLine id p b port; (s, l ++ [(b, k)])) (s, [])
    (l.foldl (fun s (b, ws) => ws.foldl (fun s w => s.stashMove id p b w) s) s, (l.map (·.2.length)).sum)

/-- TBL_FLUSH_BY_PORT. -/
def doTblFlushByPort (c : Cmd) (s : State) : State :=
  s.sf 0x0406 c noDeny true true fun _ s =>
    let id := c.target.toNat
    let port := cmdByte c 16
    if 32 ≤ port && port != 0xFF then (s, some (Answer.just St.badParam))
    else if !s.tables.has id then (s, some (Answer.just St.badState))
    else
      let (s, n) := (List.range 4).foldl (fun (s, n) p => let (s, k) := s.flushPart id p port; (s, n + k)) (s, 0)
      (s, some (Answer.ok n))

/-- TBL_FLUSH_BY_PORT (R185). -/
def execTblFlushByPort (c : Cmd) (s : State) : Res := .next (doTblFlushByPort c s)

/-- TBL_AGING_SET: period 0 turns aging off at once, another period takes effect at its first instant (R179). -/
def doTblAgingSet (c : Cmd) (s : State) : State :=
  s.sf 0x0407 c noDeny true true fun _ s =>
    let id := c.target.toNat
    let p := cmdLe c 16 8
    let f := cmdLe c 24 8
    if p ≠ 0 && (p < 1000000000 || 10 ^ 15 < p || p ≤ f) then (s, some (Answer.just St.badParam))
    else if !s.tables.has id then (s, some (Answer.just St.badState))
    else if p = 0 then (s.onTable id fun t => { t with period := 0, phase := 0, agingPend := [] }, some Answer.ok)
    else (s.onTable id fun t => { t with agingPend := t.agingPend ++ [(p, f, s.ft)] }, some Answer.ok)

/-- TBL_AGING_SET (R179). -/
def execTblAgingSet (c : Cmd) (s : State) : Res := .next (doTblAgingSet c s)

/-! ## Effect points (05 R159) -/

/-- A change applied: the DETAIL0 of its reply. -/
def State.applyChange (s : State) : RuleChange → State × Nat
  | .setRule rank i r =>
    (s.onDamask fun d => { d with banks := d.banks.mod rank fun b => { b with rules := b.rules.set i r } }, i)
  | .delRule rank i =>
    (s.onDamask fun d => { d with banks := d.banks.mod rank fun b => { b with rules := b.rules.del i } },
     b2n ((s.damask.banks.get rank).any fun b => b.rules.has i))
  | .setProfile p b => (s.onDamask fun d => { d with profiles := d.profiles.set p b }, p)
  | .delProfile p => (s.onDamask fun d => { d with profiles := d.profiles.del p }, b2n (s.damask.profiles.has p))
  | .krmPort p => (s.onDamask fun d => { d with krmPort := p }, 0)

/-- Every change accepted before takes effect; frames received before keep the version of their timestamp. -/
def doRuleChangeEffect (s : State) : State :=
  if s.fatal then s else
  let due := s.damask.changes.filter fun (_, t, _) => s.dueFrame t
  if due.isEmpty then s
  else
    let old := s.damask.version
    let s := s.onTwill fun w => { w with frames := w.frames.map fun (k, f) =>
      (k, if f.frozen.isNone && f.ft < s.frameFt then { f with frozen := some old } else f) }
    let s := s.onDamask fun d => { d with changes := d.changes.filter fun (_, t, _) => !s.dueFrame t }
    due.foldl (fun s (x, _, c) =>
      let (s, d0) := s.applyChange x
      match c with
      | some (c, code) => s.reply code c false { Answer.ok d0 with ft := some s.frameFt }
      | none => s) s

/-- RULE_CHANGE_EFFECT (05 R159). -/
def execRuleChangeEffect (s : State) : Res := .next (doRuleChangeEffect s)

/-- KRM_CONFIG (05 R159). -/
def doKrmConfig (c : Cmd) (s : State) : State :=
  s.sf 0x0607 c noDeny true true fun _ s => s.later (.krmPort (cmdLe c 16 2)) c 0x0607

/-- KRM_CONFIG (05 R159). -/
def execKrmConfig (c : Cmd) (s : State) : Res := .next (doKrmConfig c s)

end Sys2Proof.Machine
end

