-- ==== Sys2Proof/Machine/Frames.lean ====
section
/-! DEFINITION. What frames pass through on a tile: message channels (12 R342 to R348), packet sampling (18 R508 to R510),
the slow path (05 R152, 12 R349) and the Twill queues with their admission (07 R187 R188). -/

namespace Sys2Proof.Machine

/-! ## Message channels -/

/-- Committed words of a channel. -/
def Chan.committed (c : Chan) : Nat := (c.msgs.map fun (_, w) => w.length).sum

/-- Free words of a channel (12 R346). -/
def Chan.free (c : Chan) : Nat := 2 ^ c.logDepth - c.committed - c.reserved

/-- The status word of a message received (12 R348). -/
def recvWord (src : Nat) (words : List W64) : Nat := (words.length - 1) * 256 + src * 65536

/-- A message committed: the reader that blocked first takes it, else the channel holds it (12 R345 R347). -/
def State.commitMsg (s : State) (ch src : Nat) (words : List W64) : State :=
  match s.chan ch with
  | none => s
  | some c =>
    match c.readers with
    | r :: _ => (s.onThread r fun t => { t with recv := words }).unblock r (recvWord src words) 7
    | [] => s.onChan ch fun c => { c with msgs := c.msgs ++ [(src, words)] }

/-- Threads refused for want of space are told when it is there (12 R346). -/
def State.spaceCheck (s : State) (ch : Nat) : State :=
  match s.chan ch with
  | none => s
  | some c =>
    let l := s.cores.threads.filter fun (_, t) => match t.spaceWatch with
      | some (k, n) => k == ch && n ≤ c.free
      | none => false
    l.foldl (fun s (tid, _) => (s.onThread tid fun t => { t with spaceWatch := none }).postEvent tid 30) s

/-- The oldest message of a channel taken. -/
def State.takeMsg (s : State) (ch : Nat) : State × Option (Nat × List W64) :=
  match s.chan ch with
  | none => (s, none)
  | some c =>
    match c.msgs with
    | [] => (s, none)
    | m :: rest => ((s.onChan ch fun c => { c with msgs := rest }).spaceCheck ch, some m)

/-! ## Sampling (12 R358, 18 R508 to R510) -/

/-- One step of the sampling LFSR, in the form that the device uses (log 28). -/
def lfsrNext (v : Nat) : Nat :=
  if Config.lfsrGalois then (if v % 2 = 1 then (v / 2) ^^^ 0x80200003 else v / 2)
  else v * 2 % 2 ^ 32 + b2n ((bit v 31 != bit v 21) != (bit v 1 != bit v 0))

/-- The received frames of a tile that are tagged and not yet disposed of. -/
def State.taggedOn (s : State) (tile : Nat) : Nat :=
  (s.twill.frames.filter fun (_, f) => f.sampled && f.tile == tile).length
    + ((s.twill.queues.map fun q => (q.frames.filter fun x => match x.rx with
        | some f => f.sampled && f.tile == tile
        | none => false).length).sum)

/-- A frame enters Damask: the LFSR advances, and the frame is tagged or the tag skipped. -/
def State.sampleTag (s : State) (tile : Nat) : State × Bool :=
  let k := s.ct.pktK.getD tile 0
  if k = 0 then (s, false)
  else
    let v := lfsrNext (s.ct.pktLfsr.getD tile 0)
    let s := s.onCt fun c => { c with pktLfsr := c.pktLfsr.set tile v }
    if v % 2 ^ k ≠ 0 then (s, false)
    else if 64 ≤ s.taggedOn tile then (s.count Ct.cores tile 35, false)
    else (s, true)

/-- A number that saturates at `n` bytes. -/
def toLeSat (n v : Nat) : Bytes := toLe n (min v (256 ^ n - 1))

/-- The record of a tagged frame at its disposal (18 R509 R510). -/
def State.sampleRec (s : State) (f : RxFrame) (out drop dest : Nat) : State :=
  if !f.sampled then s
  else
    let cls := (f.parse.map (·.cls)).getD 0
    let pfl := match f.parse with
      | some p => p.colour + 4 * p.verdict
      | none => 0
    let rec' := toLe 8 f.ft ++ toLeSat 2 (f.parsedAt - f.ft) ++ toLeSat 2 (f.tableAt - f.ft)
      ++ toLeSat 2 (f.admitAt - f.ft) ++ toLeSat 4 (s.ft - f.ft) ++ toLe 2 f.bytes.length ++ toLe 4 f.hash
      ++ [byte (f.port + 32 * f.tile), byte cls, byte pfl, byte ((f.parse.map (·.reason)).getD 0), byte out, byte drop]
      ++ toLe 2 dest
    if 2048 ≤ (s.ct.pktBuf.getD f.tile []).length then s.count Ct.cores f.tile 36
    else s.onCt fun c => { c with pktBuf := modAt c.pktBuf f.tile (· ++ [rec']) }

/-- A received frame is gone from the packet buffer, and what Calico was to open of it. -/
def State.delFrame (s : State) (n : Nat) : State :=
  (s.onTwill fun w => { w with frames := w.frames.del n }).onCy fun y => { y with
    inlineWork := y.inlineWork.filter (·.frame != some n) }

/-- A received frame changed. -/
def State.onFrameRx (s : State) (n : Nat) (g : RxFrame → RxFrame) : State :=
  s.onTwill fun w => { w with frames := w.frames.mod n g }

/-- A received frame dropped, with the counter of its drop (18 R509: kind 0 below 32, kind 2 from 32 on). -/
def State.dropRx (s : State) (n : Nat) (f : RxFrame) (drop : Nat) : State :=
  let s := if drop < 32 then s.count Ct.damask f.tile drop else s.count Ct.twill f.tile (drop - 32)
  (s.sampleRec f 6 drop 0).delFrame n

/-! ## The slow path (05 R152, 12 R349) -/

/-- Handle, address and length of a slow-path frame. -/
def RxFrame.spSlot (f : RxFrame) : Option (Nat × Nat × Nat) :=
  match f.stage with
  | .slowPath h a => some (h, a, f.bytes.length)
  | _ => none

/-- The slow-path frames of a tile. -/
def State.spSlots (s : State) (tile : Nat) : List (Nat × Nat × Nat) :=
  (s.twill.frames.filter fun (_, f) => f.tile == tile).filterMap fun (_, f) => f.spSlot

/-- A free place of the packet buffer for a slow-path frame, where the device puts it (log 15). -/
def State.spPlace (s : State) (tile len : Nat) : Option Nat :=
  let l := s.spSlots tile
  (0 :: l.map fun (_, a, n) => roundUp (a + n) 64).find? fun a =>
    a + len ≤ 0x8000000 && l.all fun (_, b, n) => b + n ≤ a || a + len ≤ b

/-- Device address of a place of a tile's packet buffer. -/
def bufAddr (tile a : Nat) : Nat := 0xF00000000000 + tile * 0x100000000 + a

/-- Eight bytes each as words. -/
def wordsOf (b : Bytes) (n : Nat) : List W64 := (List.range n).map fun i => BitVec.ofNat 64 (le b (8 * i) 8)

/-- A frame goes to the slow path with a reason, or is dropped in SP_DROP. -/
def State.slowPath (s : State) (n : Nat) (f : RxFrame) (reason : Nat) : State :=
  let ch := f.tile * 2048
  let s := if 1 ≤ reason ∧ reason ≤ 14 then s.count Ct.damask f.tile reason else s
  let f := { f with parse := f.parse.map fun p => { p with reason := reason, result := splice p.result 2 [byte reason] } }
  let used := (s.spSlots f.tile).map (·.1)
  match s.chan ch, (List.range 16384).find? (fun h => !used.contains h), s.spPlace f.tile f.bytes.length with
  | some c, some h, some a =>
    if c.en && 9 ≤ c.free then
      let s := s.sampleRec f 5 0 0
      let s := s.onTwill fun w => { w with frames := w.frames.set n { f with sampled := false, stage := .slowPath h a } }
      let s := (s.pokeBytes (bufAddr f.tile a) f.bytes).cleanLines (bufAddr f.tile a) f.bytes.length
      s.commitMsg ch 0x8000 (BitVec.ofNat 64 (bufAddr f.tile a + h * 2 ^ 48)
        :: wordsOf ((f.parse.map (·.result)).getD []) 8)
    else s.dropRx n f 17
  | _, _, _ => s.dropRx n f 17

/-- A new number for a frame. -/
def State.newFrame (s : State) (f : RxFrame) : State × Nat :=
  (s.onTwill fun w => { w with frames := w.frames.set w.nextFrame f, nextFrame := w.nextFrame + 1 }, s.twill.nextFrame)

/-- The slow-path copy of a frame under COPY_TO_SLOW (05 R150). -/
def State.slowCopy (s : State) (f : RxFrame) : State :=
  let f := { f with sampled := false }
  let (s, n) := s.newFrame f
  s.slowPath n f 0x0E

/-! ## Twill queues (07 R187 R188) -/

/-- A Twill queue of a tile. -/
def State.twq (s : State) (tile : Nat) (k : TwKey) : Option TwQueue :=
  s.twill.queues.find? fun q => q.tile == tile && q.key == k

/-- An empty Twill queue. -/
def TwQueue.fresh (tile : Nat) (k : TwKey) : TwQueue where
  tile := tile
  key := k
  frames := []
  maxDepth := 0
  maxDelay := 0
  sumDelay := 0
  left := 0
  latched := zeros 16

/-- A Twill queue changed; one that is not listed holds nothing. -/
def State.onTwq (s : State) (tile : Nat) (k : TwKey) (f : TwQueue → TwQueue) : State :=
  let l := if s.twill.queues.any (fun q => q.tile == tile && q.key == k) then
      s.twill.queues.map fun q => if q.tile == tile && q.key == k then f q else q
    else s.twill.queues ++ [f (TwQueue.fresh tile k)]
  s.onTwill fun w => { w with queues := l }

/-- The frames of a Twill queue. -/
def State.twFrames (s : State) (tile : Nat) (k : TwKey) : List TwFrame :=
  match s.twq tile k with
  | some q => q.frames
  | none => []

/-- Of some Twill queues the one whose head was started first: the head's operation and the tile. -/
def oldestHead : List TwQueue → Option (Nat × Nat)
  | [] => none
  | q :: l => match q.frames, oldestHead l with
    | [], r => r
    | f :: _, some (n, t) => if n < f.op.getD 0 then some (n, t) else some (f.op.getD 0, q.tile)
    | f :: _, none => some (f.op.getD 0, q.tile)

/-- The tile that holds the oldest frame of a queue's source queues: a tile that was its home before finishes what was started there (03
R91), and the frames of one queue go in index order (R191). The queue's home where none holds a frame. -/
def State.sourceTile (s : State) (qid home : Nat) : Nat :=
  ((oldestHead (s.twill.queues.filter (·.key == .source qid))).map (·.2)).getD home

/-- A source queue of a work queue holds a frame. -/
def State.sourceHolds (s : State) (qid : Nat) : Bool := s.twill.queues.any fun q => q.key == .source qid && !q.frames.isEmpty

/-- A frame among those of a source queue, in the order in which they were started. -/
def byStart (f : TwFrame) : List TwFrame → List TwFrame
  | [] => [f]
  | g :: l => if f.op.getD 0 < g.op.getD 0 then f :: g :: l else g :: byStart f l

/-- Two Twill queues of one key made one, on the second one's tile. -/
def TwQueue.merge (a b : TwQueue) : TwQueue :=
  { b with frames := a.frames.foldl (fun l f => byStart f l) b.frames, maxDepth := max a.maxDepth b.maxDepth, maxDelay := max a.maxDelay b.maxDelay
           sumDelay := a.sumDelay + b.sumDelay, left := a.left + b.left
           latched := if b.latched = zeros 16 then a.latched else b.latched }

/-- A source queue with its frames and launches is carried to another tile (16 R452). -/
def State.carrySource (s : State) (qid src dst : Nat) : State :=
  match s.twq src (.source qid) with
  | none => s
  | some a =>
    if src = dst then s
    else
      let s := s.onTwill fun w => { w with
        queues := w.queues.filter fun q => !(q.tile == src && q.key == .source qid)
        calendar := w.calendar.map fun x => match x.obj with
          | .launch q _ => if q = qid ∧ x.tile = src then { x with tile := dst } else x
          | .shaper _ => x }
      s.onTwq dst (.source qid) fun b => a.merge b

/-- Bytes of frames. -/
def frameBytes (l : List TwFrame) : Nat := (l.map (·.bytes.length)).sum

/-- The byte limit of a queue: LIMIT for a source queue, 8 MiB for a port queue, 1 MiB otherwise. -/
def State.twLimit (s : State) : TwKey → Nat
  | .source q => match s.queue q with
    | some x => x.shaper.limit
    | none => 1048576
  | .port _ _ => 8388608
  | _ => 1048576

/-- The QDROP word of a queue kind (18 R499). -/
def TwKey.dropWord : TwKey → Nat
  | .source _ => 0
  | .port _ _ => 1
  | .dg _ => 2
  | .relay _ => 3

/-- Bytes in a tile's packet buffer: received frames, and queued frames, a flooded frame once (07 R208). -/
def State.bufUse (s : State) (tile : Nat) : Nat :=
  let fs := (s.twill.queues.filter (·.tile == tile)).flatMap (·.frames)
  let ids := (fs.filterMap (·.copy)).dedup
  ((s.twill.frames.filter fun (_, f) => f.tile == tile).map fun (_, f) => f.bytes.length).sum
    + frameBytes (fs.filter (·.copy.isNone))
    + (ids.map fun i => ((fs.find? (·.copy == some i)).map (·.bytes.length)).getD 0).sum

/-- Frames of a PKT_TX queue that have started and are not yet admitted: they hold the room that R189 saw for them. -/
def State.txReserved (s : State) (k : TwKey) : Nat :=
  ((s.qm.ops.filter fun (_, o) => !o.admitted && (match s.queue o.qid with
      | some q => q.cls == .pktTx
      | none => false) && (match k, o.dest with
        | .port n t, .port m u => n == m && t == u
        | .dg d, .dg e _ => d == e
        | .source q, _ => o.qid == q
        | _, _ => false)).map fun (_, o) => fragTotal o.frags).sum

/-- Why a frame would not be admitted to a queue: the Twill counter word. `inBuf`: its bytes already lie in that buffer. -/
def State.admitFail (s : State) (tile : Nat) (k : TwKey) (len colour : Nat) (inBuf : Bool) : Option Nat :=
  let b := frameBytes (s.twFrames tile k)
  if s.twLimit k < b + len then some k.dropWord
  else if colour = 1 ∧ s.twLimit k / 2 < b then some 4
  else if 0x8000000 < s.bufUse tile + (if inBuf then 0 else len) then some 5
  else none

/-- A frame enters a Twill queue. -/
def State.enqueue (s : State) (tile : Nat) (k : TwKey) (f : TwFrame) : State :=
  s.onTwq tile k fun q =>
    let fs := q.frames ++ [{ f with admitFt := s.ft, rx := f.rx.map fun r => { r with admitAt := s.ft } }]
    { q with frames := fs, maxDepth := max q.maxDepth (frameBytes fs) }

/-- The head of a Twill queue leaves it, with its delay. -/
def State.popTw (s : State) (tile : Nat) (k : TwKey) : State :=
  s.onTwq tile k fun q => match q.frames with
    | [] => q
    | f :: rest =>
      let d := s.ft - f.admitFt
      { q with frames := rest, maxDelay := max q.maxDelay d, sumDelay := q.sumDelay + d, left := q.left + 1 }

/-- The head of a Twill queue is discarded: it leaves without a delay that R228 counts. -/
def State.dropTw (s : State) (tile : Nat) (k : TwKey) : State :=
  s.onTwq tile k fun q => { q with frames := q.frames.drop 1 }

/-- A logical port's link is up. -/
def State.linkUp (s : State) (n : Nat) : Bool := (s.twill.logical.getD n LogPort.reset).up

/-- A VALID record of a group that is not SELF (07 R211). -/
def State.dgRecord (s : State) (d : Nat) : Option DgRec :=
  match s.twill.dgs.get d with
  | some r => if r.self then none else some r
  | none => none

/-- A PKT_TX operation ends: frame bytes sent, instant and fraction of the timestamp point, logical port. -/
def State.txEnd (s : State) (n status bytes ft frac port : Nat) : State :=
  match s.op n with
  | none => s
  | some o =>
    let ts := match s.queue o.qid with
      | some q => q.ts4400
      | none => false
    let (f, tail) := pktStamp ts ft frac (zeros 4 ++ toLe 2 port)
    s.finishOp n status bytes 0 f tail

/-- A queued copy is disposed of: its record is made once for all copies (07 R208, 18 R509). -/
def State.sampleTw (s : State) (f : TwFrame) (out drop dest : Nat) : State :=
  match f.rx with
  | none => s
  | some r =>
    if !r.sampled then s
    else
      let s := s.sampleRec r out drop dest
      match f.copy with
      | none => s
      | some i =>
        let plain := fun x : TwFrame =>
          if x.copy == some i then { x with rx := x.rx.map fun r => { r with sampled := false } } else x
        s.onTwill fun w => { w with queues := w.queues.map fun q => { q with frames := q.frames.map plain } }

/-- A queued frame discarded, with a Twill counter word; a PKT_TX frame's operation ends with a status. -/
def State.discardTw (s : State) (tile : Nat) (f : TwFrame) (word status : Nat) : State :=
  let s := (s.count Ct.twill tile word).sampleTw f 6 (32 + word) 0
  match f.op with
  | some n => s.txEnd n status 0 s.ft 0 0
  | none => s

/-- Every frame of the queues that a test picks is discarded. -/
def State.discardQueues (s : State) (pick : TwKey → Bool) (word status : Nat) : State :=
  let l := s.twill.queues.filter fun q => pick q.key
  let s := s.onTwill fun w => { w with queues := w.queues.map fun q => if pick q.key then { q with frames := [] } else q }
  l.foldl (fun s q => q.frames.foldl (fun s f => s.discardTw q.tile f word status) s) s

/-! ## The calendar (07 R192 to R194) -/

/-- The lowest level of the wheel whose reach from an instant covers E, and the bin; none beyond the reach of level 2. -/
def calPlace (now e : Nat) : Option (Nat × Nat) :=
  let d := e - now
  if d < 4096 then some (0, e / 4 % 1024)
  else if d < 4194304 then some (1, e / 4096 % 1024)
  else if d < 4294967296 then some (2, e / 4194304 % 1024)
  else none

/-- An entry is entered. -/
def State.calEnter (s : State) (e : Nat) (o : CalObj) (tile : Nat) : State :=
  let x : CalEntry := { e := e, obj := o, tile := tile, place := calPlace s.ft e }
  s.onTwill fun w => { w with calendar := w.calendar ++ [x] }

/-- The bin of an entry has opened, or its E has come within reach of the wheel. -/
def CalEntry.opened (x : CalEntry) (now : Nat) : Bool :=
  match x.place with
  | some (0, _) => false
  | some (1, _) => decide (x.e / 4096 * 4096 ≤ now)
  | some _ => decide (x.e / 4194304 * 4194304 ≤ now)
  | none => (calPlace now x.e).isSome

/-- Entries whose bin has opened move down, and those of the overflow list that have come within reach are placed. -/
def State.calSettle (s : State) : State :=
  let now := s.ft
  s.onTwill fun w => { w with calendar := w.calendar.map fun x => if x.opened now then { x with place := calPlace now x.e } else x }

/-- After a step of FT every entry is placed anew; those beyond the reach enter the overflow list (R194). -/
def State.calReplace (s : State) : State :=
  let now := s.ft
  s.onTwill fun w => { w with calendar := w.calendar.map fun x => { x with place := calPlace now x.e } }

/-- The source queue of a queue that ceases to exist: its frames are dropped and counted in NO_QUEUE (log 34). -/
def State.dropSource (s : State) (qid : Nat) : State :=
  let s := s.discardQueues (· == .source qid) 6 St.abortedReset
  s.onTwill fun w => { w with
    queues := w.queues.filter (·.key != .source qid)
    calendar := w.calendar.filter fun x => match x.obj with
      | .launch q _ => q != qid
      | .shaper q => q != qid }

end Sys2Proof.Machine
end

