-- ==== Sys2Proof/Machine/Rings.lean ====
section
/-! DEFINITION. Rings (03_rings.md): doorbells, entry fetching, completions, write-back blocks, and the commands of class
QUEUE (04 R130 R131) with the home move of R91. -/

namespace Sys2Proof.Machine

/-! ## Doorbells (R94 to R100) -/

/-- Outstanding fetches of a queue come too late: their data is not used (R100 R106). -/
def State.killFetches (s : State) (qid : Nat) : State :=
  s.onHost fun h => { h with reads := h.reads.map fun (t, r) => match r.why with
    | .entries q _ _ => if q = qid then (t, { r with dead := true }) else (t, r)
    | .fragTable q _ => if q = qid then (t, { r with dead := true }) else (t, r)
    | _ => (t, r) }

/-- A doorbell write refused by the isolation checks: dropped, counted and reported (R95). -/
def State.dbReject (s : State) (w : BarWrite) : State :=
  (s.count Ct.func (fnWord w.fn) 0).raise (sourceNo (6 + w.fn.port % 2) 0) (fnWord w.fn) w.offset (.own (.function w.fn))

/-- The queue that a doorbell write may ring: bound to the writing function and page, or to the slice of a BAR2 page. The functions have
BARs 0, 2 and 4: `bar` 1 is service firmware's own doorbell for its FIRMWARE queues (DESIGN CHOICE: the spec gives those rings a
doorbell and no place for it, log 50). -/
def State.dbTarget (s : State) (w : BarWrite) : Option Queue :=
  if w.size != 8 || w.offset % 8 != 0 then none
  else match s.queue (dbQid w) with
    | none => none
    | some q =>
      if q.maker.isSome then none
      else if w.bar = 1 then (if q.owner == .firmware then some q else none)
      else if w.bar = 0 then
        if 0x100000 ≤ w.offset && w.offset < 0x100000 + 3840 * 4096
           && q.owner == .function w.fn && q.dbPage == (w.offset - 0x100000) / 4096 then some q else none
      else if w.bar = 2 then
        match s.slice (w.offset / 4096) with
        | some x => if x.mgr == w.fn && x.live && q.owner == .slice (w.offset / 4096) w.fn then some q else none
        | none => none
      else none

/-- A function takes writes to its BARs (13 R368 R383). -/
def State.barOpen (s : State) (f : FnRef) : Bool :=
  match s.fn f with
  | some x => s.fnPresent f && x.mse && !x.d3hot && x.flrAt.isNone
  | none => false

/-- Free bytes of a host error, from one of its values on. -/
def anyBytes (n k len : Nat) : Bytes := (List.range len).map fun i => byte (Config.freeAt n (k + i) % 256)

/-- A completion of any content on its way to a CQ (00 R6). -/
def anyCompl (n k qid : Nat) : Compl where
  qid := qid
  ok := false
  suppressed := false
  bytes := anyBytes n k 32
  data := none
  event := true
  tag := none

/-- Some of a list, with any completions after them (00 R6). -/
def anyCompls (n k qid : Nat) (l : List Compl) : List Compl :=
  ((l.zipIdx.filter fun (_, i) => Config.freeAt n (k + i) % 2 == 1).map (·.1))
    ++ (List.range (Config.freeAt n (k + 0x7FFF) % 32769)).map fun i => anyCompl n (k + 0x8000 + 32 * i) qid

/-- Any state of a queue (00 R6): its indices, its state, what it has cached and whether its head is checked, its completions, its full
episode, and its write-back block. What binds it (its class, ring, owner, home, CQ and vector), which Buckram alone changes, and the commands
that wait on it are as they were. -/
def Queue.anyState (q : Queue) (n qid : Nat) : Queue :=
  let k := qid * 2 ^ 24
  let v := fun i => Config.freeAt n (k + i)
  let c := v 1 % 65536
  { q with
    p := v 0 % 65536, c := c, f := v 2 % 65536
    state := match v 3 % 4 with
      | 0 => .disabled
      | 1 => .enabled
      | 2 => .draining
      | _ => .idle
    cache := (List.range 64).foldl (fun m i => if v (64 + i) % 2 = 1 then m.set ((c + i) % 65536) (anyBytes n (k + 0x1000 + 64 * i) 64) else m) []
    failed := [], fetching := 0, headOk := v 4 % 2 == 1, headReading := false, headEnd := none
    headFrags := if v 5 % 2 = 1 then some (fragTable (anyBytes n (k + 0x2000) (16 * (v 6 % 257))) (v 6 % 257)) else none
    nextDone := v 7 % 65536
    waitDone := (List.range 64).foldl (fun m i => if v (128 + i) % 2 = 1 then m.set ((c + i) % 65536) (anyCompl n (k + 0x4000 + 32 * i) qid) else m) []
    due := anyCompls n (k + 0x100000) qid q.due
    held := anyCompls n (k + 0x300000) qid q.held
    episode := v 8 % 2 == 1, armed := v 9 % 2 == 1, wbDue := v 10 % 2 == 1, wbP := v 11 % 65536, wbShown := anyBytes n (k + 256) 16
    replayHead := if v 12 % 2 = 1 then some (v 13 % 65536) else none }

/-- Any state of what a started operation holds in hand (00 R6): its cookie, its data, and whether and how it fails. -/
def Op.anyState (o : Op) (n num : Nat) : Op :=
  let k := 2 ^ 48 + num * 2 ^ 32
  { o with
    entry := splice o.entry 4 (anyBytes n k 4)
    got := o.got.zipIdx.map fun ((off, b), i) => (off, anyBytes n (k + 2 ^ 8 + i * 2 ^ 16) b.length)
    failAt := if Config.freeAt n (k + 5) % 2 = 1 then some (0, Config.freeAt n (k + 6) % 65536) else o.failAt }

/-- A host error of an owner: any state of its own queues, of the operations that they have started, and of the host memory it reaches results,
until its reset, and nothing else is touched (00 R6 R7; log 4). -/
def State.ownerHostError (s : State) (w : Owner) : State :=
  let n := s.free
  let mine := (s.qm.queues.filter fun (_, x) => x.owner == w).map (·.1)
  let s := mine.foldl State.killFetches s
  let s := mine.foldl (fun s k => s.onQueue k fun x => x.anyState n k) s
  let ops := (s.qm.ops.filter fun (_, o) => mine.contains o.qid).map (·.1)
  let s := (ops.foldl (fun s k => s.onOp k fun o => o.anyState n k) s).useFree
  match s.refOf w with
  | some r => s.emit (.hostAny r)
  | none => s

/-- A host error on a queue (03 R68). -/
def State.queueHostError (s : State) (qid : Nat) : State :=
  match s.queue qid with
  | none => s
  | some q => s.ownerHostError q.owner

/-- Owners that a test picks and that have work in flight: a work queue that is neither IDLE nor DISABLED. Their reset or removal is a host
error (13 R392): their queues go with it, and any host memory that they reach may hold any value. -/
def State.unquiesced (s : State) (p : Owner → Bool) : State :=
  let l := ((s.qm.queues.filter fun (_, q) => q.cls != .cq && p q.owner && (q.state == .enabled || q.state == .draining)).map (·.2.owner)).dedup
  l.foldl (fun s w => match s.refOf w with
    | some r => s.emit (.hostAny r)
    | none => s) s

/-- A doorbell of a work queue (R97 R100): the latest INDEX governs; INV drops what is cached and not started. -/
def State.ringWork (s : State) (q : Queue) (w : BarWrite) : State :=
  let qid := dbQid w
  if q.size < (dbIndex w + 65536 - q.c) % 65536 then s.queueHostError qid
  else
    let s := if dbInv w then (s.killFetches qid).onQueue qid Queue.dropCached else s
    (s.onQueue qid fun q => { q with p := dbIndex w }).fetch qid

/-- A CQ doorbell (R98 R105): the new C returns space, held completions go out, ARM arms the interrupt (18 R496). -/
def State.ringCq (s : State) (q : Queue) (w : BarWrite) : State :=
  let qid := dbQid w
  if q.used < (dbIndex w + 65536 - q.c) % 65536 then s.queueHostError qid
  else
    let s := s.onQueue qid fun q => { q with c := dbIndex w, armed := q.armed || dbArm w }
    let s := if s.ownerHeld q.owner then s else s.drainHeld qid (q.held.length + 1)
    s.cqFire qid

/-- A doorbell write, checked and applied. -/
def State.doorbell (s : State) (w : BarWrite) : State :=
  if !s.barOpen w.fn || s.fatal then s
  else match s.dbTarget w with
    | none => s.dbReject w
    | some q =>
      if 2 ^ 34 ≤ w.value.toNat then s.queueHostError (dbQid w)
      else if q.state != .enabled then s.count Ct.func (fnWord w.fn) 1
      else if q.cls = .cq then s.ringCq q w
      else s.ringWork q w

/-- A doorbell of a work queue. -/
def doDoorbellWork (w : BarWrite) (s : State) : State := s.doorbell w
/-- DOORBELL_WORK (R97). -/
def execDoorbellWork (w : BarWrite) (s : State) : Res := .next (doDoorbellWork w s)

/-- A doorbell that carries INV. -/
def doDoorbellInv (w : BarWrite) (s : State) : State := s.doorbell w
/-- DOORBELL_INV (R100). -/
def execDoorbellInv (w : BarWrite) (s : State) : Res := .next (doDoorbellInv w s)

/-- A CQ doorbell. -/
def doDoorbellCq (w : BarWrite) (s : State) : State := s.doorbell w
/-- DOORBELL_CQ (R98). -/
def execDoorbellCq (w : BarWrite) (s : State) : Res := .next (doDoorbellCq w s)

/-- A CQ doorbell with ARM. -/
def doDoorbellArm (w : BarWrite) (s : State) : State := s.doorbell w
/-- DOORBELL_ARM (18 R496). -/
def execDoorbellArm (w : BarWrite) (s : State) : Res := .next (doDoorbellArm w s)

/-! ## Fetching (R99 R103) -/

/-- Fetched entries enter the cache. -/
def State.entriesArrive (s : State) (qid idx n : Nat) (data : Bytes) : State :=
  let s := s.onQueue qid fun q => { q with
    fetching := q.fetching - n
    cache := (List.range n).foldl (fun c k => c.set ((idx + k) % 65536) (sliceZ data (64 * k) 64)) q.cache }
  s.fetch qid

/-- The failed entries at the head of a queue end: COOKIE 0, BYTES 0, their index in bytes 12-13 (R103). -/
def State.endFailed (s : State) (qid : Nat) : Nat → State
  | 0 => s
  | n + 1 =>
    match s.queue qid with
    | none => s
    | some q =>
      match q.failed.get q.c with
      | none => s
      | some st =>
        if s.fatal || s.blocked q || !(q.state == .enabled || q.state == .draining) || s.ownerHeld q.owner || !s.dmaTakes qid q
           || 65536 ≤ s.opsOnTile q.home then s
        else State.endFailed (s.endHead qid st q.c []) qid n

/-- The entries of a failed fetch. -/
def State.entriesFail (s : State) (qid idx n st : Nat) : State :=
  let s := s.onQueue qid fun q => { q with
    fetching := q.fetching - n
    failed := (List.range n).foldl (fun c k => c.set ((idx + k) % 65536) st) q.failed }
  (s.endFailed qid 64).fetch qid

/-- A host read of entries completes. -/
def doEntryFetchDone (tag : Nat) (data : Bytes) (s : State) : State :=
  match s.readOut tag with
  | none => s
  | some r =>
    match r.why with
    | .entries qid idx n => if r.dead then s.dropRead tag else (s.dropRead tag).entriesArrive qid idx n data
    | _ => s

/-- ENTRY_FETCH_DONE (R99). -/
def execEntryFetchDone (tag : Nat) (data : Bytes) (s : State) : Res := .next (doEntryFetchDone tag data s)

/-- A host read of entries fails. -/
def doEntryFetchFail (tag : Nat) (how : ReadEnd) (s : State) : State :=
  match s.readOut tag with
  | none => s
  | some r =>
    match r.why with
    | .entries qid idx n =>
      if r.dead then s.dropRead tag
      else if readStatus how = St.ok then s
      else (s.dropRead tag).entriesFail qid idx n (readStatus how)
    | _ => s

/-- ENTRY_FETCH_FAIL (R103). -/
def execEntryFetchFail (tag : Nat) (how : ReadEnd) (s : State) : Res := .next (doEntryFetchFail tag how s)

/-! ## Completions and write-back blocks (R86 R93) -/

/-- The oldest finished operation of a CQ writes its completion. -/
def doCompletionWrite (cq : Nat) (s : State) : State := s.writeNext cq

/-- COMPLETION_WRITE (R86). -/
def execCompletionWrite (cq : Nat) (s : State) : Res := .next (doCompletionWrite cq s)

/-- The write-back block of a work queue whose C has changed, at a frame boundary. -/
def doWritebackBlock (qid : Nat) (s : State) : State :=
  match s.queue qid with
  | some q =>
    if !s.fatal && s.onFrame && q.wbDue && q.cls != .cq then (s.onQueue qid fun q => { q with wbDue := false }).writeBack qid else s
  | none => s

/-- WRITEBACK_BLOCK (R93). -/
def execWritebackBlock (qid : Nat) (s : State) : Res := .next (s.onDie (s.queueDie qid) (doWritebackBlock qid))

/-! ## QUEUE_CREATE (04 R130, 03 R90) -/

/-- A shaper as a new queue has it (07 R195). -/
def Shaper.fresh (now : Nat) : Shaper where
  rate := 0
  burst := 16777215
  overhead := 24
  dest := .none
  limit := 1048576
  sample := false
  credit := 16777215 * 8000000
  last := now
  ceiling := none
  pend := []
  waitUntil := none

/-- The OWNER that the parameters of a QUEUE_CREATE name, for its caller; none where the value is not allowed. -/
def State.createOwner (s : State) (c : Cmd) (who : Caller) : Option Owner :=
  match field (cmdByte c 17) 0 2 with
  | 0 => match who with
    | .fn f => some (.function f)
    | _ => none
  | 1 => (s.slice (cmdLe c 18 2 % 16384)).map fun x => .slice (cmdLe c 18 2 % 16384) x.mgr
  | 2 => if who = .firmware then some .firmware else none
  | _ => none

/-- The caller may not use this OWNER (R127 check 3). -/
def queueCreateDeny (c : Cmd) (who : Caller) (_ : State) : Bool := field (cmdByte c 17) 0 2 == 2 && who != .firmware

/-- A tile may become a home: unparked and not parking (16 R454). -/
def State.homeOk (s : State) (t : Nat) : Bool :=
  s.tileOn t && match s.power.op with
    | some o => o.tile != t
    | none => true

/-- A free number below `n`, where at most `count` are taken: the device's choice (log 15). -/
def chooseFree (free n count : Nat) (taken : Nat → Bool) : Option Nat :=
  ((List.range (count + 1)).map fun k => (free + k) % n).find? fun i => !taken i

/-- The DMA channels bound on a tile. -/
def State.dmaFree (s : State) (t : Nat) : Option Nat :=
  (List.range 256).find? fun k => !s.dma.has (t * 256 + k)

/-- The home tile of a QUEUE_CREATE; for a DMA_CH queue one with a free channel (11 R315). -/
def State.createHome (s : State) (c : Cmd) (cls : QClass) : Option Nat :=
  let fits := fun t => cls != .dmaCh || (s.dmaFree t).isSome
  if bit (cmdByte c 17) 5 then
    let l := (List.range 4).filter fun t => s.homeOk t && fits t
    l[s.freeVal % l.length]?
  else if fits (field (cmdByte c 17) 3 2) then some (field (cmdByte c 17) 3 2) else none

/-- The checks of R90 on the CQ that a new work queue names. -/
def State.cqCheck (s : State) (cq : Nat) (who : Caller) (o : Owner) : Option Nat :=
  match s.queue cq with
  | none => some St.notFound
  | some q =>
    if !s.inScope who q.owner || q.maker.isSome then some St.notFound
    else if q.cls != .cq || q.command || q.owner != o then some St.badParam
    else if 4096 ≤ (s.workQueuesOf cq).length then some St.noResource
    else none

/-- The SID that a QUEUE_CREATE names exists in the caller's scope (check 7). What R90 asks of its CQ_QID is of check 9, after the parameters
of check 8: DEDUCED, R90 gives the CQ's checks as one list, beside those of the parameters (log 50). -/
def State.queueCreateFound (s : State) (c : Cmd) (who : Caller) : Bool :=
  let sid := cmdLe c 18 2 % 16384
  field (cmdByte c 17) 0 2 != 1 || match s.slice sid with
    | some x => x.live && s.inScope who (.slice sid x.mgr)
    | none => false

/-- Checks 7 to 9 of a QUEUE_CREATE: none, or the status. -/
def State.queueCreateCheck (s : State) (c : Cmd) (who : Caller) : Option Nat :=
  let owner := field (cmdByte c 17) 0 2
  let sid := cmdLe c 18 2
  let log := cmdByte c 16 / 16
  let page := cmdLe c 20 2
  let vec := cmdLe c 24 2
  if owner == 1 && !(match s.slice (sid % 16384) with
      | some x => x.live && s.inScope who (.slice (sid % 16384) x.mgr)
      | none => false) then some St.notFound
  else match QClass.ofCode (cmdByte c 16 % 16), s.createOwner c who with
    | some cls, some o =>
      if log < 4 || 64 ≤ cmdByte c 17 || 16384 ≤ sid || 3840 ≤ page || (owner == 1 && page != 0) || 2048 ≤ vec
         || (bit (cmdByte c 17) 2 && cls != .pktTx && cls != .pktRx)
         || cmdLe c 32 8 % 4096 != 0 || cmdLe c 40 8 % 16 != 0
         || (cls == .cq && (match o.fnRef with
              | some f => decide (s.tableSize f ≤ vec)
              | none => false)) then some St.badParam
      else match (if cls == .cq then none else s.cqCheck (cmdLe c 22 2) who o) with
        | some e => some e
        | none =>
          if c.target.toNat != targetNone && s.qm.queues.has c.target.toNat then some St.exist
          else if 65536 ≤ s.qm.queues.length then some St.noResource
          else if !bit (cmdByte c 17) 5 && !s.homeOk (field (cmdByte c 17) 3 2) then some St.badState
          else if cls == .blkSq && 4096 ≤ (s.qm.queues.filter fun (_, q) => q.cls == .blkSq).length then some St.noResource
          else if (s.createHome c cls).isNone then some St.noResource
          else none
    | _, _ => some St.badParam

/-- A new DISABLED queue with P = C = F = 0 (R89). -/
def newQueue (cls : QClass) (log ring : Nat) (o : Owner) (page home cq wb vec : Nat) (ts : Bool) (now : Nat) : Queue where
  cls := cls
  logSize := log
  ring := ring
  owner := o
  dbPage := page
  home := home
  cq := cq
  wb := wb
  vector := vec
  ts4400 := ts
  p := 0
  c := 0
  f := 0
  state := .disabled
  cache := []
  failed := []
  fetching := 0
  headOk := false
  headFrags := none
  headReading := false
  nextDone := 0
  waitDone := []
  due := []
  held := []
  episode := false
  replayHead := none
  armed := false
  wbDue := false
  wbP := 0
  wbShown := []
  disableCmds := []
  moveTo := none
  moveCmds := []
  moveAt := 0
  destroyCmds := []
  resetAt := none
  resetEnd := 0
  resetTags := 0
  resetAbandoned := 0
  resetCmd := none
  command := false
  shaper := Shaper.fresh now
  maker := none

/-- A DMA channel bound to a queue, at its reset values (11 R323). -/
def DmaChan.fresh (qid : Nat) : DmaChan where
  qid := qid
  op := none
  lastStatus := 0
  paced := false
  errDst := false
  halt := false
  err := false
  errAddr := 0
  retries := 0
  nextK := 0
  count := 0
  beats := []
  doneBytes := 0
  failing := none

/-- A queue enters the queue-context store; a DMA_CH queue takes a free channel of its home. -/
def State.addQueue (s : State) (qid : Nat) (q : Queue) : State :=
  let s := (s.dropCounters Ct.queue qid).onQm fun m => { m with queues := m.queues.set qid q }
  if q.cls = .dmaCh then
    match s.dmaFree q.home with
    | some k => s.onDma fun d => d.set (q.home * 256 + k) (DmaChan.fresh qid)
    | none => s
  else s

/-- Service firmware's part of a QUEUE_CREATE that its checks pass: a DISABLED context in the queue-context store, bound to nobody. What
its checks refuse goes to Buckram as it is, whose result governs (04 R121 R127). -/
def State.queueCreatePart (s : State) (c : Cmd) (who : Caller) : State × Option Nat :=
  match s.queueCreateCheck c who, QClass.ofCode (cmdByte c 16 % 16), s.createOwner c who with
  | none, some cls, some o =>
    let qid := if c.target.toNat = targetNone then
        (chooseFree (Config.freeNat (s.free + 1)) 65536 s.qm.queues.length s.qm.queues.has).getD 0
      else c.target.toNat
    let home := (s.createHome c cls).getD 0
    let q := newQueue cls (cmdByte c 16 / 16) (cmdLe c 32 8) o (cmdLe c 20 2) home (cmdLe c 22 2) (cmdLe c 40 8)
      (cmdLe c 24 2) (bit (cmdByte c 17) 2) s.ft
    ((s.onFree (· + 2)).addQueue qid { q with maker := some c }, none)
  | _, _, _ => (s, none)

/-- QUEUE_CREATE: service firmware's checks and its part, then Buckram's mailbox. -/
def doQueueCreate (c : Cmd) (s : State) : State :=
  s.bkPart 0x0201 c (queueCreateDeny c) true false (fun who s =>
    if s.mailboxFull then
      match s.queueCreateCheck c who with
      | some e => (s, some e)
      | none => (s, none)
    else s.queueCreatePart c who) (fun who s => s.queueCreateFound c who)

/-- QUEUE_CREATE (04 R130). -/
def execQueueCreate (c : Cmd) (s : State) : Res := .next (doQueueCreate c s)

/-- The context that service firmware has written for a QUEUE_CREATE. -/
def State.madeFor (s : State) (c : Cmd) : Option (Nat × Queue) := s.qm.queues.find? fun (_, q) => q.maker == some c

/-- Service firmware takes back the context of a QUEUE_CREATE that Buckram refuses (04 R121). -/
def State.unmake (s : State) (qid : Nat) : State :=
  (s.onDma fun d => d.filter fun (_, x) => x.qid != qid).onQm fun m => { m with queues := m.queues.del qid }

/-- Buckram binds the QID to its owner: the queue exists, DISABLED (R88 R89). It makes the checks anew, on the queues without the
context that service firmware wrote for this command, and refuses where they fail. -/
def bkQueueCreate (c : Cmd) (who : Caller) (s : State) : State :=
  let before := match s.madeFor c with
    | some (qid, _) => s.unmake qid
    | none => s
  match s.precheck 0x0201 c who true (queueCreateDeny c who s) true false true (before.queueCreateFound c who), before.queueCreateCheck c who, s.madeFor c with
  | none, none, some (qid, _) => (s.onQueue qid fun q => { q with maker := none }).reply 0x0201 c true (Answer.ok qid)
  | some e, _, _ => before.reply 0x0201 c true (Answer.just e)
  | none, some e, _ => before.reply 0x0201 c true (Answer.just e)
  | none, none, none => match (s.queueCreatePart c who).1.madeFor c with
    | some (qid, _) => ((s.queueCreatePart c who).1.onQueue qid fun q => { q with maker := none }).reply 0x0201 c true (Answer.ok qid)
    | none => s.reply 0x0201 c true (Answer.just St.badParam)

/-! ## QUEUE_ENABLE, QUEUE_DISABLE and QUEUE_IDLE (R89 R106) -/

/-- A queue enabled at a start index (R89, 11 R326, 18 R496). -/
def State.enableQueue (s : State) (qid start : Nat) : State :=
  let s := s.onQueue qid fun q => { q.dropCached with
    p := start, c := start, f := start, nextDone := start, waitDone := [], state := .enabled, replayHead := none
    armed := q.cls == .cq, wbDue := q.cls != .cq, wbP := start }
  let s := s.onDma fun d => d.map fun (k, x) => if x.qid = qid then (k, { x with err := false, halt := false }) else (k, x)
  s.writeBack qid

/-- QUEUE_ENABLE. -/
def doQueueEnable (c : Cmd) (s : State) : State :=
  s.sf 0x0202 c noDeny true true fun _ s =>
    let qid := c.target.toNat
    match s.queue qid with
    | none => (s, some (Answer.just St.notFound))
    | some q =>
      if q.command || !(q.state == .disabled || q.state == .idle)
         || (q.cls != .cq && !(match s.queue q.cq with
              | some k => k.state == .enabled
              | none => false)) then (s, some (Answer.just St.badState))
      else (s.enableQueue qid (cmdLe c 16 2), some (Answer.ok (cmdLe c 16 2)))

/-- QUEUE_ENABLE (R89). -/
def execQueueEnable (c : Cmd) (s : State) : Res := .next (doQueueEnable c s)

/-- A work queue begins its drain or its discard (R106): DRAINING, no fetching; a SLICE queue, and a DMA_CH queue whose
channel is halted (11 R326), drops what is cached and not started. -/
def State.beginDisable (s : State) (qid : Nat) : State :=
  match s.queue qid with
  | none => s
  | some q =>
    let halted := s.dma.any fun (_, x) => x.qid == qid && x.halt
    let s := if q.owner.sid.isSome || halted then (s.killFetches qid).onQueue qid Queue.dropCached else s
    (s.onQueue qid fun q => { q with state := .draining }).writeBack qid

/-- A CQ passes through DRAINING to IDLE, and its write-back block shows IDLE with INDEX = P (R106). -/
def State.idleCq (s : State) (qid : Nat) : State :=
  let s := (s.onQueue qid fun q => { q with state := .draining }).writeBack qid
  (s.onQueue qid fun q => { q with state := .idle }).writeBack qid

/-- QUEUE_DISABLE. For a CQ, whose disabling is neither a drain nor a discard, DETAIL1 is 0xFFFF (DESIGN CHOICE: the spec gives it no
value, log 50). The reply of a command ring's own disabling is due after its ring is IDLE: it is written before its CQ is disabled, and
while the CQ has no room for it that is refused (log 21). -/
def doQueueDisable (c : Cmd) (s : State) : State :=
  s.sf 0x0203 c noDeny true true fun _ s =>
    let qid := c.target.toNat
    match s.queue qid with
    | none => (s, some (Answer.just St.notFound))
    | some q =>
      if q.command || q.state != .enabled then (s, some (Answer.just St.badState))
      else if q.cls = .cq then
        if (s.workQueuesOf qid).any (fun w => match s.queue w with
            | some x => !(x.state == .disabled || x.state == .idle)
            | none => false) then (s, some (Answer.just St.badState))
        else
          let u := s.drainAll qid (q.due.length + q.held.length)
          match u.queue qid with
          | none => (s, some (Answer.just St.notFound))
          | some q =>
            if !q.due.isEmpty || !q.held.isEmpty then (s, some (Answer.just St.badState))
            else (u.idleCq qid, some (Answer.ok q.p 0xFFFF))
      else ((s.beginDisable qid).onQueue qid fun q => { q with disableCmds := q.disableCmds ++ [(c, 0x0203)] }, none)

/-- QUEUE_DISABLE (R106). -/
def execQueueDisable (c : Cmd) (s : State) : Res := .next (doQueueDisable c s)

/-- A command of a ring that is being disabled is still to reply (04 R126); a QUEUE_DISABLE of its own ring waits for the ring and not
the ring for it (log 21). -/
def State.commandsLeft (s : State) (qid : Nat) : Bool :=
  s.cmd.inProgress.any fun x => x.src == .ring qid && !(x.opcode == 0x0203 && x.target == qid)

/-- A DRAINING queue has nothing left: every started entry has finished and its completion is written, and no fetched
entry waits (R106). A queue under BLK_QUEUE_RESET returns to ENABLED instead (09 R284). -/
def State.drained (s : State) (qid : Nat) : Bool :=
  match s.queue qid with
  | some q => q.state == .draining && q.resetAt.isNone && s.allFinished qid && !s.commandsLeft qid && q.cache.isEmpty
      && q.failed.isEmpty && q.fetching == 0
  | none => false

/-- A queue is IDLE, DISABLED or gone. -/
def State.quiet (s : State) (qid : Nat) : Bool :=
  match s.queue qid with
  | some q => q.state == .idle || q.state == .disabled
  | none => true

/-- SLICE_QUIESCE and VF_QUIESCE reply when every queue they named is IDLE (13 R377). -/
def State.quiesceReplies (s : State) : State :=
  let done := s.cmd.quiesce.filter fun (_, _, l) => l.all s.quiet
  let s := s.onCmd fun m => { m with quiesce := m.quiesce.filter fun (_, _, l) => !(l.all s.quiet) }
  done.foldl (fun s (c, code, l) => s.reply code c false (Answer.ok l.length)) s

/-- The command ring and CQ of a function whose CMD_EN is being cleared: with the ring IDLE the CQ is disabled, both are destroyed,
CMD_ACTIVE reads 0, and the open event records are discarded and counted (13 R370, 18 R491). -/
def State.closeCommand (s : State) (f : FnRef) : State :=
  match s.fn f with
  | none => s
  | some x =>
    if x.cmdClosing && s.quiet x.sqQid then
      let due := ((s.queue x.cqQid).map fun q => q.due.length + q.held.length).getD 0
      let s := (((s.drainAll x.cqQid due).idleCq x.cqQid).removeQueue x.sqQid).removeQueue x.cqQid
      let n := (s.ev.opened.filter (·.dest == .fn f)).length
      let s := s.countBy Ct.func (fnWord f) 4 n
      let s := s.onEv fun e => { e with
        opened := e.opened.filter (·.dest != .fn f)
        lostDests := if n = 0 || e.lostDests.contains (.fn f) then e.lostDests else .fn f :: e.lostDests }
      s.onFn f fun x => { x with cmdActive := false, cmdClosing := false, sqQid := 0xFFFF, cqQid := 0xFFFF }
    else s

/-- A DRAINING queue enters IDLE: the write-back block shows it, then the replies (R106). -/
def doQueueIdle (qid : Nat) (s : State) : State :=
  if s.fatal || !s.drained qid then s
  else match s.queue qid with
    | none => s
    | some q =>
      let slice := q.owner.sid.isSome
      let s := s.onQueue qid fun q => { q with
        state := .idle, disableCmds := [], replayHead := if slice then some q.c else none }
      let s := s.writeBack qid
      let s := q.disableCmds.foldl (fun s (c, code) =>
        s.reply code c false (Answer.ok q.c (if slice then q.c else 0xFFFF))) s
      let s := s.quiesceReplies
      if q.command then
        match q.owner with
        | .function f => s.closeCommand f
        | _ => s
      else s

/-- QUEUE_IDLE (R106). -/
def execQueueIdle (qid : Nat) (s : State) : Res := .next (doQueueIdle qid s)

/-! ## QUEUE_DESTROY, QUEUE_QUERY and QUEUE_MOVE (R89 R90 R91) -/

/-- Why a queue may not be destroyed: S_BAD_STATE (R89 R90 R91, 10 R299 for a queue that a cipher channel holds). -/
def State.queueDestroyCheck (s : State) (qid : Nat) : Option Nat :=
  match s.queue qid with
  | none => some St.notFound
  | some q =>
    if q.command || !(q.state == .disabled || q.state == .idle) || q.moveTo.isSome
       || (q.cls == .cq && !(s.workQueuesOf qid).isEmpty)
       || s.cy.chans.any (fun (_, x) => x.jq == qid) then some St.badState
    else none

/-- A queue destroyed with its channel released and its source queue gone. Commands that await it get their replies: a
TW_SHAPER_SET always S_OK (07 R199), those that the end of the queue leaves without effect S_NOT_FOUND (log 34). -/
def State.destroyQueue (s : State) (qid : Nat) : State :=
  let s' := ((s.dropSource qid).onDma fun d => d.filter fun (_, x) => x.qid != qid).removeQueue qid
  match s.queue qid with
  | none => s'
  | some q =>
    let s' := q.shaper.pend.foldl (fun s n => s.reply 0x0501 n.cmd false Answer.ok) s'
    let s' := q.disableCmds.foldl (fun s (c, code) => s.reply code c false (Answer.just St.notFound)) s'
    let s' := q.moveCmds.foldl (fun s c => s.reply 0x0206 c false (Answer.just St.notFound)) s'
    let s' := q.destroyCmds.foldl (fun s c => s.reply 0x0204 c true Answer.ok) s'
    match q.resetCmd with
    | some c => s'.reply 0x0704 c false (Answer.just St.notFound)
    | none => s'

/-- QUEUE_DESTROY. -/
def doQueueDestroy (c : Cmd) (s : State) : State :=
  s.bk 0x0204 c noDeny true true

/-- QUEUE_DESTROY (R89). -/
def execQueueDestroy (c : Cmd) (s : State) : Res := .next (doQueueDestroy c s)

/-- Buckram unbinds the QID; while a TW_SHAPER_SET awaits the queue's refill, after that refill (R89, 07 R199). -/
def bkQueueDestroy (c : Cmd) (who : Caller) (s : State) : State :=
  s.bkApply 0x0204 c who false true true fun s =>
    let qid := c.target.toNat
    match s.queueDestroyCheck qid with
    | some e => (s, some (Answer.just e))
    | none =>
      if (match s.queue qid with
          | some q => !q.shaper.pend.isEmpty
          | none => false) then (s.onQueue qid fun q => { q with destroyCmds := q.destroyCmds ++ [c] }, none)
      else (s.destroyQueue qid, some Answer.ok)

/-- The fields of R87 that CHECK covers. -/
def State.contextFields (s : State) (qid : Nat) (q : Queue) : List Nat :=
  let r := match s.refOf q.owner with
    | some r => [fnWord r.fn, match r.pasid with
        | some p => p + 1
        | none => 0]
    | none => [0, 0]
  [qid, q.cls.code, q.logSize, q.ring] ++ r ++
    [match q.owner with
      | .function _ => 0
      | .slice _ _ => 1
      | _ => 2, q.owner.sid.getD 0, q.dbPage, q.home, q.cq, q.wb, q.vector, b2n q.ts4400, q.p, q.c, q.f, q.state.code]

/-- The 64-byte context: the fields of R87, CHECK last, in a layout that the spec does not give (log 13). CHECK is the context's CRC-16,
which the queue managers keep in step with the context, so that it is worked out here (R104). -/
def State.contextBytes (s : State) (qid : Nat) (q : Queue) : Bytes :=
  let l := s.contextFields qid q
  sliceZ (Config.layout 0x0205 (l ++ [Config.crc16 l % 65536])) 0 64

/-- QUEUE_QUERY. -/
def doQueueQuery (c : Cmd) (s : State) : State :=
  s.sf 0x0205 c noDeny true true fun _ s =>
    match s.queue c.target.toNat with
    | none => (s, some (Answer.just St.notFound))
    | some q => (s, some { Answer.ok with data := s.contextBytes c.target.toNat q })

/-- QUEUE_QUERY (R87). -/
def execQueueQuery (c : Cmd) (s : State) : Res := .next (doQueueQuery c s)

/-- A DMA queue that is to move to a tile binds to a free channel there from the acceptance on, and gives up one that an earlier
request, not yet carried out, had bound elsewhere (11 R315). -/
def State.reserveDma (s : State) (qid home t : Nat) : State :=
  let s := s.onDma fun d => d.filter fun (k, x) => x.qid != qid || k / 256 == home || k / 256 == t || x.op.isSome
  if t = home ∨ (s.dma.any fun (k, x) => x.qid == qid && k / 256 == t) then s
  else match s.dmaFree t with
    | some n => s.onDma fun d => d.set (t * 256 + n) (DmaChan.fresh qid)
    | none => s

/-- QUEUE_MOVE: the move awaits the next rebalance point, and so does the reply (R91). A queue bound to a cipher channel does
not move (10 R300). -/
def doQueueMove (c : Cmd) (s : State) : State :=
  s.sf 0x0206 c noDeny true true fun _ s =>
    let qid := c.target.toNat
    let t := cmdByte c 16
    match s.queue qid with
    | none => (s, some (Answer.just St.notFound))
    | some q =>
      if 4 ≤ t then (s, some (Answer.just St.badParam))
      else if q.command || !s.homeOk t || s.cy.chans.any (fun (_, x) => x.jq == qid) then (s, some (Answer.just St.badState))
      else if q.cls == .dmaCh && t != q.home && !(s.dma.any fun (k, x) => x.qid == qid && k / 256 == t) && (s.dmaFree t).isNone then
        (s, some (Answer.just St.noResource))
      else ((if q.cls == .dmaCh then s.reserveDma qid q.home t else s).onQueue qid fun q => { q with
          moveTo := some t, moveAt := if q.moveTo.isSome then q.moveAt else nextRebalance s.ft, moveCmds := q.moveCmds ++ [c] },
        none)

/-- QUEUE_MOVE (R91). -/
def execQueueMove (c : Cmd) (s : State) : Res := .next (doQueueMove c s)

/-- What the registers of a channel show goes to the queue's new channel (11 R323). -/
def DmaChan.follow (x old : DmaChan) : DmaChan :=
  { x with lastStatus := old.lastStatus, errDst := old.errDst, halt := old.halt, err := old.err, errAddr := old.errAddr
           retries := old.retries, count := old.count }

/-- A DMA queue is homed on a tile: its channel there takes over, at once or, where an entry has started, when that entry finishes on
the old channel (11 R315, R91). A channel there on which an entry still runs, since the queue has come back to its tile, shows its own. -/
def State.moveDma (s : State) (qid t : Nat) : State :=
  match s.dma.find? (fun (k, x) => x.qid == qid && k / 256 != t) with
  | none => s
  | some (k, x) =>
    let s := s.reserveDma qid (k / 256) t
    if x.op.isSome then s
    else s.onDma fun d => (d.del k).map fun (j, y) => (if y.qid = qid ∧ j / 256 = t ∧ y.op = none then (j, y.follow x) else (j, y))

/-- A lookaside channel follows its queue: it keeps its number where that is free, else takes the lowest free one, and
CY_CHANNEL_MOVED is raised where the number changes with the tile (10 R300). -/
def State.moveCipher (s : State) (qid t : Nat) : State :=
  match s.cy.chans.find? (fun (_, x) => x.jq == qid) with
  | none => s
  | some (k, x) =>
    if k / 65536 = t then s
    else
      let num := if s.cy.chans.has (t * 65536 + k % 65536) then
          ((List.range 4080).find? fun i => !s.cy.chans.has (t * 65536 + 16 + i)).map (· + 16)
        else some (k % 65536)
      match num with
      | none => s
      | some n =>
        let s := s.onCy fun y => { y with chans := (y.chans.del k).set (t * 65536 + n) x }
        s.raise (sourceNo t 576) (t * 65536 + n) 0 (.own x.owner)

/-- A queue's home changed without its indices (R91): the cached unstarted entries are dropped, F set to C, and the new
home fetches from C. What has started stays on the old tile; the shaper goes with the queue, and so do received frames that no entry has
taken yet (07 R190 R191, log 40). -/
def State.rehome (s : State) (qid t : Nat) : State :=
  let s := s.killFetches qid
  let old := ((s.queue qid).map (·.home)).getD t
  let s := s.onQueue qid fun q => { q.dropCached with home := t }
  let s := s.onTwill fun w => { w with calendar := w.calendar.map fun x => if x.obj == .shaper qid then { x with tile := t } else x }
  let s := match s.queue qid with
    | some q => if q.cls == QClass.pktRx || (s.twFrames old (.source qid)).isEmpty then s.carrySource qid old t else s
    | none => s
  let s := (s.moveDma qid t).moveCipher qid t
  s.fetch qid

/-- The home that a queue gets: the tile asked for, or where that one has been parked in the meantime another, service firmware's choice
(16 R452, log 40). -/
def State.homeFor (s : State) (t qid : Nat) : Nat :=
  let l := (List.range 4).filter s.tileUsed
  if s.tileUsed t then t else l.getD ((s.freeVal + qid) % max 1 l.length) t

/-- A home move at a rebalance point. -/
def doHomeMove (qid : Nat) (s : State) : State :=
  match s.queue qid with
  | none => s
  | some q =>
    match q.moveTo with
    | none => s
    | some t =>
      if s.fatal || !s.dueAt q.moveAt s.onRebalance then s
      else
        let s := s.onQueue qid fun q => { q with moveTo := none, moveCmds := [] }
        let t := s.homeFor t qid
        let s := if t = q.home then s else s.rehome qid t
        q.moveCmds.foldl (fun s c => s.reply 0x0206 c false { Answer.ok (s.rebalanceFt % 2 ^ 32) with ft := some s.rebalanceFt }) s

/-- HOME_MOVE (R91). -/
def execHomeMove (qid : Nat) (s : State) : Res := .next (s.onDie (s.queueDie qid) (doHomeMove qid))

end Sys2Proof.Machine
end

