-- ==== Sys2Proof/Machine/Twill.lean ====
section
/-! DEFINITION. Twill (07_twill_scheduling.md): shapers and the calendar, policers, destination groups, schedules, port
modes, transmission and samples. -/

namespace Sys2Proof.Machine

/-! ## Shapers (R195 to R199) -/

/-- The refill of R198. -/
def Shaper.refill (h : Shaper) (now : Nat) : Shaper :=
  let full : Int := h.burst * 8000000
  { h with
    credit := if h.rate = 0 then full else min (h.credit + h.rate * (now - h.last : Nat)) full
    last := now }

/-- A rate clamped to the ceiling of a V or S caller, of which 0 is above every other (R196). -/
def clampRate (vs : Bool) (ceiling : Option Nat) (r : Nat) : Nat :=
  match ceiling with
  | some k => if vs && k != 0 && (r == 0 || k < r) then k else r
  | none => r

/-- New values applied at a refill; the credit is clipped to the new BURST (R199), and a shaper that waited decides again. -/
def Shaper.apply (h : Shaper) (n : ShaperSet) : Shaper :=
  let full : Int := n.burst * 8000000
  let rate := clampRate n.vs h.ceiling n.rate
  { h with
    ceiling := if n.vs then h.ceiling else some n.rate, waitUntil := none
    rate := rate, burst := n.burst, overhead := n.overhead, dest := n.dest.getD h.dest, limit := n.limit.getD h.limit
    sample := n.sample, credit := if rate = 0 then full else min h.credit full }

/-- A queue's refill: credit, then every accepted TW_SHAPER_SET with its reply, then a destruction that waited (R89). -/
def State.refill (s : State) (qid : Nat) : State :=
  match s.queue qid with
  | none => s
  | some q =>
    let h := q.shaper.refill s.ft
    let h' := q.shaper.pend.foldl Shaper.apply h
    let s := s.onQueue qid fun q => { q with shaper := { h' with pend := [] }, destroyCmds := [] }
    let s := if q.shaper.pend.isEmpty then s
      else s.onTwill fun w => { w with calendar := w.calendar.filter (·.obj != .shaper qid) }
    let s := q.shaper.pend.foldl (fun s n => s.reply 0x0501 n.cmd false { Answer.ok with ft := some s.frameFt }) s
    match q.destroyCmds with
    | [] => s
    | l => l.foldl (fun s c => s.reply 0x0204 c true Answer.ok) (s.destroyQueue qid)

/-- The send decision of R198: whether a charge in bytes may pass; without credit the shaper enters the calendar. -/
def State.shaperGo (s : State) (qid charge : Nat) : State × Bool :=
  let s := s.refill qid
  match s.queue qid with
  | none => (s, false)
  | some q =>
    let h := q.shaper
    if h.waitUntil.isSome then (s, false)
    else if h.rate = 0 then (s, true)
    else if 0 ≤ h.credit then
      (s.onQueue qid fun q => { q with shaper := { q.shaper with credit := q.shaper.credit - charge * 8000000 } }, true)
    else
      let e := s.ft + ceilDiv h.credit.natAbs h.rate
      let s := s.onQueue qid fun q => { q with shaper := { q.shaper with waitUntil := some e } }
      (s.calEnter e (.shaper qid) q.home, false)

/-- The charge of a frame (R197). -/
def frameCharge (overhead : Int) (len : Nat) : Nat := (max 1 ((max len 60 : Nat) + overhead)).toNat

/-- DEST of a parameter word; none where bits outside the kind's fields are set (R195). -/
def destOf (w : Nat) : Option (Option Dest) :=
  match w / 2 ^ 30 with
  | 0 => if field w 8 22 = 0 then some (some (.port (w % 32) (field w 5 3))) else none
  | 1 => if field w 14 2 = 0 ∧ field w 19 11 = 0 then some (some (.dg (w % 16384) (field w 16 3))) else none
  | 2 => if w % 2 ^ 30 = 0 then some (some .none) else none
  | _ => if w % 2 ^ 30 = 0 then some none else none

/-- RATE in range (R195 R204). -/
def rateOk (r : Nat) : Bool := r == 0 || (1000 ≤ r && r ≤ 1600000000)

/-- A caller of class V or S. -/
def Caller.isVS : Caller → Bool
  | .fn f => f.vf
  | .slice _ _ => true
  | _ => false

/-- Check 3: a V or S caller gives DEST kind 3 and LIMIT 0xFFFF (R196). -/
def shaperDeny (c : Cmd) (who : Caller) (_ : State) : Bool :=
  who.isVS && (cmdLe c 24 4 / 2 ^ 30 != 3 || cmdLe c 28 2 != 0xFFFF)

/-- LIMIT in bytes; none for unchanged. -/
def limitOf (w : Nat) : Option Nat :=
  if w = 0xFFFF then none else if w = 0 then some 1048576 else some (min w 32768 * 4096)

/-- TW_SHAPER_SET. -/
def doTwShaperSet (c : Cmd) (s : State) : State :=
  s.sf 0x0501 c (shaperDeny c) true true fun who s =>
    let qid := c.target.toNat
    let rate := cmdLe c 16 4
    let burst := cmdLe c 20 3
    match s.queue qid, destOf (cmdLe c 24 4) with
    | some q, some d =>
      if !rateOk rate || burst < 1024 || 1 < cmdByte c 30 || cmdByte c 31 != 0 || (d.isSome && q.cls != .pktTx) then
        (s, some (Answer.just St.badParam))
      else if q.cls == .cq || q.cls == .cmdSq then (s, some (Answer.just St.badState))
      else
        let n : ShaperSet := { rate := rate, vs := who.isVS, burst := burst
                               overhead := signed 8 (cmdByte c 23), dest := d, limit := limitOf (cmdLe c 28 2)
                               sample := cmdByte c 30 == 1, acceptedAt := s.ft, cmd := c }
        (s.onQueue qid fun q => { q with shaper := { q.shaper with pend := q.shaper.pend ++ [n] } }, none)
    | some _, none => (s, some (Answer.just St.badParam))
    | none, _ => (s, some (Answer.just St.notFound))

/-- TW_SHAPER_SET (R199). -/
def execTwShaperSet (c : Cmd) (s : State) : Res := .next (doTwShaperSet c s)

/-- A shaper brought up to date at a frame boundary; a pending set also at a step that passed its boundary. -/
def doShaperRefill (qid : Nat) (s : State) : State :=
  match s.queue qid with
  | none => s
  | some q =>
    if s.fatal || q.cls == .cq || q.cls == .cmdSq then s
    else if s.onFrame || q.shaper.pend.any (fun n => s.dueFrame n.acceptedAt) then s.refill qid
    else s

/-- SHAPER_REFILL (R198). -/
def execShaperRefill (qid : Nat) (s : State) : Res := .next (s.onDie (s.queueDie qid) (doShaperRefill qid))

/-! ## Source queues and the calendar (R189 R193 R201) -/

/-- The Twill queue of a DEST. -/
def Dest.key : Dest → TwKey
  | .port n t => .port n t
  | .dg d _ => .dg d
  | .none => .dg 16384

/-- Whether a DEST takes frames: the drop word and status where its group is invalid or its link is down (R209 R211). -/
def State.destFault (s : State) : Dest → Option (Nat × Nat)
  | .port n _ => if s.linkUp n then none else some (7, St.linkDown)
  | .dg d _ => match s.dgRecord d with
    | some r => if s.linkUp r.port then none else some (7, St.linkDown)
    | none => some (8, St.badState)
  | .none => some (8, St.badState)

/-- The head of a PKT_TX source queue passes to its DEST where it may. -/
def State.advanceSource (s : State) (qid : Nat) : State :=
  match s.queue qid with
  | none => s
  | some q =>
    let t := s.sourceTile qid q.home
    match s.twFrames t (.source qid) with
    | [] => s
    | f :: _ =>
      if q.cls != .pktTx || f.launch.isSome then s
      else match s.destFault f.dest with
        | some (w, st) => (s.dropTw t (.source qid)).discardTw t f w st
        | none =>
          if (s.admitFail t f.dest.key f.bytes.length 0 true).isSome then s
          else (s.popTw t (.source qid)).enqueue t f.dest.key f

/-- SOURCE_QUEUE_ADVANCE. -/
def doSourceQueueAdvance (qid : Nat) (s : State) : State := if s.fatal then s else s.advanceSource qid

/-- SOURCE_QUEUE_ADVANCE (R189). -/
def execSourceQueueAdvance (qid : Nat) (s : State) : Res := .next (doSourceQueueAdvance qid s)

/-- The calendar entry of a tile that fires first: the least E, then the earliest entered. -/
def firstEntry (tile : Nat) : List CalEntry → Option CalEntry
  | [] => none
  | x :: l =>
    if x.tile ≠ tile then firstEntry tile l
    else match firstEntry tile l with
      | some y => if y.e < x.e then some y else some x
      | none => some x

/-- An entry is to fire: FT has reached its instant rounded up to 4 ns, or a forward step has passed its instant over, at which it fires
at once (R193 R194, 02 R46). -/
def State.calDue (s : State) (e : Nat) : Bool :=
  decide (roundUp e 4 ≤ s.ft)
    || (decide (s.ftu.stepAt ≤ s.ft) && decide (e ≤ s.ftu.stepAt) && decide (0 < s.ftu.stepAmt)
        && decide (s.ftu.stepAt < e + s.ftu.stepAmt.toNat))

/-- A calendar entry fires at its instant rounded up to 4 ns. -/
def doCalendarFire (tile : Nat) (s : State) : State :=
  if s.fatal then s else
  let s := s.calSettle
  match firstEntry tile s.twill.calendar with
  | none => s
  | some x =>
    if !s.calDue x.e then s
    else
      let s := s.onTwill fun w => { w with calendar := w.calendar.erase x }
      match x.obj with
      | .shaper qid => s.onQueue qid fun q => { q with shaper := { q.shaper with waitUntil := none } }
      | .launch qid op =>
        let fire := fun f : TwFrame => if f.op == some op then { f with launch := none } else f
        (s.onTwq tile (.source qid) fun q => { q with frames := q.frames.map fire }).advanceSource qid

/-- CALENDAR_FIRE (R193). -/
def execCalendarFire (tile : Nat) (s : State) : Res := .next (s.onDie tile (doCalendarFire tile))

/-! ## Policers (R204 to R206) -/

/-- A policer that was never set: disabled. -/
def Policer.fresh (tile : Nat) : Policer where
  tile := tile
  rate := 0
  cbs := 0
  overhead := 0
  ebs := 0
  aware := false
  tc := 0
  te := 0
  last := 0
  pend := []

/-- The buckets brought up to date (R205). -/
def Policer.update (p : Policer) (now : Nat) : Policer :=
  let add := p.rate * (now - p.last)
  let c := p.cbs * 8000000
  let e := p.ebs * 8000000
  { p with tc := min (p.tc + add) c, te := min (p.te + (p.tc + add - c)) e, last := now }

/-- The colour of a frame, 0 green, 1 yellow, 2 red, and the buckets after it (R205). -/
def Policer.decide' (p : Policer) (now len colour : Nat) : Policer × Nat :=
  let p := p.update now
  let b := frameCharge p.overhead len * 8000000
  if !p.aware || colour == 0 then
    if b ≤ p.tc then ({ p with tc := p.tc - b }, 0)
    else if b ≤ p.te then ({ p with te := p.te - b }, 1)
    else (p, 2)
  else if colour = 1 then (if b ≤ p.te then ({ p with te := p.te - b }, 1) else (p, 2))
  else (p, 2)

/-- New values at a frame boundary: clipped, or full where the policer is enabled by them (R205 R206). -/
def Policer.apply (p : Policer) (b : Bytes) (now : Nat) : Policer :=
  let p := p.update now
  let cbs := le b 4 3
  let ebs := le b 8 3
  let starts := p.rate == 0
  { p with
    rate := le b 0 4, cbs := cbs, overhead := signed 8 (byteAt b 7), ebs := ebs, aware := bit (byteAt b 11) 0
    tc := if starts then cbs * 8000000 else min p.tc (cbs * 8000000)
    te := if starts then ebs * 8000000 else min p.te (ebs * 8000000) }

/-- The serving tiles of the policers as the parked tiles now stand, their buckets carried (R203). -/
def State.movePolicers (s : State) : State :=
  s.onTwill fun w => { w with policers := w.policers.map fun (k, p) => (k, { p with tile := s.unparked k }) }

/-- TW_POLICER_SET. -/
def doTwPolicerSet (c : Cmd) (s : State) : State :=
  s.sf 0x0502 c noDeny true true fun _ s =>
    let k := c.target.toNat
    if !rateOk (cmdLe c 16 4) || cmdLe c 20 3 < 1024 || 1 < cmdByte c 27 || cmdLe c 28 4 != 0 then
      (s, some (Answer.just St.badParam))
    else
      let p := (s.twill.policers.get k).getD (Policer.fresh (s.unparked k))
      (s.onTwill fun w => { w with policers := w.policers.set k { p with pend := p.pend ++ [(sliceZ c.params 0 16, s.ft, c)] } },
       none)

/-- TW_POLICER_SET (R204). -/
def execTwPolicerSet (c : Cmd) (s : State) : Res := .next (doTwPolicerSet c s)

/-- A policer change takes effect at the frame boundary after its acceptance. -/
def doPolicerSetApply (policer : Nat) (s : State) : State :=
  match s.twill.policers.get policer with
  | none => s
  | some p =>
    let due := p.pend.filter fun (_, t, _) => s.dueFrame t
    if s.fatal || due.isEmpty then s
    else
      let p' := due.foldl (fun p (b, _, _) => p.apply b s.ft) p
      let p' := { p' with pend := p.pend.filter fun (_, t, _) => !s.dueFrame t }
      let s := s.onTwill fun w => { w with policers := w.policers.set policer p' }
      due.foldl (fun s (_, _, c) => s.reply 0x0502 c false { Answer.ok with ft := some s.frameFt }) s

/-- POLICER_SET_APPLY (R206). -/
def execPolicerSetApply (policer : Nat) (s : State) : Res := .next (s.onDie (policer % 4) (doPolicerSetApply policer))

/-! ## Destination groups (R211 R212) -/

/-- A relay peer of group `d`: a VALID record, not SELF, with a PEER_MAC, and not the group itself. -/
def State.peerOk (s : State) (d v : Nat) : Bool :=
  v != d && match s.dgRecord v with
    | some r => r.mac != 0
    | none => false

/-- The record that a TW_DG_SET writes; none to delete. -/
def dgOf (c : Cmd) : Option DgRec :=
  let fl := cmdByte c 17
  if !bit fl 0 then none
  else some { port := cmdByte c 16 % 32, tc := cmdByte c 16 / 32, self := bit fl 1, relayHold := bit fl 2
              via0 := if bit fl 3 then some (cmdLe c 18 2) else none
              via1 := if bit fl 4 then some (cmdLe c 20 2) else none
              mac := be c.params 6 6 }

/-- TW_DG_SET. -/
def doTwDgSet (c : Cmd) (s : State) : State :=
  s.sf 0x0503 c noDeny true true fun _ s =>
    let d := c.target.toNat
    let r := dgOf c
    let peersOk := match r with
      | some x => x.via0.all (s.peerOk d ·) && x.via1.all (s.peerOk d ·)
      | none => true
    let isSelf := match r with
      | some x => x.self
      | none => false
    let other := s.twill.dgs.any (fun (k, x) => k != d && x.self)
      || s.twill.dgPend.any (fun (k, x, _, _) => k != d && x.any (·.self))
    if 32 ≤ cmdByte c 17 || 16384 ≤ cmdLe c 18 2 || 16384 ≤ cmdLe c 20 2 || cmdLe c 28 4 != 0 || !peersOk then
      (s, some (Answer.just St.badParam))
    else if isSelf && other then (s, some (Answer.just St.exist))
    else (s.onTwill fun w => { w with dgPend := w.dgPend ++ [(d, r, s.ft, c)] }, none)

/-- TW_DG_SET (R211). -/
def execTwDgSet (c : Cmd) (s : State) : Res := .next (doTwDgSet c s)

/-- The group of a queue. -/
def TwKey.group : TwKey → Option Nat
  | .dg d => some d
  | .relay d => some d
  | _ => none

/-- A group's record is deleted or made SELF: the frames of its queues are discarded, and those that PKT_TX entries started earlier have on
the way to them are discarded when they come there, whatever record follows (R202 R211). -/
def State.dropGroup (s : State) (d : Nat) : State :=
  let redirect := fun x : Dest => match x with
    | .dg k _ => if k = d then Dest.none else x
    | _ => x
  let s := s.discardQueues (fun k => k.group == some d) 8 St.badState
  let s := s.onTwill fun w => { w with queues := w.queues.map fun q => match q.key with
    | .source _ => { q with frames := q.frames.map fun f => { f with dest := redirect f.dest } }
    | _ => q }
  s.onQm fun m => { m with ops := m.ops.map fun (k, o) => (k, if o.admitted then o else { o with dest := redirect o.dest }) }

/-- A group's record changes at the frame boundary; frames of a group that is now SELF or deleted are discarded (R202 R211). -/
def doDgSetApply (dgid : Nat) (s : State) : State :=
  let due := s.twill.dgPend.filter fun (d, _, t, _) => d == dgid && s.dueFrame t
  if s.fatal || due.isEmpty then s
  else
    let s := s.onTwill fun w => { w with
      dgPend := w.dgPend.filter fun (d, _, t, _) => !(d == dgid && s.dueFrame t)
      dgs := due.foldl (fun l (_, r, _, _) => match r with
        | some x => l.set dgid x
        | none => l.del dgid) w.dgs }
    let s := if due.all fun (_, r, _, _) => r.any (!·.self) then s else s.dropGroup dgid
    due.foldl (fun s (_, _, _, c) => s.reply 0x0503 c false { Answer.ok with ft := some s.frameFt }) s

/-- DG_SET_APPLY (R212). -/
def execDgSetApply (dgid : Nat) (s : State) : Res := .next (doDgSetApply dgid s)

/-! ## Schedules (R216 to R220) -/

/-- A physical port. -/
def State.phys (s : State) (p : Nat) : PhysPort := s.twill.phys.getD p PhysPort.reset

/-- A physical port changed. -/
def State.onPhys (s : State) (p : Nat) (f : PhysPort → PhysPort) : State :=
  s.onTwill fun w => { w with phys := modAt w.phys p f }

/-- CYCLE_LEN. -/
def Sched.cycle (c : Sched) : Nat := c.nslots * c.slotLen

/-- The latest cycle boundary at or before an instant (R219). -/
def Sched.boundary (c : Sched) (ft : Nat) : Nat := ft - (ft + c.cycle - c.base % c.cycle) % c.cycle

/-- An instant is a cycle boundary. -/
def Sched.isBoundary (c : Sched) (t : Nat) : Bool := (t + c.cycle - c.base % c.cycle) % c.cycle == 0

/-- Every slot is written. -/
def Sched.complete (c : Sched) : Bool := c.slots.length == c.nslots

/-- The header that a TW_SCHED_LOAD carries. -/
def loadHeader (b : Bytes) : Sched :=
  { base := le b 0 8, slotLen := le b 8 4, nslots := le b 12 2, guardNs := le b 14 2, slots := [] }

/-- The parameter rules of a TW_SCHED_LOAD (R216 R217). -/
def loadOk (b : Bytes) : Bool :=
  let h := loadHeader b
  let n := le b 18 2
  128 ≤ h.slotLen && h.slotLen ≤ 65536 && h.slotLen % 4 == 0 && 1 ≤ h.nslots && h.nslots ≤ 4096
    && 10 ≤ h.guardNs && h.guardNs ≤ 200 && h.guardNs ≤ h.slotLen / 2 && 1 ≤ n && n ≤ 2032 && le b 16 2 + n ≤ h.nslots
    && byteAt b 20 < 2 && allZero b 21 11
    && (List.range n).all fun i => let e := le b (32 + 2 * i) 2; e < 2 ^ 15 || e == 2 ^ 15

/-- Two tables have the same header. -/
def Sched.sameHeader (a b : Sched) : Bool :=
  a.base == b.base && a.slotLen == b.slotLen && a.nslots == b.nslots && a.guardNs == b.guardNs

/-- PB_LEN of a TW_SCHED_LOAD. -/
def loadLenOk (c : Cmd) : Bool := c.pbErr.isSome || (32 ≤ c.pbLen && c.pbLen == 32 + 2 * le c.pb 18 2)

/-- TW_SCHED_LOAD. -/
def doTwSchedLoad (c : Cmd) (s : State) : State :=
  s.sf 0x0504 c noDeny (loadLenOk c) true fun _ s =>
    let p := c.target.toNat
    let b := c.pb
    let h := loadHeader b
    let old := (s.phys p).shadow
    let fresh := bit (byteAt b 20) 0 || old.isNone
    if !loadOk b || (!fresh && !(old.any (·.sameHeader h))) then (s, some (Answer.just St.badParam))
    else if (s.phys p).swap.isSome then (s, some (Answer.just St.badState))
    else
      let start := if fresh then h else old.getD h
      let t := (List.range (le b 18 2)).foldl (fun (t : Sched) i =>
        { t with slots := t.slots.set (le b 16 2 + i) (le b (32 + 2 * i) 2) }) start
      (s.onPhys p fun x => { x with shadow := some t }, some (Answer.ok t.slots.length))

/-- TW_SCHED_LOAD (R216). -/
def execTwSchedLoad (c : Cmd) (s : State) : Res := .next (doTwSchedLoad c s)

/-- The start of the command that was admitted last: the consumption of its index, or the receipt of its request (04 R128). -/
def State.cmdStart (s : State) : Nat := (s.cmd.inProgress.getLast?.map (·.start)).getD s.ft

/-- TW_SCHED_SWAP. -/
def doTwSchedSwap (c : Cmd) (s : State) : State :=
  s.sf 0x0505 c noDeny true true fun _ s =>
    let p := c.target.toNat
    let t := cmdLe c 16 8
    match (s.phys p).shadow with
    | none => if t < s.cmdStart + 100000 then (s, some (Answer.just St.badParam)) else (s, some (Answer.just St.badState))
    | some sh =>
      if t < s.cmdStart + 100000 then (s, some (Answer.just St.badParam))
      else if !sh.complete || (s.phys p).swap.isSome then (s, some (Answer.just St.badState))
      else if !sh.isBoundary t || !((s.phys p).active.all (·.isBoundary t)) then (s, some (Answer.just St.badParam))
      else (s.onPhys p fun x => { x with swap := some (t, c) }, none)

/-- TW_SCHED_SWAP (R220). -/
def execTwSchedSwap (c : Cmd) (s : State) : Res := .next (doTwSchedSwap c s)

/-! ## SCHEDULED mode (R221 R226) -/

/-- The FT state allows SCHEDULED mode. -/
def State.ftLocked (s : State) : Bool := s.ftu.state == .locked || s.ftu.state == .holdover

/-- TW_MODE_SET, for either value of byte 16. -/
def State.twModeSet (s : State) (c : Cmd) : State :=
  s.sf 0x0506 c noDeny true true fun _ s =>
    let p := c.target.toNat
    let x := s.phys p
    if 1 < cmdByte c 16 then (s, some (Answer.just St.badParam))
    else if cmdByte c 16 = 1 then
      if x.mode ≠ 0 || x.active.isNone then (s, some (Answer.just St.badState))
      else if !s.ftLocked then (s, some (Answer.just St.notLocked))
      else (s.onPhys p fun x => { x with schedPend := x.schedPend ++ [(true, c, s.ft)] }, none)
    else if x.active.isNone then (s, some (Answer.ok 0))
    else (s.onPhys p fun x => { x with schedPend := x.schedPend ++ [(false, c, s.ft)] }, none)

/-- TW_MODE_SET with mode SCHEDULED; the other mode has its own row. -/
def doTwModeSetScheduled (c : Cmd) (s : State) : State := if cmdByte c 16 = 0 then s else s.twModeSet c

/-- TW_MODE_SET_SCHEDULED (R221). -/
def execTwModeSetScheduled (c : Cmd) (s : State) : Res := .next (doTwModeSetScheduled c s)

/-- TW_MODE_SET with mode UNSCHEDULED. -/
def doTwModeSetUnscheduled (c : Cmd) (s : State) : State := if cmdByte c 16 = 1 then s else s.twModeSet c

/-- TW_MODE_SET_UNSCHEDULED (R221). -/
def execTwModeSetUnscheduled (c : Cmd) (s : State) : Res := .next (doTwModeSetUnscheduled c s)

/-- An event of a physical port at a cycle boundary, which it names: `k` 0 mode change, 1 fallback, 2 swap done (R227 R230). -/
def State.twEvent (s : State) (p k detail at' : Nat) : State :=
  ((s.onTime fun t => { t with ft := at' }).raise (sourceNo (4 + p / 2) (16 + 2 * k + p % 2)) p detail .dev).onTime fun _ => s.time

/-- The frames held in the DG and relay queues of the groups of a physical port. -/
def State.heldForPort (s : State) (p : Nat) : Nat :=
  ((s.twill.queues.filter fun q => match q.key.group with
      | some d => match s.dgRecord d with
        | some r => r.port / 8 == p
        | none => false
      | none => false).map (·.frames.length)).sum

/-- The mode of a port changes at a boundary. -/
def State.setScheduled (s : State) (p : Nat) (v : Bool) (b : Nat) : State :=
  if (s.phys p).scheduled = v then s
  else (s.onPhys p fun x => { x with scheduled := v, slot := none, freeFrom := b }).twEvent p 0 (b2n v) b

/-- A fallback at a cycle boundary (R226). -/
def State.fallBack (s : State) (p b : Nat) : State :=
  let n := s.heldForPort p
  let s := s.onPhys p fun x => { x with fallback := none, fallbackFrames := x.fallbackFrames + n }
  ((s.setScheduled p false b).countBy Ct.netPort p 0 n).twEvent p 1 n b

/-- One accepted mode change takes effect; `fell`: a fallback governs this boundary. -/
def State.applyMode (s : State) (p : Nat) (fell : Bool) (v : Bool) (c : Cmd) (at' : Nat) : State :=
  if v then
    if fell then s.reply 0x0506 c false { Answer.just St.notLocked with ft := some at' }
    else if s.ftLocked then (s.setScheduled p true at').reply 0x0506 c false { Answer.ok 1 with ft := some at' }
    else (s.twEvent p 1 0 at').reply 0x0506 c false { Answer.just St.notLocked with ft := some at' }
  else (s.setScheduled p false at').reply 0x0506 c false { Answer.ok 0 with ft := some at' }

/-- The swap due at a boundary (R220). -/
def State.applySwap (s : State) (p : Nat) (at' : Nat) : State :=
  match (s.phys p).swap with
  | none => s
  | some (t, c) =>
    if at' < t then s
    else
      let s := s.onPhys p fun x => { x with swap := none, active := x.shadow, shadow := x.active }
      (s.twEvent p 2 0 at').reply 0x0505 c false { Answer.ok with ft := some at' }

/-- The cycle boundary to take effect now: the latest one at or before FT, not yet taken, and not passed over by a step (R227). -/
def State.cycleNow (s : State) (p : Nat) : Option Nat :=
  match ((s.phys p).active).orElse fun _ => (s.phys p).shadow with
  | none => none
  | some c =>
    let b := c.boundary s.ft
    if b = (s.phys p).lastBoundary ∨ (b < s.ftu.stepAt ∧ s.ftu.stepAt ≤ s.ft) ∨ c.cycle = 0 then none else some b

/-- After a step of FT the next cycle boundary of every port is the first after the new FT: the latest one counts as taken. A frame on the
wire ends when it would have ended, and frames that wait may start at once (R227). -/
def State.portsStepped (s : State) (amt : Int) : State :=
  let now := s.ft
  s.onTwill fun w => { w with
    phys := w.phys.map fun x => match x.active.orElse fun _ => x.shadow with
      | some c => { x with lastBoundary := c.boundary now }
      | none => x
    logical := w.logical.map fun x => { x with busyUntil := ((x.busyUntil : Int) + amt * 200).toNat }
    queues := w.queues.map fun q => { q with frames := q.frames.map fun f => { f with admitFt := min f.admitFt now } } }

/-- A cycle boundary: the swap first, then the fallback and the mode changes (R220 R226). -/
def doCycleBoundary (port : Nat) (s : State) : State :=
  match s.cycleNow port with
  | none => s
  | some b =>
    if s.fatal then s else
    let s := s.onPhys port fun x => { x with lastBoundary := b }
    let s := s.applySwap port b
    let fell := (s.phys port).fallback.any fun t => decide (t < b)
    let s := if fell then s.fallBack port b else s
    let due := (s.phys port).schedPend.filter fun (_, _, t) => t < b
    let s := s.onPhys port fun x => { x with schedPend := x.schedPend.filter fun (_, _, t) => !(t < b) }
    due.foldl (fun s (v, c, _) => s.applyMode port fell v c b) s

/-- CYCLE_BOUNDARY (R219). -/
def execCycleBoundary (port : Nat) (s : State) : Res := .next (s.onDie (4 + port / 2) (doCycleBoundary port))

/-- The slot that contains FT, with its start. -/
def Sched.slotAt (c : Sched) (ft : Nat) : Nat × Nat :=
  let b := c.boundary ft
  let i := (ft - b) / c.slotLen
  (i, b + i * c.slotLen)

/-- A slot starts: the network die serves it after its guard; a slot into which a step led is passed over (R223 R227). -/
def doSlotStart (port : Nat) (s : State) : State :=
  let x := s.phys port
  match x.active with
  | none => s
  | some c =>
    let (i, start) := c.slotAt s.ft
    if s.fatal || !x.scheduled || (start < s.ftu.stepAt && s.ftu.stepAt ≤ s.ft) || start < x.lastBoundary then s
    else s.onPhys port fun x => { x with slot := some (i, start) }

/-- SLOT_START (R223). -/
def execSlotStart (port : Nat) (s : State) : Res := .next (s.onDie (4 + port / 2) (doSlotStart port))

/-! ## TW_QUERY and samples (R228 R229) -/

/-- A sample record over the queues of several tiles. -/
def sampleRecord (l : List TwQueue) : Bytes :=
  let left := (l.map (·.left)).sum
  toLeSat 4 ((l.map fun q => frameBytes q.frames).sum) ++ toLeSat 4 ((l.map (·.maxDepth)).sum)
    ++ toLeSat 4 ((l.map (·.maxDelay)).foldl max 0) ++ toLeSat 4 (if left = 0 then 0 else (l.map (·.sumDelay)).sum / left)

/-- A queue after a latch. -/
def TwQueue.relatch (q : TwQueue) (r : Bytes) : TwQueue :=
  { q with latched := r, maxDepth := frameBytes q.frames, maxDelay := 0, sumDelay := 0, left := 0 }

/-- The record of a queue at a rebalance point: port queues over the four tiles, source queues of a queue with SAMPLE. What a queue without
SAMPLE did until then is no part of a later record. -/
def State.latchOf (s : State) (q : TwQueue) : TwQueue :=
  match q.key with
  | .port n t => q.relatch (sampleRecord (s.twill.queues.filter fun x => x.key == .port n t))
  | .source qid => q.relatch (if (s.queue qid).any (·.shaper.sample) then sampleRecord [q] else zeros 16)
  | _ => q

/-- Every sample record latched at a rebalance point. -/
def doSampleRecordLatch (s : State) : State :=
  if s.fatal || !s.onRebalance then s
  else s.onTwill fun w => { w with queues := w.queues.map fun q => s.latchOf q }

/-- SAMPLE_RECORD_LATCH (R228). -/
def execSampleRecordLatch (s : State) : Res := .next (doSampleRecordLatch s)

/-- The latched record of a port queue. -/
def State.portSample (s : State) (n t : Nat) : Bytes :=
  match s.twill.queues.find? fun q => q.key == .port n t with
  | some q => q.latched
  | none => zeros 16

/-- A table header as TW_QUERY returns it. -/
def schedHeader : Option Sched → Bytes
  | some c => toLe 8 c.base ++ toLe 4 c.slotLen ++ toLe 2 c.nslots ++ toLe 2 c.guardNs ++ zeros 16
  | none => zeros 32

/-- MODE of TW_QUERY. -/
def PhysPort.modeByte (x : PhysPort) : Nat :=
  if x.scheduled then (if x.fallback.isSome || x.schedPend.any (!·.1) then 3 else 1)
  else if x.schedPend.any (·.1) then 2 else 0

/-- TW_QUERY. -/
def doTwQuery (c : Cmd) (s : State) : State :=
  s.sf 0x0507 c noDeny true true fun _ s =>
    let p := c.target.toNat
    let x := s.phys p
    let qfl := b2n x.swap.isSome + 2 * b2n (x.shadow.any (·.complete)) + 4 * b2n x.active.isSome
    let data := [byte x.modeByte, byte qfl, 0, 0] ++ toLe 4 x.fallbackFrames ++ toLe 8 ((x.swap.map (·.1)).getD 0)
      ++ schedHeader x.active ++ schedHeader x.shadow
      ++ (List.range 64).flatMap fun i => s.portSample (8 * p + i / 8) (i % 8)
    (s, some { Answer.ok with data := data })

/-- TW_QUERY (R229). -/
def execTwQuery (c : Cmd) (s : State) : Res := .next (doTwQuery c s)

/-! ## Port modes and links (R209 R210, 19 R527) -/

/-- The logical ports of a mode (00 R3). -/
def modePorts (p mode : Nat) : List Nat :=
  (match mode with
   | 0 => [0]
   | 1 => [0, 4]
   | 2 => [0, 2, 4, 6]
   | _ => List.range 8).map (8 * p + ·)

/-- A logical port changed. -/
def State.onLogical (s : State) (n : Nat) (f : LogPort → LogPort) : State :=
  s.onTwill fun w => { w with logical := modAt w.logical n f }

/-- LINK_CHANGE of a logical port. -/
def State.linkChange (s : State) (n : Nat) (up : Bool) : State :=
  s.raise (sourceNo (4 + n / 16) (n % 16)) n (b2n up) .dev

/-- A logical port goes down: LINK_CHANGE, and its queued frames are discarded (R209). -/
def State.portDown (s : State) (n : Nat) (training : Bool) : State :=
  let s := (s.onLogical n fun x => { x with up := false, training := training }).linkChange n false
  s.discardQueues (fun k => match k with
    | .port m _ => m == n
    | k => match k.group with
      | some d => (s.twill.dgs.get d).any (·.port == n)
      | none => false) 7 St.linkDown

/-- A logical port's link goes down. -/
def doNetworkLinkDown (port : Nat) (s : State) : State :=
  if s.linkUp port then s.portDown port true else s

/-- NETWORK_LINK_DOWN (R209). -/
def execNetworkLinkDown (port : Nat) (s : State) : Res := .next (doNetworkLinkDown port s)

/-- DEV_PORT_MODE. -/
def doDevPortMode (c : Cmd) (s : State) : State :=
  s.sf 0x0103 c noDeny true true fun _ s =>
    let p := c.target.toNat
    let x := s.phys p
    if 3 < cmdByte c 16 then (s, some (Answer.just St.badParam))
    else if x.scheduled || !x.schedPend.isEmpty || x.modePend.isSome then (s, some (Answer.just St.badState))
    else (s.onPhys p fun x => { x with modePend := some (cmdByte c 16, s.ft, c) }, none)

/-- DEV_PORT_MODE (R210). -/
def execDevPortMode (c : Cmd) (s : State) : Res := .next (doDevPortMode c s)

/-- A mode change to `m`, accepted at `t`, is over: every port of its mode is up, or 500 ms have passed (R210). -/
def State.modeDone (s : State) (p m t : Nat) : Bool := (modePorts p m).all (s.linkUp ·) || t + 500000000 ≤ s.ft

/-- The replies of mode changes that wait for training, also of one whose mode a later one has replaced: D0 is the mode in force, and the FT
the mode point (R210, 04 R126). -/
def State.modeReply (s : State) (p : Nat) : State :=
  let x := s.phys p
  let done := x.modeOld.filter fun (m, t, _, _) => s.modeDone p m t
  let s := if x.modeOld.isEmpty then s else s.onPhys p fun x => { x with modeOld := x.modeOld.filter fun (m, t, _, _) => !s.modeDone p m t }
  let s := done.foldl (fun s (_, _, at', c) => s.reply 0x0103 c false { Answer.ok x.mode with ft := some at' }) s
  match x.modeWait with
  | none => s
  | some (t, at', c) =>
    if s.modeDone p x.mode t then
      (s.onPhys p fun x => { x with modeWait := none }).reply 0x0103 c false { Answer.ok x.mode with ft := some at' }
    else s

/-- The mode point: old ports down, new ones training; or the end of a wait for training. -/
def doPortModePoint (port : Nat) (s : State) : State :=
  if s.fatal then s else
  match (s.phys port).modePend with
  | none => s.modeReply port
  | some (m, t, c) =>
    if !s.dueRebalance t then s.modeReply port
    else
      let at' := s.gridFt 1048576 0
      let old := match (s.phys port).modeWait with
        | some (t, b, c') => (s.phys port).modeOld ++ [((s.phys port).mode, t, b, c')]
        | none => (s.phys port).modeOld
      let s := (modePorts port (s.phys port).mode).foldl (fun s n => s.portDown n false) s
      let s := (s.pinClear (16 + port)).pinClear (20 + port)
      let s := s.onPhys port fun x => { x with mode := m, modePend := none, modeWait := some (t, at', c), modeOld := old }
      (modePorts port m).foldl (fun s n => s.onLogical n fun x => { x with training := true, dropped := false, remapped := false }) s

/-- PORT_MODE_POINT (R210). -/
def execPortModePoint (port : Nat) (s : State) : Res := .next (s.onDie (4 + port / 2) (doPortModePoint port))

/-- The lane bits of a physical port follow the logical ports of its mode (19 R530). -/
def State.portLaneFaults (s : State) (p : Nat) : State :=
  let l := (modePorts p (s.phys p).mode).map fun n => s.twill.logical.getD n LogPort.reset
  (s.pinFollow (16 + p) (l.any (·.remapped))).pinFollow (20 + p) (l.any (·.dropped))

/-- A logical port completes training; with a lane dropped it stays down (19 R527). -/
def doPortTrained (port : Nat) (laneDropped laneRemapped : Bool) (s : State) : State :=
  let p := port / 8
  if s.fatal || !s.pins.sysclk || !(s.twill.logical.getD port LogPort.reset).training
     || !(modePorts p (s.phys p).mode).contains port then s
  else
    let s := (s.onLogical port fun x => { x with dropped := laneDropped, remapped := laneRemapped }).portLaneFaults p
    if laneDropped then s
    else ((s.onLogical port fun x => { x with up := true, training := false }).linkChange port true).modeReply p

/-- PORT_TRAINED (R210). -/
def execPortTrained (port : Nat) (laneDropped laneRemapped : Bool) (s : State) : Res :=
  .next (doPortTrained port laneDropped laneRemapped s)

/-- DEV_PORT_QUERY: link state, lanes, FEC counts, in a layout that the spec does not give (log 13); FEC counts are measured
and free (log 19). -/
def doDevPortQuery (c : Cmd) (s : State) : State :=
  s.sf 0x0104 c noDeny true true fun _ s =>
    let n := c.target.toNat
    let x := s.twill.logical.getD n LogPort.reset
    let inMode := (modePorts (n / 8) (s.phys (n / 8)).mode).contains n
    let lanes := if inMode then 8 / 2 ^ (s.phys (n / 8)).mode else 0
    (s.useFree, some { Answer.ok with data := Config.layout 0x0104 [b2n x.up, lanes, b2n x.dropped, s.freeVal] })

/-- DEV_PORT_QUERY. -/
def execDevPortQuery (c : Cmd) (s : State) : Res := .next (doDevPortQuery c s)

/-! ## Transmission (R207 R213 R222 R223). Instants of a port are in 1/200 ns of FT. -/

/-- FT now. -/
def State.nowUnits (s : State) : Nat := (s.ft * 65536 + s.time.frac) * 200 / 65536

/-- Wire time of a frame on a logical port whose physical port is in a mode. -/
def wireUnits (mode len : Nat) : Nat := (max len 60 + 24) * 2 ^ mode

/-- A head that could start now: its tile, queue and frame, whether in relay form through a group, and its start. -/
structure Head where
  tile : Nat
  key : TwKey
  frame : TwFrame
  via : Option Nat
  start : Nat
deriving DecidableEq, Repr

/-- The head of a queue, where it may start now at or after `from'` and end by `by'`; `via` adds the relay header. -/
def State.headAt (s : State) (n tile : Nat) (k : TwKey) (via : Option Nat) (from' : Nat) (by' : Option Nat) : Option Head :=
  match s.twFrames tile k with
  | [] => none
  | f :: _ =>
    let start := max (max (s.twill.logical.getD n LogPort.reset).busyUntil from') (max (f.admitFt * 200) (s.nowUnits - 200))
    let len := f.bytes.length + (if via.isSome then 22 else 0)
    let stop := start + wireUnits (s.phys (n / 8)).mode len
    if s.nowUnits < start || !(by'.all fun b => decide (stop ≤ b)) || (via.isSome && 9574 < f.bytes.length) then none
    else some { tile := tile, key := k, frame := f, via := via, start := start }

/-- The number of a queue in the rotation of its tile. -/
def TwKey.rank : TwKey → Nat
  | .port _ _ => 0
  | .dg d => 1 + d
  | .relay d => 16385 + d
  | .source q => 32769 + q

/-- The next of a rotation: the least number above the last served, else the least. -/
def rotate {α : Type} (rank : α → Nat) (last : Nat) (l : List α) : Option α :=
  let best := fun (l : List α) => l.foldl (fun (b : Option α) x => match b with
    | some y => if rank x < rank y then some x else some y
    | none => some x) none
  (best (l.filter fun x => last < rank x)).orElse fun _ => best l

/-- What a rotation served last. -/
def State.lastOf (s : State) (k : Nat) : Nat := (s.twill.rot.get k).getD 1000000

/-- A rotation moved on. -/
def State.setLast (s : State) (k v : Nat) : State := s.onTwill fun w => { w with rot := w.rot.set k v }

/-- The rotation among the queues of a tile for a port and class, among the tiles for a port and class, and of a slot's
steps. -/
def rotQueue (tile n tc : Nat) : Nat := 1000 + (tile * 32 + n) * 8 + tc
def rotTile (n tc : Nat) : Nat := n * 8 + tc
def rotStep (p step : Nat) : Nat := 10000 + p * 4 + step

/-- The heads that a tile may nominate for a port and class: its port queue, and outside a slot the DG and relay queues of
the groups whose record names them (R207). -/
def State.tileHeads (s : State) (n tile tc : Nat) (portOnly : Bool) (from' : Nat) (by' : Option Nat) : List Head :=
  (s.twill.queues.filter fun q => q.tile == tile && match q.key with
    | .port m t => m == n && t == tc
    | k => match k.group with
      | some d => !portOnly && (s.dgRecord d).any fun r => r.port == n && r.tc == tc
      | none => false).filterMap fun q => s.headAt n tile q.key none from' by'

/-- The choice of R207: the highest class that any tile nominates, by rotation among tiles and queues. -/
def State.choose (s : State) (n : Nat) (portOnly : Bool) (from' : Nat) (by' : Option Nat) : Option (Head × Nat) :=
  (List.range 8).reverse.findSome? fun tc =>
    let tiles := (List.range 4).filterMap fun t =>
      rotate (fun (h : Head) => h.key.rank) (s.lastOf (rotQueue t n tc)) (s.tileHeads n t tc portOnly from' by')
    (rotate (fun (h : Head) => h.tile) (s.lastOf (rotTile n tc)) tiles).map fun h => (h, tc)

/-- The heads of one group's queues on all tiles. -/
def State.groupHeads (s : State) (n : Nat) (k : TwKey) (via : Option Nat) (from' : Nat) (by' : Option Nat) : List Head :=
  (List.range 4).filterMap fun t => s.headAt n t k via from' by'

/-- The groups that name `d` as a relay peer. -/
def State.groupsVia (s : State) (d : Nat) : List Nat :=
  (s.twill.dgs.filter fun (_, r) => !r.self && (r.via0 == some d || r.via1 == some d)).map (·.1)

/-- The choice in a slot of group `d` (R223): relay queues, DG queues, then other groups in relay form. -/
def State.chooseSlot (s : State) (n d : Nat) (relay : Bool) (from' : Nat) (by' : Option Nat) : Option (Head × Nat) :=
  let p := n / 8
  match s.dgRecord d with
  | none => none
  | some r =>
    if r.port ≠ n then none
    else
      let pick := fun step l => (rotate (fun (h : Head) => h.tile) (s.lastOf (rotStep p step)) l).map fun h => (h, rotStep p step)
      (pick 0 (s.groupHeads n (.relay d) none from' by')).orElse fun _ =>
      (pick 1 (s.groupHeads n (.dg d) none from' by')).orElse fun _ =>
      if !relay then none
      else
        let gs := (s.groupsVia d).filter fun g => !(s.groupHeads n (.dg g) (some d) from' by').isEmpty
        match rotate id (s.lastOf (rotStep p 3)) gs with
        | some g => pick 2 (s.groupHeads n (.dg g) (some d) from' by')
        | none => none

/-- The relay form of a frame (R213). -/
def relayForm (mac tc g originFt : Nat) (b : Bytes) : Bytes :=
  toBe 6 mac ++ sliceZ b 6 6 ++ [0x88, 0xB5, 0x10, byte (tc % 8)] ++ toBe 2 g ++ toBe 4 (originFt % 2 ^ 32) ++ b

/-- TC of a frame. -/
def Dest.tc : Dest → Nat
  | .port _ t => t
  | .dg _ t => t
  | .none => 0

/-- The timestamp of an instant: FT, and FT_FRAC in steps of 0.25 ns (02 R54). -/
def stampOf (u : Nat) : Nat × Nat := (u / 200, u % 200 * 4 / 200 * 16384)

/-! ## One-step timestamps (02 R57) -/

/-- The PTP message of a frame that leaves on a port: the level that carries it, and where it begins (05 R154). -/
def State.ptpAt (s : State) (n : Nat) (b : Bytes) : Option (Lvl × Nat) :=
  let v := s.damask.version
  (v.parse b n (v.profile n).depth).level 0 |>.bind fun l =>
    if l.etype = 0x88F7 then some (l, 14 + 4 * l.vlans) else if l.l4Kind = 6 then some (l, l.l4 + 8) else none

/-- The UDP checksum of a frame computed anew, over IPv4 or IPv6; bytes beyond the datagram are padding. -/
def udpSummed (l : Lvl) (b : Bytes) : Bytes :=
  let n := be b (l.l4 + 4) 2
  let addrs := if l.l3Kind = 1 then sliceZ b (l.l3 + 12) 8 else sliceZ b (l.l3 + 8) 32
  let zeroed := splice b (l.l4 + 6) [0, 0]
  let sum := csumOf (addrs ++ [0, 17] ++ toBe 2 n ++ sliceZ zeroed l.l4 n)
  splice b (l.l4 + 6) (toBe 2 (if sum = 0 then 0xFFFF else sum))

/-- A PTP message with an amount added to its correctionField, in 2^-16 ns. -/
def corrected (o n : Nat) (b : Bytes) : Bytes := splice b (o + 8) (toBe 8 ((be b (o + 8) 8 + n) % 2 ^ 64))

/-- A PTP message as one-step mode has it leave: a Sync with the transmit timestamp in originTimestamp and its part below 1 ns in
correctionField (R36), a Pdelay_Resp with the turnaround added to correctionField. Other messages leave as they are. -/
def oneStepped (l : Lvl) (o ft frac turn : Nat) (b : Bytes) : Bytes :=
  let done := fun (b : Bytes) => if l.l4Kind = 6 then udpSummed l b else b
  match byteAt b o % 16 with
  | 0 => done (corrected o frac (splice b (o + 34) (toBe 6 (ft / 1000000000) ++ toBe 4 (ft % 1000000000))))
  | 3 => done (corrected o turn b)
  | _ => b

/-- The frame is one of the PTP agent, which is service firmware: a frame that it disposed of, or sent on a queue of its own (log 46). -/
def State.agentFrame (s : State) (f : TwFrame) : Bool :=
  (match f.rx with
    | some r => match r.stage with
      | .slowPath _ _ => true
      | _ => false
    | none => false)
  || ((f.op.bind s.op).bind fun o => s.queue o.qid).any (·.owner == .firmware)

/-- The bytes of a frame as it leaves a port at a timestamp. The turnaround runs from the receipt of the frame that the agent answers in
place; that of a message on a queue is the agent's, and free (log 46). -/
def State.leaveBytes (s : State) (n : Nat) (f : TwFrame) (ft frac : Nat) : Bytes :=
  if !Config.oneStep n || !s.agentFrame f then f.bytes
  else match s.ptpAt n f.bytes with
    | none => f.bytes
    | some (l, o) =>
      oneStepped l o ft frac (match f.rx with
        | some r => ft * 65536 + frac + 2 ^ 64 - (r.ft * 65536 + r.frac) % 2 ^ 64
        | none => s.freeVal % 2 ^ 64) f.bytes

/-- A chosen head starts on its port. -/
def State.transmit (s : State) (n : Nat) (h : Head) : State :=
  let (ft, frac) := stampOf h.start
  let g := h.key.group.getD 0
  let body := s.leaveBytes n h.frame ft frac
  let b := match h.via with
    | some d => relayForm ((s.twill.dgs.get d).map (·.mac) |>.getD 0) h.frame.dest.tc g ft body
    | none => body
  let p := n / 8
  let s := (s.useFree.popTw h.tile h.key).onLogical n fun x => { x with
    busyUntil := h.start + wireUnits (s.phys p).mode b.length, txTile := some h.tile }
  let s := (s.count Ct.netPort p (4 + 5 * (n % 8))).countBy Ct.netPort p (5 + 5 * (n % 8)) b.length
  let s := s.emit (.frame n b ft)
  let s := match h.via, h.key with
    | some _, _ => ((s.setLast (rotStep p 3) g).count Ct.twill h.tile 9).sampleTw h.frame 2 0 g
    | none, .port _ _ => s.sampleTw h.frame 0 0 n
    | none, _ => s.sampleTw h.frame 1 0 g
  match h.frame.op with
  | some o => s.txEnd o St.ok h.frame.bytes.length ft frac n
  | none => s

/-- The boundary of an entry into SCHEDULED mode accepted at `t`: the first after it, or, where a step has passed that one over
and it no longer counts, the next (R225 R227). -/
def State.entryBoundary (s : State) (p : Nat) (c : Sched) (t : Nat) : Nat :=
  let b := c.boundary t + c.cycle
  if s.ft < b then b else if (s.cycleNow p).isSome then s.ft else c.boundary s.ft + c.cycle

/-- A free logical port starts the next frame. -/
def doFrameTransmitStart (port : Nat) (s : State) : State :=
  let p := port / 8
  let x := s.phys p
  if s.fatal || !s.linkUp port then s
  else if !x.scheduled then
    let bound := match x.active, x.schedPend.find? (·.1) with
      | some c, some (_, _, t) => some (s.entryBoundary p c t * 200)
      | _, _ => none
    match s.choose port false (if x.freeFrom ≤ s.ft then x.freeFrom * 200 else 0) bound with
    | some (h, tc) => ((s.transmit port h).setLast (rotTile port tc) h.tile).setLast (rotQueue h.tile port tc) h.key.rank
    | none => s
  else match x.active, x.slot with
    | some c, some (i, start) =>
      if s.ft < start || start + c.slotLen ≤ s.ft || (start < s.ftu.stepAt && s.ftu.stepAt ≤ s.ft) then s
      else
        let e := (c.slots.get i).getD 0
        let from' := (start + c.guardNs) * 200
        let by' := some ((start + c.slotLen) * 200)
        if bit e 15 then
          match s.choose port true from' by' with
          | some (h, tc) => ((s.transmit port h).setLast (rotTile port tc) h.tile).setLast (rotQueue h.tile port tc) h.key.rank
          | none => s
        else match s.chooseSlot port (e % 16384) (bit e 14) from' by' with
          | some (h, k) => (s.transmit port h).setLast k h.tile
          | none => s
    | _, _ => s

/-- FRAME_TRANSMIT_START (R207). -/
def execFrameTransmitStart (port : Nat) (s : State) : Res := .next (s.onDie (4 + port / 16) (doFrameTransmitStart port))

end Sys2Proof.Machine
end

