-- ==== Sys2Proof/Machine/Receive.lean ====
section
/-! DEFINITION. The path of a received frame: reception and steering (05 R156 to R158), classification (R149 to R151),
policing (07 R205), the table lookup (06 R173), admission to Twill (07 R188) and the disposal of slow-path frames (12 R349). -/

namespace Sys2Proof.Machine

/-! ## Reception and steering -/

/-- The word of a logical port's block in its physical port's counters (18 R499). -/
def portWord (n k : Nat) : Nat := 2 + 5 * (n % 8) + k

/-- The timestamp fraction in steps of 0.25 ns (02 R54). -/
def State.stampFrac (s : State) : Nat := s.time.frac / 16384 * 16384

/-- A received frame just timestamped. -/
def State.newRx (s : State) (port : Nat) (b : Bytes) (tile hash : Nat) (st : Stage) : RxFrame where
  frozen := none
  port := port
  bytes := b
  ft := s.ft
  frac := s.stampFrac
  tile := tile
  hash := hash
  stage := st
  parse := none
  sampled := false
  parsedAt := 0
  tableAt := 0
  admitAt := 0

/-- The group of this device: its SELF record. -/
def State.selfMac (s : State) : Option Nat := (s.twill.dgs.find? fun (_, r) => r.self).map fun (_, r) => r.mac

/-- A relay frame (R214): its Ethertype and DMAC. -/
def State.isRelay (s : State) (b : Bytes) : Bool := 14 ≤ b.length && be b 12 2 == 0x88B5 && s.selfMac == some (be b 0 6)

/-- A relay frame stripped and admitted to its group's relay queue, or refused (R214). -/
def State.relayReceive (s : State) (port : Nat) (b : Bytes) : State :=
  let d := be b 16 2
  let tile := s.unparked ((s.damask.ind.getD (netDie port) []).getD (d % 512) 0)
  match s.twill.dgs.get d with
  | none => s.count Ct.twill tile 11
  | some r =>
    if b.length < 22 || byteAt b 14 != 0x10 || !r.relayHold then s.count Ct.twill tile 11
    else match s.destFault (.dg d r.tc) with
      | some (w, _) => s.count Ct.twill tile w
      | none =>
        let s := s.count Ct.twill tile 10
        let body := b.drop 22
        match s.admitFail tile (.relay d) body.length 0 false with
        | some w => s.count Ct.twill tile w
        | none => s.enqueue tile (.relay d) { bytes := body, colour := 0, admitFt := s.ft, op := none, rx := none, copy := none,
                                              launch := none, dest := .dg d (byteAt b 15 % 8) }

/-- A frame that an indirection entry steered to its old tile before the point, and that this tile has not yet passed to Twill; a KRM frame is
passed to the KRM engine instead (R158). -/
def RxFrame.before (f : RxFrame) (entry point old : Nat) : Bool :=
  netDie f.port * 512 + f.hash % 512 == entry && !f.byHome && decide (f.ft < point) && f.tile == old && f.stage != .krm

/-- The old tile of an indirection entry still has frames from before the point (R158). -/
def State.oldHolds (s : State) (entry tile : Nat) : Bool :=
  match s.damask.moved.get entry with
  | some (old, point) => old != tile && s.twill.frames.any fun (_, f) => f.before entry point old
  | none => false

/-- The steering change of an entry still holds its frames on a tile: the point of the change. -/
def State.holding (s : State) (port hash tile : Nat) : Option Nat :=
  let entry := netDie port * 512 + hash % 512
  match s.damask.moved.get entry with
  | some (_, point) => if s.ft < point + 4096 && s.oldHolds entry tile then some point else none
  | none => none

/-- A frame that the connection map steers, and not an indirection entry (R156). -/
def State.byHome (s : State) (ps : PState) (b : Bytes) : Bool :=
  ps.krm && (ps.level 0).any fun l => s.damask.home.has (be b (l.l4 + 12) 4 / 4096)

/-- The entries of a die whose tile differs between two tables, with the tile to which the old one sent frames (R156). -/
def State.changedEntries (s : State) (die : Nat) (old new : List Nat) : List (Nat × Nat) :=
  (List.range 512).filterMap fun i => if old.getD i 0 = new.getD i 0 then none else some (die * 512 + i, s.unparked (old.getD i 0))

/-- Pending steering tables and home maps take effect (R158). -/
def State.applySteering (s : State) : State :=
  let d := s.damask
  let new := d.indPend.getD d.ind
  let ch := (List.range 2).flatMap fun k => s.changedEntries k (d.ind.getD k []) (new.getD k [])
  s.onDamask fun d => { d with
    ind := new, indPend := none, homePend := []
    home := d.homePend.foldl (fun h (cid, t) => match t with
      | some t => h.set cid t
      | none => h.del cid) d.home
    moved := ch.foldl (fun m (e, t) => m.set e (t, s.ft)) d.moved }

/-- FT stands at a rebalance point, or a forward step has just passed one over, whose changes take effect at the step (02 R46). -/
def State.steerPoint (s : State) : Bool :=
  s.onRebalance || s.dueRebalance (s.ft - s.ftu.stepAmt.toNat)

/-- Steering changes that wait govern every frame from their point on, this one too (R158). -/
def State.steerNow (s : State) : State :=
  if s.steerPoint && (s.damask.indPend.isSome || !s.damask.homePend.isEmpty) then s.applySteering else s

/-- A frame on a logical port. -/
def doFrameReceive (port : Nat) (bytes : Bytes) (fcsOk : Bool) (s : State) : State :=
  let p := port / 8
  if s.fatal || !s.linkUp port then s
  else if s.power.dev = .standby ∨ s.power.standby.isSome = true then s.count Ct.netPort p 1
  else if !fcsOk then s.count Ct.netPort p (portWord port 4)
  else
    let s := ((s.count Ct.netPort p (portWord port 0)).countBy Ct.netPort p (portWord port 1) bytes.length).steerNow
    if s.isRelay bytes then s.relayReceive port bytes
    else
      let v := s.damask.version
      let ps := v.parse bytes port 128
      let hash := ps.flowHash bytes (v.profile port)
      let tile := s.steer port ps bytes hash
      if 0x8000000 < s.bufUse tile + bytes.length then s.count Ct.twill tile 5
      else
        let home := s.byHome ps bytes
        let st := if home then Stage.arrived else match s.holding port hash tile with
          | some t => .steerHold t
          | none => .arrived
        (s.newFrame { s.newRx port bytes tile hash st with byHome := home }).1

/-- FRAME_RECEIVE (R156). -/
def execFrameReceive (port : Nat) (bytes : Bytes) (fcsOk : Bool) (s : State) : Res := .next (s.onDie (4 + port / 16) (doFrameReceive port bytes fcsOk))

/-- A frame held across a steering change is released 4,096 ns after the point, and counted where the old tile still holds frames before it. -/
def doSteerHoldExpired (frame : Nat) (s : State) : State :=
  match s.twill.frames.get frame with
  | some f => match f.stage with
    | .steerHold t =>
      if t + 4096 ≤ s.ft then
        let s := if s.oldHolds (netDie f.port * 512 + f.hash % 512) f.tile then s.count Ct.damask f.tile 18 else s
        s.onFrameRx frame fun f => { f with stage := .arrived }
      else s
    | _ => s
  | none => s

/-- STEER_HOLD_EXPIRED (R158). -/
def execSteerHoldExpired (frame : Nat) (s : State) : Res := .next (doSteerHoldExpired frame s)

/-- Both indirection tables as service firmware may write them: each entry a tile in use of its choosing, from a free value on (R156, log 55). -/
def State.freeTables (s : State) (n : Nat) : List (List Nat) :=
  let use := (List.range 4).filter s.tileUsed
  (List.range 2).map fun k => (List.range 512).map fun i => use.getD (Config.freeNat (n + k * 512 + i) % max 1 use.length) 0

/-- Service firmware's flow rebalancing: at a point of its choosing it writes both indirection tables, with tiles in use of its choosing
(R156 R63; log 55). -/
def State.rebalance (s : State) : State :=
  let free := s.freeVal
  let new := s.freeTables (s.free + 1)
  let s := s.onFree (· + 1025)
  if free % 2 = 0 ∨ s.damask.indPend.isSome ∨ !s.cmd.sfReady then s else s.onDamask fun d => { d with indPend := some new }

/-- At a rebalance point. -/
def doSteeringUpdate (s : State) : State := if !s.fatal && s.steerPoint then s.rebalance.applySteering else s

/-- STEERING_UPDATE (R158). -/
def execSteeringUpdate (s : State) : Res := .next (doSteeringUpdate s)

/-! ## Classification (R149 to R151) -/

/-- Rule hits counted (R148). -/
def State.countHits (s : State) (l : List (Nat × Nat)) : State :=
  l.foldl (fun s (t, i) => s.count Ct.rules (t + 16 * (i / 64)) (i % 64)) s

/-- What a classified frame keeps of its parse. -/
def parseOf (f : RxFrame) (p : PState) (c : Classified) (strip : Bool) : Parse :=
  let noTable := p.krm || p.reason != 0 || !(c.verdict == 0 || c.verdict == 3)
  { reason := p.reason, depth := p.depth, l3Ok := p.l3Ok, l4Ok := p.l4Ok f.bytes, cls := c.cls.getD 0
    colour := c.colour.getD 0, verdict := c.verdict, qid := c.qid, policer := c.policer, table := c.table.getD 0
    krm := p.krm, ptpEvent := p.ptpEvent, strip := strip && (match p.level 0 with
        | some l => l.vlans != 0
        | none => false)
    result := parseResult f p c p.reason noTable }

/-- A frame goes on from its policer, or past it: its copy under COPY_TO_SLOW is made, and its next stage set (R150). -/
def State.afterPolicer (s : State) (n : Nat) (f : RxFrame) (p : Parse) : State :=
  let f := { f with parse := some p }
  let s := if p.verdict = 3 then s.slowCopy f else s
  if p.verdict = 4 then
    s.onTwill fun w => { w with frames := w.frames.set n { f with stage := .resolved (2 * 2 ^ 60 + p.qid.getD 0) } }
  else if p.krm then
    let s := s.sampleRec f 4 0 0
    s.onTwill fun w => { w with frames := w.frames.set n { f with stage := .krm, sampled := false } }
  else s.onTwill fun w => { w with frames := w.frames.set n { f with stage := .policed } }

/-- A frame parsed and classified. -/
def State.classify (s : State) (n : Nat) (f : RxFrame) : State :=
  let (s, tag) := s.sampleTag f.tile
  let s := s.count Ct.damask f.tile 0
  let v := s.versionOf f
  let prof := v.profile f.port
  let ps := v.parse f.bytes f.port prof.depth
  let c := v.classify ps f.port
  let s := s.countHits c.hits
  let p := parseOf f ps c prof.vlanStrip
  let f := { f with parse := some p, sampled := tag, parsedAt := s.ft }
  if p.verdict = 1 then s.dropRx n f 15
  else if p.verdict = 4 ∧ p.qid.isNone then s.dropRx n f 16
  else if p.verdict ≠ 4 ∧ p.reason ≠ 0 then s.slowPath n f p.reason
  else if p.verdict = 2 then s.slowPath n f 0x0D
  else if p.policer.isSome then
    s.onTwill fun w => { w with frames := w.frames.set n { f with stage := .classified } }
  else s.afterPolicer n f p

/-- Damask takes a frame: one that has arrived, or one held that need not wait any longer. -/
def doFrameClassify (frame : Nat) (s : State) : State :=
  if s.fatal then s else
  match s.twill.frames.get frame with
  | none => s
  | some f => match f.stage with
    | .arrived => s.classify frame f
    | .steerHold _ => if (s.holding f.port f.hash f.tile).isNone && s.ft < (match f.stage with
          | .steerHold t => t
          | _ => 0) + 4096 then s.classify frame { f with stage := .arrived } else s
    | _ => s

/-- FRAME_CLASSIFY (R149). -/
def execFrameClassify (frame : Nat) (s : State) : Res := .next (doFrameClassify frame s)

/-! ## Policing (07 R203 R205) -/

/-- A policer colours or drops a frame; a disabled one passes it unchanged. -/
def doPolicerDecide (frame : Nat) (s : State) : State :=
  if s.fatal then s else
  match s.twill.frames.get frame with
  | none => s
  | some f => match f.stage, f.parse with
    | .classified, some p =>
      let k := p.policer.getD 0
      let pol := (s.twill.policers.get k).getD (Policer.fresh (s.unparked k))
      if pol.rate = 0 then s.afterPolicer frame f p
      else
        let (pol, out) := pol.decide' s.ft f.bytes.length p.colour
        let s := (s.onTwill fun w => { w with policers := w.policers.set k pol }).count Ct.policer k out
        let r := splice p.result 53 [byte (out + 4 * p.verdict)]
        let p := { p with colour := out, result := r }
        if out = 2 then
          (s.sampleRec { f with parse := some p } 6 0 0).delFrame frame
        else s.afterPolicer frame f p
    | _, _ => s

/-- POLICER_DECIDE (R205). -/
def execPolicerDecide (frame : Nat) (s : State) : Res := .next (doPolicerDecide frame s)

/-! ## The table lookup (06 R162 R165 R173 R174) -/

/-- The destination and learn lookups of a frame in a table. -/
def State.lookups (s : State) (id : Nat) (t : Table) (f : RxFrame) (p : Parse) : State × Nat :=
  let v := s.versionOf f
  let ps := v.parse f.bytes f.port (v.profile f.port).depth
  let (s, a) := s.destLookup id t (t.keyOf ps p.cls)
  match if t.learn then t.learnKey ps else none with
  | some k => (s.learnLookup id ((s.tables.get id).getD t) k f.port, a)
  | none => (s, a)

/-- The table engine answers a frame. -/
def doTableLookup (frame : Nat) (s : State) : State :=
  if s.fatal then s else
  match s.twill.frames.get frame with
  | none => s
  | some f => match f.stage, f.parse with
    | .policed, some p =>
      match s.tables.get p.table with
      | none => s.dropRx frame f 19
      | some t =>
        let (s, a) := s.lookups p.table t f p
        let f := { f with tableAt := s.ft }
        match a / 2 ^ 60 with
        | 0 => s.dropRx frame f 20
        | 4 => s.slowPath frame f 0x40
        | _ => s.onTwill fun w => { w with frames := w.frames.set frame { f with stage := .resolved a } }
    | _, _ => s

/-- TABLE_LOOKUP (R173). -/
def execTableLookup (frame : Nat) (s : State) : Res := .next (doTableLookup frame s)

/-! ## Admission (07 R188 R190 R208 R209) -/

/-- A received frame as a Twill queue holds it. -/
def RxFrame.queued (f : RxFrame) (copy : Option Nat) (dest : Dest) : TwFrame where
  bytes := f.bytes
  colour := (f.parse.map (·.colour)).getD 0
  admitFt := 0
  op := none
  rx := some f
  copy := copy
  launch := none
  dest := dest

/-- A received frame dropped at its admission on a tile, with a Twill counter word. -/
def State.dropAdmit (s : State) (n : Nat) (f : RxFrame) (tile word : Nat) : State :=
  ((s.count Ct.twill tile word).sampleRec f 6 (32 + word) 0).delFrame n

/-- A frame admitted to one queue of a tile, or dropped. -/
def State.admitOne (s : State) (n : Nat) (f : RxFrame) (tile : Nat) (k : TwKey) (dest : Dest) : State :=
  match s.admitFail tile k f.bytes.length ((f.parse.map (·.colour)).getD 0) (tile == f.tile) with
  | some w => s.dropAdmit n f tile w
  | none => (s.delFrame n).enqueue tile k (f.queued none dest)

/-- A frame for a PKT_RX queue (R190). -/
def State.admitQueue (s : State) (n : Nat) (f : RxFrame) (qid : Nat) : State :=
  match s.queue qid with
  | some q => if q.cls = .pktRx ∧ q.state = .enabled then s.admitOne n f q.home (.source qid) .none else s.dropAdmit n f f.tile 6
  | none => s.dropAdmit n f f.tile 6

/-- The copies of a flooded frame; the frame's sample record is made at the first copy dropped here, if any is. -/
def State.floodCopies (s : State) (n tc : Nat) (f : RxFrame) : List Nat → State
  | [] => s
  | m :: rest =>
    match s.admitFail f.tile (.port m tc) f.bytes.length ((f.parse.map (·.colour)).getD 0) true with
    | some w =>
      let s := (s.count Ct.twill f.tile w).sampleRec f 6 (32 + w) 0
      State.floodCopies s n tc { f with sampled := false } rest
    | none => State.floodCopies (s.enqueue f.tile (.port m tc) (f.queued (some n) (.port m tc))) n tc f rest

/-- A frame passed to Twill by an ACTION (06 R165). -/
def State.admitFrame (s : State) (n : Nat) (f : RxFrame) (a : Nat) : State :=
  let tc := field a 57 3
  let arg := a % 2 ^ 32
  match a / 2 ^ 60 with
  | 1 =>
    match s.destFault (.port (arg % 32) tc) with
    | some (w, _) => s.dropAdmit n f f.tile w
    | none => s.admitOne n f f.tile (.port (arg % 32) tc) (.port (arg % 32) tc)
  | 2 => s.admitQueue n f (arg % 65536)
  | 3 =>
    match s.destFault (.dg (arg % 16384) tc) with
    | some (w, _) => s.dropAdmit n f f.tile w
    | none => s.admitOne n f f.tile (.dg (arg % 16384)) (.dg (arg % 16384) tc)
  | 5 =>
    let ports := (List.range 32).filter fun m => bit arg m && m != f.port && s.linkUp m
    if ports.isEmpty then (s.sampleRec f 6 0 0).delFrame n
    else (s.delFrame n).floodCopies n tc f ports
  | _ => s.dropRx n f 20

/-- An ACTION admits its frame on the frame's own tile: PORT, DG and FLOOD. -/
def admitsHere (a : Nat) : Bool := [1, 3, 5].contains (a / 2 ^ 60)

/-- A resolved frame is admitted. After its park point a tile admits none (16 R453). -/
def doTwillAdmit (frame : Nat) (s : State) : State :=
  if s.fatal then s else
  match s.twill.frames.get frame with
  | none => s
  | some f => match f.stage with
    | .resolved a => if !s.tileUsed f.tile && admitsHere a then s else s.admitFrame frame f a
    | _ => s

/-- TWILL_ADMIT (R188). -/
def execTwillAdmit (frame : Nat) (s : State) : Res := .next (doTwillAdmit frame s)

/-! ## Slow-path frames disposed of (12 R349) -/

/-- The frame of a handle on a tile. -/
def State.handleFrame (s : State) (tile h : Nat) : Option (Nat × RxFrame × Nat) :=
  s.twill.frames.findSome? fun (n, f) => match f.stage with
    | .slowPath k a => if k = h ∧ f.tile = tile then some (n, f, a) else none
    | _ => none

/-- The bytes of a slow-path frame as the packet buffer now holds them. -/
def State.bufRead (s : State) (tile a n : Nat) : Bytes :=
  (addrs (bufAddr tile a) n).map fun x => memGet s.mem x

/-- One SP_DISP message disposes of a frame. -/
def State.dispose (s : State) (tile w0 w1 : Nat) : State :=
  let new := field w0 16 16
  match s.handleFrame tile (w0 % 65536) with
  | none => s.count Ct.cores tile 32
  | some (n, f, a) =>
    let len := if new = 0 then f.bytes.length else new
    if (new ≠ 0 ∧ (new < 60 ∨ f.bytes.length < new)) ∨ w0 / 2 ^ 32 ≠ 0 ∨ w1 / 2 ^ 60 = 4 ∨ !actionOk w1 then
      s.count Ct.cores tile 32
    else
      let f := { f with bytes := s.bufRead tile a len }
      if w1 / 2 ^ 60 = 0 then s.delFrame n else s.admitFrame n f w1

/-- The oldest message of a tile's SP_DISP channel is taken. -/
def doSpDisp (tile : Nat) (s : State) : State :=
  if s.fatal then s else
  match s.takeMsg (tile * 2048 + 1) with
  | (s, none) => s
  | (s, some (_, [w0, w1])) => s.dispose tile w0.toNat w1.toNat
  | (s, some _) => s.count Ct.cores tile 32

/-- SP_DISP (R349). -/
def execSpDisp (tile : Nat) (s : State) : Res := .next (doSpDisp tile s)

end Sys2Proof.Machine
end

