-- ==== Sys2Proof/Machine/Packets.lean ====
section
/-! DEFINITION. The data of started operations (03 R103, 13 R373), the spoof checks of slices (13 R381 R382), and the packet
queues: PKT_TX (03 R80, 07 R189 R201), PKT_RX (03 R81 R84, 07 R190). -/

namespace Sys2Proof.Machine

/-! ## Data of operations (R103) -/

/-- A failed access of an operation's data: the status of the first in the data stands. -/
def Op.noteFail (o : Op) (off st : Nat) : Op :=
  { o with failAt := match o.failAt with
      | some (k, e) => if off < k then some (off, st) else some (k, e)
      | none => some (off, st) }

/-- One fragment of an operation's data read: at once from a device address, or from the host; service firmware has no host
(17 R461). -/
def State.readPiece (s : State) (n : Nat) (w : Owner) (f : Frag) (off : Nat) : State :=
  if f.dev then
    match s.devRead .engine f.addr f.len with
    | .data b => (s.meet 2 f.addr f.len).onOp n fun o => { o with got := o.got ++ [(off, b)] }
    | .poisoned => (s.meet 2 f.addr f.len).onOp n fun o => o.noteFail off (s.badStatus f.addr f.len)
    | .fault => s.onOp n fun o => o.noteFail off St.hostReadErr
  else match s.hostRead w f.addr f.len (.opData n off) with
    | (s, some _) => s.onOp n fun o => { o with reading := o.reading + 1 }
    | (s, none) => s.onOp n fun o => o.noteFail off St.hostReadErr

/-- Fragments of an operation's data read one after the other, from an offset of the stream on. -/
def State.readFrags (s : State) (n : Nat) (w : Owner) (off : Nat) : List Frag → State
  | [] => s
  | f :: l => if f.len = 0 then State.readFrags s n w off l else State.readFrags (s.readPiece n w f off) n w (off + f.len) l

/-- Data of an operation as read so far; bytes that have not arrived are 0. -/
def Op.data (o : Op) (total : Nat) : Bytes := o.got.foldl (fun b (k, x) => (splice b k x).take total) (zeros total)

/-- A read of an operation's data ends. -/
def State.opArrive (s : State) (n off : Nat) (how : ReadEnd) : State :=
  s.onOp n fun o =>
    let o := { o with reading := o.reading - 1 }
    match how with
    | .data b => { o with got := o.got ++ [(off, b)] }
    | e => o.noteFail off (readStatus e)

/-! ## Spoof checks (13 R381 R382) -/

/-- An address lies in a prefix of `bits` bits. -/
def inPrefix (bits : Nat) (p : Nat × Nat) (a : Nat) : Bool := a / 2 ^ (bits - p.2) == p.1 / 2 ^ (bits - p.2)

/-- The Ethertype after the tags from an offset, and its offset; none after more than `n` tags. -/
def etherAfter (b : Bytes) : Nat → Nat → Option (Nat × Nat)
  | off, 0 => if be b off 2 = 0x8100 ∨ be b off 2 = 0x88A8 then none else some (be b off 2, off)
  | off, n + 1 => if be b off 2 = 0x8100 ∨ be b off 2 = 0x88A8 then etherAfter b (off + 4) n else some (be b off 2, off)

/-- An IPv4 or IPv6 source address is allowed. -/
def SpoofSets.allows4 (x : SpoofSets) (a : Nat) : Bool := x.v4.any (inPrefix 32 · a)
def SpoofSets.allows6 (x : SpoofSets) (a : Nat) : Bool := x.v6.any (inPrefix 128 · a)

/-- A frame passes the checks of R381. -/
def SpoofSets.passes (x : SpoofSets) (frame : Bytes) : Bool :=
  let b := frame.take 128
  let tagged := be b 12 2 == 0x8100 || be b 12 2 == 0x88A8
  (x.anyMac || x.macs.contains (be b 6 6))
    && (x.anyVlan || x.vlans.contains (if tagged then be b 14 2 % 4096 else 0))
    && match etherAfter b 12 4 with
       | none => false
       | some (t, off) => x.anyIp || match t with
         | 0x0800 => x.allows4 (be b (off + 14) 4)
         | 0x86DD => x.allows6 (be b (off + 10) 16)
         | 0x0806 => x.allows4 (be b (off + 16) 4)
         | _ => true

/-- A spoof failure of a slice, or of a function that names a connection not its own (08 R233): the counters and the SPOOF
event; detail 0 for a frame, 1 for a KRM entry (R382, 18 R485). -/
def State.spoofFailed (s : State) (w : Owner) (detail : Nat) : State :=
  match w with
  | .slice sid m =>
    let s := (s.count Ct.slice sid 0).count Ct.func (fnWord m) 2
    s.raise (sourceNo (6 + m.port) 1) sid detail (.own w)
  | .function f => (s.count Ct.func (fnWord f) 2).raise (sourceNo (6 + f.port) 1) (fnWord f) detail (.own w)
  | _ => s

/-! ## PKT_TX (R80) -/

/-- TXF. -/
def txf (e : Bytes) : Nat := le e 8 4
/-- LAUNCH_FT of an entry with LAUNCH set. -/
def launchOf (e : Bytes) : Option Nat := if bit (txf e) 3 then some (le e 16 8) else none
/-- The length of the frame that an entry sends: with its inserted tag, at least 60 bytes. -/
def txLen (e : Bytes) (total : Nat) : Nat := max 60 (total + 4 * b2n (bit (txf e) 2))

/-- The frame with VLAN as its outermost tag. Its TPID is 0x8100: DESIGN CHOICE, R80 gives the TCI only (log 50). -/
def insertVlan (e b : Bytes) : Bytes :=
  if bit (txf e) 2 then sliceZ b 0 12 ++ [0x81, 0x00] ++ toBe 2 (le e 12 2) ++ b.drop 12 else b

/-- The checksum of the innermost IPv4 header inserted; nothing where the innermost IP header is IPv6. Which header L3_CSUM means in a
tunnelled frame is a DESIGN CHOICE, R80 does not say (log 50). -/
def insertL3 (p : PState) (b : Bytes) : Bytes :=
  match p.lvls.find? (·.l3Kind != 0) with
  | some l =>
    if l.l3Kind ≠ 1 then b
    else
      let n := 4 * (byteAt b l.l3 % 16)
      let z := splice b (l.l3 + 10) [0, 0]
      splice z (l.l3 + 10) (toBe 2 (csumOf (slice z l.l3 n)))
  | none => b

/-- The checksum of the innermost TCP or UDP header inserted; a UDP sum of 0 is sent as all ones (RFC 768). -/
def insertL4 (p : PState) (b : Bytes) : Bytes :=
  match p.sum with
  | none => b
  | some l =>
    let at' := l.off + (if l.proto = 6 then 16 else 6)
    let z := splice b at' [0, 0]
    let v := csumOf (l.addrs ++ [0, byte l.proto] ++ toBe 2 l.len ++ slice z l.off l.len)
    splice z at' (toBe 2 (if v = 0 ∧ l.proto = 17 then 0xFFFF else v))

/-- The logical port that a DEST leads to directly. -/
def State.destPort (s : State) : Dest → Nat
  | .port n _ => n
  | .dg d _ => ((s.dgRecord d).map (·.port)).getD 0
  | .none => 0

/-- The frame of an entry as it is sent: padded to 60 bytes after its tag is in, DESIGN CHOICE, R80 gives no order (log 50), with its
checksums (the headers as Damask would find them, log 26). -/
def State.txFrame (s : State) (e : Bytes) (dest : Dest) (b : Bytes) : Bytes :=
  let b := b ++ zeros (60 - b.length)
  let p := s.damask.version.parse b (s.destPort dest) b.length
  let b := if bit (txf e) 0 then insertL3 p b else b
  if bit (txf e) 1 then insertL4 p b else b

/-- A PKT_TX operation that ends without sending carries the instant at which it ended. -/
def State.txFail (s : State) (n status : Nat) : State := s.txEnd n status 0 s.ft 0 0

/-- A frame enters its DEST queue, or its source queue where frames or want of room keep it there (R189 R191). -/
def State.txEnter (s : State) (qid tile : Nat) (f : TwFrame) : State :=
  let src := TwKey.source qid
  if s.sourceHolds qid then s.enqueue tile src f
  else match s.destFault f.dest with
    | some (w, st) => s.discardTw tile f w st
    | none =>
      if (s.admitFail tile f.dest.key f.bytes.length 0 false).isSome then s.enqueue tile src f
      else s.enqueue tile f.dest.key f

/-- A frame whose data is whole is admitted: held in its source queue until its launch, or at once (R189 R201). -/
def State.txAdmit (s : State) (n : Nat) (o : Op) (tile : Nat) (b : Bytes) : State :=
  let s := s.onOp n fun o => { o with admitted := true }
  let f : TwFrame := { bytes := b, colour := 0, admitFt := s.ft, op := some n, rx := none, copy := none, launch := none, dest := o.dest }
  match launchOf o.entry with
  | some t =>
    if o.startFt ≤ t ∧ s.ft < t then
      let s := s.calEnter t (.launch o.qid n) tile
      s.enqueue tile (.source o.qid) { f with launch := some t }
    else s.txEnter o.qid tile f
  | none => s.txEnter o.qid tile f

/-- The tile that admits a started entry's frame: the one on which it started (03 R91), or the queue's home where that tile has been
parked and admits none (16 R453, log 40). -/
def State.admitTile (s : State) (o : Op) (q : Queue) : Nat := if s.tileUsed o.tile then o.tile else q.home

/-- The first byte of a slice's frame passes the host die: the sets in force then are those that the frame is checked against (R382). -/
def State.firstByte (s : State) (n off : Nat) : State :=
  match s.op n with
  | some o => match ((s.queue o.qid).bind fun q => q.owner.sid).bind s.slice with
    | some x => if off = 0 ∧ o.sets = none then s.onOp n fun o => { o with sets := some x.spoof } else s
    | none => s
  | none => s

/-- A frame whose data has been read: the spoof check, then admission (R381, R189). -/
def State.txReady (s : State) (n : Nat) (o : Op) (q : Queue) : State :=
  match o.failAt with
  | some (_, st) => s.txFail n st
  | none =>
    let b := insertVlan o.entry (o.data (fragTotal o.frags))
    let ok := match q.owner.sid.bind s.slice with
      | some x => (o.sets.getD x.spoof).passes b
      | none => true
    if ok then s.txAdmit n o (s.admitTile o q) (s.txFrame o.entry o.dest b)
    else (s.spoofFailed q.owner 0).txFail n St.denied

/-- The operations of a PKT_TX queue whose data is whole are admitted in index order (R191), at most `k`. -/
def State.txAdvance (s : State) (qid : Nat) : Nat → State
  | 0 => s
  | k + 1 =>
    match s.qm.ops.find? fun (_, o) => o.qid == qid && !o.admitted, s.queue qid with
    | some (n, o), some q => if o.reading = 0 then State.txAdvance (s.txReady n o q) qid k else s
    | _, _ => s

/-- Every operation of a queue whose data is whole. -/
def State.txGo (s : State) (qid : Nat) : State := s.txAdvance qid s.qm.ops.length

/-- The Twill queue that a frame of a PKT_TX queue enters first has room for it (R189). -/
def State.txRoom (s : State) (q : Queue) (qid : Nat) (e : Bytes) (len : Nat) : Bool :=
  let src := TwKey.source qid
  let k := if (launchOf e).isSome || s.sourceHolds qid then src else q.shaper.dest.key
  (s.admitFail q.home k (len + s.txReserved k) 0 false).isNone

/-- A SEND entry starts: room, shaper, and its data is read. What TW_SHAPER_SET changed takes effect at this decision's refill, so DEST and
OVERHEAD are read after it (07 R199). -/
def doPktTxSend (qid : Nat) (s : State) : State :=
  match s.readyHead qid with
  | none => s
  | some (q, e) =>
    if q.cls != .pktTx || entryOp e != 1 then s
    else
      let frags := entryFrags .pktTx e q.headFrags
      let len := txLen e (fragTotal frags)
      match (s.refill qid).queue qid with
      | none => s.refill qid
      | some q =>
        if !(s.refill qid).txRoom q qid e len then s
        else match s.shaperGo qid (frameCharge q.shaper.overhead len) with
          | (s, false) => s
          | (s, true) =>
            let s := match launchOf e with
              | some t => if t < s.ft then s.count Ct.twill q.home 12 else s
              | none => s
            let (s, n) := s.newOp qid e frags
            (s.readFrags n q.owner 0 frags).txGo qid

/-- PKT_TX_SEND (R80). -/
def execPktTxSend (qid : Nat) (s : State) : Res := .next (doPktTxSend qid s)

/-! ## PKT_RX (R81 R84) -/

/-- A POST entry posts its buffer: it starts, and waits for a frame. -/
def doPktRxPost (qid : Nat) (s : State) : State :=
  match s.readyHead qid with
  | none => s
  | some (q, e) =>
    if q.cls != .pktRx || entryOp e != 2 then s else (s.newOp qid e (entryFrags .pktRx e none)).1

/-- PKT_RX_POST (R81). -/
def execPktRxPost (qid : Nat) (s : State) : Res := .next (doPktRxPost qid s)

/-- A frame without the outermost tag of its level-0 Ethernet header, where its port strips it, and that tag (05 R141). -/
def stripVlan (f : RxFrame) (p : Parse) : Bytes × Option Nat :=
  if p.strip then (f.bytes.take 12 ++ f.bytes.drop 16, some (be f.bytes 14 2)) else (f.bytes, none)

/-- The completion of a delivered frame (R82 R84 R85). -/
def rxCompl (e : Bytes) (qid : Nat) (ts : Bool) (f : RxFrame) (p : Parse) (tci : Option Nat) (n : Nat) (trunc : Bool) : Bytes :=
  let (stamp, tail) := pktStamp ts f.ft f.frac
    ([byte p.cls, byte (b2n p.l3Ok + 2 * b2n p.l4Ok + 4 * b2n tci.isSome + 8 * b2n p.ptpEvent + 16 * p.colour)]
      ++ toLe 2 (tci.getD 0) ++ toLe 2 f.port)
  complBytes (entryCookie e) (if trunc then St.rxTruncated else St.ok) qid n f.hash stamp tail

/-- A frame is written to the oldest posted buffer. A device address that is not mapped ends it with a path status (01 R21); a write that
the host die does not make is dropped unseen (13 R532). -/
def State.rxDeliver (s : State) (qid : Nat) (q : Queue) (n : Nat) (o : Op) (f : RxFrame) (p : Parse) : State :=
  let d := o.frags.headD { addr := 0, len := 0, dev := false }
  let (b, tci) := stripVlan f p
  let k := min b.length d.len
  let trunc := decide (d.len < b.length)
  let s := (s.popTw (s.sourceTile qid q.home) (.source qid)).sampleRec f 3 0 qid
  let (s, done) := s.writeData q.owner d (b.take k)
  let s := s.onQm fun m => { m with ops := m.ops.del n }
  let lost := d.dev && !done
  let st := if lost then St.hostWriteErr else if trunc then St.rxTruncated else St.ok
  let k := if lost then 0 else k
  let c := rxCompl o.entry qid q.ts4400 f p tci k trunc
  s.finish qid o.idx { qid := qid, ok := st == St.ok, suppressed := false, bytes := if lost then splice c 4 (toLe 2 st) else c
                       data := none, event := false, tag := none, tile := some o.tile } st k

/-- The head of a PKT_RX source queue is delivered when the shaper permits and a posted buffer is at hand. -/
def doPktRxDeliver (qid : Nat) (s : State) : State :=
  match s.queue qid with
  | none => s
  | some q =>
    match s.twFrames (s.sourceTile qid q.home) (.source qid), s.qm.ops.find? fun (_, o) => o.qid == qid with
    | f :: _, some (n, o) =>
      if s.fatal || q.cls != .pktRx || s.ownerHeld q.owner || s.ownerResetting q.owner then s
      else match f.rx with
        | none => s
        | some r => match r.parse with
          | none => s
          | some p =>
            let q' := ((s.refill qid).queue qid).getD q
            match s.shaperGo qid (frameCharge q'.shaper.overhead f.bytes.length) with
            | (s, false) => s
            | (s, true) => s.rxDeliver qid q n o r p
    | _, _ => s

/-- PKT_RX_DELIVER (R190). -/
def execPktRxDeliver (qid : Nat) (s : State) : Res := .next (doPktRxDeliver qid s)

end Sys2Proof.Machine
end

