-- ==== Sys2Proof/Machine/Krm.lean ====
section
/-! DEFINITION. KRM on the wire (08_krm_remote_memory.md): the packet form, the receive record, windows at apply time, the
send side, acknowledgement, retransmission and congestion control (R240 to R265). The readings that the text needs are in
assumption log 16. -/

namespace Sys2Proof.Machine

/-! ## Areas of device memory that Buckram places at boot, by their region numbers (log 31) -/

def connRegion : Nat := 1
/-- The response area of a tile (09 R280). -/
def respRegion (tile : Nat) : Nat := 4 + tile

/-- A line of an area at an offset is poisoned (14 R404). -/
def State.areaPoisoned (s : State) (region off : Nat) : Bool :=
  match s.dram.regions.get region with
  | some r => s.linePoisoned (r.base + off)
  | none => false

/-- An engine reads bytes of an area (14 R404 R405). -/
def State.areaMeet (s : State) (region off n : Nat) : State :=
  match s.dram.regions.get region with
  | some r => s.meet 2 (r.base + off) n
  | none => s

/-- Bytes that Buckram writes into an area of its own, at an offset (R250, 10 R305). -/
def State.areaWrite (s : State) (region off : Nat) (b : Bytes) : State :=
  match s.dram.regions.get region with
  | some r => (s.pokeBytes (r.base + off) b).cleanLines (r.base + off) b.length
  | none => s

/-- Every byte of an area is 0. -/
def State.areaClear (s : State) (region : Nat) : State :=
  match s.dram.regions.get region with
  | some r => s.onMem fun m => m.filter fun (k, _) =>
      !(regionChans r.local3).contains (k / 2 ^ 40) || k % 2 ^ 40 < r.chanBase || r.chanBase + r.share ≤ k % 2 ^ 40
  | none => s

/-- Bytes of an area, as they stand in memory, for a requester of 17 R459. -/
def State.areaRead (s : State) (who : Requester) (region off n : Nat) : Option Bytes :=
  match s.dram.regions.get region with
  | some r => match s.devRead who (r.base + off) n with
    | .data b => some b
    | _ => none
  | none => none

/-- A record of the inline key table: a free IV, then the key, the salt and the counter sealed under the inline key-encryption key
(10 R305; the layout is the model's, log 32). -/
def State.keyRecord (s : State) (plain : Bytes) : Bytes :=
  let iv := toBe 12 s.freeVal
  let (ct, tag) := gcmSeal (s.cy.kek.getD []) iv [] (sliceZ plain 0 100)
  iv ++ ct ++ tag

/-- The record of a CID, or of a VID after the CIDs, written. -/
def State.writeKeyRecord (s : State) (idx : Nat) (plain : Bytes) : State :=
  if s.cy.kek.isSome then (s.areaWrite keyRegion (idx * 128) (s.keyRecord plain)).useFree else s

/-- The record of a CID, or of a VID after the CIDs, wiped (09 R271, 17 R482). -/
def State.wipeKeyRecord (s : State) (idx : Nat) : State := s.areaWrite keyRegion (idx * 128) (zeros 128)

/-- Calico reads a record: the errors of its lines are met (14 R405). -/
def State.keyMeet (s : State) (idx : Nat) : State := s.areaMeet keyRegion (idx * 128) 128

/-- Calico opens a record: it is there, can be read, and its tag is right (10 R305, 14 R404). It is opened at its first use, and the key
cached from then on. -/
def State.keyOk (s : State) (idx : Nat) : Bool :=
  match s.cy.kek, s.areaRead .calico keyRegion (idx * 128) 128 with
  | some k, some b => (gcmOpen k (b.take 12) [] (sliceZ b 12 100) (sliceZ b 112 16)).isSome
  | _, _ => false

/-- An inline item joins the work of channel 0 or 1 of a tile, an engine slice for each 512 bytes begun (10 R290 R294 R295 R296; log 32).
`frame`: the received frame that waits for it, with the bytes it counts against the hold (10 R295). -/
def State.inlineItem (s : State) (tile ch bytes : Nat) (frame : Option Nat := none) (held : Nat := 0) : State :=
  s.onCy fun y => { y with inlineWork := y.inlineWork ++
    [{ tile := tile, chan := ch, frame := frame, bytes := held, left := ceilDiv bytes 512 }] }

/-! ## Connections -/

/-- A connection. -/
def State.conn (s : State) (cid : Nat) : Option Conn := s.krm.conns.get cid

/-- A connection changed. -/
def State.onConn (s : State) (cid : Nat) (f : Conn → Conn) : State := s.onKrm fun k => { k with conns := k.conns.mod cid f }

/-- A parameter of KRM_CONN_CREATE by its offset in the header, and of its parameter block (R236). -/
def Conn.par (c : Conn) (off n : Nat) : Nat := le c.params (off - 16) n
def Conn.blk (c : Conn) (off n : Nat) : Nat := le c.block off n

def Conn.strict (c : Conn) : Bool := bit (c.par 20 1) 1
def Conn.sealed (c : Conn) : Bool := bit (c.par 20 1) 2
def Conn.v6 (c : Conn) : Bool := bit (c.par 20 1) 3
def Conn.dg (c : Conn) : Option Nat := if bit (c.par 20 1) 4 then some (c.par 22 2 % 16384) else none
def Conn.mss (c : Conn) : Nat := if c.par 21 1 = 0 then 4096 else 256 * c.par 21 1
def Conn.rq (c : Conn) : Nat := c.par 24 2
def Conn.tc (c : Conn) : Nat := c.par 28 1 % 8
def Conn.retryMax (c : Conn) : Nat := if c.par 29 1 % 16 = 0 then 7 else c.par 29 1 % 16
def Conn.rnrRetry (c : Conn) : Nat := if c.par 29 1 / 16 = 0 then 7 else c.par 29 1 / 16
def Conn.localIp (c : Conn) : Nat := be c.block 0 16
def Conn.peerIp (c : Conn) : Nat := be c.block 16 16
def Conn.rtoFloor (c : Conn) : Nat := if c.blk 48 4 = 0 then 20000 else c.blk 48 4
def Conn.cwndMax (c : Conn) : Nat := if c.blk 52 4 = 0 then 2097152 else c.blk 52 4
def Conn.iw (c : Conn) : Nat := if c.blk 56 2 = 0 then 16 else c.blk 56 2
def Conn.rnrWait (c : Conn) : Nat := 1024 * (if c.blk 58 2 = 0 then 10 else c.blk 58 2)

/-- The peer's UDP port: the device's KRM port where none is given. -/
def State.peerUdp (s : State) (c : Conn) : Nat := if c.blk 44 2 = 0 then s.damask.krmPort else c.blk 44 2

/-- The logical port that the connection's packets leave on. -/
def State.connPort (s : State) (c : Conn) : Nat :=
  match c.dg with
  | some d => s.destPort (.dg d c.tc)
  | none => c.blk 40 1 % 32

/-- One of the counters of the KRM engine, for the home tile and the connection (18 R499 kinds 3 and 18). -/
def State.krmCount (s : State) (cid word : Nat) (n : Nat := 1) : State :=
  match s.conn cid with
  | some c => (s.countBy Ct.krm c.home word n).countBy Ct.conn cid word n
  | none => s

/-- The connection's state is in its tile's cache (R232). -/
def State.cachedConn (s : State) (cid : Nat) : Bool := s.krm.cached.contains cid

/-- Connection state fetched into the cache of the home tile, whose least recently fetched entry gives way (R232 R266). -/
def State.fetchConn (s : State) (cid : Nat) : State :=
  match s.conn cid with
  | none => s
  | some c =>
    if s.cachedConn cid then s
    else
      let same := s.krm.cached.filter fun k => (s.conn k).any fun x => x.home == c.home
      s.onKrm fun k => { k with cached := cid :: (if 16384 ≤ same.length then k.cached.erase (same.getLastD cid) else k.cached) }

/-! ## The wire format (R241 to R247) -/

/-- Frame bytes before the body of an unsealed packet. -/
def Conn.headLen (c : Conn) : Nat := 14 + (if c.blk 38 2 = 0 then 0 else 4) + (if c.v6 then 40 else 20) + 8 + 32

/-- Wire bytes of a packet with a body (R264). -/
def Conn.wireOf (c : Conn) (body : Nat) : Nat := max 60 (c.headLen + (if c.sealed then 24 else 0) + body) + 24

/-- The 32-byte KRM header. -/
def krmHeader (sealed : Bool) (opc pfl peer psn w offset len x : Nat) : Bytes :=
  [byte (16 + 8 * b2n sealed), byte opc] ++ toBe 2 pfl ++ toBe 4 peer ++ toBe 4 psn ++ toBe 4 w ++ toBe 8 offset ++ toBe 4 len
    ++ toBe 4 x

/-- The inline key with which an end seals now (10 R306). -/
def State.sealKey (s : State) (cid : Nat) : Option InlineKey := s.cy.cidKeys.get cid

/-- A replacement key takes over at its effect point; the key before it is kept for the grace time (10 R306). A record whose tag fails
is no key (10 R305): the one before it stays (log 32). -/
def State.rekey (s : State) (cid : Nat) : State :=
  match s.sealKey cid with
  | none => s
  | some k =>
    match k.next with
    | some (key, salt, ctr, t) =>
      if s.ft < t then s
      else
      let s := s.keyMeet cid
      if !s.keyOk cid then
        (s.onCy fun y => { y with cidKeys := y.cidKeys.set cid { k with next := none } }).raise
          (sourceNo (((s.conn cid).map (·.home)).getD 0) 577) cid 0 .sec
      else
        let k' : InlineKey := { key := key, salt := salt, previous := some (k.key, k.salt), graceEnd := t + 1048576, next := none }
        (s.onCy fun y => { y with cidKeys := y.cidKeys.set cid k' }).onConn cid fun c => { c with sealTx := ctr }
    | none => s

/-- The packet of a connection as an Ethernet frame. The IPv4 identification and the IPv6 flow label are the device's. -/
def State.krmFrame (s : State) (c : Conn) (payload : Bytes) (ecn : Nat) : Bytes :=
  let ulen := 8 + payload.length
  let l := sliceZ c.block 0 16
  let p := sliceZ c.block 16 16
  let tos := (c.blk 41 1 % 64) * 4 + ecn
  let hop := if c.blk 42 1 = 0 then 64 else c.blk 42 1
  let addrs := if c.v6 then l ++ p else l.drop 12 ++ p.drop 12
  let udp0 := toBe 2 (c.par 26 2) ++ toBe 2 (s.peerUdp c) ++ toBe 2 ulen
  let pseudo := addrs ++ [0, 17] ++ toBe 2 ulen
  let sum := csumOf (pseudo ++ udp0 ++ [0, 0] ++ payload)
  let udp := udp0 ++ toBe 2 (if sum = 0 then 0xFFFF else sum)
  let ip := if c.v6 then
      toBe 4 (6 * 2 ^ 28 + tos * 2 ^ 20 + s.freeVal % 2 ^ 20) ++ toBe 2 ulen ++ [17, byte hop] ++ l ++ p
    else
      let h := [0x45, byte tos] ++ toBe 2 (20 + ulen) ++ toBe 2 (s.freeVal % 65536) ++ [0x40, 0, byte hop, 17, 0, 0] ++ addrs
      splice h 10 (toBe 2 (csumOf h))
  let tag := if c.blk 38 2 = 0 then [] else [0x81, 0x00] ++ toBe 2 (c.blk 38 2)
  sliceZ c.block 32 6 ++ toBe 6 (Config.portMac (s.connPort c)) ++ tag ++ (if c.v6 then [0x86, 0xDD] else [0x08, 0x00]) ++ ip
    ++ udp ++ payload

/-- A packet formed: sealed under the connection's key with the next seal counter where it is sealed (R247). -/
def State.formPacket (s : State) (cid : Nat) (c : Conn) (opc pfl psn w offset len x : Nat) (body : Bytes) (ecn : Nat) :
    State × Bytes :=
  let h := krmHeader c.sealed opc pfl (c.peer.getD 0) psn w offset len x
  if c.sealed then
    match s.sealKey cid with
    | none => (s.useFree, s.krmFrame c (h ++ body) ecn)
    | some k =>
      let ctr := toBe 8 (c.sealTx % 2 ^ 64)
      let (ct, tag) := gcmSeal k.key (k.salt ++ ctr) (h ++ ctr) body
      let s := ((s.onConn cid fun c => { c with sealTx := c.sealTx + 1 }).count Ct.calico c.home 4).inlineItem c.home 0 (40 + body.length)
      (s.useFree, s.krmFrame c (h ++ ctr ++ ct ++ tag) ecn)
  else (s.useFree, s.krmFrame c (h ++ body) ecn)

/-- The Twill queue of a connection's packets. -/
def Conn.dest (c : Conn) : Dest :=
  match c.dg with
  | some d => .dg d c.tc
  | none => .port (c.blk 40 1 % 32) c.tc

/-- Twill has room for a packet of the connection, or drops it at admission (07 R189 R209). A sealed connection whose key has been
wiped sends nothing (17 R467). -/
def State.krmRoom (s : State) (c : Conn) (len : Nat) : Bool :=
  !(c.sealed && !c.keyed) && ((s.destFault c.dest).isSome || (s.admitFail c.home c.dest.key len 0 false).isNone)

/-- A packet handed to Twill. -/
def State.handOver (s : State) (c : Conn) (b : Bytes) : State :=
  match s.destFault c.dest with
  | some (w, _) => s.count Ct.twill c.home w
  | none => s.enqueue c.home c.dest.key { bytes := b, colour := 0, admitFt := s.ft, op := none, rx := none, copy := none,
                                          launch := none, dest := c.dest }

/-! ## ACK and NAK (R245 R246 R261) -/

/-- How far a PSN lies beyond AT, counted from AT + 1. -/
def Conn.ahead (c : Conn) (psn : Nat) : Nat := (psn + 2 ^ 33 - c.at' - 1) % 2 ^ 32

/-- A bitmap bit. -/
def Conn.hasPsn (c : Conn) (psn : Nat) : Bool := c.ahead psn < 256 && bit c.bitmap (c.ahead psn)

/-- The bitmap of an ACK: applied and held packets. Bit i is byte i / 8, bit 7 - i mod 8. -/
def Conn.ackBits (c : Conn) : Bytes :=
  let held := (c.hold.filter (·.admitted.isNone)).map fun p => c.ahead p.psn
  (List.range 32).map fun k => byte ((List.range 8).foldl (fun v j =>
    if bit c.bitmap (8 * k + j) || held.contains (8 * k + j) then v + 2 ^ (7 - j) else v) 0)

/-- An ACK (0x10) or NAK (0x11) sent, or kept until Twill has room. -/
def State.sendCtl (s : State) (cid opc reason npsn : Nat) : State :=
  let s := s.rekey cid
  match s.conn cid with
  | none => s
  | some c =>
    if s.krmRoom c (c.headLen + 56) then
      let pfl := 16 * b2n (decide (s.ft < c.ceUntil))
      let (s, b) := s.formPacket cid c opc pfl c.at' reason 0 32 npsn c.ackBits 0
      let s := (s.krmCount cid 0).krmCount cid 2 32
      let s := if opc = 0x11 then s.krmCount cid 13 else s
      let s := s.onConn cid fun c => { c with unacked := 0, ackDue := none, ctl := c.ctl.erase (opc, reason, npsn) }
      s.handOver c b
    else s.onConn cid fun c => { c with ctl := if c.ctl.contains (opc, reason, npsn) then c.ctl else c.ctl ++ [(opc, reason, npsn)] }

/-- An ACK at once. -/
def State.ackNow (s : State) (cid : Nat) : State := s.sendCtl cid 0x10 0 0

/-- A NAK. -/
def State.nak (s : State) (cid reason psn : Nat) : State := s.sendCtl cid 0x11 reason psn

/-! ## The receive record (R249) -/

/-- AT advanced over applied packets. -/
def Conn.slide : Nat → Conn → Conn
  | 0, c => c
  | n + 1, c => if c.bitmap % 2 = 1 then Conn.slide n { c with at' := (c.at' + 1) % 2 ^ 32, bitmap := c.bitmap / 2 } else c

/-- A PSN applied or consumed. -/
def Conn.consume (c : Conn) (psn : Nat) : Conn :=
  let c := Conn.slide 256 { c with bitmap := c.bitmap ||| 2 ^ c.ahead psn, hold := c.hold.filter (·.psn != psn) }
  { c with firsts := c.firsts.filter fun (f, n) => !seqLe (f + n - 1) c.at' }

/-- Header fields. -/
def hOpc (h : Bytes) : Nat := byteAt h 1
def hPfl (h : Bytes) : Nat := be h 2 2
def hPsn (h : Bytes) : Nat := be h 8 4
def hW (h : Bytes) : Nat := be h 12 4
def hOff (h : Bytes) : Nat := be h 16 8
def hLen (h : Bytes) : Nat := be h 24 4
def hX (h : Bytes) : Nat := be h 28 4

/-- A packet leaves a gap below it: a PSN before it has neither been applied nor is held, nor waits for its write to be accepted
(R245 R261). -/
def Conn.gapBelow (c : Conn) (psn : Nat) : Bool :=
  !seqLe psn c.at' && (List.range (min 256 (c.ahead psn))).any fun i =>
    !bit c.bitmap i && !c.hold.any fun p => c.ahead p.psn == i

/-- What a packet that was applied calls for: an ACK at once, or after the fourth or 2,048 ns (R261). `ce`: it was marked; `waited`: it
was held before, and was answered then (log 16). -/
def State.afterApply (s : State) (cid psn pfl : Nat) (ce waited : Bool) : State :=
  let s := s.onConn cid fun c => { c with unacked := c.unacked + 1, ackDue := c.ackDue.orElse fun _ => some (s.ft + 2048) }
  match s.conn cid with
  | none => s
  | some c => if 4 ≤ c.unacked || (!waited && (bit pfl 3 || c.gapBelow psn || ce)) then s.ackNow cid else s

/-- What a packet that is held calls for: it is received, and answered as one, but not applied (R245 R261). -/
def State.afterHold (s : State) (cid psn pfl : Nat) (ce : Bool) : State :=
  let s := s.onConn cid fun c => { c with ackDue := c.ackDue.orElse fun _ => some (s.ft + 2048) }
  match s.conn cid with
  | none => s
  | some c => if bit pfl 3 || c.gapBelow psn || ce then s.ackNow cid else s

/-- Bytes of KRM packets that a tile holds for their order, or that wait for Calico (R260, 10 R295). -/
def State.heldBytes (s : State) (tile : Nat) : Nat :=
  ((s.krm.conns.filter fun (_, c) => c.home == tile).map fun (_, c) => (c.hold.map fun p => 32 + p.body.length).sum).sum
    + ((s.cy.inlineWork.filter (·.tile == tile)).map (·.bytes)).sum

/-! ## Windows at apply time (R251) -/

/-- The window check of a WRITE or READ_REQ: the host address, or the NAK reason. A descriptor that cannot be read
denies (14 R404). -/
def State.windowCheck (s : State) (c : Conn) (key off len permBit : Nat) : Nat ⊕ Nat :=
  match s.krm.windows.get (key / 1024) with
  | some w =>
    if s.areaPoisoned windowRegion (key / 1024 * 32) then .inr 2
    else if w.state = .open ∧ w.gen ≠ key % 1024 then .inr 1
    else if w.state = .open ∧ w.owner = c.owner ∧ bit w.perm permBit ∧ off + len ≤ w.wlen then .inl ((w.base + off) % 2 ^ 64)
    else .inr 2
  | none => .inr 2

/-- The replies of a window's changes that no longer wait for an access admitted before their effect (R253). -/
def State.windowReplies (s : State) : State :=
  let busy := fun idx ft => s.krm.conns.any fun (_, c) =>
    c.hold.any (fun p => p.admitted.any (· < ft) && hOpc p.header == 1 && hW p.header / 1024 == idx)
      || c.served.any (fun r => r.window == idx && decide (r.admitted < ft))
  s.krm.windows.foldl (fun s (idx, w) =>
    let done := w.waits.filter fun (_, _, _, ft) => !busy idx ft
    if done.isEmpty then s
    else
      let s := s.onKrm fun k => { k with windows := k.windows.mod idx fun w => { w with
        waits := w.waits.filter fun (_, _, _, ft) => busy idx ft } }
      done.foldl (fun s (code, c, key, ft) => s.reply code c true { Answer.ok key with ft := some ft }) s) s

/-! ## Ends of operations -/

/-- CID of a KRM_SQ entry. -/
def krmCid (e : Bytes) : Nat := le e 8 4 % 1048576

/-- The started operations of KRM_SQ queues on a connection. -/
def State.connOps (s : State) (cid : Nat) : List Nat :=
  (s.qm.ops.filter fun (_, o) => krmCid o.entry == cid && match s.queue o.qid with
    | some q => q.cls == .krmSq
    | none => false).map (·.1)

/-- A KRM_SQ operation ends (R258). -/
def State.krmFinish (s : State) (n status : Nat) : State :=
  match s.op n with
  | none => s
  | some o => s.finishOp n status o.bytes (krmCid o.entry) s.ft []

/-- An operation whose packets are all acknowledged ends: with its NAK's status, or S_OK, a READ only when its data is
written as well (R246 R258). -/
def State.krmCheck (s : State) (cid n : Nat) : State :=
  match s.conn cid, s.op n with
  | some c, some o =>
    if !o.admitted || c.sent.any (·.op == some n) || c.queue.any (·.op == some n) then s
    else match o.status with
      | some (st) => (s.onConn cid fun c => { c with reads := c.reads.filter (·.op != n) }).krmFinish n st
      | none =>
        if c.reads.any fun r => r.op == n && (!r.acked || r.left != 0) then s
        else (s.onConn cid fun c => { c with reads := c.reads.filter (·.op != n) }).krmFinish n St.ok
  | _, _ => s

/-- The status of a NAK reason. -/
def nakStatus : Nat → Nat
  | 1 => St.windowRevoked
  | 2 => St.windowDenied
  | 4 => St.rxTruncated
  | 5 => St.hostReadTimeout
  | 6 => St.hostReadErr
  | 7 => St.poisoned
  | _ => St.badParam

/-! ## The responder's reads (R256) -/

/-- The host reads of READ_REQs that wait are issued, where the owner may make requests (13 R386). -/
def State.serveIssue (s : State) (cid : Nat) : State :=
  match s.conn cid with
  | none => s
  | some c =>
    if s.ownerHeld c.owner then s
    else c.served.foldl (fun s r =>
      if r.issued then s
      else
        let s := s.onConn cid fun c => { c with served := c.served.map fun x => if x.psn = r.psn then { x with issued := true } else x }
        match s.hostRead c.owner r.addr r.len (.serve cid r.psn) with
        | (s, some _) => s
        | (s, none) =>
          let s := s.onConn cid fun c => { c with served := c.served.filter (·.psn != r.psn) }
          s.nak cid 6 r.psn) s

/-- The packets of a read response. -/
def respPackets (c : Conn) (r : Served) (data : Bytes) : List SentPkt :=
  let n := ceilDiv data.length c.mss
  (List.range n).map fun k =>
    let b := slice data (k * c.mss) c.mss
    { psn := 0, op := none, piece := none, opc := 3
      pfl := b2n (k == 0) + (if k + 1 = n then 2 + 8 else 0), w := r.rtag, offset := k * c.mss, len := b.length, x := 0, body := b
      wire := c.wireOf b.length, firstFt := 0, lastFt := 0, retx := false, rnr := 0, rnrAt := none, resend := false, lost := false }

/-! ## Receive buffers (R257 R259) -/

/-- The head receive buffer of a KRM_RQ: the first posted and not taken. -/
def State.rqHead (s : State) (qid : Nat) (w : Owner) : Option (Nat × Op) :=
  match s.queue qid with
  | some q =>
    if q.cls = .krmRq ∧ q.owner = w then s.qm.ops.find? fun (_, o) => o.qid == qid && !o.admitted else none
  | none => none

/-- Bytes written into a fragment list at an offset; what lies beyond it is not written. `ro`: they may be relaxed-ordered (R255). -/
def State.scatter (s : State) (w : Owner) (frags : List Frag) (off : Nat) (b : Bytes) (ro : Bool := false) : State :=
  ((fragSlice frags off b.length).foldl (fun (s, k) f => ((s.writeData w f ((b.drop k).take f.len) ro).1, k + f.len)) (s, 0)).1

/-! ## The block engine's side of a connection (09 R269 R278 to R280) -/

/-- A volume. -/
def State.volume (s : State) (vid : Nat) : Option Volume := s.blk.volumes.get vid

/-- A volume changed. -/
def State.onVolume (s : State) (vid : Nat) (f : Volume → Volume) : State :=
  s.onBlk fun b => { b with volumes := b.volumes.mod vid f }

/-- Block size, span, RAM, XTS, and blocks per stripe unit. -/
def Volume.bs (v : Volume) : Nat := if bit v.vfl 4 then 4096 else 512
def Volume.span (v : Volume) : Nat := 2 ^ (v.vfl % 4)
def Volume.ram (v : Volume) : Bool := bit v.vfl 3
def Volume.xts (v : Volume) : Bool := bit v.vfl 2
def Volume.bu (v : Volume) : Nat := 4096 * 2 ^ v.stripe / v.bs

/-- A volume is READY. -/
def State.volReady (s : State) (v : Volume) : Bool := v.readyAt.any (· ≤ s.ft)

/-- A member, and its connection. -/
def Volume.member (v : Volume) (m : Nat) : Member := v.members.getD m { cid := 0, rvol := 0, rbase := 0 }

/-- The tile that serves a member (R269). -/
def State.memberTile (s : State) (vid : Nat) (v : Volume) (m : Nat) : Nat :=
  if v.ram then s.unparked ((vid + m) % 4) else ((s.conn (v.member m).cid).map (·.home)).getD 0

/-- Bytes of the response area that a piece's response takes. -/
def Piece.respBytes (p : Piece) (bs : Nat) : Nat := 64 + if p.bop = 1 then p.nblk * bs else 0

/-- A message is a well-formed RESP of a block size with a number of data bytes (R278 R279). -/
def BlkMsg.respOk (m : BlkMsg) (bs rb : Nat) : Bool :=
  let b := m.head
  64 ≤ b.length && byteAt b 0 == 1 && byteAt b 1 == 0x81 && byteAt b 2 == (if bs = 4096 then 12 else 9) && byteAt b 3 == 0
    && allZero b 24 4 && allZero b 30 2 && allZero b 36 28 && m.len == 64 + be b 32 4 && be b 32 4 == rb

/-- The request tag and the target status of a message. -/
def BlkMsg.rtag (m : BlkMsg) : Nat := be m.head 4 4
def BlkMsg.tstat (m : BlkMsg) : Nat := be m.head 28 2

/-- The data bytes of a piece's response with a target status. -/
def Piece.respData (p : Piece) (bs tstat : Nat) : Nat := if p.bop = 1 ∧ tstat = 0 then p.nblk * bs else 0

/-- The outstanding piece of a connection that a request tag names. -/
def State.pieceOfTag (s : State) (cid rtag : Nat) : Option (Nat × Piece × Volume) :=
  s.blk.pieces.findSome? fun (k, p) => match s.volume p.vid with
    | some v => if p.sent && !p.done && p.rtag == rtag && (v.member p.member).cid == cid && !v.ram then some (k, p, v) else none
    | none => none

/-- A message received for the block engine: a valid response goes to the response area, at the place of its piece; the engine takes it
from there (R280). -/
def State.respReceive (s : State) (cid : Nat) (b : Bytes) : State :=
  let m : BlkMsg := { head := b.take 64, len := b.length }
  let s := match s.pieceOfTag cid m.rtag with
    | some (_, p, v) => match p.slot with
      | some (t, off) => if m.respOk v.bs (p.respData v.bs m.tstat) then s.areaWrite (respRegion t) off b else s
      | none => s
    | none => s
  s.onConn cid fun c => { c with blkMsgs := c.blkMsgs ++ [m] }

/-- A message whose packets are all applied ends: its receive completion, or its bytes to the block engine. -/
def State.msgDone (s : State) (cid : Nat) (m : RxMsg) : State :=
  let s := s.onConn cid fun c => { c with msgs := c.msgs.filter (·.ssn != m.ssn) }
  match m.buffer with
  | none => s.respReceive cid m.body
  | some n => s.finishOp n (if m.truncated then St.rxTruncated else St.ok) m.written cid s.ft (toLe 4 m.imm ++ zeros 4)

/-- The message of a SEND packet, taken where it is the next and a buffer is there: the message, or none. -/
def State.msgFor (s : State) (cid : Nat) (c : Conn) (h : Bytes) : State × Option RxMsg :=
  let ssn := hOff h / 2 ^ 32
  match c.msgs.find? (·.ssn == ssn) with
  | some m => (s, some m)
  | none =>
    let m : RxMsg := { ssn := ssn, buffer := none, mlen := hX h, imm := hW h, body := [], applied := 0, written := 0
                       truncated := false, packets := 0 }
    let take := fun (m : RxMsg) (s : State) =>
      (s.onConn cid fun c => { c with msgs := c.msgs ++ [m], rcvSsn := (c.rcvSsn + 1) % 2 ^ 32 }, some m)
    if 0 < c.claims then take { m with body := zeros (hX h) } s
    else match s.rqHead c.rq c.owner with
      | some (n, _) => take { m with buffer := some n } (s.onOp n fun o => { o with admitted := true })
      | none => (s, none)

/-- A SEND packet counted into its message when its write is accepted. -/
def State.sendApplied (s : State) (cid : Nat) (h : Bytes) : State :=
  match s.conn cid with
  | none => s
  | some c =>
    match c.msgs.find? (·.ssn == hOff h / 2 ^ 32) with
    | none => s
    | some m =>
      let m := { m with applied := m.applied + hLen h, packets := m.packets + 1 }
      let s := s.onConn cid fun c => { c with msgs := c.msgs.map fun x => if x.ssn = m.ssn then m else x }
      if m.mlen ≤ m.applied then s.msgDone cid m else s

/-! ## Applying a packet (R255) -/

/-- What becomes of a packet that is taken up. -/
inductive Applied' where
  /-- its write is issued and waits for acceptance; a NAK of the reason, if any, follows it -/
  | admitted (reason : Option Nat := none)
  /-- it is consumed -/
  | consumed
  /-- it is consumed with a NAK -/
  | refused (reason : Nat)
  /-- it is dropped, not consumed: NAK NO_RECV_BUF -/
  | noBuffer
  /-- it is dropped, not consumed, for want of bus mastering (13 R386) -/
  | noMaster
deriving DecidableEq, Repr

/-- A SEND packet applied: its body written into the buffer as far as it fits. -/
def State.applySend (s : State) (cid : Nat) (c : Conn) (h body : Bytes) : State × Applied' :=
  if c.claims = 0 ∧ c.rq = 0xFFFF then (s, .refused 8)
  else if c.claims = 0 ∧ body ≠ [] ∧ s.ownerHeld c.owner then (s, .noMaster)
  else
    let (s, r) := s.msgFor cid c h
    match r with
    | none => (s, .noBuffer)
    | some m =>
      let off := hOff h % 2 ^ 32
      match m.buffer with
      | none =>
        (s.onConn cid fun c => { c with msgs := c.msgs.map fun x =>
          (if x.ssn = m.ssn then { x with body := (splice x.body off body).take m.mlen } else x) }, .admitted)
      | some n =>
        match s.op n with
        | none => (s, .admitted)
        | some o =>
          let room := fragTotal o.frags
          let k := min body.length (room - off)
          let s := s.scatter c.owner o.frags off (body.take k) !c.strict
          let cut := decide (room < off + body.length)
          let s := s.onConn cid fun c => { c with msgs := c.msgs.map fun x =>
            (if x.ssn = m.ssn then { x with written := x.written + k, truncated := x.truncated || cut } else x) }
          (s, .admitted (if cut then some 4 else none))

/-- A packet applied by its opcode. -/
def State.applyPkt (s : State) (cid : Nat) (c : Conn) (h body : Bytes) : State × Applied' :=
  match hOpc h with
  | 1 =>
    match s.windowCheck c (hW h) (hOff h) (hLen h) 0 with
    | .inr r => (s.areaMeet windowRegion (hW h / 1024 * 32) 32, .refused r)
    | .inl a => if s.ownerHeld c.owner then (s, .noMaster)
      else (((s.areaMeet windowRegion (hW h / 1024 * 32) 32).ownerWrite c.owner a body (!c.strict && !bit (hPfl h) 2)).1, .admitted)
  | 2 =>
    match s.windowCheck c (hW h) (hOff h) (hLen h) 1 with
    | .inr r => (s.areaMeet windowRegion (hW h / 1024 * 32) 32, .refused r)
    | .inl a =>
      let r : Served := { psn := hPsn h, window := hW h / 1024, addr := a, len := hLen h, rtag := hX h, admitted := s.ft, issued := false, tile := c.home }
      ((s.areaMeet windowRegion (hW h / 1024 * 32) 32).onConn cid fun c => { c with served := c.served ++ [r] }, .consumed)
  | 3 =>
    match c.reads.find? (·.rtag == hW h) with
    | none => (s, .consumed)
    | some r => match s.op r.op with
      | none => (s, .consumed)
      | some o =>
        if s.ownerHeld c.owner then (s, .noMaster)
        else (s.scatter c.owner o.frags (hOff h) body !c.strict, .admitted)
  | _ => s.applySend cid c h body

/-- A packet may be applied now (R260). -/
def Conn.mayApply (c : Conn) (h : Bytes) : Bool :=
  let psn := hPsn h
  if c.strict then c.ahead psn == 0 && c.served.isEmpty
  else if hOpc h = 1 ∧ bit (hPfl h) 2 then
    match (c.firsts.filter fun (f, n) => seqLe f psn && seqLe psn (f + n - 1)).head? with
    | some (f, _) => seqLe f (c.at' + 1)
    | none => false
  else if hOpc h = 4 then
    (c.claims == 0 && c.rq == 0xFFFF) || c.msgs.any (·.ssn == hOff h / 2 ^ 32) || c.rcvSsn == hOff h / 2 ^ 32
      || seqLe (hOff h / 2 ^ 32) c.rcvSsn
  else true

/-- One packet taken up: the receive record and the answer to it follow. `waited`: it was held before. -/
def State.takeUp (s : State) (cid : Nat) (c : Conn) (h body : Bytes) (ce waited : Bool) : State :=
  let psn := hPsn h
  let (s, r) := s.applyPkt cid c h body
  match r with
  | .admitted reason => s.onConn cid fun c => { c with hold := c.hold.filter (·.psn != psn) ++
      [{ psn := psn, header := h, body := body, ce := ce, admitted := some s.ft, waited := waited, refuse := reason }] }
  | .consumed => ((s.onConn cid (·.consume psn)).afterApply cid psn (hPfl h) ce waited).serveIssue cid
  | .refused r => (s.onConn cid (·.consume psn)).nak cid r psn
  | .noBuffer => (s.onConn cid fun c => { c with hold := c.hold.filter (·.psn != psn) }).nak cid 3 psn
  | .noMaster =>
    let s := s.onConn cid fun c => { c with hold := c.hold.filter (·.psn != psn) }
    match c.owner.fnRef with
      | some f => s.count Ct.func (fnWord f) 3
      | none => s

/-- Held packets that may now be applied are, in the order of their PSNs, at most `n`. -/
def State.drainHold (s : State) (cid : Nat) : Nat → State
  | 0 => s
  | n + 1 =>
    match s.conn cid with
    | none => s
    | some c =>
      let l := c.hold.filter fun p => p.admitted.isNone && c.mayApply p.header
      match l.foldl (fun (b : Option HeldPkt) p => match b with
          | some y => if c.ahead p.psn < c.ahead y.psn then some p else some y
          | none => some p) none with
      | none => s
      | some p =>
        let s' := s.takeUp cid c p.header p.body p.ce true
        if s'.conn cid = some c then s' else State.drainHold s' cid n

/-! ## Acknowledgements received (R261 R262 R264) -/

/-- Bytes in flight (R264): what is unacknowledged and was not given up at a timeout (log 16), but for the packet that is about to be
sent again. -/
def Conn.inFlight (c : Conn) (again : Option Nat) : Nat :=
  ((c.sent.filter fun p => !p.lost && again != some p.psn).map (·.wire)).sum

/-- The least CWND (R264). -/
def Conn.cwndFloor (c : Conn) : Nat := c.mss + 114

/-- The bound of R265. -/
def State.cwndBound (s : State) (c : Conn) : Nat :=
  match c.dg with
  | none => c.cwndMax
  | some d =>
    let x := s.phys (s.connPort c / 8)
    match x.scheduled, x.active with
    | true, some t =>
      let k := (t.slots.filter fun (_, e) => !bit e 15 && e % 16384 == d).length
      min c.cwndMax (k * ((t.slotLen - t.guardNs) * 200) * max 1 (ceilDiv c.srtt t.cycle))
    | _, _ => c.cwndMax

/-- A decrease of CWND, at most once per round. -/
def Conn.decrease (c : Conn) (sub : Nat) : Conn :=
  if c.roundEnd.isSome then c
  else { c with cwnd := max c.cwndFloor (c.cwnd - sub), roundEnd := some ((c.sndNext + 2 ^ 32 - 1) % 2 ^ 32) }

/-- The retransmission timeout before backoff (R262). -/
def Conn.rto (c : Conn) : Nat := if c.haveRtt then max c.rtoFloor (c.srtt + 4 * c.rttvar) else 100000

/-- A round-trip sample. -/
def Conn.sample (c : Conn) (r : Nat) : Conn :=
  if c.haveRtt then
    let d : Int := (r : Int) - c.srtt
    { c with rttvar := ((c.rttvar : Int) + ((d.natAbs : Int) - c.rttvar).tdiv 4).toNat, srtt := ((c.srtt : Int) + d.tdiv 8).toNat }
  else { c with srtt := r, rttvar := r / 2, haveRtt := true }

/-- An acknowledgement record covers a packet. -/
def covers (at' : Nat) (bits : Bytes) (psn : Nat) : Bool :=
  seqLe psn at' ||
    let i := (psn + 2 ^ 33 - at' - 1) % 2 ^ 32
    i < 256 && bit (byteAt bits (i / 8)) (7 - i % 8)

/-- The first sending of the packet with the highest PSN. -/
def highestFirst (l : List SentPkt) : Nat :=
  (l.foldl (fun (b : Option SentPkt) p => match b with
    | some y => if seqLe y.psn p.psn then some p else some y
    | none => some p) none).elim 0 (·.firstFt)

/-- The send side takes an acknowledgement record: acknowledged packets leave, the estimate, the window and the backoff
follow, and packets shown missing are to be sent again (R261 to R264). -/
def State.takeAck (s : State) (cid : Nat) (c : Conn) (at' : Nat) (bits : Bytes) (ece : Bool) : State :=
  let new := c.sent.filter fun p => covers at' bits p.psn
  let rest := c.sent.filter fun p => !covers at' bits p.psn
  let a := (new.map (·.wire)).sum
  let c := if new.isEmpty then c
    else
      let c := if new.any (·.retx) then c
        else c.sample (s.ft - highestFirst new)
      { c with backoff := 0, cwnd := min (s.cwndBound c) (c.cwnd + max 1 (c.mss * a / c.cwnd)) |> max c.cwndFloor }
  let c := { c with
    sent := rest
    reads := c.reads.map fun r => if new.any (fun p => p.opc == 2 && some p.psn == r.psn) then { r with acked := true } else r
    roundEnd := match c.roundEnd with
      | some e => if rest.any (·.psn == e) then some e else none
      | none => none }
  let c := if ece then c.decrease (c.cwnd / 8) else c
  let missing := rest.filter fun p => !p.resend && p.rnrAt.isNone && (!p.retx || p.lastFt + c.srtt ≤ s.ft)
    && decide (3 ≤ (new.filter fun q => !seqLe q.psn p.psn).length + (List.range 256).countP fun i =>
        bit (byteAt bits (i / 8)) (7 - i % 8) && !seqLe ((at' + 1 + i) % 2 ^ 32) p.psn
          && !new.any (fun q => q.psn == (at' + 1 + i) % 2 ^ 32))
  let c := if missing.isEmpty then c
    else
      let c := c.decrease (c.cwnd / 2)
      { c with sent := c.sent.map fun p => if missing.any (fun q => q.psn == p.psn) then { p with resend := true } else p }
  let s := s.onConn cid fun _ => c
  let s := s.krmCount cid 16 missing.length
  let counted : List (Nat × Nat × Nat) :=
    new.filterMap fun p => p.op.map fun n => (p.psn, n, if p.opc = 1 ∨ p.opc = 4 then p.len else 0)
  let s := s.onConn cid fun c => { c with acked := c.acked.filter (fun (_, n, _) => (s.op n).isSome) ++ counted }
  let ops := ((new.filterMap fun p => p.op).dedup)
  let s := new.foldl (fun s p => match p.op with
    | some n => s.onOp n fun o => if p.opc == 1 || p.opc == 4 then { o with bytes := o.bytes + p.len } else o
    | none => s) s
  ops.foldl (fun s n => s.krmCheck cid n) s

/-- A connection state change accepted, to take effect at the next frame boundary (R235). -/
def State.connNext (s : State) (cid : Nat) (st : ConnState) : State :=
  s.onConn cid fun c => if c.next.any (·.1 == st) then c else { c with next := c.next ++ [(st, s.ft)] }

/-- A limit reached: the connection goes to ERROR (R235). -/
def State.connFail (s : State) (cid status : Nat) (op piece : Option Nat) : State :=
  match s.conn cid with
  | none => s
  | some c =>
    if c.next.any (fun x => x.1 == .error || x.1 == .closing) then s
    else (s.onConn cid fun c => { c with cause := status, failOp := op, failPiece := piece }).connNext cid .error

/-- A NAK is treated (R246): a consumed PSN ends its operation, to which its bytes count for nothing; NO_RECV_BUF has its packet
sent again later. The refusals of a SEND are counted for it as a whole; those that come while one of its packets waits already
are one refusal with it (R263; log 16). -/
def State.takeNak (s : State) (cid : Nat) (c : Conn) (reason npsn : Nat) : State :=
  let s := s.krmCount cid 14
  if reason = 3 then
    match c.sent.find? (·.psn == npsn) with
    | none => s
    | some p =>
      let same := fun (q : SentPkt) => q.opc == 4 && q.op == p.op && q.piece == p.piece
      let n := if c.sent.any fun q => same q && q.rnrAt.isSome then p.rnr else p.rnr + 1
      let s := s.onConn cid fun c => { c with
        sent := c.sent.map fun q =>
          (if q.psn = npsn then { q with rnr := n, rnrAt := some (s.ft + c.rnrWait) } else if same q then { q with rnr := n } else q)
        queue := c.queue.map fun q => (if same q then { q with rnr := n } else q) }
      if c.rnrRetry ≤ n then s.connFail cid St.noRecvBuf p.op p.piece else s
  else
    let past := c.acked.find? fun (x : Nat × Nat × Nat) => x.1 == npsn
    let op := match c.sent.find? (·.psn == npsn) with
      | some p => p.op
      | none => match c.reads.find? (fun (r : PendRead) => r.psn == some npsn) with
        | some r => some r.op
        | none => past.map fun (x : Nat × Nat × Nat) => x.2.1
    let piece := (c.sent.find? (·.psn == npsn)).bind fun (p : SentPkt) => p.piece
    match op with
    | none =>
      if piece.isSome then s.onConn cid fun c => { c with queue := c.queue.filter fun (p : SentPkt) => p.piece != piece } else s
    | some n =>
      let older := match s.op n with
        | some o => match o.failAt with
          | some (k, _) => seqLe k npsn
          | none => false
        | none => true
      if older then s
      else
        let s := s.onOp n fun o => { o with
          failAt := some (npsn, nakStatus reason), status := some (nakStatus reason), bytes := o.bytes - (past.map fun (x : Nat × Nat × Nat) => x.2.2).getD 0 }
        let s := s.onConn cid fun c => { c with
          queue := c.queue.filter (·.op != some n)
          sent := c.sent.map fun (p : SentPkt) => if p.psn = npsn then { p with len := 0 } else p
          reads := c.reads.map fun (r : PendRead) => if r.op = n then { r with acked := true, left := 0 } else r }
        s.krmCheck cid n

end Sys2Proof.Machine
end

