-- ==== Sys2Proof/Machine/KrmRows.lean ====
section
/-! DEFINITION. The commands of KRM's data path (08 R249 to R264): packets received, accepted and sent, timers, and the entries
of KRM_SQ and KRM_RQ queues. -/

namespace Sys2Proof.Machine

/-! ## Receiving (R249) -/

/-- A received packet taken apart: source address and port, whether it was marked CE, the header, and what follows it. -/
structure KrmPkt where
  src : Nat
  port : Nat
  ce : Bool
  header : Bytes
  rest : Bytes
deriving DecidableEq, Repr

/-- The form of a KRM packet: at most one tag, no options or extension headers, and over IPv4 a computed checksum (R241; log 16). -/
def Lvl.krmForm (l : Lvl) (f : Bytes) : Bool :=
  l.vlans ≤ 1 && !l.ipopt && l.ehCount == 0 && (l.l3Kind != 1 || be f (l.l4 + 6) 2 != 0)

/-- The KRM packet of a frame, where its lengths and its checksum agree (R241). -/
def krmPacket (f : RxFrame) (ps : PState) (l4Ok : Bool) : Option KrmPkt :=
  match ps.level 0 with
  | none => none
  | some l =>
    let b := f.bytes
    let ulen := be b (l.l4 + 4) 2
    let h := slice b (l.l4 + 8) 32
    let sealed' := bit (byteAt h 0) 3
    let extra := if sealed' then 24 else 0
    let body := match hOpc h with
      | 2 => 0
      | _ => hLen h
    let ipOk := if l.l3Kind = 1 then be b (l.l3 + 2) 2 == byteAt b l.l3 % 16 * 4 + ulen else be b (l.l3 + 4) 2 == ulen
    if l4Ok && l.krmForm b && ulen == 40 + extra + body && ipOk && l.l4 + ulen ≤ b.length && h.length == 32 && byteAt h 0 / 16 == 1 then
      some { src := l.src, port := l.sport, ce := l.tos % 4 == 3, header := h, rest := slice b (l.l4 + 40) (extra + body) }
    else none

/-- A sealed body opened under a key. -/
def openUnder (key salt h rest : Bytes) : Option Bytes :=
  let ctr := rest.take 8
  let ct := (rest.drop 8).take (rest.length - 24)
  gcmOpen key (salt ++ ctr) (h ++ ctr) ct (rest.drop (rest.length - 16))

/-- A sealed body opened under the connection's key, or under the previous one in its grace time (R248, 10 R306). -/
def State.openSealed (s : State) (cid : Nat) (h rest : Bytes) : State × Option Bytes :=
  let s := s.rekey cid
  match s.sealKey cid with
  | none => (s, none)
  | some k =>
    match openUnder k.key k.salt h rest with
    | some b => (s.onCy fun y => { y with cidKeys := y.cidKeys.mod cid fun k => { k with previous := none } }, some b)
    | none => match k.previous with
      | some (pk, psalt) => if s.ft < k.graceEnd then (s, openUnder pk psalt h rest) else (s, none)
      | none => (s, none)

/-- The fields of a sequenced packet are in range for its opcode (R243, R249 check 9). -/
def krmFieldsOk (c : Conn) (h : Bytes) : Bool :=
  match hOpc h with
  | 1 => 1 ≤ hLen h && hLen h ≤ c.mss
  | 2 => 1 ≤ hLen h && hLen h ≤ 16777216
  | 3 => 1 ≤ hLen h && hLen h ≤ c.mss
  | 4 => hLen h ≤ c.mss && hOff h % 2 ^ 32 + hLen h ≤ hX h
  | _ => false

/-- Checks 6 to 12 of R249, for a packet whose body is in the clear. -/
def State.krmSequenced (s : State) (cid : Nat) (c : Conn) (h body : Bytes) (ce : Bool) : State :=
  let psn := hPsn h
  if hOpc h = 0x10 ∨ hOpc h = 0x11 then
    let s := if hOpc h = 0x11 then s.takeNak cid c (hW h % 256) (hX h) else s
    match s.conn cid with
    | some c => s.takeAck cid c psn body (bit (hPfl h) 4)
    | none => s
  else if seqLe psn c.at' ∨ c.hasPsn psn ∨ c.hold.any (·.psn == psn) then (s.krmCount cid 12).ackNow cid
  else if 256 ≤ c.ahead psn then s.krmCount cid 10
  else if !krmFieldsOk c h then ((s.onConn cid (·.consume psn)).nak cid 8 psn).drainHold cid c.hold.length
  else if 33554432 < s.heldBytes c.home + 32 + body.length then s.krmCount cid 11
  else
    let n := if bit (hPfl h) 1 then 1 else ceilDiv (hX h) (hLen h)
    let c := if hOpc h = 1 ∧ bit (hPfl h) 2 ∧ bit (hPfl h) 0 then { c with firsts := c.firsts ++ [(psn, n)] } else c
    let s := s.onConn cid fun _ => c
    if c.mayApply h then (s.takeUp cid c h body ce false).drainHold cid (c.hold.length + 1)
    else
      (s.onConn cid fun c => { c with hold := c.hold ++ [{ psn := psn, header := h, body := body, ce := ce, admitted := none }] }).afterHold
        cid psn (hPfl h) ce

/-- A packet for a connection: checks 3 to 5 of R249. -/
def State.krmForConn (s : State) (cid : Nat) (c : Conn) (p : KrmPkt) : State :=
  let s := (s.krmCount cid 1).krmCount cid 3 (if hOpc p.header = 2 then 0 else hLen p.header)
  if c.state != .open then s.krmCount cid 6
  else if p.src != c.peerIp || p.port != s.peerUdp c then s.krmCount cid 7
  else if bit (byteAt p.header 0) 3 != c.sealed then s.krmCount cid 8
  else
    let (s, body) := if c.sealed then
        let (s, b) := s.openSealed cid p.header p.rest
        (s.count Ct.calico c.home 4, b)
      else (s, some p.rest)
    match body, s.conn cid with
    | some b, some c =>
      let s := if p.ce then (s.onConn cid fun c => { c with ceUntil := s.ft + 1024 }).krmCount cid 15 else s
      s.krmSequenced cid ((s.conn cid).getD c) p.header b p.ce
    | _, _ => s.krmCount cid 9

/-- A packet passes checks 3 to 5 of R249 but for the tag, which Calico is to verify. -/
def State.krmToOpen (s : State) (c : Conn) (p : KrmPkt) : Bool :=
  c.sealed && c.state == .open && p.src == c.peerIp && p.port == s.peerUdp c && bit (byteAt p.header 0) 3

/-- A packet for a connection whose state is cached. A sealed one waits in the packet buffer until Calico has given it its engine
slices, and counts against the hold there; one too many is dropped (10 R295). -/
def State.krmTake (s : State) (frame cid : Nat) (c : Conn) (p : KrmPkt) : State :=
  match s.cy.inlineWork.find? (·.frame == some frame) with
  | some w => if w.left = 0 then (s.delFrame frame).krmForConn cid c p else s
  | none =>
    if !s.krmToOpen c p then (s.delFrame frame).krmForConn cid c p
    else if 33554432 < s.heldBytes c.home + 32 + p.rest.length then (s.delFrame frame).krmCount cid 11
    else s.inlineItem c.home 0 (16 + p.rest.length) (some frame) (32 + p.rest.length)

/-- The engine that counts what a frame draws before its connection is known: that of the home to which it was steered or forwarded, where
it names a live CID, else the tile it came to (R240). -/
def State.krmTile (s : State) (f : RxFrame) (ps : PState) : Nat :=
  match (ps.level 0).bind fun l => s.conn (be f.bytes (l.l4 + 12) 4 / 4096) with
  | some c => c.home
  | none => f.tile

/-- The KRM engine takes a frame. An uncached connection's frame waits for its state (R232). -/
def doKrmPacketReceive (frame : Nat) (s : State) : State :=
  if s.fatal then s else
  match s.twill.frames.get frame with
  | none => s
  | some f => match f.stage, f.parse with
    | .krm, some p =>
      let v := s.versionOf f
      let ps := v.parse f.bytes f.port (v.profile f.port).depth
      match krmPacket f ps p.l4Ok with
      | none => (s.count Ct.krm (s.krmTile f ps) 4).delFrame frame
      | some k =>
        let cid := be k.header 4 4 / 4096
        match s.conn cid with
        | none => (s.count Ct.krm f.tile 5).delFrame frame
        | some c =>
          if c.state == .free || be k.header 4 4 % 4096 != c.cgen then (s.count Ct.krm c.home 5).delFrame frame
          else if !s.cachedConn cid then s
          else s.krmTake frame cid c k
    | _, _ => s

/-- KRM_PACKET_RECEIVE (R249). -/
def execKrmPacketReceive (frame : Nat) (s : State) : Res := .next (doKrmPacketReceive frame s)

/-- A connection's state arrives in the cache; where it cannot be read the connection enters ERROR (14 R404). -/
def doKrmStateFetched (cid : Nat) (s : State) : State :=
  if s.fatal then s
  else if s.areaPoisoned connRegion (cid * 128) || s.areaPoisoned connRegion (cid * 128 + 64) then
    (s.areaMeet connRegion (cid * 128) 128).connFail cid St.uncorrectable none none
  else (s.areaMeet connRegion (cid * 128) 128).fetchConn cid

/-- KRM_STATE_FETCHED (R232). -/
def execKrmStateFetched (cid : Nat) (s : State) : Res := .next (doKrmStateFetched cid s)

/-- The write of an admitted packet is accepted: AT and the bitmap advance (R255). -/
def doKrmWriteAccepted (cid psn : Nat) (s : State) : State :=
  if s.fatal then s else
  match s.conn cid with
  | none => s
  | some c =>
    match c.hold.find? fun p => p.psn == psn && p.admitted.isSome with
    | none => s
    | some p =>
      let s := s.onConn cid (·.consume psn)
      let s := match hOpc p.header with
        | 3 =>
          let s := s.onConn cid fun c => { c with reads := c.reads.map fun (r : PendRead) =>
            (if r.rtag = hW p.header then { r with left := r.left - p.body.length } else r) }
          match c.reads.find? (fun (r : PendRead) => r.rtag == hW p.header) with
          | some r => (s.onOp r.op fun o => { o with bytes := o.bytes + p.body.length }).krmCheck cid r.op
          | none => s
        | 4 => s.sendApplied cid p.header
        | _ => s
      let s := if c.state = .open then
          (match p.refuse with
            | some r => s.nak cid r psn
            | none => s.afterApply cid psn (hPfl p.header) p.ce p.waited).drainHold cid c.hold.length
        else s
      s.windowReplies

/-- KRM_WRITE_ACCEPTED (R255). -/
def execKrmWriteAccepted (cid psn : Nat) (s : State) : Res := .next (doKrmWriteAccepted cid psn s)

/-- A responder's host read ends: the response is queued, or a NAK is sent (R256). -/
def State.serveDone (s : State) (cid psn : Nat) (how : ReadEnd) : State :=
  match s.conn cid with
  | none => s
  | some c =>
    match c.served.find? (fun (r : Served) => r.psn == psn) with
    | none => s
    | some r =>
      let s := s.onConn cid fun c => { c with served := c.served.filter (·.psn != psn) }
      let s := if c.state != .open then s else
        match how with
        | .data b => s.onConn cid fun c => { c with queue := c.queue ++ respPackets c r (sliceZ b 0 r.len) }
        | .timeout => s.nak cid 5 psn
        | .poisoned => s.nak cid 7 psn
        | _ => s.nak cid 6 psn
      (if c.state = .open then s.drainHold cid c.hold.length else s).windowReplies

/-- The outstanding host read of a served READ_REQ. -/
def State.serveTag (s : State) (cid psn : Nat) : Option Nat :=
  (s.host.reads.find? fun (_, r) => r.why == .serve cid psn && !r.dead && !r.waiting).map (·.1)

/-- A responder's host read ends. -/
def doKrmReadResponse (cid psn : Nat) (how : ReadEnd) (s : State) : State :=
  if s.fatal then s else
  match s.serveTag cid psn with
  | some t => (s.dropRead t).serveDone cid psn how
  | none => s

/-- KRM_READ_RESPONSE (R256). -/
def execKrmReadResponse (cid psn : Nat) (how : ReadEnd) (s : State) : Res := .next (doKrmReadResponse cid psn how s)

/-! ## Sending (R262 to R264) -/

/-- The next packet that may be sent: the one of lowest PSN that is to be sent again, else the first of the queue; with
its PSN, and whether it is sent again. -/
def Conn.nextPkt (c : Conn) : Option (SentPkt × Bool) :=
  match (c.sent.filter (·.resend)).foldl (fun (b : Option SentPkt) p => match b with
      | some y => if seqLe y.psn p.psn then some y else some p
      | none => some p) none with
  | some p => some (p, true)
  | none => match c.queue with
    | p :: _ => some ({ p with psn := c.sndNext }, false)
    | [] => none

/-- The oldest unacknowledged packet. -/
def Conn.oldest (c : Conn) : Option SentPkt :=
  c.sent.foldl (fun (b : Option SentPkt) p => match b with
    | some y => if seqLe y.psn p.psn then some y else some p
    | none => some p) none

/-- CWND and the sequence window allow a packet (R262 R264). -/
def Conn.windowAllows (c : Conn) (p : SentPkt) (again : Bool) : Bool :=
  (again || (c.sent.length < 256 && match c.oldest with
      | some o => (p.psn + 2 ^ 32 - o.psn) % 2 ^ 32 ≤ 255
      | none => true))
    && (let n := c.inFlight (if again then some p.psn else none)
        n + p.wire ≤ c.cwnd || n == 0)

/-- A packet sent empties the window when the next one may not follow it (R244). -/
def Conn.emptied (c : Conn) : Bool :=
  match c.nextPkt with
  | some (p, again) => !c.windowAllows p again
  | none => false

/-- The next packet of a connection goes to Twill, where the windows and the room there allow it. -/
def State.krmSend (s : State) (cid : Nat) : State :=
  let s := s.rekey cid
  match s.conn cid with
  | none => s
  | some c =>
    match c.nextPkt with
    | none => s
    | some (p, again) =>
      if c.state != .open || !c.windowAllows p again || !s.krmRoom c (p.wire - 24) then s
      else
        let p' := { p with firstFt := if again then p.firstFt else s.ft, lastFt := s.ft, retx := again, resend := false, lost := false, rnrAt := none }
        let c' := if again then { c with sent := c.sent.map fun (q : SentPkt) => (if q.psn = p.psn then p' else q) }
          else { c with
            queue := c.queue.drop 1, sent := c.sent ++ [p'], sndNext := (c.sndNext + 1) % 2 ^ 32
            reads := c.reads.map fun (r : PendRead) => (if p.opc = 2 ∧ r.rtag = p.x then { r with psn := some p.psn } else r) }
        let p' := { p' with pfl := if c'.emptied && !again then p'.pfl ||| 8 else p'.pfl }
        let c' := { c' with sent := c'.sent.map fun (q : SentPkt) => (if q.psn = p'.psn then p' else q) }
        let s := s.onConn cid fun _ => c'
        let (s, b) := s.formPacket cid c' p'.opc (p'.pfl + 32 * b2n p'.retx) p'.psn p'.w p'.offset p'.len p'.x p'.body 2
        let s := (s.krmCount cid 0).krmCount cid 2 p'.body.length
        s.handOver c' b

/-- Control packets that wait for room, then one data packet. -/
def doKrmPacketSend (cid : Nat) (s : State) : State :=
  match s.conn cid with
  | none => s
  | some c =>
    if s.fatal || c.state != .open || !s.cachedConn cid then s
    else (c.ctl.foldl (fun s (o, r, n) => s.sendCtl cid o r n) s).krmSend cid

/-- KRM_PACKET_SEND (R264). -/
def execKrmPacketSend (cid : Nat) (s : State) : Res := .next (doKrmPacketSend cid s)

/-- The ACK that is due 2,048 ns after the first unacknowledged packet. -/
def doKrmAckTimer (cid : Nat) (s : State) : State :=
  match s.conn cid with
  | none => s
  | some c => if !s.fatal && c.state == .open && c.ackDue.any (· ≤ s.ft) then s.ackNow cid else s

/-- KRM_ACK_TIMER (R261). -/
def execKrmAckTimer (cid : Nat) (s : State) : Res := .next (doKrmAckTimer cid s)

/-- The timeout of the oldest unacknowledged packet (R263). Every other packet outstanding counts as lost to the window. -/
def doKrmRetransmitTimeout (cid : Nat) (s : State) : State :=
  match s.conn cid with
  | none => s
  | some c =>
    match c.oldest with
    | none => s
    | some p =>
      if s.fatal || c.state != .open || !s.onFrame || p.rnrAt.isSome
         || s.ft < p.lastFt + min 100000000 (c.rto * 2 ^ c.backoff) then s
      else if c.retryMax < c.backoff + 1 then (s.krmCount cid 17).connFail cid St.remoteTimeout p.op p.piece
      else
        let s := (s.krmCount cid 17).onConn cid fun c => { c with
          backoff := c.backoff + 1, cwnd := c.cwndFloor, roundEnd := some ((c.sndNext + 2 ^ 32 - 1) % 2 ^ 32)
          sent := c.sent.map fun (q : SentPkt) => { q with resend := q.resend || q.psn == p.psn, lost := true } }
        s.krmSend cid

/-- KRM_RETRANSMIT_TIMEOUT (R263). -/
def execKrmRetransmitTimeout (cid : Nat) (s : State) : Res := .next (doKrmRetransmitTimeout cid s)

/-- A packet refused with NO_RECV_BUF is sent again after RNR_WAIT (R263). -/
def doKrmRnrRetry (cid : Nat) (s : State) : State :=
  match s.conn cid with
  | none => s
  | some c =>
    let due := c.sent.filter fun p => p.rnrAt.any (· ≤ s.ft)
    if s.fatal || c.state != .open || !s.onFrame || due.isEmpty then s
    else
      let s := (s.krmCount cid 18 due.length).onConn cid fun c => { c with sent := c.sent.map fun (p : SentPkt) =>
        (if p.rnrAt.any (· ≤ s.ft) then { p with rnrAt := none, resend := true } else p) }
      s.krmSend cid

/-- KRM_RNR_RETRY (R263). -/
def execKrmRnrRetry (cid : Nat) (s : State) : Res := .next (doKrmRnrRetry cid s)

/-! ## Entries (R258 R259) -/

/-- One packet of an operation. -/
def opPacket (c : Conn) (n opc pfl w offset len x : Nat) (body : Bytes) : SentPkt :=
  { psn := 0, op := some n, piece := none, opc := opc, pfl := pfl, w := w, offset := offset, len := len, x := x, body := body
    wire := c.wireOf body.length, firstFt := 0, lastFt := 0, retx := false, rnr := 0, rnrAt := none, resend := false, lost := false }

/-- The packets of data in pieces of MSS: flags FIRST, LAST, COMMIT and ACKREQ on the last (R244). -/
def cutPackets (c : Conn) (n opc w off0 x : Nat) (commit : Bool) (data : Bytes) : List SentPkt :=
  let k := max 1 (ceilDiv data.length c.mss)
  (List.range k).map fun i =>
    let b := slice data (i * c.mss) c.mss
    opPacket c n opc (b2n (i == 0) + (if i + 1 = k then 10 else 0) + 4 * b2n commit) w (off0 + i * c.mss) b.length x b

/-- The packets of an operation join its connection's queue (R243 R258). -/
def State.krmQueue (s : State) (cid n : Nat) (c : Conn) (o : Op) : State :=
  let e := o.entry
  let total := fragTotal o.frags
  let s := s.onOp n fun o => { o with admitted := true, got := [] }
  match entryOp e with
  | 1 => s.onConn cid fun c => { c with queue := c.queue ++ cutPackets c n 1 (le e 16 4) (le e 24 8) total (bit (le e 12 4) 0) (o.data total) }
  | 2 =>
    let p := opPacket c n 2 11 (le e 16 4) (le e 24 8) total c.nextRtag []
    s.onConn cid fun c => { c with
      queue := c.queue ++ [p], nextRtag := (c.nextRtag + 1) % 2 ^ 32
      reads := c.reads ++ [{ rtag := c.nextRtag, op := n, psn := none, acked := false, left := total }] }
  | _ => s.onConn cid fun c => { c with
      queue := c.queue ++ cutPackets c n 4 (le e 20 4) (c.ssnNext * 2 ^ 32) total false (o.data total)
      ssnNext := (c.ssnNext + 1) % 2 ^ 32 }

/-- The operations of a connection whose data has been read join the queue in the order of their start, at most `k`. -/
def State.krmAdvance (s : State) (cid : Nat) : Nat → State
  | 0 => s
  | k + 1 =>
    match s.conn cid, (s.connOps cid).find? fun n => (s.op n).any fun o => !o.admitted with
    | some c, some n =>
      match s.op n with
      | none => s
      | some o =>
        if o.reading ≠ 0 then s
        else match o.failAt with
          | some (_, st) => State.krmAdvance (s.krmFinish n st) cid k
          | none => State.krmAdvance (s.krmQueue cid n c o) cid k
    | _, _ => s

/-- Every operation of a connection that may join the queue. -/
def State.krmGo (s : State) (cid : Nat) : State := s.krmAdvance cid s.qm.ops.length

/-- A KRM_SQ entry of an opcode starts: its connection is OPEN, its state cached, and the shaper lets it pass. One whose
connection has left OPEN, or has been claimed or bound anew, since its checks ends as they say; one that is not its owner's is a spoof event
(R233 R234, 09 R270). -/
def State.krmStart (s : State) (qid opcode : Nat) : State :=
  match s.readyHead qid with
  | none => s
  | some (q, e) =>
    let cid := krmCid e
    if q.cls != .krmSq || entryOp e != opcode then s
    else match s.conn cid with
      | none => (s.spoofFailed q.owner 1).endHead qid St.denied cid e
      | some c =>
        if c.owner != q.owner then (s.spoofFailed q.owner 1).endHead qid St.denied cid e
        else if c.state != .open || c.claims != 0 then s.endHead qid St.badState cid e
        else if !s.cachedConn cid then s
        else
          let frags := entryFrags .krmSq e q.headFrags
          match s.shaperGo qid (fragTotal frags) with
          | (s, false) => s
          | (s, true) =>
            let (s, n) := s.newOp qid e frags
            (if opcode = 2 then s else s.readFrags n q.owner 0 frags).krmGo cid

/-- KRM_WRITE. -/
def doKrmWrite (qid : Nat) (s : State) : State := s.krmStart qid 1
/-- KRM_WRITE (R258). -/
def execKrmWrite (qid : Nat) (s : State) : Res := .next (doKrmWrite qid s)

/-- KRM_READ. -/
def doKrmRead (qid : Nat) (s : State) : State := s.krmStart qid 2
/-- KRM_READ (R258). -/
def execKrmRead (qid : Nat) (s : State) : Res := .next (doKrmRead qid s)

/-- KRM_SEND. -/
def doKrmSend (qid : Nat) (s : State) : State := s.krmStart qid 3
/-- KRM_SEND (R258). -/
def execKrmSend (qid : Nat) (s : State) : Res := .next (doKrmSend qid s)

/-- A receive buffer is posted to the KRM engine when the shaper lets it pass (07 R200). -/
def doKrmRqPost (qid : Nat) (s : State) : State :=
  match s.readyHead qid with
  | none => s
  | some (q, e) =>
    if q.cls != .krmRq || entryOp e != 1 then s
    else
      let frags := entryFrags .krmRq e q.headFrags
      match s.shaperGo qid (fragTotal frags) with
      | (s, false) => s
      | (s, true) => (s.newOp qid e frags).1

/-- KRM_RQ_POST (R259). -/
def execKrmRqPost (qid : Nat) (s : State) : Res := .next (doKrmRqPost qid s)

end Sys2Proof.Machine
end

