-- ==== Sys2Proof/Machine/Block.lean ====
section
/-! DEFINITION. Block storage (09_block_storage.md): volumes, block entries, pieces, the KRM block profile, queue reset and
self-tests. The readings that the text needs are in assumption log 29. -/

namespace Sys2Proof.Machine

/-! ## Volumes (R267 R269 R276) -/

/-- The first and last stripe unit of a member within blocks `a` to `b - 1`. -/
def Volume.unitRange (v : Volume) (m a b : Nat) : Option (Nat × Nat) :=
  if b ≤ a then none
  else
    let ua := a / v.bu
    let ub := (b - 1) / v.bu
    let u0 := ua + (m + v.span - ua % v.span) % v.span
    let u1 := ub - (ub % v.span + v.span - m) % v.span
    if u0 ≤ ub && u0 ≤ u1 then some (u0, u1) else none

/-- A member's share of blocks `a` to `b - 1`: its first volume block, first member block and count (R276). -/
def Volume.share (v : Volume) (m a b : Nat) : Option (Nat × Nat × Nat) :=
  (v.unitRange m a b).map fun (u0, u1) =>
    let rb := (v.member m).rbase
    let first := rb + u0 / v.span * v.bu + (if u0 = a / v.bu then a % v.bu else 0)
    let stop := rb + u1 / v.span * v.bu + (if u1 = (b - 1) / v.bu then (b - 1) % v.bu + 1 else v.bu)
    (max a (u0 * v.bu), first, stop - first)

/-- The runs of volume blocks of a member's share: first block and count. -/
def Volume.runs (v : Volume) (m a b : Nat) : List (Nat × Nat) :=
  match v.unitRange m a b with
  | none => []
  | some (u0, u1) => (List.range ((u1 - u0) / v.span + 1)).map fun k =>
    let u := u0 + k * v.span
    let x := max a (u * v.bu)
    (x, min b ((u + 1) * v.bu) - x)

/-! ## Entries (R273 R275) -/

def blkTag (e : Bytes) : Nat := byteAt e 8 % 64
def blkVid (e : Bytes) : Nat := le e 12 2 % 16384
def blkLba (e : Bytes) : Nat := le e 16 8
def blkNblk (e : Bytes) : Nat := le e 24 4

/-- Bytes 12 to 15 of the completion. -/
def blkC12 (e : Bytes) : Nat := blkTag e + blkVid e * 65536

/-- A tag of a queue is in flight: its entry has started, and its completion is not written (R274). -/
def State.tagBusy (s : State) (qid tag : Nat) : Bool :=
  s.qm.ops.any (fun (_, o) => o.qid == qid && blkTag o.entry == tag)
    || match s.queue qid with
       | some q => match s.queue q.cq with
         | some k => (k.due ++ k.held).any fun c => c.qid == qid && c.tag == some tag
         | none => false
       | none => false

/-! ## Pieces (R276 R277) -/

/-- A piece, and a piece changed. -/
def State.piece (s : State) (k : Nat) : Option Piece := s.blk.pieces.get k
def State.onPiece (s : State) (k : Nat) (f : Piece → Piece) : State := s.onBlk fun b => { b with pieces := b.pieces.mod k f }

/-- The pieces of a command. -/
def State.piecesOf (s : State) (n : Nat) : List Piece := (s.blk.pieces.filter fun (_, p) => p.op == n).map (·.2)

/-- A command ends (R275): the status of the failing piece of the lowest block, or S_ABORTED_RESET where a piece ended without
an answer (R284), or a status given. -/
def State.blkEnd (s : State) (n : Nat) (given : Option Nat) : State :=
  match s.op n with
  | none => s
  | some o =>
    let l := s.piecesOf n
    let bs := ((s.volume (blkVid o.entry)).map (·.bs)).getD 0
    let bad := (l.filter (·.status != St.ok)).foldl (fun (b : Option Piece) p => match b with
      | some y => if p.lba < y.lba then some p else some y
      | none => some p) none
    let (st, t) := match given with
      | some e => (e, 0)
      | none => if l.any (!·.answered) then (St.abortedReset, 0)
        else match bad with
          | some p => (p.status, p.tstat)
          | none => (St.ok, 0)
    let bytes := ((l.filter fun p => p.done && p.status == St.ok && (p.bop == 1 || p.bop == 2)).map fun p => p.nblk * bs).sum
    let s := s.onBlk fun b => { b with pieces := b.pieces.filter fun (_, p) => p.op != n }
    let s := s.onQm fun m => { m with ops := m.ops.del n }
    let s := s.onQueue o.qid fun q => if q.resetAt.isSome then { q with resetTags := q.resetTags + 1 } else q
    let c : Compl := { qid := o.qid, ok := st == St.ok, suppressed := suppressed .blkSq o.entry st
                       bytes := complBytes (entryCookie o.entry) st o.qid bytes (blkC12 o.entry) s.ft (toLe 4 t ++ zeros 4)
                       data := none, event := false, tag := some (blkTag o.entry), tile := some o.tile
                       ordered := entryOrdered o.entry }
    s.finish o.qid o.idx c st bytes

/-- A command whose last piece has completed finishes (R277). -/
def State.blkCheck (s : State) (n : Nat) : State := if (s.piecesOf n).all (·.done) then s.blkEnd n none else s

/-- A piece completes with a status. -/
def State.pieceDone (s : State) (k status tstat : Nat) (answered : Bool) : State :=
  match s.piece k with
  | none => s
  | some p =>
    if p.done then s
    else (s.onPiece k fun p => { p with done := true, status := status, tstat := tstat, answered := answered }).blkCheck p.op

/-- Data of a run of blocks under the volume's key, one data unit a block, the tweak the volume block (R281). -/
def State.blkCrypt (s : State) (dec : Bool) (vid : Nat) (v : Volume) (lba : Nat) (b : Bytes) : Bytes :=
  if v.xts then xtsUnits dec ((s.cy.vidKeys.get vid).getD []) lba (chunks v.bs b) else b

/-- The blocks of a piece take engine slices of the member tile where the volume is encrypted (10 R296). -/
def State.blkSlices (s : State) (p : Piece) (v : Volume) : State :=
  if v.xts then s.inlineItem (s.memberTile p.vid v p.member) 1 (p.nblk * v.bs) else s

/-! ## Messages (R278) -/

/-- A 64-byte request capsule. -/
def capsule (bop bshift rtag rvol nblk rlba atag : Nat) : Bytes :=
  [1, byte bop, byte bshift, 0] ++ toBe 4 rtag ++ toBe 4 rvol ++ toBe 4 nblk ++ toBe 8 rlba ++ toBe 4 atag ++ zeros 36

/-- A message sent as one SEND on a connection; its immediate value is not stated and free. -/
def State.blkSend (s : State) (cid : Nat) (piece : Option Nat) (b : Bytes) : State :=
  let imm := s.freeVal % 2 ^ 32
  s.useFree.onConn cid fun c => { c with
    queue := c.queue ++ (cutPackets c 0 4 imm (c.ssnNext * 2 ^ 32) b.length false b).map fun (p : SentPkt) =>
      ({ p with op := none, piece := piece } : SentPkt)
    ssnNext := (c.ssnNext + 1) % 2 ^ 32 }

/-- A request tag taken. -/
def State.takeRtag (s : State) : State × Nat :=
  (s.onBlk fun b => { b with nextRtag := (b.nextRtag + 1) % 2 ^ 32 }, s.blk.nextRtag)

/-- A request of a piece goes to its target. -/
def State.pieceSend (s : State) (k : Nat) (p : Piece) (v : Volume) (data : Bytes) : State :=
  let (s, t) := s.takeRtag
  let m := v.member p.member
  let s := s.onPiece k fun p => { p with sent := true, rtag := t }
  s.blkSend m.cid (some k) (capsule p.bop (if v.bs = 4096 then 12 else 9) t m.rvol (if p.bop = 3 then 0 else p.nblk)
    (if p.bop = 3 then 0 else p.mlba) 0 ++ data)

/-! ## Issuing a piece (R280 R283) -/

/-- The places of a tile's response area that responses hold: offset and bytes. -/
def State.respHeld (s : State) (tile : Nat) : List (Nat × Nat) :=
  s.blk.pieces.filterMap fun (_, p) => match p.slot, s.volume p.vid with
    | some (t, off), some v => if t = tile ∧ p.done = false then some (off, p.respBytes v.bs) else none
    | _, _ => none

/-- A place in a tile's response area for a response of `n` bytes, the first that is free; none where the area cannot hold it (R280;
log 29). -/
def State.respPlace (s : State) (tile n : Nat) : Option Nat :=
  let held := s.respHeld tile
  if (s.dram.regions.get (respRegion tile)).isNone then none
  else (0 :: held.map fun (o, k) => roundUp (o + k) 64).find? fun a =>
    a + n ≤ 134217728 && held.all fun (o, k) => o + k ≤ a || a + n ≤ o

/-- Blocks of two pieces overlap. -/
def Piece.overlaps (p q : Piece) : Bool := p.mlba < q.mlba + q.nblk && q.mlba < p.mlba + p.nblk

/-- An earlier piece of the member holds a piece back (R283, span-4 volumes). -/
def State.pieceHeld (s : State) (p : Piece) (v : Volume) : Bool :=
  v.span == 4 && s.blk.pieces.any fun (_, q) =>
    q.vid == p.vid && q.member == p.member && decide (q.vseq < p.vseq) && !q.done && (q.bop == 2 || q.bop == 4)
      && (p.bop == 3 || p.overlaps q)

/-- The blocks of a command: first and one past the last. -/
def blkSpan (e : Bytes) : Nat × Nat := (blkLba e, blkLba e + blkNblk e)

/-- The data of a run within the command's data. -/
def runData (o : Op) (v : Volume) (r : Nat × Nat) (all : Bytes) : Bytes := slice all ((r.1 - blkLba o.entry) * v.bs) (r.2 * v.bs)

/-- A RAM volume's runs read into the host's fragments, block for block decrypted. -/
def State.ramRead (s : State) (k : Nat) (o : Op) (vid : Nat) (v : Volume) (rg : Nat) (w : Owner) : List (Nat × Nat) → State
  | [] => s.pieceDone k St.ok 0 true
  | r :: l =>
    match s.dram.regions.get rg with
    | none => s.pieceDone k St.hostReadErr 0 true
    | some g => match s.devRead (.volume rg) (g.base + r.1 * v.bs) (r.2 * v.bs) with
      | .data b => State.ramRead ((s.meet 2 (g.base + r.1 * v.bs) (r.2 * v.bs)).scatter w o.frags ((r.1 - blkLba o.entry) * v.bs) (s.blkCrypt true vid v r.1 b)) k o vid v rg w l
      | .poisoned =>
        (s.meet 2 (g.base + r.1 * v.bs) (r.2 * v.bs)).pieceDone k (s.badStatus (g.base + r.1 * v.bs) (r.2 * v.bs)) 0 true
      | .fault => s.pieceDone k St.hostReadErr 0 true

/-- Runs written to a RAM volume. -/
def State.ramWrite (s : State) (k : Nat) (o : Op) (vid : Nat) (v : Volume) (rg : Nat) (all : Bytes) : List (Nat × Nat) → State
  | [] => s.pieceDone k St.ok 0 true
  | r :: l =>
    match s.dram.regions.get rg with
    | none => s.pieceDone k St.hostReadErr 0 true
    | some g => match s.devWrite (.volume rg) (g.base + r.1 * v.bs) (s.blkCrypt false vid v r.1 (runData o v r all)) with
      | some s => State.ramWrite s k o vid v rg all l
      | none => s.pieceDone k St.hostReadErr 0 true

/-- A WRITE piece whose data has been read: its message is formed, or its copy made (R277 R280). -/
def State.pieceForm (s : State) (k : Nat) : State :=
  match s.piece k with
  | none => s
  | some p =>
    if p.done || p.sent || !p.waiting.isEmpty then s
    else match p.failAt with
      | some (_, st) => s.pieceDone k st 0 true
      | none => match s.op p.op, s.volume p.vid with
        | some o, some v =>
          let (a, b) := blkSpan o.entry
          let runs := v.runs p.member a b
          let all := o.data (fragTotal o.frags)
          let s := s.blkSlices p v
          match v.region with
          | some rg => s.ramWrite k o p.vid v rg all runs
          | none => s.pieceSend k p v (runs.flatMap fun r => s.blkCrypt false p.vid v r.1 (runData o v r all))
        | _, _ => s

/-- One fragment of a WRITE piece's data read. -/
def State.pieceRead (s : State) (k n : Nat) (w : Owner) (f : Frag) (off : Nat) : State :=
  let fail := fun (s : State) st => s.onPiece k fun p => { p with failAt := match p.failAt with
    | some (i, e) => if off < i then some (off, st) else some (i, e)
    | none => some (off, st) }
  if f.dev then
    match s.devRead .engine f.addr f.len with
    | .data b => (s.meet 2 f.addr f.len).onOp n fun o => { o with got := o.got ++ [(off, b)] }
    | .poisoned => fail (s.meet 2 f.addr f.len) (s.badStatus f.addr f.len)
    | .fault => fail s St.hostReadErr
  else match s.hostRead w f.addr f.len (.opData n off) with
    | (s, some _) => (s.onPiece k fun p => { p with waiting := p.waiting ++ [off] }).onOp n fun o => { o with reading := o.reading + 1 }
    | (s, none) => fail s St.hostReadErr

/-- The data of a WRITE piece's runs is read. -/
def State.pieceReads (s : State) (k n : Nat) (w : Owner) (o : Op) (v : Volume) (runs : List (Nat × Nat)) : State :=
  runs.foldl (fun s r =>
    let off := (r.1 - blkLba o.entry) * v.bs
    ((fragSlice o.frags off (r.2 * v.bs)).foldl (fun (s, i) f => (s.pieceRead k n w f i, i + f.len)) (s, off)).1) s

/-- A read of a block command's data ends. A command that bus mastering has ended waits for its last read (13 R386). -/
def State.blkArrive (s : State) (n off : Nat) (how : ReadEnd) : State :=
  let s := s.opArrive n off how
  if (s.op n).any fun o => o.status.isSome then
    if (s.op n).any (·.reading == 0) then s.blkEnd n ((s.op n).bind (·.status)) else s
  else match s.blk.pieces.find? fun (_, p) => p.op == n && p.waiting.contains off with
  | none => s
  | some (k, _) =>
    let s := s.onPiece k fun p => { p with
      waiting := p.waiting.erase off
      failAt := match how, p.failAt with
        | .data _, x => x
        | e, some (i, st) => if off < i then some (off, readStatus e) else some (i, st)
        | e, none => some (off, readStatus e) }
    s.pieceForm k

/-- A piece is issued, where ordering, its connection and the response area allow it. -/
def doBlkPieceIssue (k : Nat) (s : State) : State :=
  match s.piece k with
  | none => s
  | some p =>
    match s.op p.op, s.volume p.vid with
    | some o, some v =>
      match s.queue o.qid with
      | none => s
      | some q =>
        let conn := s.conn (v.member p.member).cid
        let tile := s.memberTile p.vid v p.member
        if s.fatal || p.issued || p.done || o.status.isSome || s.pieceHeld p v then s
        else if !v.ram && conn.all (·.state == .pending) then s
        else if !v.ram && conn.all (·.state != .open) then s.pieceDone k St.badState 0 true
        else if !v.ram && (s.respPlace tile (p.respBytes v.bs)).isNone then s
        else if s.ownerHeld q.owner && (p.bop == 1 || p.bop == 2) then s
        else
          let (a, b) := blkSpan o.entry
          let runs := v.runs p.member a b
          let slot := if v.ram then none else (s.respPlace tile (p.respBytes v.bs)).map fun off => (tile, off)
          let s := s.onPiece k fun p => { p with issued := true, slot := slot }
          match p.bop, v.region with
          | 2, _ => (s.pieceReads k p.op q.owner o v runs).pieceForm k
          | 1, some rg => (s.blkSlices p v).ramRead k o p.vid v rg q.owner runs
          | _, some _ => s.pieceDone k St.ok 0 true
          | _, none => s.pieceSend k p v []
    | _, _ => s

/-- BLK_PIECE_ISSUE (R280). -/
def execBlkPieceIssue (piece : Nat) (s : State) : Res := .next (doBlkPieceIssue piece s)

/-! ## Starting commands (R277 R282 R283) -/

/-- The completions of a queue's entries on a volume that are not written yet: those entries have not finished (03 R71). -/
def State.blkUnwritten (s : State) (qid vid : Nat) : List Compl :=
  match (s.queue qid).bind fun q => s.queue q.cq with
  | some k => (k.due ++ k.held).filter fun c => c.qid == qid && le c.bytes 14 2 == vid
  | none => []

/-- ORDERED lets an entry start (R282): on a span-1 or span-2 volume, neither it nor an earlier ORDERED entry of its queue and
volume waits for another to finish. -/
def State.orderedOk (s : State) (qid : Nat) (e : Bytes) (v : Volume) : Bool :=
  v.span == 4 || ((s.qm.ops.filter fun (_, o) => o.qid == qid && blkVid o.entry == blkVid e).all fun (_, o) =>
    !entryOrdered e && !entryOrdered o.entry) && (s.blkUnwritten qid (blkVid e)).all fun c => !entryOrdered e && !c.ordered

/-- The block count of an entry is within its opcode's range, and its data of that length (R273). -/
def blkLenOk (v : Volume) (e : Bytes) (n : Nat) : Bool :=
  let k := blkNblk e
  match entryOp e with
  | 3 => k == 0 && n == 0
  | 4 => 1 ≤ k && n == 0
  | _ => 1 ≤ k && k * v.bs ≤ 2097152 && n == k * v.bs

/-- The checks of a BLK_SQ entry (R274). -/
def State.blkEntryCheck (s : State) (qid : Nat) (o : Owner) (e : Bytes) (n : Nat) : Option Nat :=
  match s.volume (blkVid e) with
  | none => some St.denied
  | some v =>
    if v.owner != o then some St.denied
    else if !s.volReady v then some St.badState
    else if s.tagBusy qid (blkTag e) then some St.tagBusy
    else if !blkLenOk v e n then some St.badLength
    else if v.nblocks < blkLba e + blkNblk e then some St.badParam
    else none

/-- A new piece. -/
def newPiece (n vid m bop mlba nblk lba vseq : Nat) : Piece where
  op := n
  vid := vid
  member := m
  bop := bop
  mlba := mlba
  nblk := nblk
  lba := lba
  vseq := vseq
  issued := false
  sent := false
  rtag := 0
  done := false
  answered := true
  status := 0
  tstat := 0
  waiting := []
  failAt := none

/-- The pieces of a command: at most one a member, one for every member for a FLUSH. -/
def blkSplit (v : Volume) (n vid : Nat) (e : Bytes) : List Piece :=
  (List.range v.span).filterMap fun m =>
    if entryOp e = 3 then some (newPiece n vid m 3 0 0 m v.vseq)
    else (v.share m (blkLba e) (blkLba e + blkNblk e)).map fun (l, ml, c) => newPiece n vid m (entryOp e) ml c l v.vseq

/-- A block entry of an opcode starts and is split. One whose volume has gone or changed since its checks ends as they say of the volume
there is now (R271; log 29). -/
def State.blkStart (s : State) (qid opcode : Nat) : State :=
  match s.readyHead qid with
  | none => s
  | some (q, e) =>
    if q.cls != .blkSq || entryOp e != opcode then s
    else
      let frags := entryFrags .blkSq e q.headFrags
      match s.blkEntryCheck qid q.owner e (fragTotal frags), s.volume (blkVid e) with
      | some st, _ => s.endHead qid st (blkC12 e) e
      | none, none => s.endHead qid St.denied (blkC12 e) e
      | none, some v =>
        if !s.orderedOk qid e v then s
        else match s.shaperGo qid (fragTotal frags) with
          | (s, false) => s
          | (s, true) =>
            let (s, n) := s.newOp qid e frags
            let s := s.count Ct.block q.home 0
            let s := if v.span = 4 ∧ entryOrdered e then s.count Ct.block q.home 1 else s
            let s := s.onVolume (blkVid e) fun v => { v with cmds := (v.cmds + 1) % 2 ^ 48, vseq := v.vseq + 1 }
            let s := (blkSplit v n (blkVid e) e).foldl (fun s p =>
              s.onBlk fun b => { b with pieces := b.pieces.set b.nextPiece p, nextPiece := b.nextPiece + 1 }) s
            s.onOp n fun o => { o with admitted := true }

/-- BLK READ. -/
def doBlkRead (qid : Nat) (s : State) : State := s.blkStart qid 1
/-- BLK_READ (R276). -/
def execBlkRead (qid : Nat) (s : State) : Res := .next (doBlkRead qid s)

/-- BLK WRITE. -/
def doBlkWrite (qid : Nat) (s : State) : State := s.blkStart qid 2
/-- BLK_WRITE (R276). -/
def execBlkWrite (qid : Nat) (s : State) : Res := .next (doBlkWrite qid s)

/-- BLK FLUSH. -/
def doBlkFlush (qid : Nat) (s : State) : State := s.blkStart qid 3
/-- BLK_FLUSH (R277). -/
def execBlkFlush (qid : Nat) (s : State) : Res := .next (doBlkFlush qid s)

/-- BLK TRIM. -/
def doBlkTrim (qid : Nat) (s : State) : State := s.blkStart qid 4
/-- BLK_TRIM (R276). -/
def execBlkTrim (qid : Nat) (s : State) : Res := .next (doBlkTrim qid s)

/-! ## Self-tests (R285 to R287) -/

/-- The stripe units of a volume, and of a member. -/
def Volume.units (v : Volume) : Nat := ceilDiv v.nblocks v.bu
def Volume.memberUnits (v : Volume) (m : Nat) : Nat := (v.units + v.span - 1 - m) / v.span

/-- The units that a member's short test reads: 256 a member on a remote volume, 256 a volume in RAM, spread evenly. -/
def Volume.shortUnits (v : Volume) (m : Nat) : List Nat :=
  if v.ram then
    let n := min 256 v.units
    ((List.range n).map fun i => i * v.units / n).filter fun u => u % v.span == m
  else
    let c := v.memberUnits m
    let n := min 256 c
    (List.range n).map fun i => i * c / n * v.span + m

/-- The number of requests of a member in a test, PING included. -/
def Volume.testCount (v : Volume) (t : TestState) (m : Nat) : Nat :=
  match t with
  | .short => (v.shortUnits m).length + (if v.ram then 0 else 1)
  | .extended => v.memberUnits m
  | _ => 0

/-- Request `k` of a member: the PING, or a stripe unit. -/
def Volume.testUnit (v : Volume) (m k : Nat) : Option Nat :=
  if v.test = .short then
    if v.ram then (v.shortUnits m)[k]? else if k = 0 then none else (v.shortUnits m)[k - 1]?
  else some (k * v.span + m)

/-- All requests of the running test. -/
def Volume.testTotal (v : Volume) : Nat := ((List.range v.span).map (v.testCount v.test)).sum

/-- A test is running. -/
def Volume.testing (v : Volume) : Bool := v.test == .short || v.test == .extended

/-- The test ends in a state: BLK_TEST_DONE. Requests that are unanswered stay outstanding at their members (R286). -/
def State.testEnd (s : State) (vid : Nat) (v : Volume) (st : TestState) : State :=
  (s.onVolume vid fun v => { v with
    test := st, testBusy := [], testStale := v.testStale ++ v.testBusy.map fun (m, t, _) => (m, t) }).raise
      (sourceNo (s.memberTile vid v 0) 512) vid st.code (.own v.owner)

/-- A request of the test is done, well or not, with the block that failed if one is known. The first failing block is kept. -/
def State.testStep (s : State) (vid m : Nat) (ok : Bool) (lba : Option Nat) : State :=
  match s.volume vid with
  | none => s
  | some v =>
    let bad := v.testBad || !ok
    let total := v.testTotal
    let s := s.onVolume vid fun v => { v with
      testDone := v.testDone + 1, testBad := bad, failLba := v.failLba.orElse fun _ => lba
      testBusy := v.testBusy.filter fun (x, _, _) => x != m }
    if total ≤ v.testDone + 1 then s.testEnd vid v (if bad then .failed else .passed)
    else s

/-- The first block of a RAM unit that does not read back: a line of it is poisoned (R285 R287). -/
def State.ramBad (s : State) (v : Volume) (rg u : Nat) : Option Nat :=
  ((List.range (min v.nblocks ((u + 1) * v.bu) - u * v.bu)).map (u * v.bu + ·)).find? fun b =>
    match (s.dram.regions.get rg).map fun g => s.devRead (.volume rg) (g.base + b * v.bs) v.bs with
    | some (.data _) => false
    | _ => true

/-- The lines of a RAM unit are read by its test (14 R404). -/
def State.ramMeet (s : State) (v : Volume) (rg : Nat) (u : Option Nat) : State :=
  match u, s.dram.regions.get rg with
  | some u, some g => s.meet 2 (g.base + u * v.bu * v.bs) ((min v.nblocks ((u + 1) * v.bu) - u * v.bu) * v.bs)
  | _, _ => s

/-- The order of a test's requests: the PINGs of a short test are answered before its first VERIFY, and a request goes when every earlier
one of the other members has gone (R285). -/
def Volume.testTurn (v : Volume) (m k : Nat) : Bool :=
  (List.range v.span).all (fun x => min (v.testCount v.test x) (k + b2n (x < m)) ≤ v.testNext.getD x 0)
    && (v.test != .short || v.ram || k == 0 || (!v.testBusy.any fun (_, _, i) => i == 0) && v.testNext.all (0 < ·))

/-- The next self-test request of a member. -/
def doSelftestRequest (vid m : Nat) (s : State) : State :=
  match s.volume vid with
  | none => s
  | some v =>
    let k := v.testNext.getD m 0
    let tile := s.memberTile vid v m
    let waiting := s.blk.pieces.any fun (_, p) => !p.issued && !p.done && match s.volume p.vid with
      | some x => s.memberTile p.vid x p.member == tile
      | none => false
    if s.fatal || !v.testing || v.span ≤ m || waiting || v.testBusy.any (fun (x, _, _) => x == m)
       || v.testStale.any (·.1 == m) || v.testCount v.test m ≤ k || !v.testTurn m k then s
    else
      let next := fun (s : State) => s.onVolume vid fun v => { v with testNext := v.testNext.set m (k + 1) }
      match v.region with
      | some rg =>
        let bad := (v.testUnit m k).bind (s.ramBad v rg)
        (next (s.ramMeet v rg (v.testUnit m k))).testStep vid m bad.isNone bad
      | none =>
        if (s.conn (v.member m).cid).all (·.state != .open) then s
        else
          let (s, t) := (next s).takeRtag
          let s := s.onVolume vid fun v => { v with testBusy := v.testBusy ++ [(m, t, k)] }
          let shift := if v.bs = 4096 then 12 else 9
          s.blkSend (v.member m).cid none (match v.testUnit m k with
            | none => capsule 7 shift t (v.member m).rvol 0 0 0
            | some u =>
              let n := min v.nblocks ((u + 1) * v.bu) - u * v.bu
              capsule 5 shift t (v.member m).rvol n ((v.member m).rbase + u / v.span * v.bu) 0)

/-- SELFTEST_REQUEST (R286). -/
def execSelftestRequest (vid member : Nat) (s : State) : Res := .next (doSelftestRequest vid member s)

/-! ## Responses (R278 R279) -/

/-- The status of a piece for a target status. -/
def tstatStatus : Nat → Nat
  | 0 => St.ok
  | 1 => St.notFound
  | 2 => St.badParam
  | 3 => St.mediaErr
  | 4 => St.abortedReset
  | 5 => St.badOp
  | _ => St.mediaErr

/-- The self-test request of a connection that a request tag names. -/
def State.testOfTag (s : State) (cid rtag : Nat) : Option (Nat × Nat × Nat × Volume) :=
  s.blk.volumes.findSome? fun (vid, v) => v.testBusy.findSome? fun (m, t, k) =>
    if t = rtag ∧ (v.member m).cid = cid then some (vid, m, k, v) else none

/-- The request of a self-test that has ended that a request tag names on a connection. -/
def State.staleOfTag (s : State) (cid rtag : Nat) : Option (Nat × Nat × Volume) :=
  s.blk.volumes.findSome? fun (vid, v) => v.testStale.findSome? fun (m, t) =>
    if t = rtag ∧ (v.member m).cid = cid then some (vid, m, v) else none

/-- The data of a READ response written to the host's fragments, decrypted. -/
def State.respData (s : State) (p : Piece) (v : Volume) (data : Bytes) : State :=
  match s.op p.op with
  | none => s
  | some o =>
    let (a, b) := blkSpan o.entry
    match s.queue o.qid with
    | none => s
    | some q =>
      let s := s.blkSlices p v
      ((v.runs p.member a b).foldl (fun (s, i) r =>
        (s.scatter q.owner o.frags ((r.1 - a) * v.bs) (s.blkCrypt true p.vid v r.1 ((data.drop i).take (r.2 * v.bs))), i + r.2 * v.bs)) (s, 0)).1

/-- The data of a READ piece's response, read from its place in the response area (14 R404), and the piece's end. -/
def State.respTaken (s : State) (k : Nat) (p : Piece) (v : Volume) : State :=
  let n := p.nblk * v.bs
  match p.slot, p.slot.bind fun (t, _) => s.dram.regions.get (respRegion t) with
  | some (_, off), some g =>
    let a := g.base + off + 64
    match s.devRead .engine a n with
    | .data d => ((s.meet 2 a n).respData p v d).pieceDone k St.ok 0 true
    | .poisoned => (s.meet 2 a n).pieceDone k (s.badStatus a n) 0 true
    | .fault => s.pieceDone k St.uncorrectable 0 true
  | _, _ => s.pieceDone k St.uncorrectable 0 true

/-- A response taken from a connection's messages. One that answers a request of a self-test that has ended frees its member alone. -/
def State.blkResp (s : State) (cid : Nat) (b : BlkMsg) : State :=
  let tile := ((s.conn cid).map (·.home)).getD 0
  let t := b.tstat
  let bad := s.count Ct.block tile 2
  match s.pieceOfTag cid b.rtag, s.testOfTag cid b.rtag, s.staleOfTag cid b.rtag with
  | some (k, p, v), _, _ =>
    if !b.respOk v.bs (p.respData v.bs t) then bad
    else if p.bop = 1 ∧ t = 0 then s.respTaken k p v
    else s.pieceDone k (tstatStatus t) t true
  | none, some (vid, m, k, v), _ =>
    if b.respOk v.bs 0 then s.testStep vid m (t == 0) (if t = 0 then none else (v.testUnit m k).map (· * v.bu)) else bad
  | none, none, some (vid, m, v) =>
    if b.respOk v.bs 0 then s.onVolume vid fun v => { v with testStale := v.testStale.filter (·.1 != m) } else bad
  | none, none, none => bad

/-- The oldest message of a claimed connection is taken. -/
def doBlkRespReceive (cid : Nat) (s : State) : State :=
  match s.conn cid with
  | none => s
  | some c => match c.blkMsgs with
    | [] => s
    | b :: l => if s.fatal then s else (s.onConn cid fun c => { c with blkMsgs := l }).blkResp cid b

/-- BLK_RESP_RECEIVE (R279). -/
def execBlkRespReceive (cid : Nat) (s : State) : Res := .next (doBlkRespReceive cid s)

/-- A member connection leaves OPEN: its pieces end with the status of R235, its tests as ABORTED (R280 R287). -/
def State.blkConnLost (s : State) (cid : Nat) : State :=
  match s.conn cid with
  | none => s
  | some c =>
    let l := s.blk.pieces.filter fun (_, p) => !p.done && match s.volume p.vid with
      | some v => !v.ram && (v.member p.member).cid == cid
      | none => false
    let s := l.foldl (fun s (k, _) => s.pieceDone k (if c.failPiece = some k then c.cause else St.badState) 0 true) s
    let s := (s.blk.volumes.filter fun (_, v) => v.testing && !v.ram && v.members.any (·.cid == cid)).foldl
      (fun s (vid, v) => s.testEnd vid v .aborted) s
    s.onBlk fun b => { b with volumes := b.volumes.map fun (vid, v) =>
      (vid, { v with testStale := v.testStale.filter fun (m, _) => (v.member m).cid != cid }) }

/-! ## Volume commands (R267 R271 R272) -/

/-- The span that a BLK_VOLUME_CREATE asks for. -/
def createSpan (c : Cmd) : Nat := 2 ^ field (cmdByte c 16) 0 2

/-- PB_LEN fits a BLK_VOLUME_CREATE. -/
def volumeLenOk (c : Cmd) : Bool :=
  if bit (cmdByte c 16) 3 then c.pbLen == 0 else field (cmdByte c 16) 0 2 == 3 || c.pbLen == 16 * createSpan c

/-- The members that a parameter block names. -/
def createMembers (c : Cmd) : List Member :=
  (List.range (createSpan c)).map fun m =>
    { cid := le c.pb (16 * m) 4 % 1048576, rvol := le c.pb (16 * m + 4) 4, rbase := le c.pb (16 * m + 8) 8 }

/-- A new volume of the parameters, with its region where it is a RAM volume. -/
def newVolume (c : Cmd) (o : Owner) (region : Option Nat) (now : Nat) : Volume where
  owner := o
  readyAt := if bit (cmdByte c 16) 2 then none else some now
  vfl := cmdByte c 16
  stripe := cmdByte c 17
  nblocks := cmdLe c 24 8
  members := if bit (cmdByte c 16) 3 then [] else createMembers c
  region := region
  cmds := 0
  failLba := none
  vseq := 0
  test := .none
  testNext := []
  testDone := 0
  testBad := false
  testBusy := []
  testStale := []

/-- The members' connections fit (R268). -/
def State.membersOk (s : State) (c : Cmd) (who : Caller) : Bool :=
  let l := createMembers c
  let homes := l.map fun m => ((s.conn m.cid).map (·.home)).getD 4
  homes.Nodup && (List.range (createSpan c)).all (fun m => le c.pb (16 * m) 4 < 1048576)
    && l.all fun m => (s.conn m.cid).any fun k => k.owner == who.owner && k.strict && k.rq == 0xFFFF

/-- A tile is being parked. -/
def State.parking (s : State) : Bool := s.power.op.any (!·.unpark)

/-- Checks 8 and 9 of a BLK_VOLUME_CREATE. -/
def State.volumeCreateCheck (s : State) (c : Cmd) (who : Caller) : Option Nat :=
  if 32 ≤ cmdByte c 16 || field (cmdByte c 16) 0 2 == 3 || 9 < cmdByte c 17 || cmdLe c 18 6 != 0
     || cmdLe c 24 8 == 0 || 2 ^ 48 < cmdLe c 24 8 then some St.badParam
  else if !bit (cmdByte c 16) 3 && !s.membersOk c who then some St.badParam
  else if c.target.toNat != targetNone && s.blk.volumes.has c.target.toNat then some St.exist
  else if 16384 ≤ s.blk.volumes.length then some St.noResource
  else if createSpan c == 4 && s.parking then some St.busySpan
  else none

/-- BLK_VOLUME_CREATE: service firmware's checks, then Buckram's mailbox. -/
def doBlkVolumeCreate (c : Cmd) (s : State) : State :=
  s.bk 0x0701 c noDeny (volumeLenOk c) false (fun who s => s.volumeCreateCheck c who)

/-- BLK_VOLUME_CREATE (R267). -/
def execBlkVolumeCreate (c : Cmd) (s : State) : Res := .next (doBlkVolumeCreate c s)

/-- A volume's members are claimed by the block engine (R270). -/
def State.claim (s : State) (l : List Member) : State :=
  l.foldl (fun s m => s.onConn m.cid fun k => { k with claims := k.claims + 1 }) s

/-- The volume exists and its VID is bound (R268). -/
def bkBlkVolumeCreate (c : Cmd) (who : Caller) (s : State) : State :=
  s.bkApply 0x0701 c who false (volumeLenOk c) false fun s =>
    match s.volumeCreateCheck c who with
    | some e => (s, some (Answer.just e))
    | none =>
      let vid := if c.target.toNat = targetNone then
          (chooseFree s.freeVal 16384 s.blk.volumes.length s.blk.volumes.has).getD 0
        else c.target.toNat
      let s := s.useFree
      let v := newVolume c who.owner none s.ft
      if v.ram then
        match s.newRegion none .function (v.nblocks * v.bs) (some v.owner) with
        | none => (s, some (Answer.just St.noResource))
        | some (s, rg) => (s.onBlk fun b => { b with volumes := b.volumes.set vid { v with region := some rg } }, some (Answer.ok vid))
      else ((s.claim v.members).onBlk fun b => { b with volumes := b.volumes.set vid v }, some (Answer.ok vid))

/-- A started command names the volume. -/
def State.volumeBusy (s : State) (vid : Nat) : Bool :=
  s.qm.ops.any fun (_, o) => blkVid o.entry == vid && (s.queue o.qid).any (·.cls == .blkSq)

/-- A volume removed: its test aborted, its claims released, its key wiped, its region removed (R271). -/
def State.dropVolume (s : State) (vid : Nat) (v : Volume) : State :=
  let s := if v.testing then s.testEnd vid v .aborted else s
  let s := v.members.foldl (fun s m => s.onConn m.cid fun k => { k with claims := k.claims - 1 }) s
  let s := if s.cy.vidKeys.has vid then s.wipeKeyRecord (2 ^ 20 + vid) else s
  let s := (s.onCy fun y => { y with vidKeys := y.vidKeys.del vid }).onBlk fun b => { b with volumes := b.volumes.del vid }
  match v.region with
  | some rg => s.dropRegion rg
  | none => s

/-- BLK_VOLUME_DESTROY. -/
def doBlkVolumeDestroy (c : Cmd) (s : State) : State :=
  s.bk 0x0702 c noDeny true true

/-- BLK_VOLUME_DESTROY (R271). -/
def execBlkVolumeDestroy (c : Cmd) (s : State) : Res := .next (doBlkVolumeDestroy c s)

/-- Buckram clears the binding. -/
def bkBlkVolumeDestroy (c : Cmd) (who : Caller) (s : State) : State :=
  s.bkApply 0x0702 c who false true true fun s =>
    match s.volume c.target.toNat with
    | none => (s, some (Answer.just St.notFound))
    | some v =>
      if s.volumeBusy c.target.toNat then (s, some (Answer.just St.badState))
      else (s.dropVolume c.target.toNat v, some Answer.ok)

/-- The 64 bytes of R272. -/
def State.volumeBytes (s : State) (vid : Nat) (v : Volume) : Bytes :=
  let tiles := ((List.range v.span).map fun m => s.memberTile vid v m % 4 * 4 ^ m).sum
  [byte (b2n (s.volReady v)), byte v.vfl, byte v.stripe, byte tiles] ++ zeros 4 ++ toLe 8 v.nblocks
    ++ toLe 8 (v.failLba.getD (2 ^ 64 - 1)) ++ toLe 8 v.cmds ++ zeros 32

/-- BLK_VOLUME_QUERY. -/
def doBlkVolumeQuery (c : Cmd) (s : State) : State :=
  s.sf 0x0703 c noDeny true true fun _ s =>
    match s.volume c.target.toNat with
    | none => (s, some (Answer.just St.notFound))
    | some v => (s, some { Answer.ok with data := s.volumeBytes c.target.toNat v })

/-- BLK_VOLUME_QUERY (R272). -/
def execBlkVolumeQuery (c : Cmd) (s : State) : Res := .next (doBlkVolumeQuery c s)

/-- BLK_SELFTEST: 0 short, 1 extended, 2 abort. -/
def State.selftest (s : State) (c : Cmd) : State :=
  s.sf 0x0705 c noDeny true true fun _ s =>
    let vid := c.target.toNat
    match s.volume vid with
    | none => (s, some (Answer.just St.notFound))
    | some v =>
      match cmdByte c 16 with
      | 2 =>
        let s := if v.testing then s.testEnd vid v .aborted else s
        (s, some (Answer.ok (((s.volume vid).map (·.test.code)).getD 0)))
      | 0 | 1 =>
        if v.testing then (s, some (Answer.just St.badState))
        else
          let t : TestState := if cmdByte c 16 = 0 then .short else .extended
          (s.onVolume vid fun v => { v with
            test := t, testNext := List.replicate v.span 0, testDone := 0, testBad := false, failLba := none, testBusy := [] },
           some (Answer.ok t.code))
      | _ => (s, some (Answer.just St.badParam))

/-- BLK_SELFTEST with another code than 2. -/
def doBlkSelftestStart (c : Cmd) (s : State) : State := if cmdByte c 16 = 2 then s else s.selftest c
/-- BLK_SELFTEST_START (R285). -/
def execBlkSelftestStart (c : Cmd) (s : State) : Res := .next (doBlkSelftestStart c s)

/-- BLK_SELFTEST with another code than 0 and 1. -/
def doBlkSelftestAbort (c : Cmd) (s : State) : State := if cmdByte c 16 < 2 then s else s.selftest c
/-- BLK_SELFTEST_ABORT (R285). -/
def execBlkSelftestAbort (c : Cmd) (s : State) : Res := .next (doBlkSelftestAbort c s)

/-- Progress of the test, 65,536 when done. -/
def Volume.progress (v : Volume) : Nat :=
  match v.test with
  | .short | .extended => v.testDone * 65536 / max 1 v.testTotal
  | .passed | .failed => 65536
  | _ => 0

/-- BLK_SELFTEST_QUERY. -/
def doBlkSelftestQuery (c : Cmd) (s : State) : State :=
  s.sf 0x0706 c noDeny true true fun _ s =>
    match s.volume c.target.toNat with
    | none => (s, some (Answer.just St.notFound))
    | some v => (s, some (Answer.ok v.test.code v.progress))

/-- BLK_SELFTEST_QUERY (R287). -/
def execBlkSelftestQuery (c : Cmd) (s : State) : Res := .next (doBlkSelftestQuery c s)

/-! ## Queue reset (R284) -/

/-- The unstarted entries at the head of a queue under reset that are cached end with S_ABORTED_RESET, at most `k`. -/
def State.resetConsume (s : State) (qid : Nat) : Nat → State
  | 0 => s
  | k + 1 =>
    match s.queue qid with
    | none => s
    | some q =>
      if q.resetAt.isNone || q.c == q.resetEnd then s
      else match q.cache.get q.c with
        | none => s
        | some e =>
          let s := s.endHead qid St.abortedReset (blkC12 e) e
          State.resetConsume (s.onQueue qid fun q => { q with resetTags := q.resetTags + 1 }) qid k

/-- Pieces of a queue's commands not yet sent are dropped; those sent are asked to abort. -/
def State.abortPieces (s : State) (qid : Nat) : State :=
  let mine := s.blk.pieces.filter fun (_, p) => !p.done && (s.op p.op).any (·.qid == qid)
  mine.foldl (fun s (k, p) =>
    if p.sent then
      match s.volume p.vid with
      | some v =>
        let (s, t) := s.takeRtag
        s.blkSend (v.member p.member).cid none (capsule 6 (if v.bs = 4096 then 12 else 9) t (v.member p.member).rvol 0 0 p.rtag)
      | none => s
    else s.pieceDone k St.abortedReset 0 false) s

/-- BLK_QUEUE_RESET from the acceptance point on. -/
def doBlkQueueReset (c : Cmd) (s : State) : State :=
  s.sf 0x0704 c noDeny true true fun _ s =>
    let qid := c.target.toNat
    match s.queue qid with
    | none => (s, some (Answer.just St.notFound))
    | some q =>
      if q.cls != .blkSq || q.state != .enabled then (s, some (Answer.just St.badState))
      else
        let s := s.onQueue qid fun q => { q with
          state := .draining, resetAt := some s.ft, resetEnd := q.p, resetTags := 0, resetAbandoned := 0, resetCmd := some c }
        let s := s.writeBack qid
        let s := (s.resetConsume qid 65536).abortPieces qid
        (s.fetch qid, none)

/-- BLK_QUEUE_RESET (R284). -/
def execBlkQueueReset (c : Cmd) (s : State) : Res := .next (doBlkQueueReset c s)

/-- Pieces unanswered 150 ms after the acceptance point are abandoned. -/
def doBlkResetAbandon (qid : Nat) (s : State) : State :=
  match s.queue qid with
  | none => s
  | some q =>
    if s.fatal || q.resetAt.all (fun t => decide (s.ft < t + 150000000)) then s
    else
      let l := s.blk.pieces.filter fun (_, p) => !p.done && (s.op p.op).any (·.qid == qid)
      l.foldl (fun s (k, p) =>
        let tile := match s.volume p.vid with
          | some v => s.memberTile p.vid v p.member
          | none => 0
        let s := (s.count Ct.block tile 3).onQueue qid fun q => { q with resetAbandoned := q.resetAbandoned + 1 }
        s.pieceDone k St.abortedReset 0 false) s

/-- BLK_RESET_ABANDON (R284). -/
def execBlkResetAbandon (qid : Nat) (s : State) : Res := .next (doBlkResetAbandon qid s)

/-- The reset is over: every entry before P0 has ended and its completion is written. -/
def doBlkQueueResetComplete (qid : Nat) (s : State) : State :=
  match s.queue qid with
  | none => s
  | some q =>
    match q.resetCmd with
    | none => s
    | some c =>
      if s.fatal || q.resetAt.isNone || q.c != q.resetEnd || !s.allFinished qid then s
      else
        let s := s.onQueue qid fun q => { q.dropCached with
          state := .enabled, p := q.resetEnd, c := q.resetEnd, f := q.resetEnd, resetAt := none, resetCmd := none }
        (s.writeBack qid).reply 0x0704 c false (Answer.ok q.resetTags q.resetAbandoned)

/-- BLK_QUEUE_RESET_COMPLETE (R284). -/
def execBlkQueueResetComplete (qid : Nat) (s : State) : Res := .next (doBlkQueueResetComplete qid s)

end Sys2Proof.Machine
end

