-- ==== Sys2Proof/Machine/Conns.lean ====
section
/-! DEFINITION. The control of KRM (08_krm_remote_memory.md): creating, opening, failing and destroying connections (R234 to
R239), and the commands on windows (R252 to R254). -/

namespace Sys2Proof.Machine

/-! ## KRM_CONN_CREATE (R236 to R238) -/

/-- A KRM_CONN_CREATE that sets the peer of a PENDING connection of its caller (R238). -/
def State.isSetPeer (s : State) (c : Cmd) : Bool :=
  match s.callerOf c.src, s.conn c.target.toNat with
  | some who, some k => k.state == .pending && k.owner == who.owner && bit (cmdByte c 20) 0
  | _, _ => false

/-- The parameters of R236 are in range. -/
def connParamsOk (c : Cmd) : Bool :=
  let b := c.pb
  let mss := if cmdByte c 21 = 0 then 4096 else 256 * cmdByte c 21
  let rto := le b 48 4
  let cw := le b 52 4
  cmdByte c 21 ≤ 32 && cmdLe c 22 2 < 16384 && cmdByte c 28 < 8 && cmdLe c 30 2 == 0
    && (bit (cmdByte c 20) 3 || (allZero b 0 12 && allZero b 16 12))
    && byteAt b 40 < 32 && byteAt b 41 < 64 && byteAt b 43 == 0 && le b 46 2 == 0 && le b 60 4 == 0
    && (rto == 0 || (2048 ≤ rto && rto ≤ 10000000)) && (cw == 0 || (mss ≤ cw && cw ≤ 16777216)) && le b 56 2 ≤ 256

/-- The home of a new connection: as given, or the device's choice among the tiles in use. -/
def State.connHome (s : State) (c : Cmd) : Option Nat :=
  if bit (cmdByte c 20) 5 then
    let l := (List.range 4).filter s.homeOk
    l[s.freeVal % l.length]?
  else some (cmdByte c 20 / 64)

/-- A CID that may be taken. -/
def State.cidTaken (s : State) (cid : Nat) : Bool := s.krm.conns.has cid || s.krm.retired.contains cid

/-- Checks 8 and 9 of a KRM_CONN_CREATE that creates. -/
def State.connCreateCheck (s : State) (c : Cmd) : Option Nat :=
  let w := c.target.toNat
  if !connParamsOk c then some St.badParam
  else if w != targetNone && s.krm.conns.has w then some St.exist
  else if w != targetNone && s.krm.retired.contains w then some St.noResource
  else if !s.dram.regions.has connRegion then some St.noResource
  else if 1048576 ≤ s.krm.conns.length + s.krm.retired.length then some St.noResource
  else if !bit (cmdByte c 20) 5 && !s.homeOk (cmdByte c 20 / 64) then some St.badState
  else none

/-- A connection as it is created, FREE and about to be PENDING. -/
def newConn (c : Cmd) (o : Owner) (home cgen now : Nat) : Conn where
  state := .free
  next := [(.pending, now)]
  cause := 0
  failOp := none
  failPiece := none
  cgen := cgen
  owner := o
  params := c.params.take 16
  block := c.pb
  peer := if bit (cmdByte c 20) 0 then some (cmdLe c 16 4) else none
  keyed := false
  home := home
  sndNext := 0
  ssnNext := 0
  queue := []
  sent := []
  backoff := 0
  haveRtt := false
  srtt := 0
  rttvar := 0
  cwnd := 0
  roundEnd := none
  at' := 0
  bitmap := 0
  hold := []
  firsts := []
  unacked := 0
  ackDue := none
  ctl := []
  ceUntil := 0
  rcvSsn := 0
  msgs := []
  reads := []
  nextRtag := 0
  served := []
  claims := 0
  blkMsgs := []
  createCmd := some c
  destroyCmd := none
  endedOps := []
  sealTx := 0

/-- The opcode's row: service firmware's checks, then Buckram's mailbox. -/
def State.krmCreate (s : State) (c : Cmd) : State :=
  s.bk 0x0601 c noDeny (s.isSetPeer c || c.pbLen == 64) false (fun _ s => if s.isSetPeer c then none else s.connCreateCheck c)

/-- KRM_CONN_CREATE on any CID but a PENDING one that it gives its peer. -/
def doKrmConnCreate (c : Cmd) (s : State) : State := if s.isSetPeer c then s else s.krmCreate c
/-- KRM_CONN_CREATE (R236). -/
def execKrmConnCreate (c : Cmd) (s : State) : Res := .next (doKrmConnCreate c s)

/-- KRM_CONN_CREATE that sets the peer of a PENDING connection. -/
def doKrmConnSetPeer (c : Cmd) (s : State) : State := if s.isSetPeer c then s.krmCreate c else s
/-- KRM_CONN_SET_PEER (R238). -/
def execKrmConnSetPeer (c : Cmd) (s : State) : Res := .next (doKrmConnSetPeer c s)

/-- LOCAL_IP lies in the allowed sets of a slice (R237). -/
def SpoofSets.allowsLocal (x : SpoofSets) (c : Cmd) : Bool :=
  x.anyIp || if bit (cmdByte c 20) 3 then x.allows6 (be c.pb 0 16) else x.allows4 (be c.pb 12 4)

/-- A PENDING connection with its peer and, where sealed, its key will be OPEN at the next boundary (R235). A key record that
cannot be read is no key: CY_KEY_ERR (10 R305). -/
def State.tryOpen (s : State) (cid : Nat) : State :=
  match s.conn cid with
  | none => s
  | some c =>
    if c.state != .pending || c.peer.isNone || (c.sealed && !c.keyed) then s
    else if !c.sealed then s.connNext cid .open
    else
      let s := s.keyMeet cid
      if s.keyOk cid then s.connNext cid .open else s.raise (sourceNo c.home 577) cid 0 .sec

/-- Buckram binds the CID (R237); the reply follows when the connection is PENDING. -/
def bkKrmConnCreate (c : Cmd) (who : Caller) (s : State) : State :=
  s.bkApply 0x0601 c who false (s.isSetPeer c || c.pbLen == 64) false fun s =>
    if s.isSetPeer c then
      let cid := c.target.toNat
      let s := (s.onConn cid fun k => { k with peer := some (cmdLe c 16 4) }).tryOpen cid
      (s, some (Answer.ok cid (((s.conn cid).map (·.cgen)).getD 0)))
    else match s.connCreateCheck c with
      | some e => (s, some (Answer.just e))
      | none =>
        let denied : Bool := match who with
          | .slice sid _ => (s.slice sid).all fun x => !x.spoof.allowsLocal c
          | _ => false
        if denied then (s, some (Answer.just St.denied))
        else
          let home := (s.connHome c).getD 0
          let s := s.useFree
          let cid := if c.target.toNat = targetNone then
              (chooseFree s.freeVal 1048576 (s.krm.conns.length + s.krm.retired.length) s.cidTaken).getD 0
            else c.target.toNat
          let s := s.useFree
          let k := newConn c who.owner home ((s.krm.gens.get cid).getD 0) s.ft
          let s := (s.dropCounters Ct.conn cid).onKrm fun x => { x with conns := x.conns.set cid k }
          let s := s.onDamask fun d => { d with homePend := d.homePend ++ [(cid, some home)] }
          let s := match who with
            | .slice sid _ => s.onHost fun h => { h with slices := h.slices.mod sid fun x => { x with krmOwned := x.krmOwned ++ [cid] } }
            | _ => s
          (s, none)

/-! ## Transitions (R234 R235) -/

/-- A transition of a connection is reported. -/
def State.connEvent (s : State) (cid : Nat) : State :=
  match s.conn cid with
  | some c => s.raise (sourceNo c.home 448) cid c.state.code (.own c.owner)
  | none => s

/-- Host reads of an operation are outstanding. -/
def State.opReading (s : State) (n : Nat) : Bool := s.host.reads.any fun (_, r) => match r.why with
  | .opData k _ => k == n
  | _ => false

/-- The operations of a connection that leaves OPEN end: the one that exhausted its limit with the cause, the others with
S_BAD_STATE, or all with S_UNCORRECTABLE where the connection's state was lost (R235 R239, 14 R404). -/
def State.connEndOps (s : State) (cid : Nat) : State :=
  match s.conn cid with
  | none => s
  | some c =>
    let ops := s.connOps cid
    let other := if c.cause = St.uncorrectable then St.uncorrectable else St.badState
    let s := s.onConn cid fun c => { c with endedOps := c.endedOps ++ ops }
    let s := s.blkConnLost cid
    let s := ops.foldl (fun s n => s.krmFinish n (if c.failOp = some n then c.cause else other)) s
    let s := c.msgs.foldl (fun s m => match m.buffer with
      | some n => s.finishOp n other m.written cid s.ft (toLe 4 m.imm ++ zeros 4)
      | none => s) s
    s.onConn cid fun c => { c with
      queue := [], sent := [], reads := [], acked := [], msgs := [], ctl := [], unacked := 0, ackDue := none, firsts := [], blkMsgs := []
      hold := c.hold.filter (·.admitted.isSome), served := c.served.filter (·.issued) }

/-- One transition of a connection. -/
def State.connEnter (s : State) (cid : Nat) (st : ConnState) : State :=
  match s.conn cid with
  | none => s
  | some c =>
    match st with
    | .pending =>
      let s := if c.peer.isSome && c.sealed && c.keyed then s.keyMeet cid else s
      let opens := c.peer.isSome && (!c.sealed || (c.keyed && s.keyOk cid))
      let s := s.onConn cid fun c => { c with state := .pending, createCmd := none }
      let s := if opens then s else s.connEvent cid
      let s := match c.createCmd with
        | some k => s.reply 0x0601 k true { Answer.ok cid c.cgen with ft := some s.frameFt }
        | none => s
      if opens then
        (s.onConn cid fun c => { c with
          state := .open, cwnd := max c.cwndFloor (c.iw * c.mss), sndNext := Config.firstPsn % 2 ^ 32
          at' := (Config.firstPsn + 2 ^ 32 - 1) % 2 ^ 32 }).connEvent cid
      else s.tryOpen cid
    | .open =>
      if c.state != .pending then s
      else (s.onConn cid fun c => { c with
        state := .open, cwnd := max c.cwndFloor (c.iw * c.mss), sndNext := Config.firstPsn % 2 ^ 32
        at' := (Config.firstPsn + 2 ^ 32 - 1) % 2 ^ 32 }).connEvent cid
    | .error =>
      if c.state != .open then s
      else
        let s := ((s.onConn cid fun c => { c with state := .error }).connEndOps cid).connEvent cid
        s.raise (sourceNo c.home 449) cid c.cause (.own c.owner)
    | .closing => ((s.onConn cid fun c => { c with state := .closing }).connEndOps cid).connEvent cid
    | .free => s

/-- The transitions that are due take effect, in the order of their causes. -/
def doConnTransition (cid : Nat) (s : State) : State :=
  match s.conn cid with
  | none => s
  | some c =>
    if s.fatal then s
    else
      let due := c.next.filter fun (_, t) => s.dueFrame t
      let s := s.onConn cid fun c => { c with next := c.next.filter fun (_, t) => !s.dueFrame t }
      due.foldl (fun s (st, _) => s.connEnter cid st) s

/-- CONN_TRANSITION (R235). -/
def execConnTransition (cid : Nat) (s : State) : Res := .next (s.onDie (s.connDie cid) (doConnTransition cid))

/-! ## KRM_CONN_DESTROY (R239) -/

/-- Why a connection may not be destroyed. -/
def State.connDestroyCheck (s : State) (cid : Nat) : Option Nat :=
  match s.conn cid with
  | none => some St.notFound
  | some c => if 0 < c.claims || c.state == .closing || c.next.any (·.1 == .closing) then some St.badState else none

/-- Service firmware's part: the connection will go to CLOSING. -/
def State.connDestroyPart (s : State) (cid : Nat) : State × Option Nat :=
  match s.connDestroyCheck cid with
  | some e => (s, some e)
  | none => (s.connNext cid .closing, none)

/-- KRM_CONN_DESTROY: accepted by service firmware, the connection goes to CLOSING; Buckram ends it. -/
def doKrmConnDestroy (c : Cmd) (s : State) : State :=
  s.bkPart 0x0602 c noDeny true true fun _ s => s.connDestroyPart c.target.toNat

/-- KRM_CONN_DESTROY (R239). -/
def execKrmConnDestroy (c : Cmd) (s : State) : Res := .next (doKrmConnDestroy c s)

/-- The connection is on its way to CLOSING for a command that Buckram has not taken yet. -/
def Conn.closingFree (k : Conn) : Bool := (k.state == .closing || k.next.any (·.1 == .closing)) && k.destroyCmd.isNone

/-- Buckram takes the destruction over, and begins it where service firmware did not (R127). -/
def bkKrmConnDestroy (c : Cmd) (who : Caller) (s : State) : State :=
  s.bkApply 0x0602 c who false true true fun s =>
    let cid := c.target.toNat
    match (if ((s.conn cid).map Conn.closingFree).getD false then (s, none) else s.connDestroyPart cid) with
    | (s, some e) => (s, some (Answer.just e))
    | (s, none) => (s.onConn cid fun k => { k with destroyCmd := some c }, none)

/-- A connection is unbound and FREE: its generation goes on, its CID leaves the home map and its slice's set. A CID whose
generation would wrap is retired. -/
def State.freeConn (s : State) (cid : Nat) (c : Conn) : State :=
  let s := (s.onConn cid fun c => { c with state := .free }).connEvent cid
  let s := s.onKrm fun k => { k with
    conns := k.conns.del cid, cached := k.cached.erase cid, gens := k.gens.set cid ((c.cgen + 1) % 4096)
    retired := if c.cgen = 4095 then k.retired ++ [cid] else k.retired }
  let s := if s.cy.cidKeys.has cid then s.wipeKeyRecord cid else s
  let s := s.onCy fun y => { y with cidKeys := y.cidKeys.del cid }
  let s := s.onDamask fun d => { d with homePend := d.homePend ++ [(cid, none)] }
  let s := match c.owner with
    | .slice sid _ => s.onHost fun h => { h with slices := h.slices.mod sid fun x => { x with krmOwned := x.krmOwned.erase cid } }
    | _ => s
  s.dropCounters Ct.conn cid

/-- No memory access admitted on a connection is outstanding. -/
def State.connQuiet (s : State) (c : Conn) : Bool :=
  c.hold.all (·.admitted.isNone) && c.served.isEmpty && !c.endedOps.any s.opReading

/-- A CLOSING connection whose memory accesses are all accepted is unbound. -/
def doConnDestroyComplete (cid : Nat) (s : State) : State :=
  match s.conn cid with
  | none => s
  | some c =>
    match c.destroyCmd with
    | none => s
    | some k =>
      if s.fatal || c.state != .closing || !s.connQuiet c then s
      else (s.freeConn cid c).reply 0x0602 k true Answer.ok

/-- CONN_DESTROY_COMPLETE (R239). -/
def execConnDestroyComplete (cid : Nat) (s : State) : Res := .next (doConnDestroyComplete cid s)

/-- The data of KRM_CONN_QUERY: state, CGEN, CWND, srtt, b, the first unacknowledged PSN and the counts, in a layout that the
spec does not give (log 13). -/
def State.connBytes (s : State) (cid : Nat) (c : Conn) : Bytes :=
  Config.layout 0x0603 ([cid, c.state.code, c.cgen, c.cwnd, c.srtt, c.backoff, ((c.oldest).map (·.psn)).getD c.sndNext]
    ++ (List.range 19).map (s.counter Ct.conn cid))

/-- KRM_CONN_QUERY. -/
def doKrmConnQuery (c : Cmd) (s : State) : State :=
  s.sf 0x0603 c noDeny true true fun _ s =>
    match s.conn c.target.toNat with
    | none => (s, some (Answer.just St.notFound))
    | some k => (s, some { Answer.ok with data := s.connBytes c.target.toNat k })

/-- KRM_CONN_QUERY (04 R131). -/
def execKrmConnQuery (c : Cmd) (s : State) : Res := .next (doKrmConnQuery c s)

/-! ## Windows (R250 to R254) -/

/-- Parameters of KRM_WINDOW_OPEN and MODIFY. -/
def winBase (c : Cmd) : Nat := cmdLe c 16 8
def winLen (c : Cmd) : Nat := cmdLe c 24 5
def winPerm (c : Cmd) : Nat := cmdByte c 29

/-- The parameters are in range; length 0 only where it closes. -/
def winParamsOk (c : Cmd) (zeroOk : Bool) : Bool := winPerm c < 4 && cmdLe c 30 2 == 0 && (zeroOk || winLen c != 0)

/-- A window is in use: OPEN or RETIRED, or with a change whose effect or reply is still to come (R253 R254). -/
def Window.taken (w : Window) : Bool := w.state != .free || !w.pend.isEmpty || !w.waits.isEmpty

/-- A window index is taken. -/
def State.windowTaken (s : State) (i : Nat) : Bool := i == 0 || (s.krm.windows.get i).any Window.taken

/-- A free index; 0 is never allocated. -/
def State.freeWindow (s : State) : Option Nat :=
  chooseFree s.freeVal 4194304 ((s.krm.windows.filter fun (_, w) => w.taken).length + 1) s.windowTaken

/-- An index never used, for a window moved after generation 1,023 (R254). -/
def State.freshWindow (s : State) : Option Nat :=
  chooseFree s.freeVal 4194304 (s.krm.windows.length + 1) fun i => i == 0 || s.krm.windows.has i

/-- The change of a descriptor awaits its boundary. -/
def State.winLater (s : State) (i : Nat) (x : WinChange) : State :=
  s.onKrm fun k => { k with windows := k.windows.mod i fun w => { w with pend := w.pend ++ [x] } }

/-- A descriptor that has never been used. -/
def Window.unused (o : Owner) : Window where
  base := 0
  wlen := 0
  perm := 0
  gen := 0
  state := .free
  owner := o
  pend := []
  waits := []

/-- A free index given to an owner: its generation goes on. -/
def State.takeWindow (s : State) (i : Nat) (o : Owner) : State × Nat :=
  match s.krm.windows.get i with
  | some w => (s.onKrm fun k => { k with windows := k.windows.mod i fun w => { w with owner := o } }, w.latest.2)
  | none => (s.onKrm fun k => { k with windows := k.windows.set i (Window.unused o) }, 0)

/-- KRM_WINDOW_OPEN. -/
def doKrmWindowOpen (c : Cmd) (s : State) : State :=
  s.bk 0x0604 c noDeny true true (paramCheck (winParamsOk c false))

/-- KRM_WINDOW_OPEN (R252). -/
def execKrmWindowOpen (c : Cmd) (s : State) : Res := .next (doKrmWindowOpen c s)

/-- Buckram writes the descriptor. -/
def bkKrmWindowOpen (c : Cmd) (who : Caller) (s : State) : State :=
  s.bkApply 0x0604 c who false true true fun s =>
    if !winParamsOk c false then (s, some (Answer.just St.badParam))
    else match s.freeWindow with
      | none => (s, some (Answer.just St.noResource))
      | some i =>
        let (s, g) := s.useFree.takeWindow i who.owner
        (s.winLater i { base := winBase c, wlen := winLen c, perm := winPerm c, gen := g, state := .open, accepted := s.ft
                        code := 0x0604, cmd := c, key := i * 1024 + g }, none)

/-- KRM_WINDOW_MODIFY. -/
def doKrmWindowModify (c : Cmd) (s : State) : State :=
  s.bk 0x0605 c noDeny true true (paramCheck (winParamsOk c true))

/-- KRM_WINDOW_MODIFY (R253). -/
def execKrmWindowModify (c : Cmd) (s : State) : Res := .next (doKrmWindowModify c s)

/-- The change that closes a descriptor: FREE at its next generation, or RETIRED after generation 1,023 (R254). -/
def closing (now gen code key : Nat) (c : Cmd) : WinChange where
  base := 0
  wlen := 0
  perm := 0
  gen := if gen = 1023 then 1023 else gen + 1
  state := if gen = 1023 then .retired else .free
  accepted := now
  code := code
  cmd := c
  key := key

/-- Buckram changes or closes the window. -/
def bkKrmWindowModify (c : Cmd) (who : Caller) (s : State) : State :=
  s.bkApply 0x0605 c who false true true fun s =>
    let w := c.target.toNat
    if !winParamsOk c true then (s, some (Answer.just St.badParam))
    else if winLen c = 0 then (s.winLater (w / 1024) (closing s.ft (w % 1024) 0x0605 0 c), none)
    else (s.winLater (w / 1024) { base := winBase c, wlen := winLen c, perm := winPerm c, gen := w % 1024, state := .open
                                  accepted := s.ft, code := 0x0605, cmd := c, key := 0 }, none)

/-- KRM_WINDOW_REVOKE. -/
def doKrmWindowRevoke (c : Cmd) (s : State) : State :=
  s.bk 0x0606 c noDeny true true

/-- KRM_WINDOW_REVOKE (R254). -/
def execKrmWindowRevoke (c : Cmd) (s : State) : Res := .next (doKrmWindowRevoke c s)

/-- Base, length and permissions of a window with its pending changes made. -/
def Window.latestRange (x : Window) : Nat × Nat × Nat :=
  match x.pend.getLast? with
  | some c => (c.base, c.wlen, c.perm)
  | none => (x.base, x.wlen, x.perm)

/-- Buckram raises the generation, or moves the window to a fresh index. -/
def bkKrmWindowRevoke (c : Cmd) (who : Caller) (s : State) : State :=
  s.bkApply 0x0606 c who false true true fun s =>
    let i := c.target.toNat / 1024
    let g := c.target.toNat % 1024
    match s.krm.windows.get i with
    | none => (s, some (Answer.just St.notFound))
    | some w =>
      let (b, l, p) := w.latestRange
      if g < 1023 then
        (s.winLater i { base := b, wlen := l, perm := p, gen := g + 1, state := .open, accepted := s.ft, code := 0x0606, cmd := c
                        key := i * 1024 + g + 1 }, none)
      else match s.freshWindow with
        | none => (s, some (Answer.just St.noResource))
        | some j =>
          let (s, g') := s.useFree.takeWindow j w.owner
          let s := s.winLater j { base := b, wlen := l, perm := p, gen := g', state := .open, accepted := s.ft, code := 0, cmd := c
                                  key := 0 }
          (s.winLater i (closing s.ft g 0x0606 (j * 1024 + g') c), none)

/-- The 32 bytes of a window's descriptor (R250). -/
def State.windowBytes (s : State) (w : Window) : Bytes :=
  let (own, pasid) := match w.owner with
    | .slice sid f => (2 ^ 31 + sid % 16384 * 65536 + fnWord f, ((s.slice sid).map (·.pasid)).getD 0)
    | .function f => (fnWord f, 0)
    | _ => (0, 0)
  toLe 8 w.base ++ toLe 5 w.wlen ++ [byte w.perm] ++ toLe 2 (w.gen + 1024 * w.state.code) ++ toLe 4 own ++ toLe 4 pasid ++ zeros 8

/-- Buckram's table holds the descriptor that is in force (R250). -/
def State.writeWindow (s : State) (i : Nat) : State :=
  match s.krm.windows.get i with
  | some w => s.areaWrite windowRegion (i * 32) (s.windowBytes w)
  | none => s

/-- The changes of a descriptor that are due take effect: an OPEN replies; MODIFY and REVOKE wait for the accesses admitted
under an earlier version. -/
def doWindowChangeEffect (index : Nat) (s : State) : State :=
  match s.krm.windows.get index with
  | none => s
  | some w =>
    if s.fatal then s
    else
      let due := w.pend.filter fun x => s.dueFrame x.accepted
      let s := due.foldl (fun s x =>
        let s := s.onKrm fun k => { k with windows := k.windows.mod index fun w => { w with
          base := x.base, wlen := x.wlen, perm := x.perm, gen := x.gen, state := x.state
          pend := w.pend.filter fun y => !s.dueFrame y.accepted
          waits := if x.code = 0x0605 ∨ x.code = 0x0606 then w.waits ++ [(x.code, x.cmd, x.key, s.frameFt)] else w.waits } }
        let s := s.writeWindow index
        if x.code = 0x0604 then s.reply 0x0604 x.cmd true { Answer.ok x.key with ft := some s.frameFt } else s) s
      s.windowReplies

/-- WINDOW_CHANGE_EFFECT (R253). -/
def execWindowChangeEffect (index : Nat) (s : State) : Res := .next (doWindowChangeEffect index s)

end Sys2Proof.Machine
end

