-- ==== Sys2Proof/Machine/Calico.lean ====
section
/-! DEFINITION. Calico (10_calico_cipher.md): engine slices and slice tables, lookaside channels, the cipher page, cipher jobs
and the grace time of a rekey. Readings are in assumption log 32. -/

namespace Sys2Proof.Machine

/-! ## Channels (R294) -/

/-- A lookaside channel by its TARGET form. -/
def State.cyChan (s : State) (t : Nat) : Option CyChan := s.cy.chans.get t

/-- A channel changed. -/
def State.onChanCy (s : State) (t : Nat) (f : CyChan → CyChan) : State := s.onCy fun y => { y with chans := y.chans.mod t f }

/-- The channel bound to a queue, with its TARGET form. -/
def State.chanOfQueue (s : State) (qid : Nat) : Option (Nat × CyChan) := s.cy.chans.find? fun (_, x) => x.jq == qid

/-- The channel bound to a cipher page of a function. -/
def State.chanOfPage (s : State) (f : FnRef) (page : Nat) : Option (Nat × CyChan) :=
  s.cy.chans.find? fun (_, x) => x.page == page && x.pageFn == some f

/-! ## Key slots (R302) -/

/-- The key of which a slot is half removed. -/
def CyChan.dropWide (x : CyChan) (k : Nat) : CyChan :=
  let clear := fun (x : CyChan) (i : Nat) =>
    { x with slots := (x.slots.set i (zeros 32)).set (i + 1) (zeros 32)
             valid := x.valid - (if bit x.valid i then 2 ^ i else 0) - (if bit x.valid (i + 1) then 2 ^ (i + 1) else 0)
             wide := x.wide - 2 ^ i }
  if bit x.wide k then clear x k
  else if 0 < k && bit x.wide (k - 1) then clear x (k - 1)
  else x

/-- Staging words as 32 key bytes. -/
def CyChan.stagedKey (x : CyChan) (w : Nat) : Bytes := (List.range 4).flatMap fun i => toLe 8 ((x.staging.getD (w + i) 0).toNat)

/-- A slot filled. -/
def CyChan.putSlot (x : CyChan) (k : Nat) (b : Bytes) : CyChan :=
  { x with slots := x.slots.set k b, valid := if bit x.valid k then x.valid else x.valid + 2 ^ k }

/-- A write to CY_KEY_CTRL: a store, a clear, or a write that is ignored; the staging words are zero after it. -/
def CyChan.keyCtrl (x : CyChan) (v : Nat) : CyChan :=
  let k := v % 8
  let y := match field v 6 2 with
    | 1 => (x.dropWide k).putSlot k (x.stagedKey 0)
    | 2 =>
      if k % 2 = 1 then { x with err := x.err ||| 1 }
      else
        let y := (((x.dropWide k).dropWide (k + 1)).putSlot k (x.stagedKey 0)).putSlot (k + 1) (x.stagedKey 4)
        { y with wide := y.wide + 2 ^ k }
    | 0 =>
      let y := x.dropWide k
      { y with slots := y.slots.set k (zeros 32), valid := if bit y.valid k then y.valid - 2 ^ k else y.valid }
    | _ => { x with err := x.err ||| 1 }
  { y with staging := List.replicate 8 0 }

/-- The key that an algorithm takes from a slot, where the slot holds one of its width (R309). -/
def CyChan.keyOf (x : CyChan) (alg k : Nat) : Option Bytes :=
  match alg with
  | 4 => some []
  | 2 => if k % 2 = 0 ∧ bit x.wide k then some (x.slots.getD k [] ++ x.slots.getD (k + 1) []) else none
  | _ => if bit x.valid k && !bit x.wide k && !(0 < k && bit x.wide (k - 1)) then some (x.slots.getD k []) else none

/-! ## The cipher page (R301 R303) -/

/-- A write through a cipher page reaches its channel; to an unbound page it is dropped and counted (13 R371). -/
def State.pageWrite (s : State) (f : FnRef) (page : Nat) (g : Nat → State → State) : State :=
  if s.fatal || !s.barOpen f then s
  else match s.chanOfPage f page with
    | none => s.count Ct.func (fnWord f) 0
    | some (t, _) => g t s

/-- A write to CY_KEY_CTRL through a page. -/
def State.pageKeyCtrl (s : State) (f : FnRef) (page v : Nat) : State :=
  s.pageWrite f page fun t s => s.onChanCy t (·.keyCtrl v)

/-- KLEN of a CY_KEY_CTRL value that another row's store or clear takes. -/
def otherKlen (v own : Nat) : Bool := field v 6 2 != own && field v 6 2 != 3

/-- CY_KEY_CTRL with KLEN 1. -/
def doCyKeyStore256 (f : FnRef) (page : Nat) (v : W32) (s : State) : State :=
  if otherKlen v.toNat 1 then s else s.pageKeyCtrl f page v.toNat
/-- CY_KEY_STORE_256 (R302). -/
def execCyKeyStore256 (fn : FnRef) (page : Nat) (value : W32) (s : State) : Res := .next (doCyKeyStore256 fn page value s)

/-- CY_KEY_CTRL with KLEN 2. -/
def doCyKeyStore512 (f : FnRef) (page : Nat) (v : W32) (s : State) : State :=
  if otherKlen v.toNat 2 then s else s.pageKeyCtrl f page v.toNat
/-- CY_KEY_STORE_512 (R302). -/
def execCyKeyStore512 (fn : FnRef) (page : Nat) (value : W32) (s : State) : Res := .next (doCyKeyStore512 fn page value s)

/-- CY_KEY_CTRL with KLEN 0. -/
def doCyKeyClear (f : FnRef) (page : Nat) (v : W32) (s : State) : State :=
  if otherKlen v.toNat 0 then s else s.pageKeyCtrl f page v.toNat
/-- CY_KEY_CLEAR (R302). -/
def execCyKeyClear (fn : FnRef) (page : Nat) (value : W32) (s : State) : Res := .next (doCyKeyClear fn page value s)

/-- A staging word written. -/
def doCyKeyDataWrite (f : FnRef) (page word : Nat) (v : W64) (s : State) : State :=
  if 8 ≤ word then s
  else s.pageWrite f page fun t s => s.onChanCy t fun x => { x with staging := x.staging.set word v }
/-- CY_KEY_DATA_WRITE (R301). -/
def execCyKeyDataWrite (fn : FnRef) (page word : Nat) (value : W64) (s : State) : Res := .next (doCyKeyDataWrite fn page word value s)

/-- A doorbell through the page rings the channel's queue; one of another QID is dropped (R303). -/
def doCyJobDb (f : FnRef) (page : Nat) (v : W64) (s : State) : State :=
  s.pageWrite f page fun t s =>
    match s.cyChan t with
    | none => s
    | some x =>
      if v.toNat % 65536 ≠ x.jq then (s.onChanCy t fun x => { x with err := x.err ||| 2 }).count Ct.func (fnWord f) 0
      else match s.queue x.jq with
        | none => s
        | some q =>
          if q.state != .enabled then s.count Ct.func (fnWord f) 1
          else s.ringWork q { fn := f, bar := 2, offset := page * 4096 + 0x18, size := 8, value := v }
/-- CY_JOB_DB (R303). -/
def execCyJobDb (fn : FnRef) (page : Nat) (value : W64) (s : State) : Res := .next (doCyJobDb fn page value s)

/-! ## Channel commands (R297 to R299 R313) -/

/-- The owner of a channel: the calling function, or a slice of it. -/
def State.cyOwner (s : State) (c : Cmd) (who : Caller) : Option Owner :=
  if bit (cmdLe c 16 2) 15 then
    (s.slice (cmdLe c 16 2 % 16384)).bind fun x =>
      let o := Owner.slice (cmdLe c 16 2 % 16384) x.mgr
      if x.live && s.inScope who o then some o else none
  else some who.owner

/-- The lowest free lookaside number of a tile. -/
def State.freeCipher (s : State) (tile : Nat) : Option Nat :=
  ((List.range 4080).find? fun i => !s.cy.chans.has (tile * 65536 + 16 + i)).map (· + 16)

/-- A page of the caller's BAR2 is a cipher page or a slice's doorbell page, one that Buckram has bound and that awaits its boundary
among them (R298, 13 R371). -/
def State.pageTaken (s : State) (who : Caller) (page : Nat) : Bool :=
  match who.owner.fnRef with
  | some f => (s.chanOfPage f page).isSome || (s.slice page).any fun x => x.mgr == f
  | none => true

/-- Checks 7 to 9 of a CY_CHANNEL_CREATE. -/
def State.cyCreateCheck (s : State) (c : Cmd) (who : Caller) : Option Nat :=
  let page := cmdLe c 18 2
  let w := c.target.toNat
  match s.cyOwner c who with
  | none => some St.notFound
  | some o =>
    if bit (cmdLe c 16 2) 14 || cmdByte c 22 == 0 || 16 ≤ cmdByte c 22 || 16384 ≤ page then some St.badParam
    else match s.queue (cmdLe c 20 2) with
      | none => some St.badParam
      | some q =>
        if q.cls != .cryJq || q.state != .disabled || q.owner != o || (s.chanOfQueue (cmdLe c 20 2)).isSome
           || (w != targetNone && (w / 65536 != q.home || w % 65536 < 16)) then some St.badParam
        else if s.pageTaken who page then some St.exist
        else if w != targetNone && s.cy.chans.has w then some St.exist
        else if w == targetNone && (s.freeCipher q.home).isNone then some St.noResource
        else none

/-- CY_CHANNEL_CREATE. -/
def doCyChannelCreate (c : Cmd) (s : State) : State :=
  s.bk 0x0801 c noDeny true false (fun who s => s.cyCreateCheck c who)

/-- CY_CHANNEL_CREATE (R298). -/
def execCyChannelCreate (c : Cmd) (s : State) : Res := .next (doCyChannelCreate c s)

/-- A new channel: eight empty slots. -/
def newCyChan (c : Cmd) (o : Owner) (who : Caller) : CyChan where
  owner := o
  sid := cmdLe c 16 2
  pageFn := who.owner.fnRef
  page := cmdLe c 18 2
  jq := cmdLe c 20 2
  algs := cmdByte c 22
  slots := List.replicate 8 (zeros 32)
  valid := 0
  wide := 0
  staging := List.replicate 8 0
  err := 0
  jobs := 0
  bytes := 0
  slicesTable := 0
  slicesSpare := 0
  active := []

/-- Buckram binds the page, the channel and the queue. -/
def bkCyChannelCreate (c : Cmd) (who : Caller) (s : State) : State :=
  s.bkApply 0x0801 c who false true false fun s =>
    match s.cyCreateCheck c who, s.cyOwner c who, s.queue (cmdLe c 20 2) with
    | some e, _, _ => (s, some (Answer.just e))
    | none, some o, some q =>
      let t := if c.target.toNat = targetNone then q.home * 65536 + (s.freeCipher q.home).getD 16 else c.target.toNat
      (s.onCy fun y => { y with chans := y.chans.set t (newCyChan c o who) }, some (Answer.ok t))
    | none, _, _ => (s, some (Answer.just St.badParam))

/-- CY_CHANNEL_DESTROY. -/
def doCyChannelDestroy (c : Cmd) (s : State) : State := s.bk 0x0802 c noDeny true true

/-- CY_CHANNEL_DESTROY (R299). -/
def execCyChannelDestroy (c : Cmd) (s : State) : Res := .next (doCyChannelDestroy c s)

/-- Buckram wipes the key slots and unbinds the page. -/
def bkCyChannelDestroy (c : Cmd) (who : Caller) (s : State) : State :=
  s.bkApply 0x0802 c who false true true fun s =>
    match s.cyChan c.target.toNat with
    | none => (s, some (Answer.just St.notFound))
    | some x =>
      if s.quiet x.jq then (s.onCy fun y => { y with chans := y.chans.del c.target.toNat }, some Answer.ok)
      else (s, some (Answer.just St.badState))

/-- An entry of a slice table is allowed (R291 R297). -/
def sliceEntryOk (e : Nat) : Bool := e == 0x8000 || (e < 4096 && !(2 ≤ e && e < 16))

/-- CY_SLICE_TABLE_SET: the new table awaits the next frame boundary, and so does the reply. -/
def doCySliceTableSet (c : Cmd) (s : State) : State :=
  s.sf 0x0803 c noDeny (c.pbLen == 2048) true fun _ s =>
    let l := (List.range 1024).map fun i => le c.pb (2 * i) 2
    if !l.all sliceEntryOk then (s, some (Answer.just St.badParam))
    else if !s.tileOn c.target.toNat then (s, some (Answer.just St.badState))
    else (s.onCy fun y => { y with pend := y.pend ++ [(c.target.toNat, l, s.ft, c)] }, none)

/-- CY_SLICE_TABLE_SET (R297). -/
def execCySliceTableSet (c : Cmd) (s : State) : Res := .next (doCySliceTableSet c s)

/-- The new tables of a tile that are due govern. -/
def doSliceTableEffect (tile : Nat) (s : State) : State :=
  if s.fatal then s
  else
    let due := s.cy.pend.filter fun (t, _, a, _) => t == tile && s.dueFrame a
    let s := s.onCy fun y => { y with pend := y.pend.filter fun (t, _, a, _) => !(t == tile && s.dueFrame a) }
    due.foldl (fun s (_, l, _, c) =>
      (s.onCy fun y => { y with tables := y.tables.set tile l }).reply 0x0803 c false { Answer.ok with ft := some s.frameFt }) s

/-- SLICE_TABLE_EFFECT (R297). -/
def execSliceTableEffect (tile : Nat) (s : State) : Res := .next (s.onDie tile (doSliceTableEffect tile))

/-- The weight of a channel: the entries that name it (R291). -/
def State.weight (s : State) (t : Nat) : Nat := (s.cy.tables.getD (t / 65536) []).count (t % 65536)

/-- The 32 bytes of R313. -/
def State.cyBytes (s : State) (t : Nat) (x : CyChan) : Bytes :=
  [1, byte x.algs] ++ toLe 2 x.page ++ toLe 2 x.jq ++ toLe 2 x.sid ++ toLe 2 (s.weight t) ++ [byte x.valid, byte x.wide]
    ++ toLe 4 t ++ toLe 8 (x.slicesTable % 2 ^ 48) ++ toLe 8 (x.slicesSpare % 2 ^ 48)

/-- The 32 bytes of R313 of an inline channel, which is ACTIVE where its tile is not parked and has none of the parameters of R298. -/
def State.inlineBytes (s : State) (t : Nat) : Bytes :=
  let (a, b) := (Tab.get s.cy.inlineCount t).getD (0, 0)
  [byte (b2n (s.tileOn (t / 65536))), 0] ++ zeros 6 ++ toLe 2 (s.weight t) ++ zeros 2 ++ toLe 4 t ++ toLe 8 (a % 2 ^ 48)
    ++ toLe 8 (b % 2 ^ 48)

/-- CY_QUERY. The inline channels are of every caller's scope (log 32). -/
def doCyQuery (c : Cmd) (s : State) : State :=
  s.sf 0x0804 c noDeny true (decide (2 ≤ c.target.toNat % 65536)) fun _ s =>
    match s.cyChan c.target.toNat with
    | none => if c.target.toNat % 65536 < 2 then (s, some { Answer.ok with data := s.inlineBytes c.target.toNat })
      else (s, some (Answer.just St.notFound))
    | some x => (s, some { Answer.ok with data := s.cyBytes c.target.toNat x })

/-- CY_QUERY (R313). -/
def execCyQuery (c : Cmd) (s : State) : Res := .next (doCyQuery c s)

/-! ## Jobs (R307 to R312) -/

def cryAlg (e : Bytes) : Nat := byteAt e 8
def crySlot (e : Bytes) : Nat := byteAt e 9 % 8
def cryAad (e : Bytes) : Nat := le e 10 2
def cryParam (e : Bytes) : Nat := le e 12 4
def cryDst (e : Bytes) : Frag := fragAt e 32

/-- An AEAD algorithm. -/
def aead (alg : Nat) : Bool := alg == 1 || alg == 3

/-- The output length of an entry with a source of `n` bytes. -/
def cryOutLen (e : Bytes) (n : Nat) : Nat :=
  if aead (cryAlg e) then (if entryOp e = 1 then n - cryAad e + 16 else n - cryAad e - 16)
  else if cryAlg e = 4 then cryParam e else n

/-- The lengths of an entry are within R309. -/
def cryLenOk (e : Bytes) (n : Nat) : Bool :=
  let alg := cryAlg e
  let p := cryParam e
  (match alg with
   | 2 => cryAad e == 0 && 16 ≤ p && p ≤ 16777216 && n != 0 && n % p == 0
   | 4 => cryAad e == 0 && 1 ≤ p && p ≤ 4096
   | _ => if entryOp e = 2 then decide (cryAad e + 16 ≤ n) else decide (cryAad e ≤ n))
    && cryOutLen e n ≤ (cryDst e).len

/-- The class checks of R309, in order, for a source of `n` bytes. -/
def State.cryCheck (s : State) (qid : Nat) (e : Bytes) (n : Nat) : Option Nat :=
  match s.chanOfQueue qid with
  | none => some St.badState
  | some (_, x) =>
    let alg := cryAlg e
    if alg == 0 || 4 < alg || (entryOp e == 3) != (alg == 4) then some St.badParam
    else if !bit x.algs (alg - 1) then some St.denied
    else if (x.keyOf alg (crySlot e)).isNone then some St.badState
    else if !cryLenOk e n then some St.badLength
    else none

/-- The bytes that the engine processes for a job of `n` source bytes: a tag to be checked is not among them. -/
def cryWork (e : Bytes) (n : Nat) : Nat := if aead (cryAlg e) && entryOp e == 2 then n - 16 else n

/-- Bytes of an algorithm in one engine slice (R289). -/
def sliceBytes : Nat → Nat
  | 3 => 256
  | 4 => 272
  | _ => 512

/-- A cipher entry of an opcode starts: it takes its copy of the key, and its source is read. -/
def State.cryStart (s : State) (qid opcode : Nat) : State :=
  match s.readyHead qid with
  | none => s
  | some (q, e) =>
    if q.cls != .cryJq || entryOp e != opcode then s
    else match s.chanOfQueue qid with
      | none => s.endHead qid St.badState 0 e
      | some (t, x) =>
        match x.keyOf (cryAlg e) (crySlot e) with
        | none => s.endHead qid St.badState t e
        | some key =>
          if 16 ≤ x.active.length then s
          else
            let frags := entryFrags .cryJq e q.headFrags
            match s.shaperGo qid (fragTotal frags) with
            | (s, false) => s
            | (s, true) =>
              let (s, n) := s.newOp qid e frags
              let s := s.onOp n fun o => { o with admitted := true }
              let j : Job := { op := n, key := key, total := max 1 (cryWork e (fragTotal frags)), done := 0
                               perSlice := sliceBytes (cryAlg e), lastRow := 0, written := 0 }
              (s.onChanCy t fun x => { x with active := x.active ++ [j] }).readFrags n q.owner 0 frags

/-- CRY ENCRYPT. -/
def doCryEncrypt (qid : Nat) (s : State) : State := s.cryStart qid 1
/-- CRY_ENCRYPT (R308). -/
def execCryEncrypt (qid : Nat) (s : State) : Res := .next (doCryEncrypt qid s)

/-- CRY DECRYPT. -/
def doCryDecrypt (qid : Nat) (s : State) : State := s.cryStart qid 2
/-- CRY_DECRYPT (R312). -/
def execCryDecrypt (qid : Nat) (s : State) : Res := .next (doCryDecrypt qid s)

/-- CRY DIGEST. -/
def doCryDigest (qid : Nat) (s : State) : State := s.cryStart qid 3
/-- CRY_DIGEST (R308). -/
def execCryDigest (qid : Nat) (s : State) : Res := .next (doCryDigest qid s)

/-- The output of a job and whether its tag, if it has one to check, is right. -/
def cryOutput (e key src : Bytes) : Bytes × Bool :=
  let a := src.take (cryAad e)
  let r := src.drop (cryAad e)
  let iv := slice e 16 12
  let ct := r.take (r.length - 16)
  let tag := r.drop (r.length - 16)
  match cryAlg e, entryOp e with
  | 1, 1 =>
    let (c, t) := gcmSeal key iv a r
    (c ++ t, true)
  | 1, _ => (gcmCrypt key iv ct, gcmTag key iv a ct == tag)
  | 3, 1 =>
    let c := chachaCrypt key iv r
    (c ++ chachaTag key iv a c, true)
  | 3, _ => (chachaCrypt key iv ct, chachaTag key iv a ct == tag)
  | 2, k => (xtsUnits (k != 1) key (le e 16 16) (chunks (cryParam e) src), true)
  | _, _ => (shake256 src (cryParam e), true)

/-- A job leaves its channel. -/
def State.jobGone (s : State) (n : Nat) : State :=
  s.onCy fun y => { y with chans := y.chans.map fun (t, x) => (t, { x with active := x.active.filter (·.op != n) }) }

/-- A job ends with the status of a source read; what it has written stays (R310). -/
def State.jobFail (s : State) (t : Nat) (j : Job) (status : Nat) : State :=
  (s.jobGone j.op).finishOp j.op status j.written t s.ft (zeros 8)

/-- The output bytes that are there when the first `n` bytes of a job have been processed: those of the text as it goes for an AEAD,
whole data units for XTS, and the digest at the end (R308 R312). -/
def cryReady (e : Bytes) (n total : Nat) : Nat :=
  if aead (cryAlg e) then min n total - cryAad e
  else if cryAlg e = 2 then min n total / cryParam e * cryParam e
  else 0

/-- Output bytes of a job from where it stands up to `upTo`, written to DST. -/
def State.jobWrite (s : State) (t : Nat) (j : Job) (o : Op) (w : Owner) (b : Bytes) (upTo : Nat) : State :=
  let k := min upTo b.length - j.written
  if k = 0 then s
  else
    let d := cryDst o.entry
    let (s, _) := s.writeData w { d with addr := d.addr + j.written, len := k } (sliceZ b j.written k)
    s.onChanCy t fun x => { x with
      bytes := (x.bytes + k) % 2 ^ 48
      active := x.active.map fun (y : Job) => (if y.op = j.op then { y with written := j.written + k } else y) }

/-- The last engine slice of a job has ended at an instant: the rest of its output is written, its tag checked, and it finishes
(R310 R312). -/
def State.jobDone (s : State) (t : Nat) (j : Job) (o : Op) (w : Owner) (at' : Nat) : State :=
  let (b, ok) := cryOutput o.entry j.key (o.data (fragTotal o.frags))
  let s := ((s.jobWrite t j o w b b.length).jobGone j.op).onChanCy t fun x => { x with jobs := (x.jobs + 1) % 2 ^ 48 }
  let s := s.count Ct.calico (t / 65536) 2
  let s := if ok then s else s.count Ct.calico (t / 65536) 3
  s.finishOp j.op (if ok then St.ok else St.authfail) b.length t at' ([byte (b2n (!ok))] ++ zeros 7)

/-- The engine slices of a job have ended: what they produced is written as it is produced (R312). -/
def State.jobSettle (s : State) (t : Nat) (j : Job) : State :=
  match s.op j.op with
  | none => s.jobGone j.op
  | some o =>
    match s.queue o.qid with
    | none => s.jobGone j.op
    | some q =>
      if j.lastRow = 0 || s.time.osc + 1 < j.lastRow + 32 || o.failAt.isSome then s
      else if j.total ≤ j.done then s.jobDone t j o q.owner (s.ft + (j.lastRow + 31) - s.time.osc)
      else s.jobWrite t j o q.owner (cryOutput o.entry j.key (o.data (fragTotal o.frags))).1 (cryReady o.entry j.done j.total)

/-- The jobs of a tile whose engine slices have ended by now, in the order of their channels and indices. -/
def State.settleJobs (s : State) (tile : Nat) : State :=
  (s.cy.chans.filter fun (t, _) => t / 65536 == tile).foldl (fun s (t, x) => x.active.foldl (fun s j => s.jobSettle t j) s) s

/-- A read of a job's source ends; with a failure among them the job ends when all have come (03 R103). -/
def State.cryArrive (s : State) (n off : Nat) (how : ReadEnd) : State :=
  let s := s.opArrive n off how
  match s.op n with
  | none => s
  | some o =>
    match o.failAt, s.chanOfQueue o.qid with
    | some (_, st), some (t, x) => match x.active.find? (·.op == n) with
      | some j => if o.reading = 0 then s.jobFail t j st else s
      | none => s
    | _, _ => s

/-! ## Rows (R291 R293) -/

/-- The time after a step of FT, up to the next frame boundary of the new FT, is spare (R293). -/
def State.spareTime (s : State) : Bool :=
  let f := s.ftu
  f.stepAmt != 0 && f.stepAt % 1024 != 0 && decide (f.stepAt ≤ s.ft) && decide (s.ft < roundUp f.stepAt 1024)

/-- The row whose slices begin at this instant. A row lasts 32 ns of the engine's clock and the next follows it: row 0 where a new frame
has begun, row 32, which is spare, after row 31 and after a step, as long as it ends by the frame boundary. A tile whose rows were
left falls in with the rows of the frame (log 32). -/
def State.rowNow (s : State) (tile : Nat) : Option CyRow :=
  let r := s.cy.rows.getD tile { start := 0, row := 0, frame := 0, lanes := 0 }
  let new := fun (k : Nat) => (some { start := s.time.osc, row := k, frame := s.ft / 1024, lanes := 0 } : Option CyRow)
  let spare := if s.ft % 1024 ≤ 992 then new 32 else none
  if s.time.osc = r.start then some r
  else if s.time.osc < r.start + 32 then none
  else if s.onFrame then new 0
  else if s.spareTime then spare
  else if s.time.osc = r.start + 32 then
    if s.ft / 1024 ≠ r.frame then new 0 else if r.row < 31 then new (r.row + 1) else spare
  else if s.onGrid 32 0 then new ((s.ft - s.past 32 0) % 1024 / 32)
  else none

/-! ## Engine slices (R290 to R292) -/

/-- The bytes of an operation's data that have come without a gap from its start. -/
def Op.reach (o : Op) : Nat :=
  o.got.foldl (fun n _ => o.got.foldl (fun n (k, b) => if k ≤ n then max n (k + b.length) else n) n) 0

/-- A job can use an engine slice now: the source bytes of the slice are there, for the last slice all of them, bytes are left, and a
digest has had none in this row. -/
def State.jobReady (s : State) (j : Job) : Bool :=
  match s.op j.op with
  | some o =>
    let need := if j.total ≤ j.done + j.perSlice then fragTotal o.frags else j.done + j.perSlice
    o.failAt.isNone && decide (j.done < j.total) && decide (need ≤ o.reach) && !(cryAlg o.entry == 4 && j.lastRow == s.time.osc + 1)
  | none => false

/-- A channel of a tile is ready: inline work, or a job that can use an engine slice. -/
def State.channelReady (s : State) (tile ch : Nat) : Bool :=
  if ch < 2 then s.cy.inlineWork.any fun w => w.tile == tile && w.chan == ch && w.left != 0
  else match s.cyChan (tile * 65536 + ch) with
    | some x => x.active.any s.jobReady
    | none => false

/-- The channel that owns the engine slice of a lane in a row; none in a spare row or for an OPEN entry. -/
def State.sliceOwner (s : State) (tile lane row : Nat) : Option Nat :=
  if 32 ≤ row then none
  else
    let e := (s.cy.tables.getD tile []).getD (row * 32 + lane) 0x8000
    if e < 4096 then some e else none

/-- The next ready channel in rotation after the one last served (R292). -/
def State.nextSpare (s : State) (tile : Nat) : Option Nat :=
  let last := s.cy.rotate.getD tile 0
  let own : List Nat := s.cy.chans.filterMap fun x => if x.1 / 65536 = tile then some (x.1 % 65536) else none
  let l := (0 :: 1 :: own).filter (s.channelReady tile)
  match l.find? (last < ·) with
  | some c => some c
  | none => l.head?

/-- The oldest item of an inline channel that needs an engine slice takes one; an item for which no frame waits leaves with its last. -/
def inlineSlice (tile ch : Nat) : List InlineWork → List InlineWork
  | [] => []
  | w :: l =>
    if w.tile = tile ∧ w.chan = ch ∧ w.left ≠ 0 then
      (if w.left = 1 ∧ w.frame = none then l else { w with left := w.left - 1 } :: l)
    else w :: inlineSlice tile ch l

/-- A channel receives an engine slice, from its own entry or by rotation. -/
def State.giveSlice (s : State) (tile ch : Nat) (own : Bool) : State :=
  let s := s.count Ct.calico tile (if own then 0 else 1)
  let s := if own then s else s.onCy fun y => { y with rotate := y.rotate.set tile ch }
  let t := tile * 65536 + ch
  if ch < 2 then
    s.onCy fun y => { y with
      inlineWork := inlineSlice tile ch y.inlineWork
      inlineCount :=
        let (a, b) := (Tab.get y.inlineCount t).getD (0, 0)
        Tab.set y.inlineCount t (if own then (a + 1, b) else (a, b + 1)) }
  else
    match s.cyChan t with
    | none => s
    | some x =>
      let s := s.onChanCy t fun x => if own then { x with slicesTable := x.slicesTable + 1 } else { x with slicesSpare := x.slicesSpare + 1 }
      match x.active.find? s.jobReady with
      | none => s
      | some j =>
        let j' := { j with done := j.done + j.perSlice, lastRow := s.time.osc + 1 }
        s.onChanCy t fun x => { x with active := x.active.map fun (y : Job) => (if y.op = j.op then j' else y) }

/-- The engine slice of a lane that begins now, once in its row. What the slices of earlier rows produced is written first. -/
def doEngineSlice (tile lane : Nat) (s : State) : State :=
  if s.fatal || 4 ≤ tile || 32 ≤ lane || !s.tileOn tile then s
  else
    let s := s.settleJobs tile
    match s.rowNow tile with
    | none => s
    | some r =>
      if bit r.lanes lane then s
      else
        let s := s.onCy fun y => { y with rows := y.rows.set tile { r with lanes := r.lanes + 2 ^ lane } }
        match (s.sliceOwner tile lane r.row).filter (s.channelReady tile) with
        | some ch => s.giveSlice tile ch true
        | none => match s.nextSpare tile with
          | some ch => if 9 ≤ max s.power.level s.power.forced then s else s.giveSlice tile ch false
          | none => s

/-- ENGINE_SLICE (R291). -/
def execEngineSlice (tile lane : Nat) (s : State) : Res := .next (doEngineSlice tile lane s)

/-! ## Rekeying (R306) -/

/-- The previous key of a connection is discarded at the end of its grace time. -/
def doRekeyGraceExpire (cid : Nat) (s : State) : State :=
  let s := s.rekey cid
  match s.sealKey cid with
  | none => s
  | some k =>
    if s.fatal || k.previous.isNone || s.ft < k.graceEnd then s
    else s.onCy fun y => { y with cidKeys := y.cidKeys.mod cid fun k => { k with previous := none } }

/-- REKEY_GRACE_EXPIRE (R306). -/
def execRekeyGraceExpire (cid : Nat) (s : State) : Res := .next (s.onDie (s.connDie cid) (doRekeyGraceExpire cid))

end Sys2Proof.Machine
end

