-- ==== Sys2Proof/Machine/Dma.lean ====
section
/-! DEFINITION. DMA channels (11_dma_channels.md): descriptors, beats, errors, retries and halts. A beat is named by the stream
offset of its first byte. The pacing of beats in engine clocks is left out (assumption log 3). -/

namespace Sys2Proof.Machine

/-! ## Descriptors (R318 R319) -/

def dmaFl (e : Bytes) : Nat := byteAt e 8
def dmaRetry (e : Bytes) : Nat := if byteAt e 9 % 16 = 0 then 3 else byteAt e 9 % 16
def dmaShare (e : Bytes) : Nat := byteAt e 10 % 16
def dmaSrc (e : Bytes) : Nat := le e 16 8
def dmaSrcStride (e : Bytes) : Nat := le e 24 8
def dmaSrcLen (e : Bytes) : Nat := le e 32 4
def dmaSrcLines (e : Bytes) : Nat := le e 36 4
def dmaDst (e : Bytes) : Nat := le e 40 8
def dmaDstStride (e : Bytes) : Nat := le e 48 8
def dmaDstLen (e : Bytes) : Nat := le e 56 4
def dmaDstLines (e : Bytes) : Nat := le e 60 4

/-- The entry is a COPY. -/
def dmaCopies (e : Bytes) : Bool := entryOp e == 1

/-- N. -/
def dmaTotal (e : Bytes) : Nat := dmaDstLen e * dmaDstLines e

/-- The address of stream byte `k` on a side. -/
def lineAddr (base stride len k : Nat) : Nat := (base + k / len * stride + k % len) % 2 ^ 64
def dmaSrcAt (e : Bytes) (k : Nat) : Nat := lineAddr (dmaSrc e) (dmaSrcStride e) (dmaSrcLen e) k
def dmaDstAt (e : Bytes) (k : Nat) : Nat := lineAddr (dmaDst e) (dmaDstStride e) (dmaDstLen e) k

/-- `n` pattern bytes of a FILL from stream byte `k` on. -/
def dmaFill (e : Bytes) (k n : Nat) : Bytes := (List.range n).map fun i => byte (dmaSrc e / 2 ^ (8 * ((k + i) % 8)) % 256)

/-- The length of the beat that begins at `k` (R320). -/
def beatLen (e : Bytes) (k : Nat) : Nat :=
  let d := min (dmaDstLen e - k % dmaDstLen e) (64 - dmaDstAt e k % 64)
  let n := min d (dmaTotal e - k)
  if dmaCopies e then min n (min (dmaSrcLen e - k % dmaSrcLen e) (64 - dmaSrcAt e k % 64)) else n

/-- The beats from `k` on. -/
def beatCount (e : Bytes) : Nat → Nat → Nat
  | 0, _ => 0
  | n + 1, k => if dmaTotal e ≤ k then 0 else beatCount e n (k + max 1 (beatLen e k)) + 1

/-- The lines of a side do not wrap. -/
def linesOk (base stride len lines : Nat) (dev : Bool) : Bool :=
  (List.range lines).all fun i => (base + i * stride) % 2 ^ 64 + len ≤ (if dev then 2 ^ 48 else 2 ^ 64)

/-- The class checks of R321, in order; `fw`: a FIRMWARE queue. -/
def dmaCheck (e : Bytes) (fw : Bool) : Option Nat :=
  let fl := dmaFl e
  let copy := dmaCopies e
  let lenOk := fun len lines => 1 ≤ len && len ≤ 16777216 && 1 ≤ lines && lines ≤ 65536
  let stride := signed 64 (dmaDstStride e)
  if entryFragCount e != 0 then some St.badFrags
  else if 8 ≤ fl || 16 ≤ byteAt e 9 || 16 ≤ byteAt e 10 || (fl % 4 != 0 && !fw) || (!copy && bit fl 0) then some St.badFlags
  else if !lenOk (dmaDstLen e) (dmaDstLines e)
     || (if copy then !lenOk (dmaSrcLen e) (dmaSrcLines e) || dmaSrcLen e * dmaSrcLines e != dmaTotal e
         else dmaSrcStride e != 0 || dmaSrcLen e != 0 || dmaSrcLines e != 0)
     || 1073741824 < dmaTotal e then some St.badLength
  else if (copy && !linesOk (dmaSrc e) (dmaSrcStride e) (dmaSrcLen e) (dmaSrcLines e) (bit fl 0))
     || !linesOk (dmaDst e) (dmaDstStride e) (dmaDstLen e) (dmaDstLines e) (bit fl 1)
     || (decide (1 < dmaDstLines e) && decide (stride.natAbs < dmaDstLen e)) then some St.badParam
  else none

/-! ## Channels -/

/-- A channel by its key, tile × 256 + number. -/
def State.dmaChan (s : State) (k : Nat) : Option DmaChan := s.dma.get k

/-- A channel changed. -/
def State.onDmaChan (s : State) (k : Nat) (f : DmaChan → DmaChan) : State := s.onDma fun d => d.mod k f

/-- A beat of a channel changed. -/
def State.onBeat (s : State) (k b : Nat) (f : Beat → Beat) : State :=
  s.onDmaChan k fun x => { x with beats := x.beats.map fun (y : Beat) => (if y.k = b then f y else y) }

/-- The entry of a channel in progress, with the owner of its queue. -/
def State.dmaEntry (s : State) (x : DmaChan) : Option (Nat × Bytes × Owner) :=
  match x.op with
  | none => none
  | some n => match s.op n with
    | none => none
    | some o => (s.queue o.qid).map fun q => (n, o.entry, q.owner)

/-- Outstanding reads of a channel come too late. -/
def State.killBeats (s : State) (k : Nat) : State :=
  s.onHost fun h => { h with reads := h.reads.map fun (t, r) => match r.why with
    | .beat a b _ => if a * 256 + b = k then (t, { r with dead := true }) else (t, r)
    | _ => (t, r) }

/-- The completion's bytes 12 to 15 (R327). -/
def dmaC12 (k : Nat) (x : DmaChan) (err : Bool) : Nat :=
  k % 256 + k / 256 * 256 + x.retries * 65536 + (b2n err + 2 * b2n (err && x.errDst)) * 2 ^ 24

/-- The entry of a channel finishes with a status: its completion, LAST_STATUS, and EOC after it (R327 R328). What the registers of a
channel show passes to the queue's channel at its new home; a halted channel's queue that is being disabled drops what is cached
(R326). -/
def State.dmaFinish (s : State) (k : Nat) (x : DmaChan) (status : Nat) (err : Bool) : State :=
  match s.dmaEntry x with
  | none => s
  | some (n, e, _) =>
    match s.op n with
    | none => s
    | some o =>
      let s := (s.killBeats k).onDmaChan k fun x => { x with
        op := none, lastStatus := status, paced := false, beats := [], failing := none, count := x.count }
      let s := match s.dmaChan k, s.queue o.qid with
        | some old, some q =>
          if q.home = k / 256 then s
          else s.onDma fun d => (d.del k).map fun ((j, y) : Nat × DmaChan) =>
            (if y.qid = o.qid ∧ j / 256 = q.home then (j, y.follow old) else (j, y))
        | _, _ => s
      let s := if err && (s.queue o.qid).any (fun (q : Queue) => q.state == .draining) then (s.killFetches o.qid).onQueue o.qid Queue.dropCached else s
      let s := s.onQm fun m => { m with ops := m.ops.del n }
      let c : Compl := { qid := o.qid, ok := status == St.ok, suppressed := suppressed .dmaCh e status
                         bytes := complBytes (entryCookie e) status o.qid x.doneBytes (dmaC12 k x err) s.ft
                           (toLe 8 (if err then x.errAddr else 0))
                         data := none, event := false, tag := none, tile := some o.tile
                         eoc := if bit (dmaFl e) 2 then some (sourceNo (k / 256) (k % 256), status) else none }
      s.finish o.qid o.idx c status x.doneBytes

/-- A channel whose entry has nothing left outstanding finishes it, or halts (R325). -/
def State.dmaSettle (s : State) (k : Nat) : State :=
  match s.dmaChan k with
  | none => s
  | some x =>
    match s.dmaEntry x with
    | none => s
    | some (_, e, _) =>
      if !x.beats.isEmpty then s
      else match x.failing with
        | some (st, dst, a) =>
          let x := { x with err := true, halt := true, errDst := dst, errAddr := a }
          ((s.onDmaChan k fun _ => x).count Ct.dma (k / 256) 2).dmaFinish k x st true
        | none => if dmaTotal e ≤ x.nextK then s.dmaFinish k x St.ok false else s

/-- A beat fails (R324): it waits for its retry, ends its entry at once, or, when its retries have run out, leaves the entry to
wait for the beats already issued. -/
def State.beatFail (s : State) (k b : Nat) (how : BeatFault) : State :=
  match s.dmaChan k with
  | none => s
  | some x =>
    match s.dmaEntry x, x.beats.find? (·.k == b) with
    | some (_, e, _), some y =>
      match how with
      | .poisoned => s.dmaFinish k x St.poisoned false
      | .uncorrectable => s.dmaFinish k x St.uncorrectable false
      | .busMaster => s.dmaFinish k x St.abortedBme false
      | _ =>
        if x.failing.isSome then (s.onDmaChan k fun x => { x with beats := x.beats.filter (·.k != b) }).dmaSettle k
        else if y.tries < dmaRetry e then
          s.onBeat k b fun y => { y with data := none, tries := y.tries + 1, retryAt := some (nextFrame s.ft) }
        else
          let st := match how with
            | .readTimeout => St.hostReadTimeout
            | .writeError => St.hostWriteErr
            | _ => St.hostReadErr
          (s.onDmaChan k fun x => { x with
            failing := some (st, how == .writeError, if how = .writeError then dmaDstAt e b else dmaSrcAt e b)
            beats := x.beats.filter fun y => y.k != b && y.retryAt.isNone }).dmaSettle k
    | _, _ => s

/-- The lines of a side, as ranges of addresses. -/
def dmaRanges (base stride len lines : Nat) : List (Nat × Nat) :=
  (List.range lines).map fun i => ((base + i * stride) % 2 ^ 64, (base + i * stride) % 2 ^ 64 + len)

/-- The source and the destination of a COPY overlap: a host error, after which the destination holds any data (R321). -/
def dmaOverlaps (e : Bytes) : Bool :=
  dmaCopies e && bit (dmaFl e) 0 == bit (dmaFl e) 1 &&
    (dmaRanges (dmaSrc e) (dmaSrcStride e) (dmaSrcLen e) (dmaSrcLines e)).any fun (a, b) =>
      (dmaRanges (dmaDst e) (dmaDstStride e) (dmaDstLen e) (dmaDstLines e)).any fun (c, d) => a < d && c < b

/-- `n` free bytes from a free value on (log 4). -/
def freeBytes (free n : Nat) : Bytes := (List.range n).map fun i => byte (Config.freeNat (free + i) % 256)

/-- The device addresses that a beat writes are enabled: one that is not is found when the beat is issued (R321). -/
def State.beatLands (s : State) (e : Bytes) (b n : Nat) : Bool :=
  !bit (dmaFl e) 1 || (addrs (dmaDstAt e b) n).all fun x => s.mayReach .engine x true false

/-- The access that a beat begins with is made: the read of a COPY; a FILL has its data. -/
def State.beatRead (s : State) (k b : Nat) : State :=
  match s.dmaChan k with
  | none => s
  | some x =>
    match s.dmaEntry x, x.beats.find? (·.k == b) with
    | some (_, e, w), some y =>
      if !dmaCopies e then
        if s.beatLands e b y.len then s.onBeat k b fun z => { z with data := some (dmaFill e b y.len) } else s.beatFail k b .writeError
      else if bit (dmaFl e) 0 then
        match s.devRead .engine (dmaSrcAt e b) y.len with
        | .data d =>
          let s := s.meet 2 (dmaSrcAt e b) y.len
          if s.beatLands e b y.len then s.onBeat k b fun z => { z with data := some d } else s.beatFail k b .writeError
        | .poisoned =>
          (s.meet 2 (dmaSrcAt e b) y.len).beatFail k b
            (if s.badStatus (dmaSrcAt e b) y.len = St.poisoned then .poisoned else .uncorrectable)
        | .fault => s.beatFail k b .readError
      else if !s.beatLands e b y.len then s.beatFail k b .writeError
      else match w, s.hostRead w (dmaSrcAt e b) y.len (.beat (k / 256) (k % 256) b) with
        | .firmware, _ => s.beatFail k b .readError
        | _, (s, some _) => s
        | _, (s, none) => s.beatFail k b .readError
    | _, _ => s

/-- Beats issued while the channel holds fewer than 64, at most `n`. -/
def State.issueBeats (s : State) (k : Nat) : Nat → State
  | 0 => s
  | n + 1 =>
    match s.dmaChan k with
    | none => s
    | some x =>
      match s.dmaEntry x with
      | none => s
      | some (_, e, w) =>
        if dmaTotal e ≤ x.nextK || x.failing.isSome || 64 ≤ x.beats.length || s.ownerHeld w then s
        else
          let b := x.nextK
          let l := max 1 (beatLen e b)
          let s := (s.onDmaChan k fun x => { x with
            nextK := b + l, count := x.count - 1, beats := x.beats ++ [{ k := b, len := l, data := none, tries := 0, retryAt := none }] }).count
              Ct.dma (k / 256) 0
          State.issueBeats (s.beatRead k b) k n

/-! ## Commands -/

/-- A DMA entry of an opcode starts and issues its beats. -/
def State.dmaStart (s : State) (qid opcode : Nat) : State :=
  match s.readyHead qid with
  | none => s
  | some (q, e) =>
    if q.cls != .dmaCh || entryOp e != opcode then s
    else match s.dmaKey qid q with
      | none => s
      | some k =>
        match (if dmaShare e = 0 then s.shaperGo qid (dmaTotal e) else (s, true)) with
        | (s, false) => s
        | (s, true) =>
          let (s, n) := s.newOp qid e []
          let s := s.onOp n fun o => { o with admitted := true }
          let s := s.onDmaChan k fun x => { x with
            op := some n, paced := dmaShare e != 0, retries := 0, nextK := 0, count := beatCount e (dmaTotal e) 0, beats := []
            doneBytes := 0, failing := none }
          (s.issueBeats k 64).dmaSettle k

/-- DMA COPY. -/
def doDmaCopy (qid : Nat) (s : State) : State := s.dmaStart qid 1
/-- DMA_COPY (R319). -/
def execDmaCopy (qid : Nat) (s : State) : Res := .next (doDmaCopy qid s)

/-- DMA FILL. -/
def doDmaFill (qid : Nat) (s : State) : State := s.dmaStart qid 2
/-- DMA_FILL (R319). -/
def execDmaFill (qid : Nat) (s : State) : Res := .next (doDmaFill qid s)

/-- The write of a beat: to device memory or through the host die; none where it is refused. -/
def State.beatWrite (s : State) (e : Bytes) (w : Owner) (b : Nat) (d : Bytes) : Option State :=
  let open' := dmaOverlaps e
  let d := if open' then freeBytes s.free d.length else d
  let s := if open' then s.onFree (· + d.length) else s
  if bit (dmaFl e) 1 then s.devWrite .engine (dmaDstAt e b) d
  else match w with
    | .firmware => none
    | _ => match s.ownerWrite w (dmaDstAt e b) d with
      | (s, true) => some s
      | _ => none

/-- The write of a beat whose data is there is accepted; the last one finishes the entry. -/
def doDmaBeatComplete (tile chan beat : Nat) (s : State) : State :=
  let k := tile * 256 + chan
  match s.dmaChan k with
  | none => s
  | some x =>
    match s.dmaEntry x, x.beats.find? (·.k == beat) with
    | some (_, e, w), some y =>
      match y.data with
      | none => s
      | some d =>
        if s.fatal || (!bit (dmaFl e) 1 && s.ownerHeld w) then s
        else match s.beatWrite e w beat d with
          | none => s.beatFail k beat .writeError
          | some s =>
            let s := s.onDmaChan k fun x => { x with beats := x.beats.filter (·.k != beat), doneBytes := x.doneBytes + y.len }
            (s.issueBeats k 64).dmaSettle k
    | _, _ => s

/-- DMA_BEAT_COMPLETE (R320). -/
def execDmaBeatComplete (tile chan beat : Nat) (s : State) : Res := .next (doDmaBeatComplete tile chan beat s)

/-- The host read of a beat is over. -/
def State.dropBeatRead (s : State) (tile chan beat : Nat) : State :=
  (s.host.reads.filter fun (_, r) => r.why == .beat tile chan beat && !r.dead).foldl (fun s (t, _) => s.dropRead t) s

/-- A beat that is issued fails as the outside world says. A failure by bus mastering comes only while it is disabled. -/
def doDmaBeatFail (tile chan beat : Nat) (how : BeatFault) (s : State) : State :=
  let k := tile * 256 + chan
  match s.dmaChan k with
  | none => s
  | some x =>
    match s.dmaEntry x, x.beats.find? (·.k == beat) with
    | some (_, _, w), some y =>
      if s.fatal || y.retryAt.isSome || (how == .busMaster && !s.ownerHeld w) then s
      else ((s.dropBeatRead tile chan beat).beatFail k beat how).issueBeats k 64
    | _, _ => s

/-- DMA_BEAT_FAIL (R324). -/
def execDmaBeatFail (tile chan beat : Nat) (how : BeatFault) (s : State) : Res := .next (doDmaBeatFail tile chan beat how s)

/-- A failed beat is issued again at its frame boundary. -/
def doDmaBeatRetry (tile chan beat : Nat) (s : State) : State :=
  let k := tile * 256 + chan
  match s.dmaChan k with
  | none => s
  | some x =>
    match s.dmaEntry x, x.beats.find? (·.k == beat) with
    | some (_, _, w), some y =>
      match y.retryAt with
      | none => s
      | some t =>
        if s.fatal || !s.dueAt t s.onFrame || s.ownerHeld w then s
        else
          let s := (s.onDmaChan k fun x => { x with retries := min 255 (x.retries + 1) }).count Ct.dma tile 1
          (s.onBeat k beat fun y => { y with retryAt := none }).beatRead k beat
    | _, _ => s

/-- DMA_BEAT_RETRY (R324). -/
def execDmaBeatRetry (tile chan beat : Nat) (s : State) : Res := .next (s.onDie tile (doDmaBeatRetry tile chan beat))

/-- The host read of a beat ends. -/
def State.beatArrive (s : State) (tile chan beat : Nat) (how : ReadEnd) : State :=
  let k := tile * 256 + chan
  match how with
  | .data d => s.onBeat k beat fun y => { y with data := some (sliceZ d 0 y.len) }
  | .poisoned => s.beatFail k beat .poisoned
  | .timeout => (s.beatFail k beat .readTimeout).issueBeats k 64
  | _ => (s.beatFail k beat .readError).issueBeats k 64

/-! ## The channel registers (R323) -/

/-- DM_STATUS. -/
def DmaChan.statusWord (x : DmaChan) : Nat :=
  b2n x.err + 2 * b2n x.halt + 4 * b2n x.errDst + 8 * b2n x.op.isSome + 16 * b2n x.paced + 65536 * x.lastStatus

end Sys2Proof.Machine
end

