-- ==== Sys2Proof/Machine/CoreOps.lean ====
section
/-! DEFINITION. The shared operations of cores and threads (12_cores_threads.md): staging buffers, stopping, deadlock and
watchdog conditions, and the start of service firmware's threads. -/

namespace Sys2Proof.Machine

/-! ## Staging and stopping (R338 R346 R351) -/

/-- A thread's open message discarded, its reservation released. -/
def State.discardStaging (s : State) (tid : Nat) : State :=
  match s.thread tid with
  | none => s
  | some t =>
    match t.stagingCh with
    | none => s
    | some ch =>
      let s := s.onThread tid fun t => { t with stagingCh := none, stagingLen := 0, staging := [] }
      (s.onChan ch fun c => { c with reserved := c.reserved - t.stagingLen }).spaceCheck ch

/-- Whether a core follows an instruction of a thread. -/
def CoreSt.follows (c : CoreSt) (tid : Nat) : Bool :=
  match c.follow with
  | some (k, _, _) => k == tid
  | none => false

/-- The blocking instruction of a blocked thread is taken back: it has not been executed (R338), and yields no sample record
(log 33). -/
def State.unexec (s : State) (tid : Nat) : State :=
  match s.thread tid with
  | none => s
  | some t =>
    if t.state = .blockedCh ∨ t.state = .blockedEv then
      (s.leaveReaders tid t).onCore (tid / 8) fun c => if c.follows tid then { c with follow := none } else c
    else s

/-- A thread put in a state, its blocking instruction taken back. -/
def State.halt (s : State) (tid : Nat) (st remembered : ThState) : State :=
  (s.unexec tid).onThread tid fun t => { t with state := st, remembered := remembered, stepping := false }

/-! ## Deadlock and watchdog (R352 R353) -/

/-- The settling of every core of a tile. -/
def State.tileSettle (s : State) (tile : Nat) : State := (List.range 32).foldl (fun s j => s.coreSettle (tile * 32 + j)) s

/-- The watchdog's time, with what elapsed before a pause. -/
def CoreSt.wdTime (c : CoreSt) (ft : Nat) : Nat :=
  c.wdElapsed + match c.wdStart with
    | some t => ft - t
    | none => 0

/-! ## Starting (R338 R341 R344) -/

/-- A slow-path channel at tile start. -/
def Chan.slowPath (logDepth maxLen : Nat) : Chan where
  en := true
  prod := 2
  pcore := 0
  logDepth := logDepth
  maxLen := maxLen
  msgs := []
  reserved := 0
  readers := []

/-- A thread starts service firmware's image: thread 0 in RUN at ENTRY, the others IDLE, with staging empty. Registers, CSRs
and pending events stay as they are (log 33). -/
def Thread.start (t : Thread) (tid entry : Nat) : Thread :=
  { t with state := if tid % 8 = 0 then .run else .idle, remembered := .run, stepping := false
           pc := if tid % 8 = 0 then entry else t.pc, cause := 0, fval := 0, spaceWatch := none, reservation := none }

/-- A tile's cores and channels at power-up, thread 0 of each core in RUN at ENTRY. -/
def State.tileCores (s : State) (tile : Nat) : State :=
  s.onCores fun c => { c with
    threads := (List.range 256).foldl (fun l k =>
      l.set (tile * 256 + k) ((Thread.fresh (tile * 256 + k)).start (tile * 256 + k) c.entry)) c.threads
    cores := (List.range 32).foldl (fun l k => l.set (tile * 32 + k) CoreSt.fresh) c.cores
    chans := let l : Tab Chan := c.chans.filter (fun (k, _) => k / 2048 != tile)
             Tab.set (Tab.set l (tile * 2048) (Chan.slowPath 14 8)) (tile * 2048 + 1) (Chan.slowPath 12 1) }

/-- A tile's threads, cores and channels cease to exist (R343, 16 R453). -/
def State.dropTileCores (s : State) (tile : Nat) : State :=
  s.onCores fun c => { c with
    threads := c.threads.filter fun (k, _) => k / 256 != tile
    cores := c.cores.filter fun (k, _) => k / 32 != tile
    chans := c.chans.filter fun (k, _) => k / 2048 != tile }

/-- KILL of the debugger: the thread is IDLE, and its staging buffer is empty (R356). -/
def State.kill (s : State) (tid : Nat) : State := (s.halt tid .idle .run).discardStaging tid

/-- The DSTOP threads of a tile handled as by KILL, at its park point (17 R482). -/
def State.killStopped (s : State) (tile : Nat) : State :=
  let l := (List.range 256).map (tile * 256 + ·) |>.filter fun k => match s.thread k with
    | some t => t.state == .dstop
    | none => false
  l.foldl (fun s k => (s.kill k).coreSettle (k / 8)) s

/-- Every thread stops and its staging buffer is discarded; thread 0 of every core starts at ENTRY (15 R439). -/
def State.restartThreads (s : State) : State :=
  let l := s.cores.threads.map (·.1)
  let s := l.foldl (fun s k => (s.halt k .idle .idle).discardStaging k) s
  let e := s.cores.entry
  let s := s.onCores fun c => { c with
    threads := c.threads.map fun (k, t) => (k, t.start k e)
    cores := c.cores.map fun (k, x) => (k, { x with wdStart := none, wdElapsed := 0, blockedSince := none, hung := false }) }
  (s.cores.cores.map (·.1)).foldl (fun s k => s.coreSettle k) s

/-- Every thread of a core stopped, staging discarded (R354). A thread that issues nothing keeps its state. -/
def State.stopCore (s : State) (core : Nat) : State :=
  let s := (coreThreads core).foldl (fun s k =>
    let s := match s.thread k with
      | some t => match t.state with
        | .run | .blockedCh | .blockedEv => s.halt k .sstop .run
        | _ => s
      | none => s
    s.discardStaging k) s
  s.onCore core fun c => { c with hung := true }

/-! ## The end of a debugger stop (R356) -/

/-- A thread in DSTOP returns to the state it remembers. -/
def State.leaveDstop (s : State) (tid : Nat) : State :=
  match s.thread tid with
  | none => s
  | some t =>
    if t.state = .dstop then
      (s.onThread tid fun t => { t with state := t.remembered, remembered := .run, stepping := false }).coreSettle (tid / 8)
    else s

/-- Every thread in DSTOP is resumed. -/
def State.leaveAllDstop (s : State) : State := (s.cores.threads.map (·.1)).foldl (fun s k => s.leaveDstop k) s

end Sys2Proof.Machine
end

