-- ==== Sys2Proof/Machine/Slices.lean ====
section
/-! DEFINITION. Tenant slices (13_host_ports.md): their creation, quiescing, reset and destruction, spoof sets, and what stopping
an owner does (R376 to R383). -/

namespace Sys2Proof.Machine

/-! ## Stopping an owner (R378 R383) -/

/-- A command of nobody, for changes that answer no command. -/
def noCmd : Cmd where
  src := .jtag
  flags := 0
  tag := 0
  target := 0
  pbLen := 0
  rsv := 0
  params := []
  pb := []
  pbErr := none
  data := []

/-- 90 ms, within which an outstanding read of a reset times out (R378 R383). -/
def resetReads : Nat := 90000000

/-- The started operations of queues end without completions. -/
def State.dropOps (s : State) (qids : List Nat) : State :=
  let ops := (s.qm.ops.filter fun (_, o) => qids.contains o.qid).map (·.1)
  let s := s.onBlk fun b => { b with pieces := b.pieces.filter fun (_, p) => !ops.contains p.op }
  let s := s.onCy fun y => { y with chans := y.chans.map fun (k, x) => (k, { x with active := x.active.filter fun j => !ops.contains j.op }) }
  s.onQm fun m => { m with ops := m.ops.filter fun (_, o) => !qids.contains o.qid }

/-- A command on a ring of an owner that a test picks. -/
def State.cmdOf (s : State) (p : Owner → Bool) (c : Cmd) : Bool :=
  match c.src with
  | .ring q => (s.queue q).any (p ·.owner)
  | _ => false

/-- A command that a test picks answers nobody any more. -/
def deaden (dead : Cmd → Bool) (c : Cmd) : Cmd := if dead c then { c with src := .ring 65536 } else c

/-- Changes of a queue not yet applied, without those of commands that a test picks. -/
def Queue.dropCmds (dead : Cmd → Bool) (q : Queue) : Queue :=
  let moves := q.moveCmds.filter (!dead ·)
  { q with
    shaper := { q.shaper with pend := q.shaper.pend.filter (!dead ·.cmd) }
    disableCmds := q.disableCmds.map fun (c, n) => (deaden dead c, n)
    moveCmds := moves
    moveTo := (moves.getLast?).map fun c => cmdByte c 16
    destroyCmds := q.destroyCmds.filter (!dead ·)
    resetCmd := q.resetCmd.map (deaden dead) }

/-- Changes of a physical port not yet applied, without those of commands that a test picks. -/
def PhysPort.dropCmds (dead : Cmd → Bool) (x : PhysPort) : PhysPort :=
  { x with
    modePend := x.modePend.filter fun (_, _, c) => !dead c
    modeWait := x.modeWait.map fun (n, p, c) => (n, p, deaden dead c)
    modeOld := x.modeOld.map fun (m, n, p, c) => (m, n, p, deaden dead c)
    schedPend := x.schedPend.filter fun (_, c, _) => !dead c
    swap := x.swap.filter fun (_, c) => !dead c }

/-- The commands in progress that a test picks are dropped where their effect has not been applied; those under way go on, and
answer nobody (04 R126). -/
def State.dropCommands (s : State) (dead : Cmd → Bool) : State :=
  let s := s.onFtu fun f => { f with
    pendStep := f.pendStep.filter fun x => !x.cmd.any dead
    cfgPend := f.cfgPend.filter fun x => !x.cmd.any dead }
  let s := s.onQm fun m => { m with queues := m.queues.map fun (k, q) => (k, q.dropCmds dead) }
  let s := s.onCmd fun m => { m with
    held := m.held.filter fun (_, c) => !dead c
    quiesce := m.quiesce.filter fun (c, _, _) => !dead c }
  let s := s.onHost fun h => { h with slices := h.slices.map fun (k, x) =>
    (k, { x with
      createCmd := x.createCmd.map (deaden dead), resetCmd := x.resetCmd.map (deaden dead)
      spoofPend := x.spoofPend.filter fun (_, _, c) => !dead c }) }
  let s := s.onDamask fun d => { d with changes := d.changes.filter fun (_, _, c) => !c.any fun (c, _) => dead c }
  let s := s.onTwill fun w => { w with
    policers := w.policers.map fun (k, x) => (k, { x with pend := x.pend.filter fun (_, _, c) => !dead c })
    dgPend := w.dgPend.filter fun (_, _, _, c) => !dead c
    phys := w.phys.map (PhysPort.dropCmds dead) }
  let s := s.onKrm fun k => { k with
    conns := k.conns.map fun (i, c) =>
      (i, { c with createCmd := c.createCmd.map (deaden dead), destroyCmd := c.destroyCmd.map (deaden dead) })
    windows := k.windows.map fun (i, w) =>
      (i, { w with pend := w.pend.filter (!dead ·.cmd), waits := w.waits.map fun (n, c, a, b) => (n, deaden dead c, a, b) }) }
  let s := s.onCy fun y => { y with pend := y.pend.filter fun (_, _, _, c) => !dead c }
  let s := s.onCores fun c => { c with samplePend := c.samplePend.filter fun (_, _, _, _, c) => !dead c }
  let s := s.onBoot fun b => { b with activation := b.activation.map fun a => { a with cmd := a.cmd.map (deaden dead) } }
  let s := s.onPower fun p => { p with
    op := p.op.map fun o => { o with cmd := deaden dead o.cmd }
    capPend := p.capPend.filter fun (_, _, c) => !dead c }
  let s := s.onTrust fun t => { t with levelPend := t.levelPend.filter fun (_, c, _, _) => !dead c }
  s.onDram fun d => { d with channels := d.channels.map fun x => { x with calCmd := x.calCmd.map (deaden dead) } }

/-- Steps 1 to 3 of R378 for the owners that a test picks: queues stop, started operations end without completions, held
completions and commands not yet applied are dropped (04 R126), connections begin to close, windows close, volumes, cipher
channels, DMA channels and dumps go, and outstanding reads end within 90 ms. -/
def State.stopOwner (s : State) (p : Owner → Bool) (ref : HostRef → Bool) : State :=
  let qids := (s.qm.queues.filter fun (_, q) => p q.owner).map (·.1)
  let s := s.dropOps qids
  let s := s.dropCommands (s.cmdOf p)
  let s := s.onQm fun m => { m with queues := m.queues.map fun (k, q) =>
    (k, if p q.owner then { q.dropCached with due := [], held := [], waitDone := [] } else q) }
  let mine := s.cmdOf p
  let s := s.onCmd fun c => { c with mailbox := c.mailbox.filter fun r => match r with
    | .command _ _ w => !p w.owner
    | .region _ _ (some (x, _)) => !mine x
    | _ => true }
  let vols := s.blk.volumes.filter fun (_, v) => p v.owner
  let s := vols.foldl (fun s (k, v) => s.dropVolume k v) s
  let conns := s.krm.conns.filter fun (_, c) => p c.owner && c.state != .closing && !c.next.any (·.1 == .closing)
  let s := conns.foldl (fun s (k, _) => s.connNext k .closing) s
  let wins := s.krm.windows.filter fun (_, w) => p w.owner && w.latest.1 == .open
  let s := wins.foldl (fun s (k, w) => s.winLater k (closing s.ft w.latest.2 0 0 noCmd)) s
  let s := s.onCy fun y => { y with chans := y.chans.filter fun (_, x) => !p x.owner }
  let s := s.onDma fun d => d.filter fun (_, x) => !qids.contains x.qid
  let s := s.onCt fun c => { c with dumps := c.dumps.filter fun (_, d) => !p d.owner.owner }
  s.onHost fun h => { h with reads := (h.reads.filter fun (_, r) => !(ref r.ref && r.waiting)).map fun (k, r) =>
    (k, if ref r.ref then { r with dead := true, deadline := min r.deadline (s.time.osc + resetReads) } else r) }

/-- What is left of the owners is destroyed: connections are unbound, and queues destroyed; a quiesce that waited for one of these queues is
over (R377). -/
def State.endOwner (s : State) (p : Owner → Bool) : State :=
  let conns := s.krm.conns.filter fun (_, c) => p c.owner
  let s := conns.foldl (fun s (k, c) => s.freeConn k c) s
  let qids := (s.qm.queues.filter fun (_, q) => p q.owner).map (·.1)
  (qids.foldl (fun s k => s.destroyQueue k) s).quiesceReplies

/-- A host reference is a slice's. -/
def State.refOfSlice (s : State) (sid : Nat) (r : HostRef) : Bool :=
  match s.slice sid with
  | some x => r.fn == x.mgr && r.pasid == some x.pasid
  | none => false

/-! ## Creation (R376) -/

/-- The page of a BAR2 index is free: no slice's doorbell page and no cipher page (R371). -/
def State.pageFree (s : State) (f : FnRef) (sid : Nat) : Bool := (s.slice sid).isNone && (s.chanOfPage f sid).isNone

/-- The checks of R376. -/
def State.sliceCreateCheck (s : State) (c : Cmd) (f : FnRef) : Option Nat :=
  let w := c.target.toNat
  if 2 ^ 20 ≤ cmdLe c 16 4 then some St.badParam
  else if !s.pasidOn f then some St.badState
  else if s.host.slices.any fun (_, x) => x.mgr == f && x.pasid == cmdLe c 16 4 then some St.exist
  else if w != targetNone then (if s.pageFree f w then none else some St.exist)
  else if (List.range 16384).any (s.pageFree f) then none
  else some St.noResource

/-- A new slice: no objects, empty spoof sets, counters closed. -/
def newSlice (f : FnRef) (pasid now : Nat) (c : Cmd) : SliceSt where
  mgr := f
  pasid := pasid
  live := false
  createdAt := now
  createCmd := some c
  spoof := SpoofSets.empty
  spoofPend := none
  ctAllowed := false
  resetAt := none
  resetCmd := none
  krmOwned := []

/-- SLICE_CREATE: Buckram's. -/
def doSliceCreate (c : Cmd) (s : State) : State := s.bk 0x0302 c noDeny true false (paramCheck (cmdLe c 16 4 < 2 ^ 20))

/-- SLICE_CREATE (R376). -/
def execSliceCreate (c : Cmd) (s : State) : Res := .next (doSliceCreate c s)

/-- Buckram writes the binding; the slice exists from the next frame boundary. -/
def bkSliceCreate (c : Cmd) (who : Caller) (s : State) : State :=
  s.bkApply 0x0302 c who false true false fun s =>
    match who with
    | .fn f =>
      match s.sliceCreateCheck c f with
      | some e => (s, some (Answer.just e))
      | none =>
        let sid := if c.target.toNat = targetNone then
            (((List.range 16384).map fun k => (s.freeVal + k) % 16384).find? (s.pageFree f)).getD 0
          else c.target.toNat
        let s := s.useFree
        (s.onHost fun h => { h with slices := h.slices.set sid (newSlice f (cmdLe c 16 4) s.ft c) }, none)
    | _ => (s, some (Answer.just St.denied))

/-- The slice exists from the boundary on. -/
def doSliceBindingEffect (sid : Nat) (s : State) : State :=
  match s.slice sid with
  | none => s
  | some x =>
    match x.createCmd with
    | none => s
    | some c =>
      if s.fatal || !s.dueFrame x.createdAt then s
      else
        let s := s.onHost fun h => { h with slices := h.slices.mod sid fun x => { x with live := true, createCmd := none } }
        s.reply 0x0302 c true { Answer.ok sid with ft := some s.frameFt }

/-- SLICE_BINDING_EFFECT (R376). -/
def execSliceBindingEffect (sid : Nat) (s : State) : Res := .next (s.onDie (s.sliceDie sid) (doSliceBindingEffect sid))

/-! ## Quiescing (R377) -/

/-- Work queues taken through their course, and the reply when each is IDLE. -/
def State.quiesce (s : State) (code : Nat) (c : Cmd) (p : Owner → Bool) : State :=
  let qids := (s.qm.queues.filter fun (_, q) => q.cls != .cq && p q.owner).map (·.1)
  let s := qids.foldl (fun s k => match s.queue k with
    | some q => if q.state = .enabled then s.beginDisable k else s
    | none => s) s
  (s.onCmd fun m => { m with quiesce := m.quiesce ++ [(c, code, qids)] }).quiesceReplies

/-- SLICE_QUIESCE. -/
def doSliceQuiesce (c : Cmd) (s : State) : State :=
  s.sf 0x0303 c noDeny true true fun _ s => (s.quiesce 0x0303 c fun o => o.sid == some c.target.toNat, none)

/-- SLICE_QUIESCE (R377). -/
def execSliceQuiesce (c : Cmd) (s : State) : Res := .next (doSliceQuiesce c s)

/-- VF_QUIESCE: the VF's own work queues drain, its slices' discard. A TARGET that is no VF is not of its form. -/
def doVfQuiesce (c : Cmd) (s : State) : State :=
  s.sf 0x0306 c noDeny true true
    (fun _ s => (s.quiesce 0x0306 c fun o => o.fnRef == some (fnOfWord c.target.toNat), none)) (fnOfWord c.target.toNat).vf

/-- VF_QUIESCE (R377). -/
def execVfQuiesce (c : Cmd) (s : State) : Res := .next (doVfQuiesce c s)

/-! ## Reset and destruction (R378 R379) -/

/-- The entries of a set. -/
def SpoofSets.entries (x : SpoofSets) : Nat := x.macs.length + x.vlans.length + x.v4.length + x.v6.length

/-- Service firmware's part of a SLICE_RESET: a reset under way is not begun again (log 34). -/
def State.sliceResetPart (s : State) (sid : Nat) : State × Option Nat :=
  match s.slice sid with
  | none => (s, some St.notFound)
  | some x =>
    if x.resetAt.isSome then (s, some St.badState)
    else
      let ref := s.refOfSlice sid
      let s := s.onHost fun h => { h with slices := h.slices.mod sid fun x => { x with resetAt := some s.time.osc } }
      ((s.unquiesced fun o => o.sid == some sid).stopOwner (fun o => o.sid == some sid) ref, none)

/-- SLICE_RESET: it acts from its acceptance by service firmware. -/
def doSliceReset (c : Cmd) (s : State) : State :=
  s.bkPart 0x0304 c noDeny true true fun _ s => s.sliceResetPart c.target.toNat

/-- SLICE_RESET (R378). -/
def execSliceReset (c : Cmd) (s : State) : Res := .next (doSliceReset c s)

/-- Service firmware's part of a SLICE_RESET that Buckram refuses is undone: the slice is no longer under reset (04 R121). Buckram makes the
same checks of the same bytes, so that it refuses only where the slice is gone, and nothing is left to bring back, or where the
lifecycle forbids every command, and the device is reset (log 34). -/
def State.sliceResetUndo (s : State) (sid : Nat) : State :=
  s.onHost fun h => { h with slices := h.slices.mod sid fun x => if x.resetCmd.isNone then { x with resetAt := none } else x }

/-- Buckram takes the reset over, and begins it where service firmware did not (R127): it replies when the slice's reads have
ended. -/
def bkSliceReset (c : Cmd) (who : Caller) (s : State) : State :=
  if (s.precheck 0x0304 c who true false true true).isSome then
    (s.sliceResetUndo c.target.toNat).bkApply 0x0304 c who false true true fun s => (s, none)
  else s.bkApply 0x0304 c who false true true fun s =>
    let sid := c.target.toNat
    let taken : Bool := match s.slice sid with
      | some x => x.resetAt.isSome && x.resetCmd.isNone
      | none => false
    match (if taken then (s, none) else s.sliceResetPart sid) with
    | (s, some e) => (s, some (Answer.just e))
    | (s, none) => (s.onHost fun h => { h with slices := h.slices.mod sid fun x => { x with resetCmd := some c } }, none)

/-- Every read of the slice has ended: its queues are destroyed, and the reply is written. -/
def doSliceResetComplete (sid : Nat) (s : State) : State :=
  match s.slice sid with
  | none => s
  | some x =>
    match x.resetCmd with
    | none => s
    | some c =>
      if s.fatal || s.host.reads.any (fun (_, r) => s.refOfSlice sid r.ref) then s
      else
        let s := s.endOwner fun o => o.sid == some sid
        let s := s.onHost fun h => { h with slices := h.slices.mod sid fun x => { x with resetAt := none, resetCmd := none } }
        s.reply 0x0304 c true Answer.ok

/-- SLICE_RESET_COMPLETE (R378). -/
def execSliceResetComplete (sid : Nat) (s : State) : Res := .next (doSliceResetComplete sid s)

/-- The slice owns an object. -/
def State.sliceOwns (s : State) (sid : Nat) : Bool :=
  let p := fun (o : Owner) => o.sid == some sid
  s.qm.queues.any (fun (_, q) => p q.owner) || s.krm.conns.any (fun (_, c) => p c.owner)
    || s.krm.windows.any (fun (_, w) => p w.owner && (w.state == .open || w.latest.1 == .open))
    || s.cy.chans.any (fun (_, x) => p x.owner) || s.blk.volumes.any (fun (_, v) => p v.owner)

/-- The binding, the spoof sets, the page and the counters of a slice go; the SID is free. -/
def State.freeSlice (s : State) (sid : Nat) : State :=
  (s.onHost fun h => { h with slices := h.slices.del sid }).dropCounters Ct.slice sid

/-- SLICE_DESTROY: Buckram's. -/
def doSliceDestroy (c : Cmd) (s : State) : State := s.bk 0x0305 c noDeny true true

/-- SLICE_DESTROY (R379). -/
def execSliceDestroy (c : Cmd) (s : State) : Res := .next (doSliceDestroy c s)

/-- Sets that await their boundary are answered before the slice goes (04 R125). -/
def bkSliceDestroy (c : Cmd) (who : Caller) (s : State) : State :=
  s.bkApply 0x0305 c who false true true fun s =>
    let sid := c.target.toNat
    match s.slice sid with
    | none => (s, some (Answer.just St.notFound))
    | some x =>
      if s.sliceOwns sid || x.resetAt.isSome then (s, some (Answer.just St.badState))
      else
        let s := match x.spoofPend with
          | some (y, _, k) => s.reply 0x0307 k true (Answer.ok y.entries)
          | none => s
        (s.freeSlice sid, some Answer.ok)

/-! ## Spoof sets (R380 R382) -/

/-- PB_LEN agrees with the counts of the header. -/
def spoofLenOk (c : Cmd) : Bool :=
  c.pbErr.isSome || (16 ≤ c.pbLen && (List.range 4).all (fun i => byteAt c.pb i ≤ 16)
    && c.pbLen == 16 + 8 * byteAt c.pb 0 + 2 * byteAt c.pb 1 + 8 * byteAt c.pb 2 + 20 * byteAt c.pb 3)

/-- The sets of a parameter block. -/
def spoofOf (b : Bytes) : SpoofSets :=
  let o1 := 16 + 8 * byteAt b 0
  let o2 := o1 + 2 * byteAt b 1
  let o3 := o2 + 8 * byteAt b 2
  { macs := (List.range (byteAt b 0)).map fun i => be b (16 + 8 * i) 6
    vlans := (List.range (byteAt b 1)).map fun i => le b (o1 + 2 * i) 2
    v4 := (List.range (byteAt b 2)).map fun i => (be b (o2 + 8 * i) 4, byteAt b (o2 + 8 * i + 4))
    v6 := (List.range (byteAt b 3)).map fun i => (be b (o3 + 20 * i) 16, byteAt b (o3 + 20 * i + 16))
    anyMac := bit (byteAt b 4) 0, anyVlan := bit (byteAt b 4) 1, anyIp := bit (byteAt b 4) 2, krm := bit (byteAt b 4) 3 }

/-- Reserved bits and bytes are 0, and every value lies in its range. -/
def spoofOk (b : Bytes) : Bool :=
  let x := spoofOf b
  let o2 := 16 + 8 * byteAt b 0 + 2 * byteAt b 1
  let o3 := o2 + 8 * byteAt b 2
  byteAt b 4 < 16 && allZero b 5 11
    && (List.range (byteAt b 0)).all (fun i => allZero b (16 + 8 * i + 6) 2)
    && x.vlans.all (fun v => v < 4095)
    && x.v4.all (fun (_, p) => p ≤ 32) && (List.range (byteAt b 2)).all (fun i => allZero b (o2 + 8 * i + 5) 3)
    && x.v6.all (fun (_, p) => p ≤ 128) && (List.range (byteAt b 3)).all (fun i => allZero b (o3 + 20 * i + 17) 3)

/-- The bytes of a set, in the layout of R380. -/
def SpoofSets.bytes (x : SpoofSets) : Bytes :=
  [byte x.macs.length, byte x.vlans.length, byte x.v4.length, byte x.v6.length,
   byte (b2n x.anyMac + 2 * b2n x.anyVlan + 4 * b2n x.anyIp + 8 * b2n x.krm)] ++ zeros 11
    ++ (x.macs.map fun m => toBe 6 m ++ zeros 2).flatten ++ (x.vlans.map fun v => toLe 2 v).flatten
    ++ (x.v4.map fun (a, p) => toBe 4 a ++ [byte p] ++ zeros 3).flatten
    ++ (x.v6.map fun (a, p) => toBe 16 a ++ [byte p] ++ zeros 3).flatten

/-- The spoof entries that a host die holds for other slices. -/
def State.spoofUse (s : State) (port sid : Nat) : Nat :=
  ((s.host.slices.filter fun (k, x) => x.mgr.port == port && k != sid).map fun (_, x) => match x.spoofPend with
    | some (y, _, _) => max x.spoof.entries y.entries
    | none => x.spoof.entries).sum

/-- SPOOF_SET: Buckram's. -/
def doSpoofSet (c : Cmd) (s : State) : State := s.bk 0x0307 c noDeny (spoofLenOk c) true (paramCheck (spoofOk c.pb))

/-- SPOOF_SET (R380). -/
def execSpoofSet (c : Cmd) (s : State) : Res := .next (doSpoofSet c s)

/-- Buckram gives the host die the new sets, which are in force from a frame boundary on. Sets that still await theirs are
answered and replaced. -/
def bkSpoofSet (c : Cmd) (who : Caller) (s : State) : State :=
  s.bkApply 0x0307 c who false (spoofLenOk c) true fun s =>
    let sid := c.target.toNat
    match s.slice sid with
    | none => (s, some (Answer.just St.notFound))
    | some x =>
      let n := spoofOf c.pb
      if !spoofOk c.pb then (s, some (Answer.just St.badParam))
      else if 131072 < s.spoofUse x.mgr.port sid + n.entries then (s, some (Answer.just St.noResource))
      else
        let s := match x.spoofPend with
          | some (y, _, k) => s.reply 0x0307 k true (Answer.ok y.entries)
          | none => s
        (s.onHost fun h => { h with slices := h.slices.mod sid fun x => { x with spoofPend := some (n, s.ft, c) } }, none)

/-- New sets are in force. -/
def doSpoofSetEffect (sid : Nat) (s : State) : State :=
  match s.slice sid with
  | none => s
  | some x =>
    match x.spoofPend with
    | none => s
    | some (y, t, c) =>
      if s.fatal || !s.dueFrame t then s
      else
        let s := s.onHost fun h => { h with slices := h.slices.mod sid fun x => { x with spoof := y, spoofPend := none } }
        s.reply 0x0307 c true { Answer.ok y.entries with ft := some s.frameFt }

/-- SPOOF_SET_EFFECT (R382). -/
def execSpoofSetEffect (sid : Nat) (s : State) : Res := .next (s.onDie (s.sliceDie sid) (doSpoofSetEffect sid))

/-- SPOOF_QUERY. -/
def doSpoofQuery (c : Cmd) (s : State) : State :=
  s.sf 0x0308 c noDeny true true fun _ s =>
    match s.slice c.target.toNat with
    | none => (s, some (Answer.just St.notFound))
    | some x => (s, some { Answer.ok with data := x.spoof.bytes })

/-- SPOOF_QUERY (R380). -/
def execSpoofQuery (c : Cmd) (s : State) : Res := .next (doSpoofQuery c s)

/-! ## Functions (04 R131) -/

/-- FN_QUERY: VF count, slices and queues, in a layout that the spec does not give (log 13). -/
def doFnQuery (c : Cmd) (s : State) : State :=
  s.sf 0x0301 c noDeny true true fun _ s =>
    let f := fnOfWord c.target.toNat
    let vfs := match s.fn f with
      | some x => if x.vfEnable then x.numVfs else 0
      | none => 0
    let slices := (s.host.slices.filter fun (_, x) => x.mgr == f && x.live).length
    let queues := (s.qm.queues.filter fun (_, q) => q.owner.fnRef == some f).length
    (s, some { Answer.ok with data := Config.layout 0x0301 [vfs, slices, queues] })

/-- FN_QUERY (04 R131). -/
def execFnQuery (c : Cmd) (s : State) : Res := .next (doFnQuery c s)

end Sys2Proof.Machine
end

