-- ==== Sys2Proof/Machine/Entries.lean ====
section
/-! DEFINITION. The checks of an entry at the head of its queue (03 R102), and the ends of host reads: completions, timeouts and
the errors of a host link (13 R373 R375 R390). -/

namespace Sys2Proof.Machine

/-! ## Class checks (R102 order 5) -/

/-- The checks of a PKT_TX entry (07 R202). -/
def State.txCheck (s : State) (q : Queue) (e : Bytes) : Option Nat :=
  if (launchOf e).any fun t => s.ft + 4000000000 < t then some St.badParam
  else (s.destFault q.shaper.dest).map (·.2)

/-- A slice's connection passes the spoof sets in force: KRM is 1, and its LOCAL_IP lies in the IPv4 or IPv6 set, for which ANY_IP does not
stand in (13 R381). -/
def State.krmSpoofOk (s : State) (o : Owner) (c : Conn) : Bool :=
  match o.sid with
  | none => true
  | some i => match s.slice i with
    | some x => x.spoof.krm && if c.v6 then x.spoof.allows6 c.localIp else x.spoof.allows4 (c.localIp % 2 ^ 32)
    | none => false

/-- The checks of a KRM_SQ entry with `n` bytes (08 R258 R233, 09 R270). A refused connection is a spoof. -/
def State.krmEntryCheck (s : State) (o : Owner) (e : Bytes) (n : Nat) : State × Option Nat :=
  let kfl := le e 12 4
  if 2 ≤ kfl || (bit kfl 0 && entryOp e != 1) then (s, some St.badFlags)
  else if 16777216 < n || (entryOp e != 3 && n == 0) then (s, some St.badLength)
  else match s.conn (krmCid e) with
    | none => (s.spoofFailed o 1, some St.denied)
    | some c =>
      if c.owner != o || !s.krmSpoofOk o c then (s.spoofFailed o 1, some St.denied)
      else if c.state != .open || c.claims != 0 then (s, some St.badState)
      else (s, none)

/-- The class checks of an entry that is no NOP, with its fragments. -/
def State.headClass (s : State) (qid : Nat) (q : Queue) (e : Bytes) (l : List Frag) : State × Option Nat :=
  match q.cls with
  | .pktTx => (s, s.txCheck q e)
  | .krmSq => s.krmEntryCheck q.owner e (fragTotal l)
  | .blkSq => (s, s.blkEntryCheck qid q.owner e (fragTotal l))
  | .cryJq => (s, s.cryCheck qid e (fragTotal l))
  | .dmaCh => (s, dmaCheck e (q.owner == .firmware))
  | _ => (s, none)

/-- Bytes 12 to 15 of the completion of an entry that ends at the head, as its class has them (08 R258, 09 R275, 10 R312, 11 R327). -/
def State.headC12 (s : State) (qid : Nat) (q : Queue) (e : Bytes) : Nat :=
  match q.cls with
  | .krmSq => krmCid e
  | .blkSq => blkC12 e
  | .cryJq => ((s.chanOfQueue qid).map (·.1)).getD 0
  | .dmaCh => ((s.dmaKey qid q).map fun k => k % 256 + k / 256 * 256).getD 0
  | _ => 0

/-! ## The head of a queue (R102 R103) -/

/-- The reserved bytes of an entry that no check covers are 0, with those of its fragment slot (R69 R74 R75 R80 R81 R258 R259, 09
R273, 11 R318). -/
def entryReservedZero (c : QClass) (e : Bytes) : Bool :=
  let z := allZero e
  z 3 1 && (c == .dmaCh || (if entryIndirect e || entryFragCount e == 1 then fragFlOk e 48 else z 48 16)) &&
    match c with
    | .pktTx => z 14 2 && z 24 24 && le e 8 4 < 16
    | .pktRx | .krmRq => z 8 40
    | .krmSq => z 32 16 && le e 8 4 < 2 ^ 20
    | .blkSq => z 9 3 && z 14 2 && z 28 20 && byteAt e 8 < 64 && le e 12 2 < 2 ^ 14
    | .cryJq => (cryAlg e == 4 || byteAt e 9 < 8) && fragFlOk e 32
    | .dmaCh => z 11 5
    | _ => true

/-- The checks after the slot: fragments, length, class. An entry that fails ends; one that passes waits for its gates. A nonzero
reserved byte that is not checked is a host error (R102): whether the entry runs all the same is free (log 4). -/
def State.headFinish (s : State) (qid : Nat) (q : Queue) (e : Bytes) : State :=
  let l := entryFrags q.cls e q.headFrags
  match headCheckFrags q.cls (q.owner == .firmware) e l with
  | some st => s.endHead qid st (s.headC12 qid q e) e
  | none =>
    match (if entryOp e = 0 then (s, none) else s.headClass qid q e l) with
    | (s, some st) => s.endHead qid st (s.headC12 qid q e) e
    | (s, none) =>
      if entryOp e ≠ 0 ∧ entryReservedZero q.cls e = false ∧ s.freeVal % 2 = 1 then s.useFree.queueHostError qid
      else s.onQueue qid fun q => { q with headOk := true }

/-- The fragment table of the head is read: from a device address at once, or from the host. -/
def State.headTable (s : State) (qid : Nat) (q : Queue) (e : Bytes) : State :=
  let d := fragAt e 48
  let fail := fun (s : State) st => s.endHead qid st (s.headC12 qid q e) e
  if d.dev then
    match s.devRead .engine d.addr d.len with
    | .data b =>
      let l := fragTable b (tableCount e)
      ((s.meet 2 d.addr d.len).onQueue qid fun q => { q with headFrags := some l }).headFinish qid { q with headFrags := some l } e
    | .poisoned => fail (s.meet 2 d.addr d.len) (s.badStatus d.addr d.len)
    | .fault => fail s St.hostReadErr
  else match s.hostRead q.owner d.addr d.len (.fragTable qid q.c) with
    | (s, some _) => s.onQueue qid fun q => { q with headReading := true }
    | (s, none) => fail s St.hostReadErr

/-- The packet of a command ring's entry (04 R110). -/
def entryCmd (qid : Nat) (e : Bytes) : Cmd :=
  { src := .ring qid, flags := BitVec.ofNat 16 (le e 2 2), tag := BitVec.ofNat 32 (le e 4 4), target := BitVec.ofNat 32 (le e 8 4)
    pbLen := le e 12 2, rsv := BitVec.ofNat 16 (le e 14 2), params := sliceZ e 16 48, pb := [], pbErr := none, data := [] }

/-- The head entry of a command ring: an OPCODE that is not defined ends with S_BAD_OP, check 1 of 04 R127; the checks of the others are
made by the command itself. -/
def State.headCommand (s : State) (qid : Nat) (e : Bytes) : State :=
  let code := le e 0 2
  if (opInfo code).isNone then s.sf code (entryCmd qid e) noDeny true false fun _ s => (s, none)
  else s.onQueue qid fun q => { q with headOk := true }

/-- The head of a queue is checked, where the queue runs and nothing holds it. A failed head ends, and so does one under
BLK_QUEUE_RESET. -/
def State.checkHead (s : State) (qid : Nat) : State :=
  match s.queue qid with
  | none => s
  | some q =>
    if s.fatal || s.blocked q || s.ownerHeld q.owner || s.ownerResetting q.owner || !s.dmaTakes qid q || 65536 ≤ s.opsOnTile q.home then s
    else if q.resetAt.isSome then (s.resetConsume qid 65536).endFailed qid 64
    else if !(q.state == .enabled || q.state == .draining) || q.headOk || q.headReading then s
    else if q.failed.has q.c then s.endFailed qid 64
    else match q.cache.get q.c with
      | none => s
      | some e =>
        if q.cls == .cmdSq then s.headCommand qid e
        else match headCheckSlot q.cls (q.owner == .firmware) e with
          | some st => s.endHead qid st (s.headC12 qid q e) e
          | none => match q.headEnd with
            | some st => s.endHead qid st (s.headC12 qid q e) e
            | none => if usesTable q.cls e && q.headFrags.isNone then s.headTable qid q e else s.headFinish qid q e

/-- The queue manager turns to a queue: its tile fetches on, in rotation, as C has advanced and room has come free (R99 R103), and the
head is checked. -/
def State.headCheck (s : State) (qid : Nat) : State :=
  match s.queue qid with
  | none => s
  | some q => (if s.fatal then s else s.fetchRound q.home).checkHead qid

/-- ENTRY_HEAD_CHECK (R102). -/
def execEntryHeadCheck (qid : Nat) (s : State) : Res := .next (s.headCheck qid)

/-! ## NOP (R70) -/

/-- A NOP at the head completes with S_OK and BYTES 0. Where the shaper gates the start of an entry it gates a NOP's, and charges 0; in a
PKT_RX or KRM_RQ queue it gates the delivery alone (07 R197 R200). -/
def doNop (qid : Nat) (s : State) : State :=
  match s.readyHead qid with
  | some (q, e) =>
    if entryOp e ≠ 0 ∨ q.cls = .cmdSq then s
    else if q.cls == .pktRx || q.cls == .krmRq then s.endHead qid St.ok (s.headC12 qid q e) e
    else match s.shaperGo qid 0 with
      | (s, false) => s
      | (s, true) => s.endHead qid St.ok (s.headC12 qid q e) e
  | none => s

/-- NOP (R70). -/
def execNop (qid : Nat) (s : State) : Res := .next (doNop qid s)

/-! ## The ends of host reads (13 R373 R375) -/

/-- A read of the head's fragment table ends. Where it failed the entry ends as soon as it may start (R103 R105 R109). -/
def State.tableArrive (s : State) (qid idx : Nat) (how : ReadEnd) : State :=
  match s.queue qid with
  | none => s
  | some q =>
    if q.c != idx || !q.headReading then s
    else match q.cache.get q.c with
      | none => s
      | some e =>
        let s := s.onQueue qid fun q => { q with headReading := false }
        match how with
        | .data b => (s.onQueue qid fun q => { q with headFrags := some (fragTable b (tableCount e)) }).headCheck qid
        | x => (s.onQueue qid fun q => { q with headEnd := some (readStatus x) }).checkHead qid

/-- A read of an operation's data ends, for the engine of its class. -/
def State.dataArrive (s : State) (n off : Nat) (how : ReadEnd) : State :=
  match s.op n with
  | none => s
  | some o =>
    match s.queue o.qid with
    | none => s
    | some q => match q.cls with
      | .pktTx => ((s.firstByte n off).opArrive n off how).txGo o.qid
      | .krmSq => (s.opArrive n off how).krmGo (krmCid o.entry)
      | .blkSq => s.blkArrive n off how
      | .cryJq => s.cryArrive n off how
      | _ => s.opArrive n off how

/-- How a read ends, with the bytes asked for. -/
def HostReadSt.ended (r : HostReadSt) : ReadEnd → ReadEnd
  | .data b => .data (sliceZ b 0 r.len)
  | x => x

/-- An outstanding read ends: its tag is free, and its data or its failure goes to what it was for. -/
def State.deliverRead (s : State) (tag : Nat) (r : HostReadSt) (how : ReadEnd) : State :=
  let s := s.dropRead tag
  if r.dead || s.fatal then s
  else match r.why with
    | .entries qid idx n => match how with
      | .data b => s.entriesArrive qid idx n b
      | x => s.entriesFail qid idx n (readStatus x)
    | .fragTable qid idx => s.tableArrive qid idx how
    | .opData n off => s.dataArrive n off how
    | .beat tile chan beat => s.beatArrive tile chan beat how
    | .serve cid psn => s.serveDone cid psn how

/-- A completion of an outstanding read arrives; poisoned data is logged in the requesting function (R390). A timeout has its
own row. A completion that arrives after its read's timeout is an Unexpected Completion, logged and discarded (R375). -/
def doHostReadCompletion (tag : Nat) (how : ReadEnd) (s : State) : State :=
  match s.readOut tag with
  | none => match s.host.timedOut.get tag with
    | some f => (s.onHost fun h => { h with timedOut := h.timedOut.del tag }).logAer f .unexpectedCompletion
    | none => s
  | some r =>
    match how with
    | .timeout => s
    | x =>
      let s := if x = .poisoned then s.logAer r.ref.fn .poisonedTlp else s
      s.deliverRead tag r (r.ended x)

/-- HOST_READ_COMPLETION (13 R373). -/
def execHostReadCompletion (tag : Nat) (how : ReadEnd) (s : State) : Res := .next (doHostReadCompletion tag how s)

/-- A read whose time is up: Completion Timeout is logged in its function, and its access ends (R375). -/
def doCompletionTimeout (tag : Nat) (s : State) : State :=
  match s.readOut tag with
  | none => s
  | some r =>
    if s.time.osc < r.deadline then s
    else
      let s := (s.logAer r.ref.fn .completionTimeout).count Ct.hostPort r.ref.fn.port 2
      (s.onHost fun h => { h with timedOut := h.timedOut.set tag r.ref.fn }).deliverRead tag r .timeout

/-- COMPLETION_TIMEOUT (13 R375). -/
def execCompletionTimeout (tag : Nat) (s : State) : Res := .next (doCompletionTimeout tag s)

end Sys2Proof.Machine
end

