-- ==== Sys2Proof/Machine/HostPorts.lean ====
section
/-! DEFINITION. Host ports and functions (13_host_ports.md): profiles, function-level and port resets, bus mastering, D3hot,
the command ring of a function, MSI-X, link power and errors. -/

namespace Sys2Proof.Machine

/-! ## Profiles (R363 R366) -/

/-- The default profile. -/
def defaultProfile : List PfRecord :=
  List.replicate 8 { present := true, sriov := true, totalVfs := 128, pfVec := 512, vfVec := 8 }

/-- The recovery profile for a number of sub-links. -/
def recoveryProfile (m : Nat) : List PfRecord :=
  (List.range 8).map fun k => { present := k * m % 8 == 0, sriov := false, totalVfs := 0, pfVec := 64, vfVec := 1 }

/-- The profile that 64 bytes of a manifest carry. -/
def profileOf (b : Bytes) : List PfRecord :=
  (List.range 8).map fun k => { present := bit (byteAt b (8 * k)) 0, sriov := bit (byteAt b (8 * k)) 1, totalVfs := le b (8 * k + 2) 2
                                pfVec := le b (8 * k + 4) 2, vfVec := le b (8 * k + 6) 2 }

/-- The fields of a present record lie in their ranges. -/
def PfRecord.ok (r : PfRecord) : Bool :=
  !r.present || (r.totalVfs ≤ 1024 && (r.sriov || r.totalVfs == 0) && 1 ≤ r.pfVec && r.pfVec ≤ 2048 && 1 ≤ r.vfVec && r.vfVec ≤ 2048)

/-- The records of a sub-link. -/
def subRecords (m sub : Nat) (l : List PfRecord) : List PfRecord := (l.drop (8 * sub / m)).take (8 / m)

/-- The rules of R363 for a sub-link: its first PF is present, its present PFs are consecutive, and the sums hold. -/
def subProfileOk (m : Nat) (l : List PfRecord) : Bool :=
  let p := l.filter (·.present)
  (l.head?.map (·.present)).getD false && (l.take p.length).all (·.present)
    && (p.map (·.totalVfs)).sum ≤ 1024 / m && (p.map fun r => r.pfVec + r.totalVfs * r.vfVec).sum ≤ 16384 / m

/-- A profile meets R363. -/
def profileOk (m : Nat) (l : List PfRecord) : Bool :=
  l.length == 8 && l.all PfRecord.ok && (List.range m).all fun s => subProfileOk m (subRecords m s l)

/-- A profile comes into force: its PFs exist, at their reset values. -/
def State.forceProfile (s : State) (port : Nat) (l : List PfRecord) (rec' : Bool) : State :=
  let s := s.onHostPort port fun p => { p with profile := some l, recovery := rec' }
  s.onHost fun h => { h with fns := h.fns.filter (·.ref.port != port) ++
    ((List.range 8).filter fun k => (l[k]?.map (·.present)).getD false).map fun k => FnSt.reset (pfRef port k) }

/-- A verified profile comes into force, or the recovery profile where it breaks R363. -/
def State.installProfile (s : State) (port : Nat) (l : List PfRecord) : State :=
  let m := s.subLinks port
  if profileOk m l then s.forceProfile port l false else s.forceProfile port (recoveryProfile m) true

/-- A Configuration Request finds the function not ready, since it is in reset, or its port has no profile in force yet: it is answered with
Request Retry Status (R366 R383). -/
def State.configRetry (s : State) (f : FnRef) : State :=
  let p := s.hostPort f.port
  if (s.fn f).any (·.flrAt.isSome) || (p.profile.isNone && p.deassertedAt.isSome && !p.perst) then s.emit (.retryStatus f) else s

/-- Configuration writes reach a function: it exists, and is not in reset. -/
def State.configurable (s : State) (f : FnRef) : Bool :=
  match s.fn f with
  | some x => s.fnPresent f && x.flrAt.isNone
  | none => false

/-! ## Control page (R369) -/

/-- FN_ID. -/
def fnIdWord (f : FnRef) : Nat := Config.stepping * 2 ^ 24 + fnWord f

/-- A completion of the function is held for bus mastering. -/
def State.bmeHeld (s : State) (f : FnRef) : Bool :=
  !s.mastering f && s.qm.queues.any fun (_, q) => q.cls == .cq && q.owner.fnRef == some f && !q.held.isEmpty

/-- FN_STATUS. -/
def State.fnStatus (s : State) (f : FnRef) : Nat :=
  match s.fn f with
  | none => 0
  | some x => 2 * b2n x.cmdErr + 4 * b2n x.cmdActive + 8 * b2n s.cmd.paused + 16 * b2n s.cmd.sfReady + 32 * b2n s.fatal
      + 64 * b2n (s.bmeHeld f) + 128 * b2n (s.hostPort f.port).recovery

/-- A register of the control page as a read of its own width returns it; offsets not listed read 0. The reserved low bits of a base
read 0, and a base written with them set still counts as misaligned (00 R12, R370). -/
def State.controlRead (s : State) (f : FnRef) (off : Nat) : Nat :=
  match s.fn f with
  | none => 0
  | some x =>
    match off with
    | 0x000 => fnIdWord f
    | 0x004 => s.fnStatus f
    | 0x008 => b2n x.cmdEn
    | 0x010 => x.sqBase.toNat / 4096 * 4096
    | 0x018 => x.cqBase.toNat / 4096 * 4096
    | 0x020 => x.wbBase.toNat / 32 * 32
    | 0x028 => x.cmdCfg.toNat &&& 0x07FF00FF
    | 0x02C => if x.cmdActive then x.cqQid * 65536 + x.sqQid else 0xFFFFFFFF
    | 0x030 => (s.dieClock (6 + f.port)).1
    | 0x038 => (s.dieClock (6 + f.port)).1 % 2 ^ 48 * 65536 + (s.dieClock (6 + f.port)).2
    | 0x040 => s.counter Ct.func (fnWord f) 0 % 2 ^ 48
    | 0x048 => s.counter Ct.func (fnWord f) 1 % 2 ^ 48
    | 0x050 => s.counter Ct.func (fnWord f) 2 % 2 ^ 48
    | 0x058 => s.counter Ct.func (fnWord f) 3 % 2 ^ 48
    | _ => 0

/-- A 32-bit read of the control page: a 32-bit register, or a word of a 64-bit one. -/
def State.controlRead32 (s : State) (f : FnRef) (off : Nat) : Nat :=
  if off < 0x010 ∨ off = 0x028 ∨ off = 0x02C then s.controlRead f off
  else if off % 8 = 4 then s.controlRead f (off - 4) / 2 ^ 32 else s.controlRead f off % 2 ^ 32

/-! ## MSI-X table and PBA (R367 R372) -/

/-- A 32-bit word of BAR4: the table from 0, the pending bits from 0x8000; bits and entries at or above the Table Size read 0. A
vector comes up masked. -/
def State.msixRead (s : State) (f : FnRef) (off : Nat) : Nat :=
  match s.fn f with
  | none => 0
  | some x =>
    if off < 0x8000 then
      if off / 16 < s.tableSize f then
        if off % 16 / 4 = 3 then (Tab.get x.vecEntries (off / 4)).getD 1 % 2 else (Tab.get x.vecEntries (off / 4)).getD 0
      else 0
    else ((List.range 32).map fun i =>
      let v := (off - 0x8000) / 4 * 32 + i
      if v < s.tableSize f ∧ x.vecPending.contains v then 2 ^ i else 0).sum

/-! ## MSI-X (R372, 18 R496) -/

/-- A vector of a function is masked. -/
def FnSt.vecMasked (x : FnSt) (v : Nat) : Bool := x.msixMask || (Tab.get x.vecEntries (4 * v + 3)).getD 1 % 2 == 1

/-- The message of a vector: a write of the data of its entry to the address there (R372). -/
def FnSt.vecMessage (x : FnSt) (f : FnRef) (v : Nat) : Out :=
  let w := fun i => (Tab.get x.vecEntries (4 * v + i)).getD 0
  .msix f v (w 0 + 2 ^ 32 * w 1) (w 2)

/-- A function sends the message of a vector now, or its pending bit is set. -/
def State.sendVector (s : State) (f : FnRef) (v : Nat) : State :=
  match s.fn f with
  | none => s
  | some x =>
    if !s.fnPresent f || x.flrAt.isSome || s.tableSize f ≤ v then s
    else if x.msixEnable && s.mastering f && !x.vecMasked v then
      let s := s.onFn f fun x => { x with vecPending := x.vecPending.erase v }
      ((s.leaveL1 f).emit (x.vecMessage f v)).count Ct.hostPort f.port 3
    else s.onFn f fun x => { x with vecPending := if x.vecPending.contains v then x.vecPending else x.vecPending ++ [v] }

/-- The pending vectors of a function that may be sent are sent. -/
def State.flushVectors (s : State) (f : FnRef) : State :=
  match s.fn f with
  | none => s
  | some x =>
    if x.msixEnable && s.mastering f then (x.vecPending.filter fun v => !x.vecMasked v).foldl (fun s v => s.sendVector f v) s else s

/-- A requested vector sends its message at its 256 ns instant. -/
def doMsixSend (f : FnRef) (v : Nat) (s : State) : State :=
  match s.host.msixReq.find? fun (g, w, t) => g == f && w == v && s.dueAt t (s.onGrid 256 0) with
  | none => s
  | some (_, _, t) =>
    if s.fatal then s
    else
      let s := s.onHost fun h => { h with msixReq := h.msixReq.filter fun (g, w, u) => g != f || w != v || u != t }
      (s.onFn f fun x => { x with vecSent := Tab.set x.vecSent v t }).sendVector f v

/-- MSIX_SEND (18 R496). -/
def execMsixSend (fn : FnRef) (vector : Nat) (s : State) : Res := .next (s.onDie (6 + fn.port) (doMsixSend fn vector))

/-! ## The command ring of a function (R370) -/

/-- The n-th free QID from a free value on. -/
def State.freeQids (s : State) : Option (Nat × Nat) :=
  match chooseFree s.freeVal 65536 s.qm.queues.length s.qm.queues.has with
  | none => none
  | some a => (chooseFree s.freeVal 65536 (s.qm.queues.length + 1) fun k => k == a || s.qm.queues.has k).map fun b => (a, b)

/-- CMD_EN is refused. -/
def State.cmdEnBad (s : State) (f : FnRef) (x : FnSt) : Bool :=
  let cfg := x.cmdCfg.toNat
  x.sqBase.toNat % 4096 != 0 || x.cqBase.toNat % 4096 != 0 || x.wbBase.toNat % 32 != 0 || decide (field cfg 0 4 < 4)
    || decide (field cfg 4 4 < 4) || decide (s.tableSize f ≤ field cfg 16 11) || s.freeQids.isNone || x.cmdActive

/-- A command ring and its CQ are created and enabled at index 0, on home tiles of the device's choice. -/
def State.cmdOpen (s : State) (f : FnRef) : State :=
  match s.fn f, s.freeQids with
  | some x, some (sq, cq) =>
    let cfg := x.cmdCfg.toNat
    let l := (List.range 4).filter s.homeOk
    let h1 := l.getD (Config.freeNat (s.free + 1) % max 1 l.length) 0
    let h2 := l.getD (Config.freeNat (s.free + 2) % max 1 l.length) 0
    let s := s.onFree (· + 3)
    let wb := x.wbBase.toNat
    let a := newQueue .cmdSq (field cfg 0 4) x.sqBase.toNat (.function f) 0 h1 cq wb (field cfg 16 11) false s.ft
    let b := newQueue .cq (field cfg 4 4) x.cqBase.toNat (.function f) 0 h2 0 (wb + 16) (field cfg 16 11) false s.ft
    let s := (s.addQueue cq { b with command := true }).addQueue sq { a with command := true }
    let s := (s.enableQueue cq 0).enableQueue sq 0
    s.onFn f fun x => { x with cmdActive := true, sqQid := sq, cqQid := cq }
  | _, _ => s

/-- Commands are taken from functions: service firmware is ready, or a boot push over HP0 is open to this function, the
first PF of sub-link 0 (15 R416 R431). -/
def State.takesCommands (s : State) (f : FnRef) : Bool :=
  s.cmd.sfReady || match s.boot.stage with
    | .push 2 _ _ => f.port == 0 && !f.vf && f.num == 0
    | .recovery _ => !s.boot.refused && f.port == 0 && !f.vf && f.num == 0
    | _ => false

/-- The command rings that wait for SF_READY, or for a boot push, are created. -/
def State.openWaiting (s : State) : State :=
  let l := s.host.fns.filter fun x => x.cmdEn && !x.cmdActive && x.flrAt.isNone && s.fnPresent x.ref && s.takesCommands x.ref
  l.foldl (fun s x => s.cmdOpen x.ref) s

/-- CMD_EN written 1. -/
def doCmdEnSet (f : FnRef) (s : State) : State :=
  match s.fn f with
  | none => s
  | some x =>
    if !s.barOpen f || s.fatal || x.cmdEn then s
    else if s.cmdEnBad f x then s.onFn f fun x => { x with cmdErr := true }
    else
      let s := s.onFn f fun x => { x with cmdEn := true, cmdErr := false }
      if s.takesCommands f then s.cmdOpen f else s

/-- CMD_EN_SET (R370). -/
def execCmdEnSet (fn : FnRef) (s : State) : Res := .next (doCmdEnSet fn s)

/-- CMD_EN written 0: the ring drains; with it IDLE both are destroyed. -/
def doCmdEnClear (f : FnRef) (s : State) : State :=
  match s.fn f with
  | none => s
  | some x =>
    if !s.barOpen f || s.fatal || !x.cmdEn then s
    else
      let s := s.onFn f fun x => { x with cmdEn := false, cmdClosing := x.cmdActive }
      if x.cmdActive then (s.beginDisable x.sqQid).closeCommand f else s

/-- CMD_EN_CLEAR (R370). -/
def execCmdEnClear (fn : FnRef) (s : State) : Res := .next (doCmdEnClear fn s)

/-! ## Function-level reset (R383 R384) -/

/-- The functions that the reset of a function takes with it: a PF's VFs. -/
def State.withVfs (s : State) (f : FnRef) : List FnRef :=
  f :: (if f.vf then [] else ((s.host.fns.map (·.ref)).filter fun g => g.port == f.port && g.vf && s.pfOf g == f.num))

/-- Functions stop from the acceptance point of their reset on (steps 1 to 4 of R383). -/
def State.flrStop (s : State) (l : List FnRef) : State :=
  let fs := l.filter fun f => (s.fn f).any (·.flrAt.isNone)
  let osc := s.time.osc
  let s := s.onHost fun h => { h with
    fns := h.fns.map fun (x : FnSt) => if fs.contains x.ref then { x with flrAt := some osc, vfEnable := false } else x
    msixReq := h.msixReq.filter fun (f, _, _) => !fs.contains f }
  let s := s.stopOwner (fun o => o.fnRef.any fs.contains) (fun r => fs.contains r.fn)
  s.onEv fun e => { e with opened := e.opened.filter fun r => match r.dest with
    | .fn f => !fs.contains f
    | .management => true }

/-- What functions own is gone: queues, connections, slices and counters. -/
def State.endFns (s : State) (fs : List FnRef) : State :=
  let s := s.endOwner fun o => o.fnRef.any fs.contains
  let sids := (s.host.slices.filter fun (_, x) => fs.contains x.mgr).map (·.1)
  let s := sids.foldl (fun s i => s.freeSlice i) s
  fs.foldl (fun s f => s.dropCounters Ct.func (fnWord f)) s

/-- FLR accepted. With a slice or a VF not quiesced it is a host error as well (R392). -/
def doFlr (f : FnRef) (s : State) : State :=
  match s.fn f with
  | none => s
  | some x =>
    if x.flrAt.isSome then s
    else
      let fs := s.withVfs f
      (s.unquiesced fun o => o.fnRef.any (fun g => fs.contains g && (g.vf || o.sid.isSome))).flrStop fs

/-- FLR (R383). -/
def execFlr (fn : FnRef) (s : State) : Res := .next (doFlr fn s)

/-- The reads of a function have ended: it returns to its reset values, its sticky AER log kept (log 35), and is ready. A VF
beyond NumVFs is gone. -/
def doFlrComplete (f : FnRef) (s : State) : State :=
  match s.fn f with
  | none => s
  | some x =>
    if x.flrAt.isNone || s.host.reads.any (fun (_, r) => r.ref.fn == f) then s
    else
      let keep := s.fnPresent f
      let s := s.endFns [f]
      if keep then s.onFn f fun x => { FnSt.reset f with aer := x.aer }
      else s.onHost fun h => { h with fns := h.fns.filter (·.ref != f) }

/-- FLR_COMPLETE (R383). -/
def execFlrComplete (fn : FnRef) (s : State) : Res := .next (doFlrComplete fn s)

/-- VF Enable and NumVFs written: the VFs removed are reset, those added appear. NumVFs above TotalVFs keeps its value. -/
def doVfEnableChange (f : FnRef) (enable : Bool) (numVfs : Nat) (s : State) : State :=
  match s.fn f with
  | none => s
  | some x =>
    if x.flrAt.isSome then s.configRetry f
    else if f.vf || !(s.pfRecord f.port f.num).any (·.sriov) then s
    else
      let n := if s.totalVfs f.port f.num < numVfs then x.numVfs else numVfs
      let first := s.firstVf f.port f.num
      let vfs := fun on k => if on then (List.range k).map fun i => ({ port := f.port, vf := true, num := first + i } : FnRef) else []
      let old := vfs x.vfEnable x.numVfs
      let new := vfs enable n
      let gone := old.filter fun g => !new.contains g
      let s := (s.unquiesced fun o => o.fnRef.any gone.contains).flrStop gone
      let s := s.onFn f fun x => { x with vfEnable := enable, numVfs := n }
      s.onHost fun h => { h with fns := h.fns ++
        ((new.filter fun g => !h.fns.any (·.ref == g)).map FnSt.reset) }

/-- VF_ENABLE_CHANGE (R384). -/
def execVfEnableChange (fn : FnRef) (enable : Bool) (numVfs : Nat) (s : State) : Res := .next (doVfEnableChange fn enable numVfs s)

/-! ## Link and port resets (R385 R366) -/

/-- A sub-link is down and every function of it is reset. -/
def State.dlDown (s : State) (port sub : Nat) : State :=
  let fs := (s.host.fns.map (·.ref)).filter fun f => f.port == port && s.subLinkOf f == sub
  let s := s.flrStop fs
  s.onHostPort port fun p => { p with subLinks := modAt p.subLinks sub fun l =>
    { l with up := false, inL1 := false, l1sub := 0, ltr := false } }

/-- A hot reset, or a link found down. -/
def doHotReset (port sub : Nat) (s : State) : State :=
  if (s.hostPort port).perst then s else s.dlDown port sub

/-- HOT_RESET (R385). -/
def execHotReset (port sub : Nat) (s : State) : Res := .next (doHotReset port sub s)

/-- The power domains 0 to 5 of a host die (16 R444 R446). -/
def hostDomains (port : Nat) : Nat := 63 * 2 ^ (144 + 8 * port)

/-- Power domains switched. -/
def State.domains (s : State) (mask : Nat) (on : Bool) : State :=
  s.onPower fun p => { p with domains := if on then p.domains ||| mask else p.domains - (p.domains &&& mask) }

/-- Every function of a port is reset at once and gone, its outstanding reads with it (log 35). -/
def State.portGone (s : State) (port : Nat) : State :=
  let fs := (s.host.fns.map (·.ref)).filter (·.port == port)
  let s := s.flrStop fs
  let s := s.onHost fun h => { h with
    reads := h.reads.filter (fun (_, r) => r.ref.fn.port != port), timedOut := h.timedOut.filter (fun (_, f) => f.port != port) }
  let s := s.endFns fs
  let s := s.onHost fun h => { h with fns := h.fns.filter (·.ref.port != port) }
  s.onHostPort port fun p => { p with deassertedAt := none, subLinks := [], profile := none, recovery := false }

/-- PERSTn# asserted. -/
def doPerstAssert (port : Nat) (s : State) : State :=
  if (s.hostPort port).perst then s
  else (((s.portGone port).onHostPort port fun p => { p with perst := true }).domains (hostDomains port) false).openWaiting

/-- PERST_ASSERT (R385). -/
def execPerstAssert (port : Nat) (s : State) : Res := .next (doPerstAssert port s)

/-- A sub-link before its training. -/
def SubLink.fresh : SubLink where
  up := false
  inL1 := false
  trainedWidth := 0
  width := 0
  remapped := false
  dropped := false

/-- The port's power comes on and its profile is taken: a profile that Buckram holds governs at once. -/
def State.portStart (s : State) (port : Nat) : State :=
  let osc := s.time.osc
  let m := s.subLinks port
  let s := s.onHostPort port fun p => { p with deassertedAt := some osc, subLinks := List.replicate m SubLink.fresh }
  let s := s.domains (hostDomains port) true
  match (s.hostPort port).verified with
  | some l => s.installProfile port l
  | none => s

/-- PERSTn# deasserted. -/
def doPerstDeassert (port : Nat) (s : State) : State :=
  if !(s.hostPort port).perst then s
  else
    let s := s.onHostPort port fun p => { p with perst := false }
    if s.power.dev == .aux || s.power.dev == .off || s.pins.thermTrip || s.pins.sysRst then s else s.portStart port

/-- PERST_DEASSERT (R366). -/
def execPerstDeassert (port : Nat) (s : State) : Res := .next (doPerstDeassert port s)

/-- 900 ms without a verified profile: the recovery profile governs. -/
def doProfileRecoveryTimeout (port : Nat) (s : State) : State :=
  let p := s.hostPort port
  match p.deassertedAt with
  | some t => if p.profile.isNone && t + 900000000 ≤ s.time.osc then s.forceProfile port (recoveryProfile (s.subLinks port)) true else s
  | none => s

/-- PROFILE_RECOVERY_TIMEOUT (R366). -/
def execProfileRecoveryTimeout (port : Nat) (s : State) : Res := .next (doProfileRecoveryTimeout port s)

/-- The lane bits of a host port follow its sub-links (19 R530). -/
def State.laneFaults (s : State) (port : Nat) : State :=
  let l := (s.hostPort port).subLinks
  (s.pinFollow (24 + port) (l.any (·.remapped))).pinFollow (26 + port) (l.any (·.dropped))

/-- The rates of R361, in MT/s. -/
def linkRates : List Nat := [128000, 64000, 32000, 16000, 8000, 5000, 2500]

/-- A sub-link has trained. The rate, and whether L0p is negotiated, are what the partners settle: free values (log 27). -/
def doLinkTrainingEnd (port sub width : Nat) (remapped dropped : Bool) (s : State) : State :=
  let p := s.hostPort port
  let ok := !p.perst && p.deassertedAt.isSome && s.pins.hrefclk.getD port false
    && decide ((s.pins.hrefReadyAt.getD port 0) ≤ s.time.osc) && decide (sub < p.subLinks.length)
    && [1, 2, 4, 8, 16].contains width && decide (width ≤ 16 / s.subLinks port)
  if !ok || (p.subLinks.getD sub SubLink.fresh).up then s
  else
    let n := s.free
    let s := s.onHostPort port fun p => { p with subLinks := modAt p.subLinks sub fun l =>
      { l with up := true, inL1 := false, l1sub := 0, ltr := false, trainedWidth := width, width := width, remapped := remapped, dropped := dropped
               rate := linkRates.getD (Config.freeNat n % 7) 2500, l0p := Config.freeNat (n + 1) % 2 == 1 } }
    (s.onFree (· + 2)).laneFaults port

/-- LINK_TRAINING_END (R366). -/
def execLinkTrainingEnd (port sub width : Nat) (remapped dropped : Bool) (s : State) : Res :=
  .next (doLinkTrainingEnd port sub width remapped dropped s)

/-! ## Bus mastering and D3hot (R386 R387) -/

/-- Outstanding fetches of a queue are given up, their data discarded: F returns to the first entry among them. -/
def State.abandonFetches (s : State) (qid : Nat) : State :=
  match s.queue qid with
  | none => s
  | some q =>
    let l := s.host.reads.filterMap fun (_, r) => match r.why with
      | .entries k idx _ => if k = qid ∧ r.dead = false then some ((idx + 65536 - q.c) % 65536) else none
      | _ => none
    let s := s.killFetches qid
    match l with
    | [] => s.onQueue qid fun q => { q with headReading := false }
    | d :: ds =>
      let n := ds.foldl min d
      let before : Nat → Bool := fun i => decide ((i + 65536 - q.c) % 65536 < n)
      s.onQueue qid fun q => { q with
        f := (q.c + n) % 65536, fetching := 0, headReading := false
        cache := q.cache.filter (fun x => before x.1), failed := q.failed.filter (fun x => before x.1) }

/-- A block command still has a host access to issue: a WRITE piece whose data is not read, or a READ piece not done. -/
def State.blkNeedsHost (s : State) (n : Nat) : Bool :=
  (s.piecesOf n).any fun p => !p.done && ((p.bop == 1) || (p.bop == 2 && (!p.issued || !p.waiting.isEmpty)))

/-- A started operation of a function that may no longer reach its host: it ends with S_ABORTED_BME where it has an access to
issue or a read outstanding, once its reads have come; else it goes on. -/
def State.bmeOp (s : State) (n : Nat) : State :=
  match s.op n with
  | none => s
  | some o =>
    match s.queue o.qid with
    | none => s
    | some q =>
      let mark := fun (s : State) => s.onOp n fun o => { o with failAt := some (0, St.abortedBme) }
      match q.cls with
      | .pktTx => if o.reading = 0 then s else mark s
      | .krmSq =>
        if o.reading ≠ 0 then mark s
        else if entryOp o.entry = 2 then
          (s.onConn (krmCid o.entry) fun c => { c with reads := c.reads.filter (·.op != n) }).krmFinish n St.abortedBme
        else s
      | .cryJq =>
        if o.reading ≠ 0 then mark s
        else match s.chanOfQueue o.qid with
          | some (t, x) => match x.active.find? (·.op == n) with
            | some j => s.jobFail t j St.abortedBme
            | none => s
          | none => s
      | .blkSq =>
        if !s.blkNeedsHost n then s
        else if o.reading = 0 then s.blkEnd n (some St.abortedBme)
        else s.onOp n fun o => { o with status := some St.abortedBme }
      | .dmaCh =>
        match s.dma.find? (fun (_, x) => x.op == some n) with
        | some (k, x) => s.dmaFinish k x St.abortedBme false
        | none => s
      | _ => s

/-- The READ_REQs of a connection whose host reads are outstanding wait again; the data that comes is discarded. -/
def State.holdServed (s : State) (cid : Nat) : State :=
  let s := s.onConn cid fun c => { c with served := c.served.map fun (r : Served) => { r with issued := false } }
  s.onHost fun h => { h with reads := h.reads.map fun (t, r) => match r.why with
    | .serve k _ => if k = cid then (t, { r with dead := true }) else (t, r)
    | _ => (t, r) }

/-- The reads of a function that were never made end without data (R386): nothing of theirs is outstanding. -/
def State.endUnmade (s : State) (f : FnRef) : State :=
  (s.host.reads.filter fun (_, r) => r.ref.fn == f && r.waiting).foldl (fun s (t, r) => s.deliverRead t r .unsupported) s

/-- A function's requests stop. -/
def State.bmeStop (s : State) (f : FnRef) : State :=
  let qids := (s.qm.queues.filter fun (_, q) => q.owner.fnRef == some f).map (·.1)
  let s := qids.foldl (fun s k => s.abandonFetches k) s
  let ops := (s.qm.ops.filter fun (_, o) => qids.contains o.qid).map (·.1)
  let s := ops.foldl (fun s n => s.bmeOp n) s
  let cids := (s.krm.conns.filter fun (_, c) => c.owner.fnRef == some f).map (·.1)
  (cids.foldl (fun s k => s.holdServed k) s).endUnmade f

/-- A CQ that is full with completions held begins an episode. -/
def State.episodeIfFull (s : State) (cq : Nat) : State :=
  match s.queue cq with
  | some q => if q.full && !q.held.isEmpty then s.openEpisode cq false else s
  | none => s

/-- A function's requests resume: held completions, write-back blocks, pending messages, then fetching. -/
def State.bmeResume (s : State) (f : FnRef) : State :=
  let mine := s.qm.queues.filter fun (_, q) => q.owner.fnRef == some f
  let s := (mine.filter fun (_, q) => q.cls == .cq).foldl (fun s (k, q) => State.drainHeldBy false s k (q.held.length + 1)) s
  let s := (mine.filter fun (_, q) => q.cls == .cq).foldl (fun s (k, _) => s.episodeIfFull k) s
  let s := mine.foldl (fun s (k, _) => match s.queue k with
    | some q => if q.wbDue then s.writeBack k else s
    | none => s) s
  let s := s.flushVectors f
  let s := mine.foldl (fun s (k, _) => s.fetch k) s
  let cids := (s.krm.conns.filter fun (_, c) => c.owner.fnRef == some f).map (·.1)
  cids.foldl (fun s k => s.serveIssue k) s

/-- What follows a change of a function's Bus Master Enable or power state. -/
def State.masterChange (s : State) (f : FnRef) (g : FnSt → FnSt) : State :=
  if !s.configurable f then s.configRetry f
  else
    let old := s.mastering f
    let s := s.onFn f g
    if s.fatal || s.mastering f == old then s
    else if old then s.bmeStop f else s.bmeResume f

/-- Bus Master Enable cleared. -/
def doBmeClear (f : FnRef) (s : State) : State := s.masterChange f fun x => { x with bme := false }

/-- BME_CLEAR (R386). -/
def execBmeClear (fn : FnRef) (s : State) : Res := .next (doBmeClear fn s)

/-- Bus Master Enable set. -/
def doBmeSet (f : FnRef) (s : State) : State := s.masterChange f fun x => { x with bme := true }

/-- BME_SET (R386). -/
def execBmeSet (fn : FnRef) (s : State) : Res := .next (doBmeSet fn s)

/-- D3hot entered. -/
def doD3hotEnter (f : FnRef) (s : State) : State := s.masterChange f fun x => { x with d3hot := true }

/-- D3HOT_ENTER (R387). -/
def execD3hotEnter (fn : FnRef) (s : State) : Res := .next (doD3hotEnter fn s)

/-- D0 entered. -/
def doD3hotExit (f : FnRef) (s : State) : State := s.masterChange f fun x => { x with d3hot := false }

/-- D3HOT_EXIT (R387). -/
def execD3hotExit (fn : FnRef) (s : State) : Res := .next (doD3hotExit fn s)

/-! ## Link power (R388 R389) -/

/-- A sub-link that is up. -/
def State.subUp (s : State) (port sub : Nat) : Option SubLink :=
  match (s.hostPort port).subLinks[sub]? with
  | some l => if l.up then some l else none
  | none => none

/-- A sub-link changed. -/
def State.onSub (s : State) (port sub : Nat) (f : SubLink → SubLink) : State :=
  s.onHostPort port fun p => { p with subLinks := modAt p.subLinks sub f }

/-- The substate in which L1 is entered under L1 PM Substates Control, bit 0 its L1.1 and bit 1 its L1.2; a bifurcated port has none
(R367 R388; DESIGN CHOICE: L1.2 where both are enabled, log 35). -/
def State.l1Substate (s : State) (port : Nat) (x : FnSt) : Nat :=
  if s.subLinks port ≠ 1 then 0 else if bit x.l1ss 1 then 2 else x.l1ss % 2

/-- Any queue whose ring lies behind the port is ENABLED: the device then tolerates 10 us (R388). -/
def State.ltrNeed (s : State) (port : Nat) : Bool :=
  s.qm.queues.any fun (_, q) => q.state == .enabled && q.owner.fnRef.any (·.port == port)

/-- LTR messages of the sub-links whose requirement has changed; a link in L1 leaves it to send one (R388). -/
def State.sendLtr (s : State) : State :=
  ([(0, 0), (0, 1), (0, 2), (0, 3), (1, 0), (1, 1), (1, 2), (1, 3)]).foldl (fun s (port, sub) =>
    match s.subUp port sub with
    | some l =>
      let need := s.ltrNeed port
      if l.ltr == need then s
      else (s.emit (.ltr port sub (if need then some 10000 else none))).onSub port sub fun l => { l with ltr := need, inL1 := false, l1sub := 0 }
    | none => s) s

/-- A link quiet for 8 us enters L1. -/
def doL1Entry (port sub idleNs : Nat) (s : State) : State :=
  match s.subUp port sub, s.fn (s.firstPf port sub) with
  | some _, some x =>
    let busy := s.host.reads.any fun (_, r) => r.ref.fn.port == port && s.subLinkOf r.ref.fn == sub
    if x.aspmL1 && 8000 ≤ idleNs && !busy then
        s.onSub port sub fun l => { l with inL1 := true, l1sub := s.l1Substate port x }
      else s
  | _, _ => s

/-- L1_ENTRY (R388). -/
def execL1Entry (port sub idleNs : Nat) (s : State) : Res := .next (doL1Entry port sub idleNs s)

/-- With L0p negotiated, both directions carried less than 40 % of the narrower width's capacity; the operands are the load in thousandths of the
current width's. -/
def doL0pNarrow (port sub inPermille outPermille : Nat) (s : State) : State :=
  match s.subUp port sub with
  | some l =>
    if s.onGrid 65536 0 && l.l0p && 4 < l.width && 2 * inPermille < 400 && 2 * outPermille < 400 then
      s.onSub port sub fun l => { l with width := max 4 (l.width / 2) }
    else s
  | none => s

/-- L0P_NARROW (R389). -/
def execL0pNarrow (port sub inPermille outPermille : Nat) (s : State) : Res := .next (s.onDie (6 + port) (doL0pNarrow port sub inPermille outPermille))

/-- With L0p negotiated, either direction carried more than 75 % of the current width's capacity. -/
def doL0pWiden (port sub inPermille outPermille : Nat) (s : State) : State :=
  match s.subUp port sub with
  | some l =>
    if s.onFrame && l.l0p && (750 < inPermille || 750 < outPermille) then s.onSub port sub fun l => { l with width := l.trainedWidth } else s
  | none => s

/-- L0P_WIDEN (R389). -/
def execL0pWiden (port sub inPermille outPermille : Nat) (s : State) : Res := .next (s.onDie (6 + port) (doL0pWiden port sub inPermille outPermille))

/-! ## Errors (R390 R361 R368) -/

/-- The function that logs an error of an addressed function: itself, or the first PF of its sub-link. -/
def State.aerFn (s : State) (f : FnRef) : FnRef :=
  if (s.fn f).isSome then f
  else
    let m := s.subLinks f.port
    s.firstPf f.port (if f.vf then f.num % 1024 * m / 1024 else f.num % 8 * m / 8)

/-- A request that the device does not complete: Unsupported Request for what needs a completion; a write is dropped. A memory
request counts only where the function does not decode it. -/
def doUnsupportedRequest (f : FnRef) (req : BadRequest) (s : State) : State :=
  if (s.hostPort f.port).perst then s
  else match req with
    | .ioOrAtomic => (s.emit (.unsupported f)).logAer (s.aerFn f) .unsupportedRequest
    | .memoryRead => if s.barOpen f then s else (s.emit (.unsupported f)).logAer (s.aerFn f) .unsupportedRequest
    | .memoryWrite => if s.barOpen f then s else s.logAer (s.aerFn f) .unsupportedRequest

/-- UNSUPPORTED_REQUEST (R361). -/
def execUnsupportedRequest (fn : FnRef) (req : BadRequest) (s : State) : Res := .next (doUnsupportedRequest fn req s)

/-! ## Link errors (R390) -/

/-- An error of a host link that is up: logged where R390 says, and acted on. -/
def doTlpError (port sub : Nat) (f : FnRef) (err : TlpErr) (s : State) : State :=
  let up := ((s.hostPort port).subLinks[sub]?).any (·.up)
  if !up then s
  else match err with
    | .linkLevel e => s.logAer (s.firstPf port sub) (.link e)
    | .unexpectedCompletion => s.logAer (s.aerFn f) .unexpectedCompletion
    | .poisonedWrite => s.logAer (s.aerFn f) .poisonedTlp
    | .poisonedRead tag => match s.readOut tag with
      | some r => (s.logAer r.ref.fn .poisonedTlp).deliverRead tag r .poisoned
      | none => s
    | .fatalLink e => (s.logAer (s.firstPf port sub) (.fatalLink e)).dlDown port sub

/-- TLP_ERROR (13 R390). -/
def execTlpError (port sub : Nat) (fn : FnRef) (err : TlpErr) (s : State) : Res := .next (doTlpError port sub fn err s)

end Sys2Proof.Machine
end

