-- ==== Sys2Proof/Machine/Fabric.lean ====
section
/-! DEFINITION. The package fabric: its links, their failure, and what it means for the device (01 R15 R18 R19, 18 R485 R495). -/

namespace Sys2Proof.Machine

/-- The FLINK_DOWN source of a die for a link to a far die. -/
def flinkSource (die far : Nat) : Nat :=
  if die < 4 then sourceNo die (896 + (if 6 ≤ far then 3 else if 4 ≤ far then 2 else if far % 4 / 2 = die / 2 then 0 else 1))
  else sourceNo die (248 + far % 2)

/-- A link is taken down: the events of its ends, the log, and FATAL where a die is cut off. -/
def State.linkLost (s : State) (k : Nat) : State :=
  let (a, b) := linkEnds.getD k (0, 0)
  let s := s.onLinks fun l => modAt l k fun _ => { up := false, fails := 0 }
  let s := s.logRecord 37 [(8, [byte a, byte b])]
  let s := (s.raise (flinkSource a b) b 0 .dev).raise (flinkSource b a) a 0 .dev
  match s.cutOff with
  | some d => s.enterFatal 1 d noAddr
  | none => s

/-- A flit arrives that cannot be corrected: it is retransmitted. The eighth retransmission in a row that fails takes the link
down. -/
def doFlitRetransmit (link : Nat) (again : Bool) (s : State) : State :=
  match s.links[link]? with
  | none => s
  | some x =>
    if !x.up then s
    else if !again then s.onLinks fun l => modAt l link fun x => { x with fails := 0 }
    else if x.fails + 1 < 8 then s.onLinks fun l => modAt l link fun x => { x with fails := x.fails + 1 }
    else s.linkLost link

/-- FLIT_RETRANSMIT (01 R18). -/
def execFlitRetransmit (link : Nat) (again : Bool) (s : State) : Res := .next (doFlitRetransmit link again s)

end Sys2Proof.Machine
end

