-- ==== Sys2Proof/Machine/Dram.lean ====
section
/-! DEFINITION. The memory system (14_memory_protection.md): training, refresh, calibration windows, patrol scrub, counting,
logging and sideband faults. -/

namespace Sys2Proof.Machine

/-- The controller of a channel has power (16 R444). -/
def State.channelOn (s : State) (c : Nat) : Bool := bit s.power.domains (30 * (c / 3) + 27 + c % 3)

/-- The logical ranks of a channel, and the lines of its capacity. -/
def ChannelSt.ranks (x : ChannelSt) : Nat := (x.pop.map (·.ranks)).getD 0
def ChannelSt.lines (x : ChannelSt) : Nat := (x.pop.map (·.capacity)).getD 0 / 64

/-! ## Records (R413) -/

/-- A record of R413 of a channel, which names no line: ADDR is all ones, and RANK and CADDR are free. -/
def State.channelLog (s : State) (kind c src : Nat) : State :=
  (s.logRecord kind [(8, toLe 8 (2 ^ 64 - 1)), (17, [byte c, byte (s.freeVal % 64), 0xFF, byte src]), (24, toLe 8 (s.freeVal / 64))]).useFree

/-! ## Training (R394 R396) -/

/-- The device accepts a module (R394 R415). -/
def moduleOk (m : ModuleSpd) : Bool :=
  m.rdimmEcc80 && (m.width == 4 || m.width == 8) && (m.density == 16 || m.density == 32) && decide (m.capacity ≤ 256 * 2 ^ 30)
    && (m.packageRanks == 1 || m.packageRanks == 2) && (m.height == 1 || m.height == 2 || m.height == 4)

/-- Two modules may share a channel (R394). -/
def modulesMatch (a b : ModuleSpd) : Bool :=
  a.width == b.width && a.density == b.density && a.packageRanks == b.packageRanks && a.height == b.height

/-- The modules of a channel are accepted: one in slot 0, or two that match, with at most 16 logical ranks (R394). -/
def modulesOk (p : ChannelPop) : Bool :=
  p.modules.all moduleOk && decide (p.ranks ≤ 16) && match p.slot0, p.slot1 with
    | none, _ => false
    | some _, none => true
    | some a, some b => modulesMatch a b

/-- A channel trains. -/
def popOk (p : ChannelPop) : Bool := modulesOk p && p.trains && p.sidebandOk

/-- Training has ended on a channel: it serves, or is empty and logged. A sideband found faulty is isolated (R414). -/
def State.trainChannel (s : State) (c : Nat) (p : ChannelPop) : State :=
  let s := s.onChannel c fun _ => { ChannelSt.reset with
    pop := if popOk p then some p else none, trained := popOk p, sidebandBad := !p.sidebandOk
    lastRefresh := if popOk p then (List.range p.ranks).map fun r => (r, s.time.osc) else [] }
  let s := if p.sidebandOk then s else
    ((s.pinFault (32 + c)).channelLog 5 c 4).raise (memSource c 3) c 0 .dev
  if popOk p then s else s.channelLog 4 c 4

/-- Training of every channel completes, with the power of the main rails on. -/
def doDramTrained (found : List ChannelPop) (s : State) : State :=
  if s.fatal || s.dram.done || s.boot.stage != .buckram || !s.pins.mainPwrOk || found.length != 12 then s
  else
    let s := found.zipIdx.foldl (fun s (p, c) => s.trainChannel c p) s
    s.onDram fun d => { d with done := true }

/-- DRAM_TRAINED (R396). -/
def execDramTrained (found : List ChannelPop) (s : State) : Res := .next (doDramTrained found s)

/-! ## Refresh (R408) -/

/-- T_REF of a rank. -/
def ChannelSt.tRef (x : ChannelSt) (rank : Nat) : Nat := if x.sidebandBad || x.hot.getD (x.slotOf rank) false then 1920 else 3840

/-- DRAM works under its controllers, and not in self-refresh. -/
def State.refreshing (s : State) (c rank : Nat) : Bool :=
  let x := s.channel c
  x.trained && decide (rank < x.ranks) && s.channelOn c && s.power.dev == .run

/-- A REFRESH is issued. -/
def State.refreshNow (s : State) (c rank : Nat) : State :=
  let osc := s.time.osc
  (s.emit (.refresh c rank)).onChannel c fun x => { x with
    lastRefresh := x.lastRefresh.map fun (r, t) => if r = rank then (r, osc) else (r, t) }

/-- A rank is refreshed at its FT instant. -/
def doRefresh (c rank : Nat) (s : State) : State :=
  let t := (s.channel c).tRef rank
  if s.refreshing c rank && s.onGrid t (240 * ((c + rank) % 16)) then s.refreshNow c rank else s

/-- REFRESH (R408). -/
def execRefresh (channel rank : Nat) (s : State) : Res := .next (s.onDie (channel / 3) (doRefresh channel rank))

/-- A rank is refreshed at once when 4 T_REF of oscillator time have gone by. -/
def doForcedRefresh (c rank : Nat) (s : State) : State :=
  let x := s.channel c
  let due := x.lastRefresh.any fun (r, t) => r == rank && decide (t + 4 * x.tRef rank ≤ s.time.osc)
  if s.refreshing c rank && due then s.refreshNow c rank else s

/-- FORCED_REFRESH (R408). -/
def execForcedRefresh (channel rank : Nat) (s : State) : Res := .next (doForcedRefresh channel rank s)

/-! ## Calibration windows (R409) -/

/-- The channel whose periodic window takes the slot at an instant. -/
def periodicWindow (ft : Nat) : Option Nat :=
  if ft % 8388608 = 0 ∧ ft % 134217728 / 8388608 < 12 then some (ft % 134217728 / 8388608) else none

/-- The end of a requested calibration's last window: the reply. -/
def State.calEnds (s : State) (c : Nat) : State :=
  let x := s.channel c
  match x.calCmd with
  | some k =>
    if x.calLeft = 0 ∧ x.calUntil ≤ s.ft then
      (s.onChannel c fun x => { x with calCmd := none }).reply 0x0E04 k false { Answer.ok with ft := some x.calUntil }
    else s
  | none => s

/-- A channel may hold a requested window now: its next interval has come, and no periodic window, no window of this slot, and no
lower channel that waits stands before it. -/
def State.calTurn (s : State) (c : Nat) : Bool :=
  let waits := fun (x : ChannelSt) => decide (0 < x.calLeft) && decide (x.calNext ≤ s.ft)
  waits (s.channel c) && (periodicWindow (s.gridFt 4096 0)).isNone && s.dram.channels.all (fun x => decide (x.calUntil ≤ s.ft))
    && (List.range c).all fun i => !waits (s.channel i)

/-- A window begins in its slot, where one is due; and where a requested calibration's last window has ended, it is answered
(log 36). -/
def doCalWindow (c : Nat) (hot0 hot1 : Bool) (loadPermille : Nat) (s : State) : State :=
  let s := s.calEnds c
  let x := s.channel c
  if s.fatal || !s.onGrid 4096 0 || !x.trained || !s.channelOn c || s.ft < x.calUntil then s
  else
    let ft := s.gridFt 4096 0
    let hold := fun (x : ChannelSt) => { x with calUntil := ft + 1024, hot := [hot0, hot1] }
    if periodicWindow ft = some c then s.onChannel c hold
    else if s.calTurn c then
      s.onChannel c fun x => { hold x with
        calLeft := x.calLeft - 1
        calNext := if 500 < loadPermille then (ft / 65536 + 1) * 65536 else (ft / 8192 + 1) * 8192 }
    else s

/-- CAL_WINDOW (R409). -/
def execCalWindow (channel : Nat) (hot0 hot1 : Bool) (loadPermille : Nat) (s : State) : Res :=
  .next (s.onDie (channel / 3) (doCalWindow channel hot0 hot1 loadPermille))

/-- DIAG_DRAM_CAL: 64 windows are requested. A channel that is empty has nothing to train (log 36). -/
def doDiagDramCal (c : Cmd) (s : State) : State :=
  s.sf 0x0E04 c noDeny true true fun _ s =>
    let x := s.channel c.target.toNat
    if !x.trained || x.calCmd.isSome then (s, some (Answer.just St.badState))
    else
      let ft := s.ft
      (s.onChannel c.target.toNat fun x => { x with calLeft := 64, calNext := ft, calCmd := some c }, none)

/-- DIAG_DRAM_CAL (R409). -/
def execDiagDramCal (c : Cmd) (s : State) : Res := .next (doDiagDramCal c s)

/-! ## Patrol scrub (R410) -/

/-- The period in force: a new one governs from its first instant on. -/
def State.scrubTake (s : State) : State :=
  match s.dram.scrubPend with
  | some p => if s.onGrid p 0 then s.onDram fun d => { d with scrubPeriod := p, scrubPend := none } else s
  | none => s

/-- A pass starts on a channel at an instant of the period; lines of the pass before that were not read are read at once. -/
def doScrubPass (c : Nat) (s : State) : State :=
  let s := s.scrubTake
  let x := s.channel c
  let p := s.dram.scrubPeriod
  if s.fatal || !s.onGrid p 0 || x.scrubStart == some (s.gridFt p 0) || !s.refreshing c 0 then s
  else
    let left := match x.scrubStart with
      | some _ => x.lines - x.scrubNext
      | none => 0
    let s := if left = 0 then s else s.countBy Ct.ddr (512 + c) 1 left
    let ft := s.gridFt p 0
    s.onChannel c fun x => { x with scrubStart := some ft, scrubNext := 0, scrubPass := min x.lines (x.scrubPass + left) }

/-- SCRUB_PASS (R410). -/
def execScrubPass (channel : Nat) (s : State) : Res := .next (s.onDie (channel / 3) (doScrubPass channel))

/-- The line that the scrubber reads now: one left by an earlier pass, or the next of this pass at its instant. -/
def State.scrubLine (s : State) (c : Nat) : Option Nat :=
  let x := s.channel c
  match x.scrubStart with
  | none => none
  | some t =>
    if 0 < x.scrubPass then some (x.lines - x.scrubPass)
    else if x.scrubNext < x.lines ∧ t + x.scrubNext * s.dram.scrubPeriod / x.lines ≤ s.ft then some x.scrubNext
    else none

/-- The errors of a line as its devices give them, with those that already stand in it. A line in error beyond correction stays so: its data
is what the devices give, and the check symbols of a codeword match no single-symbol error. -/
def State.lineErrors (s : State) (k : Nat) (errors : Bytes) : Bytes :=
  match s.dram.faults.get k with
  | none => errors
  | some (.fixes l) => (List.range 80).map fun i =>
      byte (l.foldl (fun e (n, p, x) => if 10 * n + p = i then e ^^^ x else e) (byteAt errors i))
  | some .bad => zeros 8 ++ [byte 0xA5, byte 0xA5] ++ zeros 70

/-- One line is read: corrected and to be written back, poisoned, or as it is. `errors` are the errors that the DRAM devices add to its
burst: 16 beats of the 40 lanes of its subchannel, five bytes a beat (R397). Its errors count for the rank and the subchannel that hold
the line, whichever the operands name (log 36). -/
def doScrubRead (c rank _sub : Nat) (errors : Bytes) (s : State) : State :=
  if s.fatal || !s.refreshing c rank || s.dram.scrubPeriod == 0 then s
  else match s.scrubLine c with
    | none => s
    | some i =>
      let s := s.onChannel c fun x => if 0 < x.scrubPass then { x with scrubPass := x.scrubPass - 1 } else { x with scrubNext := i + 1 }
      let k := c * 2 ^ 34 + i
      let errors := s.lineErrors k (burstSymbols errors)
      let (rank, sub) := s.lineRank k
      let s := s.onDram fun d => { d with faults := d.faults.del k }
      let line := lineCodewords (s.lineBytes k) errors (s.dram.poison.contains k)
      match decodeLine line with
      | .poisoned => s
      | .uncorrectable => ((s.setLine k (lineData line [])).count Ct.ddr (rankIndex c rank sub) 4).foundUe c rank sub 0 (64 * i)
      | .good [] => s
      | .good l => (s.setLine k (lineData line l)).correctLine k rank sub 0 3 l

/-- SCRUB_READ (R410). -/
def execScrubRead (channel rank sub : Nat) (errors : Bytes) (s : State) : Res := .next (s.onDie (channel / 3) (doScrubRead channel rank sub errors))

/-- The oldest corrected line is written back: its data is what the line holds. -/
def doCeWriteback (c : Nat) (s : State) : State :=
  if s.fatal || !s.refreshing c 0 then s else s.onChannel c fun x => { x with writebacks := x.writebacks.drop 1 }

/-- CE_WRITEBACK (R401). -/
def execCeWriteback (channel : Nat) (s : State) : Res := .next (doCeWriteback channel s)

/-- DIAG_SCRUB_SET: a new period awaits its first instant; 0 turns scrubbing off. -/
def doDiagScrubSet (c : Cmd) (s : State) : State :=
  s.sf 0x0E05 c noDeny true true fun _ s =>
    let p := cmdLe c 16 8
    if p ≠ 0 ∧ (p < 3600000000000 ∨ 2592000000000000 < p) then (s, some (Answer.just St.badParam))
    else if p = 0 then
      (s.onDram fun d => { d with scrubPeriod := 0, scrubPend := none
                                  channels := d.channels.map fun x => { x with scrubStart := none, scrubPass := 0 } }, some Answer.ok)
    else (s.onDram fun d => { d with scrubPend := some p }, some Answer.ok)

/-- DIAG_SCRUB_SET (R410). -/
def execDiagScrubSet (c : Cmd) (s : State) : Res := .next (doDiagScrubSet c s)

/-! ## Sideband faults (R414) -/

/-- A sideband line of a channel in operation is found faulty: it is isolated. -/
def doSidebandFault (c : Nat) (s : State) : State :=
  let x := s.channel c
  if s.fatal || !s.dram.done || x.sidebandBad || !s.channelOn c then s
  else
    let s := s.onChannel c fun x => { x with sidebandBad := true }
    let s := (s.pinFault (32 + c)).useFree
    (s.channelLog 5 c (Config.freeNat (s.free - 1) % 5)).raise (memSource c 3) c 0 .dev

/-- SIDEBAND_FAULT (R414). -/
def execSidebandFault (channel : Nat) (s : State) : Res := .next (doSidebandFault channel s)

end Sys2Proof.Machine
end

