-- ==== Sys2Proof/Machine/Trust.lean ====
section
/-! DEFINITION. Trust (17_trust_lifecycle_debug.md): device reset, keys and fuses, measurements, challenges and authorisations,
debug levels and sessions, wrapped keys and attestation. -/

namespace Sys2Proof.Machine

/-! ## Device reset (19 R523) -/

/-- Power as the main rails and PERSTn# have it (16 R446 R450): all tiles ACTIVE, or AUX. -/
def State.railsPower (s : State) (p : PowerSt) : PowerSt :=
  if s.pins.mainPwrOk then
    let on := (List.range 2).foldl (fun d k => if (s.hostPort k).perst then d - (d &&& hostDomains k) else d) (2 ^ 160 - 1)
    { p.rebase s.time.osc with dev := .run, tiles := List.replicate 4 .active, domains := on }
  else { p.rebase s.time.osc with dev := .aux, tiles := List.replicate 4 .off, domains := 0 }

/-- The threads of tiles that have just been given power are IDLE at their reset values; tiles without power have none (12 R338). -/
def State.coresIdle (s : State) : State :=
  s.onCores fun c => if s.power.dev = .run then { c with threads := CoresSt.reset.threads, cores := CoresSt.reset.cores } else { c with threads := [], cores := [] }

/-- The image slots of the media as the device has left them, by source: those of a component that runs from a medium are the slots that
FW_WRITE and the state records have changed (15 R419 R421). -/
def BootSt.persist (b : BootSt) : Tab (List MediaSlot) :=
  let put := fun (t : Tab (List MediaSlot)) (comp src : Nat) => t.mod src fun l => l.zipIdx.map fun (x, j) =>
    if j / 2 = comp then
      match b.slots[j]? with
      | some y => { manifest := y.manifest, payload := y.payload, words := y.words }
      | none => x
    else x
  let bk := match b.stage with
    | .rom | .retired | .push _ _ false | .recovery false => false
    | _ => true
  let t := if bk && b.sourceBk < 2 then put b.store 1 b.sourceBk else b.store
  if b.stage == .running && b.source < 2 then put t 0 b.source else t

/-- Device reset: everything but the fuses, the device log and what lies outside the device is cleared. The clocks that are
present, the levels of the input pins, the boot media with the eMMC's RPMB, and the die temperature are outside. -/
def State.deviceReset (s : State) (straps : Straps) : State :=
  let r := State.afterReset s.trust.fuses s.ev.log s.ev.logCount straps
  let p := s.pins
  let ports := s.host.ports.map fun q => { HostPort.reset with perst := q.perst }
  let pins := { r.pins with mainPwrOk := p.mainPwrOk, clkIn := p.clkIn, sysclk := p.sysclk, hrefclk := p.hrefclk
                            hrefReadyAt := p.hrefReadyAt, ppsHigh := p.ppsHigh, ppsFrom := s.time.osc, sysRst := p.sysRst }
  let power := s.railsPower { r.power with tj := s.power.tj, clk := List.replicate 4 (0, s.time.osc) }
  { r with
    pending := s.pending, arrivals := s.arrivals, out := s.out, free := s.free
    time := { r.time with osc := s.time.osc }, ftu := { r.ftu with intOsc := !p.sysclk }
    host := { r.host with ports := ports }, pins := pins, power := power, cores := if p.mainPwrOk then r.cores else CoresSt.off, trust := { r.trust with rpmb := s.trust.rpmb }
    boot := { r.boot with store := s.boot.persist } }

/-! ## Keys (R463 R464) -/

/-- A text as ASCII bytes. -/
def ascii (t : String) : Bytes := t.toList.map fun c => byte c.toNat

/-- The key-derivation function of R464. -/
def kdf (secret : Bytes) (label : String) (ctx : Bytes) (n : Nat) : Bytes := shake256 (secret ++ ascii label ++ ctx) n

/-- The Device Serial Number (01 R28). -/
def dsn : Bytes := sliceZ Config.deviceSerial 0 8

/-- The current generation: the highest g whose DS[g] is burned and not destroyed. -/
def Fuses.gen (f : Fuses) : Option Nat :=
  ((List.range 4).reverse).find? fun g => (f.ds.getD g none).isSome && !f.dsDead.getD g false

/-- TK, where it is burned and not destroyed. -/
def Fuses.tkKey (f : Fuses) : Option Bytes := if f.tkDead then none else f.tk

/-- ROOT: ORK if burned, otherwise TK. -/
def Fuses.root (f : Fuses) : Option Bytes := if f.ork.isSome && !f.orkDead then f.ork else f.tkKey

/-- The current device secret of a lifecycle state. -/
def Fuses.secret (f : Fuses) (lc : Nat) : Option Bytes :=
  match lc with
  | 3 => f.gen.bind fun g => f.ds.getD g none
  | 4 | 5 => none
  | _ => if f.dsDevDead then none else f.dsDev

/-- A security version: the largest record (15 R432). -/
def svOf (l : List Nat) : Nat := l.foldl max 0

/-! ## Measurements (R474) -/

/-- A measurement register extended with a 64-byte digest. -/
def State.extendMr (s : State) (i : Nat) (e : Bytes) : State :=
  s.onTrust fun t => { t with
    mr := modAt t.mr i fun m => shake256 (m ++ e) 64
    mrCount := modAt t.mrCount i fun n => (n + 1) % 2 ^ 32 }

/-- The 64-byte record of the security configuration; its layout is free (log 13). -/
def State.securityRecord (s : State) : Bytes :=
  let f := s.trust.fuses
  sliceZ (Config.layout 0x1703 ([f.lcCode, s.trust.level, b2n f.bootLock, f.bootOrder, svOf f.svSf, svOf f.svBk]
    ++ f.fwKey.map (fun k => le (k.getD []) 0 32) ++ f.fwRevoked.map b2n ++ f.ownerAuth.map (fun k => le (k.getD []) 0 32)
    ++ [b2n (f.ork.isSome || f.orkDead)])) 0 64

/-- MR3 extended with the security configuration as it stands. -/
def State.extendMr3 (s : State) : State := s.extendMr 3 (shake256 s.securityRecord 64)

/-! ## Debug levels (R472 R473, 15 R424) -/

/-- The initial level of a lifecycle state. -/
def initialLevel (lc : Nat) : Nat :=
  match lc with
  | 0 | 1 => 3
  | 2 => 1
  | _ => 0

/-- The highest level of a lifecycle state that a key selector may grant; none where it grants nothing. Selector 0 is the
Floanhus authority, 1 and 2 the owner authorities. -/
def grantable (lc sel : Nat) : Option Nat :=
  match lc with
  | 2 => some 3
  | 3 => if sel = 0 then none else some 2
  | 4 => if sel = 0 then some 2 else none
  | 5 => if sel = 0 then some 3 else none
  | _ => none

/-- The debug level changes: MR3, the log record and the event. -/
def State.setLevel (s : State) (new : Nat) (jtag : Bool) : State :=
  let old := s.trust.level
  if new = old then s
  else
    let s := (s.onTrust fun t => { t with level := new }).extendMr3
    let s := s.logRecord 38 [(8, [byte new, byte old, byte (b2n jtag)])]
    s.raise (sourceNo 6 17) noObject new .sec

/-- The session ends: every DSTOP thread is resumed, and the initial level returns. -/
def State.endSession (s : State) : State :=
  let s := s.onTrust fun t => { t with session := false, sessionEnd := none }
  (s.leaveAllDstop).setLevel (initialLevel s.trust.lc) s.trust.carrierJtag

/-- A granted level comes into force at its frame boundary; the reply. -/
def doDebugLevelEffect (s : State) : State :=
  match s.trust.levelPend with
  | none => s
  | some (lv, c, accepted, dur) =>
    if s.fatal || !s.dueFrame accepted then s
    else
      let jtag := c.src == .jtag
      let ft := s.frameFt
      let s := s.onTrust fun t => { t with levelPend := none, session := true, carrierJtag := jtag
                                           sessionEnd := if dur = 0 then none else some (ft + dur * 1000000000) }
      let s := if lv < 2 then s.leaveAllDstop else s
      (s.setLevel lv jtag).reply 0x0A03 c true { Answer.ok lv with ft := some ft }

/-- DEBUG_LEVEL_EFFECT (R473). -/
def execDebugLevelEffect (s : State) : Res := .next (doDebugLevelEffect s)

/-- The first frame boundary after the DURATION of a session; after a thermal trip the session is kept until the reset (R482). -/
def doDebugSessionExpire (s : State) : State :=
  match s.trust.sessionEnd with
  | none => s
  | some t => if s.trust.session && !s.pins.thermTrip && s.dueFrame t then s.endSession else s

/-- DEBUG_SESSION_EXPIRE (R473). -/
def execDebugSessionExpire (s : State) : Res := .next (doDebugSessionExpire s)

/-! ## Challenges (R469 R471) -/

/-- SEC_DEBUG_CHALLENGE, SEC_DEBUG_RESPONSE, SEC_DEBUG_CLOSE and SEC_LIFECYCLE_SET take 3,088 bytes or none. -/
def authLen (c : Cmd) : Bool := c.pbLen == 3088

/-- A purpose of R469. -/
def purposeOk (p : Nat) : Bool := p < 4 || (0x11 ≤ p && p ≤ 0x15)

/-- A session is open on the other carrier. -/
def State.otherCarrier (s : State) (c : Cmd) : Bool := s.trust.session && s.trust.carrierJtag != (c.src == .jtag)

/-- SEC_DEBUG_CHALLENGE. -/
def doSecDebugChallenge (c : Cmd) (s : State) : State := s.bk 0x0A02 c noDeny true false (paramCheck (purposeOk (cmdByte c 16)))
/-- SEC_DEBUG_CHALLENGE (R469). -/
def execSecDebugChallenge (c : Cmd) (s : State) : Res := .next (doSecDebugChallenge c s)

/-- Buckram's part: a new challenge replaces the one outstanding. COUNT counts this one (log 38). -/
def bkSecDebugChallenge (c : Cmd) (who : Caller) (s : State) : State :=
  s.bkApply 0x0A02 c who false true false fun s =>
    let p := cmdByte c 16
    if !purposeOk p then (s, some (Answer.just St.badParam))
    else if p < 4 && s.trust.level < p && s.otherCarrier c then (s, some (Answer.just St.badState))
    else
      let n := (s.trust.challengeCount + 1) % 2 ^ 32
      let b := dsn ++ toLe 8 s.ft ++ sliceZ (Config.random32 s.free) 0 32
        ++ [byte p, byte s.trust.lc, byte s.trust.level, byte (b2n (c.src == .jtag))] ++ toLe 4 n ++ zeros 8
      let ft := s.ft
      let s := (s.onTrust fun t => { t with challenge := some (b, ft), challengeCount := n }).useFree
      (s, some { Answer.ok with data := b })

/-! ## Authorisations (R470) -/

def authSel (b : Bytes) : Nat := byteAt b 64
def authGrant (b : Bytes) : Nat := byteAt b 65
def authFlags (b : Bytes) : Nat := le b 66 2
def authDuration (b : Bytes) : Nat := le b 68 4
def authDigest (b : Bytes) : Bytes := sliceZ b 72 32
def burnFwKey (b : Bytes) : Bool := bit (authFlags b) 0
def revokeFw (b : Bytes) : Bool := bit (authFlags b) 1
def setBootLock (b : Bytes) : Bool := bit (authFlags b) 4
def burnOwner (b : Bytes) : Bool := bit (authFlags b) 8
def burnOrk (b : Bytes) : Bool := bit (authFlags b) 10

/-- Reserved fields of the block are 0, for a debug response or a lifecycle command in a lifecycle state. -/
def authFieldsOk (b : Bytes) (lifecycle : Bool) (lc : Nat) : Bool :=
  allZero b 168 32 && authFlags b < 2048 && authSel b < 3
    && (if lifecycle then authDuration b == 0 else authFlags b == 0 && authDuration b ≤ 86400)
    && (if lifecycle && lc == 0 && authGrant b == 1 then allZero b 136 32
        else if burnOrk b then allZero b 116 4
        else allZero b 104 64)

/-- A lifecycle transition of R467. -/
def transition (lc dst : Nat) : Bool :=
  [(0, 1), (1, 2), (1, 3), (2, 3), (3, 4), (4, 3), (1, 5), (2, 5), (3, 5), (4, 5), (2, 2), (3, 3)].contains (lc, dst)

/-- A transition that an owner authority may sign. -/
def ownerMay (lc dst : Nat) : Bool := [(2, 3), (1, 5), (2, 5), (3, 5), (4, 5), (2, 2), (3, 3)].contains (lc, dst)

/-- The key selected may grant what the block asks for (R467 R470 R472). -/
def mayGrant (f : Fuses) (lc : Nat) (b : Bytes) (lifecycle : Bool) : Bool :=
  let sel := authSel b
  if lifecycle then
    (sel == 0 || !transition lc (authGrant b) || ownerMay lc (authGrant b))
      && (!burnOrk b || (sel != 0 && lc == 3))
      && (!burnOwner b || (if sel = 0 then f.ownerAuth.all Option.isNone else f.ownerAuth.any Option.isSome))
  else match grantable lc sel with
    | some m => decide (authGrant b ≤ m)
    | none => false

/-- The digest of the public key is that of the selected key, and the signature verifies. -/
def authSigned (f : Fuses) (b : Bytes) : Bool :=
  let pk := sliceZ b 200 68
  let d := shake256 pk 32
  (match authSel b with
   | 0 => d == Config.romAuthorityDigest
   | k => f.ownerAuth.getD (k - 1) none == some d)
  && Config.xmssVerify pk (shake256 (b.take 268) 64) (sliceZ b 268 2820)

/-- A FLAGS target field is not free. -/
def flagsTaken (f : Fuses) (b : Bytes) : Bool :=
  (burnFwKey b && f.fwKey.all Option.isSome) || (burnOwner b && (f.ownerAuth.getD (field (authFlags b) 9 1) none).isSome)
    || (burnOrk b && (f.ork.isSome || f.orkDead)) || (setBootLock b && f.bootLock)

/-- The checks of R470 from the reserved fields on. -/
def State.authCheck (s : State) (c : Cmd) (lifecycle : Bool) : Option Nat :=
  let b := c.pb
  let f := s.trust.fuses
  let lc := s.trust.lc
  if !authFieldsOk b lifecycle lc then some St.badParam
  else match s.trust.challenge with
    | none => some St.badState
    | some (ch, at') =>
      if b.take 64 != ch || at' + 60000000000 ≤ s.ft || byteAt ch 51 != b2n (c.src == .jtag) then some St.badState
      else if byteAt ch 48 != authGrant b + (if lifecycle then 16 else 0) then some St.badParam
      else if !mayGrant f lc b lifecycle then some St.denied
      else if lifecycle && !transition lc (authGrant b) then some St.lifecycle
      else if !authSigned f b then some St.sigInvalid
      else if lifecycle && flagsTaken f b then some St.exist
      else none

/-- The part of check 8 that a KZAUTH block's fields are. -/
def authParams (c : Cmd) (lifecycle : Bool) (_ : Caller) (s : State) : Option Nat :=
  if authFieldsOk c.pb lifecycle s.trust.lc then none else some St.badParam

/-- SEC_DEBUG_RESPONSE. -/
def doSecDebugResponse (c : Cmd) (s : State) : State := s.bk 0x0A03 c noDeny (authLen c) false (authParams c false)
/-- SEC_DEBUG_RESPONSE (R470). -/
def execSecDebugResponse (c : Cmd) (s : State) : Res := .next (doSecDebugResponse c s)

/-- Buckram's part: the level awaits its frame boundary. One session exists at a time (R471). -/
def bkSecDebugResponse (c : Cmd) (who : Caller) (s : State) : State :=
  s.bkApply 0x0A03 c who false (authLen c) false fun s =>
    match s.authCheck c false with
    | some e => (s, some (Answer.just e))
    | none =>
      if s.trust.levelPend.isSome || s.otherCarrier c then (s, some (Answer.just St.badState))
      else
        let ft := s.ft
        (s.onTrust fun t => { t with challenge := none, levelPend := some (authGrant c.pb, c, ft, authDuration c.pb) }, none)

/-- SEC_DEBUG_CLOSE. -/
def doSecDebugClose (c : Cmd) (s : State) : State := s.bk 0x0A04 c noDeny true false
/-- SEC_DEBUG_CLOSE (R473). -/
def execSecDebugClose (c : Cmd) (s : State) : Res := .next (doSecDebugClose c s)

/-- Buckram's part: the session of this carrier ends; without one nothing changes (log 38). -/
def bkSecDebugClose (c : Cmd) (who : Caller) (s : State) : State :=
  s.bkApply 0x0A04 c who false true false fun s =>
    let s := if s.trust.session && !s.otherCarrier c then s.endSession else s
    (s, some (Answer.ok s.trust.level))

/-- The JTAG mailbox runs the three debug opcodes, whatever else is written to it (R471). -/
def doJtagKzauth (opcode : Nat) (c : Cmd) (s : State) : State :=
  if c.src != .jtag then s
  else match opcode with
    | 0x0A02 => s.bk 0x0A02 c noDeny true false (paramCheck (purposeOk (cmdByte c 16)))
    | 0x0A03 => s.bk 0x0A03 c noDeny (authLen c) false (authParams c false)
    | 0x0A04 => s.bk 0x0A04 c noDeny true false
    | _ => s

/-- JTAG_KZAUTH (R471). -/
def execJtagKzauth (opcode : Nat) (c : Cmd) (s : State) : Res := .next (doJtagKzauth opcode c s)

/-! ## Lifecycle (R467 R468) -/

/-- A fresh secret of Buckram's noise source. -/
def State.newSecret (s : State) : Bytes := sliceZ (Config.random32 s.free) 0 32

/-- Fuses changed. -/
def State.onFuses (s : State) (f : Fuses → Fuses) : State := s.onTrust fun t => { t with fuses := f t.fuses }

/-- The fuse updates of the FLAGS field; `ork`: the unsealed owner root key. -/
def burnFlags (b : Bytes) (ork : Bytes) (f : Fuses) : Fuses :=
  let f := if burnFwKey b then
      { f with fwKey := modAt f.fwKey (f.fwKey.findIdx Option.isNone) fun _ => some (authDigest b) } else f
  let f := if revokeFw b then { f with fwRevoked := modAt f.fwRevoked (field (authFlags b) 2 2) fun _ => true } else f
  let f := if setBootLock b then { f with bootLock := true, bootOrder := field (authFlags b) 5 3 } else f
  let f := if burnOwner b then
      { f with ownerAuth := modAt f.ownerAuth (field (authFlags b) 9 1) fun _ => some (authDigest b) } else f
  if burnOrk b then { f with ork := some ork } else f

/-- Installed keys and the inline key table wiped. -/
def State.wipeKeys (s : State) : State :=
  let s := (s.areaClear keyRegion).onCy fun y => { y with cidKeys := [], vidKeys := [], chans := y.chans.map fun (k, x) =>
    (k, { x with slots := x.slots.map fun _ => zeros 32, valid := 0, wide := 0, staging := List.replicate 8 0 }) }
  s.onKrm fun k => { k with conns := k.conns.map fun (i, c) => (i, { c with keyed := false }) }

/-- Bits burned over what a field holds: a fuse bit changes from 0 to 1 alone (R463). -/
def burnBits (old new : Bytes) : Bytes := List.zipWith (· ||| ·) (sliceZ old 0 new.length) new

/-- Every secret field destroyed, on entry to RETIRED. -/
def retireFuses (f : Fuses) : Fuses :=
  { f with dsDevDead := true, dsDead := [true, true, true, true], tkDead := true, orkDead := true }

/-- The effects of a transition in order; none where the noise source fails, with what has been done by then. -/
def State.transitionEffects (s : State) (lc dst : Nat) (b : Bytes) (noise : Bool) : State × Bool :=
  match lc, dst with
  | 0, 1 =>
    let s := s.onFuses fun f => { f with tk := some (burnBits (f.tk.getD []) (sliceZ b 104 32)) }
    if !noise then (s, false)
    else let k := s.newSecret
         ((s.onFuses fun f => { f with dsDev := some k }).useFree, true)
  | 1, 3 | 2, 3 | 4, 3 =>
    let s := if lc = 4 then s else s.onFuses fun f => { f with dsDevDead := true }
    let g := s.trust.fuses.ds.findIdx Option.isNone
    if !noise then (s, false)
    else let k := s.newSecret
         ((s.onFuses fun f => { f with ds := modAt f.ds g fun _ => some k }).useFree, true)
  | 3, 4 => ((s.wipeKeys).onFuses fun f => match f.gen with
      | some g => { f with dsDead := modAt f.dsDead g fun _ => true }
      | none => f, true)
  | _, 5 => (s.onFuses retireFuses, true)
  | _, _ => (s, true)

/-- SEC_LIFECYCLE_SET. -/
def doSecLifecycleSet (c : Cmd) (s : State) : State := s.bk 0x0A01 c noDeny (authLen c) false (authParams c true)
/-- SEC_LIFECYCLE_SET (R468). -/
def execSecLifecycleSet (c : Cmd) (s : State) : Res := .next (doSecLifecycleSet c s)

/-- The ORK that an authorisation carries, unsealed under TK. -/
def unsealOrk (f : Fuses) (b : Bytes) : Option Bytes :=
  f.tkKey.bind fun tk => gcmOpen tk (sliceZ b 104 12) (b.take 104) (sliceZ b 120 32) (sliceZ b 152 16)

/-- Buckram's part: the fuse updates, the effects, the record, the reply; the reset follows, at the
instant of the first transition where one waits already. -/
def bkSecLifecycleSet (c : Cmd) (who : Caller) (noise : Bool) (s : State) : State :=
  s.bkApply 0x0A01 c who false (authLen c) false fun s =>
    match s.authCheck c true with
    | some e => (s, some (Answer.just e))
    | none =>
      let b := c.pb
      let f := s.trust.fuses
      let lc := s.trust.lc
      let dst := authGrant b
      let ork := unsealOrk f b
      if 64 ≤ f.lcLog.length || (lc == 4 && dst == 3 && f.ds.all Option.isSome) then (s, some (Answer.just St.noResource))
      else if burnOrk b && ork.isNone then (s, some (Answer.just St.authfail))
      else
        let s := (s.onTrust fun t => { t with challenge := none }).onFuses (burnFlags b (ork.getD []))
        match s.transitionEffects lc dst b noise with
        | (s, false) => ((if authFlags b = 0 then s else s.extendMr3), some (Answer.just St.timeout))
        | (s, true) =>
          let s := (s.onFuses fun f => { f with lcLog := f.lcLog ++ [dst] }).extendMr3
          let at' := roundUp (s.ft + 10000000) 1048576
          (s.onTrust fun t => { t with resetAt := some (t.resetAt.getD at') }, some (Answer.ok dst))

/-- The reset of step 5 of R468; the new state governs from it. ROM then runs. -/
def doLifecycleReset (straps : Straps) (s : State) : State :=
  match s.trust.resetAt with
  | none => s
  | some t => if s.dueAt t s.onRebalance then s.deviceReset straps else s

/-- LIFECYCLE_RESET (R468). -/
def execLifecycleReset (straps : Straps) (s : State) : Res := .next (doLifecycleReset straps s)

/-! ## Wrapped keys (R465 R466) -/

/-- The object that the kind byte and TARGET name: its owner; none where it is malformed or does not exist. -/
def State.keyObject (s : State) (kind w : Nat) : Option Owner :=
  match kind with
  | 0 => if targetOk .cid false w then (s.krm.conns.get w).map (·.owner) else none
  | 1 => if targetOk .vid false w then (s.blk.volumes.get w).map (·.owner) else none
  | _ => if targetOk .calico false w then (s.cyChan w).map (·.owner) else none

/-- TARGET is well formed for the kind. -/
def keyTargetOk (kind w : Nat) : Bool :=
  match kind with
  | 0 => targetOk .cid false w
  | 1 => targetOk .vid false w
  | 2 => targetOk .calico false w
  | _ => true

/-- PB_LEN is 48 + PLEN. -/
def keyLenOk (c : Cmd) : Bool := 48 ≤ c.pbLen && (c.pbErr.isSome || c.pbLen == 48 + byteAt c.pb 3)

/-- PLEN suits the kind. -/
def plenOk (kind plen : Nat) : Bool :=
  match kind with
  | 0 => plen == 44
  | 1 => plen == 64
  | 2 => plen == 32 || plen == 64
  | _ => false

/-- The checks of R466, and the plaintext: a status with D0, or the key material. -/
def State.unwrap (s : State) (c : Cmd) (o : Owner) : (Nat × Nat) ⊕ Bytes :=
  let b := c.pb
  let kind := cmdByte c 16
  let plen := byteAt b 3
  let notAfter := le b 8 8
  if byteAt b 0 != 1 || !allZero b 1 2 || !allZero b 4 4 || !allZero b 28 4 || !plenOk kind plen then .inl (St.badParam, 0)
  else if notAfter != 0 && s.ftu.state != .locked && s.ftu.state != .holdover then .inl (St.notLocked, 0)
  else if notAfter != 0 && notAfter < s.ft then .inl (St.authfail, 2)
  else
    let wk := s.trust.fuses.root.map fun r => kdf r "KZ-WRAP" (toLe 4 o.word) 32
    match wk.bind fun k => gcmOpen k (sliceZ b 16 12) (b.take 32 ++ [byte kind] ++ toLe 4 c.target.toNat)
        (sliceZ b 32 plen) (sliceZ b (32 + plen) 16) with
    | none => .inl (St.authfail, 1)
    | some pt =>
      if s.trust.lc == 1 || s.trust.lc == 2 || s.trust.lc == 3 then .inr pt else .inl (St.lifecycle, 0)

/-- A key committed for a connection: a first key, or a replacement from its effect point (10 R306). -/
def State.keyForConn (s : State) (cid : Nat) (pt : Bytes) : State :=
  let key := pt.take 32
  let salt := sliceZ pt 32 4
  let ctr := be pt 36 8
  let s := (s.writeKeyRecord cid pt).rekey cid
  match s.sealKey cid with
  | some k =>
    let at' := nextFrame s.ft
    s.onCy fun y => { y with cidKeys := y.cidKeys.set cid { k with next := some (key, salt, ctr, at') } }
  | none =>
    let s := s.onCy fun y => { y with cidKeys := y.cidKeys.set cid { key := key, salt := salt, previous := none, graceEnd := 0, next := none } }
    (s.onConn cid fun c => { c with keyed := true, sealTx := ctr }).tryOpen cid

/-- A key committed for a volume, which becomes READY at the next frame boundary (09 R268). A record that Calico cannot open is no key:
the volume stays PENDING (10 R305). -/
def State.keyForVolume (s : State) (vid : Nat) (pt : Bytes) : State :=
  let s := s.writeKeyRecord (2 ^ 20 + vid) pt
  let at' := nextFrame s.ft
  let s := (s.onCy fun y => { y with vidKeys := y.vidKeys.set vid pt }).keyMeet (2 ^ 20 + vid)
  if !s.keyOk (2 ^ 20 + vid) then
    s.raise (sourceNo (((s.volume vid).map fun v => s.memberTile vid v 0).getD 0) 577) vid 0 .sec
  else s.onBlk fun b => { b with volumes := b.volumes.mod vid fun v => if v.readyAt.isNone then { v with readyAt := some at' } else v }

/-- A key written through the channel page's registers (10 R304). -/
def CyChan.install (x : CyChan) (slot : Nat) (pt : Bytes) : CyChan :=
  let x := { x with staging := (List.range 8).map fun i => BitVec.ofNat 64 (le pt (8 * i) 8) }
  x.keyCtrl (slot + 64 * (if pt.length = 64 then 2 else 1))

/-- Buckram writes a key through the page of a channel. Where staging words of another writer stand there, the two are two writers of one
page: a host error, with any key and any error bits for that channel (10 R302, 00 R6). -/
def State.installChan (s : State) (t slot : Nat) (pt : Bytes) : State :=
  let mixed := (s.cyChan t).any fun x => x.staging.any (· != 0)
  let n := s.free
  let s := s.onChanCy t (·.install slot (if mixed then anyBytes n 0 pt.length else pt))
  if mixed then (s.onChanCy t fun x => { x with err := x.err ||| Config.freeAt n 64 % 2 }).useFree else s

/-- The object that a SEC_KEY_INSTALL names exists in the caller's scope. -/
def State.keyFound (s : State) (c : Cmd) (who : Caller) : Bool :=
  2 < cmdByte c 16 || (s.keyObject (cmdByte c 16) c.target.toNat).any (s.inScope who)

/-- KIND and SLOT of a SEC_KEY_INSTALL (R465, 10 R304). -/
def keyKindOk (c : Cmd) : Bool := cmdByte c 16 ≤ 2 && (if cmdByte c 16 < 2 then cmdByte c 17 == 0 else cmdByte c 17 < 8)

/-- SEC_KEY_INSTALL. -/
def doSecKeyInstall (c : Cmd) (s : State) : State :=
  s.bk 0x0A07 c noDeny (keyLenOk c) false (paramCheck (keyKindOk c)) (keyTargetOk (cmdByte c 16) c.target.toNat) fun who s => s.keyFound c who
/-- SEC_KEY_INSTALL (R465). -/
def execSecKeyInstall (c : Cmd) (s : State) : Res := .next (doSecKeyInstall c s)

/-- Buckram's part. -/
def bkSecKeyInstall (c : Cmd) (who : Caller) (s : State) : State :=
  s.bkApply 0x0A07 c who false (keyLenOk c) false (form := keyTargetOk (cmdByte c 16) c.target.toNat) (found := s.keyFound c who)
    fun s =>
    let kind := cmdByte c 16
    let slot := cmdByte c 17
    let w := c.target.toNat
    if 2 < kind then (s, some (Answer.just St.badParam))
    else match s.keyObject kind w with
      | none => (s, some (Answer.just St.notFound))
      | some o =>
        if !keyKindOk c then (s, some (Answer.just St.badParam))
        else if kind == 1 && s.cy.vidKeys.has w then (s, some (Answer.just St.exist))
        else match s.unwrap c o with
          | .inl (e, d) => (s, some { Answer.just e with d0 := d })
          | .inr pt =>
            let s := match kind with
              | 0 => s.keyForConn w pt
              | 1 => s.keyForVolume w pt
              | _ => s.installChan w slot pt
            (s, some (Answer.ok))

/-! ## Attestation (R475 to R479) -/

/-- SEC_MEASURE_READ. -/
def doSecMeasureRead (c : Cmd) (s : State) : State := s.bk 0x0A06 c noDeny true false
/-- SEC_MEASURE_READ (R475). -/
def execSecMeasureRead (c : Cmd) (s : State) : Res := .next (doSecMeasureRead c s)

/-- The 272 bytes of measurements. -/
def TrustSt.measurements (t : TrustSt) : Bytes := (t.mr.map fun m => sliceZ m 0 64).flatten ++ (t.mrCount.map (toLe 4)).flatten

/-- Buckram's part. -/
def bkSecMeasureRead (c : Cmd) (who : Caller) (s : State) : State :=
  s.bkApply 0x0A06 c who false true false fun s => (s, some { Answer.ok with data := s.trust.measurements })

/-- The tokens of R479 brought up to date; after a backward step of FT they count on from there (02 R47). -/
def State.refillTokens (s : State) : State :=
  let ft := s.ft
  s.onTrust fun t =>
    let n := (ft - t.tokenAt) / 5000000
    { t with tokens := min 200 (t.tokens + n), tokenAt := if ft < t.tokenAt then ft else t.tokenAt + n * 5000000 }

/-- The lowest clear epoch bit is burned, and its indices are this boot's (R478); false where none is clear. -/
def State.burnEpoch (s : State) : State × Bool :=
  let e := s.trust.fuses.attEpoch
  if 2048 ≤ e then (s, false)
  else
    let s := s.onFuses fun f => { f with attEpoch := e + 1 }
    (s.onTrust fun t => { t with attNext := e * 2 ^ 28, attLimit := (e + 1) * 2 ^ 28 }, true)

/-- An index below a durable limit is made ready: none, or the status. -/
def State.signReady (s : State) (rpmb : Bool) : State × Option Nat :=
  if s.trust.attNext < s.trust.attLimit then (s, none)
  else if s.trust.attRpmb then
    if !rpmb then (s, some St.mediaErr)
    else
      let lim := (s.trust.attNext / 65536 + 1) * 65536
      (s.onTrust fun t => { t with attLimit := lim, rpmb := t.rpmb.map fun (g, _) => (g, lim) }, none)
  else match s.burnEpoch with
    | (s, true) => (s, none)
    | (s, false) => (s, some St.noResource)

/-- The RPMB key of R464, with which Buckram programs an eMMC and authenticates its accesses (R478). -/
def rpmbKey (ds : Bytes) (g : Nat) : Bytes := kdf ds "KZ-RPMB" [byte g] 32

/-- The attestation seeds of R464. -/
def attSeeds (ds : Bytes) (g : Nat) : Bytes := kdf ds "KZ-ATTEST" [byte g] 96

/-- The body of a report (R477). -/
def State.reportBody (s : State) (who : Caller) (nonce : Bytes) (g : Nat) (ds : Bytes) : Bytes :=
  let f := s.trust.fuses
  let pub := sliceZ (Config.xmssmtPublic (attSeeds ds g)) 0 68
  let rfl' := b2n s.boot.trialSf.isSome + 2 * b2n s.boot.trialBk.isSome + 4 * b2n f.bootLock + 8 * b2n !s.trust.attRpmb
  let caller := match who with
    | .management => 0xFFFFFFFF
    | w => w.owner.word
  toLe 4 0x4B5A4154 ++ toLe 2 1 ++ [byte s.trust.lc, byte s.trust.level] ++ toLe 8 s.ft ++ dsn
    ++ toLe 4 (le s.boot.bkManifest 8 4) ++ toLe 4 (le s.boot.runManifest 8 4) ++ toLe 4 (svOf f.svBk) ++ toLe 4 (svOf f.svSf)
    ++ [byte g, byte rfl', byte Config.stepping, 0] ++ toLe 4 caller ++ sliceZ nonce 0 32
    ++ (s.trust.mr.map fun m => sliceZ m 0 64).flatten ++ pub
    ++ kdf (f.tkKey.getD []) "KZ-ENDORSE" (dsn ++ [byte g] ++ pub) 32 ++ toLe 8 (s.trust.attNext % 2 ^ 40) ++ zeros 4

/-- A new report is signed and held for its caller. An epoch that it uses up is followed at once by the next clear bit (R478). -/
def State.signReport (s : State) (c : Cmd) (who : Caller) (rpmb : Bool) : State × Option Answer :=
  match s.trust.fuses.gen with
  | none => (s, some (Answer.just St.badState))
  | some g =>
    let s := s.refillTokens
    if s.trust.tokens = 0 then (s, some (Answer.just St.rateLimited))
    else match s.signReady rpmb with
      | (s, some e) => (s, some (Answer.just e))
      | (s, none) =>
        let ds := (s.trust.fuses.ds.getD g none).getD []
        let body := s.reportBody who c.pb g ds
        let sig := sliceZ (Config.xmssmtSign (attSeeds ds g) s.trust.attNext (shake256 body 64)) 0 9893
        let h := s.trust.nextHandle
        let ft := s.ft
        let s := s.onTrust fun t => { t with
          tokens := t.tokens - 1, attNext := t.attNext + 1, nextHandle := (h + 1) % 2 ^ 32
          reports := t.reports.filter (fun (w, _, _, _) => w != who) ++ [(who, h, body ++ sig, ft)] }
        let s := if !s.trust.attRpmb && s.trust.attLimit ≤ s.trust.attNext then s.burnEpoch.1 else s
        (s, some { Answer.ok h 10341 with data := (body ++ sig).take 4096 })

/-- Part 1 or 2 of a report that is held. -/
def State.reportPart (s : State) (who : Caller) (h part : Nat) : Answer :=
  match s.trust.reports.find? fun (w, k, _, _) => w == who && k == h with
  | some (_, _, b, ft) =>
    if (part == 1 || part == 2) && s.ft < ft + 1000000000 then { Answer.ok with data := (b.drop (4096 * part)).take 4096 }
    else Answer.just St.badParam
  | none => Answer.just St.badParam

/-- SEC_ATTEST. -/
def doSecAttest (c : Cmd) (s : State) : State := s.bk 0x0A05 c noDeny (c.pbLen == 0 || c.pbLen == 32) false fun who s =>
    if (if c.pbLen = 32 then cmdLe c 16 5 == 0 else (s.reportPart who (cmdLe c 16 4) (cmdByte c 20)).status == St.ok) then none
    else some St.badParam
/-- SEC_ATTEST (R476). -/
def execSecAttest (c : Cmd) (s : State) : Res := .next (doSecAttest c s)

/-- Buckram's part. -/
def bkSecAttest (c : Cmd) (who : Caller) (rpmb : Bool) (s : State) : State :=
  s.bkApply 0x0A05 c who false (c.pbLen == 0 || c.pbLen == 32) false fun s =>
    if c.pbLen = 32 then
      if cmdLe c 16 5 != 0 then (s, some (Answer.just St.badParam)) else s.signReport c who rpmb
    else (s, some (s.reportPart who (cmdLe c 16 4) (cmdByte c 20)))

end Sys2Proof.Machine
end

