-- ==== Sys2Proof/Machine/Boot.lean ====
section
/-! DEFINITION. Boot, images and field update (15_boot_and_update.md): manifests and their checks, the choice of a slot, ROM and
Buckram, pushes, activation, trials and reverts, and the device commands that reset (04 R131). -/

namespace Sys2Proof.Machine

/-! ## Manifests (R420) -/

def mfComponent (b : Bytes) : Nat := byteAt b 6
def mfDevelop (b : Bytes) : Bool := bit (byteAt b 7) 0
def mfProfile (b : Bytes) : Bool := bit (byteAt b 7) 1
def mfSeq (b : Bytes) : Nat := le b 8 4
def mfBlocks (b : Bytes) : Nat := le b 12 4
def mfEntry (b : Bytes) : Nat := le b 16 4
def mfHandover (b : Bytes) : Nat := le b 20 4
def mfSetSv (b : Bytes) : Nat := le b 24 4
def mfMinBk (b : Bytes) : Nat := le b 28 4
def mfKeyIndex (b : Bytes) : Nat := byteAt b 36
def mfPubkey (b : Bytes) : Bytes := sliceZ b 4352 68

/-- The confirmation window in s. -/
def mfConfirm (b : Bytes) : Nat := if le b 32 4 = 0 then 120 else le b 32 4

/-- The most payload blocks of a component. -/
def maxBlocks (comp : Nat) : Nat := if comp = 1 then 8 else 1006

/-- The digest of the signed part. -/
def mfDigest (b : Bytes) : Bytes := shake256 (sliceZ b 0 8192) 64

/-- Check 1 of R427, with the rule of R432 on SET_SV. -/
def mfWellFormed (b : Bytes) (comp : Nat) : Bool :=
  le b 0 4 == 0x4B5A4D46 && le b 4 2 == 1 && mfComponent b == comp && byteAt b 7 < 4
    && 1 ≤ mfBlocks b && mfBlocks b ≤ maxBlocks comp && mfSetSv b ≤ mfSeq b
    && (comp == 0 || (mfHandover b == 0 && mfMinBk b == 0))
    && allZero b 37 11 && allZero b (256 + 4 * mfBlocks b) (4352 - (256 + 4 * mfBlocks b)) && allZero b 4420 3772 && allZero b 11012 54524

/-- Check 2: the key is accepted in a lifecycle state (R422). -/
def mfKeyOk (f : Fuses) (lc : Nat) (b : Bytes) : Bool :=
  let d := shake256 (mfPubkey b) 32
  match lc with
  | 0 | 1 => mfKeyIndex b == 0 && d == Config.romMfgKeyDigest
  | 2 | 3 | 4 => f.fwKey.getD (mfKeyIndex b) none == some d && !f.fwRevoked.getD (mfKeyIndex b) false
  | _ => false

/-- A slot is eligible (R421). -/
def eligible (w : List Bool) : Bool :=
  let on := fun i => w.getD i false
  !on 4 && (!on 0 || on 1) && (!on 2 || on 3)

/-- Checks 1 to 5 of R427 on a manifest: none, or the reason of R433. -/
def mfCheck (f : Fuses) (lc comp : Nat) (b : Bytes) : Option Nat :=
  if !mfWellFormed b comp then some 1
  else if !mfKeyOk f lc b then some 2
  else if !Config.xmssVerify (mfPubkey b) (mfDigest b) (sliceZ b 8192 2820) then some 3
  else if mfSeq b < svOf (if comp = 1 then f.svBk else f.svSf) then some 4
  else if mfDevelop b && lc != 1 && lc != 2 then some 5
  else none

/-- A slot's seven checks; `bkSeq`: SEQ of the running Buckram. A slot without a manifest is malformed. -/
def slotCheck (f : Fuses) (lc comp bkSeq : Nat) (x : ImgSlot) : Option Nat :=
  match x.manifest with
  | none => some 1
  | some b =>
    match mfCheck f lc comp b with
    | some r => some r
    | none => if !eligible x.words then some 6 else if comp = 0 ∧ bkSeq < mfMinBk b then some 7 else none

/-- A payload block as the medium holds it: erased where it was never written. -/
def ImgSlot.block (x : ImgSlot) (i : Nat) : Bytes := ((Tab.get x.payload i).getD (List.replicate 65536 0xFF)).take 65536

/-- Loading a slot (R428) under a manifest: CRC, then the digest; none, or the reason. -/
def ImgSlot.load (x : ImgSlot) (b : Bytes) : Option Nat :=
  let l := (List.range (mfBlocks b)).map fun i => x.block (i + 1)
  if (l.zipIdx).any fun (d, i) => crc32c 0xFFFFFFFF d != le b (256 + 4 * i) 4 then some 8
  else if shake256 l.flatten 64 != sliceZ b 64 64 then some 9
  else Option.none

/-- The SEQ of a slot, 0 without a manifest. -/
def ImgSlot.seq (x : ImgSlot) : Nat := (x.manifest.map mfSeq).getD 0

/-! ## Slots -/

/-- A slot by its TARGET form. -/
def State.imgSlot (s : State) (j : Nat) : ImgSlot := s.boot.slots.getD j ImgSlot.none

/-- A slot changed. -/
def State.onSlot (s : State) (j : Nat) (f : ImgSlot → ImgSlot) : State := s.onBoot fun b => { b with slots := modAt b.slots j f }

/-- The source of a component. -/
def State.sourceOf (s : State) (comp : Nat) : Nat := if comp = 1 then s.boot.sourceBk else s.boot.source

/-- The first block of a slot in the push area, which the four slots fill (R419; log 18), and the number of its last block. -/
def pushFirst (j : Nat) : Nat := [0, 1008, 2016, 2032].getD j 0
def slotLast (j : Nat) : Nat := if j / 2 = 1 then 15 else 1007

/-- A block of a pushed slot written to the push area, region 9, once Buckram has placed it (R419 R425). -/
def State.pushBlock (s : State) (j n : Nat) (b : Bytes) : State :=
  if s.sourceOf (j / 2) < 2 then s else s.areaWrite 9 (65536 * (pushFirst j + n)) b

/-- The state record of a slot as its medium holds it (R421). -/
def recordBytes (w : List Bool) : Bytes := (List.range 5).flatMap fun i => toLe 4 (if w.getD i false then 0 else 0xFFFFFFFF)

/-- A word of a slot's state record programmed. -/
def State.program (s : State) (j w : Nat) : State :=
  let s := s.onSlot j fun x => { x with words := (List.range 5).map fun i => x.words.getD i false || i == w }
  s.pushBlock j (slotLast j) (recordBytes (s.imgSlot j).words)

/-- The lines of a pushed slot in the push area return its data; reading it meets their errors (14 R399 R404). -/
def State.pushReadable (s : State) (j : Nat) : Bool :=
  s.sourceOf (j / 2) < 2 || (s.dram.poison ++ (s.dram.faults.filter (·.2 == .bad)).map (·.1)).all fun k =>
    match s.deviceAddr (k / 2 ^ 34) (k % 2 ^ 34 * 64) with
    | some (9, r, a) => let n := (a - r.base) / 65536; decide (n < pushFirst j ∨ pushFirst j + slotLast j < n)
    | _ => true
def State.readPush (s : State) (j : Nat) : State :=
  if s.sourceOf (j / 2) < 2 then s else s.areaMeet 9 (65536 * pushFirst j) (65536 * (slotLast j + 1))

/-- What a medium gives where its blocks have changed since they were written (R429 R439). -/
def State.reread (s : State) (j : Nat) (changed : List (Nat × Bytes)) : State :=
  if s.sourceOf (j / 2) < 2 then changed.foldl (fun s (n, b) => s.onSlot j fun x => { x with payload := Tab.set x.payload n b }) s else s

/-- A state word is programmed. -/
def ImgSlot.word (x : ImgSlot) (w : Nat) : Bool := x.words.getD w false

/-- A record of R433. -/
def State.bootLog (s : State) (kind seq source slot reason : Nat) : State :=
  s.logRecord kind [(8, toLe 4 seq), (17, [byte source, byte slot, byte reason])]

/-- The SEQ of the running Buckram. -/
def State.bkSeq (s : State) : Nat := mfSeq s.boot.bkManifest

/-- Where a slot lies on a medium: its area, its first block, and the number within it of its last block, which holds the state record
(R419). -/
def slotPlace (source j : Nat) : Nat × Nat × Nat :=
  match source, j with
  | 0, 0 => (0, 0x20, 1007)
  | 0, 1 => (0, 0x410, 1007)
  | 0, 2 => (0, 0, 15)
  | 0, _ => (0, 0x10, 15)
  | _, 0 => (0, 0, 1007)
  | _, 1 => (0, 0x400, 1007)
  | _, 2 => (1, 0, 15)
  | _, _ => (2, 0, 15)

/-- The four slots that the blocks of a medium hold; a block not listed is erased (R419 R421). -/
def mediaSlots (source : Nat) (l : List (Nat × Nat × Bytes)) : List MediaSlot :=
  (List.range 4).map fun j =>
    let (area, first, last) := slotPlace source j
    let get := fun k => (l.find? fun (a, n, _) => a == area && n == first + k).map fun (_, _, b) => b
    { manifest := get 0
      payload := (List.range (last - 1)).filterMap fun k => (get (k + 1)).map fun b => (k + 1, b)
      words := (List.range 5).map fun i => (get last).any fun b => le b (4 * i) 4 == 0 }

/-- What a programmer outside the device has put on the media since it last booted. -/
def State.takeMedia (s : State) (media : List Medium) : State :=
  media.foldl (fun s m => match m.blocks with
    | some l => s.onBoot fun b => { b with store := b.store.set m.source (mediaSlots m.source l) }
    | none => s) s

/-- The slots of a component taken from a medium; none has passed R428 yet. -/
def State.takeSlots (s : State) (comp : Nat) (m : Medium) : State :=
  let l := (s.boot.store.get m.source).getD []
  (List.range 2).foldl (fun s k =>
    match l[2 * comp + k]? with
    | none => s.onSlot (2 * comp + k) fun _ => ImgSlot.none
    | some x =>
      s.onSlot (2 * comp + k) fun _ => { ImgSlot.none with manifest := x.manifest, payload := x.payload, words := x.words }) s

/-- The first of the slots that loads, which is VERIFIED (R437); each that does not is logged. -/
def State.firstLoaded (s : State) (comp : Nat) : List Nat → State × Option Nat
  | [] => (s, none)
  | j :: l =>
    let x := s.imgSlot j
    match x.load (x.manifest.getD []) with
    | none => (s.onSlot j fun x => { x with verified := true }, some j)
    | some r => (s.bootLog 16 x.seq (s.sourceOf comp) j r).firstLoaded comp l

/-- The slot of a component that is loaded from a source's two slots (R427 R428). -/
def State.chooseImage (s : State) (comp : Nat) (readOk : Bool) : State × Option Nat :=
  let a := 2 * comp
  let bad := fun (s : State) (j : Nat) =>
    if !readOk then some 10 else slotCheck s.trust.fuses s.trust.lc comp s.bkSeq (s.imgSlot j)
  let s0 := s
  let s := [a, a + 1].foldl (fun s j => match bad s0 j with
    | some r => s.bootLog 16 (s0.imgSlot j).seq (s0.sourceOf comp) j r
    | none => s) s
  let good := [a, a + 1].filter fun j => (bad s0 j).isNone
  match good with
  | [_, _] =>
    let qa := (s.imgSlot a).seq
    let qb := (s.imgSlot (a + 1)).seq
    if qa = qb then (s.bootLog 17 qa (s.sourceOf comp) a 0).firstLoaded comp [a, a + 1]
    else s.firstLoaded comp (if qa < qb then [a + 1, a] else [a, a + 1])
  | l => s.firstLoaded comp l

/-! ## The order of sources (R417 R418) -/

/-- The order that three bits give. -/
def sourceOrder (v : Nat) : List Nat :=
  match v % 8 with
  | 1 => [1, 0, 2, 3]
  | 2 => [0, 2, 3]
  | 3 => [1, 2, 3]
  | 4 => [2, 3]
  | 5 => [3]
  | 6 => [0, 1]
  | _ => [0, 1, 2, 3]

/-- The order in force. -/
def State.bootOrder (s : State) : List Nat :=
  sourceOrder (if s.trust.fuses.bootLock then s.trust.fuses.bootOrder else s.pins.straps.bootSel)

/-- HP0 has trained. -/
def State.hostPresent (s : State) : Bool := (((s.hostPort 0).subLinks.head?).map (·.up)).getD false

/-- A source is skipped as absent. -/
def State.sourceAbsent (s : State) (x : Nat) : State :=
  if s.boot.probed.contains x then s else s.bootLog 18 0 x 0 1

/-! ## Starting Buckram (R423, 17 R474 R478) -/

/-- The signing state of a boot in PRODUCTION (17 R478): RPMB where it can be kept there, else the next epoch. -/
def State.attestBoot (s : State) : State :=
  match s.trust.lc, s.trust.fuses.gen with
  | 3, some g =>
    let fusesKept := bit s.trust.fuses.attStore g
    match s.trust.attRpmb && !fusesKept, s.trust.rpmb with
    | true, none => s.onTrust fun t => { t with rpmb := some (g, 0), attNext := 0, attLimit := 0 }
    | true, some (g', n) =>
      if g' = g then s.onTrust fun t => { t with attNext := n, attLimit := n }
      else ((s.onTrust fun t => { t with attRpmb := false }).onFuses fun f => { f with attStore := f.attStore ||| 2 ^ g }).burnEpoch.1
    | false, _ => ((s.onTrust fun t => { t with attRpmb := false }).onFuses fun f => { f with attStore := f.attStore ||| 2 ^ g }).burnEpoch.1
  | _, _ => s

/-- Buckram starts from a slot that has been loaded. -/
def State.startBuckram (s : State) (j : Nat) : State :=
  let x := s.imgSlot j
  let b := x.manifest.getD []
  let s := if x.word 3 then s else s.program j 2
  let osc := s.time.osc
  let s := s.onBoot fun z => { z with
    stage := .buckram, runBk := j, bkManifest := b, probed := [], probeFrom := osc
    bkImage := (List.range (mfBlocks b)).map (fun i => x.block (i + 1)), bkEntry := mfEntry b }
  let s := (s.extendMr 1 (mfDigest b)).attestBoot
  let k := sliceZ (Config.random32 s.free) 0 32
  let s := (s.onCy fun y => { y with kek := some k }).useFree
  let order := s.bootOrder
  s.onBoot fun z => { z with left := order }

/-- A component's slots become push slots, empty. -/
def State.pushSlots (s : State) (comp src : Nat) : State :=
  let s := s.onBoot fun z => if comp = 1 then { z with sourceBk := src } else { z with source := src }
  (s.onSlot (2 * comp) fun _ => ImgSlot.none).onSlot (2 * comp + 1) fun _ => ImgSlot.none

/-- Every source has failed: boot recovery. -/
def State.enterRecovery (s : State) (comp : Nat) : State :=
  let s := (s.pushSlots comp 3).bootLog 19 0 3 0 0
  (s.onBoot fun z => { z with stage := .recovery (comp == 0), left := [] }).openWaiting

/-- A push source is tried (R431). -/
def State.tryPush (s : State) (comp src : Nat) (rest : List Nat) : State :=
  let till := s.ft + 10000000000
  ((s.pushSlots comp src).onBoot fun z => { z with stage := .push src till (comp == 0), left := rest }).openWaiting

/-- The sources of a component tried in order; `go` starts the slot chosen. -/
def State.trySources (s : State) (comp : Nat) (media : List Medium) (go : State → Nat → State) : List Nat → State
  | [] => s.enterRecovery comp
  | x :: rest =>
    if x = 2 then (if s.hostPresent then s.tryPush comp 2 rest else (s.sourceAbsent 2).trySources comp media go rest)
    else if x = 3 then s.tryPush comp 3 rest
    else match media.find? (fun m => m.source == x && m.present && !s.boot.probed.contains x) with
      | none => (s.sourceAbsent x).trySources comp media go rest
      | some m =>
        let s := s.onBoot fun z => if comp = 1 then { z with sourceBk := x } else { z with source := x }
        let s := s.takeSlots comp m
        match s.chooseImage comp m.readOk with
        | (s, some j) => go s j
        | (s, none) => (s.bootLog 18 0 x 0 2).trySources comp media go rest

/-! ## ROM (R423 R424) -/

/-- The first steps of ROM: fuses, straps, FT from 0, the debug level, MR0 and MR3, and the clocks found absent. -/
def State.romStart (s : State) (straps : Straps) (emmc : Bool) : State :=
  let s := s.onPins fun p => { p with straps := straps, sysRst := false }
  let s := (s.onTime fun t => { t with ft := 0, frac := 0, rem := 0 }).onPower s.railsPower
  let s := s.coresIdle
  let osc := s.time.osc
  let s := s.onBoot fun z => { z with probeFrom := osc }
  let lc := s.trust.fuses.lcCode
  let s := s.onTrust fun t => { t with lc := lc, level := initialLevel lc, attRpmb := emmc }
  let s := (s.extendMr 0 Config.romDigest).extendMr3
  let s := ((s.pinFollow 1 (!s.pins.hrefclk.getD 0 true)).pinFollow 2 (!s.pins.hrefclk.getD 1 true)).pinFollow 3 (!s.pins.clkIn)
  let s := if s.pins.sysclk then s else (s.pinFault 0).logRecord 36 [(8, [0])]
  (List.range 2).foldl (fun s p =>
    if (s.hostPort p).perst || s.power.dev != .run then s else s.portStart p) s

/-- ROM runs at the release of device reset; above the thermal limit the release is held (19 R523). Its first step is the start of ROM, while
HP0 trains and the media are probed; the next tries the sources (log 18). -/
def doRomBoot (straps : Straps) (media : List Medium) (s : State) : State :=
  if s.boot.stage != .rom || s.fatal || s.power.dev == .off || s.pins.heldReset || s.pins.thermTrip then s
  else if 100 ≤ s.power.tj then s.onPins fun p => { p with heldReset := true, sysRst := false }
  else if !s.romBegan then
    let s := s.romStart straps (media.any fun m => m.source == 1 && m.present)
    if s.trust.lc = 5 then s.onBoot fun z => { z with stage := .retired } else s
  else if !s.pins.sysclk then s
  else (s.takeMedia media).trySources 1 media (fun s j => s.startBuckram j) s.bootOrder

/-- ROM_BOOT (R423). -/
def execRomBoot (straps : Straps) (media : List Medium) (s : State) : Res := .next (doRomBoot straps media s)

/-- A medium has not been found within its probe time: 1 ms for X, 100 ms for E. The search for the next begins. -/
def doBootSourceProbeTimeout (x : Nat) (s : State) : State :=
  if s.fatal || !((s.boot.stage == .rom && s.romBegan) || s.boot.stage == .buckram) || 2 ≤ x || s.boot.probed.contains x
     || !s.bootOrder.contains x || s.time.osc < s.boot.probeFrom + (if x = 0 then 1000000 else 100000000) then s
  else
    let osc := s.time.osc
    (s.bootLog 18 0 x 0 1).onBoot fun z => { z with probed := z.probed ++ [x], probeFrom := osc }

/-- BOOT_SOURCE_PROBE_TIMEOUT (R416). -/
def execBootSourceProbeTimeout (source : Nat) (s : State) : Res := .next (doBootSourceProbeTimeout source s)

/-! ## Buckram's boot (R425) -/

/-- A region placed under a number of its own. -/
def State.placeRegion (s : State) (k : Nat) (local3 : Option Nat) (o : RegionOwner) (used : Nat) : State :=
  match s.newRegion local3 o used with
  | none => s
  | some (t, i) =>
    match t.dram.regions.get i with
    | none => s
    | some r => t.onDram fun d => { d with regions := (d.regions.del i).set k { r with checked := o != .code } }

/-- The number of a code region. -/
def codeRegionNo (k : Nat) : Nat := if k = 0 then 0 else 8

/-- A tile's three channels have trained. -/
def State.tileTrained (s : State) (t : Nat) : Bool := (regionChans (some t)).all fun c => 0 < s.channelCap c

/-- The regions of boot (log 31): code 0 and 8, the push area 9, the handover area 10, connection state 1, window descriptors 2, keys 3,
response areas 4 to 7, isolation data 11 and firmware data 12 (14 R403). -/
def State.placeRegions (s : State) (t : Nat) : State :=
  let s := s.placeRegion 0 (some t) .code (64 * 2 ^ 20)
  let s := s.placeRegion 8 (some t) .code (64 * 2 ^ 20)
  let s := s.placeRegion 9 (some t) .push (128 * 2 ^ 20)
  let s := s.placeRegion 10 (some t) .handover (32 * 2 ^ 20)
  let s := s.placeRegion 1 none .device (128 * 2 ^ 20)
  let s := s.placeRegion 2 none .secure (128 * 2 ^ 20)
  let s := s.placeRegion 3 none .secure (130 * 2 ^ 20)
  let s := (List.range 4).foldl (fun s k => s.placeRegion (4 + k) (some k) .device (128 * 2 ^ 20)) s
  let s := s.placeRegion 11 (some t) .secure (64 * 2 ^ 20)
  s.placeRegion 12 (some t) .device (64 * 2 ^ 20)

/-- The copy in a code region has been checked, or has yet to be (R429). -/
def State.codeChecked (s : State) (k : Nat) (ok : Bool) : State :=
  s.onDram fun d => { d with regions := d.regions.mod (codeRegionNo k) fun r => { r with checked := ok } }

/-- The checked payload copied into a code region (R429), and the base of the region. -/
def State.loadCode (s : State) (j k : Nat) : State × Nat :=
  let x := s.imgSlot j
  match s.dram.regions.get (codeRegionNo k) with
  | none => (s, 0)
  | some r =>
    ((List.range (mfBlocks (x.manifest.getD []))).foldl (fun s i =>
      (s.pokeBytes (r.base + 65536 * i) (x.block (i + 1))).cleanLines (r.base + 65536 * i) 65536) s |>.codeChecked k true, r.base)

/-- The host port profiles of a manifest: held, and in force on a port that waits for one. -/
def State.holdProfiles (s : State) (b : Bytes) : State :=
  (List.range 2).foldl (fun s p =>
    let l := if mfProfile b then profileOf (sliceZ b (128 + 64 * p) 64) else defaultProfile
    let s := if profileOk (s.subLinks p) l then s else s.bootLog 24 (mfSeq b) s.boot.source s.boot.runSf 0
    let s := s.onHostPort p fun q => { q with verified := some l }
    let q := s.hostPort p
    if q.deassertedAt.isSome && q.profile.isNone then s.installProfile p l else s) s

/-- The previous image of a trial opened at boot: the other slot of the source, where it is eligible and loads (R442). -/
def State.previousImage (s : State) (j : Nat) : State :=
  let o := j ^^^ 1
  let x := s.imgSlot o
  let k := 1 - s.boot.codeRegion
  match slotCheck s.trust.fuses s.trust.lc 0 s.bkSeq x, x.manifest with
  | none, some b =>
    if (x.load b).isNone then
      (((s.loadCode o k).1).onSlot o fun x => { x with verified := true }).onBoot fun z => { z with prevManifest := some b }
    else s
  | _, _ => s

/-- A window in ns of FT: the command's, or the manifest's. -/
def windowNs (w : Nat) (b : Bytes) : Nat := (if w = 0 then mfConfirm b else w) * 1000000000

/-- Service firmware starts from a slot that has been checked: its code, TRIED, the profiles, the cores, SF_READY, and the
trials that open (R425 R441 R443); `w`: the confirmation window of an activation. -/
def State.startSf (s : State) (j w : Nat) : State :=
  let x := s.imgSlot j
  let b := x.manifest.getD []
  let trial := !x.word 3
  let bk := s.imgSlot s.boot.runBk
  let s := if trial then s.program j 2 else s
  let (s, base) := s.loadCode j s.boot.codeRegion
  let s := s.onBoot fun z => { z with stage := .running, runSf := j, runManifest := b, prevManifest := none, probed := [] }
  let s := (s.holdProfiles b).extendMr 2 (mfDigest b)
  let s := s.onCores fun c => { c with entry := base + mfEntry b }
  let s := (List.range 4).foldl (fun s t => s.tileCores t) s
  let ft := s.ft
  let bkb := s.boot.bkManifest
  let s := s.onBoot fun z => { z with
    trialSf := if trial then some (ft + windowNs w b) else none
    trialBk := if bk.word 2 && !bk.word 3 then some (ft + windowNs 0 bkb) else none }
  let s := (s.onCmd fun m => { m with sfReady := true, paused := false }).sendWaiting.openWaiting
  if trial then s.previousImage j else s

/-- Buckram's boot, once DRAM has trained on the main rails. -/
def doBuckramBoot (media : List Medium) (s : State) : State :=
  if s.fatal || s.boot.stage != .buckram || !s.dram.done || !s.pins.mainPwrOk || s.power.dev != .run then s
  else match (List.range 4).find? s.tileTrained with
    | none => ((s.bootLog 25 0 s.boot.sourceBk 0 0).bootLog 19 0 s.boot.sourceBk 0 0).onBoot fun z =>
        { z with stage := .recovery true, refused := true }
    | some t =>
      let s := (s.placeRegions t).onBoot fun z => { z with codeRegion := 0, refused := false }
      (s.takeMedia media).trySources 0 media (fun s j => s.startSf j 0) s.boot.left

/-- BUCKRAM_BOOT (R425). -/
def execBuckramBoot (media : List Medium) (s : State) : Res := .next (doBuckramBoot media s)

/-- A push source without an activation for 10 s. -/
def doPushTimeout (s : State) : State :=
  match s.boot.stage with
  | .push src till sf =>
    if s.fatal || s.ft < till then s
    else
      let s := s.bootLog 18 0 src 0 3
      if sf then s.trySources 0 [] (fun s j => s.startSf j 0) s.boot.left
      else s.trySources 1 [] (fun s j => s.startBuckram j) s.boot.left
  | _ => s

/-- PUSH_TIMEOUT (R431). -/
def execPushTimeout (s : State) : Res := .next (doPushTimeout s)

/-! ## Field update (R435 to R438) -/

/-- The component that a push stage tries. -/
def State.pushComp (s : State) : Option Nat :=
  match s.boot.stage with
  | .push _ _ sf | .recovery sf => some (if sf then 0 else 1)
  | _ => none

/-- A component's image runs. -/
def State.compRuns (s : State) (comp : Nat) : Bool :=
  if comp = 0 then s.boot.stage == .running
  else match s.boot.stage with
    | .rom | .retired | .push _ _ false | .recovery false => false
    | _ => true

/-- A slot is active: its image runs. -/
def State.slotActive (s : State) (j : Nat) : Bool :=
  s.compRuns (j / 2) && j == (if j / 2 = 0 then s.boot.runSf else s.boot.runBk)

/-- A trial is open. -/
def State.trialOpen (s : State) : Bool := s.boot.trialSf.isSome || s.boot.trialBk.isSome

/-- The slot entry of FW_INFO. -/
def State.slotInfo (s : State) (j : Nat) : Bytes :=
  let x := s.imgSlot j
  let ok := (slotCheck s.trust.fuses s.trust.lc (j / 2) s.bkSeq x).isNone
  toLe 4 x.seq ++ [byte (b2n ok + 2 * b2n x.verified + 4 * b2n x.writing),
    byte ((List.range 5).map fun i => 2 ^ i * b2n (x.word i)).sum] ++ toLe 2 x.received.length ++ zeros 8

/-- The 96 bytes of FW_INFO. The slot of a component that does not run is free. -/
def State.fwInfo (s : State) : Bytes :=
  let f := s.trust.fuses
  let free := s.freeVal % 256
  let left := match s.boot.trialBk.orElse fun _ => s.boot.trialSf with
    | some t => (t - s.ft) / 1000000
    | none => 0
  [byte (if s.compRuns 0 then s.boot.runSf else free), byte (if s.compRuns 1 then s.boot.runBk else free),
    byte (s.boot.source + 4 * s.boot.sourceBk), byte (b2n s.boot.trialSf.isSome + 2 * b2n s.boot.trialBk.isSome)]
    ++ toLe 4 (svOf f.svSf) ++ toLe 4 (svOf f.svBk) ++ toLe 4 left ++ zeros 16 ++ ((List.range 4).map s.slotInfo).flatten

/-- FW_INFO. -/
def doFwInfo (c : Cmd) (s : State) : State :=
  s.sf 0x0901 c noDeny true false fun _ s => (s.useFree, some { Answer.ok with data := s.fwInfo })

/-- FW_INFO (R435). -/
def execFwInfo (c : Cmd) (s : State) : Res := .next (doFwInfo c s)

/-- The descriptor of a block that a ring's FW_WRITE names. -/
def fwDescOk (c : Cmd) : Bool :=
  !isRing c.src || ((cmdRbufDesc c).len == 65536 && fragFlOk c.params 16 && !(cmdRbufDesc c).dev)

/-- FW_WRITE: the held manifest outlives FW_VERIFY, so that a payload block may be written again after it, which clears VERIFIED and takes the
manifest off the medium until the next FW_VERIFY (R436 R437; DEDUCED, log 18). `pbErr` is how the read of the block or the access to the medium failed (log 18). -/
def State.fwWrite (s : State) (c : Cmd) : State × Answer :=
  let j := c.target.toNat
  let n := cmdLe c 16 4
  let x := s.imgSlot j
  let readErr := match c.pbErr with
    | some e => e != St.mediaErr
    | none => c.data.length != 65536
  if cmdRbuf c || !fwDescOk c then (s, Answer.just St.badParam)
  else if readErr then (s, Answer.just (c.pbErr.getD St.badLength))
  else if c.pbErr.isNone && crc32c 0xFFFFFFFF c.data != cmdLe c 20 4 then (s, Answer.just St.crcErr)
  else if j < 2 && s.trialOpen then (s, Answer.just St.fwPending)
  else if s.slotActive j || (s.pushComp.any fun k => k != j / 2) then (s, Answer.just St.badState)
  else if n = 0 then
    if c.pbErr.isSome then (s, Answer.just St.mediaErr)
    else
      let s := s.onSlot j fun x => { x with
        manifest := none, words := [], writing := true, verified := false, held := some c.data, received := [] }
      ((s.pushBlock j 0 (List.replicate 65536 0xFF)).pushBlock j (slotLast j) (recordBytes []), Answer.ok)
  else match x.held with
    | none => (s, Answer.just St.badState)
    | some b =>
      if mfBlocks b < n || maxBlocks (j / 2) < n then (s, Answer.just St.badParam)
      else if c.pbErr.isSome then (s, Answer.just St.mediaErr)
      else
        let got := if x.received.contains n then x.received else x.received ++ [n]
        ((s.onSlot j fun x => { x with
          manifest := none, payload := Tab.set x.payload n c.data, received := got
          writing := true, verified := false }).pushBlock j n c.data, Answer.ok got.length)

/-- FW_WRITE. -/
def doFwWrite (c : Cmd) (s : State) : State :=
  s.sf 0x0902 c noDeny true false fun _ s => let (s, a) := s.fwWrite c; (s, some a)

/-- FW_WRITE (R436). -/
def execFwWrite (c : Cmd) (s : State) : Res := .next (doFwWrite c s)

/-- The status of a check of R427 or R428 that fails (R437; of checks 6 and 7, at the activation of a push, log 18). -/
def fwStatus : Nat → Nat
  | 1 => St.badParam
  | 2 | 3 => St.sigInvalid
  | 4 => St.rollback
  | 5 => St.lifecycle
  | 6 | 7 => St.badState
  | 8 | 9 => St.crcErr
  | _ => St.mediaErr

/-- FW_VERIFY. -/
def doFwVerify (c : Cmd) (s : State) : State := s.bk 0x0903 c noDeny true false
/-- FW_VERIFY (R437). -/
def execFwVerify (c : Cmd) (s : State) : Res := .next (doFwVerify c s)

/-- Buckram's part. `changed`: the blocks that the medium gives otherwise than they were written. -/
def bkFwVerify (c : Cmd) (who : Caller) (media : Bool) (changed : List (Nat × Bytes)) (s : State) : State :=
  s.bkApply 0x0903 c who false true false fun s =>
    let j := c.target.toNat
    match (s.imgSlot j).held with
    | none => (s, some (Answer.just St.badState))
    | some b =>
      if (s.imgSlot j).received.length < mfBlocks b then (s, some (Answer.just St.badState))
      else if !media || !s.pushReadable j then (s.readPush j, some (Answer.just St.mediaErr))
      else
      let s := (s.readPush j).reread j changed
      let x := s.imgSlot j
      match mfCheck s.trust.fuses s.trust.lc (j / 2) b with
        | some r => (s, some (Answer.just (fwStatus r)))
        | none => match x.load b with
          | some r => (s, some (Answer.just (fwStatus r)))
          | none =>
            (((s.onSlot j fun x => { x with manifest := some b, verified := true, writing := false }).program j 0).pushBlock j 0 b,
              some (Answer.ok (mfSeq b)))

/-- FW_ABORT. -/
def doFwAbort (c : Cmd) (s : State) : State :=
  s.sf 0x0906 c noDeny true false fun _ s =>
    let j := c.target.toNat
    if (s.imgSlot j).writing then
      (s.onSlot j fun x => { x with manifest := none, writing := false, held := none, received := [] }, some Answer.ok)
    else (s, some (Answer.just St.badState))

/-- FW_ABORT (R438). -/
def execFwAbort (c : Cmd) (s : State) : Res := .next (doFwAbort c s)

/-! ## Reverts (R442 R443) and hung cores (12 R354) -/

/-- The pause of a revert begins: the previous image takes over from the trial image. -/
def State.startRevert (s : State) : State :=
  if s.boot.activation.isSome then s
  else if s.boot.prevManifest.isNone then
    let s := s.bootLog 26 (s.imgSlot s.boot.runSf).seq s.boot.source s.boot.runSf 0
    let s := s.raise (sourceNo 6 16) s.boot.runSf 0 .dev
    s.onBoot fun z => { z with trialSf := none }
  else
    let osc := s.time.osc
    let s := s.program s.boot.runSf 4
    let a : Activation := { slot := s.boot.runSf ^^^ 1, cmd := none, startedAt := osc, ready := true, pauseAt := osc, window := 0, revert := true
                            manifest := s.boot.prevManifest.getD [] }
    let s := s.onBoot fun z => { z with activation := some a }
    s.onCmd fun m => { m with paused := true }

/-- A Buckram trial ends unconfirmed: its slot is superseded, and the device resets. -/
def State.revertBuckram (s : State) : State :=
  let j := s.boot.runBk
  let s := (s.program j 4).bootLog 21 (s.imgSlot j).seq s.boot.sourceBk j 0
  s.deviceReset s.pins.straps

/-- The open trial reverts; a Buckram trial takes precedence. -/
def State.revertTrial (s : State) : State :=
  if s.boot.trialBk.isSome then s.revertBuckram else if s.boot.trialSf.isSome then s.startRevert else s

/-- Buckram acts on a hung core; during a pause, after it (R440). -/
def State.coreHung (s : State) (core cause : Nat) : State :=
  match s.core core with
  | none => s
  | some k =>
    if k.hung then s
    else if s.cmd.paused then s.onBoot fun z => { z with
      hungPend := if z.hungPend.any (fun (c, _) => c == core) then z.hungPend else z.hungPend ++ [(core, cause)] }
    else
      let pc := ((s.thread (core * 8)).map (·.pc)).getD 0
      let tid := core * 8
      let s := s.stopCore core
      let s := s.logRecord 32 [(8, toLe 2 tid ++ [byte cause]), (24, toLe 8 pc)]
      let s := s.raise (sourceNo (core / 32) (640 + core % 32)) noObject (tid + cause * 65536) .sec
      (s.coreSettle core).revertTrial

/-- The deadline of a trial has passed. -/
def doTrialDeadline (s : State) : State :=
  if s.fatal then s
  else if s.boot.trialBk.any fun t => t ≤ s.ft then s.revertBuckram
  else if s.boot.trialSf.any fun t => t ≤ s.ft then s.startRevert
  else s

/-- TRIAL_DEADLINE (R442 R443). -/
def execTrialDeadline (s : State) : Res := .next (doTrialDeadline s)

/-! ## Activation (R439 R440) -/

/-- The handover threads: thread 7 of core 0 of each unparked tile. -/
def State.handoverThreads (s : State) : List Nat := ((List.range 4).filter s.tileUsed).map fun t => t * 256 + 7

/-- FW_ACTIVATE of a service firmware slot while service firmware runs. -/
def State.activateSf (s : State) (c : Cmd) (j : Nat) (media : Bool) (changed : List (Nat × Bytes)) : State × Option Answer :=
  let w := cmdLe c 16 4
  let b := (s.imgSlot j).manifest.getD []
  if s.trialOpen then (s, some (Answer.just St.fwPending))
  else if s.power.op.isSome || s.slotActive j || s.boot.activation.isSome then (s, some (Answer.just St.badState))
  else if !(s.imgSlot j).verified then (s, some (Answer.just St.notVerified))
  else if w != 0 && (w < 10 || 3600 < w) then (s, some (Answer.just St.badParam))
  else
    let ok := media && s.pushReadable j
    let s := ((((s.program j 1).readPush j).reread j changed)).codeChecked (1 - s.boot.codeRegion) false
    match if ok then (s.imgSlot j).load b else some 10 with
    | some r => (s, some (Answer.just (fwStatus r)))
    | none =>
      let s := s.program j 2
      let (s, base) := s.loadCode j (1 - s.boot.codeRegion)
      let s := s.handoverThreads.foldl (fun s k =>
        (s.onThread k fun t => { t with state := .run, remembered := .run, pc := base + mfHandover b }).coreSettle (k / 8)) s
      let osc := s.time.osc
      let a : Activation := { slot := j, cmd := some c, startedAt := osc, ready := false, pauseAt := 0, window := w, revert := false
                              manifest := b }
      (s.onBoot fun z => { z with activation := some a }, none)

/-- FW_ACTIVATE. -/
def doFwActivate (c : Cmd) (s : State) : State := s.bk 0x0904 c noDeny true false (paramCheck (cmdLe c 16 4 == 0 || (10 ≤ cmdLe c 16 4 && cmdLe c 16 4 ≤ 3600)))
/-- FW_ACTIVATE (R439 R443). -/
def execFwActivate (c : Cmd) (s : State) : Res := .next (doFwActivate c s)

/-- A push slot that is activated passes R427 to R429 again: none, or the reason of R433 (R431). -/
def State.pushCheck (s : State) (j : Nat) : Option Nat :=
  let x := s.imgSlot j
  match slotCheck s.trust.fuses s.trust.lc (j / 2) s.bkSeq x with
  | some r => some r
  | none => if s.pushReadable j then x.load (x.manifest.getD []) else some 10

/-- Buckram's part, or ROM's: in a push stage the activation chooses the image, which then starts (R431). -/
def bkFwActivate (c : Cmd) (who : Caller) (media : Bool) (changed : List (Nat × Bytes)) (s : State) : State :=
  s.bkApply 0x0904 c who false true false fun s =>
    let j := c.target.toNat
    let x := s.imgSlot j
    let w := cmdLe c 16 4
    match s.pushComp with
    | some k =>
      if k != j / 2 then (s, some (Answer.just St.badState))
      else if !x.verified then (s, some (Answer.just St.notVerified))
      else if w != 0 && (w < 10 || 3600 < w) then (s, some (Answer.just St.badParam))
      else
        let s := (s.program j 1).readPush j
        match s.pushCheck j with
        | some r => (s, some (Answer.just (fwStatus r)))
        | none =>
          let s := s.reply 0x0904 c true Answer.ok
          (if k = 0 then s.startSf j w else s.startBuckram j, none)
    | none =>
      if j / 2 = 0 then s.activateSf c j media changed
      else if s.slotActive j then (s, some (Answer.just St.badState))
      else if !x.verified then (s, some (Answer.just St.notVerified))
      else if !media then (s, some (Answer.just St.mediaErr))
      else (s.program j 1, some (Answer.ok 0))

/-- The new image reports ready within 1 s of the command's start: the command pause begins (R439 R440). -/
def doHandoverReady (s : State) : State :=
  match s.boot.activation with
  | none => s
  | some a =>
    if s.fatal || a.ready || a.startedAt + 1000000000 ≤ s.time.osc then s
    else
      let osc := s.time.osc
      (s.onBoot fun z => { z with activation := some { a with ready := true, pauseAt := osc } }).onCmd fun m => { m with paused := true }

/-- HANDOVER_READY (R439). -/
def execHandoverReady (s : State) : Res := .next (doHandoverReady s)

/-- Buckram's own part of the handover record, from the operation contexts (R439; log 13). -/
def State.handoverRecord (s : State) : Bytes :=
  Config.layout 0x1539 (s.cmd.inProgress.flatMap fun x => [match x.src with
    | .ring q => q
    | .mctp t => 65536 + t
    | .jtag => 2 ^ 20, x.opcode, x.target, x.tag])

/-- The first `n` bytes of an area emptied, with the poison of their lines. -/
def State.areaEmpty (s : State) (region n : Nat) : State :=
  let inside := fun (k : Nat) => match s.deviceAddr (k / 2 ^ 40) (k % 2 ^ 40) with
    | some (i, r, a) => i == region && decide (a < r.base + n)
    | none => false
  (s.onMem fun m => m.filter fun (k, _) => !inside k).onDram fun d => { d with
    poison := d.poison.filter fun l => !inside (64 * l), faults := d.faults.filter fun (l, _) => !inside (64 * l) }

/-- The handover record in the handover region: what the old image has written, at most 16 MiB, empty beyond it, and Buckram's part behind
(R439 R440; log 18). -/
def State.handoverWrite (s : State) (state record : Bytes) : State :=
  ((s.areaEmpty 10 (2 ^ 24)).areaWrite 10 0 (state.take (2 ^ 24))).areaWrite 10 (2 ^ 24) (record.take (2 ^ 24))

/-- Step 4 of R439: the state of the old image, the record, and the threads of the new image; then the reply and the trial, or
the end of a revert. The new image writes the replies that the pause held back (04 R129). Cores found hung in the pause are acted on after it. -/
def State.finishHandover (s : State) (a : Activation) (state : Bytes) : State :=
  let record := s.handoverRecord
  let s := s.handoverWrite state record
  let pause := s.time.osc - a.pauseAt
  let old := s.boot.runManifest
  let oldSlot := s.boot.runSf
  let new := a.manifest
  let k := 1 - s.boot.codeRegion
  let base := ((s.dram.regions.get (codeRegionNo k)).map (·.base)).getD 0
  let ft := s.ft
  let hung := s.boot.hungPend
  let s := s.onBoot fun z => { z with
    handover := record, runSf := a.slot, runManifest := new, codeRegion := k, activation := none, hungPend := []
    prevManifest := if a.revert then none else some old
    trialSf := if a.revert then none else some (ft + windowNs a.window new) }
  let s := (s.onCores fun c => { c with entry := base + mfEntry new }).restartThreads
  let s := (s.holdProfiles new).extendMr 2 (mfDigest new)
  let s := (s.onCmd fun m => { m with paused := false }).sendWaiting
  let s := if a.revert then (s.bootLog 21 (s.imgSlot oldSlot).seq s.boot.source oldSlot 0).raise (sourceNo 6 16) oldSlot 0 .dev
    else
      let s := s.bootLog 20 (mfSeq new) s.boot.source a.slot 0
      match a.cmd with
      | some c => s.reply 0x0904 c true (Answer.ok pause)
      | none => s
  hung.foldl (fun s (core, cause) => s.coreHung core cause) s

/-- The old image has written its state within 30 ms of the pause. -/
def doHandoverComplete (state : Bytes) (s : State) : State :=
  match s.boot.activation with
  | none => s
  | some a => if s.fatal || !a.ready || a.pauseAt + 30000000 < s.time.osc then s else s.finishHandover a state

/-- HANDOVER_COMPLETE (R439). -/
def execHandoverComplete (state : Bytes) (s : State) : Res := .next (doHandoverComplete state s)

/-- 30 ms without the old image's state: that part of the record is empty (R440). -/
def doHandoverStateTimeout (s : State) : State :=
  match s.boot.activation with
  | none => s
  | some a => if s.fatal || !a.ready || s.time.osc < a.pauseAt + 30000000 then s else s.finishHandover a []

/-- HANDOVER_STATE_TIMEOUT (R440). -/
def execHandoverStateTimeout (s : State) : Res := .next (doHandoverStateTimeout s)

/-- The new image has not reported ready within 1 s: its threads stop, and the old image runs on. -/
def doActivateTimeout (s : State) : State :=
  match s.boot.activation with
  | none => s
  | some a =>
    if s.fatal || a.ready || s.time.osc < a.startedAt + 1000000000 then s
    else
      let s := s.handoverThreads.foldl (fun s k => ((s.halt k .idle .idle).discardStaging k).coreSettle (k / 8)) s
      let s := s.onBoot fun z => { z with activation := none }
      match a.cmd with
      | some c => s.reply 0x0904 c true (Answer.just St.timeout)
      | none => s

/-- ACTIVATE_TIMEOUT (R440). -/
def execActivateTimeout (s : State) : Res := .next (doActivateTimeout s)

/-! ## Confirmation (R432 R441) -/

/-- A confirmed slot raises the security version of its component. -/
def State.raiseSv (s : State) (j : Nat) : State :=
  let f := s.trust.fuses
  let b := ((s.imgSlot j).manifest).getD []
  let l := if j / 2 = 1 then f.svBk else f.svSf
  if mfSetSv b ≤ svOf l || (s.trust.lc != 2 && s.trust.lc != 3) then s
  else if 64 ≤ l.length then s.bootLog 23 (mfSeq b) (s.sourceOf (j / 2)) j 0
  else
    let s := s.onFuses fun f => if j / 2 = 1 then { f with svBk := f.svBk ++ [mfSetSv b] } else { f with svSf := f.svSf ++ [mfSetSv b] }
    (s.bootLog 22 (mfSeq b) (s.sourceOf (j / 2)) j 0).extendMr3

/-- A trial slot is confirmed: the other slot of the source is superseded where its SEQ is higher. -/
def State.confirm (s : State) (j : Nat) : State :=
  let s := s.program j 3
  let o := j ^^^ 1
  let s := if (s.imgSlot j).seq < (s.imgSlot o).seq then s.program o 4 else s
  s.raiseSv j

/-- FW_HEALTH_CONFIRM. -/
def doFwHealthConfirm (c : Cmd) (s : State) : State := s.bk 0x0905 c noDeny true false
/-- FW_HEALTH_CONFIRM (R441). -/
def execFwHealthConfirm (c : Cmd) (s : State) : Res := .next (doFwHealthConfirm c s)

/-- Buckram's part. -/
def bkFwHealthConfirm (c : Cmd) (who : Caller) (media : Bool) (s : State) : State :=
  s.bkApply 0x0905 c who false true false fun s =>
    if !s.trialOpen || s.boot.activation.isSome then (s, some (Answer.just St.badState))
    else if !media then (s, some (Answer.just St.mediaErr))
    else
      let s := if s.boot.trialSf.isSome then
          (s.confirm s.boot.runSf).onBoot fun z => { z with trialSf := none, prevManifest := none } else s
      let s := if s.boot.trialBk.isSome then
          (s.confirm s.boot.runBk).onBoot fun z => { z with trialBk := none } else s
      (s, some Answer.ok)

/-! ## Device reset by command (04 R131) -/

/-- DEV_RESET. -/
def doDevReset (c : Cmd) (s : State) : State := s.bk 0x0105 c noDeny true false
/-- DEV_RESET (04 R131). -/
def execDevReset (c : Cmd) (s : State) : Res := .next (doDevReset c s)

/-- Buckram's part: the reset is armed. -/
def bkDevReset (c : Cmd) (who : Caller) (s : State) : State :=
  s.bkApply 0x0105 c who false true false fun s =>
    let t := nextRebalance s.ft
    (s.onPins fun p => { p with resetArmed := some (p.resetArmed.getD (t, false)) }, some Answer.ok)

/-- The armed rebalance point: the reset begins, or is held above the thermal limit (19 R523). ROM then runs. -/
def doDeviceResetBegin (straps : Straps) (s : State) : State :=
  match s.pins.resetArmed with
  | none => s
  | some (t, held) =>
    if held || !s.dueAt t s.onRebalance then s
    else if 100 ≤ s.power.tj then s.onPins fun p => { p with resetArmed := some (t, true), heldReset := true }
    else s.deviceReset straps

/-- DEVICE_RESET_BEGIN (04 R131). -/
def execDeviceResetBegin (straps : Straps) (s : State) : Res := .next (doDeviceResetBegin straps s)

/-- A reset held above the thermal limit proceeds below it. -/
def doHeldResetRelease (tj : Nat) (straps : Straps) (s : State) : State :=
  let s := s.onPower fun p => { p with tj := tj }
  if !s.pins.heldReset || 100 ≤ tj then s
  else if s.pins.resetArmed.isSome then s.deviceReset straps
  else s.onPins fun p => { p with heldReset := false, straps := straps }

/-- HELD_RESET_RELEASE (19 R523). -/
def execHeldResetRelease (tj : Nat) (straps : Straps) (s : State) : Res := .next (doHeldResetRelease tj straps s)

end Sys2Proof.Machine
end

