-- ==== Sys2Proof/Machine/Power.lean ====
section
/-! DEFINITION. Power domains, device power states, parking and unparking tiles, the power cap and the thermal limits
(16_power_and_capacity.md). -/

namespace Sys2Proof.Machine

/-- Frames dropped at the drain limit of a park (R453), one word for each tile. -/
def Ct.parkDrop : Nat := 67

/-- Domains 0 to 25 of a tile (R444). -/
def tileDomains (t : Nat) : Nat := (2 ^ 26 - 1) * 2 ^ (30 * t)

/-- A tile's state changed. -/
def State.setTile (s : State) (t : Nat) (x : TileState) : State := s.onClocks fun p => { p with tiles := modAt p.tiles t fun _ => x }

/-! ## Parking: acceptance (R451) -/

/-- A tile of the rest that a moved object may take. -/
def State.otherTiles (s : State) (t : Nat) : List Nat := (List.range 4).filter fun k => k != t && s.tileUsed k

/-- The DMA_CH queues homed on a tile find channels elsewhere; one that a waiting QUEUE_MOVE has bound to a channel there has it already
(11 R315). -/
def State.dmaPlaceable (s : State) (t : Nat) : Bool :=
  (s.qm.queues.filter fun (k, q) => q.cls == .dmaCh && q.home == t
      && !s.dma.any fun (j, x) => x.qid == k && (s.otherTiles t).contains (j / 256)).length ≤
    ((s.otherTiles t).map fun k => ((List.range 256).filter fun i => !s.dma.has (k * 256 + i)).length).sum

/-- The new home of an object moved off a tile, service firmware's choice (log 15): for a DMA queue the tile where a channel is bound for it,
or one with a free channel. -/
def State.moveChoice (s : State) (t k : Nat) (dma : Bool) : Nat :=
  let l := (s.otherTiles t).filter fun x => !dma || (s.dmaFree x).isSome
  let free := l.getD (Config.freeNat (s.free + k) % max 1 l.length) t
  if !dma then free
  else match s.dma.find? fun (j, x) => x.qid == k && (s.otherTiles t).contains (j / 256) with
    | some (j, _) => j / 256
    | none => free

/-- The DMA_CH queues homed on a tile. -/
def State.dmaQueuesOn (s : State) (t : Nat) : List Nat :=
  (s.qm.queues.filter fun (_, q) => q.cls == .dmaCh && q.home == t).map (·.1)

/-- The DMA_CH queues of a tile bind to their channels elsewhere as its park is accepted, so that none is taken from them (11 R315). -/
def State.parkReserve (s : State) (t : Nat) : State :=
  (s.dmaQueuesOn t).foldl (fun s k => s.reserveDma k t (s.moveChoice t k true)) s

/-- A park refused gives those channels up, but for those of a move that waits. -/
def State.parkRelease (s : State) (t : Nat) : State :=
  (s.dmaQueuesOn t).foldl (fun s k => s.reserveDma k t (((s.queue k).bind (·.moveTo)).getD t)) s

/-- The checks of R451. -/
def State.parkCheck (s : State) (t : Nat) : Option Nat :=
  if !s.tileOn t || s.power.op.isSome || s.power.standby.isSome || s.boot.activation.isSome || (s.otherTiles t).isEmpty then some St.badState
  else if s.blk.volumes.any fun (_, v) => v.span == 4 then some St.busySpan
  else if !s.dmaPlaceable t then some St.noResource
  else none

/-- The first rebalance point at least some time after an instant. -/
def rebalanceAfter (t d : Nat) : Nat := roundUp (t + d) 1048576

/-- Service firmware's part at acceptance. -/
def State.parkPart (s : State) (c : Cmd) : State × Option Nat :=
  let t := c.target.toNat
  match s.parkCheck t with
  | some e => (s, some e)
  | none =>
    let at' := rebalanceAfter s.ft 500000
    let o : ParkOp := { tile := t, unpark := false, point := at', passed := false, limit := at' + 200000000, ready := false, cmd := c }
    ((s.parkReserve t).onPower fun p => { p with op := some o }, none)

/-- PW_TILE_PARK: service firmware's part, then Buckram's mailbox. -/
def doPwTilePark (c : Cmd) (s : State) : State := s.bkPart 0x0B01 c noDeny true false fun _ s => s.parkPart c

/-- PW_TILE_PARK (R451). -/
def execPwTilePark (c : Cmd) (s : State) : Res := .next (doPwTilePark c s)

/-- The park or unpark under way is this command's. -/
def State.parkOwn (s : State) (c : Cmd) : Bool :=
  match s.power.op with
  | some o => o.cmd == c
  | none => false

/-- Service firmware's part of a command is undone. -/
def State.parkUndo (s : State) (c : Cmd) : State := if s.parkOwn c then s.onPower fun p => { p with op := none } else s

/-- Buckram's part comes at the power-off; where its checks fail service firmware's part is undone, and where service firmware
did not begin it is begun now (R127). -/
def bkPwTilePark (c : Cmd) (who : Caller) (s : State) : State :=
  if (s.precheck 0x0B01 c who true false true false).isSome then
    ((if s.parkOwn c then s.parkRelease c.target.toNat else s).parkUndo c).bkApply 0x0B01 c who false true false fun s => (s, none)
  else s.bkApply 0x0B01 c who false true false fun s =>
    if s.parkOwn c then (s, none)
    else match s.parkPart c with
      | (s, some e) => (s, some (Answer.just e))
      | (s, none) => (s, none)

/-! ## The park point (R452) -/

/-- Every queue homed on a tile moves, and the frames of the source queues that stand there are carried to the queues' homes. What has
started stays on the tile (R91 R453). -/
def State.moveQueues (s : State) (t : Nat) : State :=
  let l := s.qm.queues.filter fun (_, q) => q.home == t
  let s := l.foldl (fun s (k, q) => s.rehome k (s.moveChoice t k (q.cls == .dmaCh))) s
  s.qm.queues.foldl (fun s (k, q) => s.carrySource k t q.home) s

/-- The cached state of connections within each tile's limit (08 R266): those fetched last stay. -/
def State.trimCached (s : State) : State :=
  s.onKrm fun k => { k with cached := (List.range 4).flatMap fun t =>
    (k.cached.filter fun cid => (s.conn cid).any (·.home == t)).take 16384 }

/-- Every connection homed on a tile moves, and is remembered as moved by this park. Its frames that wait for Calico wait for that of the
new tile. -/
def State.moveConns (s : State) (t : Nat) : State :=
  let l := s.krm.conns.filter fun (_, c) => c.home == t
  let s := s.onPower fun p => { p with away := p.away.filter fun (x, _) => x != t }
  let s := l.foldl (fun s (cid, _) =>
    let h := s.moveChoice t (65536 + cid) false
    let s := (s.onConn cid fun c => { c with home := h }).onPower fun p => { p with away := p.away ++ [(t, cid)] }
    s.onDamask fun d => { d with homePend := d.homePend ++ [(cid, some h)] }) s
  (s.onCy fun y => { y with inlineWork := y.inlineWork.filter fun w => w.tile != t || w.frame.isNone }).trimCached

/-- The indirection tables rewritten so that no entry names a tile. -/
def State.steerAway (s : State) (t : Nat) : State :=
  let s := s.onDamask fun d =>
    let base := d.indPend.getD d.ind
    { d with indPend := some (base.zipIdx.map fun (l, n) => l.zipIdx.map fun (x, i) =>
      if x = t then s.moveChoice t (2 ^ 21 + 512 * n + i) false else x) }
  s.applySteering

/-- The park point: queues, steering, connections and what follows the unparked tiles move together. -/
def doParkPoint (s : State) : State :=
  match s.power.op with
  | none => s
  | some o =>
    if s.fatal || o.unpark || o.passed || !s.dueAt o.point s.onRebalance then s
    else
      let s := ((((s.moveQueues o.tile).moveConns o.tile).steerAway o.tile).killStopped o.tile).onFree (· + 2 ^ 22)
      (s.onPower fun p => { p with op := some { o with passed := true } }).movePolicers.settleCaches

/-- PARK_POINT (R452). -/
def execParkPoint (s : State) : Res := .next (doParkPoint s)

/-! ## Draining and switching off (R453) -/

/-- Frames dropped at a drain limit. -/
def State.parkDropTw (s : State) (t : Nat) (f : TwFrame) : State :=
  let s := (s.count Ct.parkDrop t 0).sampleTw f 6 0 0
  match f.op with
  | some n => s.txEnd n St.timeout 0 s.ft 0 0
  | none => s

/-- The frames of a tile dropped: those in its Twill queues and those in its packet buffer. -/
def State.dropTileFrames (s : State) (t : Nat) : State :=
  let l := s.twill.queues.filter fun q => q.tile == t
  let s := s.onTwill fun w => { w with queues := w.queues.map fun q => if q.tile = t then { q with frames := [] } else q }
  let s := l.foldl (fun s q => q.frames.foldl (fun s f => s.parkDropTw t f) s) s
  let rx := s.twill.frames.filter fun (_, f) => f.tile == t
  rx.foldl (fun s (n, f) => ((s.sampleRec f 6 0 0).count Ct.parkDrop t 0).delFrame n) s

/-- The DMA entries that a tile still runs end with S_TIMEOUT, their reads abandoned. -/
def State.timeoutDma (s : State) (t : Nat) : State :=
  let l := s.dma.filter fun (k, x) => k / 256 == t && x.op.isSome
  l.foldl (fun s (k, x) => (s.killBeats k).dmaFinish k x St.timeout false) s

/-- The KRM reads that a tile still serves are abandoned, and refused as timed out (log 40). -/
def State.timeoutServed (s : State) (t : Nat) : State :=
  s.krm.conns.foldl (fun s (cid, c) => (c.served.filter (·.tile == t)).foldl (fun s r =>
    let s := s.onHost fun h => { h with reads := h.reads.map fun (n, x) =>
      (if x.why = ReadFor.serve cid r.psn then (n, { x with dead := true }) else (n, x)) }
    s.serveDone cid r.psn .timeout) s) s

/-- What a tile still holds at its drain limit is ended. -/
def State.drainEnd (s : State) (t : Nat) : State :=
  let s := ((s.dropTileFrames t).timeoutDma t).timeoutServed t
  let s := s.onCy fun y => { y with inlineWork := y.inlineWork.filter (·.tile != t) }
  let l := (s.qm.ops.filter fun (_, x) => x.tile == t).map (·.1)
  l.foldl (fun s n => s.stopOp n St.timeout) s

/-- The drain limit, of a tile that parks or of those that park for STANDBY (R449). -/
def doParkDrainLimit (s : State) : State :=
  match s.power.op, s.power.standby with
  | some o, _ => if s.fatal || o.unpark || !o.passed || s.ft < o.limit then s else s.drainEnd o.tile
  | none, some (_, limit) => if s.fatal || s.ft < limit then s else (List.range 4).foldl State.drainEnd s
  | none, none => s

/-- PARK_DRAIN_LIMIT (R453). -/
def execParkDrainLimit (s : State) : Res := .next (doParkDrainLimit s)

/-- A tile holds nothing: no operation, no frame, no entry of its DMA channels, no KRM read that it serves, and no inline work of Calico. -/
def State.tileEmpty (s : State) (t : Nat) : Bool :=
  s.krm.conns.all (fun (_, c) => c.served.all fun r => r.tile != t || !r.issued)
    && s.cy.inlineWork.all (fun w => w.tile != t || (w.left == 0 && w.frame.isNone)) &&
  s.qm.ops.all (fun (_, o) => o.tile != t) && s.twill.queues.all (fun q => q.tile != t || q.frames.isEmpty)
    && s.twill.frames.all (fun (_, f) => f.tile != t) && s.dma.all (fun (k, x) => k / 256 != t || x.op.isNone)

/-- The bytes of a tile's SRAM windows are lost: every word is written anew at power-up (R446). -/
def State.clearSram (s : State) (t : Nat) : State :=
  s.onMem fun m => m.filter fun (a, _) => !(0xF00000000000 + t * 0x100000000 ≤ a && a < 0xF00000000000 + (t + 1) * 0x100000000)

/-- What a tile's domains 0 to 25 hold is lost: SRAM bytes, threads, channels, counters, caches, sample buffers, event routes and the cipher
slice table (R446 R453). -/
def State.loseTile (s : State) (t : Nat) : State :=
  let s := ((s.clearSram t).dropTileCores t).onCt fun c => { c with
    words := c.words.filter fun (k, _) =>
      let kind := k / 128 / 2 ^ 27
      !((kind == 0 || (2 ≤ kind && kind ≤ 7) || kind == Ct.bufUe) && k / 128 % 2 ^ 27 == t)
    coreBuf := modAt c.coreBuf t fun _ => [], pktBuf := modAt c.pktBuf t fun _ => [], pktK := modAt c.pktK t fun _ => 0
    pktLfsr := modAt c.pktLfsr t fun _ => 0 }
  let s := (s.writeBuckets (s.damask.tblCache.getD t [])).onDamask fun d => { d with tblCache := modAt d.tblCache t fun _ => [] }
  let s := s.onEv fun e => { e with
    routes := e.routes.filter fun (k, _) => sourceDie k != t
    fwBase := modAt e.fwBase t fun _ => 0, fwP := modAt e.fwP t fun _ => 0 }
  let s := s.onTwill fun w => { w with queues := w.queues.filter fun q => q.tile != t }
  let s := s.onCores fun c => { c with sampleK := modAt c.sampleK t fun _ => 0 }
  let s := s.onCy fun y => { y with tables := modAt y.tables t fun _ => sliceTableReset }
  (s.setTile t .parked).domains (tileDomains t) false

/-- Completions that are not yet written, and the contexts of commands, are carried from a tile to the operation-context store of another: that
of the CQ's home, and of the command ring's (R453, log 40). -/
def State.carryContexts (s : State) (t : Nat) : State :=
  let at' := fun (q : Nat) (c : Compl) => if c.tile = some t then { c with tile := some (((s.queue q).map (·.home)).getD 0) } else c
  let s := s.onQm fun m => { m with queues := m.queues.map fun (k, q) =>
    (k, { q with due := q.due.map (at' k), held := q.held.map (at' k), waitDone := q.waitDone.map fun (i, c) => (i, at' q.cq c) }) }
  s.onCmd fun m => { m with inProgress := m.inProgress.map fun x => match x.src with
    | .ring q => if x.tile = some t then { x with tile := (s.queue q).map (·.home) } else x
    | _ => x }

/-- STANDBY is entered: every tile parks with no queue and no connection moved. -/
def State.enterStandby (s : State) : State :=
  let s := (List.range 4).foldl (fun s t => s.loseTile t) s
  let s := s.onCmd fun m => { m with sfReady := false }
  (s.onKrm fun k => { k with cached := [] }).onPower fun p => { p with dev := .standby, standby := none }

/-- The frame boundary at which Buckram switches an empty parking tile off, or every tile for STANDBY once it has drained them and served its
mailbox (R449); the reply. -/
def doTilePowerOff (s : State) : State :=
  match s.power.op with
  | none =>
    match s.power.standby with
    | none => s
    | some (c, _) =>
      if s.fatal || !s.cmd.mailbox.isEmpty || !s.onFrame || !(List.range 4).all s.tileEmpty then s
      else s.enterStandby.reply 0x0B04 c true (Answer.ok 1)
  | some o =>
    let waits := s.cmd.mailbox.any fun r => match r with
      | .command 0x0B01 _ _ => true
      | _ => false
    if s.fatal || o.unpark || !o.passed || waits || !s.onFrame || !s.tileEmpty o.tile then s
    else
      let s := ((s.carryContexts o.tile).loseTile o.tile).onPower fun p => { p with op := none }
      s.reply 0x0B01 o.cmd true { Answer.ok with ft := some s.frameFt }

/-- TILE_POWER_OFF (R453). -/
def execTilePowerOff (s : State) : Res := .next (doTilePowerOff s)

/-! ## Unparking (R455) -/

/-- Service firmware's part at acceptance. -/
def State.unparkPart (s : State) (c : Cmd) : State × Option Nat :=
  let t := c.target.toNat
  if s.power.tiles.getD t .off != .parked || s.power.op.isSome || s.boot.activation.isSome then (s, some St.badState)
  else
    let o : ParkOp := { tile := t, unpark := true, point := 0, passed := false, limit := 0, ready := false, cmd := c }
    (s.onPower fun p => { p with op := some o }, none)

/-- PW_TILE_UNPARK: service firmware's part, then Buckram's mailbox. -/
def doPwTileUnpark (c : Cmd) (s : State) : State := s.bkPart 0x0B02 c noDeny true false fun _ s => s.unparkPart c

/-- PW_TILE_UNPARK (R455). -/
def execPwTileUnpark (c : Cmd) (s : State) : Res := .next (doPwTileUnpark c s)

/-- A tile's domains come on, with their SRAM initialised and the defaults of its slice table and channels, and its threads start. -/
def State.tileStart (s : State) (t : Nat) : State :=
  let s := (((s.domains (tileDomains t) true).clearSram t).setTile t .active).onCy fun y => { y with tables := modAt y.tables t fun _ => sliceTableReset }
  s.tileCores t

/-- Buckram's part; service firmware's ready report comes with it (log 40). -/
def bkPwTileUnpark (c : Cmd) (who : Caller) (s : State) : State :=
  if (s.precheck 0x0B02 c who true false true false).isSome then
    (s.parkUndo c).bkApply 0x0B02 c who false true false fun s => (s, none)
  else s.bkApply 0x0B02 c who false true false fun s =>
    match (if s.parkOwn c then (s, none) else s.unparkPart c) with
    | (s, some e) => (s, some (Answer.just e))
    | (s, none) =>
      let at' := nextRebalance s.ft
      let s := s.tileStart c.target.toNat
      (s.onPower fun p => { p with op := p.op.map fun o => { o with ready := true, point := at' } }, none)

/-- The point of first use. -/
def doUnparkPoint (s : State) : State :=
  match s.power.op with
  | none => s
  | some o =>
    if s.fatal || !o.unpark || !o.ready || !s.dueAt o.point s.onRebalance then s
    else
      let s := s.onPower fun p => { p with op := none }
      let l := s.power.away.filter fun (t, cid) => t == o.tile && s.krm.conns.has cid
      let s := l.foldl (fun s (t, cid) =>
        (s.onConn cid fun c => { c with home := t }).onDamask fun d => { d with homePend := d.homePend ++ [(cid, some t)] }) s
      let s := (s.onPower fun p => { p with away := p.away.filter fun (t, _) => t != o.tile }).trimCached
      let new := s.freeTables s.free
      let s := (s.onDamask fun d => { d with indPend := some new }).onFree (· + 1024)
      (s.applySteering.movePolicers.settleCaches).reply 0x0B02 o.cmd true { Answer.ok with ft := some s.rebalanceFt }

/-- UNPARK_POINT (R455). -/
def execUnparkPoint (s : State) : Res := .next (doUnparkPoint s)

/-! ## Idle tiles (R448) -/

/-- The KRM and block engines of a tile hold no work: no packet to send, to apply or unacknowledged, and no request of a self-test
unanswered. -/
def State.enginesQuiet (s : State) (t : Nat) : Bool :=
  s.krm.conns.all (fun (_, c) => c.home != t || (c.queue.isEmpty && c.sent.isEmpty && c.hold.isEmpty && c.served.isEmpty && c.msgs.isEmpty
      && c.ctl.isEmpty && c.blkMsgs.isEmpty))
    && s.blk.volumes.all (fun (vid, v) => (v.testBusy.map (·.1) ++ v.testStale.map (·.1)).all fun m => s.memberTile vid v m != t)
    && s.blk.pieces.all (fun (_, p) => p.done || (s.volume p.vid).all fun v => s.memberTile p.vid v p.member != t)

/-- A tile does nothing: every thread IDLE or blocked, no work of an engine and no frame. -/
def State.tileQuiet (s : State) (t : Nat) : Bool :=
  s.tileEmpty t && s.enginesQuiet t && s.cores.threads.all fun (k, x) => k / 256 != t || x.state == .idle || x.state == .blockedCh || x.state == .blockedEv

/-- A tile quiet for 4,096 ns gates its clocks; that the time has passed is the command's own (log 19). -/
def doTileIdle (t : Nat) (s : State) : State :=
  if !s.fatal && s.power.tiles.getD t .off == .active && s.tileQuiet t then s.setTile t .idle else s
/-- TILE_IDLE (R448). -/
def execTileIdle (tile : Nat) (s : State) : Res := .next (doTileIdle tile s)

/-- An arrival wakes an IDLE tile. -/
def doTileWake (t : Nat) (s : State) : State :=
  if !s.fatal && s.power.tiles.getD t .off == .idle then s.setTile t .active else s
/-- TILE_WAKE (R448). -/
def execTileWake (tile : Nat) (s : State) : Res := .next (doTileWake tile s)

/-! ## The power cap (R456) -/

/-- PW_CAP_SET. -/
def doPwCapSet (c : Cmd) (s : State) : State := s.bk 0x0B03 c noDeny true false (paramCheck (150 ≤ cmdLe c 16 2 && cmdLe c 16 2 ≤ 650))
/-- PW_CAP_SET (R456). -/
def execPwCapSet (c : Cmd) (s : State) : Res := .next (doPwCapSet c s)

/-- Buckram's part: the cap awaits the next window. -/
def bkPwCapSet (c : Cmd) (who : Caller) (s : State) : State :=
  s.bkApply 0x0B03 c who false true false fun s =>
    let w := cmdLe c 16 2
    let ft := s.ft
    if w < 150 || 650 < w then (s, some (Answer.just St.badParam))
    else (s.onPower fun p => { p with capPend := p.capPend ++ [(w, ft, c)] }, none)

/-- The mean of numbers; 0 of none. -/
def mean (l : List Nat) : Nat := l.sum / max 1 l.length

/-- The ladder moves one step by the mean of the last 8 windows. -/
def ladderStep (cap level : Nat) (l : List Nat) : Nat :=
  let w := l.drop (l.length - 8)
  if cap * w.length < w.sum then min 10 (level + 1)
  else if w.sum < (cap - 5) * w.length then level - 1
  else level

/-- Mean power over the last 100 windows exceeds the cap by more than 5 W. -/
def capExceeded (cap : Nat) (l : List Nat) : Bool := l.length == 100 && (cap + 5) * 100 < l.sum

/-- A window boundary: the window's mean power, caps that begin to govern, the ladder, and PW_CAP_UNMET. An episode of it is the time in
which the ladder stays at level 10 (R456). -/
def doPowerWindow (watts : Nat) (s : State) : State :=
  let k := s.gridFt 10000 0 / 10000 + 1
  if s.fatal || s.power.dev == .off || !s.onGrid 10000 0 || s.power.lastWindow == k then s
  else
    let due := s.power.capPend.filter fun (_, t, _) => t < s.ft
    let s := s.onClocks fun p =>
      let cap := match due.getLast? with
        | some (w, _, _) => w
        | none => p.cap
      let l := (p.windows ++ [watts]).drop (p.windows.length + 1 - 100)
      let level := if p.level = 10 ∧ capExceeded cap l = true then 10 else ladderStep cap p.level l
      { p with windows := l, lastWindow := k, cap := cap, level := level, capPend := p.capPend.filter fun (_, t, _) => s.ft ≤ t }
    let p := s.power
    let over' := p.ladder == 10 && capExceeded p.cap p.windows
    let s := if over' && !p.capUnmet then s.raise (sourceNo 6 20) noObject p.cap .dev else s
    let s := s.onPower fun p => { p with capUnmet := over' }
    due.foldl (fun s (_, _, c) => s.reply 0x0B03 c true { Answer.ok with ft := some (s.gridFt 10000 0) }) s

/-- POWER_WINDOW (R456). -/
def execPowerWindow (watts : Nat) (s : State) : Res := .next (doPowerWindow watts s)

/-! ## Thermal limits (R457) -/

/-- The hottest die's reading is taken. -/
def State.noteTj (s : State) (tj : Nat) : State :=
  let osc := s.time.osc
  s.onPower fun p => { p with tj := tj, hotSince := if 105 < tj then some (p.hotSince.getD osc) else none, crit := p.crit && 105 < tj }

/-- Thermal control acts: the device has power and has not tripped. -/
def State.thermalOn (s : State) : Bool := s.power.dev != .off && !s.pins.thermTrip

/-- Tj of 100 C reached. -/
def doThermThrottle (die tj : Nat) (s : State) : State :=
  if !s.thermalOn || tj < 100 then s
  else
    let s := s.noteTj tj
    if s.power.throttle then s
    else
      let osc := s.time.osc
      (s.onClocks fun p => { p with throttle := true, forced := max 4 p.forced, lastForce := osc }).raise (sourceNo 6 18) die tj .dev

/-- THERM_THROTTLE (R457). -/
def execThermThrottle (die tj : Nat) (s : State) : Res := .next (doThermThrottle die tj s)

/-- 100 us more at 100 C or above. -/
def doThermStep (_die tj : Nat) (s : State) : State :=
  if !s.thermalOn || tj < 100 then s
  else
    let s := s.noteTj tj
    if s.power.throttle && s.power.lastForce + 100000 ≤ s.time.osc then
      s.onClocks fun p => { p with forced := min 10 (p.forced + 1), lastForce := p.lastForce + 100000 }
    else s

/-- THERM_STEP (R457). -/
def execThermStep (die tj : Nat) (s : State) : Res := .next (doThermStep die tj s)

/-- Above 105 C for 100 ms. -/
def doThermCrit (die tj : Nat) (s : State) : State :=
  if !s.thermalOn || tj ≤ 105 then s
  else
    let s := s.noteTj tj
    if !s.power.crit && s.power.hotSince.any (fun t => t + 100000000 ≤ s.time.osc) then
      ((s.onPower fun p => { p with crit := true }).logRecord 35 [(8, [byte die, byte tj])]).raise (sourceNo 6 19) die tj .sec
    else s

/-- THERM_CRIT (R457). -/
def execThermCrit (die tj : Nat) (s : State) : Res := .next (doThermCrit die tj s)

/-- Below 98 C thermal forcing ends. -/
def doThermForcingEnd (_die tj : Nat) (s : State) : State :=
  if !s.thermalOn || 98 ≤ tj then s
  else (s.noteTj tj).onClocks fun p => { p with throttle := false, forced := 0 }

/-- THERM_FORCING_END (R457). -/
def execThermForcingEnd (die tj : Nat) (s : State) : Res := .next (doThermForcingEnd die tj s)

/-- The trip: THERM_TRIP#, the log, FATAL, and every switched domain off. Installed keys and the inline key table stand until the reset (17
R482), and DRAM with them. -/
def doThermalTrip (die tj : Nat) (s : State) : State :=
  if !s.thermalOn || tj < 115 then s
  else
    let s := ((s.noteTj tj).onPins fun p => { p with thermTrip := true }).emit .thermTrip
    let s := (s.logRecord 34 [(8, [byte die, byte tj])]).enterFatal 6 die noAddr
    let s := (List.range 4).foldl (fun s t => ((s.dropTileCores t).clearSram t).setTile t .off) s
    let s := (s.portGone 0).portGone 1
    s.onPower fun p => { p with domains := 0 }

/-- THERMAL_TRIP (R457). -/
def execThermalTrip (die tj : Nat) (s : State) : Res := .next (doThermalTrip die tj s)

/-! ## STANDBY (R449) -/

/-- The device power state as PW_QUERY gives it. -/
def State.powerCode (s : State) : Nat :=
  match s.power.dev with
  | .run => if s.power.tiles.contains .parked then 1 else 0
  | .standby => 2
  | _ => 3

/-- STANDBY is refused. -/
def State.standbyRefused (s : State) : Bool :=
  s.power.op.isSome || s.power.standby.isSome || s.boot.activation.isSome || s.trialOpen || s.power.dev == .aux
    || s.qm.queues.any fun (_, q) => q.cls != .cq && !q.command && q.state != .disabled && q.state != .idle

/-- STANDBY is left: the tiles start, and service firmware with them. -/
def State.leaveStandby (s : State) : State :=
  let s := s.onPower fun p => { p with dev := .run }
  let s := (List.range 4).foldl (fun s t => s.tileStart t) s
  let osc := s.time.osc
  let s := s.onDram fun d => { d with channels := d.channels.map fun x => { x with lastRefresh := x.lastRefresh.map fun (r, _) => (r, osc) } }
  let s := s.extendMr 2 (mfDigest s.boot.runManifest)
  let s := (s.onCmd fun m => { m with sfReady := true }).openWaiting
  (List.range 4).foldl State.fetchRound s

/-- PW_STATE_SET with 1, or with a value that names no state. -/
def doPwStateSetStandby (c : Cmd) (s : State) : State :=
  if cmdByte c 16 = 0 then s
  else s.bk 0x0B04 c noDeny true false (paramCheck (cmdByte c 16 < 2))

/-- PW_STATE_SET_STANDBY (R449). -/
def execPwStateSetStandby (c : Cmd) (s : State) : Res := .next (doPwStateSetStandby c s)

/-- PW_STATE_SET with 0, or with a value that names no state. -/
def doPwStateSetRun (c : Cmd) (s : State) : State :=
  if cmdByte c 16 = 1 then s
  else s.bk 0x0B04 c noDeny true false (paramCheck (cmdByte c 16 < 2))

/-- PW_STATE_SET_RUN (R449). -/
def execPwStateSetRun (c : Cmd) (s : State) : Res := .next (doPwStateSetRun c s)

/-- Buckram's part of either. The tiles drain before STANDBY, as for a park, and the reply comes with it (R449 R453). A request for the state
in force changes nothing; 0 in AUX leaves AUX in force (log 40). -/
def bkPwStateSet (c : Cmd) (who : Caller) (s : State) : State :=
  s.bkApply 0x0B04 c who false true false fun s =>
    match cmdByte c 16 with
    | 0 =>
      let s := if s.power.dev = .standby then s.leaveStandby else s
      (s, some (Answer.ok s.powerCode))
    | 1 =>
      if s.power.dev = .standby then (s, some (Answer.ok 1))
      else if s.standbyRefused then (s, some (Answer.just St.badState))
      else
        let limit := s.ft + 200000000
        (s.onPower fun p => { p with standby := some (c, limit) }, none)
    | _ => (s, some (Answer.just St.badParam))

/-! ## AUX and OFF (R450) -/

/-- A management request without the words that a reply does not need. -/
def InProgress.bare (x : InProgress) : Cmd :=
  { src := x.src, flags := 0, tag := BitVec.ofNat 32 x.tag, target := BitVec.ofNat 32 x.target, pbLen := 0, rsv := 0, params := zeros 48
    pb := [], pbErr := none, data := [] }

/-- The command state that outlives the switched domains: the requests of the management controller and the JTAG port, those that wait and
those in Buckram's hands (R445). -/
def State.auxCmd (s : State) (r : CmdSt) : CmdSt :=
  let box := s.cmd.mailbox.filter fun x => match x with
    | .command _ c _ => !isRing c.src
    | _ => false
  { r with
    held := s.cmd.held, heldAt := s.cmd.heldAt, mctpOut := s.cmd.mctpOut, inProgress := s.cmd.inProgress.filter fun x => !isRing x.src
    mailbox := box, rota := s.cmd.rota.filter fun w => box.any fun x => bkCaller x == w }

/-- A request in progress is one of Buckram's: in its mailbox, or accepted by it and to take effect later. -/
def State.bkHolds (s : State) (x : InProgress) : Bool :=
  let is := fun (c : Cmd) => c.src == x.src && c.tag.toNat == x.tag
  (s.cmd.mailbox.any fun r => match r with
    | .command _ c _ => is c
    | _ => false) || s.power.capPend.any (fun (_, _, c) => is c) || s.trust.levelPend.any (fun (_, c, _, _) => is c)

/-- The management requests that were in service firmware's hands end, for Buckram serves them no more (R450, log 40). -/
def State.endAuxLost (s : State) : State :=
  (s.cmd.inProgress.filter fun x => !s.bkHolds x).foldl (fun s x => s.reply x.opcode x.bare true (Answer.just St.badState)) s

/-- MAIN_PWR_OK deasserted: what the switched domains and DRAM hold is lost. Buckram, its fuses, its log, its mailbox and its image slots, FT,
the management sideband and the debug session stay (R445, 17 R482). -/
def State.enterAux (s : State) : State :=
  let r := State.afterReset s.trust.fuses s.ev.log s.ev.logCount s.pins.straps
  let order := s.bootOrder
  let boot := match s.boot.stage with
    | .rom | .retired | .push _ _ false | .recovery false => s.boot
    | _ => { s.boot with stage := .buckram, left := order, refused := false, hungPend := [], trialSf := none, trialBk := none
                         activation := none, prevManifest := none, handover := [], codeRegion := 0 }
  let slots := boot.slots.zipIdx.map fun (x, j) => if j < 2 ∨ 2 ≤ boot.sourceBk then ImgSlot.none else x
  let ports := s.host.ports.map fun q => { HostPort.reset with perst := q.perst, verified := q.verified }
  { r with
    pending := s.pending, arrivals := s.arrivals, out := s.out, free := s.free, time := s.time, ftu := s.ftu, fatal := s.fatal
    boot := { boot with slots := slots, store := s.boot.persist }, trust := s.trust, pins := { s.pins with mainPwrOk := false }
    host := { r.host with ports := ports }, cy := { r.cy with kek := s.cy.kek }, cores := CoresSt.off, cmd := s.auxCmd r.cmd
    ev := { r.ev with opened := s.ev.opened.filter fun x => x.dest == .management, lostDests := s.ev.lostDests.filter (· == .management) }
    power := { s.power with dev := .aux, tiles := List.replicate 4 .off, domains := 0, op := none, standby := none, away := [] } }

/-- AUX_ENTER: nothing happens under SYS_RST# (19 R524). -/
def doAuxEnter (s : State) : State :=
  if s.power.dev == .off || !s.pins.mainPwrOk then s
  else if s.pins.sysRst then s.onPins fun p => { p with mainPwrOk := false }
  else s.enterAux.endAuxLost

/-- AUX_ENTER (R450). -/
def execAuxEnter (s : State) : Res := .next (doAuxEnter s)

/-- MAIN_PWR_OK asserted: the rails are back, and Buckram goes on from DRAM training. -/
def doAuxExit (s : State) : State :=
  if s.power.dev == .off || s.pins.mainPwrOk then s
  else
    let s := s.onPins fun p => { p with mainPwrOk := true }
    if s.pins.sysRst || s.fatal || s.pins.heldReset then s
    else
      let s := (s.onPower s.railsPower).coresIdle
      (List.range 2).foldl (fun s p => if (s.hostPort p).perst then s else s.portStart p) s

/-- AUX_EXIT (R450). -/
def execAuxExit (s : State) : Res := .next (doAuxExit s)

/-- The auxiliary rail is lost: nothing but the fuses, and what lies outside the device, is left. -/
def doPowerOff (s : State) : State :=
  let r := State.afterReset s.trust.fuses [] 0 s.pins.straps
  { r with
    pending := s.pending, arrivals := s.arrivals, out := s.out, free := s.free, time := { r.time with osc := s.time.osc }
    host := { r.host with ports := s.host.ports.map fun q => { HostPort.reset with perst := q.perst } }
    trust := { r.trust with rpmb := s.trust.rpmb }, boot := { r.boot with store := s.boot.persist }
    pins := { r.pins with mainPwrOk := false, clkIn := s.pins.clkIn, sysclk := s.pins.sysclk, hrefclk := s.pins.hrefclk
                          hrefReadyAt := s.pins.hrefReadyAt, ppsHigh := s.pins.ppsHigh }
    cores := CoresSt.off
    power := { r.power with clk := List.replicate 4 (0, s.time.osc), dev := .off, tiles := List.replicate 4 .off, domains := 0, tj := s.power.tj } }

/-- POWER_OFF (R447). -/
def execPowerOff (s : State) : Res := .next (doPowerOff s)

/-! ## Query (R458) -/

/-- The 64 bytes of PW_QUERY. -/
def State.powerBytes (s : State) : Bytes :=
  let p := s.power
  let op := match p.op with
    | some o => o.tile % 4 + (if o.unpark then 8 else 4)
    | none => 0
  [byte s.powerCode, byte ((p.tiles.zipIdx).map fun (x, t) => x.code * 4 ^ t).sum, byte op,
    byte (b2n p.throttle + 2 * b2n p.crit + 4 * b2n p.capUnmet)]
    ++ toLe 2 p.cap ++ toLe 2 (mean p.windows) ++ [byte p.tj, byte p.ladder] ++ zeros 6 ++ toLe 20 p.domains ++ zeros 28

/-- PW_QUERY. -/
def doPwQuery (c : Cmd) (s : State) : State :=
  s.sf 0x0B05 c noDeny true false fun _ s => (s, some { Answer.ok with data := s.powerBytes })

/-- PW_QUERY (R458). -/
def execPwQuery (c : Cmd) (s : State) : Res := .next (doPwQuery c s)

end Sys2Proof.Machine
end

