-- ==== Sys2Proof/Machine/Events.lean ====
section
/-! DEFINITION. Counters, Gingham dumps, sampling, event records and the device log (18_events_counters.md, 12 R358). -/

namespace Sys2Proof.Machine

/-! ## Counter blocks (R499) -/

/-- KIND and INDEX of a counter block. -/
def ctKind (w : Nat) : Nat := field w 27 5
def ctIndex (w : Nat) : Nat := field w 0 27

/-- The number of words of a block of a kind; an engine block has at least 16. -/
def ctWords (kind idx : Nat) : Nat :=
  match kind with
  | 0 => 21
  | 3 => 19
  | 7 => 37
  | 8 => 42
  | 10 => if bit idx 9 then 2 else 5
  | 16 => 6
  | 17 => 3
  | 18 => 19
  | 19 => 64
  | 20 => 5
  | 21 => 1
  | k => if k < 10 then 16 else 0

/-- INDEX is of its form: its bits outside the field are 0, and it names something that the device has. -/
def ctFormOk (kind idx : Nat) : Bool :=
  match kind with
  | 0 | 2 | 3 | 4 | 5 | 6 | 7 | 8 => idx < 4
  | 1 => idx < 64
  | 9 => idx < 2
  | 10 => idx < 1024 && idx % 16 < 12
  | 16 | 17 => idx < 65536
  | 18 => idx < 1048576
  | 19 => idx < 524288
  | 20 => targetOk .func false idx
  | 21 => idx < 16384
  | 24 => idx < 4096
  | 25 => idx < 8
  | _ => false

/-- The owner of a block's object; none where it does not exist, `some none` for a block of device scope. -/
def State.ctOwner (s : State) (kind idx : Nat) : Option (Option Owner) :=
  match kind with
  | 16 => s.objectOwner .qid idx
  | 18 => s.objectOwner .cid idx
  | 20 => s.objectOwner .func idx
  | 21 => s.objectOwner .sid idx
  | 24 => (s.ct.dumps.get idx).map fun d => some d.owner.owner
  | 1 => if s.tables.has (idx / 4) then some none else none
  | 19 => if s.damask.banks.any (fun (_, b) => b.table == idx % 16) then some none else none
  | _ => some none

/-- The caller is a slice that owns the object. -/
def ownsAsSlice (who : Caller) (kind idx : Nat) (o : Option Owner) : Bool :=
  match who with
  | .slice i _ => if kind = 21 then idx == i else o.any fun x => x.sid == some i
  | _ => false

/-- A slice's reads are allowed by its managing function (R502). -/
def State.slicePermitted (s : State) (who : Caller) : Bool :=
  match who with
  | .slice i _ => (s.slice i).any (·.ctAllowed)
  | _ => false

/-- The caller's class may read no block of a kind (R499, check 3). -/
def ctClassDenied (c : Cmd) (who : Caller) (_ : State) : Bool :=
  match ctKind c.target.toNat with
  | 16 | 18 | 20 | 21 | 24 => false
  | 17 => !(who.inClass .m || who.inClass .p)
  | k => (k < 11 || k == 19 || k == 25) && !(who.inClass .m || who.inClass .p0)

/-- Who may read a block: none, or the status (R499 R501 R502). -/
def State.ctDenied (s : State) (who : Caller) (kind idx : Nat) : Option Nat :=
  if !ctFormOk kind idx then some St.badTarget
  else match s.ctOwner kind idx with
    | none => some St.notFound
    | some o =>
      let own := ownsAsSlice who kind idx o
      if kind == 16 || kind == 18 || kind == 20 || kind == 21 then
        if own then (if s.slicePermitted who && kind != 20 then none else some St.denied)
        else if !(o.any fun x => s.inScope who x) then some St.notFound
        else if kind == 16 || kind == 18 then none
        else if o == some who.owner then none
        else some St.denied
      else if kind == 24 then (if o == some who.owner then none else some St.notFound)
      else if kind == 17 then (if who.inClass .m || who.inClass .p then none else some St.denied)
      else if who.inClass .m || who.inClass .p0 then none
      else some St.denied

/-- TARGET is a block's, and the block exists for the caller (checks 6 and 7). -/
def ctForm (c : Cmd) : Bool := ctFormOk (ctKind c.target.toNat) (ctIndex c.target.toNat)
def State.ctFound (s : State) (c : Cmd) (who : Caller) : Bool :=
  s.ctDenied who (ctKind c.target.toNat) (ctIndex c.target.toNat) != some St.notFound

/-- A word of a block as a latch takes it: a queue's words 4 and 5 are its sample record, a partition's word 12 its stash's fill. -/
def State.ctWord (s : State) (kind idx k : Nat) : Nat :=
  match kind, k with
  | 16, 4 | 16, 5 =>
    match s.queue idx with
    | some q => if q.shaper.sample then (match s.twq q.home (.source idx) with
        | some x => le x.latched (8 * (k - 4)) 8
        | none => 0) else 0
    | none => 0
  | 1, 12 => match s.tables.get (idx / 4) with
    | some t => ((t.part (idx % 4)).stash.filter Option.isSome).length
    | none => 0
  | _, _ => s.counter kind idx k

/-- Every word of a block latched at one instant; OVF of each is cleared. A sample buffer is emptied of what it held. -/
def State.latchBlock (s : State) (kind idx : Nat) : State × List Nat :=
  if kind = 25 then
    let t := idx % 4
    let l := if idx < 4 then s.ct.coreBuf.getD t [] else s.ct.pktBuf.getD t []
    let s := s.onCt fun c => if idx < 4 then { c with coreBuf := modAt c.coreBuf t fun _ => [] } else { c with pktBuf := modAt c.pktBuf t fun _ => [] }
    (s, l.flatMap fun b => (List.range 4).map fun i => le b (8 * i) 8)
  else
    let l := (List.range (ctWords kind idx)).map fun k => s.ctWord kind idx k
    (s.onCt fun c => { c with words := c.words.map fun (k, v) => (k, if k / 128 = kind * 2 ^ 27 + idx then ctClearOvf v else v) }, l)

/-- CT_READ. -/
def doCtRead (c : Cmd) (s : State) : State :=
  s.sf 0x0D01 c (ctClassDenied c) true false (form := ctForm c) (found := fun who s => s.ctFound c who) fun who s =>
    let kind := ctKind c.target.toNat
    let idx := ctIndex c.target.toNat
    match s.ctDenied who kind idx with
    | some e => (s, some (Answer.just e))
    | none =>
      if kind = 24 then
        match (s.ct.dumps.get idx).bind (·.lastRecord) with
        | some b => (s, some { Answer.ok (le b 6 2) with data := b })
        | none => (s, some Answer.ok)
      else
        let (s, l) := s.latchBlock kind idx
        (s, some { Answer.ok l.length with data := (l.map (toLe 8)).flatten })

/-- CT_READ (R500). -/
def execCtRead (c : Cmd) (s : State) : Res := .next (doCtRead c s)

/-! ## Dumps (R503 to R507) -/

/-- The slot size of a block's records (R506). -/
def slotSize (kind idx : Nat) : Nat := if kind = 25 then 65600 else roundUp (64 + 8 * ctWords kind idx) 64

/-- CT_DUMP_SET. A TARGET of kind 24, a dump of dumps, ends S_BAD_TARGET, and an area that holds no slot S_BAD_PARAM (log 41). -/
def doCtDumpSet (c : Cmd) (s : State) : State :=
  s.sf 0x0D02 c (ctClassDenied c) true false (form := ctForm c && ctKind c.target.toNat != 24)
    (found := fun who s => s.ctFound c who) fun who s =>
    let w := c.target.toNat
    let kind := ctKind w
    let idx := ctIndex w
    let phase := cmdLe c 16 8
    let period := cmdLe c 24 8
    let d := cmdRbufDesc c
    match s.ctDenied who kind idx with
      | some e => (s, some (Answer.just e))
      | none =>
        if period != 0 && (period < 100000 || 10 ^ 15 < period || period ≤ phase) then (s, some (Answer.just St.badParam))
        else if cmdRbuf c && d.len < slotSize kind idx then (s, some (Answer.just St.badParam))
        else match chooseFree s.freeVal 4096 s.ct.dumps.length s.ct.dumps.has with
          | none => (s, some (Answer.just St.noResource))
          | some n =>
            let x : Dump := { owner := who, block := w, period := period
                              phase := if period = 0 ∧ phase < s.ft then nextFrame s.ft else phase
                              area := if cmdRbuf c then (s.refOf who.owner).map fun r => (r, d) else none
                              latched := none, seq := 0, skipped := false, lastRecord := none, fromFt := s.ft, oneShotDone := false }
            ((s.onCt fun c => { c with dumps := Tab.set c.dumps n x }).useFree, some (Answer.ok n))

/-- CT_DUMP_SET (R503). -/
def execCtDumpSet (c : Cmd) (s : State) : Res := .next (doCtDumpSet c s)

/-- A dump changed. -/
def State.onDump (s : State) (n : Nat) (f : Dump → Dump) : State := s.onCt fun c => { c with dumps := Tab.mod c.dumps n f }

/-- A dump's instant: every word latched, or the instant passed over while the record before waits to be written. -/
def doDumpLatch (n : Nat) (s : State) : State :=
  match s.ct.dumps.get n with
  | none => s
  | some d =>
    let t := if d.period = 0 then s.ft else s.gridFt d.period d.phase
    let due := if d.period = 0 then !d.oneShotDone && d.phase ≤ s.ft else d.fromFt ≤ t && s.onGrid d.period d.phase
    if s.fatal || !due then s
    else
      let ft := t
      let s := s.onDump n fun d => { d with fromFt := ft + 1, oneShotDone := d.period == 0 }
      if d.latched.isSome then s.onDump n fun d => { d with skipped := true }
      else
        let (s, l) := s.latchBlock (ctKind d.block) (ctIndex d.block)
        let st := s.ftu.state.code
        s.onDump n fun d => { d with latched := some (ft, st, l), latchedSkip := d.skipped, skipped := false }

/-- DUMP_LATCH (R504). -/
def execDumpLatch (dump : Nat) (s : State) : Res := .next (s.onDie (s.dumpDie dump) (doDumpLatch dump))

/-- A dump record (R505). -/
def dumpBytes (n : Nat) (d : Dump) (t fts : Nat) (l : List Nat) (late : Bool) : Bytes :=
  toLe 4 0x4B5A4344 ++ toLe 2 1 ++ toLe 2 l.length ++ toLe 4 n ++ toLe 4 d.block ++ toLe 8 t ++ toLe 8 d.seq ++ dsn
    ++ [byte (b2n late + 2 * b2n d.latchedSkip), byte fts] ++ zeros 22 ++ (l.map (toLe 8)).flatten

/-- The three steps of R506 to a slot of the dump area. -/
def State.writeSlot (s : State) (o : Owner) (a : Nat) (b : Bytes) : State :=
  let (s, _) := s.ownerWrite o (a + 24) (List.replicate 8 0xFF)
  let (s, _) := s.ownerWrite o a (b.take 24)
  let (s, _) := s.ownerWrite o (a + 32) (b.drop 32)
  (s.ownerWrite o (a + 24) (sliceZ b 24 8)).1

/-- The tile of a block's engine, for GH_DUMP_LATE (log 41). -/
def lateTile (kind idx : Nat) : Nat := if kind = 10 then idx % 16 / 3 else if kind < 8 ∨ kind = 25 then idx % 4 else 0

/-- A latched record written; more than 50,000 ns after its instant it is late. -/
def State.writeDump (s : State) (n : Nat) (d : Dump) : State :=
  match d.latched with
  | none => s
  | some (t, fts, l) =>
    let kind := ctKind d.block
    let idx := ctIndex d.block
    let late := decide (t + 50000 < s.ft)
    let b := dumpBytes n d t fts l late
    let s := match d.area with
      | some (_, f) =>
        let sz := slotSize kind idx
        s.writeSlot d.owner.owner (f.addr + d.seq % max 1 (f.len / sz) * sz) b
      | none => s
    let s := if late then s.raise (sourceNo (lateTile kind idx) 832) n (min ((s.ft - t) / 1000) 0xFFFFFFFF) (.own d.owner.owner) else s
    s.onDump n fun d => { d with latched := none, latchedSkip := false, seq := d.seq + 1, lastRecord := some b }

/-- DUMP_RECORD_WRITE: bus mastering holds the writes to a dump area. -/
def doDumpRecordWrite (n : Nat) (s : State) : State :=
  match s.ct.dumps.get n with
  | none => s
  | some d => if s.fatal || (d.area.isSome && s.ownerHeld d.owner.owner) then s else s.writeDump n d

/-- DUMP_RECORD_WRITE (R506). -/
def execDumpRecordWrite (dump : Nat) (s : State) : Res := .next (doDumpRecordWrite dump s)

/-- CT_DUMP_CANCEL: an instant before it, or at its reply's own FT, still yields its record. -/
def doCtDumpCancel (c : Cmd) (s : State) : State :=
  s.sf 0x0D03 c noDeny true false (found := fun who s => (s.ct.dumps.get c.target.toNat).any (·.owner == who)) fun who s =>
    let n := c.target.toNat
    match s.ct.dumps.get n with
    | none => (s, some (Answer.just St.notFound))
    | some d =>
      if d.owner != who then (s, some (Answer.just St.notFound))
      else
        let s := doDumpLatch n s
        (((s.ct.dumps.get n).elim s fun d => s.writeDump n d).onCt fun c => { c with dumps := Tab.del c.dumps n }, some Answer.ok)

/-- CT_DUMP_CANCEL (R507). -/
def execCtDumpCancel (c : Cmd) (s : State) : Res := .next (doCtDumpCancel c s)

/-! ## Permissions and sampling (R502 R508, 12 R358) -/

/-- CT_SLICE_PERM. -/
def doCtSlicePerm (c : Cmd) (s : State) : State :=
  s.sf 0x0D04 c noDeny true true fun _ s =>
    if 1 < cmdByte c 16 then (s, some (Answer.just St.badParam))
    else (s.onHost fun h => { h with slices := h.slices.mod c.target.toNat fun x => { x with ctAllowed := cmdByte c 16 == 1 } }, some Answer.ok)

/-- CT_SLICE_PERM (R502). -/
def execCtSlicePerm (c : Cmd) (s : State) : Res := .next (doCtSlicePerm c s)

/-- k of CT_SAMPLE_SET. -/
def sampleKOk (k : Nat) : Bool := k == 0 || (8 ≤ k && k ≤ 24)

/-- CT_SAMPLE_SET of either kind: the setting awaits its frame boundary. -/
def State.sampleSet (s : State) (c : Cmd) : State :=
  s.sf 0x0D05 c noDeny true false fun _ s =>
    if 1 < cmdByte c 16 || !sampleKOk (cmdByte c 17) then (s, some (Answer.just St.badParam))
    else
      let ft := s.ft
      (s.onCores fun x => { x with samplePend := x.samplePend ++ [(c.target.toNat, cmdByte c 16 == 1, cmdByte c 17, ft, c)] }, none)

/-- CT_SAMPLE_SET with 0 in byte 16, or a value that names no kind. -/
def doCtSampleSetCore (c : Cmd) (s : State) : State := if cmdByte c 16 = 1 then s else s.sampleSet c
/-- CT_SAMPLE_SET_CORE (12 R358). -/
def execCtSampleSetCore (c : Cmd) (s : State) : Res := .next (doCtSampleSetCore c s)

/-- CT_SAMPLE_SET with 1 in byte 16, or a value that names no kind. -/
def doCtSampleSetPacket (c : Cmd) (s : State) : State := if cmdByte c 16 = 0 then s else s.sampleSet c
/-- CT_SAMPLE_SET_PACKET (R508). -/
def execCtSampleSetPacket (c : Cmd) (s : State) : Res := .next (doCtSampleSetPacket c s)

/-- A sampling setting of a tile in force: k, and the LFSRs seeded. -/
def State.applySample (s : State) (t : Nat) (packet : Bool) (k : Nat) : State :=
  if packet then s.onCt fun c => { c with
    pktK := modAt c.pktK t fun _ => k, pktLfsr := modAt c.pktLfsr t fun _ => 0x40000000 + t }
  else s.onCores fun c => { c with
    sampleK := modAt c.sampleK t fun _ => k
    cores := c.cores.map fun (n, x) => (n, if n / 32 = t then { x with lfsr := 0x80000000 + n % 32 } else x) }

/-- The settings of a tile that are due at the frame boundary. -/
def doSampleSetEffect (t : Nat) (s : State) : State :=
  if s.fatal then s
  else
    let due := s.cores.samplePend.filter fun (x, _, _, at', _) => x == t && s.dueFrame at'
    let rest := s.cores.samplePend.filter fun (x, _, _, at', _) => !(x == t && s.dueFrame at')
    let s := s.onCores fun c => { c with samplePend := rest }
    due.foldl (fun s (x, p, k, _, c) => (s.applySample x p k).reply 0x0D05 c false { Answer.ok with ft := some s.frameFt }) s

/-- SAMPLE_SET_EFFECT (12 R358). -/
def execSampleSetEffect (tile : Nat) (s : State) : Res := .next (s.onDie tile (doSampleSetEffect tile))

/-! ## Event records (R490 to R492) -/

/-- The oldest open record of a destination. -/
def State.openRec (s : State) (d : EvDest) : Option OpenRec := s.ev.opened.find? (·.dest == d)

/-- A record leaves the open records, with LOST where a delivery was lost before it. -/
def State.takeRec (s : State) (r : OpenRec) : State × Bytes :=
  let lost := s.ev.lostDests.contains r.dest
  (s.onEv fun e => { e with opened := e.opened.erase r, lostDests := e.lostDests.filter (· != r.dest) },
   eventBytes r.source r.count r.object r.ft r.detail r.sid lost)

/-- A function's oldest record is written to its command CQ, which has a free entry and nothing held or due. -/
def doEventRecordWrite (f : FnRef) (s : State) : State :=
  match s.fn f, s.openRec (.fn f) with
  | some x, some r =>
    match s.queue x.cqQid with
    | some q =>
      if s.fatal || !x.cmdActive || !s.dueFrame r.ft || q.full || !q.held.isEmpty || !q.due.isEmpty || q.episode
         || !s.mastering f || x.flrAt.isSome then s
      else
        let (s, b) := s.takeRec r
        s.writeCompl x.cqQid { qid := x.cqQid, ok := true, suppressed := false, bytes := b, data := none, event := true, tag := none }
    | none => s
  | _, _ => s

/-- EVENT_RECORD_WRITE (R491). -/
def execEventRecordWrite (fn : FnRef) (s : State) : Res := .next (s.onDie (6 + fn.port) (doEventRecordWrite fn))

/-- The die of a source can report in the device power state (R492). -/
def State.dieReports (s : State) (die : Nat) : Bool :=
  match s.power.dev with
  | .run => true
  | .standby => 4 ≤ die
  | .aux => die == 4 || die == 6
  | .off => false

/-- The oldest record of the management controller is sent. -/
def doEventMctpSend (s : State) : State :=
  match s.ev.opened.find? fun r => r.dest == .management && s.dieReports (sourceDie r.source) with
  | none => s
  | some r =>
    if s.pins.sysRst || bit s.pins.fault 51 || !s.dueFrame r.ft then s
    else
      let (s, b) := s.takeRec r
      (s.emitMctp true (s.freeVal % 8) b).useFree

/-- EVENT_MCTP_SEND (R492). -/
def execEventMctpSend (s : State) : Res := .next (doEventMctpSend s)

/-! ## The device log (R495) -/

/-- DIAG_LOG_READ. -/
def doDiagLogRead (c : Cmd) (s : State) : State :=
  s.sf 0x0E03 c noDeny true false fun _ s =>
    let first := cmdLe c 16 4
    let next := s.ev.logCount
    let oldest := next - s.ev.log.length
    if next ≤ first then (s, some (Answer.ok first next))
    else
      let a := max first oldest
      (s, some { Answer.ok a next with data := ((s.ev.log.drop (a - oldest)).take 128).flatten })

/-- DIAG_LOG_READ (R495). -/
def execDiagLogRead (c : Cmd) (s : State) : Res := .next (doDiagLogRead c s)

end Sys2Proof.Machine
end

