-- ==== Sys2Proof/Machine/Device.lean ====
section
/-! DEFINITION. Identity, health and the DIAG commands that no other chapter describes (04 R131). -/

namespace Sys2Proof.Machine

/-- Part, stepping, serial number and image versions, in 256 bytes whose layout the spec does not give (log 13); VERSION is
bytes 48 to 63 of a manifest (15 R420). -/
def State.identity (s : State) : Bytes :=
  let f := [0x8800, Config.stepping] ++ dsn.map (·.toNat) ++ (sliceZ s.boot.runManifest 48 16).map (·.toNat)
    ++ (sliceZ s.boot.bkManifest 48 16).map (·.toNat)
  sliceZ (Config.layout 0x0101 f) 0 256

/-- DEV_IDENTIFY. -/
def doDevIdentify (c : Cmd) (s : State) : State :=
  s.sf 0x0101 c noDeny true false fun _ s => (s, some { Answer.ok with data := s.identity })

/-- DEV_IDENTIFY (04 R131). -/
def execDevIdentify (c : Cmd) (s : State) : Res := .next (doDevIdentify c s)

/-- Memory is degraded: a channel is empty or failed its training (14 R396). -/
def State.memDegraded (s : State) : Bool := (List.range 12).any fun c => s.channelCap c == 0

/-- Every attestation epoch is burned (17 R478). -/
def State.attestExhausted (s : State) : Bool := decide (2048 ≤ s.trust.fuses.attEpoch)

/-- The health flags, in places that the spec does not give (log 13). -/
def State.healthFlags (s : State) : Nat :=
  le (Config.layout 0x0102 [b2n s.memDegraded, b2n s.attestExhausted, b2n s.fatal, b2n s.power.throttle, b2n s.power.crit]) 0 4

/-- One bit for each parked tile. -/
def State.parkedMask (s : State) : Nat :=
  ((List.range 4).map fun t => if s.power.tiles.getD t .active = .parked then 2 ^ t else 0).sum

/-- DEV_HEALTH. -/
def doDevHealth (c : Cmd) (s : State) : State :=
  s.sf 0x0102 c noDeny true false fun _ s => (s, some (Answer.ok s.healthFlags s.parkedMask))

/-- DEV_HEALTH (04 R131). -/
def execDevHealth (c : Cmd) (s : State) : Res := .next (doDevHealth c s)

/-- DIAG_ECHO. -/
def doDiagEcho (c : Cmd) (s : State) : State :=
  s.sf 0x0E01 c noDeny true false fun _ s => (s, some { Answer.ok with data := sliceZ c.params 0 16 })

/-- DIAG_ECHO (04 R131). -/
def execDiagEcho (c : Cmd) (s : State) : Res := .next (doDiagEcho c s)

/-- DIAG_PIN_FAULT: the two words of PIN_FAULT (19 R530). -/
def doDiagPinFault (c : Cmd) (s : State) : State :=
  s.sf 0x0E02 c noDeny true false fun _ s => (s, some (Answer.ok (s.pins.fault % 2 ^ 32) (s.pins.fault / 2 ^ 32 % 2 ^ 32)))

/-- DIAG_PIN_FAULT (19 R530). -/
def execDiagPinFault (c : Cmd) (s : State) : Res := .next (doDiagPinFault c s)

/-- DIAG_ERR_INJECT: Buckram applies it. -/
def doDiagErrInject (c : Cmd) (s : State) : State := s.bk 0x0E06 c noDeny true false

/-- DIAG_ERR_INJECT (04 R131). -/
def execDiagErrInject (c : Cmd) (s : State) : Res := .next (doDiagErrInject c s)

/-! ## Errors of on-die SRAM (14 R406) -/

/-- What the code of R406 makes of an error in the 18 symbols of an SRAM word: none, corrected, corrected to a word that is wrong, or
uncorrectable. -/
inductive SramEnd where
  | clean | corrected | wrong | lost
deriving DecidableEq, Repr

/-- The code is linear, so that the error alone decides. -/
def sramEnd (err : Bytes) : SramEnd :=
  let cw := (List.range 18).map (byteAt err ·)
  if cw.all (· == 0) then .clean
  else match rsFix cw with
    | none => .lost
    | some l => if cw.zipIdx.all fun (e, k) => e == 0 || l.contains (k, e) then .corrected else .wrong

/-- A member of a list that a number picks. -/
def pickOf {α : Type} (l : List α) (n : Nat) : Option α := l[n % max 1 l.length]?

/-- A queued frame is lost from the packet buffer, with every flooded entry of it; its operation ends with S_UNCORRECTABLE (log 43). -/
def State.loseQueued (s : State) (tile : Nat) (k : TwKey) (f : TwFrame) : State :=
  let same := fun (t : Nat) (j : TwKey) (x : TwFrame) => (t == tile && j == k && x == f) || (x.copy.isSome && x.copy == f.copy)
  let s := s.onTwill fun w => { w with queues := w.queues.map fun q =>
    if q.tile = tile then { q with frames := q.frames.filter fun x => !same q.tile q.key x } else q }
  let s := (s.count Ct.bufUe tile 0).sampleTw f 6 0 0
  match f.op with
  | some n => s.txEnd n St.uncorrectable 0 s.ft 0 0
  | none => s

/-- The logical ports that transmit a frame of a tile's packet buffer now. -/
def State.sending (s : State) (tile : Nat) : List Nat :=
  (s.twill.logical.zipIdx.filter fun (x, _) => x.txTile == some tile && decide (s.nowUnits < x.busyUntil)).map (·.2)

/-- A word of the packet buffer is lost: its frame is dropped and counted in BUF_UE, or ends with an inverted FCS where it is already in
transmission. -/
def State.bufLost (s : State) (tile n : Nat) : State :=
  let rx := s.twill.frames.filter fun (_, f) => f.tile == tile
  let tw := (s.twill.queues.filter (·.tile == tile)).flatMap fun q => q.frames.map fun f => (q.key, f)
  match n % 3 with
  | 0 => match pickOf rx (n / 3) with
    | some (k, f) => ((s.sampleRec f 6 0 0).count Ct.bufUe tile 0).delFrame k
    | none => s
  | 1 => match pickOf tw (n / 3) with
    | some (k, f) => s.loseQueued tile k f
    | none => s
  | _ => match pickOf (s.sending tile) (n / 3) with
    | some p => (s.emit (.badFcs p)).onLogical p fun x => { x with txTile := none }
    | none => s

/-- A word of an operation context is lost: the operation ends with S_UNCORRECTABLE; with both words of its QID and COOKIE, FATAL. -/
def State.opLost (s : State) (tile n : Nat) : State :=
  match pickOf (s.qm.ops.filter fun (_, o) => o.tile == tile) (n / 2) with
  | some (k, _) =>
    if n % 2 = 1 then s.useFree.enterFatal 3 tile (bufAddr tile (0x10000000 + s.freeVal % 0x1000000 / 16 * 16)) else s.stopOp k St.uncorrectable
  | none => s

/-- The queue contexts of a tile. -/
def State.contextOn (s : State) (tile n : Nat) : Option Nat :=
  (pickOf (s.qm.queues.filter fun (_, q) => q.home == tile) n).map (·.1)

/-- A corrected error of a queue context (03 R104). -/
def State.contextCe (s : State) (tile n : Nat) : State :=
  match s.contextOn tile n with
  | some qid => (s.count Ct.dma tile 6).raise (sourceNo tile 257) qid 0 .fw
  | none => s

/-- A queue context that is lost, or that fails its CHECK when it is loaded (03 R104). -/
def State.contextLost (s : State) (tile n : Nat) : State :=
  if (s.contextOn tile n).isSome then s.useFree.enterFatal 2 tile (bufAddr tile (0x20000000 + s.freeVal % 0x400000 / 16 * 16)) else s

/-- A lost line of a cache is written back to DRAM as a poisoned line: an uncorrectable line found at a write-back, whose SRC is 3 (R405
R413; log 43). -/
def State.poisonLine (s : State) (a : Nat) : State :=
  match s.memKey a with
  | some k =>
    let k := k / 64
    if s.dram.poison.contains k then s
    else (s.onDram fun d => { d with faults := d.faults.del k }).foundUe (k / 2 ^ 34) (s.lineRank k).1 (s.lineRank k).2 3 (k % 2 ^ 34 * 64)
  | none => s

/-- A lost word of a table cache: a clean line is read again, a dirty one is written to DRAM as a poisoned line. -/
def State.cacheLost (s : State) (tile n : Nat) : State :=
  match pickOf (s.damask.tblCache.getD tile []) (n / 2) with
  | some b =>
    match s.tables.get (b / 2 ^ 24) with
    | some t =>
      if s.damask.tblDirty.contains b then
        ((s.writeBucket b).onDamask fun d => { d with tblCache := modAt d.tblCache tile (·.erase b) }).poisonLine
          (t.lineAddr (b / 2 ^ 22 % 4) (b % 2 ^ 22) + n % 2 * 64)
      else s
    | none => s
  | none => s

/-- A lost word of a core cache: a clean line is fetched again, a dirty one is written back as a poisoned line. -/
def State.coreCacheLost (s : State) (n : Nat) : State :=
  match pickOf s.dram.regions (n / 2) with
  | some (_, r) => if n % 2 = 1 then s.poisonLine (r.base + n / 2 / max 1 s.dram.regions.length * 64 % max 1 r.size) else s
  | none => s

/-- A lost word of a channel store: every message of its channel is discarded, the channel is disabled, and CHAN_UE is raised. -/
def State.chanLost (s : State) (tile n : Nat) : State :=
  match pickOf (s.cores.chans.filter fun (k, c) => k / 2048 == tile && c.en) n with
  | some (ch, _) => (s.onChan ch fun c => { c with en := false, msgs := [] }).raise (sourceNo tile 704) noObject ch .fw
  | none => s

/-- An error in the symbols of a line of a channel of a tile: it stands there until a read meets it, or until the line is written
(14 R399). -/
def State.lineError (s : State) (die n : Nat) (err : Bytes) : State :=
  let c := 3 * die + n % 3
  let lines := (s.channel c).lines
  let k := c * 2 ^ 34 + n / 3 % max 1 lines
  if !(s.channel c).trained || lines == 0 || s.dram.poison.contains k then s
  else
    let line := lineCodewords (s.lineBytes k) (s.lineErrors k err) false
    match decodeLine line with
    | .poisoned => s.onDram fun d => { d with poison := d.poison ++ [k], faults := d.faults.del k }
    | .uncorrectable => (s.setLine k (lineData line [])).onDram fun d => { d with faults := d.faults.set k .bad }
    | .good l => (s.setLine k (lineData line l)).onDram fun d => { d with
        faults := if l.isEmpty then d.faults.del k else d.faults.set k (.fixes l) }

/-- An error in an on-die SRAM word of a die, found as it is put there (log 43). A tile holds the first six stores of R406, H0 Buckram's
private SRAM. -/
def State.sramError (s : State) (die site : Nat) (err : Bytes) : State :=
  let n := site / 8
  match sramEnd err with
  | .clean => s
  | .corrected =>
    let s := s.count Ct.sramCe (8 * die + site % 8) 0
    if die < 4 ∧ site % 8 = 2 then s.contextCe die n else s
  | .wrong => if die < 4 ∧ site % 8 = 2 then s.contextLost die n else s
  | .lost =>
    if die = 6 then s.enterFatal 4 die noAddr
    else if 4 ≤ die then s
    else match site % 8 with
      | 0 => s.bufLost die n
      | 1 => s.opLost die n
      | 2 => s.contextLost die n
      | 3 => s.cacheLost die n
      | 4 => s.coreCacheLost n
      | 5 => s.chanLost die n
      | _ => s

/-- An error in a word of a flit on a link of a die: a corrected one is counted in FLIT_CE, and a flit that is lost is sent again, which is
FLIT_RETRANSMIT's (R407, 01 R18). -/
def State.flitError (s : State) (die n : Nat) (err : Bytes) : State :=
  match pickOf ((linkEnds.zipIdx.filter fun ((a, b), _) => a == die || b == die).map (·.2)) n, sramEnd err with
  | some k, .corrected => s.count Ct.flit k 0
  | _, _ => s

/-- An error at a site of a die: in a flit, in a DRAM line of a tile, or in an SRAM word. -/
def State.siteError (s : State) (die site : Nat) (err : Bytes) : State :=
  if site % 8 = 7 then s.flitError die (site / 8) err
  else if die < 4 ∧ site % 8 = 6 then s.lineError die (site / 8) err
  else s.sramError die site err

/-- Buckram's part: the error stands at its site. -/
def bkDiagErrInject (c : Cmd) (who : Caller) (s : State) : State :=
  s.bkApply 0x0E06 c who false true false fun s =>
    let b := sliceZ c.params 0 16
    let d := c.target.toNat
    (s.siteError d (Config.errSite d b) (Config.errPattern d b), some Answer.ok)

end Sys2Proof.Machine
end

