-- ==== Sys2Proof/Machine/Time.lean ====
section
/-! DEFINITION. Fabric time (02_fabric_time.md): measurements, discipline states, slew and step, holdover, the pulse
input and output, distribution, and the commands of class TIME. -/

namespace Sys2Proof.Machine

/-! ## Sources and oscillators (R39 R50) -/

/-- FT_SRC_CFG.SRC, with 3 taken as NONE (R39). -/
def FtuSt.src (f : FtuSt) : Nat := if f.srcCfg.toNat % 4 = 3 then 0 else f.srcCfg.toNat % 4

/-- CLK_HOLD. -/
def FtuSt.clkHold (f : FtuSt) : Bool := bit f.srcCfg.toNat 3

/-- The expected Sync interval, 2^-SYNC_LOG s. -/
def FtuSt.interval (f : FtuSt) : Nat := 1000000000 / 2 ^ field f.srcCfg.toNat 4 3

/-- THRESH in ns. -/
def FtuSt.thresh (f : FtuSt) : Nat := f.lockThresh.toNat % 65536

/-- y in ns/s and 1,000 a in ns/s^2 of a stability class; 5 to 7 are as 0 (R50). -/
def stability : Nat → Nat × Nat
  | 1 => (20000, 1000)
  | 2 => (5000, 100)
  | 3 => (1000, 10)
  | 4 => (100, 1)
  | _ => (100000, 10000)

/-- The stability of the holdover oscillator: FT_CLK_IN, the internal oscillator, or SYSCLK (R50). -/
def FtuSt.osc (f : FtuSt) : Nat × Nat :=
  if f.holdOscClk then stability (f.holdCfg.toNat % 8) else if f.intOsc then (1000000, 0) else stability 0

/-! ## Holdover (R49). The bound is counted in units of 0.5 x 10^-21 ns, in which R49 is exact. -/

/-- One ns in bound units. -/
def boundNs : Nat := 2000000000000000000000

/-- 2^-16 ns in bound units. -/
def boundFrac : Nat := 30517578125000000

/-- e(t) at an FT. A change of CLASS in HOLDOVER counts for the whole of t: DESIGN CHOICE, since R49 tells of a change of
oscillator only (log 48). -/
def FtuSt.bound (f : FtuSt) (ft : Nat) : Nat :=
  let t := ft - f.boundFrom
  f.boundBase + 2 * f.osc.1 * t * 1000000000000 + f.osc.2 * t * t

/-- FT_HOLD_BOUND: e(t) in 0.25 ns, saturating; 0 outside HOLDOVER. -/
def FtuSt.boundWord (f : FtuSt) (ft : Nat) : Nat :=
  if f.state = .holdover then min (f.bound ft / (boundNs / 4)) 0xFFFFFFFF else 0

/-- e0: the magnitude of the estimate plus MEAS_ERR. -/
def FtuSt.e0 (f : FtuSt) : Nat := f.estimate.natAbs * boundFrac + field f.holdCfg.toNat 8 8 * boundNs

/-! ## Discipline states (R42 R43 R44) -/

/-- A transition: FT_STATE_CHANGE, the end or pause of the slew, the start of the bound, and the fallback that R226 of
the Twill chapter gives SCHEDULED ports. -/
def State.ftGo (s : State) (new : FtState) : State :=
  let old := s.ftu.state
  if old = new then s else
  let s := s.onFtu fun f => { f with state := new }
  let s := match new with
    | .free | .unlocked => s.onFtu fun f => { f with slewPart := 0, slewLeft := 0 }
    | .holdover => s.onFtu fun f => { f with slewPart := 0, slewLeft := 0, boundBase := f.e0, boundFrom := s.ft }
    | _ => s
  let falls := new == .free || (new == .acquiring && (old == .locked || old == .holdover)) || new == .unlocked
  let s := if falls then
      s.onTwill fun w => { w with phys := w.phys.map fun p =>
        if p.scheduled then { p with fallback := some (p.fallback.getD s.ft) } else p }
    else s
  s.raise (sourceNo 4 32) noObject (new.code + 16 * old.code) .dev

/-- The holdover oscillator as the inputs stand; the bound is kept across a change (R41 R49 R520). -/
def State.oscUpdate (s : State) : State :=
  let f := s.ftu
  let clk := s.pins.clkIn && (f.src == 2 || (f.src == 1 && f.clkHold))
  let int := !s.pins.sysclk && !clk
  if clk == f.holdOscClk && int == f.intOsc then s
  else s.onFtu fun f =>
    let f := if f.state = .holdover then { f with boundBase := f.bound s.ft, boundFrom := s.ft } else f
    { f with holdOscClk := clk, intOsc := int }

/-- The bound compared with THRESH at a frame boundary (R49). -/
def State.boundCheck (s : State) : State :=
  if s.ftu.state = .holdover ∧ s.ftu.thresh * boundNs < s.ftu.bound s.ft then s.ftGo .unlocked else s

/-- The source is lost (R41 R43). At the detecting boundary the bound is compared as well. LOCK_COUNT and the run of
estimates beyond THRESH begin anew: DESIGN CHOICE, R43 does not say (log 48). -/
def State.loseSource (s : State) : State :=
  let s := s.onFtu fun f =>
    { f with lost := true, srcPresent := false, announceLost := false, ppsPaired := false, ppsRef := none, lockCount := 0,
             overCount := 0 }
  match s.ftu.state with
  | .acquiring => s.ftGo .free
  | .locked => (s.ftGo .holdover).boundCheck
  | _ => s

/-! ## Measurements (R43 R44 R45). Offsets are in 2^-16 ns. -/

/-- The median of a measurement and the two before it. With one, it is that one; with two, a free value from the lesser to
the greater, since R43 does not say which (log 22). -/
def median3 (free : Nat) (m : Int) : Option Int → Option Int → Int
  | some a, some b => max (min m a) (min (max m a) b)
  | some a, none => min m a + (free % ((max m a - min m a).toNat + 1) : Nat)
  | none, _ => m

/-- A slew starts from an estimate: the frequency estimate and the rate are free within their limits (log 14). -/
def State.startSlew (s : State) : State :=
  let n := s.free
  let est := s.ftu.estimate
  let fe := clampFreq (Config.freqEstimate n)
  let rate : Int := 1 + ((Config.slewRate n) % 256000000 : Nat)
  let part := if est = 0 then 0 else clampFreq (fe + (if est > 0 then -rate else rate)) - fe
  (s.onFtu fun f => { f with freqEst := fe, slewPart := part, slewLeft := -est * remUnit }).useFree

/-- 1 ms and 10 us in 2^-16 ns. -/
def msUnits : Int := 65536000000
def us10Units : Int := 655360000

/-- The step boundary: the first frame boundary at least 256 ns ahead (R45). -/
def stepBoundary (ft : Nat) : Nat := roundUp (ft + 256) 1024

/-- A measurement of 1 ms or more (R45): confirmed by the one before it, it decides a step. -/
def State.commitBig (s : State) (m : Int) : State :=
  let decided := match s.ftu.bigMeas with
    | some p => decide ((m - p).natAbs ≤ us10Units.natAbs)
    | none => false
  let s := s.onFtu fun f => { f with bigMeas := if decided then none else some m }
  let s := match s.ftu.state with
    | .free | .unlocked | .holdover => s.ftGo .acquiring
    | .locked => if decided then s.ftGo .acquiring else s
    | .acquiring => s
  if decided then
    s.onFtu fun f => { f with
      lockCount := 0
      pendStep := some { amount := -m, setTo := none, boundary := stepBoundary s.ft, cmd := none } }
  else s

/-- A measurement below 1 ms: the filter, LOCK_COUNT, the state machine and the slew (R43 R44). HOLDOVER is left by the first
measurement's own offset. -/
def State.commitSmall (s : State) (m : Int) : State :=
  let est := median3 s.freeVal m s.ftu.med1 s.ftu.med2
  let within := decide (est.natAbs ≤ s.ftu.thresh * 65536)
  let near := decide (m.natAbs ≤ s.ftu.thresh * 65536)
  let s := (s.onFtu fun f => { f with
    bigMeas := none, estimate := est, med1 := some m, med2 := f.med1
    lockCount := if within then min (f.lockCount + 1) 15 else 0
    overCount := if within then 0 else f.overCount + 1 }).useFree
  let s := match s.ftu.state with
    | .free | .unlocked => s.ftGo .acquiring
    | .holdover => s.ftGo (if near then .locked else .acquiring)
    | .acquiring => if 8 ≤ s.ftu.lockCount then s.ftGo .locked else s
    | .locked => if 4 ≤ s.ftu.overCount then s.ftGo .acquiring else s
  s.startSlew

/-- A committed measurement; discarded while a step is pending (R45). -/
def State.commit (s : State) (m : Int) : State :=
  if s.ftu.pendStep.isSome then s
  else
    let s := s.onFtu fun f => { f with srcPresent := true, lost := false, announceLost := false, commitAt := s.ft }
    if msUnits.natAbs ≤ m.natAbs then s.commitBig m else s.commitSmall m

/-- FT_MEAS_AT written: under PTP alone, and only later than the measurement before (R39 R41). One that is discarded because a step is
pending counts as the measurement before the next: DESIGN CHOICE, R41 and R45 do not say (log 48). -/
def doFtMeasAtWrite (ftAt : W64) (s : State) : State :=
  if s.ftu.src != 1 then s
  else if (match s.ftu.lastMeasAt with
      | some a => decide (ftAt.toNat ≤ a)
      | none => false) then s
  else (s.onFtu fun f => { f with lastMeasAt := some ftAt.toNat }).commit s.ftu.measOffs.toInt

/-- FT_MEAS_AT_WRITE (R43). -/
def execFtMeasAtWrite (ftAt : W64) (s : State) : Res := .next (doFtMeasAtWrite ftAt s)

/-! ## The pulse input (R40 R528) -/

/-- The distance of two instants of oscillator time is 1 s within 1 us (log 22). -/
def oneSecond (a b : Nat) : Bool := a + 999999000 ≤ b && b ≤ a + 1000001000

/-- FT minus the nearest whole second, in 2^-16 ns, in (-0.5 s, +0.5 s] (R40). -/
def State.secondOffset (s : State) : Int :=
  let v : Int := ((s.ft % 1000000000) * 65536 + s.time.frac : Nat)
  if v > 500000000 * 65536 then v - 1000000000 * 65536 else v

/-- A rising edge passed to the FTU (R40). With FT_CLK_IN absent no pair is made and nothing is measured (R41 R43); an edge is
still a reference edge. -/
def State.ppsPassed (s : State) : State :=
  if s.ftu.src != 2 then s
  else if !s.pins.clkIn then (if s.ftu.ppsPaired then s else s.onFtu fun f => { f with ppsRef := some s.time.osc })
  else
    let near := match s.ftu.ppsRef with
      | some r => oneSecond r s.time.osc
      | none => false
    if near then
      (s.onFtu fun f => { f with ppsRef := some s.time.osc, ppsPaired := true }).commit s.secondOffset
    else if s.ftu.ppsPaired then s
    else s.onFtu fun f => { f with ppsRef := some s.time.osc }

/-- The oscillator instant from which FT_PPS_IN is absent if no edge comes: more than 1 s and 1 us after the last one, or after device
reset where none came (R520). None while the absence already stands, or before ROM has begun. -/
def State.ppsLapse (s : State) : Option Nat :=
  if s.romBegan && (s.pins.ppsSwap.isSome || !bit s.pins.fault 4) then
    some (max s.pins.ppsFrom (max (s.pins.ppsRise.getD 0) (s.pins.ppsFall.getD 0)) + 1000001001)
  else none

/-- The input is found absent: the receiver's decision lapses and PPS_IN_ABSENT stands (R520 R528). -/
def State.ppsAbsence (s : State) : State :=
  match s.ppsLapse with
  | some t => if t ≤ s.time.osc then
      (s.onPins fun p => { p with ppsSwap := none, ppsRise := none, ppsFall := none }).pinFault 4
    else s
  | none => s

/-- `dt` ns of oscillator time pass; FT_PPS_IN is found absent at its instant in them. -/
def State.passTime (s : State) (dt : Nat) : State :=
  let n := match s.ppsLapse with
    | some t => min dt (t - s.time.osc)
    | none => dt
  ((s.advance n).ppsAbsence).advance (dt - n)

/-- A rising edge at the input. -/
def doPpsEdge (nearClkFall : Bool) (s : State) : State :=
  let s := s.ppsAbsence
  let s := s.onPins fun p => { p with ppsHigh := true, ppsRise := some s.time.osc }
  let s := if nearClkFall && s.ftu.src == 2 && (match s.pins.clkSwapAt with
      | some t => decide (t + 16000000000 ≤ s.ft)
      | none => true) then s.onPins fun p => { p with clkSwapDue := true } else s
  if s.pins.ppsSwap = some false then s.ppsPassed else s

/-- PPS_EDGE (R40). -/
def execPpsEdge (nearClkFall : Bool) (s : State) : Res := .next (doPpsEdge nearClkFall s)

/-- A falling edge at the input: the high time decides polarity or absence (R528). -/
def doPpsInFall (s : State) : State :=
  let s := s.ppsAbsence
  let before := s.pins.ppsFall
  let s' := s.onPins fun p => { p with ppsHigh := false, ppsFall := some s.time.osc }
  match s.pins.ppsSwap with
  | some true => s'.ppsPassed
  | some false => s'
  | none =>
    match s.pins.ppsRise with
    | none => s'
    | some r =>
      let high := s.time.osc - r
      if 100 ≤ high && high ≤ 400000000 then
        ((s'.onPins fun p => { p with ppsSwap := some false }).pinClear 4).pinClear 6
      else if 600000000 < high && (match before with
          | some b => oneSecond b s.time.osc
          | none => false) then
        (((s'.onPins fun p => { p with ppsSwap := some true }).pinClear 4).pinFault 6).ppsPassed
      else s'.pinFault 4

/-- PPS_IN_FALL (R528). -/
def execPpsInFall (s : State) : Res := .next (doPpsInFall s)

/-- The receiver inverts FT_CLK_IN at a frame boundary, where a swap is due (R528). -/
def doFtClkInvert (s : State) : State :=
  if s.onFrame && s.pins.clkSwapDue then
    (s.onPins fun p => { p with clkSwapDue := false, clkSwapAt := some s.ft }).pinFault 5
  else s

/-- FT_CLK_INVERT (R528). -/
def execFtClkInvert (s : State) : Res := .next (doFtClkInvert s)

/-! ## Loss (R41) -/

/-- The loss condition holds before this instant. Where SRC changed and no measurement of the new source came, its times count
from the change (log 22). -/
def State.sourceGone (s : State) (announceTimeout : Bool) : Bool :=
  match s.ftu.src with
  | 1 => announceTimeout || s.ftu.announceLost || s.ftu.commitAt + 2 * s.ftu.interval < s.ft
  | 2 => !s.pins.clkIn || (match s.ftu.ppsRef with
      | some r => decide (r + 1000001000 < s.time.osc) && s.ftu.ppsPaired
      | none => false) || (!s.ftu.ppsPaired && decide (s.ftu.commitAt + 1000001000 < s.ft))
  | _ => false

/-- A loss found at a frame boundary; an announce timeout reported between boundaries waits for the next. -/
def doSourceLost (announceTimeout : Bool) (s : State) : State :=
  if !s.onFrame then
    if announceTimeout && s.ftu.src == 1 then s.onFtu fun f => { f with announceLost := true } else s
  else if s.ftu.lost || !(s.ftu.srcPresent || s.ftu.state == .acquiring || s.ftu.state == .locked)
      || !s.sourceGone announceTimeout then s
  else
    s.loseSource

/-- SOURCE_LOST (R41). -/
def execSourceLost (announceTimeout : Bool) (s : State) : Res := .next (doSourceLost announceTimeout s)

/-- FT_CLK_IN found absent: noted at once, acted on at a frame boundary (R41). -/
def doFtClkInAbsent (s : State) : State :=
  let s := (s.onPins fun p => { p with clkIn := false }).pinFault 3
  if !s.onFrame then s
  else
    let s := if s.ftu.src = 2 ∧ !s.ftu.lost ∧ (s.ftu.srcPresent || s.ftu.state == .acquiring || s.ftu.state == .locked) then s.loseSource else s
    s.oscUpdate

/-- FT_CLK_IN_ABSENT (R41). -/
def execFtClkInAbsent (s : State) : Res := .next (doFtClkInAbsent s)

/-- FT_CLK_IN present again for 1 ms (R520). -/
def doFtClkInReturn (s : State) : State :=
  ((s.onPins fun p => { p with clkIn := true }).pinClear 3).oscUpdate

/-- FT_CLK_IN_RETURN (R520). -/
def execFtClkInReturn (s : State) : Res := .next (doFtClkInReturn s)

/-- The comparison of R49 at a frame boundary. -/
def doHoldoverBoundCheck (s : State) : State := if s.onFrame then s.boundCheck else s

/-- HOLDOVER_BOUND_CHECK (R49). -/
def execHoldoverBoundCheck (s : State) : Res := .next (doHoldoverBoundCheck s)

/-! ## Steps (R45 R46 R61) -/

/-- FT after a step: the new FT and fraction, or none where it would lie below 0 (R45). FT_SET gives whole nanoseconds, and
the fraction stays as it runs: DESIGN CHOICE, R61 does not say (log 48). -/
def PendStep.target (p : PendStep) (ft frac : Nat) : Option (Nat × Nat) :=
  match p.setTo with
  | some v => some (v, frac)
  | none =>
    let t : Int := (ft * 65536 + frac : Nat) + p.amount
    if t < 0 then none else some (t.toNat / 65536, t.toNat % 65536)

/-- Periodic activities after a step: dumps take the first of their instants after the new FT, and the power window that contains it
counts as taken. A scrub pass, an aging pass or a calibration window that began at an instant which a backward step makes one to come
is moved by the step, so that it goes on and a new one begins there (R47). -/
def State.periodsStepped (s : State) (amt : Int) : State :=
  let now := s.ft
  let moved := fun (t : Nat) => if amt < 0 ∧ now < t then ((t : Int) + amt).toNat else t
  let s := s.onCt fun c => { c with dumps := c.dumps.map fun (k, d) => (k, { d with fromFt := now + 1 }) }
  let s := s.onPower fun p => { p with lastWindow := now / 10000 + 1 }
  let s := s.onTables fun l => l.map fun (k, t) => (k, { t with parts := t.parts.map fun x => { x with
    pass := x.pass.map fun (a, p) => (moved a, p) } })
  s.onDram fun d => { d with channels := d.channels.map fun x => { x with
    scrubStart := x.scrubStart.map moved, calUntil := moved x.calUntil, calNext := moved x.calNext } }

/-- The pending step applied at its frame boundary on every die (R45 R53). The instant of the last measurement moves with FT, so
that the times of R41 run on: DESIGN CHOICE (log 48). -/
def doFtStep (s : State) : State :=
  match s.ftu.pendStep with
  | none => s
  | some p =>
    if !s.onFrame || s.ft < p.boundary then s
    else
      let s := s.onFtu fun f => { f with pendStep := none }
      match p.target s.ft s.time.frac with
      | none => s
      | some (ft, frac) =>
        let amt : Int := (ft : Int) - s.ft
        let s := s.onTime fun t => { t with ft := ft, frac := frac, prev := ft }
        let s := s.onFtu fun f => { f with
          stepAt := ft, stepAmt := amt, lockCount := 0
          commitAt := ((f.commitAt : Int) + amt).toNat, shown := List.replicate 8 0 }
        let s := (s.calReplace.portsStepped amt).periodsStepped amt
        let s := s.raise (sourceNo 4 33) noObject (unsigned 32 amt) .dev
        match p.cmd with
        | some c => s.reply 0x0C04 c false { Answer.ok with ft := some ft }
        | none => s

/-- FT_STEP (R45). -/
def execFtStep (s : State) : Res := .next (doFtStep s)

/-- FT_SET is applied in this state (R61). -/
def State.setAllowed (s : State) : Bool :=
  (s.ftu.state == .free || s.ftu.state == .unlocked || (s.ftu.state == .acquiring && s.ftu.src == 2))
    && s.ftu.pendStep.isNone

/-- An FT_SET: a step to the value at the first frame boundary at least 256 ns ahead, or SET_IGN. -/
def State.ftSet (s : State) (v : Nat) (cmd : Option Cmd) : State :=
  if s.setAllowed then
    s.onFtu fun f => { f with pendStep := some { amount := 0, setTo := some v, boundary := stepBoundary s.ft, cmd := cmd } }
  else s.onFtu fun f => { f with setIgn := true }

/-- FT_SET_WRITE (R61). -/
def execFtSetWrite (value : W64) (s : State) : Res := .next (s.ftSet value.toNat none)

/-! ## Reads and distribution (R51 R53 R60) -/

/-- A read of FT_NOW on a die: 64 bits, or the low word of the die's counter; the high word and FT_NOW_FRAC are latched. -/
def doFtNowRead (die : Nat) (wide : Bool) (s : State) : State :=
  (s.latchFt die).emit (.readValue (if wide then (s.dieClock die).1 % 2 ^ 64 else (s.dieClock die).1 % 2 ^ 32))

/-- FT_NOW_READ (R60). -/
def execFtNowRead (die : Nat) (wide : Bool) (s : State) : Res := .next (doFtNowRead die wide s)

/-- A read of FT_ALIGN_STAT returns MAX_ERR and clears it (R60). -/
def doFtAlignStatRead (s : State) : State :=
  (s.emit (.readValue s.ftu.alignWord)).onFtu fun f => { f with maxErr := 0 }

/-- FT_ALIGN_STAT_READ (R60). -/
def execFtAlignStatRead (s : State) : Res := .next (doFtAlignStatRead s)

/-- A die's misalignment at a frame boundary: beyond 2 ns it raises FT_ALIGN_ERR and sets DIE_ERR (R53). -/
def State.dieAlign (s : State) (die : Nat) (m : Int) : State :=
  let s := s.onFtu fun f => { f with maxErr := max f.maxErr m.natAbs }
  if 8 < m.natAbs then
    let s := s.onFtu fun f => { f with dieErr := if bit f.dieErr die then f.dieErr else f.dieErr + 2 ^ die }
    s.raise (sourceNo die (if die < 4 then 960 else 240)) die (unsigned 32 m) .dev
  else s

/-- A die's counter after a frame boundary: one found beyond 2 ns at the boundary before is corrected now, to the master's FT
(DESIGN CHOICE: R53 names no residue; log 23), and no other than N0's is the master's. -/
def alignedTo (die : Nat) (old new : Int) : Int := if die = 4 ∨ 8 < old.natAbs then 0 else new

/-- FT sent to every die at a frame boundary, with the misalignment that each die measures (R51 R53). Each die compensates the
route in use (R52). -/
def doFtDistribute (misalign : List Int) (s : State) : State :=
  if s.onFrame then
    let l := (List.range 8).map fun d => alignedTo d (s.ftu.misalign.getD d 0) (misalign.getD d 0)
    let s := (s.onFtu fun f => { f with
      misalign := l
      comp := (List.range 8).map fun d => s.routeNs 4 d
      shown := (List.range 8).map fun d => (s.dieClock d).1 * 65536 + (s.dieClock d).2 }).oscUpdate
    l.zipIdx.foldl (fun s (m, d) => s.dieAlign d m) s
  else s

/-- FT_DISTRIBUTE (R51). -/
def execFtDistribute (misalign : List Int) (s : State) : Res := .next (doFtDistribute misalign s)

/-! ## Configuration (R59 R62) -/

/-- THRESH clamped to 4 to 1,000 ns (R60). -/
def clampThresh (v : W32) : W32 := BitVec.ofNat 32 (max 4 (min 1000 (v.toNat % 65536)))

/-- A change of SRC: LOCK_COUNT and the filter reset, and FREE under NONE (R43 R62). -/
def State.srcChanged (s : State) (old : Nat) : State :=
  let new := s.ftu.src
  let s := if old = new then s else s.onFtu fun f =>
    { f with lockCount := 0, overCount := 0, med1 := none, med2 := none, bigMeas := none, ppsRef := none, ppsPaired := false,
             lastMeasAt := none, commitAt := s.ft, lost := false, srcPresent := false }
  let s := if new = 0 then s.ftGo .free else s
  s.oscUpdate

/-- The first whole second after an instant. -/
def nextSecond (t : Nat) : Nat := (t / 1000000000 + 1) * 1000000000

/-- One configuration register written, by its offset in the FT block (R60 R62). -/
def State.ftCfgWrite (s : State) (off : Nat) (v : W32) : State :=
  if off = 0x014 then
    (s.onFtu fun f => { f with srcCfg := BitVec.ofNat 32 (v.toNat % 128) }).srcChanged s.ftu.src
  else if off = 0x018 then s.onFtu fun f => { f with lockThresh := clampThresh v }
  else if off = 0x01C then s.onFtu fun f => { f with holdCfg := v &&& 0xFF07 }
  else if off = 0x050 then
    s.onFtu fun f => { f with ppsOutCfg := v &&& 0xFFFFFFF3, ppsOutPend := some (v &&& 0xFFFFFFF3, nextSecond s.ft) }
  else if off = 0x058 then s.onFtu fun f => { f with utc := v }
  else if 0x100 ≤ off ∧ off < 0x180 then s.onFtu fun f => { f with asym := f.asym.set ((off - 0x100) / 4) v }
  else s

/-- Accepted changes whose frame boundary has come take effect, and their commands reply (R46 R62). -/
def doFtCfgApply (s : State) : State :=
  let due := s.ftu.cfgPend.filter fun x => s.dueFrame x.accepted
  let s := s.onFtu fun f => { f with cfgPend := f.cfgPend.filter fun x => !s.dueFrame x.accepted }
  due.foldl (fun s x =>
    let s := x.writes.foldl (fun s (o, v) => s.ftCfgWrite o v) s
    match x.cmd with
    | some c => s.reply (if x.writes.any (fun (o, _) => 0x100 ≤ o) then 0x0C03 else 0x0C02) c false
                  { Answer.ok with ft := some s.frameFt }
    | none => s) s

/-- FT_CFG_APPLY (R62). -/
def execFtCfgApply (s : State) : Res := .next (doFtCfgApply s)

/-- A pulse-output change takes effect at a whole second (R58). -/
def doPpsOutCfgApply (s : State) : State :=
  match s.ftu.ppsOutPend with
  | some (v, t) => if t ≤ s.ft then s.onFtu fun f => { f with ppsOutLive := v, ppsOutPend := none } else s
  | none => s

/-- PPS_OUT_CFG_APPLY (R58). -/
def execPpsOutCfgApply (s : State) : Res := .next (doPpsOutCfgApply s)

/-- The FT_PPS_OUT level changed, told where it differs. -/
def State.drivePps (s : State) (v : Option Bool) : State :=
  if s.pins.ppsOut = v then s else (s.onPins fun p => { p with ppsOut := v }).emit (.ppsOut v)

/-- The phase of FT in the pulse's second: (FT + ADJ) mod 10^9 (R58). -/
def State.ppsPhase (s : State) : Nat :=
  (((s.ft : Int) + signed 16 (field s.ftu.ppsOutLive.toNat 16 16)) % 1000000000).toNat

/-- A second of FT + ADJ begins: FT has come to its instant, or passed it in the oscillator nanosecond that ends now. -/
def State.ppsSecond (s : State) : Bool := decide (s.ppsPhase < max 1 (s.ft - s.time.prev))

/-- Contention has tri-stated FT_PPS_OUT, and no pulse has driven it again (R529). -/
def State.ppsHeldOff (s : State) : Bool := s.pins.ppsOut.isNone && bit s.pins.fault 7

/-- FT_PPS_OUT at this instant: asserted where a second of FT + ADJ begins, low again WIDTH us later, held low by GATE
outside LOCKED and HOLDOVER, not driven while EN is 0 (R58). After contention the first pulse 16 s of FT later drives it again (R529). -/
def doFtPpsOutPulse (s : State) : State :=
  let v := s.ftu.ppsOutLive.toNat
  let width := max 1 (field v 4 12) * 1000
  let gated := bit v 1 && !(s.ftu.state == .locked || s.ftu.state == .holdover)
  if !bit v 0 then s.drivePps none
  else if s.ppsHeldOff && (gated || !s.ppsSecond || decide (s.ft < s.pins.ppsDriveAt)) then s
  else if gated then s.drivePps (some false)
  else if s.ppsSecond then (s.onPins fun p => { p with ppsPulseClean := true }).drivePps (some true)
  else if width ≤ s.ppsPhase && s.pins.ppsOut == some true then
    let s := if s.pins.ppsPulseClean then s.pinClear 7 else s
    s.drivePps (some false)
  else if s.pins.ppsOut.isNone then s.drivePps (some false)
  else s

/-- FT_PPS_OUT_PULSE (R58). -/
def execFtPpsOutPulse (s : State) : Res := .next (doFtPpsOutPulse s)

/-- A disagreement of 100 ns tri-states the output for 16 s of FT (R529). -/
def doPpsOutContend (s : State) : State :=
  if s.pins.ppsOut.isSome then
    ((s.onPins fun p => { p with ppsDriveAt := s.ft + 16000000000, ppsPulseClean := false }).drivePps none).pinFault 7
  else s

/-- PPS_OUT_CONTEND (R529). -/
def execPpsOutContend (s : State) : Res := .next (doPpsOutContend s)

/-! ## Commands of class TIME (04 R131, R59 to R62) -/

/-- The FT register set as a block of 384 bytes, each register at its offset of R60; WO registers read 0 (log 13). -/
def State.ftRegs (s : State) : Bytes :=
  let f := s.ftu
  toLe 8 s.ft ++ toLe 4 s.time.frac ++ zeros 4 ++ toLe 4 f.stateWord ++ toLe 4 f.srcCfg.toNat ++ toLe 4 f.lockThresh.toNat
    ++ toLe 4 f.holdCfg.toNat ++ toLe 4 f.offsetWord ++ toLe 4 (unsigned 32 f.freqAdj) ++ toLe 4 (f.boundWord s.ft)
    ++ zeros 4 ++ toLe 8 f.stepAt ++ toLe 8 (unsigned 64 f.stepAmt) ++ zeros 16 ++ toLe 4 f.ppsOutCfg.toNat
    ++ toLe 4 f.alignWord ++ toLe 4 f.utc.toNat ++ zeros (0x100 - 0x5C) ++ (f.asym.map fun v => toLe 4 v.toNat).flatten

/-- TIME_QUERY. It is no read of FT_ALIGN_STAT, and MAX_ERR stays: DESIGN CHOICE, R60 speaks of a register read (log 48). -/
def doTimeQuery (c : Cmd) (s : State) : State :=
  s.sf 0x0C01 c noDeny true false fun _ s => (s, some { Answer.ok with data := s.ftRegs })

/-- TIME_QUERY (04 R131). -/
def execTimeQuery (c : Cmd) (s : State) : Res := .next (doTimeQuery c s)

/-- The register writes of a TIME_CFG_SET: those that its mask selects. -/
def cfgSetWrites (c : Cmd) : List (Nat × W32) :=
  [(0, 0x014, 20), (1, 0x018, 24), (2, 0x01C, 28), (3, 0x050, 32), (4, 0x058, 36)].filterMap fun (b, off, at_) =>
    if bit (cmdByte c 16) b then some (off, BitVec.ofNat 32 (cmdLe c at_ 4)) else none

/-- Reserved bits of a configuration register. -/
def cfgReserved : Nat → Nat
  | 0x014 => 0xFFFFFF80
  | 0x018 => 0xFFFF0000
  | 0x01C => 0xFFFF00F8
  | 0x050 => 0x0000000C
  | _ => 0

/-- TIME_CFG_SET: the change waits for the next frame boundary, and so does the reply (R62). -/
def doTimeCfgSet (c : Cmd) (s : State) : State :=
  s.sf 0x0C02 c noDeny true false fun _ s =>
    let l := cfgSetWrites c
    if 32 ≤ cmdByte c 16 || l.any (fun (o, v) => v.toNat &&& cfgReserved o != 0) then (s, some (Answer.just St.badParam))
    else (s.onFtu fun f => { f with cfgPend := f.cfgPend ++ [{ writes := l, accepted := s.ft, cmd := some c }] }, none)

/-- TIME_CFG_SET (R62). -/
def execTimeCfgSet (c : Cmd) (s : State) : Res := .next (doTimeCfgSet c s)

/-- TIME_ASYM_SET (R62). -/
def doTimeAsymSet (c : Cmd) (s : State) : State :=
  s.sf 0x0C03 c noDeny true false fun _ s =>
    (s.onFtu fun f => { f with cfgPend := f.cfgPend ++
      [{ writes := [(0x100 + 4 * c.target.toNat, BitVec.ofNat 32 (cmdLe c 16 4))], accepted := s.ft, cmd := some c }] }, none)

/-- TIME_ASYM_SET (R62). -/
def execTimeAsymSet (c : Cmd) (s : State) : Res := .next (doTimeAsymSet c s)

/-- TIME_SET: the reply comes with the step; an ignored write ends with S_BAD_STATE (R61). -/
def doTimeSet (c : Cmd) (s : State) : State :=
  s.sf 0x0C04 c noDeny true false fun _ s =>
    if s.setAllowed then (s.ftSet (cmdLe c 16 8) (some c), none)
    else (s.ftSet (cmdLe c 16 8) none, some (Answer.just St.badState))

/-- TIME_SET (R61). -/
def execTimeSet (c : Cmd) (s : State) : Res := .next (doTimeSet c s)

end Sys2Proof.Machine
end

