-- ==== Sys2Proof/Machine/Pins.lean ====
section
/-! DEFINITION. Pins (19_package_and_pins.md): SYS_RST#, the strap test, the clock inputs and the open-drain faults. -/

namespace Sys2Proof.Machine

/-- SYS_RST# asserted: device reset, and every output tri-stated, so THERM_TRIP# and FT_PPS_OUT too (R523). From OFF the
auxiliary rails have come up with it (R517). ROM runs at the release, which ROM_BOOT is. -/
def doSysReset (s : State) : State :=
  let s := s.drivePps none
  let s := s.deviceReset s.pins.straps
  s.onPins fun p => { p with sysRst := true }

/-- SYS_RESET (R523). -/
def execSysReset (s : State) : Res := .next (doSysReset s)

/-- The strap test: a strap that does not follow its drive is shorted, once after each sampling; the bits of `stuck` are in
the order of STRAP_SHORT (R522 R530). -/
def doStrapTest (stuck : Nat) (s : State) : State :=
  if !s.romBegan || s.pins.sysRst then s
  else (List.range 7).foldl (fun s i => if bit stuck i then s.pinFault (44 + i) else s) s

/-- STRAP_TEST (R522). -/
def execStrapTest (stuck : Nat) (s : State) : Res := .next (doStrapTest stuck s)

/-- SYSCLK lost in operation: the clocks go on from the internal oscillator, every network link goes down, and a PTP source
is lost with them, which the FTU finds at a frame boundary (R41 R520). -/
def doSysclkLost (s : State) : State :=
  if !s.pins.sysclk then s
  else
    let s := s.onPins fun p => { p with sysclk := false }
    if !s.romBegan then s
    else
      let s := (s.pinFault 0).logRecord 36 [(8, [1])]
      let s := (List.range 32).foldl (fun s n => if s.linkUp n then s.portDown n true else s) s
      let s := if s.ftu.src = 1 ∧ s.ftu.srcPresent then s.onFtu fun f => { f with announceLost := true } else s
      s.oscUpdate

/-- SYSCLK_LOST (R520). -/
def execSysclkLost (s : State) : Res := .next (doSysclkLost s)

/-- SYSCLK present again for 1 ms: at a frame boundary it returns to the clocks, and the network ports retrain (R520). -/
def doSysclkReturn (s : State) : State :=
  if s.pins.sysclk then s
  else if !s.romBegan then s.onPins fun p => { p with sysclk := true }
  else if !s.onFrame then s
  else
    let s := s.onPins fun p => { p with sysclk := true }
    let s := (s.pinClear 0).logRecord 36 [(8, [2])]
    let s := s.oscUpdate
    if s.fatal then s
    else ((List.range 4).flatMap fun p => modePorts p (s.phys p).mode).foldl (fun s n =>
      s.onLogical n fun x => if x.up then x else { x with training := true, dropped := false }) s

/-- SYSCLK_RETURN (R520). -/
def execSysclkReturn (s : State) : Res := .next (doSysclkReturn s)

/-- HREFCLKn absent for 1 us: the port takes DL_Down (R520, 13 R385). -/
def doHrefclkLost (port : Nat) (s : State) : State :=
  if !(s.pins.hrefclk.getD port false) then s
  else
    let s := s.onPins fun p => { p with hrefclk := p.hrefclk.set port false }
    if !s.romBegan then s
    else (List.range (s.hostPort port).subLinks.length).foldl (fun s k => s.dlDown port k) (s.pinFault (1 + port))

/-- HREFCLK_LOST (R520). -/
def execHrefclkLost (port : Nat) (s : State) : Res := .next (doHrefclkLost port s)

/-- HREFCLKn is back and has been present for the 100 us after which the port may retrain (R520). -/
def doHrefclkReturn (port : Nat) (s : State) : State :=
  if s.pins.hrefclk.getD port true then s
  else
    let s := s.onPins fun p => { p with hrefclk := p.hrefclk.set port true, hrefReadyAt := p.hrefReadyAt.set port s.time.osc }
    if s.romBegan then s.pinClear (1 + port) else s

/-- HREFCLK_RETURN (R520). -/
def execHrefclkReturn (port : Nat) (s : State) : Res := .next (doHrefclkReturn port s)

/-- An open-drain line or a sideband output found shorted: its bit of PIN_FAULT is set. The interface of MGMT then stops, which
`emitMctp` and MCTP_REQUEST read from the bit (R526); the other interfaces keep no level that a release would change (log 42). -/
def doOpenDrainFault (b : Nat) (s : State) : State :=
  if 51 ≤ b ∧ b ≤ 57 then s.pinFault b else s

/-- OPEN_DRAIN_FAULT (R526). -/
def execOpenDrainFault (b : Nat) (s : State) : Res := .next (doOpenDrainFault b s)

end Sys2Proof.Machine
end

