-- ==== Sys2Proof/Machine/Regs.lean ====
section
/-! DEFINITION. Register accesses: the register space of a die as core threads reach it (01 R21, 02 R60, 11 R323, 18 R487,
19 R530), and REGISTER_WRITE with the fields of configuration space, the control page, the MSI-X table and the cipher pages. -/

namespace Sys2Proof.Machine

/-! ## The event routes (18 R487 R488) -/

/-- A local index of a die is a security-class source. -/
def evSec (die i : Nat) : Bool :=
  if die < 4 then i == 577 || (640 ≤ i && i < 672)
  else if die < 6 then false
  else i == 2 || (die == 6 && (i == 17 || i == 19 || i == 21))

/-- A local index of a die is a source of scope OWN or DEV. -/
def evFn (die i : Nat) : Bool :=
  if die < 4 then i < 257 || i == 448 || i == 449 || i == 512 || i == 576 || i == 771 || i == 775 || i == 779 || i == 832
    || (896 ≤ i && i < 900) || i == 960
  else if i == 240 || i == 248 || i == 249 then true
  else if die < 6 then i < 22 || (die == 4 && (i == 32 || i == 33))
  else i < 2 || (die == 6 && (i == 3 || i == 16 || i == 18 || i == 20))

/-- EV_ROUTE of a local index. -/
def State.evRoute (s : State) (die i : Nat) : Nat :=
  2 ^ 31 * b2n (evFn die i) + 2 ^ 30 * b2n (evSec die i) + match s.routeOf (sourceNo die i) with
    | some (th, inp, k) => 2 ^ 29 * b2n th + 65536 * inp + k
    | none => 0

/-! ## Reads -/

/-- A configuration register of the FTU as a read returns it: the last value written (00 R12), pending or in force. -/
def State.ftCfgRead (s : State) (off : Nat) (v : W32) : Nat :=
  ((s.ftu.cfgPend.flatMap (·.writes)).foldl (fun a (o, x) => if o = off then x else a) v).toNat

/-- A word of the FT block of N0, at its offset (02 R60). -/
def State.ftWord (s : State) (o : Nat) : Nat :=
  let f := s.ftu
  match o with
  | 0x014 => s.ftCfgRead o f.srcCfg % 128
  | 0x018 => (clampThresh (BitVec.ofNat 32 (s.ftCfgRead o f.lockThresh))).toNat
  | 0x01C => s.ftCfgRead o f.holdCfg &&& 0xFF07
  | 0x020 => f.offsetWord
  | 0x024 => unsigned 32 f.freqAdj
  | 0x028 => f.boundWord s.ft
  | 0x030 => f.stepAt % 2 ^ 32
  | 0x034 => f.stepAt / 2 ^ 32 % 2 ^ 32
  | 0x038 => unsigned 64 f.stepAmt % 2 ^ 32
  | 0x03C => unsigned 64 f.stepAmt / 2 ^ 32
  | 0x050 => f.ppsOutCfg.toNat
  | 0x054 => f.alignWord
  | 0x058 => s.ftCfgRead o f.utc
  | _ => if 0x100 ≤ o ∧ o < 0x180 then s.ftCfgRead o (f.asym.getD ((o - 0x100) / 4) 0) else 0

/-- A word of a DMA channel's registers (11 R323). -/
def DmaChan.word (x : DmaChan) (bound : Bool) : Nat → Nat
  | 0x00 => x.statusWord
  | 0x04 => if bound then 65536 + x.qid else 0
  | 0x08 => x.count
  | 0x10 => x.errAddr % 2 ^ 32
  | 0x14 => x.errAddr / 2 ^ 32 % 2 ^ 32
  | 0x18 => min x.retries 255
  | _ => 0

/-- An offset in a die's EV_ROUTE map (18 R487). -/
def evRouteOff (die off : Nat) : Bool := 0xA00000 ≤ off && off < 0xA00000 + (if die < 4 then 4096 else 1024)

/-- A 32-bit word of a die's register space; offsets that the spec lists nowhere read 0 (log 44). -/
def State.regWord (s : State) (die off : Nat) : Nat :=
  if off = 0x800000 then (s.dieClock die).1 % 2 ^ 32
  else if off = 0x800004 then s.time.latchHigh.getD die 0
  else if off = 0x800008 then s.time.latchFrac.getD die 0
  else if off = 0x800010 then s.ftu.stateWord
  else if 0x800000 ≤ off ∧ off < 0x800180 then (if die = 4 then s.ftWord (off - 0x800000) else 0)
  else if die < 4 ∧ 0x900000 ≤ off ∧ off < 0x904000 then
    match s.dmaChan (die * 256 + (off - 0x900000) / 64) with
    | some x => x.word true (off % 64)
    | none => 0
  else if evRouteOff die off = true then s.evRoute die ((off - 0xA00000) / 4)
  else if off = 0xA01000 then (s.ev.fwBase.getD die 0).toNat % 2 ^ 32
  else if off = 0xA01004 then (s.ev.fwBase.getD die 0).toNat / 2 ^ 32
  else if off = 0xA01008 then s.ev.fwP.getD die 0 % 65536
  else if die = 6 ∧ off = 0xB00000 then s.pins.fault % 2 ^ 32
  else if die = 6 ∧ off = 0xB00004 then s.pins.fault / 2 ^ 32 % 2 ^ 32
  else 0

/-- A die's register space answers: an I/O die always, a tile while it has power. -/
def State.dieAnswers (s : State) (die : Nat) : Bool := if die < 4 then s.tileOn die else die < 8

/-- A naturally aligned read of 4 or 8 bytes: the value, and what the read does (FT_NOW latches, FT_ALIGN_STAT clears). -/
def State.regRead (s : State) (die off size : Nat) : State × Nat :=
  let v := if size = 8 then
      (if off = 0x800000 then (s.dieClock die).1 % 2 ^ 64 else s.regWord die off + 2 ^ 32 * s.regWord die (off + 4))
    else s.regWord die off
  let s := if off = 0x800000 then s.latchFt die else s
  let s := if die = 4 ∧ (off = 0x800054 ∨ (off = 0x800050 ∧ size = 8)) then s.onFtu fun f => { f with maxErr := 0 } else s
  (s, v)

/-! ## Writes -/

/-- Half of a 64-bit register written. -/
def setHalf (old : W64) (high : Bool) (v : Nat) : W64 :=
  BitVec.ofNat 64 (if high then old.toNat % 2 ^ 32 + 2 ^ 32 * (v % 2 ^ 32) else old.toNat / 2 ^ 32 * 2 ^ 32 + v % 2 ^ 32)

/-- EV_FW_BASE: [16:0] are reserved. -/
def fwBaseMask (v : W64) : W64 := v &&& 0xFFFFFFFFFFFE0000

/-- A 32-bit word written. A write to EV_ROUTE, which only Buckram writes, is dropped, counted and reported (17 R460). -/
def State.regWrite32 (s : State) (die off v : Nat) : State :=
  let w : W32 := BitVec.ofNat 32 v
  if die = 4 ∧ (off = 0x800014 ∨ off = 0x800018 ∨ off = 0x80001C ∨ off = 0x800058 ∨ (0x800100 ≤ off ∧ off < 0x800180)) then
    s.onFtu fun f => { f with cfgPend := f.cfgPend ++ [{ writes := [(off - 0x800000, w)], accepted := s.ft, cmd := none }] }
  else if die = 4 ∧ off = 0x800050 then s.ftCfgWrite 0x050 w
  else if die = 4 ∧ off = 0x800010 then (if bit v 8 then s.onFtu fun f => { f with setIgn := false } else s)
  else if die = 4 ∧ off = 0x800054 then s.onFtu fun f => { f with dieErr := f.dieErr - (f.dieErr &&& (v / 2 ^ 24 % 256)) }
  else if die = 4 ∧ (off = 0x800048 ∨ off = 0x80004C) then
    s.onFtu fun f => { f with measOffs := setHalf f.measOffs (off == 0x80004C) v }
  else if evRouteOff die off = true then
    s.isoViolation 6 ((0xFF0000000000 + die * 0x10000000 + off) % 2 ^ 32)
  else if off = 0xA01000 ∨ off = 0xA01004 then
    s.onEv fun e => { e with fwBase := modAt e.fwBase die fun b => fwBaseMask (setHalf b (off == 0xA01004) v) }
  else s

/-- A naturally aligned write of 4 or 8 bytes. The registers whose write is an act take it only whole (log 44). -/
def State.regWrite (s : State) (die off size : Nat) (v : W64) : State :=
  if size = 8 ∧ die = 4 ∧ off = 0x800040 then doFtMeasAtWrite v s
  else if size = 8 ∧ die = 4 ∧ off = 0x800060 then s.ftSet v.toNat none
  else if size = 8 ∧ evRouteOff die off = true then s.regWrite32 die off v.toNat
  else if size = 8 then (s.regWrite32 die off (v.toNat % 2 ^ 32)).regWrite32 die (off + 4) (v.toNat / 2 ^ 32)
  else s.regWrite32 die off (v.toNat % 2 ^ 32)

/-! ## What configuration space reports (13 R361 to R368 R388) -/

/-- The capabilities of R367. -/
inductive Capability where
  | powerManagement | pciExpress | msix | aer | ari | acs | sriov | pasid | serialNumber | ltr | l1Substates
  | secondaryPcie | dataLinkFeature | physical16 | physical32 | physical64 | physical128 | laneMargining | flitLogging | device3
deriving DecidableEq, Repr

/-- The function is the first PF of its sub-link. -/
def State.isFirstPf (s : State) (f : FnRef) : Bool := !f.vf && s.firstPf f.port (s.subLinkOf f) == f

/-- A function carries a capability (R367). -/
def State.hasCap (s : State) (f : FnRef) : Capability → Bool
  | .powerManagement | .pciExpress | .msix | .aer | .ari | .acs => true
  | .sriov => !f.vf && (s.pfRecord f.port f.num).any (·.sriov)
  | .pasid => !f.vf
  | .l1Substates => s.isFirstPf f && s.subLinks f.port == 1
  | _ => s.isFirstPf f

/-- The routing ID offset of a function on its sub-link (R365). -/
def State.routingOffset (s : State) (f : FnRef) : Nat :=
  let m := s.subLinks f.port
  let sl := s.subLinkOf f
  if f.vf then 8 / m + f.num - sl * (1024 / m) else f.num - 8 * sl / m

/-- First VF Offset of a PF (R365). -/
def State.firstVfOffset (s : State) (f : FnRef) : Nat :=
  let m := s.subLinks f.port
  let sl := s.subLinkOf f
  8 / m + (s.firstVf f.port f.num - sl * (1024 / m)) - (f.num - 8 * sl / m)

/-- What a Configuration Read may ask for: the identity of R364, a written field, a BAR as its address and attribute bits (64-bit, and
prefetchable but for BAR4), whether a capability is there, and the settings of R361, R365, R367 and R388. -/
inductive CfgRead where
  | vendorId | subsystemVendorId | deviceId | vfDeviceId | classCode | revisionId | interruptPin
  | bar (n : Nat) | vfBar (n : Nat) | vfBarSize (n : Nat)
  | capability (c : Capability)
  | serial | totalVfs | firstVfOffset | vfStride | numVfs | vfEnable
  | maxPasidWidth | maxPayloadSupported | tableSize | tableBar | pbaOffset
  | completionTimeoutRanges | completionTimeoutDisable | l1ExitLatencyNs | linkWidth | linkRate
  | busMaster | memorySpace | completionTimeout | maxPayload | maxRead | uncStatus | corStatus | uncSeverity | uncMask | corMask
deriving DecidableEq, Repr

/-- The status word of logged errors of one kind. -/
def FnSt.aerStatus (x : FnSt) (cor : Bool) : Nat := ((x.aer.filter fun e => e.cor == cor).map fun e => 2 ^ e.index).sum

/-- The size of BAR0, BAR2 and BAR4 by 0 to 2: 16 MiB, 64 MiB and 64 KiB (R368). -/
def barSize (n : Nat) : Nat := [0x1000000, 0x4000000, 0x10000].getD n 1

/-- The value that configuration space gives; 0 for a field of a capability that the function does not carry. The identifier that PCI-SIG has
assigned to Floanhus is a free value (R364, log 27); L1 Exit Latency is the least value of its class (R388). -/
def State.configValue (s : State) (f : FnRef) (x : FnSt) : CfgRead → Nat
  | .vendorId | .subsystemVendorId => Config.vendorId % 65536
  | .deviceId => if f.vf then 0xFFFF else if (s.hostPort f.port).recovery then 0x880F else 0x8800
  | .vfDeviceId => 0x8801
  | .classCode => 0x028000
  | .revisionId => Config.stepping
  | .interruptPin => 0
  | .bar n => if f.vf then 0 else x.bars.getD n 0 + (if n < 2 then 12 else 4)
  | .vfBar n => if s.hasCap f .sriov then x.vfBars.getD n 0 + (if n < 2 then 12 else 4) else 0
  | .vfBarSize n => if s.hasCap f .sriov then barSize n else 0
  | .capability c => b2n (s.hasCap f c)
  | .serial => if s.hasCap f .serialNumber then le dsn 0 8 else 0
  | .totalVfs => if s.hasCap f .sriov then s.totalVfs f.port f.num else 0
  | .firstVfOffset => if s.hasCap f .sriov then s.firstVfOffset f else 0
  | .vfStride => b2n (s.hasCap f .sriov)
  | .numVfs => x.numVfs
  | .vfEnable => b2n x.vfEnable
  | .maxPasidWidth => if s.hasCap f .pasid then 20 else 0
  | .maxPayloadSupported => 512
  | .tableSize => s.tableSize f
  | .tableBar => 4
  | .pbaOffset => 0x8000
  | .completionTimeoutRanges => 15
  | .completionTimeoutDisable => 0
  | .l1ExitLatencyNs => 8000
  | .linkWidth => (((s.hostPort f.port).subLinks[s.subLinkOf f]?).map (·.width)).getD 0
  | .linkRate => (((s.hostPort f.port).subLinks[s.subLinkOf f]?).map (·.rate)).getD 0
  | .busMaster => b2n x.bme
  | .memorySpace => b2n x.mse
  | .completionTimeout => x.ctoValue
  | .maxPayload => x.maxPayload
  | .maxRead => x.maxRead
  | .uncStatus => x.aerStatus false
  | .corStatus => x.aerStatus true
  | .uncSeverity => x.uncSeverity
  | .uncMask => x.uncMask
  | .corMask => x.corMask

/-- A Configuration Read: the value, or Request Retry Status while the function is not ready (R366 R383). -/
def State.configRead (s : State) (f : FnRef) (r : CfgRead) : State × Option Nat :=
  match s.fn f with
  | none => (s.configRetry f, none)
  | some x => if s.configurable f then (s, some (s.configValue f x r)) else (s.configRetry f, none)

/-! ## Configuration space, BAR0, BAR4 and the cipher pages (13 R367 to R372, 10 R301) -/

/-- A payload or request size that the specification encodes, from 128 bytes up to a maximum (R361). -/
def sizeEncodes (most v : Nat) : Bool := [128, 256, 512, 1024, 2048, 4096].contains v && v ≤ most

/-- The uncorrectable and the correctable AER bits that the device has (R390). -/
def uncBits : Nat := 0x0057F030 &&& (2 ^ 4 + 2 ^ 5 + 2 ^ 12 + 2 ^ 13 + 2 ^ 14 + 2 ^ 16 + 2 ^ 17 + 2 ^ 18 + 2 ^ 20 + 2 ^ 22)
def corBits : Nat := 2 ^ 0 + 2 ^ 6 + 2 ^ 7 + 2 ^ 8 + 2 ^ 12

/-- A configuration field written; PASID Enable and the VF BARs are a PF's. A BAR keeps the bits above its size (R367 R368). -/
def FnSt.setField (x : FnSt) (r : CfgField) (v : Nat) : FnSt :=
  match r with
  | .mse => { x with mse := v % 2 == 1 }
  | .msixEnable => { x with msixEnable := v % 2 == 1 }
  | .msixMask => { x with msixMask := v % 2 == 1 }
  | .pasidEnable => if x.ref.vf then x else { x with pasidEnable := v % 2 == 1 }
  | .relaxed => { x with relaxed := v % 2 == 1 }
  | .ctoValue => { x with ctoValue := v % 16 }
  | .maxPayload => if sizeEncodes 512 v then { x with maxPayload := v } else x
  | .maxRead => if sizeEncodes 4096 v then { x with maxRead := v } else x
  | .aspmL1 => { x with aspmL1 := v % 2 == 1 }
  | .l1Substates => { x with l1ss := v % 4 }
  | .fatalReporting => { x with fatalReporting := v % 2 == 1 }
  | .nonFatalReporting => { x with nonFatalReporting := v % 2 == 1 }
  | .corReporting => { x with corReporting := v % 2 == 1 }
  | .ltrEnable => { x with ltrEnable := v % 2 == 1 }
  | .aer => { x with aer := x.aer.filter fun e => e.cor || !bit v e.index }
  | .aerCor => { x with aer := x.aer.filter fun e => !e.cor || !bit v e.index }
  | .uncSeverity => { x with uncSeverity := v &&& uncBits }
  | .uncMask => { x with uncMask := v &&& uncBits }
  | .corMask => { x with corMask := v &&& corBits }
  | .bar n => { x with bars := modAt x.bars n fun _ => v % 2 ^ 64 / barSize n * barSize n }
  | .vfBar n => if x.ref.vf then x else { x with vfBars := modAt x.vfBars n fun _ => v % 2 ^ 64 / barSize n * barSize n }

/-- The reads of a function that wait for a tag and that the host die no longer makes end as translation failures (R374). -/
def State.endRefused (s : State) (port : Nat) : State :=
  (s.host.reads.filter fun (_, r) => r.ref.fn.port == port && r.waiting && !s.requestOk r.own).foldl
    (fun s (t, r) => s.deliverRead t r .translation) s

/-- Changing Max_Payload_Size or Max_Read_Request_Size while the function has requests outstanding (R392). -/
def State.sizeHostError (s : State) (f : FnRef) (r : CfgField) (x : FnSt) : Bool :=
  ((r == .maxPayload || r == .maxRead) && s.host.reads.any fun (_, y) => y.ref.fn == f && !y.waiting)
    && (s.fn f).any fun y => y.maxPayload != x.maxPayload || y.maxRead != x.maxRead

/-- A Configuration Write to a field that has no command of its own. Pending vectors that it frees are sent (R372), and reads that it forbids
end (R374). A function that is not ready answers with Request Retry Status (R366 R383). -/
def State.configWrite (s : State) (f : FnRef) (r : CfgField) (v : Nat) : State :=
  if !s.configurable f then s.configRetry f
  else match s.fn f with
    | none => s
    | some x =>
      let t := ((s.onFn f (·.setField r v)).flushVectors f).endRefused f.port
      if s.sizeHostError f r (x.setField r v) then t.ownerHostError (.function f) else t

/-- FN_CMD_CFG without its reserved bits. -/
def cmdCfgMask (v : Nat) : W32 := BitVec.ofNat 32 v &&& 0x07FF00FF

/-- A write carries a nonzero value in a reserved field of the control page: of FN_CTRL, whose CMD_EN has commands of its own, or of
FN_CMD_CFG, which is not ignored (R392). The low bits of a base are checked when CMD_EN is set (R370, log 4). -/
def controlReserved (off size v : Nat) (cmdEn : Bool) : Bool :=
  (off == 0x008 && size == 4 && 2 ≤ v % 2 ^ 32)
    || (off == 0x028 && (size == 4 || size == 8) && !cmdEn && v % 2 ^ 32 &&& 0x07FF00FF != v % 2 ^ 32)

/-- A write to the control page that stores what it writes. The bases and FN_CMD_CFG are ignored while CMD_EN is 1; FN_CTRL has commands of
its own (R369 R370). The low bits of a base are kept, since CMD_EN refuses a misaligned one. -/
def State.controlStore (s : State) (f : FnRef) (off size : Nat) (v : W64) : State :=
  match s.fn f with
  | none => s
  | some x =>
    if s.fatal || !s.barOpen f || x.cmdEn then s
    else if size = 8 then
      match off with
      | 0x010 => s.onFn f fun x => { x with sqBase := v }
      | 0x018 => s.onFn f fun x => { x with cqBase := v }
      | 0x020 => s.onFn f fun x => { x with wbBase := v }
      | 0x028 => s.onFn f fun x => { x with cmdCfg := cmdCfgMask (v.toNat % 2 ^ 32) }
      | _ => s
    else if size = 4 then
      match off with
      | 0x010 => s.onFn f fun x => { x with sqBase := setHalf x.sqBase false v.toNat }
      | 0x014 => s.onFn f fun x => { x with sqBase := setHalf x.sqBase true v.toNat }
      | 0x018 => s.onFn f fun x => { x with cqBase := setHalf x.cqBase false v.toNat }
      | 0x01C => s.onFn f fun x => { x with cqBase := setHalf x.cqBase true v.toNat }
      | 0x020 => s.onFn f fun x => { x with wbBase := setHalf x.wbBase false v.toNat }
      | 0x024 => s.onFn f fun x => { x with wbBase := setHalf x.wbBase true v.toNat }
      | 0x028 => s.onFn f fun x => { x with cmdCfg := cmdCfgMask (v.toNat % 2 ^ 32) }
      | _ => s
    else s

/-- A write to the control page; a nonzero value in a reserved field is a host error of its function (R392). -/
def State.controlWrite (s : State) (f : FnRef) (off size : Nat) (v : W64) : State :=
  let t := s.controlStore f off size v
  if !s.fatal && s.barOpen f && (s.fn f).any (fun x => controlReserved off size v.toNat x.cmdEn) then t.ownerHostError (.function f) else t

/-- A word of an MSI-X entry other than its mask bit changes while its vector is unmasked and Function Mask is 0 (R392). -/
def State.msixHostError (s : State) (f : FnRef) (off : Nat) (v : W32) : Bool :=
  (s.fn f).any fun x => off % 16 != 12 && !x.vecMasked (off / 16) && (Tab.get x.vecEntries (off / 4)).getD 0 != v.toNat

/-- A word of the MSI-X table written, at 0x0000 of BAR4 (R367 R372). -/
def State.msixWrite (s : State) (f : FnRef) (off : Nat) (v : W32) : State :=
  if !s.barOpen f || off % 4 != 0 || 4 * s.tableSize f ≤ off / 4 then s
  else
    let t := (s.onFn f fun x => { x with vecEntries := Tab.set x.vecEntries (off / 4) v.toNat }).flushVectors f
    if s.msixHostError f off v then t.ownerHostError (.function f) else t

/-- The register of a cipher page that holds an offset is not accessed by an aligned access of its own width. -/
def cipherBad (off size : Nat) : Bool :=
  let reg := if off < 0x028 then off / 8 * 8 else if 0x040 ≤ off ∧ off < 0x080 then off / 8 * 8
             else if 0x100 ≤ off ∧ off < 0x110 then off / 8 * 8 else 0x1000
  let width := if reg == 0x018 || 0x040 ≤ reg then 8 else 4
  reg < 0x1000 && off < reg + width && !(off == reg && size == width)

/-- A register of a cipher page. -/
def State.cipherReg (t : Nat) (x : CyChan) (off : Nat) : Nat :=
  match off with
  | 0x000 => 2 ^ 31 + t / 65536 % 4 * 65536 + t % 4096
  | 0x008 => x.wide * 2 ^ 24 + x.valid * 65536 + x.active.length * 256 + 1
  | 0x010 => x.err
  | 0x100 => x.jobs
  | 0x108 => x.bytes
  | _ => 0

/-- A read of a cipher page: an unbound page and an offset without a register read 0, as a register does that is only written; an access
that is not aligned or not of its register's width reads 0 and is counted in DB_REJECT (10 R301). -/
def State.cipherRead (s : State) (f : FnRef) (page off size : Nat) : State × Nat :=
  match s.chanOfPage f page with
  | none => (s, 0)
  | some (t, x) => if cipherBad off size then (s.count Ct.func (fnWord f) 0, 0) else (s, State.cipherReg t x off)

/-- A read through a BAR of a function: BAR0 is the control page, BAR2 the cipher pages and the slices' doorbell pages, which read 0,
BAR4 the MSI-X table and PBA (13 R367 R368 R371 R372). A closed BAR does not answer. -/
def State.barRead (s : State) (f : FnRef) (bar off size : Nat) : Option (State × Nat) :=
  if !s.barOpen f then none
  else match bar with
    | 0 => some (s, if size = 8 then s.controlRead f off else if size = 4 then s.controlRead32 f off else 0)
    | 2 => some (s.cipherRead f (off / 4096) (off % 4096) size)
    | 4 => some (s, if size = 8 then s.msixRead f off + 2 ^ 32 * s.msixRead f (off + 4) else s.msixRead f off)
    | _ => some (s, 0)

/-- A write to a cipher page that has no command of its own: CY_ERR clears; an access that is not aligned or not of its
register's width is counted in DB_REJECT; any other is ignored (10 R301). -/
def State.cipherWrite (s : State) (f : FnRef) (page off size : Nat) (v : W64) : State :=
  s.pageWrite f page fun t s =>
    if cipherBad off size then s.count Ct.func (fnWord f) 0
    else if off = 0x010 then s.onChanCy t fun x => { x with err := x.err - (x.err &&& (v.toNat % 4)) }
    else s

/-- A register that a row of its own writes. -/
def ownRow (die off size : Nat) : Bool := die == 4 && size == 8 && (off == 0x800040 || off == 0x800060)

/-- A write to a register without a row of its own (00 R12). -/
def doRegisterWrite (a : RegAccess) (s : State) : State :=
  match a with
  | .config f r v => s.configWrite f r v
  | .control f off size v => s.controlWrite f off size v
  | .msix f off v => s.msixWrite f off v
  | .cipher f page off size v => s.cipherWrite f page off size v
  | .device die off size v =>
    if !s.dieAnswers die || !(size == 4 || size == 8) || off % size != 0 || ownRow die off size || s.fatal then s
    else s.regWrite die off size v

/-- REGISTER_WRITE (00 R12). -/
def execRegisterWrite (a : RegAccess) (s : State) : Res := .next (doRegisterWrite a s)

end Sys2Proof.Machine
end

