-- ==== Sys2Proof/Machine/Commands.lean ====
section
/-! DEFINITION. Requests by opcode: BUCKRAM_REQUEST, one turn of Buckram's mailbox (04 R122 R123), MCTP_REQUEST, a management
request received whole (04 R118), and the commands that were held and may now start (04 R118 R129). -/

namespace Sys2Proof.Machine

/-! ## Buckram's mailbox (04 R123) -/

/-- The caller whose turn it is: the first of the rotation that has a request waiting. -/
def State.bkNext (s : State) : Option Caller :=
  s.cmd.rota.find? fun w => s.cmd.mailbox.any fun r => bkCaller r == w

/-- A request for a route: a thread route of a security-class source, or an input above 23, is refused (18 R488). -/
def State.bkRoute (s : State) (src : Nat) (th : Bool) (inp thread : Nat) : State :=
  let die := sourceDie src
  let idx := if src < 4096 then src % 1024 else (src - 4096) % 256
  if (th && evSec die idx) || 23 < inp then s
  else
    let ft := s.ft
    let due := s.ev.routePend.filter fun x => nextFrame x.2.2.2.2 ≤ ft
    let rest := s.ev.routePend.filter fun x => ft < nextFrame x.2.2.2.2
    let routes := due.foldl (fun t x => Tab.set t x.1 (x.2.1, x.2.2.1, x.2.2.2.1)) s.ev.routes
    s.onEv fun e => { e with routes := routes, routePend := rest ++ [(src, th, inp, thread, ft)] }

/-- Buckram takes a request for a region, or refuses it (01 R25 R27). One that a TBL_CREATE waits for ends that command. -/
def State.bkRegion (s : State) (i : Nat) (r : Option Region) (why : Option (Cmd × Nat × Nat)) : State :=
  let ok := s.regionChangeOk i r
  let t := if ok then s.putRegion i r else s
  match why with
  | none => t
  | some (c, k, form) => t.finishForwarding c k form (if ok then some i else none)

/-- A request of service firmware's own, taken at once since none waits before it. -/
def State.bkAsk (s : State) (a : SfAsk) : State :=
  if !s.cmd.sfReady then s
  else match a with
    | .route src th inp thread => s.bkRoute src th inp thread
    | .place i l base size cb used on => s.bkRegion i
        (some { base := base, size := size, local3 := l, chanBase := cb, enabled := on, owner := .device, used := used }) none
    | .enable i on => match s.dram.regions.get i with
      | some r => s.bkRegion i (some { r with enabled := on }) none
      | none => s
    | .remove i => s.bkRegion i none none

/-- Buckram's part of an opcode. -/
def bkOpcode (code : Nat) (c : Cmd) (who : Caller) (env : BkEnv) (s : State) : State :=
  match code with
  | 0x0105 => bkDevReset c who s
  | 0x0201 => bkQueueCreate c who s
  | 0x0204 => bkQueueDestroy c who s
  | 0x0302 => bkSliceCreate c who s
  | 0x0304 => bkSliceReset c who s
  | 0x0305 => bkSliceDestroy c who s
  | 0x0307 => bkSpoofSet c who s
  | 0x0601 => bkKrmConnCreate c who s
  | 0x0602 => bkKrmConnDestroy c who s
  | 0x0604 => bkKrmWindowOpen c who s
  | 0x0605 => bkKrmWindowModify c who s
  | 0x0606 => bkKrmWindowRevoke c who s
  | 0x0701 => bkBlkVolumeCreate c who s
  | 0x0702 => bkBlkVolumeDestroy c who s
  | 0x0801 => bkCyChannelCreate c who s
  | 0x0802 => bkCyChannelDestroy c who s
  | 0x0903 => bkFwVerify c who env.mediaOk env.changed s
  | 0x0904 => bkFwActivate c who env.mediaOk env.changed s
  | 0x0905 => bkFwHealthConfirm c who env.mediaOk s
  | 0x0A01 => bkSecLifecycleSet c who env.noiseOk s
  | 0x0A02 => bkSecDebugChallenge c who s
  | 0x0A03 => bkSecDebugResponse c who s
  | 0x0A04 => bkSecDebugClose c who s
  | 0x0A05 => bkSecAttest c who env.rpmbOk s
  | 0x0A06 => bkSecMeasureRead c who s
  | 0x0A07 => bkSecKeyInstall c who s
  | 0x0B01 => bkPwTilePark c who s
  | 0x0B02 => bkPwTileUnpark c who s
  | 0x0B03 => bkPwCapSet c who s
  | 0x0B04 => bkPwStateSet c who s
  | 0x0E06 => bkDiagErrInject c who s
  | _ => s

/-- A command as Buckram sees it: header and caller from the operation context, and an INDIRECT parameter block as its own read finds
it (04 R122). -/
def State.blockFor (s : State) (c : Cmd) (env : BkEnv) : Cmd :=
  if cmdPbForm c = 1 ∧ c.pbLen ≠ 0 then
    if (cmdPbDesc c).dev then
      match s.devRead .engine (cmdPbDesc c).addr c.pbLen with
      | .data b => { c with pb := b, pbErr := none }
      | .poisoned => { c with pb := [], pbErr := some (s.badStatus (cmdPbDesc c).addr c.pbLen) }
      | .fault => { c with pb := [], pbErr := some St.hostReadErr }
    else { c with pb := env.pb, pbErr := env.pbErr }
  else c

/-- Buckram's read of a parameter block in device memory (14 R404). -/
def State.blockMeet (s : State) (c : Cmd) : State :=
  if cmdPbForm c = 1 ∧ (cmdPbDesc c).dev then s.meet 2 (cmdPbDesc c).addr c.pbLen else s

/-- Buckram takes the next request of its mailbox and applies it; with none waiting, what service firmware asks by itself. -/
def doBuckramRequest (env : BkEnv) (s : State) : State :=
  if s.fatal || s.power.dev == .off || s.pins.sysRst then s
  else match s.bkNext with
    | none => match env.ask with
      | some a => s.bkAsk a
      | none => s
    | some who =>
      match s.cmd.mailbox.find? fun r => bkCaller r == who with
      | none => s
      | some r =>
        let s := s.onCmd fun m => { m with
          mailbox := m.mailbox.erase r
          rota := if (m.mailbox.erase r).any fun x => bkCaller x == who then m.rota.erase who ++ [who] else m.rota.erase who }
        match r with
        | .command code c who =>
          if s.power.dev == .aux && !standbyOps.contains code then s.reply code c true (Answer.just St.badState) else bkOpcode code (s.blockFor c env) who env (s.blockMeet c)
        | .route src th inp thread => s.bkRoute src th inp thread
        | .region i r why => s.bkRegion i r why

/-- BUCKRAM_REQUEST (R123). -/
def execBuckramRequest (env : BkEnv) (s : State) : Res := .next (doBuckramRequest env s)

/-! ## Commands by opcode -/

/-- A defined opcode of classes 1 to 5. -/
def runLow (code : Nat) (c : Cmd) (s : State) : Option State :=
  match code with
  | 0x0101 => some (doDevIdentify c s)
  | 0x0102 => some (doDevHealth c s)
  | 0x0103 => some (doDevPortMode c s)
  | 0x0104 => some (doDevPortQuery c s)
  | 0x0105 => some (doDevReset c s)
  | 0x0201 => some (doQueueCreate c s)
  | 0x0202 => some (doQueueEnable c s)
  | 0x0203 => some (doQueueDisable c s)
  | 0x0204 => some (doQueueDestroy c s)
  | 0x0205 => some (doQueueQuery c s)
  | 0x0206 => some (doQueueMove c s)
  | 0x0301 => some (doFnQuery c s)
  | 0x0302 => some (doSliceCreate c s)
  | 0x0303 => some (doSliceQuiesce c s)
  | 0x0304 => some (doSliceReset c s)
  | 0x0305 => some (doSliceDestroy c s)
  | 0x0306 => some (doVfQuiesce c s)
  | 0x0307 => some (doSpoofSet c s)
  | 0x0308 => some (doSpoofQuery c s)
  | 0x0401 => some (doTblCreate c s)
  | 0x0402 => some (doTblSearch c s)
  | 0x0403 => some (doTblNext c s)
  | 0x0404 => some (doTblInsert c s)
  | 0x0405 => some (doTblDelete c s)
  | 0x0406 => some (doTblFlushByPort c s)
  | 0x0407 => some (doTblAgingSet c s)
  | 0x0501 => some (doTwShaperSet c s)
  | 0x0502 => some (doTwPolicerSet c s)
  | 0x0503 => some (doTwDgSet c s)
  | 0x0504 => some (doTwSchedLoad c s)
  | 0x0505 => some (doTwSchedSwap c s)
  | 0x0506 => some (s.twModeSet c)
  | 0x0507 => some (doTwQuery c s)
  | _ => none

/-- A defined opcode of classes 6 to 9. -/
def runMid (code : Nat) (c : Cmd) (s : State) : Option State :=
  match code with
  | 0x0601 => some (s.krmCreate c)
  | 0x0602 => some (doKrmConnDestroy c s)
  | 0x0603 => some (doKrmConnQuery c s)
  | 0x0604 => some (doKrmWindowOpen c s)
  | 0x0605 => some (doKrmWindowModify c s)
  | 0x0606 => some (doKrmWindowRevoke c s)
  | 0x0607 => some (doKrmConfig c s)
  | 0x0701 => some (doBlkVolumeCreate c s)
  | 0x0702 => some (doBlkVolumeDestroy c s)
  | 0x0703 => some (doBlkVolumeQuery c s)
  | 0x0704 => some (doBlkQueueReset c s)
  | 0x0705 => some (s.selftest c)
  | 0x0706 => some (doBlkSelftestQuery c s)
  | 0x0801 => some (doCyChannelCreate c s)
  | 0x0802 => some (doCyChannelDestroy c s)
  | 0x0803 => some (doCySliceTableSet c s)
  | 0x0804 => some (doCyQuery c s)
  | 0x0901 => some (doFwInfo c s)
  | 0x0902 => some (doFwWrite c s)
  | 0x0903 => some (doFwVerify c s)
  | 0x0904 => some (doFwActivate c s)
  | 0x0905 => some (doFwHealthConfirm c s)
  | 0x0906 => some (doFwAbort c s)
  | _ => none

/-- A defined opcode of classes 10 to 14. -/
def runHigh (code : Nat) (c : Cmd) (s : State) : Option State :=
  match code with
  | 0x0A01 => some (doSecLifecycleSet c s)
  | 0x0A02 => some (doSecDebugChallenge c s)
  | 0x0A03 => some (doSecDebugResponse c s)
  | 0x0A04 => some (doSecDebugClose c s)
  | 0x0A05 => some (doSecAttest c s)
  | 0x0A06 => some (doSecMeasureRead c s)
  | 0x0A07 => some (doSecKeyInstall c s)
  | 0x0B01 => some (doPwTilePark c s)
  | 0x0B02 => some (doPwTileUnpark c s)
  | 0x0B03 => some (doPwCapSet c s)
  | 0x0B04 => some (if cmdByte c 16 = 0 then doPwStateSetRun c s else doPwStateSetStandby c s)
  | 0x0B05 => some (doPwQuery c s)
  | 0x0C01 => some (doTimeQuery c s)
  | 0x0C02 => some (doTimeCfgSet c s)
  | 0x0C03 => some (doTimeAsymSet c s)
  | 0x0C04 => some (doTimeSet c s)
  | 0x0D01 => some (doCtRead c s)
  | 0x0D02 => some (doCtDumpSet c s)
  | 0x0D03 => some (doCtDumpCancel c s)
  | 0x0D04 => some (doCtSlicePerm c s)
  | 0x0D05 => some (s.sampleSet c)
  | 0x0E01 => some (doDiagEcho c s)
  | 0x0E02 => some (doDiagPinFault c s)
  | 0x0E03 => some (doDiagLogRead c s)
  | 0x0E04 => some (doDiagDramCal c s)
  | 0x0E05 => some (doDiagScrubSet c s)
  | 0x0E06 => some (doDiagErrInject c s)
  | _ => none

/-- A command of any opcode; one that is not defined ends with S_BAD_OP at check 1 of R127. -/
def runOpcode (code : Nat) (c : Cmd) (s : State) : State :=
  match runLow code c s with
  | some t => t
  | none => match runMid code c s with
    | some t => t
    | none => match runHigh code c s with
      | some t => t
      | none => s.sf code c noDeny true false fun _ s => (s, none)

/-! ## The MCTP endpoint (04 R118) -/

/-- The data that an opcode carries after its parameter block: the 64 KiB of FW_WRITE (15 R436). -/
def opcodeData (code : Nat) : Nat := if code = 0x0902 then 65536 else 0

/-- The command of a request body; absent bytes read 0. -/
def mctpCmd (tag : Nat) (b : Bytes) : Cmd :=
  let n := le b 12 2
  { src := .mctp tag, flags := BitVec.ofNat 16 (le b 2 2), tag := BitVec.ofNat 32 (le b 4 4),
    target := BitVec.ofNat 32 (le b 8 4), pbLen := n, rsv := BitVec.ofNat 16 (le b 14 2), params := sliceZ b 16 48,
    pb := slice b 64 n, pbErr := none, data := b.drop (64 + n) }

/-- The response to the MCTP control command Get Vendor Defined Message Support, with the enterprise number: the header of the request
without its Rq bit, success, no further set, and format IANA. The command's code and these places are PRESUMED, they are those of DSP0236 (log 54). -/
def vendorSupport (body : Bytes) : Bytes :=
  [byte (byteAt body 0 % 128), 0x06, 0x00, 0xFF, 0x01] ++ toBe 4 Config.enterpriseNumber.toNat ++ zeros 2

/-- A message received whole, of MCTP message type `kind`: a management request of type 0x7F, or a control message of type 0. A request
whose length is malformed is answered at once and not run (R118). -/
def doMctpRequest (tag : Nat) (m : MctpMsg) (s : State) : State :=
  let body := m.bytes
  if s.fatal || s.power.dev == .off || s.pins.sysRst || bit s.pins.fault 51 then s
  else if m.kind = 0 then (if byteAt body 1 = 6 then s.emitMctp false tag (vendorSupport body) else s)
  else if m.kind ≠ 0x7F then s
  else
    let code := le body 0 2
    let c := mctpCmd tag body
    if body.length < 64 || body.length != 64 + le body 12 2 + opcodeData code then
      s.emitMctp false tag (replyBytes code c (Answer.just St.badPblock) s.ft 0 false false)
    else runOpcode code c s

/-- MCTP_REQUEST (R118). -/
def execMctpRequest (tag : Nat) (body : MctpMsg) (s : State) : Res := .next (doMctpRequest tag body s)

/-! ## Held commands -/

/-- The held command that may start now: the first of the stream, for none starts before an earlier one (04 R118 R124 R129). -/
def State.heldReady (s : State) : Option (Nat × Cmd) :=
  s.cmd.held.head?.filter fun (code, c) => match s.gate code c.src with
    | .run => s.orderOk code c
    | .answer _ => true
    | _ => false

end Sys2Proof.Machine
end

