-- ==== Sys2Proof/Machine/Threads.lean ====
section
/-! DEFINITION. Threads (12_cores_threads.md): the issue of an instruction, faults, the Xkzch instructions, TH.CTL, deadlock
and watchdog, and the debugger. Each row of an instruction acts where the thread's next instruction is that one, at its pc. -/

namespace Sys2Proof.Machine

/-! ## Fetch and issue (R333 R335 R338) -/

/-- How the firewall sees a thread: the handover threads of an activation reach the handover region (17 R459). -/
def State.threadReq (s : State) (tid : Nat) : Requester :=
  .thread (s.boot.activation.isSome && s.handoverThreads.contains tid)

/-- What a fetch gives. -/
inductive Fetched where
  | ok (w len : Nat)
  | fault (cause fval : Nat)
deriving DecidableEq, Repr

/-- Two bytes of an instruction. -/
def State.fetchHalf (s : State) (tid a : Nat) : Fetched :=
  match s.devRead (s.threadReq tid) a 2 true with
  | .data b => .ok (le b 0 2) 2
  | .fault => .fault 1 a
  | .poisoned => .fault 25 a

/-- The instruction at an address: 16 bits, or 32 where the low two bits are 11. -/
def State.fetchAt (s : State) (tid a : Nat) : Fetched :=
  match s.fetchHalf tid a with
  | .fault c v => .fault c v
  | .ok lo _ =>
    if lo % 4 = 3 then
      match s.fetchHalf tid ((a + 2) % 2 ^ 64) with
      | .fault c v => .fault c v
      | .ok hi _ => .ok (lo + 65536 * hi) 4
    else .ok lo 2

/-- A thread has fetched `n` bytes at an address: the errors of their lines are met (14 R399 R401 R411). -/
def State.fetched (s : State) (a n : Nat) : State := s.meet 1 a n

/-- A thread that may issue. -/
def State.readyThread (s : State) (tid : Nat) : Option Thread :=
  match s.thread tid, s.core (tid / 8) with
  | some t, some c => if t.state = .run ∧ c.hung = false ∧ s.fatal = false then some t else none
  | _, _ => none

/-- A register of a thread. -/
def Thread.reg (t : Thread) (r : Nat) : Nat := (t.regs.getD r 0).toNat

/-- How an issued instruction ends: it retires with a new pc, blocks, stops its thread for the debugger, or faults. `addr` and
`level` are the fields of its sample record, `sfl` its MEM and TAKEN bits (R359). -/
inductive Ending where
  | retire (npc addr level sfl : Nat)
  | blocked
  | stop
  | fault (cause fval addr : Nat)
deriving DecidableEq, Repr

/-- A fault: the pc stays, FAULT is set in thread 0, and a fault of thread 0 is escalated at once (R338). A stepped thread returns
to DSTOP with the fault remembered. -/
def State.faultThread (s : State) (tid cause fval : Nat) : State :=
  let s := s.onThread tid fun t => { t with
    state := if t.stepping then .dstop else .faulted, remembered := if t.stepping then .faulted else t.remembered
    stepping := false, cause := cause, fval := BitVec.ofNat 64 fval |>.toNat }
  let s := s.postEvent (tid / 8 * 8) 28
  if tid % 8 = 0 then s.coreHung (tid / 8) 2 else s

/-- The LFSR of a core advances at an issue; the answer says whether the instruction is tagged and followed (R358). -/
def State.tagIssue (s : State) (tid : Nat) : State × Bool :=
  let k := s.cores.sampleK.getD (tid / 256) 0
  match s.core (tid / 8) with
  | none => (s, false)
  | some c =>
    if k = 0 then (s, false)
    else
      let v := lfsrNext c.lfsr
      let s := s.onCore (tid / 8) fun c => { c with lfsr := v }
      if v % 2 ^ k ≠ 0 then (s, false)
      else if c.follow.isSome then (s.count Ct.cores (tid / 256) 33, false)
      else (s, true)

/-- The record of a tagged instruction that has ended (R359). -/
def State.issueRecord (s : State) (tid pc addr level sfl : Nat) : State :=
  let h := match s.core (tid / 8) with
    | some c => c.hipri == some (tid % 8)
    | none => false
  (s.coreRecord (tid / 256) (sampleBytes s.ft pc addr tid (sfl + 16 * b2n h) level s.freeVal 0)).useFree

/-- The end of an instruction that a thread issued as it was in `t`: `s` is the state in which it was issued, `x` what its effect gives and how
it ends. A fault takes the effect back; a tagged instruction is recorded or, when it blocks, followed (R338 R358). -/
def State.issueEnd (s : State) (tid : Nat) (t : Thread) (tagged : Bool) (x : State × Ending) : State :=
  let s := match x with
    | (s', .retire npc addr level sfl) =>
      let s' := s'.onThread tid fun t => { t with
        pc := npc % 2 ^ 64, instret := (t.instret + 1) % 2 ^ 64
        state := if t.stepping && t.state == ThState.run then ThState.dstop else t.state, stepping := false }
      if tagged then s'.issueRecord tid t.pc addr level sfl else s'
    | (s', .blocked) =>
      let osc := s.time.osc
      let ft := s.ft
      if tagged then s'.onCore (tid / 8) fun c => { c with follow := some (tid, ft, osc) } else s'
    | (s', .stop) => s'
    | (_, .fault cause fval addr) =>
      let s' := (if cause = 24 ∨ cause = 25 then s.meet 1 fval 1 else s).faultThread tid cause fval
      if tagged then s'.issueRecord tid t.pc addr 0 (8 + b2n ([4, 5, 6, 7, 24].contains cause)) else s'
  s.coreSettle (tid / 8)

/-- An instruction of a ready thread: its effect, or its fault with no effect, and what follows. -/
def State.issue (s : State) (tid : Nat) (t : Thread) (body : State → State × Ending) : State :=
  let (s, tagged) := s.tagIssue tid
  s.issueEnd tid t tagged (body s)

/-- A value written to rd, and the end of a 4-byte instruction that names `addr` (R359: the CHID of a channel instruction). -/
def State.retire4 (s : State) (tid rd v addr : Nat) (level : Nat := 0) : State × Ending :=
  match s.thread tid with
  | none => (s, .blocked)
  | some t => (s.onThread tid (·.setReg rd v), .retire (t.pc + 4) addr level 0)

/-! ## Xkzch (R340) -/

/-- An R-type word of Xkzch. -/
def xkWord (opc f3 rd rs1 rs2 : Nat) : Nat := rs2 * 2 ^ 20 + rs1 * 2 ^ 15 + f3 * 2 ^ 12 + rd * 2 ^ 7 + opc

/-- A row of Xkzch: it acts where the word at the pc of its ready thread is its own, and its operands are (`mine`). -/
def State.xk (s : State) (tid w : Nat) (body : Thread → State → State × Ending) (mine : Thread → Bool := fun _ => true) : State :=
  match s.readyThread tid with
  | none => s
  | some t =>
    if s.fetchAt tid t.pc = .ok w 4 then
      let u := s.fetched t.pc 4
      match u.thread tid with
      | some t => if mine t then u.issue tid t (body t) else s
      | none => u
    else s

/-- Opcodes of Xkzch. -/
def xkCh : Nat := 0b0001011
def xkEv : Nat := 0b0101011

/-! ## Writing channels (R345 R346) -/

/-- An enabled channel, and no status; or BADCH. -/
def State.openChan (s : State) (ch : Nat) : Option Chan :=
  match s.chan ch with
  | some c => if c.en then some c else none
  | none => none

/-- PROD allows a thread to write (R343 R344): SP_DISP takes messages from any thread, SP_RX from none. -/
def Chan.writable (c : Chan) (ch tid : Nat) : Bool :=
  if ch % 2048 = 1 then true
  else c.prod == 0 || (c.prod == 1 && tid / 8 == ch / 2048 * 32 + c.pcore)

/-- The thread's open message, whole, goes to its channel, and its reservation becomes committed words. -/
def State.commitOpen (s : State) (tid ch : Nat) (words : List W64) : State :=
  let s := s.onThread tid fun t => { t with stagingCh := none, stagingLen := 0, staging := [] }
  let s := s.onChan ch fun c => { c with reserved := c.reserved - words.length }
  (s.commitMsg ch tid words).spaceCheck ch

/-- The status of CH.WRF, in the order of log 33, where it does not open a message. -/
def State.wrfStatus (s : State) (tid : Nat) (t : Thread) (d : Nat) : Option Nat :=
  let ch := d % 8192
  let len := field d 16 4 + 1
  if t.stagingCh.isSome then some 6
  else if d != ch + field d 16 4 * 65536 then some 8
  else match s.openChan ch with
    | none => some 4
    | some c =>
      if !c.writable ch tid then some 5
      else if c.maxLen + 1 < len then some 7
      else if c.free < len then some 2
      else none

/-- CH.WRF: a message is opened, or a one-word message committed. A refusal for space is watched. -/
def doChWrf (tid rd rs1 rs2 : Nat) (s : State) : State :=
  s.xk tid (xkWord xkCh 0 rd rs1 rs2) fun t s =>
    let d := t.reg rs1
    let w : W64 := t.regs.getD rs2 0
    let ch := d % 8192
    let len := field d 16 4 + 1
    match s.wrfStatus tid t d with
    | some 2 => (s.onThread tid fun t => { t with spaceWatch := some (ch, len) }).retire4 tid rd 2 ch
    | some st => s.retire4 tid rd st ch
    | none =>
      let s := s.onChan ch fun c => { c with reserved := c.reserved + len }
      let s := if len = 1 then s.commitOpen tid ch [w]
        else s.onThread tid fun t => { t with stagingCh := some ch, stagingLen := len, staging := [w] }
      s.retire4 tid rd 0 ch

/-- CH_WRF (R345). -/
def execChWrf (tid : Nat) (rd rs1 rs2 : BitVec 5) (s : State) : Res := .next (doChWrf tid rd.toNat rs1.toNat rs2.toNat s)

/-- CH.WR: the next word; the last commits. -/
def doChWr (tid rd rs2 : Nat) (s : State) : State :=
  s.xk tid (xkWord xkCh 1 rd 0 rs2) fun t s =>
    match t.stagingCh with
    | none => s.retire4 tid rd 6 0
    | some ch =>
      let words := t.staging ++ [t.regs.getD rs2 0]
      if (s.openChan ch).isNone then s.retire4 tid rd 4 ch
      else if t.stagingLen ≤ words.length then (s.commitOpen tid ch words).retire4 tid rd 0 ch
      else (s.onThread tid fun t => { t with staging := words }).retire4 tid rd 0 ch

/-- CH_WR (R345). -/
def execChWr (tid : Nat) (rd rs2 : BitVec 5) (s : State) : Res := .next (doChWr tid rd.toNat rs2.toNat s)

/-- CH.ABORT: the open message discarded. -/
def doChAbort (tid rd : Nat) (s : State) : State :=
  s.xk tid (xkWord xkCh 5 rd 0 0) fun t s =>
    match t.stagingCh with
    | none => s.retire4 tid rd 6 0
    | some ch => (s.discardStaging tid).retire4 tid rd 0 ch

/-- CH_ABORT (R346). -/
def execChAbort (tid : Nat) (rd : BitVec 5) (s : State) : Res := .next (doChAbort tid rd.toNat s)

/-! ## Reading channels (R347) -/

/-- The status of a read that cannot be made: BADCH or DENIED. SP_DISP is Twill's to read. -/
def State.readStatus (s : State) (tid v : Nat) : Option Nat :=
  if 8192 ≤ v ∨ (s.openChan v).isNone then some 4
  else if v / 2048 ≠ tid / 256 ∨ v % 2048 = 1 then some 5
  else none

/-- The oldest message into the receive buffer, or none there. -/
def State.recvMsg (s : State) (tid rd v : Nat) : Option (State × Ending) :=
  match s.takeMsg v with
  | (s, some (src, words)) => some ((s.onThread tid fun t => { t with recv := words }).retire4 tid rd (recvWord src words) v 7)
  | (_, none) => none

/-- CH.RECV: a message, or the thread blocks. -/
def doChRecv (tid rd rs1 : Nat) (s : State) : State :=
  s.xk tid (xkWord xkCh 2 rd rs1 0) fun t s =>
    let v := t.reg rs1
    match s.readStatus tid v with
    | some st => s.retire4 tid rd st (v % 8192)
    | none =>
      match s.recvMsg tid rd v with
      | some x => x
      | none =>
        ((s.onThread tid fun t => { t with state := .blockedCh, waitCh := v, waitRd := rd }).onChan v fun c =>
          { c with readers := c.readers ++ [tid] }, .blocked)

/-- CH_RECV (R347). -/
def execChRecv (tid : Nat) (rd rs1 : BitVec 5) (s : State) : Res := .next (doChRecv tid rd.toNat rs1.toNat s)

/-- CH.TRY: a message, or EMPTY. -/
def doChTry (tid rd rs1 : Nat) (s : State) : State :=
  s.xk tid (xkWord xkCh 3 rd rs1 0) fun t s =>
    let v := t.reg rs1
    match s.readStatus tid v with
    | some st => s.retire4 tid rd st (v % 8192)
    | none =>
      match s.recvMsg tid rd v with
      | some x => x
      | none => s.retire4 tid rd 1 v

/-- CH_TRY (R347). -/
def execChTry (tid : Nat) (rd rs1 : BitVec 5) (s : State) : Res := .next (doChTry tid rd.toNat rs1.toNat s)

/-- CH.GET: a word of the receive buffer, 0 beyond the message. -/
def doChGet (tid rd rs1 : Nat) (s : State) : State :=
  s.xk tid (xkWord xkCh 4 rd rs1 0) fun t s => s.retire4 tid rd (t.recv.getD (t.reg rs1 % 16) 0).toNat 0

/-- CH_GET (R347). -/
def execChGet (tid : Nat) (rd rs1 : BitVec 5) (s : State) : Res := .next (doChGet tid rd.toNat rs1.toNat s)

/-- The fill word of a channel. -/
def Chan.fill (c : Chan) : Nat :=
  c.committed + c.reserved * 2 ^ 16 + c.free * 2 ^ 32 + c.msgs.length % 2 ^ 15 * 2 ^ 48 + b2n c.en * 2 ^ 63

/-- CH.STAT: BADCH for no channel; the free words of a channel never configured are not stated (log 45). -/
def doChStat (tid rd rs1 : Nat) (s : State) : State :=
  s.xk tid (xkWord xkCh 6 rd rs1 0) fun t s =>
    let v := t.reg rs1
    let n := v % 2048
    if 8192 ≤ v ∨ (2 ≤ n ∧ n < 16) ∨ !s.tileOn (v / 2048) then s.retire4 tid rd 4 (v % 8192)
    else match s.chan v with
      | some c => s.retire4 tid rd c.fill v
      | none =>
        let x := s.freeVal % 65536
        s.useFree.retire4 tid rd (x * 2 ^ 32) v

/-- CH_STAT (R347). -/
def execChStat (tid : Nat) (rd rs1 : BitVec 5) (s : State) : Res := .next (doChStat tid rd.toNat rs1.toNat s)

/-! ## Configuring channels (R343) -/

/-- The depth of the enabled channels of a tile but one. -/
def State.chanStore (s : State) (tile ch : Nat) : Nat :=
  ((s.cores.chans.filter fun (k, c) => k / 2048 == tile && k != ch && c.en).map fun (_, c) => 2 ^ c.logDepth).sum

/-- The status of CH.CFG where it changes nothing, in the order of log 33: a channel of a parked tile does not exist. -/
def State.cfgStatus (s : State) (tid v w : Nat) : Option Nat :=
  let n := v % 2048
  let en := bit w 31
  let sp := n < 2
  if 8192 ≤ v ∨ !s.tileOn (v / 2048) then some 4
  else if v / 2048 ≠ tid / 256 ∨ (2 ≤ n ∧ n < 16) then some 5
  else if 2 ^ 32 ≤ w ∨ field w 20 4 ≠ 0 ∨ field w 4 12 ≠ 0 ∨ (!sp && decide (2 ≤ field w 29 2)) ∨ (en && decide (field w 16 4 < 4))
  then some 8
  else if (s.chan v).any fun c => !c.msgs.isEmpty || c.reserved != 0 then some 9
  else if en && decide (131072 < s.chanStore (v / 2048) v + 2 ^ field w 16 4) then some 2
  else none

/-- The channel that a configuration word makes; channels 0 and 1 take EN and LOGDEPTH alone. -/
def chanOf (old : Option Chan) (n w : Nat) : Chan :=
  let readers := (old.map (·.readers)).getD []
  if n < 2 then { (old.getD (Chan.slowPath 0 (if n = 0 then 8 else 1))) with en := bit w 31, logDepth := field w 16 4 }
  else { en := bit w 31, prod := field w 29 2, pcore := field w 24 5, logDepth := field w 16 4, maxLen := w % 16, msgs := []
         reserved := 0, readers := readers }

/-- CH.CFG. -/
def doChCfg (tid rd rs1 rs2 : Nat) (s : State) : State :=
  s.xk tid (xkWord xkCh 7 rd rs1 rs2) fun t s =>
    let v := t.reg rs1
    let w := t.reg rs2
    match s.cfgStatus tid v w with
    | some st => s.retire4 tid rd st (v % 8192)
    | none =>
      let s := s.onCores fun c => { c with chans := c.chans.set v (chanOf (s.chan v) (v % 2048) w) }
      ((s.spaceCheck v).tileSettle (tid / 256)).retire4 tid rd 0 v

/-- CH_CFG (R343). -/
def execChCfg (tid : Nat) (rd rs1 rs2 : BitVec 5) (s : State) : Res := .next (doChCfg tid rd.toNat rs1.toNat rs2.toNat s)

/-! ## Events (R350) -/

/-- EV.WAIT: the masked pending bits, or the thread blocks. -/
def doEvWait (tid rd rs1 : Nat) (s : State) : State :=
  s.xk tid (xkWord xkEv 0 rd rs1 0) fun t s =>
    let m := t.pending &&& t.reg rs1
    if m ≠ 0 then s.retire4 tid rd m 0
    else (s.onThread tid fun u => { u with state := .blockedEv, waitMask := t.reg rs1, waitRd := rd }, .blocked)

/-- EV_WAIT (R350). -/
def execEvWait (tid : Nat) (rd rs1 : BitVec 5) (s : State) : Res := .next (doEvWait tid rd.toNat rs1.toNat s)

/-- EV.CLR: the bits cleared; thread 0 clearing DEADLOCK re-arms its detection (R352). -/
def doEvClr (tid rd rs1 : Nat) (s : State) : State :=
  s.xk tid (xkWord xkEv 1 rd rs1 0) fun t s =>
    let m := t.reg rs1
    let s := s.onThread tid fun t => { t with pending := t.pending - (t.pending &&& m) }
    let s := if tid % 8 = 0 ∧ bit m 29 then s.onCore (tid / 8) fun c => { c with deadlockArmed := true } else s
    s.retire4 tid rd t.pending 0

/-- EV_CLR (R350). -/
def execEvClr (tid : Nat) (rd rs1 : BitVec 5) (s : State) : Res := .next (doEvClr tid rd.toNat rs1.toNat s)

/-- EV.READ. -/
def doEvRead (tid rd : Nat) (s : State) : State :=
  s.xk tid (xkWord xkEv 2 rd 0 0) fun t s => s.retire4 tid rd t.pending 0

/-- EV_READ (R350). -/
def execEvRead (tid : Nat) (rd : BitVec 5) (s : State) : Res := .next (doEvRead tid rd.toNat s)

/-- EV.POST: a software event bit in a thread of any tile. -/
def doEvPost (tid rd rs1 rs2 : Nat) (s : State) : State :=
  s.xk tid (xkWord xkEv 3 rd rs1 rs2) fun t s =>
    let k := t.reg rs1
    let b := t.reg rs2
    if 1024 ≤ k ∨ (s.thread k).isNone ∨ b < 24 ∨ 27 < b then s.retire4 tid rd 8 0
    else (s.postEvent k b).retire4 tid rd 0 0

/-- EV_POST (R350). -/
def execEvPost (tid : Nat) (rd rs1 rs2 : BitVec 5) (s : State) : Res := .next (doEvPost tid rd.toNat rs1.toNat rs2.toNat s)

/-! ## TH.CTL (R336 R351) -/

/-- The state word of a thread. -/
def State.thWord (s : State) (tid : Nat) : Nat :=
  match s.thread tid with
  | none => 0
  | some t => t.word (match s.core (tid / 8) with
      | some c => c.hipri == some (tid % 8)
      | none => false)

/-- A TH.CTL with one of a row's operations: illegal but in thread 0; the operation is applied where the target is neither
thread 0 itself nor in DSTOP, or where it may be applied to both. It answers the value for rd. -/
def State.thCtl (s : State) (tid rd rs1 rs2 : Nat) (ops : List Nat) (always : Bool)
    (eff : Nat → Thread → Nat → State → State × Option Nat) : State :=
  s.xk tid (xkWord xkEv 4 rd rs1 rs2) (mine := fun t => ops.contains (field (t.reg rs1) 8 4)) fun t s =>
    if tid % 8 ≠ 0 then (s, .fault 2 (xkWord xkEv 4 rd rs1 rs2) 0)
    else
      let k := tid + t.reg rs1 % 8
      match s.thread k with
      | none => s.retire4 tid rd 0 0
      | some x =>
        let (s, v) := if always || (k != tid && x.state != .dstop) then eff k x (t.reg rs2) s else (s, none)
        s.retire4 tid rd (v.getD (s.thWord k)) 0

/-- QUERY, and the operations that R351 does not list, which change nothing. -/
def doThCtlQuery (tid rd rs1 rs2 : Nat) (s : State) : State :=
  s.thCtl tid rd rs1 rs2 [0, 9, 10, 11, 12, 13, 14, 15] true fun _ _ _ s => (s, none)
/-- TH_CTL_QUERY (R351). -/
def execThCtlQuery (tid : Nat) (rd rs1 rs2 : BitVec 5) (s : State) : Res := .next (doThCtlQuery tid rd.toNat rs1.toNat rs2.toNat s)

/-- STOP. -/
def doThCtlStop (tid rd rs1 rs2 : Nat) (s : State) : State :=
  s.thCtl tid rd rs1 rs2 [1] false fun k x _ s =>
    match x.state with
    | .run | .blockedCh | .blockedEv => (s.halt k .sstop .run, none)
    | _ => (s, none)
/-- TH_CTL_STOP (R351). -/
def execThCtlStop (tid : Nat) (rd rs1 rs2 : BitVec 5) (s : State) : Res := .next (doThCtlStop tid rd.toNat rs1.toNat rs2.toNat s)

/-- RESUME. -/
def doThCtlResume (tid rd rs1 rs2 : Nat) (s : State) : State :=
  s.thCtl tid rd rs1 rs2 [2] false fun k x _ s =>
    match x.state with
    | .sstop | .faulted => (s.onThread k fun x => { x with state := .run }, none)
    | _ => (s, none)
/-- TH_CTL_RESUME (R351). -/
def execThCtlResume (tid : Nat) (rd rs1 rs2 : BitVec 5) (s : State) : Res := .next (doThCtlResume tid rd.toNat rs1.toNat rs2.toNat s)

/-- KILL. -/
def doThCtlKill (tid rd rs1 rs2 : Nat) (s : State) : State :=
  s.thCtl tid rd rs1 rs2 [3] false fun k _ _ s => ((s.halt k .idle .run).discardStaging k, none)
/-- TH_CTL_KILL (R351). -/
def execThCtlKill (tid : Nat) (rd rs1 rs2 : BitVec 5) (s : State) : Res := .next (doThCtlKill tid rd.toNat rs1.toNat rs2.toNat s)

/-- START; the lowest bit of a pc is 0 (log 45). -/
def doThCtlStart (tid rd rs1 rs2 : Nat) (s : State) : State :=
  s.thCtl tid rd rs1 rs2 [4] false fun k x a s =>
    if x.state = .idle then
      ((s.discardStaging k).onThread k fun x => { x with state := .run, remembered := .run, pc := a / 2 * 2 }, none)
    else (s, none)
/-- TH_CTL_START (R351). -/
def execThCtlStart (tid : Nat) (rd rs1 rs2 : BitVec 5) (s : State) : Res := .next (doThCtlStart tid rd.toNat rs1.toNat rs2.toNat s)

/-- DISCARD. -/
def doThCtlDiscard (tid rd rs1 rs2 : Nat) (s : State) : State :=
  s.thCtl tid rd rs1 rs2 [5] false fun k x _ s =>
    match x.state with
    | .sstop | .faulted => (s.discardStaging k, none)
    | _ => (s, none)
/-- TH_CTL_DISCARD (R351). -/
def execThCtlDiscard (tid : Nat) (rd rs1 rs2 : BitVec 5) (s : State) : Res := .next (doThCtlDiscard tid rd.toNat rs1.toNat rs2.toNat s)

/-- SETPRI: one mark per core. -/
def doThCtlSetpri (tid rd rs1 rs2 : Nat) (s : State) : State :=
  s.thCtl tid rd rs1 rs2 [6] true fun k _ a s =>
    (s.onCore (tid / 8) fun c => { c with
      hipri := if a % 2 = 1 then some (k % 8) else if c.hipri == some (k % 8) then none else c.hipri }, none)
/-- TH_CTL_SETPRI (R336). -/
def execThCtlSetpri (tid : Nat) (rd rs1 rs2 : BitVec 5) (s : State) : Res := .next (doThCtlSetpri tid rd.toNat rs1.toNat rs2.toNat s)

/-- FPC. -/
def doThCtlFpc (tid rd rs1 rs2 : Nat) (s : State) : State :=
  s.thCtl tid rd rs1 rs2 [7] false fun _ x _ s => (s, if x.state = .faulted then some x.pc else none)
/-- TH_CTL_FPC (R351). -/
def execThCtlFpc (tid : Nat) (rd rs1 rs2 : BitVec 5) (s : State) : Res := .next (doThCtlFpc tid rd.toNat rs1.toNat rs2.toNat s)

/-- FVAL. -/
def doThCtlFval (tid rd rs1 rs2 : Nat) (s : State) : State :=
  s.thCtl tid rd rs1 rs2 [8] false fun _ x _ s => (s, if x.state = .faulted then some x.fval else none)
/-- TH_CTL_FVAL (R351). -/
def execThCtlFval (tid : Nat) (rd rs1 rs2 : BitVec 5) (s : State) : Res := .next (doThCtlFval tid rd.toNat rs1.toNat rs2.toNat s)

/-! ## Deadlock and watchdog (R352 R353) -/

/-- A core all-blocked for 4,096 clocks, which are 2,048 ns: DEADLOCK in thread 0, once until thread 0 clears it. -/
def doDeadlockDetect (core : Nat) (s : State) : State :=
  match s.core core with
  | none => s
  | some c =>
    match c.blockedSince with
    | none => s
    | some t =>
      if s.fatal || c.hung || !c.deadlockArmed || !s.allBlocked core || s.time.osc < t + 2048 then s
      else
        let s := (s.onCore core fun c => { c with deadlockArmed := false }).count Ct.cores (core / 32) (core % 32)
        (s.postEvent (core * 8) 29).coreSettle core

/-- DEADLOCK_DETECT (R352). -/
def execDeadlockDetect (core : Nat) (s : State) : Res := .next (doDeadlockDetect core s)

/-- The watchdog interval in ns: 0 is taken as 100 us; above 1,000 us it is one of the interval's values that the spec does not
state (log 45). -/
def Thread.wdInterval (t : Thread) : Nat :=
  let v := t.kzwdog.toNat % 1024
  1000 * (if v = 0 then 100 else if 1000 < v then 1 + Config.freeNat v % 1000 else v)

/-- The watchdog's condition has stood for the interval at a frame boundary: CORE_HUNG, for a fault or for a deadlock. -/
def doWatchdogExpire (core : Nat) (s : State) : State :=
  match s.core core, s.thread (core * 8) with
  | some c, some t =>
    if s.fatal || c.hung || !s.onFrame || !s.wdCondition core || s.wdPaused core || c.wdStart.isNone || c.wdTime s.ft < t.wdInterval
    then s
    else
      let faulted := (coreThreads core).any fun k => match s.thread k with
        | some x => x.state == .faulted
        | none => false
      s.coreHung core (if bit t.pending 28 || faulted then 0 else 1)
  | _, _ => s

/-- WATCHDOG_EXPIRE (R353). -/
def execWatchdogExpire (core : Nat) (s : State) : Res := .next (doWatchdogExpire core s)

/-! ## The debugger (R355 R356) -/

/-- The debugger may act: the level in force is HALT or FULL. -/
def State.debugOpen (s : State) : Bool := 2 ≤ s.trust.level

/-- What a debugger may reach (17 R481). -/
inductive DebugTarget where
  | tileCounters | ioCounters | dumps | sampling | log | ftRegs | threadOps | buckram | secureRegions | firewallBypass | fuses
  | alwaysOnRegs | idleDram
deriving DecidableEq, Repr

/-- The table of R481: what the debugger reaches at the level in force and in the device's power state; counters and sampling of tiles and
the operations on threads are those of unparked tiles. D3hot of a function changes nothing here. -/
def State.debugReaches (s : State) (x : DebugTarget) : Bool :=
  let run := s.power.dev == .run
  let standby := s.power.dev == .standby
  match x with
  | .log | .ftRegs => 1 ≤ s.trust.level
  | .ioCounters => 1 ≤ s.trust.level && (run || standby)
  | .tileCounters | .dumps | .sampling => 1 ≤ s.trust.level && run
  | .threadOps => 2 ≤ s.trust.level && run
  | .secureRegions | .firewallBypass => s.trust.level == 3 && run
  | .buckram | .fuses | .alwaysOnRegs => s.trust.level == 3
  | .idleDram => s.trust.level == 3 && standby

/-- What a fuse read gives of a secret field of `n` bytes: DS_DEV, DS[g], TK or ORK reads as zero while it is present and as all ones once it
is destroyed, at every level (17 R463 R481). -/
def fuseReadSecret (n : Nat) (destroyed : Bool) : Bytes := List.replicate n (if destroyed then 0xFF else 0)

/-- A debugger operation on a thread, after which its core settles. -/
def State.debug (s : State) (tid : Nat) (eff : Thread → State → State) : State :=
  match s.thread tid with
  | none => s
  | some t => if s.debugOpen then (eff t s).coreSettle (tid / 8) else s

/-- STOP: DSTOP, over the state that RESUME gives back. -/
def doDebugStop (tid : Nat) (s : State) : State :=
  s.debug tid fun t s =>
    match t.state with
    | .dstop => s
    | .run | .blockedCh | .blockedEv => s.halt tid .dstop .run
    | st => s.onThread tid fun t => { t with state := .dstop, remembered := st }
/-- DEBUG_STOP (R356). -/
def execDebugStop (tid : Nat) (s : State) : Res := .next (doDebugStop tid s)

/-- RESUME. -/
def doDebugResume (tid : Nat) (s : State) : State := s.debug tid fun _ s => s.leaveDstop tid
/-- DEBUG_RESUME (R356). -/
def execDebugResume (tid : Nat) (s : State) : Res := .next (doDebugResume tid s)

/-- STEP: the thread runs until one instruction completes. A thread that a STOP found IDLE or in SSTOP issues nothing. -/
def doDebugStep (tid : Nat) (s : State) : State :=
  s.debug tid fun t s =>
    if t.state = .dstop ∧ (t.remembered = .run ∨ t.remembered = .faulted) then
      s.onThread tid fun t => { t with state := .run, remembered := .run, stepping := true }
    else s
/-- DEBUG_STEP (R356). -/
def execDebugStep (tid : Nat) (s : State) : Res := .next (doDebugStep tid s)

/-- DISCARD. -/
def doDebugDiscard (tid : Nat) (s : State) : State := s.debug tid fun _ s => s.discardStaging tid
/-- DEBUG_DISCARD (R356). -/
def execDebugDiscard (tid : Nat) (s : State) : Res := .next (doDebugDiscard tid s)

/-- KILL. -/
def doDebugKill (tid : Nat) (s : State) : State := s.debug tid fun _ s => s.kill tid
/-- DEBUG_KILL (R356). -/
def execDebugKill (tid : Nat) (s : State) : Res := .next (doDebugKill tid s)

/-- The cycle CSR: the core clocks of the tile, from the thread's own offset on (R333, 16 R456). -/
def State.cycleOf (s : State) (tid : Nat) (t : Thread) : Nat := (t.cycle + s.coreClocks (tid / 256)) % 2 ^ 64

/-- A register as the debugger reads it: pc, x1 to x31, and the CSRs kzwake, kzwdog, cycle, instret, time and mhartid (R355). -/
def State.debugRead (s : State) (tid : Nat) (t : Thread) (r : Nat) : Option Nat :=
  if r = 0 then some t.pc
  else if r < 32 then some (t.reg r)
  else match r with
    | 32 => some (t.wakeMask tid)
    | 33 => some (if tid % 8 = 0 then t.kzwdog.toNat else 0)
    | 34 => some (s.cycleOf tid t)
    | 35 => some t.instret
    | 36 => some ((s.dieClock (tid / 256)).1 % 2 ^ 64)
    | 37 => some tid
    | _ => none

/-- A register written by the debugger; time and mhartid are read-only. -/
def State.debugWrite (s : State) (tid : Nat) (t : Thread) (r : Nat) (v : W64) : Thread :=
  if r = 0 then { t with pc := v.toNat / 2 * 2 }
  else if r < 32 then t.setReg r v.toNat
  else match r with
    | 32 => { t with kzwake := BitVec.ofNat 32 v.toNat }
    | 33 => if tid % 8 = 0 then { t with kzwdog := BitVec.ofNat 32 (v.toNat % 1024) } else t
    | 34 => { t with cycle := (v.toNat + 2 ^ 64 - s.coreClocks (tid / 256) % 2 ^ 64) % 2 ^ 64 }
    | 35 => { t with instret := v.toNat }
    | _ => t

/-- Register and buffer accesses. -/
def doDebugRegAccess (tid : Nat) (a : DebugAccess) (s : State) : State :=
  s.debug tid fun t s =>
    match a with
    | .readReg r => match s.debugRead tid t r with
      | some v => s.emit (.readValue v)
      | none => s
    | .writeReg r v => s.onThread tid fun t => s.debugWrite tid t r v
    | .readStaging => s.emit (.readBuffer (t.staging.flatMap fun w => toLe 8 w.toNat))
    | .readReceive => s.emit (.readBuffer (t.recv.flatMap fun w => toLe 8 w.toNat))
/-- DEBUG_REG_ACCESS (R355). -/
def execDebugRegAccess (tid : Nat) (a : DebugAccess) (s : State) : Res := .next (doDebugRegAccess tid a s)

end Sys2Proof.Machine
end

