-- ==== Sys2Proof/Machine/Rv64.lean ====
section
/-! DEFINITION. The base instructions of the cores: RV64IMAC with Zba, Zbb, Zicsr and Zifencei (12 R333), whose encodings and
results are those of the RISC-V specification that R333 names (log 12). Values are below 2^64. -/

namespace Sys2Proof.Machine

/-! ## Values -/

/-- The low `n` bits sign-extended to 64. -/
def sx (n v : Nat) : Nat := unsigned 64 (signed n v)

/-- A value as a signed 64-bit number. -/
def s64 (v : Nat) : Int := signed 64 v

/-- A signed number as 64 bits. -/
def u64 (v : Int) : Nat := unsigned 64 v

/-- All ones. -/
def ones64 : Nat := 2 ^ 64 - 1

/-- The number of bits that are 1 among the low `n`. -/
def popcount (n v : Nat) : Nat := ((List.range n).filter fun i => bit v i).length

/-- Zeros above the highest 1, in `n` bits. -/
def leading (n v : Nat) : Nat := ((List.range n).takeWhile fun i => !bit v (n - 1 - i)).length

/-- Zeros below the lowest 1, in `n` bits. -/
def trailing (n v : Nat) : Nat := ((List.range n).takeWhile fun i => !bit v i).length

/-- Rotation to the right of `n` bits. -/
def rotr (n v k : Nat) : Nat := (v % 2 ^ n) / 2 ^ (k % n) + v * 2 ^ (n - k % n) % 2 ^ n

/-- Arithmetic shift to the right of `n` bits, sign-extended to 64. -/
def sar (n v k : Nat) : Nat := u64 (signed n v / (2 ^ k : Nat))

/-! ## Division (the corners of the M extension) -/

def divS (n a b : Nat) : Nat :=
  let x := signed n a
  let y := signed n b
  if y = 0 then ones64 else sx n (u64 (x.tdiv y))
def divU (n a b : Nat) : Nat := if b % 2 ^ n = 0 then ones64 else sx n (a % 2 ^ n / (b % 2 ^ n))
def remS (n a b : Nat) : Nat :=
  let x := signed n a
  let y := signed n b
  if y = 0 then u64 x else u64 (x.tmod y)
def remU (n a b : Nat) : Nat := if b % 2 ^ n = 0 then sx n a else sx n (a % 2 ^ n % (b % 2 ^ n))

/-! ## Arithmetic by encoding -/

/-- The multiplications and divisions of 64 bits. -/
def mulDiv (f3 a b : Nat) : Nat :=
  match f3 with
  | 0 => a * b % 2 ^ 64
  | 1 => u64 (s64 a * s64 b / (2 ^ 64 : Nat))
  | 2 => u64 (s64 a * (b : Int) / (2 ^ 64 : Nat))
  | 3 => a * b / 2 ^ 64
  | 4 => divS 64 a b
  | 5 => divU 64 a b
  | 6 => remS 64 a b
  | _ => remU 64 a b

/-- The base operations of OP, which OP-IMM shares. -/
def baseOp (f3 a b : Nat) : Nat :=
  match f3 with
  | 0 => (a + b) % 2 ^ 64
  | 1 => a * 2 ^ (b % 64) % 2 ^ 64
  | 2 => b2n (decide (s64 a < s64 b))
  | 3 => b2n (decide (a < b))
  | 4 => a ^^^ b
  | 5 => a / 2 ^ (b % 64)
  | 6 => a ||| b
  | _ => a &&& b

/-- OP (0x33). -/
def aluOp (f7 f3 a b : Nat) : Option Nat :=
  match f7, f3 with
  | 0x00, _ => some (baseOp f3 a b)
  | 0x01, _ => some (mulDiv f3 a b)
  | 0x20, 0 => some ((a + 2 ^ 64 - b) % 2 ^ 64)
  | 0x20, 5 => some (sar 64 a (b % 64))
  | 0x20, 4 => some (ones64 - (a ^^^ b))
  | 0x20, 6 => some (a ||| (ones64 - b))
  | 0x20, 7 => some (a &&& (ones64 - b))
  | 0x10, 2 => some ((a * 2 + b) % 2 ^ 64)
  | 0x10, 4 => some ((a * 4 + b) % 2 ^ 64)
  | 0x10, 6 => some ((a * 8 + b) % 2 ^ 64)
  | 0x05, 4 => some (if s64 a < s64 b then a else b)
  | 0x05, 5 => some (min a b)
  | 0x05, 6 => some (if s64 a < s64 b then b else a)
  | 0x05, 7 => some (max a b)
  | 0x30, 1 => some (rotr 64 a (64 - b % 64))
  | 0x30, 5 => some (rotr 64 a (b % 64))
  | _, _ => none

/-- OP-32 (0x3B); `rs2` is the register number, which ZEXT.H fixes. -/
def aluOp32 (f7 f3 a b rs2 : Nat) : Option Nat :=
  let x := a % 2 ^ 32
  match f7, f3 with
  | 0x00, 0 => some (sx 32 (a + b))
  | 0x00, 1 => some (sx 32 (x * 2 ^ (b % 32)))
  | 0x00, 5 => some (sx 32 (x / 2 ^ (b % 32)))
  | 0x20, 0 => some (sx 32 (a + 2 ^ 64 - b))
  | 0x20, 5 => some (sar 32 a (b % 32))
  | 0x01, 0 => some (sx 32 (a * b))
  | 0x01, 4 => some (divS 32 a b)
  | 0x01, 5 => some (divU 32 a b)
  | 0x01, 6 => some (remS 32 a b)
  | 0x01, 7 => some (remU 32 a b)
  | 0x04, 0 => some ((x + b) % 2 ^ 64)
  | 0x04, 4 => if rs2 = 0 then some (a % 65536) else none
  | 0x10, 2 => some ((x * 2 + b) % 2 ^ 64)
  | 0x10, 4 => some ((x * 4 + b) % 2 ^ 64)
  | 0x10, 6 => some ((x * 8 + b) % 2 ^ 64)
  | 0x30, 1 => some (sx 32 (rotr 32 a (32 - b % 32)))
  | 0x30, 5 => some (sx 32 (rotr 32 a (b % 32)))
  | _, _ => none

/-- The bytes of a value, each replaced by all ones where it is not 0. -/
def orcB (a : Nat) : Nat := ((List.range 8).map fun i => if a / 256 ^ i % 256 = 0 then 0 else 255 * 256 ^ i).sum

/-- The bytes of a value in reverse. -/
def rev8 (a : Nat) : Nat := be (toLe 8 a) 0 8

/-- OP-IMM (0x13); `i12` is the immediate field. -/
def aluImm (f3 i12 a : Nat) : Option Nat :=
  match f3 with
  | 1 =>
    if i12 / 64 = 0 then some (baseOp 1 a (i12 % 64))
    else match i12 with
      | 0x600 => some (leading 64 a)
      | 0x601 => some (trailing 64 a)
      | 0x602 => some (popcount 64 a)
      | 0x604 => some (sx 8 a)
      | 0x605 => some (sx 16 a)
      | _ => none
  | 5 =>
    if i12 / 64 = 0 then some (baseOp 5 a (i12 % 64))
    else if i12 / 64 = 0x10 then some (sar 64 a (i12 % 64))
    else if i12 / 64 = 0x18 then some (rotr 64 a (i12 % 64))
    else if i12 = 0x287 then some (orcB a)
    else if i12 = 0x6B8 then some (rev8 a)
    else none
  | _ => some (baseOp f3 a (sx 12 i12))

/-- OP-IMM-32 (0x1B). -/
def aluImm32 (f3 i12 a : Nat) : Option Nat :=
  let x := a % 2 ^ 32
  match f3 with
  | 0 => some (sx 32 (a + sx 12 i12))
  | 1 =>
    if i12 / 32 = 0 then some (sx 32 (x * 2 ^ i12))
    else if i12 / 64 = 2 then some (x * 2 ^ (i12 % 64) % 2 ^ 64)
    else match i12 with
      | 0x600 => some (leading 32 x)
      | 0x601 => some (trailing 32 x)
      | 0x602 => some (popcount 32 x)
      | _ => none
  | 5 =>
    if i12 / 32 = 0 then some (sx 32 (x / 2 ^ i12))
    else if i12 / 32 = 0x20 then some (sar 32 a (i12 % 32))
    else if i12 / 32 = 0x30 then some (sx 32 (rotr 32 a (i12 % 32)))
    else none
  | _ => none

/-- A branch condition. -/
def branchTaken (f3 a b : Nat) : Option Bool :=
  match f3 with
  | 0 => some (a == b)
  | 1 => some (a != b)
  | 4 => some (decide (s64 a < s64 b))
  | 5 => some (decide (s64 b ≤ s64 a))
  | 6 => some (decide (a < b))
  | 7 => some (decide (b ≤ a))
  | _ => none

/-- What an AMO stores, of `n` bits. -/
def amoOp (f5 n a b : Nat) : Option Nat :=
  match f5 with
  | 0x00 => some ((a + b) % 2 ^ n)
  | 0x01 => some (b % 2 ^ n)
  | 0x04 => some ((a ^^^ b) % 2 ^ n)
  | 0x08 => some ((a ||| b) % 2 ^ n)
  | 0x0C => some ((a &&& b) % 2 ^ n)
  | 0x10 => some (if signed n a < signed n b then a % 2 ^ n else b % 2 ^ n)
  | 0x14 => some (if signed n a < signed n b then b % 2 ^ n else a % 2 ^ n)
  | 0x18 => some (min (a % 2 ^ n) (b % 2 ^ n))
  | 0x1C => some (max (a % 2 ^ n) (b % 2 ^ n))
  | _ => none

/-! ## Immediates -/

def immI (w : Nat) : Nat := sx 12 (w / 2 ^ 20)
def immS (w : Nat) : Nat := sx 12 (field w 25 7 * 32 + field w 7 5)
def immB (w : Nat) : Nat := sx 13 (field w 31 1 * 4096 + field w 7 1 * 2048 + field w 25 6 * 32 + field w 8 4 * 2)
def immU (w : Nat) : Nat := sx 32 (w / 4096 * 4096)
def immJ (w : Nat) : Nat := sx 21 (field w 31 1 * 1048576 + field w 12 8 * 4096 + field w 20 1 * 2048 + field w 21 10 * 2)

/-! ## Compressed instructions, as the 32-bit instructions that they stand for -/

def encR (op f3 f7 rd r1 r2 : Nat) : Nat := f7 * 2 ^ 25 + r2 * 2 ^ 20 + r1 * 2 ^ 15 + f3 * 4096 + rd * 128 + op
def encI (op f3 rd r1 imm : Nat) : Nat := imm % 4096 * 2 ^ 20 + r1 * 2 ^ 15 + f3 * 4096 + rd * 128 + op
def encS (f3 r1 r2 imm : Nat) : Nat :=
  field imm 5 7 * 2 ^ 25 + r2 * 2 ^ 20 + r1 * 2 ^ 15 + f3 * 4096 + imm % 32 * 128 + 0x23
def encB (f3 r1 imm : Nat) : Nat :=
  field imm 12 1 * 2 ^ 31 + field imm 5 6 * 2 ^ 25 + r1 * 2 ^ 15 + f3 * 4096 + field imm 1 4 * 256 + field imm 11 1 * 128 + 0x63
def encJ (imm : Nat) : Nat :=
  field imm 20 1 * 2 ^ 31 + field imm 1 10 * 2 ^ 21 + field imm 11 1 * 2 ^ 20 + field imm 12 8 * 4096 + 0x6F

/-- Quadrant 0. -/
def expand0 (h : Nat) : Option Nat :=
  let rd := field h 2 3 + 8
  let r1 := field h 7 3 + 8
  let iw := field h 10 3 * 8 + field h 6 1 * 4 + field h 5 1 * 64
  let id' := field h 10 3 * 8 + field h 5 2 * 64
  match field h 13 3 with
  | 0 =>
    let imm := field h 11 2 * 16 + field h 7 4 * 64 + field h 6 1 * 4 + field h 5 1 * 8
    if imm = 0 then none else some (encI 0x13 0 rd 2 imm)
  | 2 => some (encI 0x03 2 rd r1 iw)
  | 3 => some (encI 0x03 3 rd r1 id')
  | 6 => some (encS 2 r1 rd iw)
  | 7 => some (encS 3 r1 rd id')
  | _ => none

/-- The arithmetic of quadrant 1 on the eight common registers. -/
def expandAlu (h : Nat) : Option Nat :=
  let r := field h 7 3 + 8
  let r2 := field h 2 3 + 8
  let sh := field h 12 1 * 32 + field h 2 5
  match field h 10 2 with
  | 0 => some (encI 0x13 5 r r sh)
  | 1 => some (encI 0x13 5 r r (sh + 0x400))
  | 2 => some (encI 0x13 7 r r (sx 6 sh))
  | _ => match field h 12 1, field h 5 2 with
    | 0, 0 => some (encR 0x33 0 0x20 r r r2)
    | 0, 1 => some (encR 0x33 4 0 r r r2)
    | 0, 2 => some (encR 0x33 6 0 r r r2)
    | 0, _ => some (encR 0x33 7 0 r r r2)
    | _, 0 => some (encR 0x3B 0 0x20 r r r2)
    | _, 1 => some (encR 0x3B 0 0 r r r2)
    | _, _ => none

/-- Quadrant 1. -/
def expand1 (h : Nat) : Option Nat :=
  let rd := field h 7 5
  let i6 := sx 6 (field h 12 1 * 32 + field h 2 5)
  let br := sx 9 (field h 12 1 * 256 + field h 10 2 * 8 + field h 5 2 * 64 + field h 3 2 * 2 + field h 2 1 * 32)
  match field h 13 3 with
  | 0 => some (encI 0x13 0 rd rd i6)
  | 1 => if rd = 0 then none else some (encI 0x1B 0 rd rd i6)
  | 2 => some (encI 0x13 0 rd 0 i6)
  | 3 =>
    if rd = 2 then
      let imm := field h 12 1 * 512 + field h 6 1 * 16 + field h 5 1 * 64 + field h 3 2 * 128 + field h 2 1 * 32
      if imm = 0 then none else some (encI 0x13 0 2 2 (sx 10 imm))
    else if i6 = 0 then none
    else some (i6 * 4096 % 2 ^ 32 + rd * 128 + 0x37)
  | 4 => expandAlu h
  | 5 => some (encJ (sx 12 (field h 12 1 * 2048 + field h 11 1 * 16 + field h 9 2 * 256 + field h 8 1 * 1024 + field h 7 1 * 64
      + field h 6 1 * 128 + field h 3 3 * 2 + field h 2 1 * 32)))
  | 6 => some (encB 0 (field h 7 3 + 8) br)
  | _ => some (encB 1 (field h 7 3 + 8) br)

/-- Quadrant 2. -/
def expand2 (h : Nat) : Option Nat :=
  let rd := field h 7 5
  let r2 := field h 2 5
  match field h 13 3 with
  | 0 => some (encI 0x13 1 rd rd (field h 12 1 * 32 + r2))
  | 2 => if rd = 0 then none else some (encI 0x03 2 rd 2 (field h 12 1 * 32 + field h 4 3 * 4 + field h 2 2 * 64))
  | 3 => if rd = 0 then none else some (encI 0x03 3 rd 2 (field h 12 1 * 32 + field h 5 2 * 8 + field h 2 3 * 64))
  | 4 =>
    if field h 12 1 = 0 then
      if r2 = 0 then (if rd = 0 then none else some (encI 0x67 0 0 rd 0)) else some (encR 0x33 0 0 rd 0 r2)
    else if r2 = 0 then (if rd = 0 then some 0x00100073 else some (encI 0x67 0 1 rd 0))
    else some (encR 0x33 0 0 rd rd r2)
  | 6 => some (encS 2 2 r2 (field h 9 4 * 4 + field h 7 2 * 64))
  | 7 => some (encS 3 2 r2 (field h 10 3 * 8 + field h 7 3 * 64))
  | _ => none

/-- The 32-bit instruction of a compressed one; none for a reserved one or one of an extension that is absent. -/
def expand (h : Nat) : Option Nat :=
  match h % 4 with
  | 0 => expand0 h
  | 1 => expand1 h
  | _ => expand2 h

/-! ## Memory (R334 R338) -/

/-- Where a load's data came from, for the sample record: which cache is free (R359; log 33). -/
def State.dataLevel (s : State) (a : Nat) : Nat :=
  match s.devLoc a with
  | .dram .. => 1 + s.freeVal % 4
  | .sram _ => [1, 2, 3, 5].getD (s.freeVal % 4) 5
  | .regs .. => 6
  | .unmapped => 0

/-- A load of `n` bytes by a thread: the value with the state after it, or the fault's cause. Register space takes 4 and 8 bytes. -/
def State.loadMem (s : State) (tid a n : Nat) : Except Nat (State × Nat) :=
  if a % n ≠ 0 then .error 4
  else match s.devLoc a with
    | .regs die off =>
      if s.dieAnswers die && (n == 4 || n == 8) then .ok (s.regRead die off n) else .error 5
    | _ => match s.devRead (s.threadReq tid) a n with
      | .data b => .ok (s.meet 1 a n, le b 0 n)
      | .fault => .error 5
      | .poisoned => .error 24

/-- A store of `n` bytes by a thread, or the fault's cause. -/
def State.storeMem (s : State) (tid a n v : Nat) : Except Nat State :=
  if a % n ≠ 0 then .error 6
  else match s.devLoc a with
    | .regs die off =>
      if s.dieAnswers die && (n == 4 || n == 8) then .ok (s.regWrite die off n (BitVec.ofNat 64 v)) else .error 7
    | _ => match s.devWrite (s.threadReq tid) a (toLe n v) with
      | some s' => .ok s'
      | none => .error 7

/-- The end of a load into rd. -/
def State.endLoad (s : State) (tid rd v npc a : Nat) : State × Ending :=
  ((s.onThread tid (·.setReg rd v)).useFree, .retire npc a (s.dataLevel a) 1)

/-- LOAD (0x03). -/
def State.rvLoad (s : State) (tid f3 rd a npc : Nat) (ill : State × Ending) : State × Ending :=
  if f3 = 7 then ill
  else
    let n := 2 ^ (f3 % 4)
    match s.loadMem tid a n with
    | .error c => (s, .fault c a a)
    | .ok (s, v) => s.endLoad tid rd (if f3 < 4 then sx (8 * n) v else v) npc a

/-- STORE (0x23). -/
def State.rvStore (s : State) (tid f3 v a npc : Nat) (ill : State × Ending) : State × Ending :=
  if 3 < f3 then ill
  else match s.storeMem tid a (2 ^ f3) v with
    | .error c => (s, .fault c a a)
    | .ok s => (s, .retire npc a 0 1)

/-- AMO (0x2F): LR, SC and the read-modify-writes, on DRAM and tile SRAM only (R334). A reservation is the 64-byte line. -/
def State.rvAmo (s : State) (tid f3 f5 rd rs2 a b npc : Nat) (ill : State × Ending) : State × Ending :=
  if f3 ≠ 2 ∧ f3 ≠ 3 then ill
  else
    let n := 2 ^ f3
    let key := (s.memKey a).map (· / 64)
    if f5 = 2 then
      if rs2 ≠ 0 then ill
      else if key.isNone ∧ a % n = 0 then (s, .fault 5 a a)
      else match s.loadMem tid a n with
        | .error c => (s, .fault c a a)
        | .ok (s, v) => (s.onThread tid fun t => { t with reservation := key }).endLoad tid rd (sx (8 * n) v) npc a
    else if f5 = 3 then
      if a % n ≠ 0 then (s, .fault 6 a a)
      else if key.isNone then (s, .fault 7 a a)
      else if (s.thread tid).any (fun t => t.reservation == key) then
        match s.storeMem tid a n b with
        | .error c => (s, .fault c a a)
        | .ok s => (s.onThread tid fun t => { (t.setReg rd 0) with reservation := none }, .retire npc a 0 1)
      else (s.onThread tid fun t => { (t.setReg rd 1) with reservation := none }, .retire npc a 0 1)
    else match amoOp f5 (8 * n) 0 0 with
      | none => ill
      | some _ =>
        if a % n ≠ 0 then (s, .fault 6 a a)
        else if key.isNone then (s, .fault 7 a a)
        else match s.loadMem tid a n with
          | .error c => (s, .fault (if c = 5 then 7 else c) a a)
          | .ok (s, v) =>
            match s.storeMem tid a n ((amoOp f5 (8 * n) v b).getD 0) with
            | .error c => (s, .fault c a a)
            | .ok s => s.endLoad tid rd (sx (8 * n) v) npc a

/-! ## CSRs (R333 R341) -/

/-- A CSR as a thread reads it; none where it is not implemented, as kzwdog outside thread 0. -/
def State.csrRead (s : State) (tid : Nat) (t : Thread) (csr : Nat) : Option Nat :=
  match csr with
  | 0xF14 => some tid
  | 0xC00 => some (s.cycleOf tid t)
  | 0xC01 => some ((s.dieClock (tid / 256)).1 % 2 ^ 64)
  | 0xC02 => some t.instret
  | 0x7C0 => some (t.wakeMask tid)
  | 0x7C1 => if tid % 8 = 0 then some t.kzwdog.toNat else none
  | _ => none

/-- A CSR written. -/
def Thread.csrWrite (t : Thread) (csr v : Nat) : Thread :=
  if csr = 0x7C0 then { t with kzwake := BitVec.ofNat 32 v }
  else if csr = 0x7C1 then { t with kzwdog := BitVec.ofNat 32 (v % 1024) }
  else t

/-- The Zicsr instructions: a write of a read-only CSR is illegal. -/
def State.rvCsr (s : State) (tid : Nat) (t : Thread) (f3 csr rd rs1 npc : Nat) (ill : State × Ending) : State × Ending :=
  match s.csrRead tid t csr with
  | none => ill
  | some old =>
    let src := if f3 < 4 then t.reg rs1 else rs1
    let writes := f3 % 4 == 1 || rs1 != 0
    if writes && 0xC00 ≤ csr then ill
    else
      let new := match f3 % 4 with
        | 1 => src
        | 2 => old ||| src
        | _ => old - (old &&& src)
      (s.onThread tid fun t => (if writes then t.csrWrite csr new else t).setReg rd old, .retire npc 0 0 0)

/-- SYSTEM (0x73): ECALL, EBREAK, WFI and the CSRs. EBREAK stops for a debugger at HALT or FULL (log 12); WFI ends at once. -/
def State.rvSystem (s : State) (tid : Nat) (t : Thread) (w raw npc : Nat) (ill : State × Ending) : State × Ending :=
  let f3 := field w 12 3
  if f3 = 0 then
    if w = 0x00000073 then (s, .fault 11 raw 0)
    else if w = 0x00100073 then
      if s.debugOpen then
        (s.onThread tid fun t => { t with state := .dstop, remembered := .run, stepping := false }, .stop)
      else (s, .fault 3 raw 0)
    else if w = 0x10500073 then (s, .retire npc 0 0 0)
    else ill
  else if f3 = 4 then ill
  else s.rvCsr tid t f3 (w / 2 ^ 20) (field w 7 5) (field w 15 5) npc ill

/-! ## An instruction -/

/-- A result in rd, or an illegal instruction. -/
def State.rvAlu (s : State) (tid rd npc : Nat) (ill : State × Ending) : Option Nat → State × Ending
  | some v => (s.onThread tid (·.setReg rd v), .retire npc 0 0 0)
  | none => ill

/-- A 32-bit instruction `w` of a thread, `len` bytes long in memory as `raw`. -/
def State.rvExec (s : State) (tid : Nat) (t : Thread) (w raw len : Nat) : State × Ending :=
  let rd := field w 7 5
  let f3 := field w 12 3
  let f7 := field w 25 7
  let a := t.reg (field w 15 5)
  let b := t.reg (field w 20 5)
  let npc := (t.pc + len) % 2 ^ 64
  let ill : State × Ending := (s, .fault 2 raw 0)
  match w % 128 with
  | 0x37 => s.rvAlu tid rd npc ill (some (immU w))
  | 0x17 => s.rvAlu tid rd npc ill (some ((t.pc + immU w) % 2 ^ 64))
  | 0x6F => (s.onThread tid (·.setReg rd npc), .retire ((t.pc + immJ w) % 2 ^ 64) 0 0 2)
  | 0x67 => if f3 = 0 then (s.onThread tid (·.setReg rd npc), .retire ((a + immI w) % 2 ^ 64 / 2 * 2) 0 0 2) else ill
  | 0x63 => match branchTaken f3 a b with
    | some true => (s, .retire ((t.pc + immB w) % 2 ^ 64) 0 0 2)
    | some false => (s, .retire npc 0 0 0)
    | none => ill
  | 0x03 => s.rvLoad tid f3 rd ((a + immI w) % 2 ^ 64) npc ill
  | 0x23 => s.rvStore tid f3 b ((a + immS w) % 2 ^ 64) npc ill
  | 0x13 => s.rvAlu tid rd npc ill (aluImm f3 (w / 2 ^ 20) a)
  | 0x1B => s.rvAlu tid rd npc ill (aluImm32 f3 (w / 2 ^ 20) a)
  | 0x33 => s.rvAlu tid rd npc ill (aluOp f7 f3 a b)
  | 0x3B => s.rvAlu tid rd npc ill (aluOp32 f7 f3 a b (field w 20 5))
  | 0x0F => if f3 < 2 then (s, .retire npc 0 0 0) else ill
  | 0x2F => s.rvAmo tid f3 (field w 27 5) rd (field w 20 5) a b npc ill
  | 0x73 => s.rvSystem tid t w raw npc ill
  | _ => ill

/-- A word of Xkzch with a legal encoding has a row of its own (R340). -/
def isXkzch (w : Nat) : Bool :=
  let f3 := field w 12 3
  let rs1 := field w 15 5
  let rs2 := field w 20 5
  field w 25 7 == 0 &&
  if w % 128 = xkCh then
    match f3 with
    | 0 | 7 => true
    | 1 => rs1 == 0
    | 5 => rs1 == 0 && rs2 == 0
    | _ => rs2 == 0
  else if w % 128 = xkEv then
    match f3 with
    | 0 | 1 => rs2 == 0
    | 2 => rs1 == 0 && rs2 == 0
    | 3 | 4 => true
    | _ => false
  else false

/-- An instruction that a thread has fetched, of two bytes or of four. -/
def State.rvIssue (s : State) (tid raw len : Nat) : State :=
  match s.thread tid with
  | none => s
  | some t =>
    if len = 4 then s.issue tid t fun s => s.rvExec tid t raw raw 4
    else match expand raw with
      | some w => s.issue tid t fun s => s.rvExec tid t w raw 2
      | none => s.issue tid t fun s => (s, .fault 2 raw 0)

/-- The next instruction of a ready thread, where it is none of Xkzch. Of a fetch whose second half faults, the first half is read. -/
def doRv64Instruction (tid : Nat) (s : State) : State :=
  match s.readyThread tid with
  | none => s
  | some t =>
    match s.fetchAt tid t.pc with
    | .fault c v => (if v = t.pc then s else s.fetched t.pc 2).issue tid t fun s => (s, .fault c v 0)
    | .ok raw len => if len = 4 && isXkzch raw then s else (s.fetched t.pc len).rvIssue tid raw len

/-- RV64_INSTRUCTION (R333). -/
def execRv64Instruction (tid : Nat) (s : State) : Res := .next (doRv64Instruction tid s)

end Sys2Proof.Machine
end

