-- ==== Sys2Proof/Machine/Dispatch.lean ====
section
/-! DEFINITION. The effect of every command on everything but the queue: one arm for each row of the table. -/

namespace Sys2Proof.Machine

def exec (i : Instr) (s : State) : Host.Outcome State Fault Refusal :=
  match i with
  | .ftMeasAtWrite ftAt => Sys2Proof.Machine.execFtMeasAtWrite ftAt s
  | .ppsEdge nearClkFall => Sys2Proof.Machine.execPpsEdge nearClkFall s
  | .ppsInFall => Sys2Proof.Machine.execPpsInFall s
  | .ftClkInvert => Sys2Proof.Machine.execFtClkInvert s
  | .sourceLost announceTimeout => Sys2Proof.Machine.execSourceLost announceTimeout s
  | .ftClkInAbsent => Sys2Proof.Machine.execFtClkInAbsent s
  | .holdoverBoundCheck => Sys2Proof.Machine.execHoldoverBoundCheck s
  | .ftStep => Sys2Proof.Machine.execFtStep s
  | .ftSetWrite value => Sys2Proof.Machine.execFtSetWrite value s
  | .ftNowRead die wide => Sys2Proof.Machine.execFtNowRead die wide s
  | .ftAlignStatRead => Sys2Proof.Machine.execFtAlignStatRead s
  | .ftDistribute misalign => Sys2Proof.Machine.execFtDistribute misalign s
  | .ftCfgApply => Sys2Proof.Machine.execFtCfgApply s
  | .ppsOutCfgApply => Sys2Proof.Machine.execPpsOutCfgApply s
  | .ftPpsOutPulse => Sys2Proof.Machine.execFtPpsOutPulse s
  | .ppsOutContend => Sys2Proof.Machine.execPpsOutContend s
  | .devIdentify c => Sys2Proof.Machine.execDevIdentify c s
  | .devHealth c => Sys2Proof.Machine.execDevHealth c s
  | .devPortMode c => Sys2Proof.Machine.execDevPortMode c s
  | .devPortQuery c => Sys2Proof.Machine.execDevPortQuery c s
  | .devReset c => Sys2Proof.Machine.execDevReset c s
  | .deviceResetBegin straps => Sys2Proof.Machine.execDeviceResetBegin straps s
  | .queueCreate c => Sys2Proof.Machine.execQueueCreate c s
  | .queueEnable c => Sys2Proof.Machine.execQueueEnable c s
  | .queueDisable c => Sys2Proof.Machine.execQueueDisable c s
  | .queueIdle qid => Sys2Proof.Machine.execQueueIdle qid s
  | .queueDestroy c => Sys2Proof.Machine.execQueueDestroy c s
  | .queueQuery c => Sys2Proof.Machine.execQueueQuery c s
  | .queueMove c => Sys2Proof.Machine.execQueueMove c s
  | .homeMove qid => Sys2Proof.Machine.execHomeMove qid s
  | .fnQuery c => Sys2Proof.Machine.execFnQuery c s
  | .sliceCreate c => Sys2Proof.Machine.execSliceCreate c s
  | .sliceBindingEffect sid => Sys2Proof.Machine.execSliceBindingEffect sid s
  | .sliceQuiesce c => Sys2Proof.Machine.execSliceQuiesce c s
  | .sliceReset c => Sys2Proof.Machine.execSliceReset c s
  | .sliceResetComplete sid => Sys2Proof.Machine.execSliceResetComplete sid s
  | .sliceDestroy c => Sys2Proof.Machine.execSliceDestroy c s
  | .vfQuiesce c => Sys2Proof.Machine.execVfQuiesce c s
  | .spoofSet c => Sys2Proof.Machine.execSpoofSet c s
  | .spoofSetEffect sid => Sys2Proof.Machine.execSpoofSetEffect sid s
  | .spoofQuery c => Sys2Proof.Machine.execSpoofQuery c s
  | .tblCreate c => Sys2Proof.Machine.execTblCreate c s
  | .tblSearch c => Sys2Proof.Machine.execTblSearch c s
  | .tblNext c => Sys2Proof.Machine.execTblNext c s
  | .iterationTimeout table => Sys2Proof.Machine.execIterationTimeout table s
  | .tblInsert c => Sys2Proof.Machine.execTblInsert c s
  | .tblDelete c => Sys2Proof.Machine.execTblDelete c s
  | .tblFlushByPort c => Sys2Proof.Machine.execTblFlushByPort c s
  | .tblAgingSet c => Sys2Proof.Machine.execTblAgingSet c s
  | .ruleChangeEffect => Sys2Proof.Machine.execRuleChangeEffect s
  | .agingPassStart table => Sys2Proof.Machine.execAgingPassStart table s
  | .agingVisit table part line => Sys2Proof.Machine.execAgingVisit table part line s
  | .twShaperSet c => Sys2Proof.Machine.execTwShaperSet c s
  | .shaperRefill qid => Sys2Proof.Machine.execShaperRefill qid s
  | .twPolicerSet c => Sys2Proof.Machine.execTwPolicerSet c s
  | .policerSetApply policer => Sys2Proof.Machine.execPolicerSetApply policer s
  | .twDgSet c => Sys2Proof.Machine.execTwDgSet c s
  | .dgSetApply dgid => Sys2Proof.Machine.execDgSetApply dgid s
  | .twSchedLoad c => Sys2Proof.Machine.execTwSchedLoad c s
  | .twSchedSwap c => Sys2Proof.Machine.execTwSchedSwap c s
  | .twModeSetScheduled c => Sys2Proof.Machine.execTwModeSetScheduled c s
  | .twModeSetUnscheduled c => Sys2Proof.Machine.execTwModeSetUnscheduled c s
  | .twQuery c => Sys2Proof.Machine.execTwQuery c s
  | .cycleBoundary port => Sys2Proof.Machine.execCycleBoundary port s
  | .slotStart port => Sys2Proof.Machine.execSlotStart port s
  | .calendarFire tile => Sys2Proof.Machine.execCalendarFire tile s
  | .krmConnCreate c => Sys2Proof.Machine.execKrmConnCreate c s
  | .krmConnSetPeer c => Sys2Proof.Machine.execKrmConnSetPeer c s
  | .krmConnDestroy c => Sys2Proof.Machine.execKrmConnDestroy c s
  | .connDestroyComplete cid => Sys2Proof.Machine.execConnDestroyComplete cid s
  | .krmConnQuery c => Sys2Proof.Machine.execKrmConnQuery c s
  | .connTransition cid => Sys2Proof.Machine.execConnTransition cid s
  | .krmWindowOpen c => Sys2Proof.Machine.execKrmWindowOpen c s
  | .krmWindowModify c => Sys2Proof.Machine.execKrmWindowModify c s
  | .krmWindowRevoke c => Sys2Proof.Machine.execKrmWindowRevoke c s
  | .windowChangeEffect index => Sys2Proof.Machine.execWindowChangeEffect index s
  | .krmConfig c => Sys2Proof.Machine.execKrmConfig c s
  | .blkVolumeCreate c => Sys2Proof.Machine.execBlkVolumeCreate c s
  | .blkVolumeDestroy c => Sys2Proof.Machine.execBlkVolumeDestroy c s
  | .blkVolumeQuery c => Sys2Proof.Machine.execBlkVolumeQuery c s
  | .blkQueueReset c => Sys2Proof.Machine.execBlkQueueReset c s
  | .blkResetAbandon qid => Sys2Proof.Machine.execBlkResetAbandon qid s
  | .blkQueueResetComplete qid => Sys2Proof.Machine.execBlkQueueResetComplete qid s
  | .blkSelftestStart c => Sys2Proof.Machine.execBlkSelftestStart c s
  | .blkSelftestAbort c => Sys2Proof.Machine.execBlkSelftestAbort c s
  | .blkSelftestQuery c => Sys2Proof.Machine.execBlkSelftestQuery c s
  | .selftestRequest vid member => Sys2Proof.Machine.execSelftestRequest vid member s
  | .cyChannelCreate c => Sys2Proof.Machine.execCyChannelCreate c s
  | .cyChannelDestroy c => Sys2Proof.Machine.execCyChannelDestroy c s
  | .cySliceTableSet c => Sys2Proof.Machine.execCySliceTableSet c s
  | .sliceTableEffect tile => Sys2Proof.Machine.execSliceTableEffect tile s
  | .cyQuery c => Sys2Proof.Machine.execCyQuery c s
  | .fwInfo c => Sys2Proof.Machine.execFwInfo c s
  | .fwWrite c => Sys2Proof.Machine.execFwWrite c s
  | .fwVerify c => Sys2Proof.Machine.execFwVerify c s
  | .fwActivate c => Sys2Proof.Machine.execFwActivate c s
  | .handoverReady => Sys2Proof.Machine.execHandoverReady s
  | .handoverStateTimeout => Sys2Proof.Machine.execHandoverStateTimeout s
  | .handoverComplete state => Sys2Proof.Machine.execHandoverComplete state s
  | .activateTimeout => Sys2Proof.Machine.execActivateTimeout s
  | .fwHealthConfirm c => Sys2Proof.Machine.execFwHealthConfirm c s
  | .trialDeadline => Sys2Proof.Machine.execTrialDeadline s
  | .fwAbort c => Sys2Proof.Machine.execFwAbort c s
  | .secLifecycleSet c => Sys2Proof.Machine.execSecLifecycleSet c s
  | .lifecycleReset straps => Sys2Proof.Machine.execLifecycleReset straps s
  | .secDebugChallenge c => Sys2Proof.Machine.execSecDebugChallenge c s
  | .secDebugResponse c => Sys2Proof.Machine.execSecDebugResponse c s
  | .debugLevelEffect => Sys2Proof.Machine.execDebugLevelEffect s
  | .secDebugClose c => Sys2Proof.Machine.execSecDebugClose c s
  | .debugSessionExpire => Sys2Proof.Machine.execDebugSessionExpire s
  | .jtagKzauth opcode c => Sys2Proof.Machine.execJtagKzauth opcode c s
  | .secAttest c => Sys2Proof.Machine.execSecAttest c s
  | .secMeasureRead c => Sys2Proof.Machine.execSecMeasureRead c s
  | .secKeyInstall c => Sys2Proof.Machine.execSecKeyInstall c s
  | .rekeyGraceExpire cid => Sys2Proof.Machine.execRekeyGraceExpire cid s
  | .pwTilePark c => Sys2Proof.Machine.execPwTilePark c s
  | .parkPoint => Sys2Proof.Machine.execParkPoint s
  | .parkDrainLimit => Sys2Proof.Machine.execParkDrainLimit s
  | .tilePowerOff => Sys2Proof.Machine.execTilePowerOff s
  | .pwTileUnpark c => Sys2Proof.Machine.execPwTileUnpark c s
  | .unparkPoint => Sys2Proof.Machine.execUnparkPoint s
  | .pwCapSet c => Sys2Proof.Machine.execPwCapSet c s
  | .pwStateSetStandby c => Sys2Proof.Machine.execPwStateSetStandby c s
  | .pwStateSetRun c => Sys2Proof.Machine.execPwStateSetRun c s
  | .pwQuery c => Sys2Proof.Machine.execPwQuery c s
  | .timeQuery c => Sys2Proof.Machine.execTimeQuery c s
  | .timeCfgSet c => Sys2Proof.Machine.execTimeCfgSet c s
  | .timeAsymSet c => Sys2Proof.Machine.execTimeAsymSet c s
  | .timeSet c => Sys2Proof.Machine.execTimeSet c s
  | .ctRead c => Sys2Proof.Machine.execCtRead c s
  | .ctDumpSet c => Sys2Proof.Machine.execCtDumpSet c s
  | .ctDumpCancel c => Sys2Proof.Machine.execCtDumpCancel c s
  | .ctSlicePerm c => Sys2Proof.Machine.execCtSlicePerm c s
  | .ctSampleSetCore c => Sys2Proof.Machine.execCtSampleSetCore c s
  | .ctSampleSetPacket c => Sys2Proof.Machine.execCtSampleSetPacket c s
  | .sampleSetEffect tile => Sys2Proof.Machine.execSampleSetEffect tile s
  | .diagEcho c => Sys2Proof.Machine.execDiagEcho c s
  | .diagPinFault c => Sys2Proof.Machine.execDiagPinFault c s
  | .diagLogRead c => Sys2Proof.Machine.execDiagLogRead c s
  | .diagDramCal c => Sys2Proof.Machine.execDiagDramCal c s
  | .diagScrubSet c => Sys2Proof.Machine.execDiagScrubSet c s
  | .diagErrInject c => Sys2Proof.Machine.execDiagErrInject c s
  | .mctpRequest tag body => Sys2Proof.Machine.execMctpRequest tag body s
  | .buckramRequest env => Sys2Proof.Machine.execBuckramRequest env s
  | .doorbellWork w => Sys2Proof.Machine.execDoorbellWork w s
  | .doorbellInv w => Sys2Proof.Machine.execDoorbellInv w s
  | .doorbellCq w => Sys2Proof.Machine.execDoorbellCq w s
  | .doorbellArm w => Sys2Proof.Machine.execDoorbellArm w s
  | .entryFetchDone tag data => Sys2Proof.Machine.execEntryFetchDone tag data s
  | .entryFetchFail tag how => Sys2Proof.Machine.execEntryFetchFail tag how s
  | .entryHeadCheck qid => Sys2Proof.Machine.execEntryHeadCheck qid s
  | .nop qid => Sys2Proof.Machine.execNop qid s
  | .pktTxSend qid => Sys2Proof.Machine.execPktTxSend qid s
  | .pktRxPost qid => Sys2Proof.Machine.execPktRxPost qid s
  | .pktRxDeliver qid => Sys2Proof.Machine.execPktRxDeliver qid s
  | .krmWrite qid => Sys2Proof.Machine.execKrmWrite qid s
  | .krmRead qid => Sys2Proof.Machine.execKrmRead qid s
  | .krmSend qid => Sys2Proof.Machine.execKrmSend qid s
  | .krmRqPost qid => Sys2Proof.Machine.execKrmRqPost qid s
  | .blkRead qid => Sys2Proof.Machine.execBlkRead qid s
  | .blkWrite qid => Sys2Proof.Machine.execBlkWrite qid s
  | .blkFlush qid => Sys2Proof.Machine.execBlkFlush qid s
  | .blkTrim qid => Sys2Proof.Machine.execBlkTrim qid s
  | .blkPieceIssue piece => Sys2Proof.Machine.execBlkPieceIssue piece s
  | .blkRespReceive cid => Sys2Proof.Machine.execBlkRespReceive cid s
  | .cryEncrypt qid => Sys2Proof.Machine.execCryEncrypt qid s
  | .cryDecrypt qid => Sys2Proof.Machine.execCryDecrypt qid s
  | .cryDigest qid => Sys2Proof.Machine.execCryDigest qid s
  | .engineSlice tile lane => Sys2Proof.Machine.execEngineSlice tile lane s
  | .cyKeyStore256 fn page value => Sys2Proof.Machine.execCyKeyStore256 fn page value s
  | .cyKeyStore512 fn page value => Sys2Proof.Machine.execCyKeyStore512 fn page value s
  | .cyKeyClear fn page value => Sys2Proof.Machine.execCyKeyClear fn page value s
  | .cyKeyDataWrite fn page word value => Sys2Proof.Machine.execCyKeyDataWrite fn page word value s
  | .cyJobDb fn page value => Sys2Proof.Machine.execCyJobDb fn page value s
  | .dmaCopy qid => Sys2Proof.Machine.execDmaCopy qid s
  | .dmaFill qid => Sys2Proof.Machine.execDmaFill qid s
  | .dmaBeatComplete tile chan beat => Sys2Proof.Machine.execDmaBeatComplete tile chan beat s
  | .dmaBeatFail tile chan beat how => Sys2Proof.Machine.execDmaBeatFail tile chan beat how s
  | .dmaBeatRetry tile chan beat => Sys2Proof.Machine.execDmaBeatRetry tile chan beat s
  | .completionWrite cq => Sys2Proof.Machine.execCompletionWrite cq s
  | .writebackBlock qid => Sys2Proof.Machine.execWritebackBlock qid s
  | .frameReceive port bytes fcsOk => Sys2Proof.Machine.execFrameReceive port bytes fcsOk s
  | .steerHoldExpired frame => Sys2Proof.Machine.execSteerHoldExpired frame s
  | .steeringUpdate => Sys2Proof.Machine.execSteeringUpdate s
  | .frameClassify frame => Sys2Proof.Machine.execFrameClassify frame s
  | .policerDecide frame => Sys2Proof.Machine.execPolicerDecide frame s
  | .tableLookup frame => Sys2Proof.Machine.execTableLookup frame s
  | .learnInsert table part => Sys2Proof.Machine.execLearnInsert table part s
  | .twillAdmit frame => Sys2Proof.Machine.execTwillAdmit frame s
  | .sourceQueueAdvance qid => Sys2Proof.Machine.execSourceQueueAdvance qid s
  | .frameTransmitStart port => Sys2Proof.Machine.execFrameTransmitStart port s
  | .spDisp tile => Sys2Proof.Machine.execSpDisp tile s
  | .portModePoint port => Sys2Proof.Machine.execPortModePoint port s
  | .portTrained port laneDropped laneRemapped => Sys2Proof.Machine.execPortTrained port laneDropped laneRemapped s
  | .networkLinkDown port => Sys2Proof.Machine.execNetworkLinkDown port s
  | .krmPacketReceive frame => Sys2Proof.Machine.execKrmPacketReceive frame s
  | .krmStateFetched cid => Sys2Proof.Machine.execKrmStateFetched cid s
  | .krmWriteAccepted cid psn => Sys2Proof.Machine.execKrmWriteAccepted cid psn s
  | .krmReadResponse cid psn how => Sys2Proof.Machine.execKrmReadResponse cid psn how s
  | .krmPacketSend cid => Sys2Proof.Machine.execKrmPacketSend cid s
  | .krmAckTimer cid => Sys2Proof.Machine.execKrmAckTimer cid s
  | .krmRetransmitTimeout cid => Sys2Proof.Machine.execKrmRetransmitTimeout cid s
  | .krmRnrRetry cid => Sys2Proof.Machine.execKrmRnrRetry cid s
  | .hostReadCompletion tag how => Sys2Proof.Machine.execHostReadCompletion tag how s
  | .completionTimeout tag => Sys2Proof.Machine.execCompletionTimeout tag s
  | .msixSend fn vector => Sys2Proof.Machine.execMsixSend fn vector s
  | .eventRecordWrite fn => Sys2Proof.Machine.execEventRecordWrite fn s
  | .eventMctpSend => Sys2Proof.Machine.execEventMctpSend s
  | .dumpLatch dump => Sys2Proof.Machine.execDumpLatch dump s
  | .dumpRecordWrite dump => Sys2Proof.Machine.execDumpRecordWrite dump s
  | .rv64Instruction tid => Sys2Proof.Machine.execRv64Instruction tid s
  | .chWrf tid rd rs1 rs2 => Sys2Proof.Machine.execChWrf tid rd rs1 rs2 s
  | .chWr tid rd rs2 => Sys2Proof.Machine.execChWr tid rd rs2 s
  | .chRecv tid rd rs1 => Sys2Proof.Machine.execChRecv tid rd rs1 s
  | .chTry tid rd rs1 => Sys2Proof.Machine.execChTry tid rd rs1 s
  | .chGet tid rd rs1 => Sys2Proof.Machine.execChGet tid rd rs1 s
  | .chAbort tid rd => Sys2Proof.Machine.execChAbort tid rd s
  | .chStat tid rd rs1 => Sys2Proof.Machine.execChStat tid rd rs1 s
  | .chCfg tid rd rs1 rs2 => Sys2Proof.Machine.execChCfg tid rd rs1 rs2 s
  | .evWait tid rd rs1 => Sys2Proof.Machine.execEvWait tid rd rs1 s
  | .evClr tid rd rs1 => Sys2Proof.Machine.execEvClr tid rd rs1 s
  | .evRead tid rd => Sys2Proof.Machine.execEvRead tid rd s
  | .evPost tid rd rs1 rs2 => Sys2Proof.Machine.execEvPost tid rd rs1 rs2 s
  | .thCtlQuery tid rd rs1 rs2 => Sys2Proof.Machine.execThCtlQuery tid rd rs1 rs2 s
  | .thCtlStop tid rd rs1 rs2 => Sys2Proof.Machine.execThCtlStop tid rd rs1 rs2 s
  | .thCtlResume tid rd rs1 rs2 => Sys2Proof.Machine.execThCtlResume tid rd rs1 rs2 s
  | .thCtlKill tid rd rs1 rs2 => Sys2Proof.Machine.execThCtlKill tid rd rs1 rs2 s
  | .thCtlStart tid rd rs1 rs2 => Sys2Proof.Machine.execThCtlStart tid rd rs1 rs2 s
  | .thCtlDiscard tid rd rs1 rs2 => Sys2Proof.Machine.execThCtlDiscard tid rd rs1 rs2 s
  | .thCtlSetpri tid rd rs1 rs2 => Sys2Proof.Machine.execThCtlSetpri tid rd rs1 rs2 s
  | .thCtlFpc tid rd rs1 rs2 => Sys2Proof.Machine.execThCtlFpc tid rd rs1 rs2 s
  | .thCtlFval tid rd rs1 rs2 => Sys2Proof.Machine.execThCtlFval tid rd rs1 rs2 s
  | .deadlockDetect core => Sys2Proof.Machine.execDeadlockDetect core s
  | .watchdogExpire core => Sys2Proof.Machine.execWatchdogExpire core s
  | .debugStop tid => Sys2Proof.Machine.execDebugStop tid s
  | .debugResume tid => Sys2Proof.Machine.execDebugResume tid s
  | .debugStep tid => Sys2Proof.Machine.execDebugStep tid s
  | .debugDiscard tid => Sys2Proof.Machine.execDebugDiscard tid s
  | .debugKill tid => Sys2Proof.Machine.execDebugKill tid s
  | .debugRegAccess tid access => Sys2Proof.Machine.execDebugRegAccess tid access s
  | .cmdEnSet fn => Sys2Proof.Machine.execCmdEnSet fn s
  | .cmdEnClear fn => Sys2Proof.Machine.execCmdEnClear fn s
  | .registerWrite access => Sys2Proof.Machine.execRegisterWrite access s
  | .flr fn => Sys2Proof.Machine.execFlr fn s
  | .flrComplete fn => Sys2Proof.Machine.execFlrComplete fn s
  | .bmeClear fn => Sys2Proof.Machine.execBmeClear fn s
  | .bmeSet fn => Sys2Proof.Machine.execBmeSet fn s
  | .d3hotEnter fn => Sys2Proof.Machine.execD3hotEnter fn s
  | .d3hotExit fn => Sys2Proof.Machine.execD3hotExit fn s
  | .vfEnableChange fn enable numVfs => Sys2Proof.Machine.execVfEnableChange fn enable numVfs s
  | .hotReset port sub => Sys2Proof.Machine.execHotReset port sub s
  | .perstAssert port => Sys2Proof.Machine.execPerstAssert port s
  | .perstDeassert port => Sys2Proof.Machine.execPerstDeassert port s
  | .profileRecoveryTimeout port => Sys2Proof.Machine.execProfileRecoveryTimeout port s
  | .l1Entry port sub idleNs => Sys2Proof.Machine.execL1Entry port sub idleNs s
  | .l0pNarrow port sub inPermille outPermille => Sys2Proof.Machine.execL0pNarrow port sub inPermille outPermille s
  | .l0pWiden port sub inPermille outPermille => Sys2Proof.Machine.execL0pWiden port sub inPermille outPermille s
  | .flitRetransmit link again => Sys2Proof.Machine.execFlitRetransmit link again s
  | .refresh channel rank => Sys2Proof.Machine.execRefresh channel rank s
  | .forcedRefresh channel rank => Sys2Proof.Machine.execForcedRefresh channel rank s
  | .calWindow channel hot0 hot1 loadPermille => Sys2Proof.Machine.execCalWindow channel hot0 hot1 loadPermille s
  | .scrubPass channel => Sys2Proof.Machine.execScrubPass channel s
  | .scrubRead channel rank sub errors => Sys2Proof.Machine.execScrubRead channel rank sub errors s
  | .ceWriteback channel => Sys2Proof.Machine.execCeWriteback channel s
  | .sidebandFault channel => Sys2Proof.Machine.execSidebandFault channel s
  | .dramTrained found => Sys2Proof.Machine.execDramTrained found s
  | .powerWindow watts => Sys2Proof.Machine.execPowerWindow watts s
  | .thermThrottle die tj => Sys2Proof.Machine.execThermThrottle die tj s
  | .thermStep die tj => Sys2Proof.Machine.execThermStep die tj s
  | .thermCrit die tj => Sys2Proof.Machine.execThermCrit die tj s
  | .thermalTrip die tj => Sys2Proof.Machine.execThermalTrip die tj s
  | .tileIdle tile => Sys2Proof.Machine.execTileIdle tile s
  | .tileWake tile => Sys2Proof.Machine.execTileWake tile s
  | .auxEnter => Sys2Proof.Machine.execAuxEnter s
  | .auxExit => Sys2Proof.Machine.execAuxExit s
  | .powerOff => Sys2Proof.Machine.execPowerOff s
  | .sysReset => Sys2Proof.Machine.execSysReset s
  | .romBoot straps media => Sys2Proof.Machine.execRomBoot straps media s
  | .bootSourceProbeTimeout source => Sys2Proof.Machine.execBootSourceProbeTimeout source s
  | .strapTest stuck => Sys2Proof.Machine.execStrapTest stuck s
  | .buckramBoot media => Sys2Proof.Machine.execBuckramBoot media s
  | .pushTimeout => Sys2Proof.Machine.execPushTimeout s
  | .sysclkLost => Sys2Proof.Machine.execSysclkLost s
  | .sysclkReturn => Sys2Proof.Machine.execSysclkReturn s
  | .hrefclkLost port => Sys2Proof.Machine.execHrefclkLost port s
  | .openDrainFault bit => Sys2Proof.Machine.execOpenDrainFault bit s
  | .ftClkInReturn => Sys2Proof.Machine.execFtClkInReturn s
  | .hrefclkReturn port => Sys2Proof.Machine.execHrefclkReturn port s
  | .linkTrainingEnd port sub width remapped dropped => Sys2Proof.Machine.execLinkTrainingEnd port sub width remapped dropped s
  | .thermForcingEnd die tj => Sys2Proof.Machine.execThermForcingEnd die tj s
  | .heldResetRelease tj straps => Sys2Proof.Machine.execHeldResetRelease tj straps s
  | .sampleRecordLatch => Sys2Proof.Machine.execSampleRecordLatch s
  | .tlpError port sub fn err => Sys2Proof.Machine.execTlpError port sub fn err s
  | .unsupportedRequest fn req => Sys2Proof.Machine.execUnsupportedRequest fn req s

end Sys2Proof.Machine
end

