-- ==== Sys2Proof/Machine/Step.lean ====
section
/-! DEFINITION. One step: the command at the front of the queue, or time passing where none waits (log 1). -/

namespace Sys2Proof.Machine

/-- An idle block: a held command that may start, else the first input yet to arrive, at its oscillator instant, or 1 ns of
oscillator time. -/
def State.idle (s : State) : State :=
  match s.heldReady with
  | some (code, c) => runOpcode code c s
  | none => match s.arrivals with
    | [] => (s.passTime 1).sendLtr
    | (t, c) :: l => { ((s.passTime (t - s.time.osc)).sendLtr) with arrivals := l, pending := [c] }

/-- One step of the block. -/
def step (s : State) : Host.Outcome State Fault Refusal :=
  match s.pending with
  | [] => .next s.idle
  | c :: rest => exec c { s with pending := rest }

/-- The command that a word spells, put at the front of the queue; no word spells one. -/
def State.withFetchWord (s : State) (nbits w : Nat) : State :=
  match decodeTableWord nbits w with
  | some c => { s with pending := c :: s.pending }
  | none => s

end Sys2Proof.Machine
end

