-- ==== Sys2Proof/Safety.lean ====
section
/-! DEFINITION. What counts as a safe state, and the terms in which the statements speak of a command that is accepted: when it may
start, the state in which its effect is applied, and Buckram's turn at it. -/

namespace Sys2Proof.Machine

/-- Device memory is in canonical form. -/
def State.memOk (s : State) : Prop := Memory.wf s.mem

/-- The device log holds at most 4,096 records (18 R495). -/
def State.logOk (s : State) : Prop := s.ev.log.length ≤ 4096

/-- The state in which a command's effect is applied: the command has left its ring or its place among the held management
requests, and is in progress (04 R118 R124). -/
def State.taken (s : State) (code : Nat) (c : Cmd) : State :=
  match c.src with
  | .ring qid => (s.consume qid).enter code c s.ft
  | .mctp t => s.enterMctp code c t
  | .jtag => s.enter code c s.ft

/-- A command may start: the device takes it, its stream's order lets it, and it heads its ring, or the held requests, or it fits
the management controller's eight with none held before it (04 R118 R124 R129). -/
def State.mayStart (s : State) (code : Nat) (c : Cmd) : Bool :=
  s.gate code c.src = .run && s.orderOk code c &&
    match c.src with
    | .ring qid => s.ringHead code c qid
    | .mctp _ => if s.cmd.held.contains (code, c) then s.cmd.held.head? == some (code, c)
        else s.cmd.held.isEmpty && decide (s.cmd.mctpOut.length < 8)
    | .jtag => true

/-- A command of a caller may start and passes checks 1 to 8 of 04 R127; `deny`, `lenOk`, `form` and `found` are the opcode's own
part of checks 3, 5, 6 and 7, and `exists_` says whether check 7 is made. -/
def State.accepts (s : State) (code : Nat) (c : Cmd) (who : Caller) (deny lenOk exists_ : Bool) (form found : Bool := true) : Bool :=
  s.callerOf c.src == some who && s.mayStart code c &&
    (s.taken code c).precheck code c who false deny lenOk exists_ form found == none

/-- Nobody waits for Buckram (04 R123). -/
def State.mailboxIdle (s : State) : Bool := s.cmd.mailbox.isEmpty && s.cmd.rota.isEmpty

/-- The state in which Buckram applies a command that it takes at once: its own read of the parameter block has been made
(04 R122, 14 R404). -/
def State.served (s : State) (code : Nat) (c : Cmd) : State := (s.taken code c).blockMeet c

/-- A command of a caller may start, finds nobody waiting for Buckram, and passes checks 1 to 8 there, with the parameter block that
Buckram's own read finds (04 R122 R127). -/
def State.bkAccepts (s : State) (code : Nat) (c : Cmd) (who : Caller) (env : BkEnv) (deny lenOk exists_ : Bool)
    (form found : Bool := true) : Bool :=
  s.callerOf c.src == some who && s.mayStart code c && s.mailboxIdle && (s.taken code c).blockFor c env == c &&
    (s.served code c).precheck code c who false deny lenOk exists_ form found == none

/-- The reply of service firmware, or of what stands in for it before it runs. -/
def State.answer (t : State) (code : Nat) (c : Cmd) (a : Answer) : State := t.reply code c (!t.cmd.sfReady) a

/-- The reply of Buckram. -/
def State.bkAnswer (t : State) (code : Nat) (c : Cmd) (a : Answer) : State := t.reply code c true a

/-- A command, then Buckram's next turn at its mailbox, take a state to another. -/
def ThenBuckram (i : Instr) (env : BkEnv) (s t : State) : Prop :=
  ∃ u, exec i s = .next u ∧ exec (.buckramRequest env) u = .next t

/-- The VFs of a PF that VF Enable and NumVFs call for (13 R365 R384). -/
def State.vfRange (s : State) (f : FnRef) (on : Bool) (k : Nat) : List FnRef :=
  if on then (List.range k).map fun i => { port := f.port, vf := true, num := s.firstVf f.port f.num + i } else []

/-- A thread that may issue, with the word `w` at its pc, fetches and issues it: the state in which it is issued, the thread in it, and whether
the instruction is tagged for a sample (12 R338 R340 R358, 14 R399). -/
def State.issued (r : State) (tid w : Nat) : Option (State × Thread × Bool) :=
  match r.readyThread tid with
  | none => none
  | some t =>
    if r.fetchAt tid t.pc = .ok w 4 then
      let (s, g) := (r.fetched t.pc 4).tagIssue tid
      ((r.fetched t.pc 4).thread tid).map fun t => (s, t, g)
    else none

/-- The end of a 4-byte instruction issued in `s` by a thread as it was in `t`, whose effect gives `u`: a value for rd, the pc at the next
instruction, and the record of a tagged one with its `addr` and `level` (12 R333 R340 R359). -/
def State.retired (s : State) (tid : Nat) (t : Thread) (g : Bool) (u : State) (rd v addr : Nat) (level : Nat := 0) : State :=
  s.issueEnd tid t g (u.retire4 tid rd v addr level)

/-! ## Rows that are opcodes, and rows that end FATAL -/

/-- The opcode of a row that is a command of 04 R131, and its packet. -/
def packetOf : Instr → Option (Nat × Cmd)
  | .devIdentify c => some (0x0101, c)
  | .devHealth c => some (0x0102, c)
  | .devPortMode c => some (0x0103, c)
  | .devPortQuery c => some (0x0104, c)
  | .devReset c => some (0x0105, c)
  | .queueCreate c => some (0x0201, c)
  | .queueEnable c => some (0x0202, c)
  | .queueDisable c => some (0x0203, c)
  | .queueDestroy c => some (0x0204, c)
  | .queueQuery c => some (0x0205, c)
  | .queueMove c => some (0x0206, c)
  | .fnQuery c => some (0x0301, c)
  | .sliceCreate c => some (0x0302, c)
  | .sliceQuiesce c => some (0x0303, c)
  | .sliceReset c => some (0x0304, c)
  | .sliceDestroy c => some (0x0305, c)
  | .vfQuiesce c => some (0x0306, c)
  | .spoofSet c => some (0x0307, c)
  | .spoofQuery c => some (0x0308, c)
  | .tblCreate c => some (0x0401, c)
  | .tblSearch c => some (0x0402, c)
  | .tblNext c => some (0x0403, c)
  | .tblInsert c => some (0x0404, c)
  | .tblDelete c => some (0x0405, c)
  | .tblFlushByPort c => some (0x0406, c)
  | .tblAgingSet c => some (0x0407, c)
  | .twShaperSet c => some (0x0501, c)
  | .twPolicerSet c => some (0x0502, c)
  | .twDgSet c => some (0x0503, c)
  | .twSchedLoad c => some (0x0504, c)
  | .twSchedSwap c => some (0x0505, c)
  | .twModeSetScheduled c => some (0x0506, c)
  | .twModeSetUnscheduled c => some (0x0506, c)
  | .twQuery c => some (0x0507, c)
  | .krmConnCreate c => some (0x0601, c)
  | .krmConnSetPeer c => some (0x0601, c)
  | .krmConnDestroy c => some (0x0602, c)
  | .krmConnQuery c => some (0x0603, c)
  | .krmWindowOpen c => some (0x0604, c)
  | .krmWindowModify c => some (0x0605, c)
  | .krmWindowRevoke c => some (0x0606, c)
  | .krmConfig c => some (0x0607, c)
  | .blkVolumeCreate c => some (0x0701, c)
  | .blkVolumeDestroy c => some (0x0702, c)
  | .blkVolumeQuery c => some (0x0703, c)
  | .blkQueueReset c => some (0x0704, c)
  | .blkSelftestStart c => some (0x0705, c)
  | .blkSelftestAbort c => some (0x0705, c)
  | .blkSelftestQuery c => some (0x0706, c)
  | .cyChannelCreate c => some (0x0801, c)
  | .cyChannelDestroy c => some (0x0802, c)
  | .cySliceTableSet c => some (0x0803, c)
  | .cyQuery c => some (0x0804, c)
  | .fwInfo c => some (0x0901, c)
  | .fwWrite c => some (0x0902, c)
  | .fwVerify c => some (0x0903, c)
  | .fwActivate c => some (0x0904, c)
  | .fwHealthConfirm c => some (0x0905, c)
  | .fwAbort c => some (0x0906, c)
  | .secLifecycleSet c => some (0x0A01, c)
  | .secDebugChallenge c => some (0x0A02, c)
  | .secDebugResponse c => some (0x0A03, c)
  | .secDebugClose c => some (0x0A04, c)
  | .secAttest c => some (0x0A05, c)
  | .secMeasureRead c => some (0x0A06, c)
  | .secKeyInstall c => some (0x0A07, c)
  | .pwTilePark c => some (0x0B01, c)
  | .pwTileUnpark c => some (0x0B02, c)
  | .pwCapSet c => some (0x0B03, c)
  | .pwStateSetRun c => some (0x0B04, c)
  | .pwStateSetStandby c => some (0x0B04, c)
  | .pwQuery c => some (0x0B05, c)
  | .timeQuery c => some (0x0C01, c)
  | .timeCfgSet c => some (0x0C02, c)
  | .timeAsymSet c => some (0x0C03, c)
  | .timeSet c => some (0x0C04, c)
  | .ctRead c => some (0x0D01, c)
  | .ctDumpSet c => some (0x0D02, c)
  | .ctDumpCancel c => some (0x0D03, c)
  | .ctSlicePerm c => some (0x0D04, c)
  | .ctSampleSetCore c => some (0x0D05, c)
  | .ctSampleSetPacket c => some (0x0D05, c)
  | .diagEcho c => some (0x0E01, c)
  | .diagPinFault c => some (0x0E02, c)
  | .diagLogRead c => some (0x0E03, c)
  | .diagDramCal c => some (0x0E04, c)
  | .diagScrubSet c => some (0x0E05, c)
  | .diagErrInject c => some (0x0E06, c)
  | _ => none

/-- Of two rows of one opcode, the one that a packet in a state is (05 R221, 08 R238, 09 R285, 16 R449, 12 R358, 18 R508). -/
def chosenRow (s : State) : Instr → Bool
  | .krmConnCreate c => !s.isSetPeer c
  | .krmConnSetPeer c => s.isSetPeer c
  | .twModeSetScheduled c | .ctSampleSetPacket c | .pwStateSetStandby c => cmdByte c 16 != 0
  | .twModeSetUnscheduled c | .ctSampleSetCore c | .pwStateSetRun c => cmdByte c 16 != 1
  | .blkSelftestStart c => cmdByte c 16 != 2
  | .blkSelftestAbort c => decide (2 ≤ cmdByte c 16)
  | _ => true

/-- A packet as a management request carries it: its parameter area whole, its parameter block and its data inline (04 R110 R118). -/
def inlinePacket (code tag : Nat) (c : Cmd) : Bool :=
  c.src == .mctp tag && c.params.length == 48 && c.pb.length == c.pbLen && decide (c.pbLen < 65536) && c.pbErr.isNone
    && c.data.length == opcodeData code

/-- The body of a management request (04 R118). -/
def requestBody (code : Nat) (c : Cmd) : Bytes := cmdHeader code c ++ c.pb ++ c.data

/-- The MCTP endpoint takes requests: the device is not halted in FATAL, has power, is out of reset, and its SMBus pins are whole
(03 R104, 04 R118, 19 R523 R530). -/
def State.endpointOn (s : State) : Bool :=
  !(s.fatal || s.power.dev == .off || s.pins.sysRst || bit s.pins.fault 51)

/-- The rows that can be a device reset or the loss of all power (04 R131, 16 R447, 17 R468, 19 R523). -/
def mayReset : Instr → Bool
  | .deviceResetBegin _ | .lifecycleReset _ | .sysReset | .powerOff | .heldResetRelease _ _ => true
  | _ => false

/-- The rows that have an effect in FATAL: what lies outside the queues and the engines (FT and its pins, host link and function
events, DRAM upkeep, thermal and power pins, the debugger) and the resets. -/
def actsInFatal : Instr → Bool
  | .ftMeasAtWrite _ | .ppsEdge _ | .ppsInFall | .ftClkInvert | .sourceLost _ | .ftClkInAbsent | .holdoverBoundCheck
  | .ftStep | .ftSetWrite _ | .ftNowRead _ _ | .ftAlignStatRead | .ftDistribute _ | .ftCfgApply | .ppsOutCfgApply
  | .ftPpsOutPulse | .ppsOutContend | .deviceResetBegin _ | .iterationTimeout _ | .lifecycleReset _
  | .debugSessionExpire | .rekeyGraceExpire _ | .entryFetchDone _ _ | .entryFetchFail _ _ | .steerHoldExpired _
  | .networkLinkDown _ | .hostReadCompletion _ _ | .completionTimeout _ | .eventMctpSend | .debugStop _
  | .debugResume _ | .debugStep _ | .debugDiscard _ | .debugKill _ | .debugRegAccess _ _ | .registerWrite _ | .flr _
  | .flrComplete _ | .bmeClear _ | .bmeSet _ | .d3hotEnter _ | .d3hotExit _ | .vfEnableChange _ _ _ | .hotReset _ _
  | .perstAssert _ | .perstDeassert _ | .profileRecoveryTimeout _ | .l1Entry _ _ _ | .l0pNarrow _ _ _ _
  | .l0pWiden _ _ _ _ | .flitRetransmit _ _ | .refresh _ _ | .forcedRefresh _ _ | .calWindow _ _ _ _ | .scrubPass _
  | .thermThrottle _ _ | .thermStep _ _ | .thermCrit _ _ | .thermalTrip _ _ | .auxEnter | .auxExit | .powerOff
  | .sysReset | .strapTest _ | .sysclkLost | .sysclkReturn | .hrefclkLost _ | .openDrainFault _ | .ftClkInReturn
  | .hrefclkReturn _ | .linkTrainingEnd _ _ _ _ _ | .thermForcingEnd _ _ | .heldResetRelease _ _ | .tlpError _ _ _ _
  | .unsupportedRequest _ _ => true
  | _ => false

end Sys2Proof.Machine
end

