-- ==== Sys2Proof/Certificates/Slice0/Obligations.lean ====
section
/-! DEFINITION. The statements about the model, for the provers. Each says what the docstring above it says; the rules that it
rests on are named in OBLIGATIONS.json. -/

open Sys2Proof Sys2Proof.Machine

/-- L1 entry and the width changes of L0p happen under their conditions and change one sub-link only. A sub-link that is
up, whose first PF has ASPM L1 enabled, that was quiet for 8,000 ns and has no read outstanding enters L1 at L1_ENTRY,
in the substate that L1 PM Substates Control enables (L1.2 where both are enabled: a choice of the model, log 35).
L0P_NARROW, whose operands are the loads in thousandths of the current width, halves the width, down to x4, exactly
where L0p was negotiated and the host die's own counter stands at a multiple of 65,536 (at the first FT at or after
it) with both loads below 200 (40 % of the half width); otherwise it changes nothing. L0P_WIDEN restores the trained
width, where L0p was negotiated, at a 1,024 ns frame boundary with a load above 750, and otherwise changes nothing.
Completes, with exec answering a next state under conditions on the state and the operands alone: l1Entry, l0pNarrow,
l0pWiden. -/
def Obligations.HostLinkPowerChanges : Prop :=
  (∀ (s : State) (port sub idleNs : Nat) (l : SubLink) (x : FnSt),
    s.subUp port sub = some l → s.fn (s.firstPf port sub) = some x → x.aspmL1 = true → 8000 ≤ idleNs →
    (∀ r ∈ s.host.reads, r.2.ref.fn.port = port → s.subLinkOf r.2.ref.fn ≠ sub) →
    exec (.l1Entry port sub idleNs) s = .next (s.onSub port sub fun y => { y with inL1 := true, l1sub := s.l1Substate port x })) ∧
  (∀ (s0 s : State) (port sub a b : Nat) (l : SubLink), s = s0.seenFrom (6 + port) → s.subUp port sub = some l →
    exec (.l0pNarrow port sub a b) s0 = .next (s0.backFrom (if s.onGrid 65536 0 = true ∧ l.l0p = true ∧ 4 < l.width ∧ a < 200 ∧ b < 200 then
      s.onSub port sub fun y => { y with width := max 4 (y.width / 2) } else s))) ∧
  (∀ (s0 s : State) (port sub a b : Nat) (l : SubLink), s = s0.seenFrom (6 + port) → s.subUp port sub = some l →
    exec (.l0pWiden port sub a b) s0 = .next (s0.backFrom (if s.onFrame = true ∧ l.l0p = true ∧ (750 < a ∨ 750 < b) then
      s.onSub port sub fun y => { y with width := y.trainedWidth } else s)))

/-- Clearing bus mastering or entering D3hot stops a mastering function; setting it or returning to D0 resumes it. For a
function that exists and is not in reset, outside the FATAL state: BME_CLEAR and D3HOT_ENTER set the bit, and stop the
requests of a function that masters the bus; BME_SET and D3HOT_EXIT set the bit, and where the function masters the
bus from then on, and did not before, resume what was held. In FATAL the four change the bit alone. Completes, with
exec answering a next state under conditions on the state and the operands alone: bmeClear, bmeSet, d3hotEnter,
d3hotExit. -/
def Obligations.BusMasteringCommands : Prop :=
  (∀ (s : State) (f : FnRef), s.configurable f = true → s.fatal = false →
    exec (.bmeClear f) s = .next (if s.mastering f then (s.onFn f fun x => { x with bme := false }).bmeStop f else s.onFn f fun x => { x with bme := false }) ∧
    exec (.d3hotEnter f) s = .next (if s.mastering f then (s.onFn f fun x => { x with d3hot := true }).bmeStop f else s.onFn f fun x => { x with d3hot := true })) ∧
  (∀ (s : State) (f : FnRef) (x : FnSt), s.configurable f = true → s.fatal = false → s.fn f = some x → s.mastering f = false →
    exec (.bmeSet f) s = .next (if x.d3hot then s.onFn f fun x => { x with bme := true } else (s.onFn f fun x => { x with bme := true }).bmeResume f) ∧
    exec (.d3hotExit f) s = .next (if x.bme then (s.onFn f fun x => { x with d3hot := false }).bmeResume f else s.onFn f fun x => { x with d3hot := false })) ∧
  (∀ (s : State) (f : FnRef), s.configurable f = true → s.fatal = false → s.mastering f = true →
    exec (.bmeSet f) s = .next (s.onFn f fun x => { x with bme := true }) ∧
    exec (.d3hotExit f) s = .next (s.onFn f fun x => { x with d3hot := false })) ∧
  (∀ (s : State) (f : FnRef), s.configurable f = true → s.fatal = true →
    exec (.bmeClear f) s = .next (s.onFn f fun x => { x with bme := false }) ∧
    exec (.bmeSet f) s = .next (s.onFn f fun x => { x with bme := true }) ∧
    exec (.d3hotEnter f) s = .next (s.onFn f fun x => { x with d3hot := true }) ∧
    exec (.d3hotExit f) s = .next (s.onFn f fun x => { x with d3hot := false }))

/-- CMD_EN creates the function's command ring and CQ, or is refused with CMD_ERR; clearing it drains the ring. CMD_EN
written 1 on a function whose BARs are decoded and whose CMD_EN is 0: where a base is misaligned, a log size is out of
range, VECTOR is at or above the Table Size, no QID is free or the previous pair exists, CMD_ERR is set and nothing
else changes; otherwise CMD_EN reads 1, CMD_ERR 0, and the ring and the CQ are created and enabled, at once where
commands are taken and otherwise when they come to be. CMD_EN written 0 with the ring in being begins to drain it, and
the pair goes once the ring is IDLE; with no ring in being it clears the bit. Completes, with exec answering a next
state under conditions on the state and the operands alone: cmdEnSet, cmdEnClear. -/
def Obligations.CommandRingOpensAndCloses : Prop :=
  (∀ (s : State) (f : FnRef) (x : FnSt), s.fn f = some x → s.barOpen f = true → s.fatal = false → x.cmdEn = false →
    s.cmdEnBad f x = true → exec (.cmdEnSet f) s = .next (s.onFn f fun y => { y with cmdErr := true })) ∧
  (∀ (s : State) (f : FnRef) (x : FnSt), s.fn f = some x → s.barOpen f = true → s.fatal = false → x.cmdEn = false →
    s.cmdEnBad f x = false → (s.onFn f fun y => { y with cmdEn := true, cmdErr := false }).takesCommands f = true →
    exec (.cmdEnSet f) s = .next ((s.onFn f fun y => { y with cmdEn := true, cmdErr := false }).cmdOpen f)) ∧
  (∀ (s : State) (f : FnRef) (x : FnSt), s.fn f = some x → s.barOpen f = true → s.fatal = false → x.cmdEn = false →
    s.cmdEnBad f x = false → (s.onFn f fun y => { y with cmdEn := true, cmdErr := false }).takesCommands f = false →
    exec (.cmdEnSet f) s = .next (s.onFn f fun y => { y with cmdEn := true, cmdErr := false })) ∧
  (∀ (s : State) (f : FnRef) (x : FnSt), s.fn f = some x → s.barOpen f = true → s.fatal = false → x.cmdEn = true →
    x.cmdActive = true → exec (.cmdEnClear f) s =
      .next (((s.onFn f fun y => { y with cmdEn := false, cmdClosing := true }).beginDisable x.sqQid).closeCommand f)) ∧
  (∀ (s : State) (f : FnRef) (x : FnSt), s.fn f = some x → s.barOpen f = true → s.fatal = false → x.cmdEn = true →
    x.cmdActive = false → exec (.cmdEnClear f) s = .next (s.onFn f fun y => { y with cmdEn := false, cmdClosing := false }))

/-- FLR, VF Enable, hot reset, PERSTn# and the recovery profile act as the reset table says. An FLR of a function not in
reset stops it and, for a PF, its VFs; where a slice or a VF of it was not quiesced, the owners of the queues in
flight have made a host error (their memory may hold anything). FLR_COMPLETE of a function without outstanding reads
destroys what it owns and returns the registers of a present one to reset, the sticky error log kept (log 35); a VF
that is no longer enabled is gone. A change of VF Enable and NumVFs on a PF with SR-IOV resets the VFs that it removes
and adds those that are new; NumVFs above TotalVFs keeps its value. HOT_RESET resets every function of the sub-link
and takes the link down. PERST_ASSERT resets the port with its power domains 0-5 off; PERST_DEASSERT starts it where
the device has main power. 900 ms after the deassertion without a verified profile the recovery profile governs.
Completes, with exec answering a next state under conditions on the state and the operands alone: flr, flrComplete,
vfEnableChange, hotReset, perstAssert, perstDeassert, profileRecoveryTimeout. -/
def Obligations.ResetsOfFunctionsAndPorts : Prop :=
  (∀ (s : State) (f : FnRef) (x : FnSt), s.fn f = some x → x.flrAt = none →
    exec (.flr f) s = .next ((s.unquiesced fun o => o.fnRef.any (fun g => (s.withVfs f).contains g && (g.vf || o.sid.isSome))).flrStop (s.withVfs f))) ∧
  (∀ (s : State) (f : FnRef) (x : FnSt), s.fn f = some x → x.flrAt ≠ none → s.fnPresent f = true →
    (∀ r ∈ s.host.reads, r.2.ref.fn ≠ f) →
    exec (.flrComplete f) s = .next ((s.endFns [f]).onFn f fun y => { FnSt.reset f with aer := y.aer })) ∧
  (∀ (s : State) (f : FnRef) (x : FnSt), s.fn f = some x → x.flrAt ≠ none → s.fnPresent f = false →
    (∀ r ∈ s.host.reads, r.2.ref.fn ≠ f) →
    exec (.flrComplete f) s = .next ((s.endFns [f]).onHost fun h => { h with fns := h.fns.filter fun (y : FnSt) => y.ref != f })) ∧
  (∀ (s : State) (f : FnRef) (x : FnSt) (r : PfRecord) (n : Nat) (on : Bool) (gone : List FnRef) (u : State), s.fn f = some x →
    f.vf = false → x.flrAt = none → s.pfRecord f.port f.num = some r → r.sriov = true → n ≤ s.totalVfs f.port f.num →
    gone = (s.vfRange f x.vfEnable x.numVfs).filter (fun g => !(s.vfRange f on n).contains g) →
    u = ((s.unquiesced fun o => o.fnRef.any gone.contains).flrStop gone).onFn f (fun y => { y with vfEnable := on, numVfs := n }) →
    exec (.vfEnableChange f on n) s = .next (u.onHost fun h => { h with fns :=
      h.fns ++ ((s.vfRange f on n).filter fun g => !u.host.fns.any (·.ref == g)).map FnSt.reset })) ∧
  (∀ (s : State) (f : FnRef) (x : FnSt) (n : Nat) (on : Bool), s.fn f = some x → s.totalVfs f.port f.num < n → x.numVfs ≤ s.totalVfs f.port f.num →
    exec (.vfEnableChange f on n) s = exec (.vfEnableChange f on x.numVfs) s) ∧
  (∀ (s : State) (port sub : Nat), (s.hostPort port).perst = false →
    exec (.hotReset port sub) s = .next (s.dlDown port sub)) ∧
  (∀ (s : State) (port : Nat), (s.hostPort port).perst = false →
    exec (.perstAssert port) s =
      .next ((((s.portGone port).onHostPort port fun p => { p with perst := true }).domains (hostDomains port) false).openWaiting)) ∧
  (∀ (s : State) (port : Nat), (s.hostPort port).perst = true → s.power.dev ≠ .aux → s.power.dev ≠ .off → s.pins.thermTrip = false →
    s.pins.sysRst = false →
    exec (.perstDeassert port) s = .next ((s.onHostPort port fun p => { p with perst := false }).portStart port)) ∧
  (∀ (s : State) (port t : Nat), (s.hostPort port).deassertedAt = some t → (s.hostPort port).profile = none →
    exec (.profileRecoveryTimeout port) s =
      .next (if t + 900000000 ≤ s.time.osc then s.forceProfile port (recoveryProfile (s.subLinks port)) true else s))

/-- Link training brings a sub-link up at its width, and link errors are logged in the function the table names.
LINK_TRAINING_END on a sub-link that is down, with PERSTn# deasserted and its clock present and settled, brings it up
at a width the bifurcation allows, at a rate and with or without L0p as the partners settle (free values, log 27),
with the lane faults that follow. TLP_ERROR on a link that is up logs each of the five link-level errors in the first
PF, an unexpected completion and a poisoned write in their function, a poisoned read in the requester, whose access
ends with it, and each of the five fatal link errors with DL_Down. UNSUPPORTED_REQUEST answers an I/O or AtomicOp
request and a memory read that no BAR takes with Unsupported Request and logs it; a memory write is dropped and
logged. Completes, with exec answering a next state under conditions on the state and the operands alone:
linkTrainingEnd, tlpError, unsupportedRequest. -/
def Obligations.LinkTrainingAndErrors : Prop :=
  (∀ (s : State) (port sub width : Nat) (rm dr : Bool) (l : SubLink), (s.hostPort port).perst = false →
    (s.hostPort port).deassertedAt ≠ none → s.pins.hrefclk.getD port false = true →
    s.pins.hrefReadyAt.getD port 0 ≤ s.time.osc → (s.hostPort port).subLinks[sub]? = some l → l.up = false →
    width ∈ [1, 2, 4, 8, 16] → width ≤ 16 / s.subLinks port →
    exec (.linkTrainingEnd port sub width rm dr) s = .next (((s.onHostPort port fun p => { p with
      subLinks := modAt p.subLinks sub fun y => { y with
        up := true, inL1 := false, l1sub := 0, ltr := false, trainedWidth := width, width := width, remapped := rm, dropped := dr
        rate := linkRates.getD (Config.freeNat s.free % 7) 2500, l0p := Config.freeNat (s.free + 1) % 2 == 1 } }).onFree (· + 2)).laneFaults port)) ∧
  (∀ (s : State) (port sub : Nat) (f : FnRef) (l : SubLink) (le : LinkErr) (fe : FatalErr), (s.hostPort port).subLinks[sub]? = some l → l.up = true →
    exec (.tlpError port sub f (.linkLevel le)) s = .next (s.logAer (s.firstPf port sub) (.link le)) ∧
    exec (.tlpError port sub f .unexpectedCompletion) s = .next (s.logAer (s.aerFn f) .unexpectedCompletion) ∧
    exec (.tlpError port sub f .poisonedWrite) s = .next (s.logAer (s.aerFn f) .poisonedTlp) ∧
    exec (.tlpError port sub f (.fatalLink fe)) s = .next ((s.logAer (s.firstPf port sub) (.fatalLink fe)).dlDown port sub)) ∧
  (∀ (s : State) (port sub tag : Nat) (f : FnRef) (l : SubLink) (r : HostReadSt), (s.hostPort port).subLinks[sub]? = some l → l.up = true →
    s.readOut tag = some r →
    exec (.tlpError port sub f (.poisonedRead tag)) s = .next ((s.logAer r.ref.fn .poisonedTlp).deliverRead tag r .poisoned)) ∧
  (∀ (s : State) (f : FnRef), (s.hostPort f.port).perst = false →
    exec (.unsupportedRequest f .ioOrAtomic) s = .next ((s.emit (.unsupported f)).logAer (s.aerFn f) .unsupportedRequest)) ∧
  (∀ (s : State) (f : FnRef), (s.hostPort f.port).perst = false → s.barOpen f = false →
    exec (.unsupportedRequest f .memoryRead) s = .next ((s.emit (.unsupported f)).logAer (s.aerFn f) .unsupportedRequest) ∧
    exec (.unsupportedRequest f .memoryWrite) s = .next (s.logAer (s.aerFn f) .unsupportedRequest))

/-- A host read ends with its completion or its timeout, and a requested vector sends its message or sets its pending bit.
HOST_READ_COMPLETION of an outstanding tag frees the tag and delivers its data, cut to the length asked for, or its
failure; poisoned data is logged. For a tag that has timed out it is an Unexpected Completion: logged, and discarded.
COMPLETION_TIMEOUT at or after the deadline logs Completion Timeout, counts it and ends the access. MSIX_SEND at the
256 ns instant of a request on the host die takes the request away; with MSI-X enabled, the function mastering and the
vector unmasked the message of its table entry is sent and counted, and otherwise the pending bit is set. Completes,
with exec answering a next state under conditions on the state and the operands alone: hostReadCompletion,
completionTimeout, msixSend. -/
def Obligations.HostReadsEndAndVectorsAreSent : Prop :=
  (∀ (s : State) (tag : Nat) (r : HostReadSt) (how : ReadEnd), s.readOut tag = some r → how ≠ .timeout → how ≠ .poisoned →
    exec (.hostReadCompletion tag how) s = .next (s.deliverRead tag r (r.ended how))) ∧
  (∀ (s : State) (tag : Nat) (r : HostReadSt), s.readOut tag = some r →
    exec (.hostReadCompletion tag .poisoned) s = .next ((s.logAer r.ref.fn .poisonedTlp).deliverRead tag r .poisoned)) ∧
  (∀ (s : State) (tag : Nat) (f : FnRef) (how : ReadEnd), s.readOut tag = none → s.host.timedOut.get tag = some f →
    exec (.hostReadCompletion tag how) s =
      .next ((s.onHost fun h => { h with timedOut := h.timedOut.del tag }).logAer f .unexpectedCompletion)) ∧
  (∀ (s : State) (tag : Nat) (r : HostReadSt), s.readOut tag = some r → r.deadline ≤ s.time.osc →
    exec (.completionTimeout tag) s =
      .next ((((s.logAer r.ref.fn .completionTimeout).count Ct.hostPort r.ref.fn.port 2).onHost fun h => { h with
        timedOut := h.timedOut.set tag r.ref.fn }).deliverRead tag r .timeout)) ∧
  (∀ (s0 s : State) (f : FnRef) (v t : Nat), s = s0.seenFrom (6 + f.port) → s.fatal = false →
    s.host.msixReq.find? (fun y => y.1 == f && y.2.1 == v && s.dueAt y.2.2 (s.onGrid 256 0)) = some (f, v, t) →
    exec (.msixSend f v) s0 = .next (s0.backFrom (((s.onHost fun h => { h with msixReq := h.msixReq.filter fun y => y.1 != f || y.2.1 != v || y.2.2 != t }).onFn f fun x => { x with
        vecSent := Tab.set x.vecSent v t }).sendVector f v))) ∧
  (∀ (s : State) (f : FnRef) (v : Nat) (x : FnSt), s.fn f = some x → s.fnPresent f = true → x.flrAt = none → v < s.tableSize f →
    s.sendVector f v = if x.msixEnable && s.mastering f && !x.vecMasked v then
        (((s.onFn f fun x => { x with vecPending := x.vecPending.erase v }).leaveL1 f).emit (x.vecMessage f v)).count Ct.hostPort f.port 3
      else s.onFn f fun x => { x with vecPending := if x.vecPending.contains v then x.vecPending else x.vecPending ++ [v] })

/-- REGISTER_WRITE changes the register it names, with what follows from it; bases are ignored while CMD_EN is 1. A
Configuration Write to a function that takes it changes the field, sends the vectors that this frees and ends the
reads that it forbids; one that changes a request size with requests outstanding is a host error too. With CMD_EN 0
and the BARs decoded, a 64-bit write to a base register of the control page, and a 32-bit write to FN_CMD_CFG without
reserved bits, stores the value; with CMD_EN 1 a write to one of them is ignored. A 32-bit write within the MSI-X
table stores its word; one that changes an unmasked entry is a host error too. CY_ERR of a bound cipher page clears
the bits written 1. A write of 1 to SET_IGN of FT_STATE clears it, and a write to FT_LOCK_THRESH is accepted as a
pending change, which a later boundary applies. Completes, with exec answering a next state under conditions on the
state and the operands alone: registerWrite. -/
def Obligations.RegisterWritesReachTheirRegister : Prop :=
  (∀ (s : State) (f : FnRef) (r : CfgField) (v : Nat) (x : FnSt), s.configurable f = true → s.fn f = some x → s.sizeHostError f r (x.setField r v) = false →
    exec (.registerWrite (.config f r v)) s = .next (((s.onFn f (·.setField r v)).flushVectors f).endRefused f.port)) ∧
  (∀ (s : State) (f : FnRef) (r : CfgField) (v : Nat) (x : FnSt), s.configurable f = true → s.fn f = some x → s.sizeHostError f r (x.setField r v) = true →
    exec (.registerWrite (.config f r v)) s = .next ((((s.onFn f (·.setField r v)).flushVectors f).endRefused f.port).ownerHostError (.function f))) ∧
  (∀ (s : State) (f : FnRef) (x : FnSt) (v : W64), s.fn f = some x → s.barOpen f = true → s.fatal = false → x.cmdEn = false →
    exec (.registerWrite (.control f 0x010 8 v)) s = .next (s.onFn f fun y => { y with sqBase := v }) ∧
    exec (.registerWrite (.control f 0x018 8 v)) s = .next (s.onFn f fun y => { y with cqBase := v }) ∧
    exec (.registerWrite (.control f 0x020 8 v)) s = .next (s.onFn f fun y => { y with wbBase := v })) ∧
  (∀ (s : State) (f : FnRef) (x : FnSt) (v : W64), s.fn f = some x → s.barOpen f = true → s.fatal = false → x.cmdEn = false →
    v.toNat < 2 ^ 32 → v.toNat &&& 0x07FF00FF = v.toNat →
    exec (.registerWrite (.control f 0x028 4 v)) s = .next (s.onFn f fun y => { y with cmdCfg := BitVec.ofNat 32 v.toNat })) ∧
  (∀ (s : State) (f : FnRef) (x : FnSt) (off size : Nat) (v : W64), s.fn f = some x → x.cmdEn = true → off ≠ 0x008 →
    exec (.registerWrite (.control f off size v)) s = .next s) ∧
  (∀ (s : State) (f : FnRef) (k : Nat) (v : W32), s.barOpen f = true → k < 4 * s.tableSize f → s.msixHostError f (4 * k) v = false →
    exec (.registerWrite (.msix f (4 * k) v)) s =
      .next ((s.onFn f fun x => { x with vecEntries := Tab.set x.vecEntries k v.toNat }).flushVectors f)) ∧
  (∀ (s : State) (f : FnRef) (k : Nat) (v : W32), s.barOpen f = true → k < 4 * s.tableSize f → s.msixHostError f (4 * k) v = true →
    exec (.registerWrite (.msix f (4 * k) v)) s = .next
      (((s.onFn f fun x => { x with vecEntries := Tab.set x.vecEntries k v.toNat }).flushVectors f).ownerHostError (.function f))) ∧
  (∀ (s : State) (f : FnRef) (page t : Nat) (x : CyChan) (v : W64), s.fatal = false → s.barOpen f = true → s.chanOfPage f page = some (t, x) →
    exec (.registerWrite (.cipher f page 0x010 4 v)) s = .next (s.onChanCy t fun y => { y with err := y.err - (y.err &&& (v.toNat % 4)) })) ∧
  (∀ (s : State) (v : W64), s.fatal = false → v.toNat < 2 ^ 32 →
    exec (.registerWrite (.device 4 0x800010 4 v)) s =
      .next (if bit v.toNat 8 then s.onFtu fun f => { f with setIgn := false } else s) ∧
    exec (.registerWrite (.device 4 0x800018 4 v)) s = .next (s.onFtu fun f => { f with
      cfgPend := f.cfgPend ++ [{ writes := [(0x18, BitVec.ofNat 32 v.toNat)], accepted := s.ft, cmd := none }] }))

/-- The eighth failed retransmission in a row takes a link down; the device goes FATAL exactly when a die is cut off.
FLIT_RETRANSMIT on a link that is up clears the count on success; a failure counts, and the eighth in a row takes the
link down, writes the log record and raises FLINK_DOWN at both ends. With every link up, the loss of one link leaves
the device out of the FATAL state, since every die stays reachable; with the other link of N0 already down, the loss
of the last one makes the device FATAL. Completes, with exec answering a next state under conditions on the state and
the operands alone: flitRetransmit. -/
def Obligations.FabricLinkFailure : Prop :=
  (∀ (s : State) (k : Nat) (x : LinkSt), s.links[k]? = some x → x.up = true →
    exec (.flitRetransmit k false) s = .next (s.onLinks fun l => modAt l k fun y => { y with fails := 0 }) ∧
    (x.fails < 7 → exec (.flitRetransmit k true) s = .next (s.onLinks fun l => modAt l k fun y => { y with fails := y.fails + 1 })) ∧
    (7 ≤ x.fails → exec (.flitRetransmit k true) s = .next (s.linkLost k))) ∧
  (∀ (s : State) (k : Nat), k < 12 → s.links = List.replicate 12 { up := true, fails := 0 } → s.fatal = false →
    (s.linkLost k).fatal = false) ∧
  (∀ (s : State), s.links = modAt (List.replicate 12 { up := true, fails := 0 }) 4 (fun _ => { up := false, fails := 0 }) →
    (s.linkLost 5).fatal = true)

/-- The memory code corrects any error of one symbol, and poison is recognised whatever the data. For every eight data
symbols: the codeword that the encoder makes has syndrome zero; with any one of its ten symbols changed by any nonzero
error, the decoder names exactly that symbol and that error; and with both check symbols XORed with 0xA5 its syndrome
is the poison syndrome, which does not depend on the data and which no single-symbol error explains. -/
def Obligations.SingleSymbolErrorsAreCorrected : Prop :=
  (∀ data : List Nat, data.length = 8 → (∀ d ∈ data, d < 256) → rsSyndrome (rsEncode data) = (0, 0)) ∧
  (∀ (data : List Nat) (p e : Nat), data.length = 8 → (∀ d ∈ data, d < 256) → p < 10 → 0 < e → e < 256 →
    rsFix (modAt (rsEncode data) p (· ^^^ e)) = some [(p, e)]) ∧
  (∀ data : List Nat, data.length = 8 → (∀ d ∈ data, d < 256) →
    rsSyndrome (modAt (modAt (rsEncode data) 8 (· ^^^ 0xA5)) 9 (· ^^^ 0xA5)) = poisonSyndrome ∧
    rsFix (modAt (modAt (rsEncode data) 8 (· ^^^ 0xA5)) 9 (· ^^^ 0xA5)) = none)

/-- A line without errors decodes as it was written, and a poisoned line decodes as poisoned. For every 64 data bytes:
eight codewords read without errors decode as good with no correction and give back the 64 bytes; read from a poisoned
line they decode as poisoned; and a line in which one whole device, that is one symbol position, is wrong in any of
the codewords decodes as good and its corrected data are the 64 bytes. -/
def Obligations.PoisonedAndCleanLinesAreRecognised : Prop :=
  (∀ b : Bytes, b.length = 64 →
    decodeLine (lineCodewords b (zeros 80) false) = .good [] ∧
    lineData (lineCodewords b (zeros 80) false) [] = b ∧
    decodeLine (lineCodewords b (zeros 80) true) = .poisoned) ∧
  (∀ (b errors : Bytes) (p : Nat), b.length = 64 → errors.length = 80 → p < 10 →
    (∀ i, i % 10 ≠ p → byteAt errors i = 0) →
    ∃ l, decodeLine (lineCodewords b errors false) = .good l ∧ lineData (lineCodewords b errors false) l = b)

/-- Training, refresh, calibration windows and sideband faults act on their channel at their instants. DRAM_TRAINED in
Buckram's boot trains the twelve channels as found, once. REFRESH refreshes a rank that works exactly at its FT
instants (FT - 240*((c + r) mod 16)) mod T_REF = 0 of its die's own counter (at the first FT at or after each).
FORCED_REFRESH refreshes it when 4 T_REF of oscillator time have gone by. CAL_WINDOW at a 4,096 ns slot holds a
channel for 1,024 ns and takes the module temperatures, in the slot of its periodic window or at its turn of a
requested calibration; the last requested window's end is answered first. SIDEBAND_FAULT in operation isolates the
sideband, sets its PIN_FAULT bit, logs and raises MEM_SIDEBAND. Completes, with exec answering a next state under
conditions on the state and the operands alone: refresh, forcedRefresh, calWindow, sidebandFault, dramTrained. -/
def Obligations.MemoryIsTrainedAndRefreshed : Prop :=
  (∀ (s : State) (found : List ChannelPop), s.fatal = false → s.dram.done = false → s.boot.stage = .buckram →
    s.pins.mainPwrOk = true → found.length = 12 →
    exec (.dramTrained found) s =
      .next ((found.zipIdx.foldl (fun s (p, c) => s.trainChannel c p) s).onDram fun d => { d with done := true })) ∧
  (∀ (s0 s : State) (c r : Nat), s = s0.seenFrom (c / 3) → s.refreshing c r = true →
    exec (.refresh c r) s0 = .next (s0.backFrom (if s.onGrid ((s.channel c).tRef r) (240 * ((c + r) % 16)) = true then s.refreshNow c r else s))) ∧
  (∀ (s : State) (c r t : Nat), s.refreshing c r = true → (r, t) ∈ (s.channel c).lastRefresh →
    t + 4 * (s.channel c).tRef r ≤ s.time.osc →
    exec (.forcedRefresh c r) s = .next (s.refreshNow c r)) ∧
  (∀ (s0 s : State) (c load : Nat) (h0 h1 : Bool) (u : State), s = s0.seenFrom (c / 3) → u = s.calEnds c → u.fatal = false → u.onGrid 4096 0 = true →
    (u.channel c).trained = true → u.channelOn c = true → (u.channel c).calUntil ≤ u.ft →
    exec (.calWindow c h0 h1 load) s0 = .next (s0.backFrom (if periodicWindow (u.gridFt 4096 0) = some c then
        u.onChannel c fun x => { x with calUntil := u.gridFt 4096 0 + 1024, hot := [h0, h1] }
      else if u.calTurn c = true then u.onChannel c fun x => { x with
        calUntil := u.gridFt 4096 0 + 1024, hot := [h0, h1], calLeft := x.calLeft - 1
        calNext := if 500 < load then (u.gridFt 4096 0 / 65536 + 1) * 65536 else (u.gridFt 4096 0 / 8192 + 1) * 8192 }
      else u))) ∧
  (∀ (s : State) (c : Nat) (k : Cmd), (s.channel c).calCmd = some k → (s.channel c).calLeft = 0 → (s.channel c).calUntil ≤ s.ft →
    s.calEnds c = (s.onChannel c fun x => { x with calCmd := none }).reply 0x0E04 k false { Answer.ok with ft := some (s.channel c).calUntil }) ∧
  (∀ (s : State) (c : Nat), s.fatal = false → s.dram.done = true → (s.channel c).sidebandBad = false → s.channelOn c = true →
    exec (.sidebandFault c) s = .next (((((s.onChannel c fun x => { x with sidebandBad := true }).pinFault (32 + c)).useFree).channelLog 5 c
      (Config.freeNat ((((s.onChannel c fun x => { x with sidebandBad := true }).pinFault (32 + c)).useFree).free - 1) % 5)).raise
        (memSource c 3) c 0 .dev))

/-- Patrol scrub reads one line at a time and poisons what it cannot correct; its commands are checked. SCRUB_PASS at an
instant of the period in force starts a pass of a channel that works; lines that the pass before left are read at
once. SCRUB_READ of the next line due corrects its errors and queues the write-back, poisons what it cannot correct
and reports it, or leaves a poisoned line; with no errors on a line it changes the scrub position alone. CE_WRITEBACK
writes the oldest corrected line back. DIAG_SCRUB_SET accepts a period from 1 h to 30 days, which then waits for its
first instant; 0 turns scrubbing off, and any other ends S_BAD_PARAM. DIAG_DRAM_CAL of a trained channel without a
request open asks for 64 windows; of any other it ends S_BAD_STATE. Completes, with exec answering a next state under
conditions on the state and the operands alone: diagDramCal, diagScrubSet, scrubPass, scrubRead, ceWriteback. -/
def Obligations.ScrubbingAndItsCommands : Prop :=
  (∀ (s0 s : State) (c left : Nat) (u : State), s = s0.seenFrom (c / 3) → u = s.scrubTake → u.fatal = false → u.onGrid u.dram.scrubPeriod 0 = true →
    u.refreshing c 0 = true → (u.channel c).scrubStart ≠ some (u.gridFt u.dram.scrubPeriod 0) →
    left = (if (u.channel c).scrubStart = none then 0 else (u.channel c).lines - (u.channel c).scrubNext) →
    exec (.scrubPass c) s0 = .next (s0.backFrom ((if left = 0 then u else u.countBy Ct.ddr (512 + c) 1 left).onChannel c fun x =>
      { x with scrubStart := some (u.gridFt u.dram.scrubPeriod 0), scrubNext := 0, scrubPass := min x.lines (x.scrubPass + left) }))) ∧
  (∀ (s0 s : State) (c r sub i rank sb : Nat) (errors : Bytes) (u : State) (l : List (List Nat)), s = s0.seenFrom (c / 3) → s.fatal = false → s.refreshing c r = true →
    s.dram.scrubPeriod ≠ 0 → s.scrubLine c = some i → rank = (s.lineRank (c * 2 ^ 34 + i)).1 → sb = (s.lineRank (c * 2 ^ 34 + i)).2 →
    u = (s.onChannel c fun x => if 0 < x.scrubPass then { x with scrubPass := x.scrubPass - 1 } else { x with scrubNext := i + 1 }).onDram
      (fun d => { d with faults := d.faults.del (c * 2 ^ 34 + i) }) →
    l = lineCodewords (u.lineBytes (c * 2 ^ 34 + i)) (s.lineErrors (c * 2 ^ 34 + i) (burstSymbols errors)) (s.dram.poison.contains (c * 2 ^ 34 + i)) →
    exec (.scrubRead c r sub errors) s0 = .next (s0.backFrom (match decodeLine l with
      | .poisoned => u
      | .uncorrectable => ((u.setLine (c * 2 ^ 34 + i) (lineData l [])).count Ct.ddr (rankIndex c rank sb) 4).foundUe c rank sb 0 (64 * i)
      | .good [] => u
      | .good m => (u.setLine (c * 2 ^ 34 + i) (lineData l m)).correctLine (c * 2 ^ 34 + i) rank sb 0 3 m))) ∧
  (∀ (s0 s : State) (c r sub i : Nat), s = s0.seenFrom (c / 3) → s.fatal = false → s.refreshing c r = true → s.dram.scrubPeriod ≠ 0 →
    s.scrubLine c = some i → s.dram.faults.get (c * 2 ^ 34 + i) = none →
    exec (.scrubRead c r sub (zeros 80)) s0 = .next (s0.backFrom ((s.onChannel c fun x =>
      if 0 < x.scrubPass then { x with scrubPass := x.scrubPass - 1 } else { x with scrubNext := i + 1 }).onDram
        fun d => { d with faults := d.faults.del (c * 2 ^ 34 + i) }))) ∧
  (∀ (s : State) (c : Nat), s.fatal = false → s.refreshing c 0 = true →
    exec (.ceWriteback c) s = .next (s.onChannel c fun x => { x with writebacks := x.writebacks.drop 1 })) ∧
  (∀ (s : State) (c : Cmd) (who : Caller), s.accepts 0x0E05 c who false true true = true → exec (.diagScrubSet c) s = .next (if cmdLe c 16 8 = 0 then
        ((s.taken 0x0E05 c).onDram fun d => { d with scrubPeriod := 0, scrubPend := none
                                                     channels := d.channels.map fun x => { x with scrubStart := none, scrubPass := 0 } }).answer 0x0E05 c Answer.ok
      else if 3600000000000 ≤ cmdLe c 16 8 ∧ cmdLe c 16 8 ≤ 2592000000000000 then
        ((s.taken 0x0E05 c).onDram fun d => { d with scrubPend := some (cmdLe c 16 8) }).answer 0x0E05 c Answer.ok
      else (s.taken 0x0E05 c).answer 0x0E05 c (Answer.just St.badParam))) ∧
  (∀ (s : State) (c : Cmd) (who : Caller), s.accepts 0x0E04 c who false true true = true →
    ((s.taken 0x0E04 c).channel c.target.toNat).trained = true → ((s.taken 0x0E04 c).channel c.target.toNat).calCmd = none →
    exec (.diagDramCal c) s = .next ((s.taken 0x0E04 c).onChannel c.target.toNat fun x =>
      { x with calLeft := 64, calNext := (s.taken 0x0E04 c).ft, calCmd := some c })) ∧
  (∀ (s : State) (c : Cmd) (who : Caller), s.accepts 0x0E04 c who false true true = true →
    (((s.taken 0x0E04 c).channel c.target.toNat).trained = false ∨ ((s.taken 0x0E04 c).channel c.target.toNat).calCmd ≠ none) →
    exec (.diagDramCal c) s = .next ((s.taken 0x0E04 c).answer 0x0E04 c (Answer.just St.badState)))

/-- A tile is parked and unparked by its commands at their points. PW_TILE_PARK that passes its checks opens the park, its
DMA queues bound to channels elsewhere, with its point at the first rebalance point at least 500,000 ns later and the
drain limit 200,000,000 ns after it. PARK_POINT at that point moves queues, connections, steering and policers off the
tile, and kills its threads that a debugger has stopped. PARK_DRAIN_LIMIT at the limit ends what remains, of the tile
or of every tile that drains for STANDBY. TILE_POWER_OFF at a frame boundary, with the tile empty and no PW_TILE_PARK
before Buckram, switches it off and replies; for STANDBY it waits for the four tiles and the mailbox. PW_TILE_UNPARK
of a PARKED tile starts it; UNPARK_POINT at the point of first use gives it back the connections that its park moved,
writes indirection tables that name tiles in use (a free choice, log 55) and replies. Completes, with exec answering a
next state under conditions on the state and the operands alone: pwTilePark, parkPoint, parkDrainLimit, tilePowerOff,
pwTileUnpark, unparkPoint. -/
def Obligations.ParkingATile : Prop :=
  (∀ (s : State) (c : Cmd) (who : Caller) (env : BkEnv), s.accepts 0x0B01 c who false true false = true → s.mailboxIdle = true →
    (s.taken 0x0B01 c).parkCheck c.target.toNat = none →
    ThenBuckram (.pwTilePark c) env s (((s.taken 0x0B01 c).parkReserve c.target.toNat).onPower fun p => { p with op := some {
      tile := c.target.toNat, unpark := false, point := roundUp ((s.taken 0x0B01 c).ft + 500000) 1048576, passed := false,
      limit := roundUp ((s.taken 0x0B01 c).ft + 500000) 1048576 + 200000000, ready := false, cmd := c } })) ∧
  (∀ (s : State) (o : ParkOp), s.power.op = some o → s.fatal = false → o.unpark = false → o.passed = false →
    s.dueAt o.point s.onRebalance = true →
    exec .parkPoint s = .next ((((((s.moveQueues o.tile).moveConns o.tile).steerAway o.tile).killStopped o.tile).onFree (· + 2 ^ 22)).onPower
      (fun p => { p with op := some { o with passed := true } })).movePolicers.settleCaches) ∧
  (∀ (s : State) (o : ParkOp), s.power.op = some o → s.fatal = false → o.unpark = false → o.passed = true → o.limit ≤ s.ft →
    exec .parkDrainLimit s = .next (s.drainEnd o.tile)) ∧
  (∀ (s : State) (c : Cmd) (limit : Nat), s.power.op = none → s.power.standby = some (c, limit) → s.fatal = false → limit ≤ s.ft →
    exec .parkDrainLimit s = .next ((((s.drainEnd 0).drainEnd 1).drainEnd 2).drainEnd 3)) ∧
  (∀ (s u : State) (o : ParkOp), s.power.op = some o → s.fatal = false → o.unpark = false → o.passed = true →
    s.cmd.mailbox.any (fun r => match r with
      | .command 0x0B01 _ _ => true
      | _ => false) = false → s.onFrame = true → s.tileEmpty o.tile = true →
    u = ((s.carryContexts o.tile).loseTile o.tile).onPower (fun p => { p with op := none }) →
    exec .tilePowerOff s = .next (u.reply 0x0B01 o.cmd true { Answer.ok with ft := some u.frameFt })) ∧
  (∀ (s : State) (c : Cmd) (limit : Nat), s.power.op = none → s.power.standby = some (c, limit) → s.fatal = false → s.cmd.mailbox = [] →
    s.onFrame = true → (List.range 4).all s.tileEmpty = true →
    exec .tilePowerOff s = .next (s.enterStandby.reply 0x0B04 c true (Answer.ok 1))) ∧
  (∀ (s : State) (c : Cmd) (who : Caller) (env : BkEnv), s.accepts 0x0B02 c who false true false = true → s.mailboxIdle = true →
    (s.taken 0x0B02 c).power.tiles.getD c.target.toNat .off = .parked → (s.taken 0x0B02 c).power.op = none →
    (s.taken 0x0B02 c).boot.activation = none →
    ThenBuckram (.pwTileUnpark c) env s ((((s.taken 0x0B02 c).onPower fun p => { p with op := some {
        tile := c.target.toNat, unpark := true, point := 0, passed := false, limit := 0, ready := false, cmd := c } }).tileStart
      c.target.toNat).onPower fun p => { p with op := p.op.map fun o => { o with ready := true, point := nextRebalance (s.taken 0x0B02 c).ft } })) ∧
  (∀ (s u v : State) (o : ParkOp), s.power.op = some o → s.fatal = false → o.unpark = true → o.ready = true →
    s.dueAt o.point s.onRebalance = true →
    u = (s.power.away.filter fun x => x.1 == o.tile && s.krm.conns.has x.2).foldl (fun w x =>
      (w.onConn x.2 fun c => { c with home := x.1 }).onDamask fun d => { d with homePend := d.homePend ++ [(x.2, some x.1)] })
      (s.onPower fun p => { p with op := none }) →
    v = (u.onPower fun p => { p with away := p.away.filter fun x => x.1 != o.tile }).trimCached →
    exec .unparkPoint s = .next ((((v.onDamask fun d => { d with indPend := some (v.freeTables v.free) }).onFree (· + 1024)).applySteering.movePolicers.settleCaches).reply
      0x0B02 o.cmd true { Answer.ok with ft := some ((v.onDamask fun d => { d with indPend := some (v.freeTables v.free) }).onFree (· + 1024)).rebalanceFt }))

/-- STANDBY, AUX and OFF are entered and left by their commands, and PW_QUERY returns its 64 bytes. PW_STATE_SET 1 in RUN
with nothing that forbids it begins the drain of the four tiles for STANDBY, limited to 200,000,000 ns; in STANDBY it
replies 1, and what forbids it gives S_BAD_STATE. PW_STATE_SET 0 leaves STANDBY and replies with the state code.
AUX_ENTER outside SYS_RST# loses what the switched domains hold, and answers the management requests that service
firmware had in hand; AUX_EXIT brings the rails back and starts the ports whose PERSTn# is deasserted. POWER_OFF
leaves the fuses, in the OFF state with every domain off. PW_QUERY replies with the 64 bytes of the power state.
Completes, with exec answering a next state under conditions on the state and the operands alone: pwStateSetStandby,
pwStateSetRun, pwQuery, auxEnter, auxExit, powerOff. -/
def Obligations.PowerStatesAndQuery : Prop :=
  (∀ (s : State) (c : Cmd) (who : Caller) (env : BkEnv), s.bkAccepts 0x0B04 c who env false true false = true →
    cmdByte c 16 = 1 → ThenBuckram (.pwStateSetStandby c) env s (
      if (s.served 0x0B04 c).power.dev = .standby then (s.served 0x0B04 c).bkAnswer 0x0B04 c (Answer.ok 1)
      else if (s.served 0x0B04 c).standbyRefused = true then (s.served 0x0B04 c).bkAnswer 0x0B04 c (Answer.just St.badState)
      else (s.served 0x0B04 c).onPower fun p => { p with standby := some (c, (s.served 0x0B04 c).ft + 200000000) })) ∧
  (∀ (s u : State) (c : Cmd) (who : Caller) (env : BkEnv), s.bkAccepts 0x0B04 c who env false true false = true →
    cmdByte c 16 = 0 → u = (if (s.served 0x0B04 c).power.dev = .standby then (s.served 0x0B04 c).leaveStandby else s.served 0x0B04 c) →
    ThenBuckram (.pwStateSetRun c) env s (u.bkAnswer 0x0B04 c (Answer.ok u.powerCode))) ∧
  (∀ s : State, s.power.dev ≠ .off → s.pins.mainPwrOk = true → s.pins.sysRst = false →
    exec .auxEnter s = .next s.enterAux.endAuxLost ∧ s.enterAux.power.dev = .aux ∧ s.enterAux.power.domains = 0 ∧ s.enterAux.mem = [] ∧
      s.enterAux.time = s.time ∧ s.enterAux.trust = s.trust ∧ s.enterAux.ev.log = s.ev.log) ∧
  (∀ s : State, s.power.dev ≠ .off → s.pins.mainPwrOk = false → s.pins.sysRst = false → s.fatal = false →
    s.pins.heldReset = false →
    exec .auxExit s = .next ((List.range 2).foldl (fun u p => if (u.hostPort p).perst then u else u.portStart p)
      (((s.onPins fun p => { p with mainPwrOk := true }).onPower (s.onPins fun p => { p with mainPwrOk := true }).railsPower).coresIdle))) ∧
  (∀ s : State, ∃ t, exec .powerOff s = .next t ∧ t.power.dev = .off ∧ t.power.domains = 0 ∧ t.trust.fuses = s.trust.fuses ∧
    t.mem = [] ∧ t.ev.log = [] ∧ t.qm.queues = [] ∧ t.host.fns = []) ∧
  (∀ (s : State) (c : Cmd) (who : Caller), s.accepts 0x0B05 c who false true false = true →
    exec (.pwQuery c) s = .next ((s.taken 0x0B05 c).answer 0x0B05 c { Answer.ok with data := (s.taken 0x0B05 c).powerBytes }) ∧
    (s.taken 0x0B05 c).powerBytes.length = 64)

/-- The power cap, its ladder, the thermal limits and idle tiles follow their windows and readings. PW_CAP_SET of 150 to
650 W waits for the first window that begins after it; POWER_WINDOW at a 10,000 ns boundary takes the window's power,
puts the last cap accepted before it in force, with the replies, moves the ladder one step by the mean of the last 8
windows (which stays at level 10 while that cannot hold the cap), and raises PW_CAP_UNMET once for as long as that
holds. THERM_THROTTLE at 100 C or above starts thermal forcing at level 4 at least; THERM_STEP raises it each 100 us;
THERM_FORCING_END below 98 C ends it; THERM_CRIT above 105 C for 100 ms is logged and raised once; THERMAL_TRIP at 115
C or above makes the device FATAL with every switched domain and tile off. TILE_IDLE and TILE_WAKE switch a tile
between ACTIVE and IDLE. Completes, with exec answering a next state under conditions on the state and the operands
alone: pwCapSet, powerWindow, thermThrottle, thermStep, thermCrit, thermalTrip, tileIdle, tileWake, thermForcingEnd. -/
def Obligations.PowerCapAndThermalLimits : Prop :=
  (∀ (s : State) (c : Cmd) (who : Caller) (env : BkEnv), s.bkAccepts 0x0B03 c who env false true false = true →
    ThenBuckram (.pwCapSet c) env s (if 150 ≤ cmdLe c 16 2 ∧ cmdLe c 16 2 ≤ 650 then
        (s.served 0x0B03 c).onPower fun p => { p with capPend := p.capPend ++ [(cmdLe c 16 2, (s.served 0x0B03 c).ft, c)] }
      else (s.served 0x0B03 c).bkAnswer 0x0B03 c (Answer.just St.badParam))) ∧
  (∀ (s : State) (w cap : Nat) (due : List (Nat × Nat × Cmd)) (l : List Nat) (u v : State), s.fatal = false → s.power.dev ≠ .off → s.onGrid 10000 0 = true →
    s.power.lastWindow ≠ s.gridFt 10000 0 / 10000 + 1 → due = s.power.capPend.filter (fun x => x.2.1 < s.ft) →
    cap = ((due.getLast?).map fun x => x.1).getD s.power.cap → l = (s.power.windows ++ [w]).drop (s.power.windows.length + 1 - 100) →
    u = s.onClocks (fun p => { p with
      windows := l, lastWindow := s.gridFt 10000 0 / 10000 + 1, cap := cap, capPend := p.capPend.filter fun x => s.ft ≤ x.2.1
      level := if p.level = 10 ∧ capExceeded cap l = true then 10 else ladderStep cap p.level l }) →
    v = (if u.power.ladder = 10 ∧ capExceeded cap l = true ∧ u.power.capUnmet = false then u.raise (sourceNo 6 20) noObject cap .dev else u) →
    exec (.powerWindow w) s = .next (due.foldl (fun x d => x.reply 0x0B03 d.2.2 true { Answer.ok with ft := some (s.gridFt 10000 0) })
      (v.onPower fun p => { p with capUnmet := v.power.ladder == 10 && capExceeded cap l }))) ∧
  (∀ (cap level : Nat) (l : List Nat), 8 ≤ l.length →
    ladderStep cap level l = (if 8 * cap < (l.drop (l.length - 8)).sum then min 10 (level + 1)
      else if (l.drop (l.length - 8)).sum < 8 * (cap - 5) then level - 1 else level)) ∧
  (∀ (s : State) (die tj : Nat), s.thermalOn = true → 100 ≤ tj → s.power.throttle = false →
    exec (.thermThrottle die tj) s = .next (((s.noteTj tj).onClocks fun p =>
      { p with throttle := true, forced := max 4 p.forced, lastForce := s.time.osc }).raise (sourceNo 6 18) die tj .dev)) ∧
  (∀ (s : State) (die tj : Nat), s.thermalOn = true → 100 ≤ tj → s.power.throttle = true →
    s.power.lastForce + 100000 ≤ s.time.osc →
    exec (.thermStep die tj) s = .next ((s.noteTj tj).onClocks fun p =>
      { p with forced := min 10 (p.forced + 1), lastForce := p.lastForce + 100000 })) ∧
  (∀ (s : State) (die tj : Nat), s.thermalOn = true → tj < 98 →
    exec (.thermForcingEnd die tj) s = .next ((s.noteTj tj).onClocks fun p => { p with throttle := false, forced := 0 })) ∧
  (∀ (s : State) (die tj t : Nat), s.thermalOn = true → 105 < tj → s.power.crit = false → s.power.hotSince = some t →
    t + 100000000 ≤ s.time.osc →
    exec (.thermCrit die tj) s = .next ((((s.noteTj tj).onPower fun p => { p with crit := true }).logRecord 35
      [(8, [byte die, byte tj])]).raise (sourceNo 6 19) die tj .sec)) ∧
  (∀ (s : State) (die tj : Nat), s.thermalOn = true → 115 ≤ tj →
    ∃ t, exec (.thermalTrip die tj) s = .next t ∧ t.fatal = true ∧ t.power.domains = 0 ∧ t.pins.thermTrip = true ∧
      t.power.tiles = modAt (modAt (modAt (modAt s.power.tiles 0 fun _ => .off) 1 fun _ => .off) 2 fun _ => .off) 3 fun _ => .off) ∧
  (∀ (s : State) (tile : Nat), s.fatal = false → s.power.tiles.getD tile .off = .active → s.tileQuiet tile = true →
    exec (.tileIdle tile) s = .next (s.setTile tile .idle)) ∧
  (∀ (s : State) (tile : Nat), s.fatal = false → s.power.tiles.getD tile .off = .idle →
    exec (.tileWake tile) s = .next (s.setTile tile .active))

/-- SYS_RST#, the strap test, the clock inputs and shorted open-drain lines act as the pin rules say. SYS_RESET resets the
device with its outputs released, keeping fuses and log. STRAP_TEST, once ROM has begun and outside SYS_RST#, sets the
bit of each stuck strap, and otherwise changes nothing. SYSCLK_LOST notes the loss of a clock that was there; from ROM
on it also sets PIN_FAULT, logs, takes every link down, loses a PTP source and moves to the internal oscillator.
SYSCLK_RETURN before ROM is noted; later it acts at a frame boundary: the clock returns, the bit is cleared and
logged, and outside FATAL the network ports train again. HREFCLK_LOST notes the loss and, from ROM on, sets the port's
bit and takes its sub-links down; HREFCLK_RETURN starts the settling time and, from ROM on, clears the bit. A command
that finds its clock already so changes nothing. OPEN_DRAIN_FAULT sets the bit of lines 51 to 57 and no other.
Completes, with exec answering a next state under conditions on the state and the operands alone: sysReset, strapTest,
sysclkLost, sysclkReturn, hrefclkLost, openDrainFault, hrefclkReturn. -/
def Obligations.PinsAndClocks : Prop :=
  (∀ s : State, ∃ t, exec .sysReset s = .next t ∧ t.pins.sysRst = true ∧ t.trust.fuses = s.trust.fuses ∧ t.ev.log = s.ev.log ∧
    t.fatal = false ∧ t.boot.stage = .rom ∧ t.qm.queues = [] ∧ t.mem = []) ∧
  (∀ (s : State) (stuck : Nat), exec (.strapTest stuck) s = .next (if s.romBegan = true ∧ s.pins.sysRst = false then
    (List.range 7).foldl (fun u i => if bit stuck i then u.pinFault (44 + i) else u) s else s)) ∧
  (∀ s : State, s.pins.sysclk = true →
    exec .sysclkLost s = .next (if s.romBegan then
        (let u := ((s.onPins fun p => { p with sysclk := false }).pinFault 0).logRecord 36 [(8, [1])]
         let u := (List.range 32).foldl (fun u n => if u.linkUp n then u.portDown n true else u) u
         (if u.ftu.src = 1 ∧ u.ftu.srcPresent then u.onFtu fun f => { f with announceLost := true } else u).oscUpdate)
      else s.onPins fun p => { p with sysclk := false })) ∧
  (∀ s : State, s.pins.sysclk = false → exec .sysclkLost s = .next s) ∧
  (∀ s : State, s.pins.sysclk = true ∨ (s.romBegan = true ∧ s.onFrame = false) → exec .sysclkReturn s = .next s) ∧
  (∀ s : State, s.pins.sysclk = false → s.romBegan = false →
    exec .sysclkReturn s = .next (s.onPins fun p => { p with sysclk := true })) ∧
  (∀ s : State, s.pins.sysclk = false → s.romBegan = true → s.onFrame = true →
    ∃ u, u = (((s.onPins fun p => { p with sysclk := true }).pinClear 0).logRecord 36 [(8, [2])]).oscUpdate ∧
      exec .sysclkReturn s = .next (if u.fatal then u else
        ((List.range 4).flatMap fun p => modePorts p (u.phys p).mode).foldl (fun v n =>
          v.onLogical n fun x => if x.up then x else { x with training := true, dropped := false }) u)) ∧
  (∀ (s u : State) (port : Nat), u = (s.onPins fun p => { p with hrefclk := p.hrefclk.set port false }) →
    exec (.hrefclkLost port) s = .next (if s.pins.hrefclk.getD port false = false then s
      else if u.romBegan = true then
        (List.range (u.hostPort port).subLinks.length).foldl (fun v k => v.dlDown port k) (u.pinFault (1 + port))
      else u)) ∧
  (∀ (s u : State) (port : Nat), u = (s.onPins fun p => { p with
      hrefclk := p.hrefclk.set port true, hrefReadyAt := p.hrefReadyAt.set port s.time.osc }) →
    exec (.hrefclkReturn port) s = .next (if s.pins.hrefclk.getD port true = true then s
      else if u.romBegan = true then u.pinClear (1 + port) else u)) ∧
  (∀ (s : State) (b : Nat), exec (.openDrainFault b) s = .next (if 51 ≤ b ∧ b ≤ 57 then s.pinFault b else s))

/-- FW_ABORT ends a write in progress, or answers S_BAD_STATE. Where FW_ABORT may start and passes checks 1 to 8: on a
slot that is WRITING the held manifest is discarded, the slot is left without a manifest and is WRITING no more, and
the reply is S_OK; on any other slot nothing changes but that the command is answered S_BAD_STATE. Completes, with
exec answering a next state under conditions on the state and the operands alone: fwAbort. -/
def Obligations.FwAbortEndsAWrite : Prop :=
  ∀ (s : State) (c : Cmd) (who : Caller), s.accepts 0x0906 c who false true false = true →
    exec (.fwAbort c) s = .next (if ((s.taken 0x0906 c).imgSlot c.target.toNat).writing then
        ((s.taken 0x0906 c).onSlot c.target.toNat fun x =>
          { x with manifest := none, writing := false, held := none, received := [] }).answer 0x0906 c Answer.ok
      else (s.taken 0x0906 c).answer 0x0906 c (Answer.just St.badState))

/-- SEC_MEASURE_READ returns the four measurement registers and their counts in 272 bytes. With nobody waiting for Buckram
and four measurement registers of 64 bytes each, SEC_MEASURE_READ that passes its checks, followed by Buckram's turn,
is answered S_OK with MR0, MR1, MR2 and MR3 followed by the four extension counts as 32-bit little-endian values, 272
bytes in all, and changes nothing else. Completes, with exec answering a next state under conditions on the state and
the operands alone: secMeasureRead. -/
def Obligations.MeasurementsAreReadWhole : Prop :=
  ∀ (s : State) (c : Cmd) (who : Caller) (env : BkEnv) (a b d e : Bytes) (i j k l : Nat),
    s.bkAccepts 0x0A06 c who env false true false = true →
    (s.served 0x0A06 c).trust.mr = [a, b, d, e] → (s.served 0x0A06 c).trust.mrCount = [i, j, k, l] →
    a.length = 64 → b.length = 64 → d.length = 64 → e.length = 64 →
    ThenBuckram (.secMeasureRead c) env s ((s.served 0x0A06 c).bkAnswer 0x0A06 c { Answer.ok with
      data := a ++ b ++ d ++ e ++ toLe 4 i ++ toLe 4 j ++ toLe 4 k ++ toLe 4 l }) ∧
    (a ++ b ++ d ++ e ++ toLe 4 i ++ toLe 4 j ++ toLe 4 k ++ toLe 4 l).length = 272

/-- FW_INFO, FW_WRITE and FW_VERIFY report, fill and verify a slot. FW_INFO replies with its 96 bytes. FW_WRITE replies as
its checks end: a block whose CRC-32C does not match is not stored and ends with S_CRC_ERR; block 0 of an inactive
slot that the stage admits erases manifest and record, holds the block and marks the slot WRITING; a payload block
that the held manifest counts is stored and replaces what it held, takes VERIFIED from the slot, and is answered with
the number of blocks received. FW_VERIFY of a slot with every block received and its medium working ends with the
status of the first check of R427 or R428 that fails, and otherwise stages and verifies the slot and gives its SEQ;
with a block missing it ends S_BAD_STATE, and with the medium failing S_MEDIA_ERR. Completes, with exec answering a
next state under conditions on the state and the operands alone: fwInfo, fwWrite, fwVerify. -/
def Obligations.FieldUpdateOfASlot : Prop :=
  (∀ (s : State) (c : Cmd) (who : Caller), s.accepts 0x0901 c who false true false = true →
    exec (.fwInfo c) s = .next (((s.taken 0x0901 c).useFree).answer 0x0901 c { Answer.ok with data := (s.taken 0x0901 c).fwInfo }) ∧
    (s.taken 0x0901 c).fwInfo.length = 96) ∧
  (∀ (s : State) (c : Cmd) (who : Caller), s.accepts 0x0902 c who false true false = true →
    exec (.fwWrite c) s = .next (((s.taken 0x0902 c).fwWrite c).1.answer 0x0902 c ((s.taken 0x0902 c).fwWrite c).2)) ∧
  (∀ (s : State) (c : Cmd), cmdRbuf c = false → fwDescOk c = true → c.pbErr = none → c.data.length = 65536 →
    crc32c 0xFFFFFFFF c.data ≠ cmdLe c 20 4 → s.fwWrite c = (s, Answer.just St.crcErr)) ∧
  (∀ (s : State) (c : Cmd), cmdRbuf c = false → fwDescOk c = true → c.pbErr = none → c.data.length = 65536 →
    crc32c 0xFFFFFFFF c.data = cmdLe c 20 4 → (c.target.toNat < 2 → s.trialOpen = false) → s.slotActive c.target.toNat = false →
    s.pushComp.any (fun k => k != c.target.toNat / 2) = false →
    cmdLe c 16 4 = 0 → s.fwWrite c = (((s.onSlot c.target.toNat fun x => { x with
      manifest := none, words := [], writing := true, verified := false, held := some c.data, received := [] }).pushBlock c.target.toNat 0
        (List.replicate 65536 0xFF)).pushBlock c.target.toNat (slotLast c.target.toNat) (recordBytes []), Answer.ok)) ∧
  (∀ (s : State) (c : Cmd) (b : Bytes) (got : List Nat), cmdRbuf c = false → fwDescOk c = true → c.pbErr = none → c.data.length = 65536 →
    crc32c 0xFFFFFFFF c.data = cmdLe c 20 4 → (c.target.toNat < 2 → s.trialOpen = false) → s.slotActive c.target.toNat = false →
    s.pushComp.any (fun k => k != c.target.toNat / 2) = false → (s.imgSlot c.target.toNat).held = some b →
    cmdLe c 16 4 ≠ 0 → cmdLe c 16 4 ≤ mfBlocks b → cmdLe c 16 4 ≤ maxBlocks (c.target.toNat / 2) →
    got = (if (s.imgSlot c.target.toNat).received.contains (cmdLe c 16 4) then (s.imgSlot c.target.toNat).received
      else (s.imgSlot c.target.toNat).received ++ [cmdLe c 16 4]) →
    s.fwWrite c = ((s.onSlot c.target.toNat fun x => { x with manifest := none, payload := Tab.set x.payload (cmdLe c 16 4) c.data
                                                              received := got, writing := true, verified := false }).pushBlock
      c.target.toNat (cmdLe c 16 4) c.data, Answer.ok got.length)) ∧
  (∀ (s : State) (c : Cmd) (who : Caller) (env : BkEnv) (b : Bytes) (u : State), s.bkAccepts 0x0903 c who env false true false = true →
    env.mediaOk = true → (s.served 0x0903 c).pushReadable c.target.toNat = true →
    ((s.served 0x0903 c).imgSlot c.target.toNat).held = some b →
    mfBlocks b ≤ ((s.served 0x0903 c).imgSlot c.target.toNat).received.length →
    u = ((s.served 0x0903 c).readPush c.target.toNat).reread c.target.toNat env.changed →
    ThenBuckram (.fwVerify c) env s (
      match mfCheck u.trust.fuses u.trust.lc (c.target.toNat / 2) b, (u.imgSlot c.target.toNat).load b with
      | some r, _ => u.bkAnswer 0x0903 c (Answer.just (fwStatus r))
      | none, some r => u.bkAnswer 0x0903 c (Answer.just (fwStatus r))
      | none, none => (((u.onSlot c.target.toNat fun x =>
          { x with manifest := some b, verified := true, writing := false }).program c.target.toNat 0).pushBlock c.target.toNat 0 b).bkAnswer
            0x0903 c (Answer.ok (mfSeq b)))) ∧
  (∀ (s : State) (c : Cmd) (who : Caller) (env : BkEnv), s.bkAccepts 0x0903 c who env false true false = true →
    (((s.served 0x0903 c).imgSlot c.target.toNat).held.all fun b =>
      decide (((s.served 0x0903 c).imgSlot c.target.toNat).received.length < mfBlocks b)) = true →
    ThenBuckram (.fwVerify c) env s ((s.served 0x0903 c).bkAnswer 0x0903 c (Answer.just St.badState))) ∧
  (∀ (s : State) (c : Cmd) (who : Caller) (env : BkEnv) (b : Bytes), s.bkAccepts 0x0903 c who env false true false = true →
    (env.mediaOk = false ∨ (s.served 0x0903 c).pushReadable c.target.toNat = false) →
    ((s.served 0x0903 c).imgSlot c.target.toNat).held = some b →
    mfBlocks b ≤ ((s.served 0x0903 c).imgSlot c.target.toNat).received.length →
    ThenBuckram (.fwVerify c) env s (((s.served 0x0903 c).readPush c.target.toNat).bkAnswer 0x0903 c (Answer.just St.mediaErr)))

/-- FW_ACTIVATE, the handover, confirmation and the deadline of a trial take the steps of the update rules. FW_ACTIVATE
outside a push: of a verified, inactive Buckram slot it programs ARMED and replies; of a verified, inactive service
firmware slot, with no trial, park or activation open and a window of 10 to 3,600 s or 0, it programs ARMED, reads the
slot again, and ends with the status of the check of R428 that fails, or programs TRIED, copies the image and starts
the handover threads; the reply comes with the handover. HANDOVER_READY within 1 s begins the pause; HANDOVER_COMPLETE
within 30 ms, or HANDOVER_STATE_TIMEOUT after it, finishes the handover with the old image's state, or with none.
ACTIVATE_TIMEOUT after 1 s without readiness stops the handover threads and answers S_TIMEOUT. FW_HEALTH_CONFIRM
confirms the slot of each trial that is open and closes it; with none open it ends S_BAD_STATE. TRIAL_DEADLINE with a
Buckram trial past its deadline reverts Buckram, and otherwise a service firmware trial past its own. Completes, with
exec answering a next state under conditions on the state and the operands alone: fwActivate, handoverReady,
handoverStateTimeout, handoverComplete, activateTimeout, fwHealthConfirm, trialDeadline. -/
def Obligations.ActivationAndItsTrial : Prop :=
  (∀ (s : State) (c : Cmd) (who : Caller) (env : BkEnv), s.bkAccepts 0x0904 c who env false true false = true →
    env.mediaOk = true → (s.served 0x0904 c).pushComp = none → c.target.toNat / 2 = 1 →
    (s.served 0x0904 c).slotActive c.target.toNat = false → ((s.served 0x0904 c).imgSlot c.target.toNat).verified = true →
    ThenBuckram (.fwActivate c) env s (((s.served 0x0904 c).program c.target.toNat 1).bkAnswer 0x0904 c Answer.ok)) ∧
  (∀ (s : State) (c : Cmd) (who : Caller) (env : BkEnv) (t u v : State) (b : Bytes), s.bkAccepts 0x0904 c who env false true false = true →
    t = s.served 0x0904 c → env.mediaOk = true → t.pushComp = none → c.target.toNat / 2 = 0 → t.trialOpen = false →
    t.power.op = none → t.slotActive c.target.toNat = false → t.boot.activation = none → (t.imgSlot c.target.toNat).verified = true →
    (cmdLe c 16 4 = 0 ∨ (10 ≤ cmdLe c 16 4 ∧ cmdLe c 16 4 ≤ 3600)) → t.pushReadable c.target.toNat = true →
    b = (t.imgSlot c.target.toNat).manifest.getD [] →
    u = (((t.program c.target.toNat 1).readPush c.target.toNat).reread c.target.toNat env.changed).codeChecked (1 - t.boot.codeRegion) false →
    v = (u.program c.target.toNat 2).handoverThreads.foldl (fun w k => (w.onThread k fun x => { x with
          state := .run, remembered := .run, pc := ((u.program c.target.toNat 2).loadCode c.target.toNat (1 - u.boot.codeRegion)).2 + mfHandover b }).coreSettle (k / 8))
      ((u.program c.target.toNat 2).loadCode c.target.toNat (1 - u.boot.codeRegion)).1 →
    ThenBuckram (.fwActivate c) env s (match (u.imgSlot c.target.toNat).load b with
      | some r => u.bkAnswer 0x0904 c (Answer.just (fwStatus r))
      | none => v.onBoot fun z => { z with activation := some {
          slot := c.target.toNat, cmd := some c, startedAt := v.time.osc, ready := false, pauseAt := 0, window := cmdLe c 16 4, revert := false
          manifest := b } })) ∧
  (∀ (s : State) (a : Activation), s.boot.activation = some a → s.fatal = false → a.ready = false → s.time.osc < a.startedAt + 1000000000 →
    exec .handoverReady s = .next ((s.onBoot fun z =>
      { z with activation := some { a with ready := true, pauseAt := s.time.osc } }).onCmd fun m => { m with paused := true })) ∧
  (∀ (s : State) (a : Activation) (b : Bytes), s.boot.activation = some a → s.fatal = false → a.ready = true →
    (s.time.osc ≤ a.pauseAt + 30000000 → exec (.handoverComplete b) s = .next (s.finishHandover a b)) ∧
    (a.pauseAt + 30000000 ≤ s.time.osc → exec .handoverStateTimeout s = .next (s.finishHandover a []))) ∧
  (∀ (s : State) (a : Activation) (c : Cmd), s.boot.activation = some a → s.fatal = false → a.ready = false → a.cmd = some c →
    a.startedAt + 1000000000 ≤ s.time.osc →
    exec .activateTimeout s = .next (((s.handoverThreads.foldl (fun u k =>
      ((u.halt k .idle .idle).discardStaging k).coreSettle (k / 8)) s).onBoot fun z => { z with activation := none }).bkAnswer
        0x0904 c (Answer.just St.timeout))) ∧
  (∀ (s : State) (c : Cmd) (who : Caller) (env : BkEnv) (u v : State), s.bkAccepts 0x0905 c who env false true false = true →
    env.mediaOk = true → (s.served 0x0905 c).boot.activation = none →
    u = (if (s.served 0x0905 c).boot.trialSf.isSome then
      ((s.served 0x0905 c).confirm (s.served 0x0905 c).boot.runSf).onBoot fun z => { z with trialSf := none, prevManifest := none }
      else s.served 0x0905 c) →
    v = (if u.boot.trialBk.isSome then (u.confirm u.boot.runBk).onBoot fun z => { z with trialBk := none } else u) →
    ThenBuckram (.fwHealthConfirm c) env s (if (s.served 0x0905 c).trialOpen = true then v.bkAnswer 0x0905 c Answer.ok
      else (s.served 0x0905 c).bkAnswer 0x0905 c (Answer.just St.badState))) ∧
  (∀ (s : State) (t : Nat), s.fatal = false → s.boot.trialBk = some t → t ≤ s.ft → exec .trialDeadline s = .next s.revertBuckram) ∧
  (∀ (s : State) (t : Nat), s.fatal = false → (s.boot.trialBk.all fun x => decide (s.ft < x)) = true → s.boot.trialSf = some t → t ≤ s.ft →
    exec .trialDeadline s = .next s.startRevert)

/-- ROM, Buckram and the push sources take the stages of boot in their order. The first ROM_BOOT below 100 C senses straps
and fuses and starts ROM, which in RETIRED ends there; from 100 C on the release is held. The next, with SYSCLK
present, takes the media as found and tries the sources of Buckram in their order. A medium not found in its probe
time (1 ms for X, 100 ms for E) is logged as absent, once. BUCKRAM_BOOT with no tile whose three channels trained
enters boot recovery with push refused; otherwise it places its regions and tries the sources of service firmware in
their order. PUSH_TIMEOUT at the end of a try logs it and tries the sources that are left. Completes, with exec
answering a next state under conditions on the state and the operands alone: romBoot, bootSourceProbeTimeout,
buckramBoot, pushTimeout. -/
def Obligations.BootStages : Prop :=
  (∀ (s : State) (straps : Straps) (media : List Medium) (u : State), s.boot.stage = .rom → s.fatal = false → s.power.dev ≠ .off →
    s.pins.heldReset = false → s.pins.thermTrip = false → s.power.tj < 100 → s.trust.mrCount.getD 0 0 = 0 →
    u = s.romStart straps (media.any fun m => m.source == 1 && m.present) →
    exec (.romBoot straps media) s = .next (if u.trust.lc = 5 then u.onBoot fun z => { z with stage := .retired } else u)) ∧
  (∀ (s : State) (straps : Straps) (media : List Medium), s.boot.stage = .rom → s.fatal = false → s.power.dev ≠ .off →
    s.pins.heldReset = false → s.pins.thermTrip = false → 100 ≤ s.power.tj →
    exec (.romBoot straps media) s = .next (s.onPins fun p => { p with heldReset := true, sysRst := false })) ∧
  (∀ (s : State) (straps : Straps) (media : List Medium), s.boot.stage = .rom → s.fatal = false → s.power.dev ≠ .off →
    s.pins.heldReset = false → s.pins.thermTrip = false → s.power.tj < 100 → s.trust.mrCount.getD 0 0 ≠ 0 → s.pins.sysclk = true →
    exec (.romBoot straps media) s = .next ((s.takeMedia media).trySources 1 media (fun u j => u.startBuckram j) s.bootOrder)) ∧
  (∀ (s : State) (x : Nat), s.fatal = false → (s.boot.stage = .rom ∧ s.trust.mrCount.getD 0 0 ≠ 0) ∨ s.boot.stage = .buckram → x < 2 →
    x ∉ s.boot.probed → x ∈ s.bootOrder → s.boot.probeFrom + (if x = 0 then 1000000 else 100000000) ≤ s.time.osc →
    exec (.bootSourceProbeTimeout x) s = .next ((s.bootLog 18 0 x 0 1).onBoot fun z => { z with probed := z.probed ++ [x], probeFrom := s.time.osc })) ∧
  (∀ (s : State) (media : List Medium), s.fatal = false → s.boot.stage = .buckram → s.dram.done = true →
    s.pins.mainPwrOk = true → s.power.dev = .run → (List.range 4).find? s.tileTrained = none →
    exec (.buckramBoot media) s = .next (((s.bootLog 25 0 s.boot.sourceBk 0 0).bootLog 19 0 s.boot.sourceBk 0 0).onBoot
      fun z => { z with stage := .recovery true, refused := true })) ∧
  (∀ (s : State) (media : List Medium) (t : Nat) (u : State), s.fatal = false → s.boot.stage = .buckram → s.dram.done = true →
    s.pins.mainPwrOk = true → s.power.dev = .run → (List.range 4).find? s.tileTrained = some t →
    u = (s.placeRegions t).onBoot (fun z => { z with codeRegion := 0, refused := false }) →
    exec (.buckramBoot media) s = .next ((u.takeMedia media).trySources 0 media (fun v j => v.startSf j 0) u.boot.left)) ∧
  (∀ (s : State) (src till : Nat) (sf : Bool), s.boot.stage = .push src till sf → s.fatal = false → till ≤ s.ft →
    exec .pushTimeout s = .next (if sf then (s.bootLog 18 0 src 0 3).trySources 0 [] (fun v j => v.startSf j 0) s.boot.left
      else (s.bootLog 18 0 src 0 3).trySources 1 [] (fun v j => v.startBuckram j) s.boot.left))

/-- DEV_RESET arms a reset that begins at a rebalance point; resets keep the fuses and the log. DEV_RESET arms the reset
for the next rebalance point, an earlier one standing, and replies. DEVICE_RESET_BEGIN at that point resets the device
below 100 C and is held at 100 C or above; HELD_RESET_RELEASE below 100 C lets a held reset proceed: an armed one
resets the device, and one at the release of SYS_RST# goes on to ROM. LIFECYCLE_RESET at its point resets the device.
After each of these resets no queue, function, region or byte of memory is left, FATAL is clear, ROM is the stage, and
the fuses and the device log are as they were. Completes, with exec answering a next state under conditions on the
state and the operands alone: devReset, deviceResetBegin, lifecycleReset, heldResetRelease. -/
def Obligations.DeviceResets : Prop :=
  (∀ (s : State) (c : Cmd) (who : Caller) (env : BkEnv), s.bkAccepts 0x0105 c who env false true false = true →
    ThenBuckram (.devReset c) env s (((s.served 0x0105 c).onPins fun p => { p with
      resetArmed := some (p.resetArmed.getD (((s.served 0x0105 c).ft / 1048576 + 1) * 1048576, false)) }).bkAnswer 0x0105 c Answer.ok)) ∧
  (∀ (s : State) (straps : Straps) (t : Nat), s.pins.resetArmed = some (t, false) → s.dueAt t s.onRebalance = true →
    exec (.deviceResetBegin straps) s = .next (if 100 ≤ s.power.tj then
      s.onPins fun p => { p with resetArmed := some (t, true), heldReset := true } else s.deviceReset straps)) ∧
  (∀ (s : State) (straps : Straps) (tj : Nat) (r : Nat × Bool), s.pins.heldReset = true → s.pins.resetArmed = some r → tj < 100 →
    exec (.heldResetRelease tj straps) s = .next ((s.onPower fun p => { p with tj := tj }).deviceReset straps)) ∧
  (∀ (s : State) (straps : Straps) (tj : Nat), s.pins.heldReset = true → s.pins.resetArmed = none → tj < 100 →
    exec (.heldResetRelease tj straps) s = .next ((s.onPower fun p => { p with tj := tj }).onPins fun p =>
      { p with heldReset := false, straps := straps })) ∧
  (∀ (s : State) (straps : Straps) (t : Nat), s.trust.resetAt = some t → s.dueAt t s.onRebalance = true →
    exec (.lifecycleReset straps) s = .next (s.deviceReset straps)) ∧
  (∀ (s : State) (straps : Straps), (s.deviceReset straps).qm.queues = [] ∧ (s.deviceReset straps).host.fns = [] ∧
    (s.deviceReset straps).dram.regions = [] ∧ (s.deviceReset straps).mem = [] ∧ (s.deviceReset straps).fatal = false ∧
    (s.deviceReset straps).boot.stage = .rom ∧ (s.deviceReset straps).trust.fuses = s.trust.fuses ∧
    (s.deviceReset straps).ev.log = s.ev.log)

/-- Challenges, responses and the ends of debug sessions follow the debug rules on either carrier. SEC_DEBUG_CHALLENGE of
a valid purpose holds a fresh 64-byte challenge in place of the one before, counts it, and returns it: the serial
number, FT, 32 random bytes, the purpose, state, level and carrier, the count and zeros; one for a higher level while
a session is open on the other carrier ends S_BAD_STATE. SEC_DEBUG_RESPONSE ends with the status of the first check
that fails; with none failing, and with no level pending and no session on the other carrier, the challenge is
consumed and the level waits for its frame boundary, and otherwise it ends S_BAD_STATE. DEBUG_LEVEL_EFFECT at that
boundary opens the session at the level, for its DURATION, and replies; a level below 2 lets the DSTOP threads go.
DEBUG_SESSION_EXPIRE at the first boundary after it ends the session, and SEC_DEBUG_CLOSE on its carrier too; without
a session on it SEC_DEBUG_CLOSE changes nothing (log 38) and replies the level. JTAG_KZAUTH runs each of the three
opcodes as their own rows do. Completes, with exec answering a next state under conditions on the state and the
operands alone: secDebugChallenge, secDebugResponse, debugLevelEffect, secDebugClose, debugSessionExpire, jtagKzauth. -/
def Obligations.DebugAuthorisation : Prop :=
  (∀ (s : State) (c : Cmd) (who : Caller) (env : BkEnv) (t : State) (p n : Nat) (b : Bytes), s.bkAccepts 0x0A02 c who env false true false = true →
    t = s.served 0x0A02 c → p = cmdByte c 16 → n = (t.trust.challengeCount + 1) % 2 ^ 32 → p < 4 ∨ (0x11 ≤ p ∧ p ≤ 0x15) →
    (p < 4 → t.trust.level < p → t.otherCarrier c = false) →
    b = dsn ++ toLe 8 t.ft ++ sliceZ (Config.random32 t.free) 0 32 ++
      [byte p, byte t.trust.lc, byte t.trust.level, byte (b2n (c.src == .jtag))] ++ toLe 4 n ++ zeros 8 →
    ThenBuckram (.secDebugChallenge c) env s (((t.onTrust fun x => { x with challenge := some (b, t.ft), challengeCount := n }).useFree).bkAnswer
      0x0A02 c { Answer.ok with data := b }) ∧ b.length = 64) ∧
  (∀ (s : State) (c : Cmd) (who : Caller) (env : BkEnv), s.bkAccepts 0x0A02 c who env false true false = true →
    cmdByte c 16 < 4 → (s.served 0x0A02 c).trust.level < cmdByte c 16 → (s.served 0x0A02 c).otherCarrier c = true →
    ThenBuckram (.secDebugChallenge c) env s ((s.served 0x0A02 c).bkAnswer 0x0A02 c (Answer.just St.badState))) ∧
  (∀ (s : State) (c : Cmd) (who : Caller) (env : BkEnv), s.bkAccepts 0x0A03 c who env false (c.pbLen == 3088) false = true →
    ThenBuckram (.secDebugResponse c) env s (match (s.served 0x0A03 c).authCheck c false with
      | some e => (s.served 0x0A03 c).bkAnswer 0x0A03 c (Answer.just e)
      | none => if (s.served 0x0A03 c).trust.levelPend.isSome || (s.served 0x0A03 c).otherCarrier c then
          (s.served 0x0A03 c).bkAnswer 0x0A03 c (Answer.just St.badState)
        else (s.served 0x0A03 c).onTrust fun x => { x with
          challenge := none, levelPend := some (authGrant c.pb, c, (s.served 0x0A03 c).ft, authDuration c.pb) })) ∧
  (∀ (s : State) (lv a dur : Nat) (c : Cmd) (u : State), s.trust.levelPend = some (lv, c, a, dur) → s.fatal = false →
    s.dueAt (nextFrame a) s.onFrame = true →
    u = s.onTrust (fun x => { x with levelPend := none, session := true, carrierJtag := c.src == .jtag
                                     sessionEnd := if dur = 0 then none else some (s.frameFt + dur * 1000000000) }) →
    exec .debugLevelEffect s = .next (((if lv < 2 then u.leaveAllDstop else u).setLevel lv (c.src == .jtag)).bkAnswer 0x0A03 c
        { Answer.ok lv with ft := some s.frameFt })) ∧
  (∀ (s : State) (t : Nat), s.trust.sessionEnd = some t → s.trust.session = true → s.dueAt (nextFrame t) s.onFrame = true →
    exec .debugSessionExpire s = .next (if s.pins.thermTrip then s else s.endSession)) ∧
  (∀ (s : State) (c : Cmd) (who : Caller) (env : BkEnv) (u : State), s.bkAccepts 0x0A04 c who env false true false = true →
    u = (if (s.served 0x0A04 c).trust.session = true ∧ (s.served 0x0A04 c).otherCarrier c = false then (s.served 0x0A04 c).endSession
      else s.served 0x0A04 c) →
    ThenBuckram (.secDebugClose c) env s (u.bkAnswer 0x0A04 c (Answer.ok u.trust.level))) ∧
  (∀ (s : State) (c : Cmd), c.src = .jtag → exec (.jtagKzauth 0x0A02 c) s = exec (.secDebugChallenge c) s ∧
    exec (.jtagKzauth 0x0A03 c) s = exec (.secDebugResponse c) s ∧ exec (.jtagKzauth 0x0A04 c) s = exec (.secDebugClose c) s) ∧
  (∀ (s : State) (c : Cmd), c.src = .jtag → ∃ t, exec (.jtagKzauth 0x0A02 c) s = .next t ∧ exec (.secDebugChallenge c) s = .next t) ∧
  (∀ (s : State) (c : Cmd) (who : Caller) (env : BkEnv), c.src = .jtag → s.bkAccepts 0x0A04 c who env false true false = true →
    (s.served 0x0A04 c).trust.session = true → (s.served 0x0A04 c).otherCarrier c = false →
    ThenBuckram (.jtagKzauth 0x0A04 c) env s ((s.served 0x0A04 c).endSession.bkAnswer 0x0A04 c
      (Answer.ok (s.served 0x0A04 c).endSession.trust.level)))

/-- Lifecycle changes, wrapped keys and attestation are applied by Buckram after their checks. SEC_LIFECYCLE_SET ends with
the status of the first check that fails; with the records or the generations used up it ends S_NO_RESOURCE, and with
a sealed ORK that does not open S_AUTHFAIL. Then a failed effect ends with S_TIMEOUT, and otherwise the record is
burned last, MR3 extended, the reset set for the first rebalance point at least 10 ms later and the new state replied.
SEC_KEY_INSTALL for a connection, a volume without a key or a channel's slot installs the unwrapped key, or ends with
the status of the first check of the blob that fails; for a volume with a key it ends S_EXISTS. SEC_ATTEST with a
nonce ends as the signing ends; without one it returns the part asked for. DIAG_ERR_INJECT puts the error that its
site and pattern name into the state and is answered S_OK; which site and pattern its parameters name is the model's
free choice (log 43). Completes, with exec answering a next state under conditions on the state and the operands
alone: secLifecycleSet, secAttest, secKeyInstall, diagErrInject. -/
def Obligations.LifecycleKeysAndAttestation : Prop :=
  (∀ (s : State) (c : Cmd) (who : Caller) (env : BkEnv) (e : Nat), s.bkAccepts 0x0A01 c who env false (c.pbLen == 3088) false = true → (s.served 0x0A01 c).authCheck c true = some e →
    ThenBuckram (.secLifecycleSet c) env s ((s.served 0x0A01 c).bkAnswer 0x0A01 c (Answer.just e))) ∧
  (∀ (s : State) (c : Cmd) (who : Caller) (env : BkEnv) (t v : State) (x : State × Bool), s.bkAccepts 0x0A01 c who env false (c.pbLen == 3088) false = true →
    t = s.served 0x0A01 c →
    x = ((t.onTrust fun y => { y with challenge := none }).onFuses (burnFlags c.pb ((unsealOrk t.trust.fuses c.pb).getD []))).transitionEffects
      t.trust.lc (authGrant c.pb) c.pb env.noiseOk →
    v = (x.1.onFuses fun f => { f with lcLog := f.lcLog ++ [authGrant c.pb] }).extendMr3 →
    ThenBuckram (.secLifecycleSet c) env s (match t.authCheck c true with
      | some e => t.bkAnswer 0x0A01 c (Answer.just e)
      | none =>
        if 64 ≤ t.trust.fuses.lcLog.length ∨ (t.trust.lc = 4 ∧ authGrant c.pb = 3 ∧ t.trust.fuses.ds.all Option.isSome = true) then
          t.bkAnswer 0x0A01 c (Answer.just St.noResource)
        else if burnOrk c.pb = true ∧ unsealOrk t.trust.fuses c.pb = none then t.bkAnswer 0x0A01 c (Answer.just St.authfail)
        else if x.2 = true then (v.onTrust fun y => { y with resetAt := some (y.resetAt.getD (roundUp (v.ft + 10000000) 1048576)) }).bkAnswer 0x0A01 c
          (Answer.ok (authGrant c.pb))
        else (if authFlags c.pb = 0 then x.1 else x.1.extendMr3).bkAnswer 0x0A01 c (Answer.just St.timeout))) ∧
  (∀ (s : State) (c : Cmd) (who : Caller) (env : BkEnv) (t : State) (o : Owner), s.bkAccepts 0x0A07 c who env false (keyLenOk c) false
      (keyTargetOk (cmdByte c 16) c.target.toNat) ((s.served 0x0A07 c).keyFound c who) = true → t = s.served 0x0A07 c →
    keyKindOk c = true → t.keyObject (cmdByte c 16) c.target.toNat = some o →
    (cmdByte c 16 = 1 → t.cy.vidKeys.has c.target.toNat = false) →
    ThenBuckram (.secKeyInstall c) env s (match t.unwrap c o with
      | .inl (e, d) => t.bkAnswer 0x0A07 c { Answer.just e with d0 := d }
      | .inr pt => (if cmdByte c 16 = 0 then t.keyForConn c.target.toNat pt
          else if cmdByte c 16 = 1 then t.keyForVolume c.target.toNat pt
          else t.installChan c.target.toNat (cmdByte c 17) pt).bkAnswer 0x0A07 c Answer.ok)) ∧
  (∀ (s : State) (c : Cmd) (who : Caller) (env : BkEnv) (o : Owner), s.bkAccepts 0x0A07 c who env false (keyLenOk c) false
      (keyTargetOk (cmdByte c 16) c.target.toNat) ((s.served 0x0A07 c).keyFound c who) = true →
    keyKindOk c = true → cmdByte c 16 = 1 → (s.served 0x0A07 c).keyObject 1 c.target.toNat = some o →
    (s.served 0x0A07 c).cy.vidKeys.has c.target.toNat = true →
    ThenBuckram (.secKeyInstall c) env s ((s.served 0x0A07 c).bkAnswer 0x0A07 c (Answer.just St.exist))) ∧
  (∀ (s : State) (c : Cmd) (who : Caller) (env : BkEnv), s.bkAccepts 0x0A05 c who env false (c.pbLen == 0 || c.pbLen == 32) false = true →
    c.pbLen = 0 → ThenBuckram (.secAttest c) env s ((s.served 0x0A05 c).bkAnswer 0x0A05 c
      ((s.served 0x0A05 c).reportPart who (cmdLe c 16 4) (cmdByte c 20)))) ∧
  (∀ (s : State) (c : Cmd) (who : Caller) (env : BkEnv) (r : State × Option Answer) (a : Answer),
    s.bkAccepts 0x0A05 c who env false (c.pbLen == 0 || c.pbLen == 32) false = true → c.pbLen = 32 → cmdLe c 16 5 = 0 →
    r = (s.served 0x0A05 c).signReport c who env.rpmbOk → r.2 = some a →
    ThenBuckram (.secAttest c) env s (r.1.bkAnswer 0x0A05 c a)) ∧
  (∀ (s : State) (c : Cmd) (who : Caller) (env : BkEnv), s.bkAccepts 0x0E06 c who env false true false = true →
    ThenBuckram (.diagErrInject c) env s (((s.served 0x0E06 c).siteError c.target.toNat
      (Config.errSite c.target.toNat (sliceZ c.params 0 16)) (Config.errPattern c.target.toNat (sliceZ c.params 0 16))).bkAnswer
        0x0E06 c Answer.ok))

/-- The identity, health, echo, pin-fault and log commands reply with what the state holds. DEV_IDENTIFY replies with the
256 bytes of the identity. DEV_HEALTH replies with the health flags and the mask of parked tiles. DIAG_ECHO returns
parameter bytes 16 to 31. DIAG_PIN_FAULT returns the two words of PIN_FAULT. DIAG_LOG_READ at or beyond the next
record number returns none and gives the number asked for; below it, it returns up to 128 records in order from the
one asked for, or from the oldest held if that is later, with D0 their first number and D1 the next. Completes, with
exec answering a next state under conditions on the state and the operands alone: devIdentify, devHealth, diagEcho,
diagPinFault, diagLogRead. -/
def Obligations.IdentityHealthAndDiagnostics : Prop :=
  (∀ (s : State) (c : Cmd) (who : Caller), s.accepts 0x0101 c who false true false = true →
    exec (.devIdentify c) s = .next ((s.taken 0x0101 c).answer 0x0101 c { Answer.ok with data := (s.taken 0x0101 c).identity }) ∧
    (s.taken 0x0101 c).identity.length = 256) ∧
  (∀ (s : State) (c : Cmd) (who : Caller), s.accepts 0x0102 c who false true false = true →
    exec (.devHealth c) s = .next ((s.taken 0x0102 c).answer 0x0102 c
      (Answer.ok (s.taken 0x0102 c).healthFlags (s.taken 0x0102 c).parkedMask))) ∧
  (∀ (s : State) (c : Cmd) (who : Caller), s.accepts 0x0E01 c who false true false = true →
    exec (.diagEcho c) s = .next ((s.taken 0x0E01 c).answer 0x0E01 c { Answer.ok with data := sliceZ c.params 0 16 })) ∧
  (∀ (s : State) (c : Cmd) (who : Caller), s.accepts 0x0E02 c who false true false = true →
    exec (.diagPinFault c) s = .next ((s.taken 0x0E02 c).answer 0x0E02 c
      (Answer.ok ((s.taken 0x0E02 c).pins.fault % 2 ^ 32) ((s.taken 0x0E02 c).pins.fault / 2 ^ 32 % 2 ^ 32)))) ∧
  (∀ (s : State) (c : Cmd) (who : Caller), s.accepts 0x0E03 c who false true false = true →
    exec (.diagLogRead c) s = .next (if (s.taken 0x0E03 c).ev.logCount ≤ cmdLe c 16 4 then
        (s.taken 0x0E03 c).answer 0x0E03 c (Answer.ok (cmdLe c 16 4) (s.taken 0x0E03 c).ev.logCount)
      else (s.taken 0x0E03 c).answer 0x0E03 c { Answer.ok
          (max (cmdLe c 16 4) ((s.taken 0x0E03 c).ev.logCount - (s.taken 0x0E03 c).ev.log.length)) (s.taken 0x0E03 c).ev.logCount with
        data := (((s.taken 0x0E03 c).ev.log.drop (max (cmdLe c 16 4) ((s.taken 0x0E03 c).ev.logCount -
          (s.taken 0x0E03 c).ev.log.length) - ((s.taken 0x0E03 c).ev.logCount - (s.taken 0x0E03 c).ev.log.length))).take 128).flatten }))

/-- CT_READ latches a block at one instant and clears OVF; counters add modulo 2^48 with OVF; permissions and sampling.
CT_READ of a counter block that the caller may read replies with every word of it, D0 words, as they stand together,
and leaves their OVF clear; of a dump it returns the latest record; one that the caller may not read ends with the
status of its check. One more count of a word below 2^48 - 1 adds one to it; of a word at 2^48 - 1 gives 0 with OVF
set. CT_SLICE_PERM with 0 or 1 sets whether the slice may read, and any other value ends S_BAD_PARAM. CT_SAMPLE_SET of
either kind with a valid k waits for its frame boundary, and any other k ends S_BAD_PARAM; SAMPLE_SET_EFFECT puts each
setting of its tile whose boundary has come by the tile's own counter in force, and replies. Completes, with exec
answering a next state under conditions on the state and the operands alone: ctRead, ctSlicePerm, ctSampleSetCore,
ctSampleSetPacket, sampleSetEffect. -/
def Obligations.CountersAreLatchedWhole : Prop :=
  (∀ (s : State) (c : Cmd) (who : Caller), s.accepts 0x0D01 c who (ctClassDenied c who s) true false (ctForm c)
      ((s.taken 0x0D01 c).ctFound c who) = true →
    (s.taken 0x0D01 c).ctDenied who (ctKind c.target.toNat) (ctIndex c.target.toNat) = none → ctKind c.target.toNat ≠ 24 →
    exec (.ctRead c) s = .next (((s.taken 0x0D01 c).latchBlock (ctKind c.target.toNat) (ctIndex c.target.toNat)).1.answer 0x0D01 c
      { Answer.ok ((s.taken 0x0D01 c).latchBlock (ctKind c.target.toNat) (ctIndex c.target.toNat)).2.length with
        data := (((s.taken 0x0D01 c).latchBlock (ctKind c.target.toNat) (ctIndex c.target.toNat)).2.map (toLe 8)).flatten })) ∧
  (∀ (s : State) (c : Cmd) (who : Caller) (e : Nat), s.accepts 0x0D01 c who (ctClassDenied c who s) true false (ctForm c)
      ((s.taken 0x0D01 c).ctFound c who) = true →
    (s.taken 0x0D01 c).ctDenied who (ctKind c.target.toNat) (ctIndex c.target.toNat) = some e →
    exec (.ctRead c) s = .next ((s.taken 0x0D01 c).answer 0x0D01 c (Answer.just e))) ∧
  (∀ (s : State) (c : Cmd) (who : Caller), s.accepts 0x0D01 c who (ctClassDenied c who s) true false (ctForm c)
      ((s.taken 0x0D01 c).ctFound c who) = true →
    (s.taken 0x0D01 c).ctDenied who (ctKind c.target.toNat) (ctIndex c.target.toNat) = none → ctKind c.target.toNat = 24 →
    exec (.ctRead c) s = .next ((s.taken 0x0D01 c).answer 0x0D01 c
      (match ((s.taken 0x0D01 c).ct.dumps.get (ctIndex c.target.toNat)).bind (·.lastRecord) with
       | some b => { Answer.ok (le b 6 2) with data := b }
       | none => Answer.ok))) ∧
  (∀ (s : State) (kind idx : Nat), kind < 10 → kind ≠ 1 →
    (s.latchBlock kind idx).2 = (List.range (ctWords kind idx)).map (s.counter kind idx) ∧
    (s.latchBlock kind idx).1 = { s with ct := (s.latchBlock kind idx).1.ct }) ∧
  (∀ (s : State) (kind idx w : Nat), w < 128 →
    (s.counter kind idx w < 2 ^ 48 - 1 → (s.count kind idx w).counter kind idx w = s.counter kind idx w + 1) ∧
    (s.counter kind idx w = 2 ^ 48 - 1 → (s.count kind idx w).counter kind idx w = 2 ^ 63)) ∧
  (∀ (s : State) (c : Cmd) (who : Caller), s.accepts 0x0D04 c who false true true = true →
    exec (.ctSlicePerm c) s = .next (if 1 < cmdByte c 16 then (s.taken 0x0D04 c).answer 0x0D04 c (Answer.just St.badParam) else ((s.taken 0x0D04 c).onHost fun h => { h with
      slices := h.slices.mod c.target.toNat fun x => { x with ctAllowed := cmdByte c 16 == 1 } }).answer 0x0D04 c Answer.ok)) ∧
  (∀ (s : State) (c : Cmd) (who : Caller), s.accepts 0x0D05 c who false true false = true →
    cmdByte c 17 = 0 ∨ (8 ≤ cmdByte c 17 ∧ cmdByte c 17 ≤ 24) →
    (cmdByte c 16 = 0 → exec (.ctSampleSetCore c) s = .next ((s.taken 0x0D05 c).onCores fun x => { x with
      samplePend := x.samplePend ++ [(c.target.toNat, false, cmdByte c 17, (s.taken 0x0D05 c).ft, c)] })) ∧
    (cmdByte c 16 = 1 → exec (.ctSampleSetPacket c) s = .next ((s.taken 0x0D05 c).onCores fun x => { x with
      samplePend := x.samplePend ++ [(c.target.toNat, true, cmdByte c 17, (s.taken 0x0D05 c).ft, c)] }))) ∧
  (∀ (s : State) (c : Cmd) (who : Caller), s.accepts 0x0D05 c who false true false = true → cmdByte c 17 ≠ 0 →
    cmdByte c 17 < 8 ∨ 24 < cmdByte c 17 →
    (cmdByte c 16 = 0 → exec (.ctSampleSetCore c) s = .next ((s.taken 0x0D05 c).answer 0x0D05 c (Answer.just St.badParam))) ∧
    (cmdByte c 16 = 1 → exec (.ctSampleSetPacket c) s = .next ((s.taken 0x0D05 c).answer 0x0D05 c (Answer.just St.badParam)))) ∧
  (∀ (s0 s : State) (tile : Nat), s = s0.seenFrom tile → s.fatal = false →
    exec (.sampleSetEffect tile) s0 = .next (s0.backFrom ((s.cores.samplePend.filter fun x => x.1 == tile && s.dueFrame x.2.2.2.1).foldl
      (fun u x => (u.applySample x.1 x.2.1 x.2.2.1).reply 0x0D05 x.2.2.2.2 false { Answer.ok with ft := some u.frameFt })
      (s.onCores fun y => { y with samplePend := s.cores.samplePend.filter fun x => !(x.1 == tile && s.dueFrame x.2.2.2.1) }))))

/-- A dump is armed, latches its block at its instants, writes its record and is cancelled. CT_DUMP_SET of a block that
the caller may read, with period 0 or one of 100 us to 10^15 ns above its phase, and with an area that holds a record
or none, takes a free dump number and replies with it; the phase of a one-shot dump that is past is the next frame
boundary. DUMP_LATCH at the instant of a dump with no record waiting latches every word with that instant, the FT
state and whether an instant before was skipped; with a record waiting the instant is skipped. DUMP_RECORD_WRITE makes
the latched words the dump's latest record, and writes it to its slot where it has an area and its owner masters the
bus; more than 50,000 ns after the instant it is late. CT_DUMP_CANCEL by the owner latches an instant that is due at
its own FT, writes what is latched and removes the dump. Completes, with exec answering a next state under conditions
on the state and the operands alone: ctDumpSet, ctDumpCancel, dumpLatch, dumpRecordWrite. -/
def Obligations.DumpsAreArmedLatchedAndWritten : Prop :=
  (∀ (s : State) (c : Cmd) (who : Caller) (n : Nat) (u : State), s.accepts 0x0D02 c who (ctClassDenied c who s) true false
      (ctForm c && ctKind c.target.toNat != 24) ((s.taken 0x0D02 c).ctFound c who) = true → u = s.taken 0x0D02 c →
    u.ctDenied who (ctKind c.target.toNat) (ctIndex c.target.toNat) = none →
    (cmdLe c 24 8 = 0 ∨ (100000 ≤ cmdLe c 24 8 ∧ cmdLe c 24 8 ≤ 10 ^ 15 ∧ cmdLe c 16 8 < cmdLe c 24 8)) →
    (cmdRbuf c = true → slotSize (ctKind c.target.toNat) (ctIndex c.target.toNat) ≤ (cmdRbufDesc c).len) →
    chooseFree u.freeVal 4096 u.ct.dumps.length u.ct.dumps.has = some n →
    exec (.ctDumpSet c) s = .next (((u.onCt fun x => { x with dumps := Tab.set x.dumps n {
        owner := who, block := c.target.toNat, period := cmdLe c 24 8
        phase := if cmdLe c 24 8 = 0 ∧ cmdLe c 16 8 < u.ft then nextFrame u.ft else cmdLe c 16 8
        area := if cmdRbuf c then (u.refOf who.owner).map fun r => (r, cmdRbufDesc c) else none, latched := none, seq := 0
        skipped := false, latchedSkip := false, lastRecord := none, fromFt := u.ft, oneShotDone := false } }).useFree).answer 0x0D02 c
          (Answer.ok n))) ∧
  (∀ (s0 s : State) (n t : Nat) (d : Dump) (u : State), s = s0.seenFrom (s0.dumpDie n) → s.ct.dumps.get n = some d → s.fatal = false → d.latched = none →
    (d.period = 0 ∧ d.oneShotDone = false ∧ d.phase ≤ s.ft ∧ t = s.ft) ∨
      (d.period ≠ 0 ∧ s.onGrid d.period d.phase = true ∧ t = s.gridFt d.period d.phase ∧ d.fromFt ≤ t) →
    u = s.onDump n (fun x => { x with fromFt := t + 1, oneShotDone := d.period == 0 }) →
    exec (.dumpLatch n) s0 = .next (s0.backFrom ((u.latchBlock (ctKind d.block) (ctIndex d.block)).1.onDump n fun x => { x with
      latched := some (t, u.ftu.state.code, (u.latchBlock (ctKind d.block) (ctIndex d.block)).2)
      latchedSkip := d.skipped, skipped := false }))) ∧
  (∀ (s0 s : State) (n t : Nat) (d : Dump), s = s0.seenFrom (s0.dumpDie n) → s.ct.dumps.get n = some d → s.fatal = false → d.latched ≠ none →
    (d.period = 0 ∧ d.oneShotDone = false ∧ d.phase ≤ s.ft ∧ t = s.ft) ∨
      (d.period ≠ 0 ∧ s.onGrid d.period d.phase = true ∧ t = s.gridFt d.period d.phase ∧ d.fromFt ≤ t) →
    exec (.dumpLatch n) s0 = .next (s0.backFrom ((s.onDump n fun x => { x with fromFt := t + 1, oneShotDone := d.period == 0 }).onDump n
      fun x => { x with skipped := true }))) ∧
  (∀ (s : State) (n t fts : Nat) (l : List Nat) (d : Dump), s.ct.dumps.get n = some d → s.fatal = false → d.area = none →
    d.latched = some (t, fts, l) → s.ft ≤ t + 50000 →
    exec (.dumpRecordWrite n) s = .next (s.onDump n fun x => { x with
      latched := none, latchedSkip := false, seq := x.seq + 1, lastRecord := some (dumpBytes n d t fts l false) })) ∧
  (∀ (s : State) (n t fts a sz : Nat) (l : List Nat) (d : Dump) (r : HostRef) (f : Frag) (late : Bool) (b : Bytes) (u : State), s.ct.dumps.get n = some d →
    s.fatal = false → d.area = some (r, f) → d.latched = some (t, fts, l) → s.ownerHeld d.owner.owner = false →
    late = decide (t + 50000 < s.ft) → b = dumpBytes n d t fts l late → sz = slotSize (ctKind d.block) (ctIndex d.block) →
    a = f.addr + d.seq % max 1 (f.len / sz) * sz → u = s.writeSlot d.owner.owner a b →
    exec (.dumpRecordWrite n) s = .next ((if late then u.raise (sourceNo (lateTile (ctKind d.block) (ctIndex d.block)) 832) n
        (min ((u.ft - t) / 1000) 0xFFFFFFFF) (.own d.owner.owner) else u).onDump n fun x => { x with
      latched := none, latchedSkip := false, seq := d.seq + 1, lastRecord := some b })) ∧
  (∀ (s : State) (c : Cmd) (who : Caller) (d : Dump), s.accepts 0x0D03 c who false true false true
      (((s.taken 0x0D03 c).ct.dumps.get c.target.toNat).any (·.owner == who)) = true →
    (doDumpLatch c.target.toNat (s.taken 0x0D03 c)).ct.dumps.get c.target.toNat = some d → d.owner = who →
    exec (.ctDumpCancel c) s = .next ((((doDumpLatch c.target.toNat (s.taken 0x0D03 c)).writeDump c.target.toNat d).onCt fun x => { x with
      dumps := Tab.del x.dumps c.target.toNat }).answer 0x0D03 c Answer.ok))

/-- Open event records are written to a function's command CQ or sent to the management controller at frame boundaries.
EVENT_RECORD_WRITE at a frame boundary of the host die after the first raise of a function's oldest record, with its
command CQ active, free, with nothing held or due and the function mastering, writes the record there. EVENT_MCTP_SEND
at such a boundary sends the management controller's oldest record as a message of its own, and nothing while its
interface has stopped (19 R530). A raise for an object that has an open record adds to it: the count goes up by one,
up to its greatest value, and the detail is the last. Completes, with exec answering a next state under conditions on
the state and the operands alone: eventRecordWrite, eventMctpSend. -/
def Obligations.EventRecordsAreDelivered : Prop :=
  (∀ (s0 s : State) (f : FnRef) (x : FnSt) (r : OpenRec) (q : Queue), s = s0.seenFrom (6 + f.port) → s.fn f = some x → s.openRec (.fn f) = some r →
    s.queue x.cqQid = some q → s.fatal = false → x.cmdActive = true → s.dueAt (nextFrame r.ft) s.onFrame = true → q.full = false →
    q.held = [] → q.due = [] → q.episode = false → s.mastering f = true → x.flrAt = none →
    exec (.eventRecordWrite f) s0 = .next (s0.backFrom ((s.takeRec r).1.writeCompl x.cqQid {
      qid := x.cqQid, ok := true, suppressed := false, bytes := (s.takeRec r).2, data := none, event := true, tag := none }))) ∧
  (∀ (s : State) (r : OpenRec), s.ev.opened.find? (fun r => r.dest == .management && s.dieReports (sourceDie r.source)) = some r →
    s.pins.sysRst = false → bit s.pins.fault 51 = false → s.dueAt (nextFrame r.ft) s.onFrame = true →
    exec .eventMctpSend s = .next (((s.takeRec r).1.emitMctp true ((s.takeRec r).1.freeVal % 8) (s.takeRec r).2).useFree)) ∧
  (∀ (s : State), bit s.pins.fault 51 = true → exec .eventMctpSend s = .next s) ∧
  (∀ (s : State) (r : OpenRec), (s.takeRec r).2.length = 32 ∧ le (s.takeRec r).2 0 4 = r.source % 8192 ∧
    le (s.takeRec r).2 8 4 = r.count % 2 ^ 32 ∧ le (s.takeRec r).2 16 8 = r.ft % 2 ^ 64 ∧ bit (byteAt (s.takeRec r).2 30) 2 = true) ∧
  (∀ (s : State) (d : EvDest) (r : OpenRec) (detail : Nat) (sid : Option Nat), r ∈ s.ev.opened → r.dest = d →
    (s.openRecord d r.source r.object detail sid).ev.opened = s.ev.opened.map fun x =>
      if x.dest = d ∧ x.source = r.source ∧ x.object = r.object then { x with count := min (x.count + 1) 0xFFFFFFFF, detail := detail } else x)

/-- Measurements are committed from PTP or from the pulse input, and the discipline state follows them. Under PTP,
FT_MEAS_AT written later than the measurement before commits FT_MEAS_OFFS. An edge of the pulse input 1 s after the
edge before commits FT minus the nearest second; the high time of a pulse decides that it is not inverted;
FT_CLK_INVERT swaps the clock at the frame boundary where a swap is due. In ACQUIRING, the eighth measurement in a row
whose median is within THRESH gives LOCKED; in FREE a measurement below 1 ms gives ACQUIRING. A source found lost at a
frame boundary, with nothing else to note, is lost; between boundaries an announce timeout waits. Completes, with exec
answering a next state under conditions on the state and the operands alone: ftMeasAtWrite, ppsEdge, ppsInFall,
ftClkInvert, sourceLost, ftClkInAbsent, ftClkInReturn. -/
def Obligations.FabricTimeIsMeasured : Prop :=
  (∀ (s : State) (v : W64), s.ftu.src = 1 → (∀ a, s.ftu.lastMeasAt = some a → a < v.toNat) →
    exec (.ftMeasAtWrite v) s = .next ((s.onFtu fun f => { f with lastMeasAt := some v.toNat }).commit s.ftu.measOffs.toInt)) ∧
  (∀ (s : State) (m a b : Int), s.ftu.state = .acquiring → s.ftu.pendStep = none → m.natAbs < 65536000000 →
    s.ftu.lockCount = 7 → s.ftu.med1 = some a → s.ftu.med2 = some b → m.natAbs ≤ s.ftu.thresh * 65536 →
    a.natAbs ≤ s.ftu.thresh * 65536 → b.natAbs ≤ s.ftu.thresh * 65536 → (s.commit m).ftu.state = .locked) ∧
  (∀ (s : State) (m : Int), s.ftu.state = .free → s.ftu.pendStep = none → m.natAbs < 65536000000 →
    (s.commit m).ftu.state = .acquiring) ∧
  (∀ (s : State) (r t : Nat), s.pins.ppsSwap = some false → s.ftu.src = 2 → s.pins.clkIn = true → s.pins.ppsFall = some t →
    s.time.osc ≤ t + 1000001000 → s.ftu.ppsRef = some r → oneSecond r s.time.osc = true →
    exec (.ppsEdge false) s = .next ((((s.onPins fun p => { p with ppsHigh := true, ppsRise := some s.time.osc }).onFtu
      fun f => { f with ppsRef := some s.time.osc, ppsPaired := true }).commit s.secondOffset))) ∧
  (∀ (s : State) (r : Nat), s.pins.ppsSwap = none → s.pins.ppsRise = some r → r + 100 ≤ s.time.osc → s.time.osc ≤ r + 400000000 →
    exec .ppsInFall s = .next (((s.onPins fun p => { p with
      ppsHigh := false, ppsFall := some s.time.osc, ppsSwap := some false }).pinClear 4).pinClear 6)) ∧
  (∀ (s : State), s.onFrame = true → s.pins.clkSwapDue = true →
    exec .ftClkInvert s = .next ((s.onPins fun p => { p with clkSwapDue := false, clkSwapAt := some s.ft }).pinFault 5)) ∧
  (∀ (s : State), s.onFrame = true → s.ftu.src = 1 → s.ftu.lost = false → s.ftu.state = .locked → s.sourceGone false = true →
    exec (.sourceLost false) s = .next s.loseSource) ∧
  (∀ (s : State), s.onFrame = false → s.ftu.src = 1 →
    exec (.sourceLost true) s = .next (s.onFtu fun f => { f with announceLost := true })) ∧
  (∀ (s : State), s.onFrame = true → s.ftu.src ≠ 2 →
    exec .ftClkInAbsent s = .next ((s.onPins fun p => { p with clkIn := false }).pinFault 3).oscUpdate) ∧
  (∀ (s : State), exec .ftClkInReturn s = .next ((s.onPins fun p => { p with clkIn := true }).pinClear 3).oscUpdate)

/-- Holdover ends past its threshold, FT steps at its boundary, FT is read, and FT is distributed to the dies. At a frame
boundary HOLDOVER with a bound above THRESH becomes UNLOCKED. A pending step whose boundary has come sets FT and its
fraction and raises FT_STEP with the amount; FT_SET waits for the first frame boundary at least 256 ns ahead, or sets
SET_IGN. FT_STEP also places the calendar anew, gives every port the last boundary before the new FT and moves the
periods that count from it. A read of FT_NOW returns 64 bits or the low word of the die's counter, which is FT on N0,
and elsewhere where no misalignment stands and the counter has not shown more, and latches its high word and its
fraction on the die. A read of FT_ALIGN_STAT clears MAX_ERR. FT distributed with every misalignment, old and new,
within 2 ns keeps the greatest as MAX_ERR, takes the compensation of each die's route, and raises nothing. Completes,
with exec answering a next state under conditions on the state and the operands alone: holdoverBoundCheck, ftStep,
ftSetWrite, ftNowRead, ftAlignStatRead, ftDistribute. -/
def Obligations.FabricTimeIsSteppedReadAndDistributed : Prop :=
  (∀ (s : State), s.onFrame = true → s.ftu.state = .holdover → s.ftu.thresh * boundNs < s.ftu.bound s.ft →
    exec .holdoverBoundCheck s = .next (s.ftGo .unlocked)) ∧
  (∀ (s : State) (v b : Nat), s.ftu.pendStep = some { amount := 0, setTo := some v, boundary := b, cmd := none } →
    s.onFrame = true → b ≤ s.ft →
    exec .ftStep s = .next ((((((s.onFtu fun f => { f with pendStep := none }).onTime
      fun t => { t with ft := v, frac := s.time.frac, prev := v }).onFtu fun f => { f with
        stepAt := v, stepAmt := (v : Int) - s.ft, lockCount := 0
        commitAt := ((f.commitAt : Int) + ((v : Int) - s.ft)).toNat, shown := List.replicate 8 0 }).calReplace.portsStepped ((v : Int) - s.ft)).periodsStepped ((v : Int) - s.ft)).raise
          (sourceNo 4 33) noObject (unsigned 32 ((v : Int) - s.ft)) .dev)) ∧
  (∀ (s : State) (v : W64), exec (.ftSetWrite v) s = .next (if s.setAllowed then s.onFtu fun f => { f with
      pendStep := some { amount := 0, setTo := some v.toNat, boundary := (s.ft + 256 + 1023) / 1024 * 1024, cmd := none } }
    else s.onFtu fun f => { f with setIgn := true })) ∧
  (∀ (s : State) (die : Nat) (wide : Bool), exec (.ftNowRead die wide) s = .next ((s.onTime fun t => { t with
      latchHigh := modAt t.latchHigh die fun _ => (s.dieClock die).1 / 2 ^ 32 % 2 ^ 32
      latchFrac := modAt t.latchFrac die fun _ => (s.dieClock die).2 }).emit
        (.readValue (if wide then (s.dieClock die).1 % 2 ^ 64 else (s.dieClock die).1 % 2 ^ 32))) ∧
      (die = 4 ∨ (s.ftu.misalign.getD die 0 = 0 ∧ s.ftu.shown.getD die 0 ≤ s.ft * 65536 + s.time.frac) → s.time.frac < 65536 →
        s.dieClock die = (s.ft, s.time.frac))) ∧
  (∀ (s : State), exec .ftAlignStatRead s =
      .next ((s.emit (.readValue s.ftu.alignWord)).onFtu fun f => { f with maxErr := 0 })) ∧
  (∀ (s : State) (l : List Int), s.onFrame = true → l.length = 8 → (∀ m ∈ l, m.natAbs ≤ 8) →
    (∀ m ∈ s.ftu.misalign, m.natAbs ≤ 8) → l.getD 4 0 = 0 →
    exec (.ftDistribute l) s = .next (((s.onFtu fun f => { f with
      misalign := l, comp := (List.range 8).map fun d => s.routeNs 4 d
      shown := (List.range 8).map fun d => (s.dieClock d).1 * 65536 + (s.dieClock d).2 }).oscUpdate).onFtu fun f => { f with
        maxErr := (l.map Int.natAbs).foldl max f.maxErr }))

/-- The pulse output follows its configuration, and TIME commands change the registers at a frame boundary. A pulse-output
change takes effect at its whole second; EN 0 leaves the output undriven, GATE holds a driven output low outside
LOCKED and HOLDOVER, a second of FT + ADJ asserts it, and contention stops driving it for 16 s of FT. TIME_QUERY
replies with the FT register block. TIME_CFG_SET and TIME_ASYM_SET wait for the next frame boundary, where
FT_CFG_APPLY writes the register and replies. TIME_SET steps FT where it is allowed, and otherwise ends with
S_BAD_STATE. Completes, with exec answering a next state under conditions on the state and the operands alone:
ftCfgApply, ppsOutCfgApply, ftPpsOutPulse, ppsOutContend, timeQuery, timeCfgSet, timeAsymSet, timeSet. -/
def Obligations.PulseOutputAndTimeCommands : Prop :=
  (∀ (s : State) (v : W32) (t : Nat), s.ftu.ppsOutPend = some (v, t) → t ≤ s.ft →
    exec .ppsOutCfgApply s = .next (s.onFtu fun f => { f with ppsOutLive := v, ppsOutPend := none })) ∧
  (∀ (s : State), bit s.ftu.ppsOutLive.toNat 0 = false → exec .ftPpsOutPulse s = .next (s.drivePps none)) ∧
  (∀ (s : State), bit s.ftu.ppsOutLive.toNat 0 = true → bit s.ftu.ppsOutLive.toNat 1 = true → s.ftu.state = .unlocked →
    s.ppsHeldOff = false → exec .ftPpsOutPulse s = .next (s.drivePps (some false))) ∧
  (∀ (s : State), bit s.ftu.ppsOutLive.toNat 0 = true → bit s.ftu.ppsOutLive.toNat 1 = false →
    ((s.ft : Int) + signed 16 (field s.ftu.ppsOutLive.toNat 16 16)) % 1000000000 = 0 → s.pins.ppsDriveAt ≤ s.ft →
    exec .ftPpsOutPulse s = .next ((s.onPins fun p => { p with ppsPulseClean := true }).drivePps (some true))) ∧
  (∀ (s : State), bit s.ftu.ppsOutLive.toNat 0 = true → s.pins.ppsOut = none → bit s.pins.fault 7 = true →
    s.ft < s.pins.ppsDriveAt → exec .ftPpsOutPulse s = .next s) ∧
  (∀ (s : State), s.pins.ppsOut.isSome = true → exec .ppsOutContend s = .next (((s.onPins fun p => { p with
      ppsDriveAt := s.ft + 16000000000, ppsPulseClean := false }).drivePps none).pinFault 7)) ∧
  (∀ (s : State) (c : Cmd) (who : Caller) , s.accepts 0x0C01 c who false true false = true →
    exec (.timeQuery c) s = .next (
      (s.taken 0x0C01 c).answer 0x0C01 c ({ Answer.ok with data := (s.taken 0x0C01 c).ftRegs }))) ∧
  (∀ (s : State) (c : Cmd) (who : Caller) , s.accepts 0x0C02 c who false true false = true →
    cmdByte c 16 < 32 →
    (∀ x ∈ cfgSetWrites c, x.2.toNat &&& cfgReserved x.1 = 0) →
    exec (.timeCfgSet c) s = .next (
      (s.taken 0x0C02 c).onFtu fun f => { f with cfgPend := f.cfgPend ++ [{ writes := cfgSetWrites c, accepted := (s.taken 0x0C02 c).ft, cmd := some c }] })) ∧
  (∀ (s : State) (c : Cmd) (who : Caller) , s.accepts 0x0C03 c who false true false = true →
    exec (.timeAsymSet c) s = .next (
      (s.taken 0x0C03 c).onFtu fun f => { f with cfgPend := f.cfgPend ++ [{
        writes := [(0x100 + 4 * c.target.toNat, BitVec.ofNat 32 (cmdLe c 16 4))], accepted := (s.taken 0x0C03 c).ft, cmd := some c }] })) ∧
  (∀ (s : State) (v : W32) (a : Nat) (c : Cmd), s.onFrame = true → nextFrame a ≤ s.ft →
    s.ftu.cfgPend = [{ writes := [(0x018, v)], accepted := a, cmd := some c }] →
    exec .ftCfgApply s = .next ((s.onFtu fun f => { f with
      cfgPend := [], lockThresh := BitVec.ofNat 32 (max 4 (min 1000 (v.toNat % 65536))) }).reply 0x0C02 c false
        { Answer.ok with ft := some s.frameFt })) ∧
  (∀ (s : State) (c : Cmd) (who : Caller) , s.accepts 0x0C04 c who false true false = true →
    (s.taken 0x0C04 c).setAllowed = true →
    exec (.timeSet c) s = .next (
      (s.taken 0x0C04 c).onFtu fun f => { f with pendStep := some {
        amount := 0, setTo := some (cmdLe c 16 8), boundary := stepBoundary (s.taken 0x0C04 c).ft, cmd := some c } })) ∧
  (∀ (s : State) (c : Cmd) (who : Caller) , s.accepts 0x0C04 c who false true false = true →
    (s.taken 0x0C04 c).setAllowed = false →
    exec (.timeSet c) s = .next (
      ((s.taken 0x0C04 c).onFtu fun f => { f with setIgn := true }).answer 0x0C04 c (Answer.just St.badState)))

/-- A doorbell moves the index of its queue, is refused outside its owner, and entries are fetched. A doorbell write does
what its value says: the four rows are the forms of one write. To BARs that are not decoded, or in FATAL, it changes
nothing. One that names no queue of the writer is dropped, counted and reported; one with reserved bits set is a host
error; one of a queue that is not ENABLED is counted. On a work queue an INDEX beyond the ring is a host error, and
one within it becomes P and fetches, INV first dropping what is cached and not started. On a CQ an INDEX beyond what
is written is a host error; another becomes C, ARM arms, held completions go out where the function masters the bus,
and an armed interrupt fires where the CQ is not empty. Fetched entries enter the cache; a failed fetch marks its
entries failed and ends those that stand at the head; either way the queue then fetches on. A fetch whose queue was
reset or moved only frees its tag. Completes, with exec answering a next state under conditions on the state and the
operands alone: doorbellWork, doorbellInv, doorbellCq, doorbellArm, entryFetchDone, entryFetchFail. -/
def Obligations.DoorbellsRingTheirQueues : Prop :=
  (∀ (s : State) (w : BarWrite), s.barOpen w.fn = false ∨ s.fatal = true →
    exec (.doorbellWork w) s = .next (s) ∧
    exec (.doorbellInv w) s = .next (s) ∧
    exec (.doorbellCq w) s = .next (s) ∧
    exec (.doorbellArm w) s = .next (s)) ∧
  (∀ (s u : State) (w : BarWrite), s.barOpen w.fn = true → s.fatal = false → s.dbTarget w = none →
    u = (s.count Ct.func (fnWord w.fn) 0).raise (sourceNo (6 + w.fn.port % 2) 0) (fnWord w.fn) w.offset (.own (.function w.fn)) →
    exec (.doorbellWork w) s = .next (u) ∧
    exec (.doorbellInv w) s = .next (u) ∧
    exec (.doorbellCq w) s = .next (u) ∧
    exec (.doorbellArm w) s = .next (u)) ∧
  (∀ (s u : State) (w : BarWrite) (q : Queue), s.barOpen w.fn = true → s.fatal = false → s.dbTarget w = some q →
    2 ^ 34 ≤ w.value.toNat ∨ q.state ≠ .enabled →
    u = (if 2 ^ 34 ≤ w.value.toNat then s.queueHostError (dbQid w) else s.count Ct.func (fnWord w.fn) 1) →
    exec (.doorbellWork w) s = .next (u) ∧
    exec (.doorbellInv w) s = .next (u) ∧
    exec (.doorbellCq w) s = .next (u) ∧
    exec (.doorbellArm w) s = .next (u)) ∧
  (∀ (s u : State) (w : BarWrite) (q : Queue), s.barOpen w.fn = true → s.fatal = false → s.dbTarget w = some q →
    w.value.toNat < 2 ^ 34 → q.state = .enabled → q.cls ≠ .cq →
    u = (if dbInv w then (s.killFetches (dbQid w)).onQueue (dbQid w) Queue.dropCached else s) →
    exec (.doorbellWork w) s = .next (if q.size < (dbIndex w + 65536 - q.c) % 65536 then s.queueHostError (dbQid w)
      else (u.onQueue (dbQid w) fun q => { q with p := dbIndex w }).fetch (dbQid w)) ∧
    exec (.doorbellInv w) s = .next (if q.size < (dbIndex w + 65536 - q.c) % 65536 then s.queueHostError (dbQid w)
      else (u.onQueue (dbQid w) fun q => { q with p := dbIndex w }).fetch (dbQid w)) ∧
    exec (.doorbellCq w) s = .next (if q.size < (dbIndex w + 65536 - q.c) % 65536 then s.queueHostError (dbQid w)
      else (u.onQueue (dbQid w) fun q => { q with p := dbIndex w }).fetch (dbQid w)) ∧
    exec (.doorbellArm w) s = .next (if q.size < (dbIndex w + 65536 - q.c) % 65536 then s.queueHostError (dbQid w)
      else (u.onQueue (dbQid w) fun q => { q with p := dbIndex w }).fetch (dbQid w))) ∧
  (∀ (s u : State) (w : BarWrite) (q : Queue), s.barOpen w.fn = true → s.fatal = false → s.dbTarget w = some q →
    w.value.toNat < 2 ^ 34 → q.state = .enabled → q.cls = .cq →
    u = s.onQueue (dbQid w) (fun q => { q with c := dbIndex w, armed := q.armed || dbArm w }) →
    exec (.doorbellWork w) s = .next (if q.used < (dbIndex w + 65536 - q.c) % 65536 then s.queueHostError (dbQid w)
      else (if u.ownerHeld q.owner then u else u.drainHeld (dbQid w) (q.held.length + 1)).cqFire (dbQid w)) ∧
    exec (.doorbellInv w) s = .next (if q.used < (dbIndex w + 65536 - q.c) % 65536 then s.queueHostError (dbQid w)
      else (if u.ownerHeld q.owner then u else u.drainHeld (dbQid w) (q.held.length + 1)).cqFire (dbQid w)) ∧
    exec (.doorbellCq w) s = .next (if q.used < (dbIndex w + 65536 - q.c) % 65536 then s.queueHostError (dbQid w)
      else (if u.ownerHeld q.owner then u else u.drainHeld (dbQid w) (q.held.length + 1)).cqFire (dbQid w)) ∧
    exec (.doorbellArm w) s = .next (if q.used < (dbIndex w + 65536 - q.c) % 65536 then s.queueHostError (dbQid w)
      else (if u.ownerHeld q.owner then u else u.drainHeld (dbQid w) (q.held.length + 1)).cqFire (dbQid w))) ∧
  (∀ (s : State) (tag qid idx n : Nat) (b : Bytes) (r : HostReadSt), s.readOut tag = some r → r.why = .entries qid idx n →
    exec (.entryFetchDone tag b) s = .next (if r.dead then s.dropRead tag else ((s.dropRead tag).onQueue qid fun q => { q with
      fetching := q.fetching - n
      cache := (List.range n).foldl (fun c k => c.set ((idx + k) % 65536) (sliceZ b (64 * k) 64)) q.cache }).fetch qid)) ∧
  (∀ (s : State) (tag qid idx n : Nat) (how : ReadEnd) (r : HostReadSt), s.readOut tag = some r →
    r.why = .entries qid idx n → readStatus how ≠ St.ok →
    exec (.entryFetchFail tag how) s = .next (if r.dead then s.dropRead tag else (((s.dropRead tag).onQueue qid fun q => { q with
      fetching := q.fetching - n
      failed := (List.range n).foldl (fun c k => c.set ((idx + k) % 65536) (readStatus how)) q.failed }).endFailed qid 64).fetch qid))

/-- The head of a queue is checked, a NOP completes, completions are written in order, and write-back blocks follow. As
the queue manager turns to a queue that runs, its tile fetches on in rotation. Then the head entry is checked: failed
entries end; a command with an undefined OPCODE is refused; an entry ends with the status of its first failing check
(opcode and slot, the read of its fragment table, fragments, class), and one that passes may start, a nonzero reserved
byte being a host error or not (a free value). A NOP that may start ends with S_OK: in a PKT_RX or KRM_RQ queue at
once, elsewhere when its shaper lets it start. A completion due at a CQ with room is written; a suppressed one takes
no slot; a full CQ begins an episode, in which the oldest held one goes first; a function that does not master the bus
has its completions held and counted. A finished entry of a class in index order that is not the next waits. The
write-back block of 16 bytes holds C, QSTAT, the replay head and FT, and is written at a frame boundary of the queue's
die where C changed. Completes, with exec answering a next state under conditions on the state and the operands alone:
entryHeadCheck, nop, completionWrite, writebackBlock. -/
def Obligations.EntriesAreCheckedAndCompletionsWritten : Prop :=
  (∀ (s u : State) (qid : Nat) (p q : Queue), s.queue qid = some p → s.fatal = false → u = s.fetchRound p.home →
    u.queue qid = some q → u.fatal = false → u.blocked q = false → u.ownerHeld q.owner = false → u.ownerResetting q.owner = false →
    u.dmaTakes qid q = true → u.opsOnTile q.home < 65536 → q.resetAt = none → q.state = .enabled ∨ q.state = .draining →
    q.headOk = false → q.headReading = false →
    (q.failed.has q.c = true → exec (.entryHeadCheck qid) s = .next (u.endFailed qid 64)) ∧
    (q.failed.has q.c = false → q.cache.get q.c = none → exec (.entryHeadCheck qid) s = .next u)) ∧
  (∀ (s u : State) (qid : Nat) (p q : Queue) (e : Bytes), s.queue qid = some p → s.fatal = false → u = s.fetchRound p.home →
    u.queue qid = some q → u.fatal = false → u.blocked q = false → u.ownerHeld q.owner = false → u.ownerResetting q.owner = false →
    u.dmaTakes qid q = true → u.opsOnTile q.home < 65536 → q.resetAt = none → q.state = .enabled ∨ q.state = .draining →
    q.headOk = false → q.headReading = false →
    q.failed.has q.c = false → q.cache.get q.c = some e →
    exec (.entryHeadCheck qid) s = .next (
      if q.cls = .cmdSq then
        (if (opInfo (le e 0 2)).isNone then u.sf (le e 0 2) (entryCmd qid e) noDeny true false fun _ v => (v, none)
         else u.onQueue qid fun q => { q with headOk := true })
      else match headCheckSlot q.cls (q.owner == .firmware) e, q.headEnd with
        | some st, _ => u.endHead qid st (u.headC12 qid q e) e
        | none, some st => u.endHead qid st (u.headC12 qid q e) e
        | none, none => if usesTable q.cls e && q.headFrags.isNone then u.headTable qid q e else u.headFinish qid q e)) ∧
  (∀ (s : State) (qid : Nat) (q : Queue) (e : Bytes) (l : List Frag) (x : State × Option Nat), l = entryFrags q.cls e q.headFrags →
    x = (if entryOp e = 0 then (s, none) else s.headClass qid q e l) →
    (entryOp e ∉ q.cls.ops → headCheckSlot q.cls (q.owner == .firmware) e = some St.badOp) ∧
    s.headFinish qid q e = (match headCheckFrags q.cls (q.owner == .firmware) e l, x.2 with
      | some st, _ => s.endHead qid st (s.headC12 qid q e) e
      | none, some st => x.1.endHead qid st (x.1.headC12 qid q e) e
      | none, none => if entryOp e ≠ 0 ∧ entryReservedZero q.cls e = false ∧ x.1.freeVal % 2 = 1 then x.1.useFree.queueHostError qid
          else x.1.onQueue qid fun q => { q with headOk := true })) ∧
  (∀ (s : State) (qid : Nat) (q : Queue) (e : Bytes) (u : State × Bool), s.readyHead qid = some (q, e) → entryOp e = 0 → q.cls ≠ .cmdSq →
    u = (if q.cls = .pktRx ∨ q.cls = .krmRq then (s, true) else s.shaperGo qid 0) →
    exec (.nop qid) s = .next (if u.2 = true then u.1.endHead qid St.ok (u.1.headC12 qid q e) e else u.1)) ∧
  (∀ (s : State) (cq : Nat) (q : Queue) (c : Compl) (l : List Compl), s.queue cq = some q → s.fatal = false → q.cls = .cq →
    q.state = .enabled → s.ownerHeld q.owner = false → q.held = [] → q.due = c :: l →
    exec (.completionWrite cq) s = .next (if c.suppressed then (s.onQueue cq fun q => { q with due := l }).afterCompl c
      else if q.full then (s.onQueue cq fun q => { q with due := l, held := [c] }).openEpisode cq
      else (s.onQueue cq fun q => { q with due := l }).writeCompl cq c)) ∧
  (∀ (s : State) (cq : Nat) (q : Queue) (c : Compl) (l : List Compl), s.queue cq = some q → s.fatal = false → q.cls = .cq →
    q.state = .enabled → s.ownerHeld q.owner = false → q.held = c :: l →
    exec (.completionWrite cq) s = .next (
      if c.suppressed then ((s.onQueue cq fun q => { q with held := l }).closeEpisode cq).afterCompl c
      else if q.full then (match q.due with
        | [] => s
        | d :: r => s.onQueue cq fun q => { q with due := r, held := q.held ++ [d] })
      else ((s.onQueue cq fun q => { q with held := l }).writeCompl cq c).closeEpisode cq)) ∧
  (∀ (s : State) (cq : Nat) (q : Queue) (c : Compl) (l : List Compl), s.queue cq = some q → s.fatal = false → q.cls = .cq →
    q.state = .enabled → s.ownerHeld q.owner = true → q.due = c :: l →
    exec (.completionWrite cq) s = .next (
      if c.suppressed = true ∧ q.held = [] then (s.onQueue cq fun q => { q with due := l }).afterCompl c
      else match q.owner.fnRef with
        | some f => (s.onQueue cq fun q => { q with due := l, held := q.held ++ [c] }).count Ct.hostPort f.port 4
        | none => s.onQueue cq fun q => { q with due := l, held := q.held ++ [c] })) ∧
  (∀ (s : State) (qid idx st n : Nat) (q : Queue) (c : Compl), s.queue qid = some q → q.cls.indexed = true → idx ≠ q.nextDone →
    q.waitDone.get q.nextDone = none →
    (s.finish qid idx c st n).queue qid = some { q with waitDone := q.waitDone.set idx c }) ∧
  (∀ (s0 s : State) (qid : Nat) (q : Queue), s = s0.seenFrom (s0.queueDie qid) → s.queue qid = some q → s.onFrame = true → q.wbDue = true → q.cls ≠ .cq → s.fatal = false →
    exec (.writebackBlock qid) s0 = .next (s0.backFrom ((s.onQueue qid fun q => { q with wbDue := false }).writeBack qid)) ∧ (s.wbBytes q).length = 16 ∧ le (s.wbBytes q) 0 2 = q.c % 65536 ∧
    le (s.wbBytes q) 4 2 = (q.replayHead.getD 0) % 65536 ∧ le (s.wbBytes q) 8 8 = s.ft % 2 ^ 64)

/-- The QUEUE commands create, enable, disable, query, move and destroy a queue, each with its reply. QUEUE_CREATE that
passes the checks of R90 creates the queue DISABLED with P = C = F = 0, its context written by service firmware and
bound by Buckram, and QUEUE_DESTROY without a waiting shaper change removes it; Buckram replies. QUEUE_ENABLE sets P,
C and F to the start index. QUEUE_DISABLE of a work queue drains it, and QUEUE_IDLE ends the drain. QUEUE_QUERY
replies with its context. QUEUE_MOVE waits for the next rebalance point, where HOME_MOVE changes the home without the
indices. Completes, with exec answering a next state under conditions on the state and the operands alone:
queueCreate, queueEnable, queueDisable, queueIdle, queueDestroy, queueQuery, queueMove, homeMove. -/
def Obligations.QueuesAreCreatedEnabledAndMoved : Prop :=
  (∀ (s t : State) (c : Cmd) (who : Caller) (env : BkEnv) (cls : QClass) (o : Owner),
    s.accepts 0x0201 c who (queueCreateDeny c who s) true false true ((s.taken 0x0201 c).queueCreateFound c who) = true →
    s.mailboxIdle = true → t = s.taken 0x0201 c → t.queueCreateCheck c who = none →
    QClass.ofCode (cmdByte c 16 % 16) = some cls → t.createOwner c who = some o → c.target.toNat ≠ targetNone →
    (∀ x ∈ t.qm.queues, x.2.maker ≠ some c) →
    ThenBuckram (.queueCreate c) env s ((((t.onFree (· + 2)).addQueue c.target.toNat
      { newQueue cls (cmdByte c 16 / 16) (cmdLe c 32 8) o (cmdLe c 20 2) ((t.createHome c cls).getD 0) (cmdLe c 22 2)
          (cmdLe c 40 8) (cmdLe c 24 2) (bit (cmdByte c 17) 2) t.ft with maker := some c }).onQueue c.target.toNat
        fun q => { q with maker := none }).bkAnswer 0x0201 c (Answer.ok c.target.toNat))) ∧
  (∀ (s : State) (c : Cmd) (who : Caller) (env : BkEnv) (q : Queue), s.bkAccepts 0x0204 c who env false true true = true →
    (s.served 0x0204 c).queue c.target.toNat = some q →
    (s.served 0x0204 c).queueDestroyCheck c.target.toNat = none →
    q.shaper.pend = [] →
    ThenBuckram (.queueDestroy c) env s (
      ((s.served 0x0204 c).destroyQueue c.target.toNat).bkAnswer 0x0204 c (Answer.ok))) ∧
  (∀ (s : State) (c : Cmd) (who : Caller) (q : Queue), s.accepts 0x0202 c who false true true = true →
    (s.taken 0x0202 c).queue c.target.toNat = some q →
    q.command = false →
    q.state = .disabled ∨ q.state = .idle →
    q.cls = .cq ∨ (∃ k, (s.taken 0x0202 c).queue q.cq = some k ∧ k.state = .enabled) →
    exec (.queueEnable c) s = .next (
      ((s.taken 0x0202 c).enableQueue c.target.toNat (cmdLe c 16 2)).answer 0x0202 c (Answer.ok (cmdLe c 16 2)))) ∧
  (∀ (s : State) (c : Cmd) (who : Caller) (q : Queue), s.accepts 0x0203 c who false true true = true →
    (s.taken 0x0203 c).queue c.target.toNat = some q →
    q.command = false →
    q.state = .enabled →
    q.cls ≠ .cq →
    exec (.queueDisable c) s = .next (
      ((s.taken 0x0203 c).beginDisable c.target.toNat).onQueue c.target.toNat fun q => { q with
        disableCmds := q.disableCmds ++ [(c, 0x0203)] })) ∧
  (∀ (s : State) (qid : Nat) (q : Queue), s.queue qid = some q → s.fatal = false → s.drained qid = true → q.owner.sid = none →
    q.disableCmds = [] → s.cmd.quiesce = [] → q.command = false → q.cls ≠ .cq → exec (.queueIdle qid) s =
      .next ((s.onQueue qid fun q => { q with state := .idle, disableCmds := [], replayHead := none }).writeBack qid)) ∧
  (∀ (s : State) (c : Cmd) (who : Caller) (q : Queue), s.accepts 0x0205 c who false true true = true →
    (s.taken 0x0205 c).queue c.target.toNat = some q →
    exec (.queueQuery c) s = .next (
      (s.taken 0x0205 c).answer 0x0205 c ({ Answer.ok with data := (s.taken 0x0205 c).contextBytes c.target.toNat q }))) ∧
  (∀ (s : State) (c : Cmd) (who : Caller) (q : Queue), s.accepts 0x0206 c who false true true = true →
    (s.taken 0x0206 c).queue c.target.toNat = some q →
    cmdByte c 16 < 4 →
    q.command = false →
    (s.taken 0x0206 c).homeOk (cmdByte c 16) = true →
    (∀ x ∈ (s.taken 0x0206 c).cy.chans, x.2.jq ≠ c.target.toNat) →
    q.cls ≠ .dmaCh →
    exec (.queueMove c) s = .next (
      (s.taken 0x0206 c).onQueue c.target.toNat fun q => { q with
        moveTo := some (cmdByte c 16), moveAt := if q.moveTo.isSome then q.moveAt else nextRebalance (s.taken 0x0206 c).ft,
        moveCmds := q.moveCmds ++ [c] })) ∧
  (∀ (s0 s : State) (qid t : Nat) (q : Queue) (u v : State), s = s0.seenFrom (s0.queueDie qid) → s.queue qid = some q → s.fatal = false → q.moveTo = some t →
    s.dueAt q.moveAt s.onRebalance = true → u = s.onQueue qid (fun q => { q with moveTo := none, moveCmds := [] }) →
    v = (if u.homeFor t qid = q.home then u else u.rehome qid (u.homeFor t qid)) →
    exec (.homeMove qid) s0 = .next (s0.backFrom (q.moveCmds.foldl (fun x c => x.reply 0x0206 c false
        { Answer.ok (x.rebalanceFt % 2 ^ 32) with ft := some x.rebalanceFt }) v)))

/-- Slices are created, quiesced, reset and destroyed, and spoof sets take effect at a frame boundary. SLICE_CREATE of a
free SID and PASID binds the slice, which exists from the next frame boundary, when the reply is written.
SLICE_QUIESCE and VF_QUIESCE drain the work queues of their owner. SLICE_RESET stops the slice as it is accepted, and
one with work in flight has made a host error (13 R392); once its reads have ended its queues are destroyed and it
replies. SLICE_DESTROY of a slice that owns nothing frees it. SPOOF_SET waits for its frame boundary, and SPOOF_QUERY
replies with the sets in force. FN_QUERY counts the VFs, slices and queues of a function. Completes, with exec
answering a next state under conditions on the state and the operands alone: fnQuery, sliceCreate, sliceBindingEffect,
sliceQuiesce, sliceReset, sliceResetComplete, sliceDestroy, vfQuiesce, spoofSet, spoofSetEffect, spoofQuery. -/
def Obligations.SlicesAndSpoofSets : Prop :=
  (∀ (s : State) (c : Cmd) (who : Caller) (env : BkEnv) (f : FnRef), s.bkAccepts 0x0302 c who env false true false = true →
    who = .fn f →
    (s.served 0x0302 c).sliceCreateCheck c f = none →
    c.target.toNat ≠ targetNone →
    ThenBuckram (.sliceCreate c) env s (
      (s.served 0x0302 c).useFree.onHost fun h => { h with
        slices := h.slices.set c.target.toNat (newSlice f (cmdLe c 16 4) (s.served 0x0302 c).ft c) })) ∧
  (∀ (s0 s : State) (sid : Nat) (x : SliceSt) (c : Cmd), s = s0.seenFrom (s0.sliceDie sid) → s.slice sid = some x → x.createCmd = some c → s.fatal = false →
    s.dueFrame x.createdAt = true → exec (.sliceBindingEffect sid) s0 = .next (s0.backFrom ((s.onHost fun h => { h with slices := h.slices.mod sid fun x => { x with live := true, createCmd := none } }).reply
        0x0302 c true { Answer.ok sid with ft := some s.frameFt }))) ∧
  (∀ (s : State) (c : Cmd) (who : Caller) , s.accepts 0x0303 c who false true true = true →
    exec (.sliceQuiesce c) s = .next (
      (s.taken 0x0303 c).quiesce 0x0303 c fun o => o.sid == some c.target.toNat)) ∧
  (∀ (s : State) (c : Cmd) (who : Caller) , s.accepts 0x0306 c who false true true = true →
    (fnOfWord c.target.toNat).vf = true →
    exec (.vfQuiesce c) s = .next (
      (s.taken 0x0306 c).quiesce 0x0306 c fun o => o.fnRef == some (fnOfWord c.target.toNat))) ∧
  (∀ (s : State) (c : Cmd) (who : Caller) (x : SliceSt), s.accepts 0x0304 c who false true true = true →
    (s.taken 0x0304 c).slice c.target.toNat = some x →
    x.resetAt = none →
    (s.taken 0x0304 c).cmd.mailbox.length < 256 →
    exec (.sliceReset c) s = .next (
      ((((s.taken 0x0304 c).onHost fun h => { h with
        slices := h.slices.mod c.target.toNat fun x => { x with resetAt := some (s.taken 0x0304 c).time.osc } }).unquiesced fun o => o.sid == some c.target.toNat).stopOwner
          (fun o => o.sid == some c.target.toNat) ((s.taken 0x0304 c).refOfSlice c.target.toNat)).toBuckram 0x0304 c who)) ∧
  (∀ (s : State) (sid : Nat) (x : SliceSt) (c : Cmd), s.slice sid = some x → x.resetCmd = some c → s.fatal = false →
    (∀ r ∈ s.host.reads, s.refOfSlice sid r.2.ref = false) → exec (.sliceResetComplete sid) s =
      .next (((s.endOwner fun o => o.sid == some sid).onHost fun h => { h with
        slices := h.slices.mod sid fun x => { x with resetAt := none, resetCmd := none } }).reply 0x0304 c true Answer.ok)) ∧
  (∀ (s : State) (c : Cmd) (who : Caller) (env : BkEnv) (x : SliceSt), s.bkAccepts 0x0305 c who env false true true = true →
    (s.served 0x0305 c).slice c.target.toNat = some x →
    x.resetAt = none →
    x.spoofPend = none →
    (s.served 0x0305 c).sliceOwns c.target.toNat = false →
    ThenBuckram (.sliceDestroy c) env s (
      ((s.served 0x0305 c).freeSlice c.target.toNat).bkAnswer 0x0305 c (Answer.ok))) ∧
  (∀ (s : State) (c : Cmd) (who : Caller) (env : BkEnv) (x : SliceSt), s.bkAccepts 0x0307 c who env false (spoofLenOk c) true = true →
    (s.served 0x0307 c).slice c.target.toNat = some x →
    spoofOk c.pb = true →
    x.spoofPend = none →
    (s.served 0x0307 c).spoofUse x.mgr.port c.target.toNat + (spoofOf c.pb).entries ≤ 131072 →
    ThenBuckram (.spoofSet c) env s (
      (s.served 0x0307 c).onHost fun h => { h with
        slices := h.slices.mod c.target.toNat fun x => { x with spoofPend := some (spoofOf c.pb, (s.served 0x0307 c).ft, c) } })) ∧
  (∀ (s0 s : State) (sid t : Nat) (x : SliceSt) (y : SpoofSets) (c : Cmd), s = s0.seenFrom (s0.sliceDie sid) → s.slice sid = some x → x.spoofPend = some (y, t, c) →
    s.fatal = false → s.dueFrame t = true → exec (.spoofSetEffect sid) s0 = .next (s0.backFrom ((s.onHost fun h => { h with slices := h.slices.mod sid fun x => { x with spoof := y, spoofPend := none } }).reply
        0x0307 c true { Answer.ok y.entries with ft := some s.frameFt }))) ∧
  (∀ (s : State) (c : Cmd) (who : Caller) (x : SliceSt), s.accepts 0x0308 c who false true true = true →
    (s.taken 0x0308 c).slice c.target.toNat = some x →
    exec (.spoofQuery c) s = .next (
      (s.taken 0x0308 c).answer 0x0308 c ({ Answer.ok with data := x.spoof.bytes }))) ∧
  (∀ (s : State) (c : Cmd) (who : Caller) , s.accepts 0x0301 c who false true true = true →
    exec (.fnQuery c) s = .next (
      (s.taken 0x0301 c).answer 0x0301 c ({ Answer.ok with
        data := Config.layout 0x0301 [(match (s.taken 0x0301 c).fn (fnOfWord c.target.toNat) with
          | some x => if x.vfEnable then x.numVfs else 0
          | none => 0), ((s.taken 0x0301 c).host.slices.filter fun (_, x) => x.mgr == fnOfWord c.target.toNat && x.live).length,
          ((s.taken 0x0301 c).qm.queues.filter fun (_, q) => q.owner.fnRef == some (fnOfWord c.target.toNat)).length] })))

/-- TABLE commands create, search, iterate, insert into, delete from, flush and age a table, each with its reply.
TBL_CREATE creates the parse profile table, or a rule bank, and replies with the number of entries; for a forwarding
table it asks Buckram for the region, and Buckram's turn at the request makes the region and the table and replies.
TBL_SEARCH, TBL_NEXT, TBL_INSERT and TBL_DELETE act on a forwarding table and reply with what they found or placed.
TBL_FLUSH_BY_PORT deletes the entries of a port in every partition. TBL_AGING_SET sets a period. An iteration with no
TBL_NEXT for 1 s closes. Completes, with exec answering a next state under conditions on the state and the operands
alone: tblCreate, tblSearch, tblNext, iterationTimeout, tblInsert, tblDelete, tblFlushByPort, tblAgingSet,
buckramRequest. -/
def Obligations.TableCommandsReply : Prop :=
  (∀ (s : State) (c : Cmd) (who : Caller) , s.accepts 0x0401 c who false true false = true →
    cmdByte c 17 = 0xC0 →
    cmdByte c 16 = 5 →
    (s.taken 0x0401 c).tableInUse c.target.toNat = false →
    (s.taken 0x0401 c).damask.profileTable = none →
    exec (.tblCreate c) s = .next (
      ((s.taken 0x0401 c).onDamask fun d => { d with profileTable := some c.target.toNat }).answer 0x0401 c (Answer.ok 32))) ∧
  (∀ (s : State) (c : Cmd) (who : Caller) , s.accepts 0x0401 c who false true false = true →
    0x80 ≤ cmdByte c 17 ∧ cmdByte c 17 < 0xA0 ∧ cmdByte c 17 % 8 ≤ 4 →
    4 ≤ cmdByte c 16 ∧ cmdByte c 16 ≤ 15 →
    (s.taken 0x0401 c).tableInUse c.target.toNat = false →
    (s.taken 0x0401 c).damask.banks.has (field (cmdByte c 17) 3 2) = false →
    2 ^ cmdByte c 16 + ((s.taken 0x0401 c).damask.banks.map fun (_, b) => b.size).sum ≤ 32768 →
    exec (.tblCreate c) s = .next (
      ((s.taken 0x0401 c).onDamask fun d => { d with
        banks := d.banks.set (field (cmdByte c 17) 3 2) { table := c.target.toNat, level := cmdByte c 17 % 8, size := 2 ^ cmdByte c 16, rules := [] } }).answer 0x0401 c (Answer.ok (2 ^ cmdByte c 16)))) ∧
  (∀ (s : State) (c : Cmd) (who : Caller) (i : Nat) (r : Region), s.accepts 0x0401 c who false true false = true →
    12 ≤ cmdByte c 16 ∧ cmdByte c 16 ≤ 26 →
    cmdByte c 17 < 0x80 ∧ field (cmdByte c 17) 3 3 < 5 ∧ cmdByte c 17 % 8 = 1 →
    (s.taken 0x0401 c).tableInUse c.target.toNat = false →
    (s.taken 0x0401 c).cmd.mailbox = [] →
    (s.taken 0x0401 c).layRegion none .device (2 ^ (cmdByte c 16 + 5) + 1024) = some (i, r) →
    exec (.tblCreate c) s = .next (
      (s.taken 0x0401 c).post (.region i (some r) (some (c, cmdByte c 16, cmdByte c 17))))) ∧
  (∀ (s : State) (c : Cmd) (env : BkEnv) (i k form : Nat) (r : Region), s.fatal = false → s.power.dev ≠ .off → s.pins.sysRst = false →
    s.cmd.mailbox = [.region i (some r) (some (c, k, form))] → s.cmd.rota = [.firmware] → s.regionChangeOk i (some r) = true →
    exec (.buckramRequest env) s = .next (((((s.onCmd fun m => { m with mailbox := [], rota := [] }).putRegion i (some r)).onTables
      fun l => l.set c.target.toNat (Table.fresh k (form % 8) (field form 3 3) (bit form 6) i r.base)).reply 0x0401 c false
        (Answer.ok (2 ^ k))))) ∧
  (∀ (s : State) (c : Cmd) (who : Caller) , s.accepts 0x0402 c who false (s.tblLenOk c 20 64 1) true = true →
    (s.taken 0x0402 c).tables.get c.target.toNat = none →
    exec (.tblSearch c) s = .next (
      (s.taken 0x0402 c).answer 0x0402 c ((s.taken 0x0402 c).tblSearch c.target.toNat c.pb))) ∧
  (∀ (s : State) (c : Cmd) (who : Caller) (t : Table), s.accepts 0x0402 c who false (s.tblLenOk c 20 64 1) true = true →
    (s.taken 0x0402 c).tables.get c.target.toNat = some t →
    exec (.tblSearch c) s = .next (
      ((s.taken 0x0402 c).readKey c.target.toNat t c.pb).answer 0x0402 c ((s.taken 0x0402 c).tblSearch c.target.toNat c.pb))) ∧
  (∀ (s : State) (c : Cmd) (who : Caller) (t : Table), s.accepts 0x0403 c who false true true = true →
    (s.taken 0x0403 c).tables.get c.target.toNat = some t →
    exec (.tblNext c) s = .next (
      ((s.taken 0x0403 c).tblNext c.target.toNat t (cmdLe c 16 8)).1.answer 0x0403 c (((s.taken 0x0403 c).tblNext c.target.toNat t (cmdLe c 16 8)).2))) ∧
  (∀ (s : State) (c : Cmd) (who : Caller) (t : Table), s.accepts 0x0404 c who false (s.tblLenOk c 32 144 32) true = true →
    (s.taken 0x0404 c).tables.get c.target.toNat = some t →
    exec (.tblInsert c) s = .next (
      ((s.taken 0x0404 c).tblInsert c.target.toNat t c.pb).1.answer 0x0404 c (((s.taken 0x0404 c).tblInsert c.target.toNat t c.pb).2))) ∧
  (∀ (s : State) (c : Cmd) (who : Caller) (rank : Nat) (b : Bank), s.accepts 0x0404 c who false (s.tblLenOk c 32 144 32) true = true →
    (s.taken 0x0404 c).tables.get c.target.toNat = none →
    (s.taken 0x0404 c).bankOf c.target.toNat = some (rank, b) →
    le c.pb 0 4 < b.size →
    le c.pb 4 4 = 0 →
    le c.pb 8 8 < 2 ^ 56 ∧ field (le c.pb 8 8) 14 2 ≠ 3 ∧ le c.pb 8 8 % 8 ≤ 4 →
    exec (.tblInsert c) s = .next (
      (s.taken 0x0404 c).onDamask fun d => { d with changes := d.changes ++ [(.setRule rank (le c.pb 0 4) {
        action := le c.pb 8 8, value := le c.pb 16 64, mask := le c.pb 80 64 }, (s.taken 0x0404 c).ft, some (c, 0x0404))] })) ∧
  (∀ (s : State) (c : Cmd) (who : Caller) (t : Table), s.accepts 0x0405 c who false (s.tblLenOk c 20 4 1) true = true →
    (s.taken 0x0405 c).tables.get c.target.toNat = some t →
    exec (.tblDelete c) s = .next (
      ((s.taken 0x0405 c).tblDelete c.target.toNat t c.pb).1.answer 0x0405 c (((s.taken 0x0405 c).tblDelete c.target.toNat t c.pb).2))) ∧
  (∀ (s : State) (c : Cmd) (who : Caller) (p : Nat) (b d e : State), s.accepts 0x0406 c who false true true = true →
    p = cmdByte c 16 →
    p < 32 ∨ p = 0xFF →
    (s.taken 0x0406 c).tables.has c.target.toNat = true →
    b = ((s.taken 0x0406 c).flushPart c.target.toNat 0 p).1 →
    d = (b.flushPart c.target.toNat 1 p).1 →
    e = (d.flushPart c.target.toNat 2 p).1 →
    exec (.tblFlushByPort c) s = .next (
      (e.flushPart c.target.toNat 3 p).1.answer 0x0406 c (Answer.ok ((((((s.taken 0x0406 c).flushPart c.target.toNat 0 p).2 + (b.flushPart c.target.toNat 1 p).2) + (d.flushPart c.target.toNat 2 p).2) + (e.flushPart c.target.toNat 3 p).2))))) ∧
  (∀ (s : State) (c : Cmd) (who : Caller) , s.accepts 0x0407 c who false true true = true →
    (s.taken 0x0407 c).tables.has c.target.toNat = true →
    1000000000 ≤ cmdLe c 16 8 ∧ cmdLe c 16 8 ≤ 10 ^ 15 →
    cmdLe c 24 8 < cmdLe c 16 8 →
    exec (.tblAgingSet c) s = .next (
      ((s.taken 0x0407 c).onTable c.target.toNat fun t => { t with agingPend := t.agingPend ++ [(cmdLe c 16 8, cmdLe c 24 8, (s.taken 0x0407 c).ft)] }).answer 0x0407 c (Answer.ok))) ∧
  (∀ (s : State) (id : Nat) (t : Table) (it : Iter), s.tables.get id = some t → t.iter = some it → it.lastFt + 1000000000 ≤ s.ft →
    exec (.iterationTimeout id) s = .next (s.onTable id fun t => { t with iter := none }))

/-- An inserted entry is found by a search; learned entries are inserted; aging clears HIT and deletes. TBL_INSERT of a
key that is absent, with a free way in its first candidate bucket, takes the lowest free way, and TBL_SEARCH then
finds the entry with HIT set and LEARNED clear. A queued learn request whose key is absent is placed and counted. An
aging pass starts in every partition at its instant; a visit clears HIT of an entry that has it, deletes one without
it, and passes over a STATIC one. Changes of rules take effect after their boundary with their replies; KRM_CONFIG is
one of them. Completes, with exec answering a next state under conditions on the state and the operands alone:
ruleChangeEffect, agingPassStart, agingVisit, krmConfig, learnInsert. -/
def Obligations.TableEntriesAreFoundLearnedAndAged : Prop :=
  (∀ (s : State) (id w : Nat) (t : Table) (pb : Bytes), s.tables.get id = some t → t.parts.length = 4 → pb.length = 32 →
    le pb 20 2 = 1 → byteAt pb 22 < 32 → byteAt pb 23 = 0 → actionOk (le pb 24 8) = true → keyOk t.form (pb.take 20) = true →
    s.findKey t (t.place id (pb.take 20)).1 (t.place id (pb.take 20)).2.1 (t.place id (pb.take 20)).2.2 (pb.take 20) = [] →
    s.freeSlot t (t.place id (pb.take 20)).1 (t.place id (pb.take 20)).2.1 = some w → w < 4 → (t.place id (pb.take 20)).2.1 < t.nb →
    ∃ u, s.tblInsert id t pb = (u, Answer.ok (posWord t.nb (t.place id (pb.take 20)).1 (t.place id (pb.take 20)).2.1 w)) ∧
      u.tblSearch id (pb.take 20) = { Answer.ok 1 with data := pb.take 20 ++ [3, 0] ++ (pb.drop 22) }) ∧
  (∀ (s u v w : State) (id p port b i : Nat) (t x : Table) (key : Bytes) (l : List (Bytes × Nat)), s.fatal = false →
    s.tables.get id = some t → (t.part p).learnQ = (key, port) :: l → u = (s.onPart id p fun x => { x with learnQ := l }) →
    u.tables.get id = some x → v = u.readBuckets id p x [(x.place id key).2.1, (x.place id key).2.2] false →
    v.findKey x p (x.place id key).2.1 (x.place id key).2.2 key = [] →
    v.placeEntry id x p (x.place id key).2.1 (x.place id key).2.2 {
      key := key, hit := true, isStatic := false, learned := true, port := port, portValid := true,
      action := 2 ^ 60 + port } = some (w, b, i) →
    exec (.learnInsert id p) s = .next (w.count Ct.table (4 * id + p) 4)) ∧
  (∀ (s : State) (id : Nat) (t : Table), s.fatal = false → s.tables.get id = some t → t.agingPend = [] → t.period ≠ 0 →
    s.onGrid t.period t.phase = true → (∀ x ∈ t.parts, x.pass = none) → t.parts.length = 4 →
    exec (.agingPassStart id) s = .next (s.onTable id fun _ => { t with
      parts := t.parts.map fun x => { x with pass := some (s.gridFt t.period t.phase, t.period), passNext := 0 } })) ∧
  (∀ (s0 s : State) (id p line start period : Nat) (t : Table), s = s0.seenFrom p → s.fatal = false → s.tables.get id = some t →
    (t.part p).pass = some (start, period) → (t.part p).passNext = line →
    (line < t.nb → roundUp (start + line * period / (2 * t.nb)) 1024 ≤ s.ft → exec (.agingVisit id p line) s0 = .next (s0.backFrom (((((s.visitSlot id p line 0).visitSlot id p line 1).visitSlot id p line 2).visitSlot id p line 3).onPart id p
        fun x => { x with passNext := line + 1 }))) ∧
    (line = t.nb → start + period / 2 ≤ s.ft → exec (.agingVisit id p line) s0 = .next (s0.backFrom (((List.range 8).foldl (fun s i => s.visitSlot id p line i) s).onPart id p
        fun x => { x with pass := none, passNext := 0 })))) ∧
  (∀ (s : State) (id p b i : Nat) (t : Table) (e : TblEntry), s.tables.get id = some t → (s.slots t p b).getD i none = some e →
    (e.isStatic = true → s.visitSlot id p b i = s) ∧
    (e.isStatic = false → e.hit = true → s.visitSlot id p b i = s.putSlot id t p b i (some { e with hit := false })) ∧
    (e.isStatic = false → e.hit = false → s.visitSlot id p b i = (s.clearSlot id p b i).count Ct.table (4 * id + p) 8)) ∧
  (∀ (s : State) (rank i t : Nat) (r : Rule) (c : Cmd), s.fatal = false → s.onFrame = true → nextFrame t ≤ s.ft →
    s.damask.changes = [(.setRule rank i r, t, some (c, 0x0404))] → (∀ f ∈ s.twill.frames, f.2.frozen = none ∧ f.2.ft < s.frameFt) →
    exec .ruleChangeEffect s = .next ((((s.onTwill fun w => { w with
        frames := w.frames.map fun (k, f) => (k, { f with frozen := some s.damask.version }) }).onDamask fun d => { d with
          changes := [] }).onDamask fun d => { d with
            banks := d.banks.mod rank fun b => { b with rules := b.rules.set i r } }).reply 0x0404 c false { Answer.ok i with ft := some s.frameFt })) ∧
  (∀ (s : State) (c : Cmd) (who : Caller) , s.accepts 0x0607 c who false true true = true →
    exec (.krmConfig c) s = .next (
      (s.taken 0x0607 c).onDamask fun d => { d with changes := d.changes ++ [(.krmPort (cmdLe c 16 2), (s.taken 0x0607 c).ft, some (c, 0x0607))] }))

/-- A received frame is counted, steered to a tile and held there across a change of steering. On a port whose link is
down, and in FATAL, nothing is received. In STANDBY, and while it is being entered, a frame is counted and discarded;
a frame with a bad FCS is counted and dropped. Any other frame is counted with its bytes. A relay frame goes to the
relay queue of its group, or is counted; another is steered by the connection map or by its flow and, where it fits
the packet buffer of its tile, stored with its timestamp, held where a steering change still holds its flow and the
connection map does not steer it; where it does not fit it is counted. A held frame is released 4,096 ns after the
point, and counted where the old tile still holds frames of its entry from before it. At a rebalance point service
firmware may write the steering table anew, and the pending tables and home map take effect; they govern the frames
received from then on too. Completes, with exec answering a next state under conditions on the state and the operands
alone: frameReceive, steerHoldExpired, steeringUpdate. -/
def Obligations.FramesAreReceivedAndSteered : Prop :=
  (∀ (s0 s : State) (port : Nat) (b : Bytes) (ok : Bool), s = s0.seenFrom (4 + port / 16) → s.fatal = true ∨ s.linkUp port = false ∨ s.power.dev = .standby ∨
    s.power.standby.isSome = true ∨ ok = false →
    exec (.frameReceive port b ok) s0 = .next (s0.backFrom (if s.fatal = true ∨ s.linkUp port = false then s
      else if s.power.dev = .standby ∨ s.power.standby.isSome = true then s.count Ct.netPort (port / 8) 1
      else s.count Ct.netPort (port / 8) (2 + 5 * (port % 8) + 4)))) ∧
  (∀ (s0 s : State) (u : State) (port : Nat) (b : Bytes) (ps : PState) (hash tile : Nat) (home : Bool) (st : Stage), s = s0.seenFrom (4 + port / 16) → s.fatal = false →
    s.linkUp port = true → s.power.dev ≠ .standby → s.power.standby = none →
    u = ((s.count Ct.netPort (port / 8) (2 + 5 * (port % 8))).countBy Ct.netPort (port / 8)
      (2 + 5 * (port % 8) + 1) b.length).steerNow → ps = u.damask.version.parse b port 128 →
    hash = ps.flowHash b (u.damask.version.profile port) → tile = u.steer port ps b hash → home = u.byHome ps b →
    st = (match home, u.holding port hash tile with
      | false, some p => .steerHold p
      | _, _ => .arrived) →
    exec (.frameReceive port b true) s0 = .next (s0.backFrom (if u.isRelay b = true then u.relayReceive port b
      else if 0x8000000 < u.bufUse tile + b.length then u.count Ct.twill tile 5
      else (u.newFrame { u.newRx port b tile hash st with byHome := home }).1))) ∧
  (∀ (s : State) (n p : Nat) (f : RxFrame), s.twill.frames.get n = some f → f.stage = .steerHold p →
    exec (.steerHoldExpired n) s = .next (if p + 4096 ≤ s.ft then
      (if s.oldHolds (netDie f.port * 512 + f.hash % 512) f.tile then s.count Ct.damask f.tile 18 else s).onFrameRx n
        fun f => { f with stage := .arrived } else s)) ∧
  (∀ (s : State), exec .steeringUpdate s = .next (if s.fatal = false ∧ s.steerPoint = true then s.rebalance.applySteering else s)) ∧
  (∀ (s : State), s.applySteering.damask.ind = s.damask.indPend.getD s.damask.ind ∧ s.applySteering.damask.indPend = none ∧
    s.applySteering.damask.homePend = [] ∧ s.applySteering = s.onDamask fun _ => s.applySteering.damask)

/-- A frame is classified, policed, looked up, admitted to a queue, or disposed of from the slow path. A frame that has
arrived is parsed and classified by the version of its timestamp, its rule hits counted, and then dropped, sent to the
slow path, or passed to its policer or past it. A classified frame meets its policer: a rate of 0 passes it unchanged;
a RED frame is dropped; another goes on with its colour. A policed frame takes the action of its table: a missing
table or action 0 drops it, 4 sends it to the slow path, another resolves it. A resolved frame is admitted as its
ACTION says, except to queues of a tile past its park point: to a port or a destination group, to an ENABLED PKT_RX
queue, as copies to each port of a flood, or it is dropped and counted. An SP_DISP message takes its oldest frame
handle: one without a frame, with reserved bits, a length out of range or an ACTION that is not allowed is counted;
DROP releases the frame, and another ACTION admits its bytes. Completes, with exec answering a next state under
conditions on the state and the operands alone: frameClassify, policerDecide, tableLookup, twillAdmit, spDisp. -/
def Obligations.FramesPassDamaskAndTables : Prop :=
  (∀ (s : State) (n : Nat) (f g : RxFrame) (x : State × Bool) (v : Version) (prof : Profile) (ps : PState) (c : Classified) (p : Parse) (w : State),
    s.fatal = false → s.twill.frames.get n = some f → f.stage = .arrived → x = s.sampleTag f.tile →
    v = (x.1.count Ct.damask f.tile 0).versionOf f → prof = v.profile f.port → ps = v.parse f.bytes f.port prof.depth →
    c = v.classify ps f.port → p = parseOf f ps c prof.vlanStrip → w = (x.1.count Ct.damask f.tile 0).countHits c.hits →
    g = { f with parse := some p, sampled := x.2, parsedAt := w.ft } →
    exec (.frameClassify n) s = .next (if p.verdict = 1 then w.dropRx n g 15
      else if p.verdict = 4 ∧ p.qid.isNone then w.dropRx n g 16
      else if p.verdict ≠ 4 ∧ p.reason ≠ 0 then w.slowPath n g p.reason
      else if p.verdict = 2 then w.slowPath n g 0x0D
      else if p.policer.isSome then w.onTwill fun y => { y with frames := y.frames.set n { g with stage := .classified } }
      else w.afterPolicer n g p)) ∧
  (∀ (s : State) (n : Nat) (f : RxFrame) (p : Parse) (pol : Policer) (x : Policer × Nat) (u : State) (p2 : Parse), s.fatal = false →
    s.twill.frames.get n = some f → f.stage = .classified → f.parse = some p →
    pol = (s.twill.policers.get (p.policer.getD 0)).getD (Policer.fresh (s.unparked (p.policer.getD 0))) →
    x = pol.decide' s.ft f.bytes.length p.colour →
    u = (s.onTwill fun w => { w with policers := w.policers.set (p.policer.getD 0) x.1 }).count Ct.policer (p.policer.getD 0) x.2 →
    p2 = { p with colour := x.2, result := splice p.result 53 [byte (x.2 + 4 * p.verdict)] } →
    exec (.policerDecide n) s = .next (if pol.rate = 0 then s.afterPolicer n f p
      else if x.2 = 2 then (u.sampleRec { f with parse := some p2 } 6 0 0).delFrame n else u.afterPolicer n f p2)) ∧
  (∀ (s : State) (n : Nat) (f : RxFrame) (p : Parse), s.fatal = false → s.twill.frames.get n = some f → f.stage = .policed →
    f.parse = some p → s.tables.get p.table = none → exec (.tableLookup n) s = .next (s.dropRx n f 19)) ∧
  (∀ (s : State) (n : Nat) (f : RxFrame) (p : Parse) (t : Table) (x : State × Nat), s.fatal = false → s.twill.frames.get n = some f →
    f.stage = .policed → f.parse = some p → s.tables.get p.table = some t → x = s.lookups p.table t f p →
    exec (.tableLookup n) s = .next (
      if x.2 / 2 ^ 60 = 0 then x.1.dropRx n { f with tableAt := x.1.ft } 20
      else if x.2 / 2 ^ 60 = 4 then x.1.slowPath n { f with tableAt := x.1.ft } 0x40
      else x.1.onTwill fun w => { w with frames := w.frames.set n { f with tableAt := x.1.ft, stage := .resolved x.2 } })) ∧
  (∀ (s : State) (n a : Nat) (f : RxFrame), s.fatal = false → s.twill.frames.get n = some f → f.stage = .resolved a →
    exec (.twillAdmit n) s = .next (if s.tileUsed f.tile = false ∧ a / 2 ^ 60 ∈ [1, 3, 5] then s else s.admitFrame n f a)) ∧
  (∀ (s : State) (n a : Nat) (f : RxFrame) (arg tc : Nat) (ports : List Nat), arg = a % 2 ^ 32 → tc = field a 57 3 →
    ports = (List.range 32).filter (fun m => bit arg m && m != f.port && s.linkUp m) →
    s.admitFrame n f a = (if a / 2 ^ 60 = 1 then (match s.destFault (.port (arg % 32) tc) with
        | some (w, _) => s.dropAdmit n f f.tile w
        | none => s.admitOne n f f.tile (.port (arg % 32) tc) (.port (arg % 32) tc))
      else if a / 2 ^ 60 = 2 then (match s.queue (arg % 65536) with
        | some q => if q.cls = .pktRx ∧ q.state = .enabled then s.admitOne n f q.home (.source (arg % 65536)) .none else s.dropAdmit n f f.tile 6
        | none => s.dropAdmit n f f.tile 6)
      else if a / 2 ^ 60 = 3 then (match s.destFault (.dg (arg % 16384) tc) with
        | some (w, _) => s.dropAdmit n f f.tile w
        | none => s.admitOne n f f.tile (.dg (arg % 16384)) (.dg (arg % 16384) tc))
      else if a / 2 ^ 60 = 5 then (if ports = [] then (s.sampleRec f 6 0 0).delFrame n else (s.delFrame n).floodCopies n tc f ports)
      else s.dropRx n f 20)) ∧
  (∀ (s : State) (tile : Nat) (u : State × Option (Nat × List W64)), s.fatal = false → u = s.takeMsg (tile * 2048 + 1) →
    (u.2 = none → exec (.spDisp tile) s = .next u.1) ∧
    (u.2.any (fun m => m.2.length != 2) = true → exec (.spDisp tile) s = .next (u.1.count Ct.cores tile 32))) ∧
  (∀ (s u : State) (tile src : Nat) (w0 w1 : W64), s.fatal = false → s.takeMsg (tile * 2048 + 1) = (u, some (src, [w0, w1])) →
    u.handleFrame tile (w0.toNat % 65536) = none → exec (.spDisp tile) s = .next (u.count Ct.cores tile 32)) ∧
  (∀ (s u : State) (tile n src a len : Nat) (f : RxFrame) (w0 w1 : W64), s.fatal = false →
    s.takeMsg (tile * 2048 + 1) = (u, some (src, [w0, w1])) → u.handleFrame tile (w0.toNat % 65536) = some (n, f, a) →
    len = (if field w0.toNat 16 16 = 0 then f.bytes.length else field w0.toNat 16 16) →
    exec (.spDisp tile) s = .next (
      if (field w0.toNat 16 16 ≠ 0 ∧ (field w0.toNat 16 16 < 60 ∨ f.bytes.length < field w0.toNat 16 16)) ∨ w0.toNat / 2 ^ 32 ≠ 0 ∨
        w1.toNat / 2 ^ 60 = 4 ∨ actionOk w1.toNat = false then u.count Ct.cores tile 32
      else if w1.toNat / 2 ^ 60 = 0 then u.delFrame n
      else u.admitFrame n { f with bytes := u.bufRead tile a len } w1.toNat))

/-- Shapers, policers and destination groups take their settings at frame boundaries, and shape and colour by them.
TW_SHAPER_SET, TW_POLICER_SET and TW_DG_SET wait, with their replies, for the next refill or frame boundary, at which
they take effect. A refill adds RATE times the time since the last, up to BURST. A waiting shaper whose calendar entry
fires may decide again. The head of a source queue passes to its DEST where that has room. A colour-blind policer
passes a frame GREEN from C, YELLOW from E, and RED otherwise. Completes, with exec answering a next state under
conditions on the state and the operands alone: twShaperSet, shaperRefill, twPolicerSet, policerSetApply, twDgSet,
dgSetApply, calendarFire, sourceQueueAdvance. -/
def Obligations.ShapersPolicersAndGroups : Prop :=
  (∀ (s : State) (c : Cmd) (who : Caller) (q : Queue) (d : Option Dest), s.accepts 0x0501 c who (shaperDeny c who s) true true = true →
    (s.taken 0x0501 c).queue c.target.toNat = some q →
    destOf (cmdLe c 24 4) = some d →
    rateOk (cmdLe c 16 4) = true →
    1024 ≤ cmdLe c 20 3 →
    cmdByte c 30 ≤ 1 ∧ cmdByte c 31 = 0 →
    q.cls = .pktTx →
    exec (.twShaperSet c) s = .next (
      (s.taken 0x0501 c).onQueue c.target.toNat fun q => { q with shaper := { q.shaper with pend := q.shaper.pend ++ [{
        rate := cmdLe c 16 4, vs := who.isVS, burst := cmdLe c 20 3, overhead := signed 8 (cmdByte c 23), dest := d,
        limit := limitOf (cmdLe c 28 2), sample := cmdByte c 30 == 1, acceptedAt := (s.taken 0x0501 c).ft, cmd := c }] } })) ∧
  (∀ (s0 s : State) (qid : Nat) (q : Queue) (n : ShaperSet), s = s0.seenFrom (s0.queueDie qid) → s.queue qid = some q → s.fatal = false → q.cls = .pktTx →
    s.onFrame = true → q.shaper.pend = [n] → q.destroyCmds = [] →
    exec (.shaperRefill qid) s0 = .next (s0.backFrom (((s.onQueue qid fun q => { q with
        shaper := { (q.shaper.refill s.ft).apply n with pend := [] }, destroyCmds := [] }).onTwill fun w => { w with
          calendar := w.calendar.filter (·.obj != .shaper qid) }).reply 0x0501 n.cmd false { Answer.ok with ft := some s.frameFt }))) ∧
  (∀ (h : Shaper) (now : Nat), h.rate ≠ 0 →
    (h.refill now).credit = min (h.credit + h.rate * (now - h.last : Nat)) (h.burst * 8000000) ∧ (h.refill now).last = now) ∧
  (∀ (s0 s : State) (tile qid : Nat) (x : CalEntry), s = s0.seenFrom tile → s.fatal = false → s.twill.calendar = [x] → x.obj = .shaper qid → x.tile = tile →
    s.calDue x.e = true →
    exec (.calendarFire tile) s0 = .next (s0.backFrom ((s.onTwill fun w => { w with calendar := [] }).onQueue qid fun q => { q with
      shaper := { q.shaper with waitUntil := none } }))) ∧
  (∀ (s : State) (qid : Nat) (q : Queue) (f : TwFrame) (l : List TwFrame), s.fatal = false → s.queue qid = some q →
    s.twFrames q.home (.source qid) = f :: l → q.cls = .pktTx → f.launch = none → s.destFault f.dest = none →
    s.admitFail q.home f.dest.key f.bytes.length 0 true = none →
    exec (.sourceQueueAdvance qid) s = .next ((s.popTw q.home (.source qid)).enqueue q.home f.dest.key f)) ∧
  (∀ (s : State) (c : Cmd) (who : Caller) (p : Policer), s.accepts 0x0502 c who false true true = true →
    rateOk (cmdLe c 16 4) = true →
    1024 ≤ cmdLe c 20 3 →
    cmdByte c 27 ≤ 1 →
    cmdLe c 28 4 = 0 →
    p = ((s.taken 0x0502 c).twill.policers.get c.target.toNat).getD (Policer.fresh ((s.taken 0x0502 c).unparked c.target.toNat)) →
    exec (.twPolicerSet c) s = .next (
      (s.taken 0x0502 c).onTwill fun w => { w with policers := w.policers.set c.target.toNat { p with
        pend := p.pend ++ [(sliceZ c.params 0 16, (s.taken 0x0502 c).ft, c)] } })) ∧
  (∀ (s0 s : State) (k t : Nat) (p : Policer) (b : Bytes) (c : Cmd), s = s0.seenFrom (k % 4) → s.twill.policers.get k = some p → s.fatal = false →
    p.pend = [(b, t, c)] → s.onFrame = true → nextFrame t ≤ s.ft → exec (.policerSetApply k) s0 = .next (s0.backFrom ((s.onTwill fun w => { w with policers := w.policers.set k { p.apply b s.ft with pend := [] } }).reply 0x0502 c false { Answer.ok with ft := some s.frameFt }))) ∧
  (∀ (p u : Policer) (now len colour b : Nat), p.aware = false → u = p.update now → b = frameCharge p.overhead len * 8000000 →
    p.decide' now len colour = if b ≤ u.tc then ({ u with tc := u.tc - b }, 0)
      else if b ≤ u.te then ({ u with te := u.te - b }, 1) else (u, 2)) ∧
  (∀ (s : State) (c : Cmd) (who : Caller) , s.accepts 0x0503 c who false true true = true →
    cmdByte c 17 = 1 →
    cmdLe c 18 2 < 16384 ∧ cmdLe c 20 2 < 16384 →
    cmdLe c 28 4 = 0 →
    exec (.twDgSet c) s = .next (
      (s.taken 0x0503 c).onTwill fun w => { w with dgPend := w.dgPend ++ [(c.target.toNat, dgOf c, (s.taken 0x0503 c).ft, c)] })) ∧
  (∀ (s : State) (d t : Nat) (r : DgRec) (c : Cmd), s.fatal = false → s.onFrame = true → nextFrame t ≤ s.ft → r.self = false →
    s.twill.dgPend = [(d, some r, t, c)] → exec (.dgSetApply d) s =
      .next ((s.onTwill fun w => { w with dgPend := [], dgs := w.dgs.set d r }).reply 0x0503 c false { Answer.ok with ft := some s.frameFt }))

/-- Schedules are loaded, swapped, entered and left at cycle boundaries, and frames start by them. TW_SCHED_LOAD fills the
shadow table; TW_SCHED_SWAP and TW_MODE_SET wait for their cycle boundary, and a port without a table is UNSCHEDULED
at once. At a boundary a mode change to SCHEDULED takes effect with FT locked, and a fallback leaves it. A slot start
names the slot that contains FT. A free port that is UNSCHEDULED starts the head that R207 chooses. TW_QUERY replies
with the mode, the headers and 64 sample records. Completes, with exec answering a next state under conditions on the
state and the operands alone: twSchedLoad, twSchedSwap, twModeSetScheduled, twModeSetUnscheduled, twQuery,
cycleBoundary, slotStart, frameTransmitStart. -/
def Obligations.SchedulesTakeEffectAtCycleBoundaries : Prop :=
  (∀ (s : State) (c : Cmd) (who : Caller) (t : Sched), s.accepts 0x0504 c who false (loadLenOk c) true = true →
    loadOk c.pb = true →
    bit (byteAt c.pb 20) 0 = true →
    ((s.taken 0x0504 c).phys c.target.toNat).swap = none →
    t = (List.range (le c.pb 18 2)).foldl (fun (t : Sched) i => { t with
        slots := t.slots.set (le c.pb 16 2 + i) (le c.pb (32 + 2 * i) 2) }) (loadHeader c.pb) →
    exec (.twSchedLoad c) s = .next (
      ((s.taken 0x0504 c).onPhys c.target.toNat fun x => { x with shadow := some t }).answer 0x0504 c (Answer.ok t.slots.length))) ∧
  (∀ (s : State) (c : Cmd) (who : Caller) (h : Sched), s.accepts 0x0505 c who false true true = true →
    ((s.taken 0x0505 c).phys c.target.toNat).shadow = some h →
    (s.taken 0x0505 c).cmdStart + 100000 ≤ cmdLe c 16 8 →
    h.complete = true →
    ((s.taken 0x0505 c).phys c.target.toNat).swap = none →
    h.isBoundary (cmdLe c 16 8) = true →
    (∀ a, ((s.taken 0x0505 c).phys c.target.toNat).active = some a → a.isBoundary (cmdLe c 16 8) = true) →
    exec (.twSchedSwap c) s = .next (
      (s.taken 0x0505 c).onPhys c.target.toNat fun x => { x with swap := some (cmdLe c 16 8, c) })) ∧
  (∀ (s : State) (c : Cmd) (who : Caller) , s.accepts 0x0506 c who false true true = true →
    cmdByte c 16 = 1 →
    ((s.taken 0x0506 c).phys c.target.toNat).mode = 0 →
    ((s.taken 0x0506 c).phys c.target.toNat).active.isSome = true →
    (s.taken 0x0506 c).ftLocked = true →
    exec (.twModeSetScheduled c) s = .next (
      (s.taken 0x0506 c).onPhys c.target.toNat fun x => { x with schedPend := x.schedPend ++ [(true, c, (s.taken 0x0506 c).ft)] })) ∧
  (∀ (s : State) (c : Cmd) (who : Caller) , s.accepts 0x0506 c who false true true = true →
    cmdByte c 16 = 1 →
    ((s.taken 0x0506 c).phys c.target.toNat).mode = 0 →
    ((s.taken 0x0506 c).phys c.target.toNat).active.isSome = true →
    (s.taken 0x0506 c).ftLocked = false →
    exec (.twModeSetScheduled c) s = .next (
      (s.taken 0x0506 c).answer 0x0506 c (Answer.just St.notLocked))) ∧
  (∀ (s : State) (c : Cmd) (who : Caller) , s.accepts 0x0506 c who false true true = true →
    cmdByte c 16 = 0 →
    exec (.twModeSetUnscheduled c) s = .next (
      (if ((s.taken 0x0506 c).phys c.target.toNat).active.isNone then (s.taken 0x0506 c).answer 0x0506 c (Answer.ok 0)
      else (s.taken 0x0506 c).onPhys c.target.toNat fun x => { x with schedPend := x.schedPend ++ [(false, c, (s.taken 0x0506 c).ft)] }))) ∧
  (∀ (s0 s : State) (p b t : Nat) (c : Cmd), s = s0.seenFrom (4 + p / 2) → s.cycleNow p = some b → s.fatal = false → (s.phys p).swap = none → (s.phys p).fallback = none →
    (s.phys p).schedPend = [(true, c, t)] → t < b → s.ftLocked = true → exec (.cycleBoundary p) s0 = .next (s0.backFrom (((s.onPhys p fun x => { x with lastBoundary := b, schedPend := [] }).setScheduled p true b).reply 0x0506 c false
        { Answer.ok 1 with ft := some b }))) ∧
  (∀ (s0 s : State) (p b t : Nat), s = s0.seenFrom (4 + p / 2) → s.cycleNow p = some b → s.fatal = false → (s.phys p).swap = none →
    (s.phys p).fallback = some t → t < b → (s.phys p).schedPend = [] →
    exec (.cycleBoundary p) s0 = .next (s0.backFrom ((s.onPhys p fun x => { x with lastBoundary := b }).fallBack p b))) ∧
  (∀ (s0 s : State) (p b t : Nat) (c : Cmd), s = s0.seenFrom (4 + p / 2) → s.cycleNow p = some b → s.fatal = false → (s.phys p).swap = some (t, c) → t ≤ b →
    (s.phys p).fallback = none → (s.phys p).schedPend = [] → exec (.cycleBoundary p) s0 = .next (s0.backFrom (((s.onPhys p fun x => { x with
        lastBoundary := b, swap := none, active := x.shadow, shadow := x.active }).twEvent p 2 0 b).reply 0x0505 c false
          { Answer.ok with ft := some b }))) ∧
  (∀ (s0 s : State) (p : Nat) (c : Sched), s = s0.seenFrom (4 + p / 2) → s.fatal = false → (s.phys p).active = some c → (s.phys p).scheduled = true →
    s.ftu.stepAt ≤ (c.slotAt s.ft).2 → (s.phys p).lastBoundary ≤ (c.slotAt s.ft).2 →
    exec (.slotStart p) s0 = .next (s0.backFrom (s.onPhys p fun x => { x with slot := some (c.slotAt s.ft) }))) ∧
  (∀ (s0 s : State) (n : Nat) (h : Head) (tc : Nat), s = s0.seenFrom (4 + n / 16) → s.fatal = false → s.linkUp n = true → (s.phys (n / 8)).scheduled = false →
    (s.phys (n / 8)).schedPend = [] → s.choose n false (if (s.phys (n / 8)).freeFrom ≤ s.ft then (s.phys (n / 8)).freeFrom * 200 else 0) none = some (h, tc) → exec (.frameTransmitStart n) s0 = .next (s0.backFrom (((s.transmit n h).setLast (n * 8 + tc) h.tile).setLast (rotQueue h.tile n tc) h.key.rank))) ∧
  (∀ (s : State) (c : Cmd) (who : Caller) (x : PhysPort), s.accepts 0x0507 c who false true true = true →
    x = (s.taken 0x0507 c).phys c.target.toNat →
    exec (.twQuery c) s = .next (
      (s.taken 0x0507 c).answer 0x0507 c ({ Answer.ok with
        data := [byte x.modeByte, byte (b2n x.swap.isSome + 2 * b2n (x.shadow.any (·.complete)) + 4 * b2n x.active.isSome), 0, 0]
          ++ toLe 4 x.fallbackFrames ++ toLe 8 ((x.swap.map (·.1)).getD 0) ++ schedHeader x.active ++ schedHeader x.shadow
          ++ (List.range 64).flatMap fun i => (s.taken 0x0507 c).portSample (8 * c.target.toNat + i / 8) (i % 8) })))

/-- Port modes change at rebalance points, links train and fail, and sample records are latched. DEV_PORT_MODE with a code
from 0 to 3 on a port that is UNSCHEDULED, with no mode or schedule change waiting, waits for the rebalance point;
another code ends S_BAD_PARAM, and a port that is not so S_BAD_STATE. At that point of the port's die the ports of the
old mode go down, those of the new one train, and the reply waits until all are up or 500 ms after the acceptance,
beside one that still waits for an earlier mode. A port trained without a lane dropped comes up with LINK_CHANGE, and
one with a lane dropped stays down and sets its bit of PIN_FAULT; remapped lanes set theirs. A link that goes down
raises LINK_CHANGE and discards the frames queued for it. DEV_PORT_QUERY reports a logical port; the layout and the
FEC counts are free (logs 13 and 19). At a rebalance point every sample record is latched: of a port queue over its
four tiles, and of a source queue whose shaper asks for it. Completes, with exec answering a next state under
conditions on the state and the operands alone: devPortMode, devPortQuery, portModePoint, portTrained,
networkLinkDown, sampleRecordLatch. -/
def Obligations.PortModesLinksAndSamples : Prop :=
  (∀ (s : State) (c : Cmd) (who : Caller) , s.accepts 0x0103 c who false true true = true →
    exec (.devPortMode c) s = .next (
      if 3 < cmdByte c 16 then (s.taken 0x0103 c).answer 0x0103 c (Answer.just St.badParam)
      else if ((s.taken 0x0103 c).phys c.target.toNat).scheduled = true ∨ ((s.taken 0x0103 c).phys c.target.toNat).schedPend ≠ [] ∨ ((s.taken 0x0103 c).phys c.target.toNat).modePend ≠ none then
        (s.taken 0x0103 c).answer 0x0103 c (Answer.just St.badState)
      else (s.taken 0x0103 c).onPhys c.target.toNat fun x => { x with modePend := some (cmdByte c 16, (s.taken 0x0103 c).ft, c) })) ∧
  (∀ (s0 s : State) (p m t : Nat) (c : Cmd) (old : List (Nat × Nat × Nat × Cmd)) (u : State), s = s0.seenFrom (4 + p / 2) → s.fatal = false →
    (s.phys p).modePend = some (m, t, c) → s.dueRebalance t = true →
    old = (match (s.phys p).modeWait with
      | some (t', b, c') => (s.phys p).modeOld ++ [((s.phys p).mode, t', b, c')]
      | none => (s.phys p).modeOld) →
    u = ((((modePorts p (s.phys p).mode).foldl (fun v n => v.portDown n false) s).pinClear (16 + p)).pinClear (20 + p)).onPhys p (fun x => { x with
      mode := m, modePend := none, modeWait := some (t, s.rebalanceFt, c), modeOld := old }) →
    exec (.portModePoint p) s0 = .next (s0.backFrom ((modePorts p m).foldl (fun v n => v.onLogical n fun x => { x with training := true, dropped := false, remapped := false }) u))) ∧
  (∀ (s0 s : State) (p : Nat), s = s0.seenFrom (4 + p / 2) → s.fatal = false → ((s.phys p).modePend.all fun x => !s.dueRebalance x.2.1) = true →
    exec (.portModePoint p) s0 = .next (s0.backFrom (s.modeReply p))) ∧
  (∀ (s : State) (p m t b : Nat) (c : Cmd), (s.phys p).modeWait = some (t, b, c) → (s.phys p).modeOld = [] → m = (s.phys p).mode →
    s.modeReply p = if (modePorts p m).all (fun n => s.linkUp n) = true ∨ t + 500000000 ≤ s.ft then
      (s.onPhys p fun x => { x with modeWait := none }).reply 0x0103 c false { Answer.ok m with ft := some b } else s) ∧
  (∀ (s : State) (n : Nat) (lost remapped : Bool) (u v : State) (l : List LogPort), s.fatal = false → s.pins.sysclk = true →
    (s.twill.logical.getD n LogPort.reset).training = true → n ∈ modePorts (n / 8) (s.phys (n / 8)).mode →
    u = (s.onLogical n fun x => { x with dropped := lost, remapped := remapped }) →
    l = (modePorts (n / 8) (s.phys (n / 8)).mode).map (fun m => u.twill.logical.getD m LogPort.reset) →
    v = ((if l.any (·.remapped) = true then u.pinFault (16 + n / 8) else u.pinClear (16 + n / 8)).pinFollow (20 + n / 8)
      (l.any (·.dropped))) →
    exec (.portTrained n lost remapped) s = .next (if lost then v
      else ((v.onLogical n fun x => { x with up := true, training := false }).linkChange n true).modeReply (n / 8))) ∧
  (∀ (s : State) (n : Nat), exec (.networkLinkDown n) s = .next (if s.linkUp n = true then s.portDown n true else s)) ∧
  (∀ (s u : State) (n : Nat) (training : Bool),
    u = (s.onLogical n fun x => { x with up := false, training := training }).raise (sourceNo (4 + n / 16) (n % 16)) n 0 .dev →
    s.portDown n training = u.discardQueues (fun k => match k with
      | .port m _ => m == n
      | k => match k.group with
        | some d => (u.twill.dgs.get d).any (·.port == n)
        | none => false) 7 St.linkDown) ∧
  (∀ (s : State) (c : Cmd) (who : Caller) (x : LogPort), s.accepts 0x0104 c who false true true = true →
    x = (s.taken 0x0104 c).twill.logical.getD c.target.toNat LogPort.reset →
    exec (.devPortQuery c) s = .next (
      (s.taken 0x0104 c).useFree.answer 0x0104 c ({ Answer.ok with
        data := Config.layout 0x0104 [b2n x.up, if c.target.toNat ∈ modePorts (c.target.toNat / 8) ((s.taken 0x0104 c).phys (c.target.toNat / 8)).mode then
          8 / 2 ^ ((s.taken 0x0104 c).phys (c.target.toNat / 8)).mode else 0, b2n x.dropped, (s.taken 0x0104 c).freeVal] }))) ∧
  (∀ (s : State), exec .sampleRecordLatch s = .next (if s.fatal = false ∧ s.onRebalance = true then
      s.onTwill fun w => { w with queues := w.queues.map fun q => match q.key with
        | .port n t => q.relatch (sampleRecord (w.queues.filter fun x => x.key == .port n t))
        | .source qid => q.relatch (if (s.queue qid).any (·.shaper.sample) then sampleRecord [q] else zeros 16)
        | _ => q } else s))

/-- A PKT_TX entry starts, a PKT_RX buffer is posted, and a frame is delivered to it; an empty spoof set passes no frame.
A SEND entry that may start, with room for its frame and credit in its shaper, becomes an operation whose data is
read; a launch time already past is counted. Without room it waits, with its shaper refilled, and without credit it
waits. A POST entry that may start becomes an operation. A frame at the head of the source queue of a PKT_RX queue
with a posted buffer waits until the shaper lets it pass, and is then delivered to the oldest buffer: its bytes
without a stripped tag are written, as many as fit, and a completion with the frame's length, hash and stamp finishes
the operation; a device address that is not mapped ends it with a path status. The spoof sets of a new slice pass no
frame; those with ANY_MAC, ANY_VLAN and ANY_IP pass every frame of at most four tags. Completes, with exec answering a
next state under conditions on the state and the operands alone: pktTxSend, pktRxPost, pktRxDeliver. -/
def Obligations.PacketQueuesSendAndDeliver : Prop :=
  (∀ (s r v : State) (qid n len : Nat) (p q : Queue) (e : Bytes) (x : State × Bool) (y : State), s.readyHead qid = some (p, e) → p.cls = .pktTx →
    entryOp e = 1 → r = s.refill qid → r.queue qid = some q → len = txLen e (fragTotal (entryFrags .pktTx e p.headFrags)) →
    x = s.shaperGo qid (frameCharge q.shaper.overhead len) →
    y = (match launchOf e with
      | some t => if t < x.1.ft then x.1.count Ct.twill q.home 12 else x.1
      | none => x.1) →
    y.newOp qid e (entryFrags .pktTx e p.headFrags) = (v, n) →
    exec (.pktTxSend qid) s = .next (if r.txRoom q qid e len = false then r else if x.2 = false then x.1
      else (v.readFrags n q.owner 0 (entryFrags .pktTx e p.headFrags)).txGo qid)) ∧
  (∀ (s : State) (qid : Nat) (q : Queue) (e : Bytes), s.readyHead qid = some (q, e) → q.cls = .pktRx → entryOp e = 2 →
    exec (.pktRxPost qid) s = .next (s.newOp qid e (entryFrags .pktRx e none)).1) ∧
  (∀ (s : State) (qid n : Nat) (q : Queue) (f : TwFrame) (l : List TwFrame) (o : Op) (r : RxFrame) (p : Parse) (x : State × Bool),
    s.queue qid = some q → s.twFrames (s.sourceTile qid q.home) (.source qid) = f :: l →
    s.qm.ops.find? (fun (_, o) => o.qid == qid) = some (n, o) →
    s.fatal = false → q.cls = .pktRx → s.ownerHeld q.owner = false → s.ownerResetting q.owner = false → f.rx = some r →
    r.parse = some p → x = s.shaperGo qid (frameCharge (((s.refill qid).queue qid).getD q).shaper.overhead f.bytes.length) →
    exec (.pktRxDeliver qid) s = .next (if x.2 = true then x.1.rxDeliver qid q n o r p else x.1)) ∧
  (∀ (s : State) (qid n k : Nat) (q : Queue) (o : Op) (r : RxFrame) (p : Parse) (d : Frag) (bt : Bytes × Option Nat) (x : State × Bool)
    (c : Bytes), d = o.frags.headD { addr := 0, len := 0, dev := false } → bt = stripVlan r p → k = min bt.1.length d.len →
    x = ((s.popTw (s.sourceTile qid q.home) (.source qid)).sampleRec r 3 0 qid).writeData q.owner d (bt.1.take k) →
    (d.dev = false ∨ x.2 = true →
      c = rxCompl o.entry qid q.ts4400 r p bt.2 k (decide (d.len < bt.1.length)) →
      s.rxDeliver qid q n o r p = (x.1.onQm fun m => { m with ops := m.ops.del n }).finish qid o.idx (
        { qid := qid, ok := (if d.len < bt.1.length then St.rxTruncated else St.ok) == St.ok, suppressed := false, bytes := c
          data := none, event := false, tag := none, tile := some o.tile } : Compl) (if d.len < bt.1.length then St.rxTruncated else St.ok) k) ∧
    (d.dev = true → x.2 = false → c = rxCompl o.entry qid q.ts4400 r p bt.2 0 (decide (d.len < bt.1.length)) →
      s.rxDeliver qid q n o r p = (x.1.onQm fun m => { m with ops := m.ops.del n }).finish qid o.idx (
        { qid := qid, ok := false, suppressed := false, bytes := splice c 4 (toLe 2 St.hostWriteErr)
          data := none, event := false, tag := none, tile := some o.tile } : Compl)
          St.hostWriteErr 0)) ∧
  (∀ (b : Bytes), SpoofSets.empty.passes b = false) ∧
  (∀ (x : SpoofSets) (b : Bytes), x.anyMac = true → x.anyVlan = true → x.anyIp = true → etherAfter (b.take 128) 12 4 ≠ none →
    x.passes b = true)

/-- A KRM connection is created, given its peer, opened, queried and destroyed in the order of its states. KRM_CONN_CREATE
on a free CID binds it to its owner with the generation of that CID, to be PENDING at the next frame boundary; on a
PENDING CID it sets the peer and replies. At a frame boundary a PENDING connection that is to open is OPEN with the
initial window of IW segments, at least MSS + 114, and raises its event. KRM_CONN_DESTROY of a connection without
claims makes it go to CLOSING; when its accesses are accepted it is unbound with a reply. KRM_CONN_QUERY replies with
its state. Completes, with exec answering a next state under conditions on the state and the operands alone:
krmConnCreate, krmConnSetPeer, krmConnDestroy, connDestroyComplete, krmConnQuery, connTransition. -/
def Obligations.ConnectionsAreCreatedOpenedAndDestroyed : Prop :=
  (∀ (s : State) (c : Cmd) (who : Caller) (env : BkEnv) (f : FnRef), s.bkAccepts 0x0601 c who env false true false = true →
    who = .fn f →
    s.isSetPeer c = false →
    (s.served 0x0601 c).isSetPeer c = false →
    c.pbLen = 64 →
    (s.served 0x0601 c).connCreateCheck c = none →
    bit (cmdByte c 20) 5 = false →
    c.target.toNat ≠ targetNone →
    ThenBuckram (.krmConnCreate c) env s (
      ((((s.served 0x0601 c).useFree.useFree.dropCounters Ct.conn c.target.toNat).onKrm fun x => { x with
        conns := x.conns.set c.target.toNat (newConn c (.function f) (cmdByte c 20 / 64) (((s.served 0x0601 c).krm.gens.get c.target.toNat).getD 0)
          (s.served 0x0601 c).ft) }).onDamask fun d => { d with homePend := d.homePend ++ [(c.target.toNat, some (cmdByte c 20 / 64))] }))) ∧
  (∀ (s : State) (c : Cmd) (who : Caller) (env : BkEnv) (t : State), s.bkAccepts 0x0601 c who env false true false = true →
    s.isSetPeer c = true →
    (s.served 0x0601 c).isSetPeer c = true →
    t = ((s.served 0x0601 c).onConn c.target.toNat fun k => { k with peer := some (cmdLe c 16 4) }).tryOpen c.target.toNat →
    ThenBuckram (.krmConnSetPeer c) env s (
      (t).bkAnswer 0x0601 c (Answer.ok c.target.toNat (((t.conn c.target.toNat).map (·.cgen)).getD 0)))) ∧
  (∀ (s : State) (c : Cmd) (who : Caller) , s.accepts 0x0602 c who false true true = true →
    (s.taken 0x0602 c).cmd.mailbox.length < 256 →
    (s.taken 0x0602 c).connDestroyCheck c.target.toNat = none →
    exec (.krmConnDestroy c) s = .next (
      ((s.taken 0x0602 c).connNext c.target.toNat .closing).toBuckram 0x0602 c who)) ∧
  (∀ (s0 s : State) (cid t : Nat) (c : Conn), s = s0.seenFrom (s0.connDie cid) → s.conn cid = some c → s.fatal = false → c.next = [(.open, t)] → c.state = .pending →
    s.onFrame = true → nextFrame t ≤ s.ft → exec (.connTransition cid) s0 = .next (s0.backFrom ((s.onConn cid fun c => { c with
        next := [], state := .open, cwnd := max c.cwndFloor (c.iw * c.mss), sndNext := Config.firstPsn % 2 ^ 32
        at' := (Config.firstPsn + 2 ^ 32 - 1) % 2 ^ 32 }).raise (sourceNo c.home 448) cid ConnState.open.code (.own c.owner)))) ∧
  (∀ (s : State) (cid : Nat) (c : Conn) (k : Cmd), s.conn cid = some c → c.destroyCmd = some k → s.fatal = false →
    c.state = .closing → s.connQuiet c = true →
    exec (.connDestroyComplete cid) s = .next ((s.freeConn cid c).reply 0x0602 k true Answer.ok)) ∧
  (∀ (s : State) (c : Cmd) (who : Caller) (k : Conn), s.accepts 0x0603 c who false true true = true →
    (s.taken 0x0603 c).conn c.target.toNat = some k →
    exec (.krmConnQuery c) s = .next (
      (s.taken 0x0603 c).answer 0x0603 c ({ Answer.ok with data := (s.taken 0x0603 c).connBytes c.target.toNat k })))

/-- Windows open, change and move on at frame boundaries, and an access is checked against the window it names.
KRM_WINDOW_OPEN, MODIFY and REVOKE wait for their frame boundary, REVOKE with the next generation; there the
descriptor changes, and an OPEN replies with its key. An access whose key names the generation of an OPEN window of
the connection's owner, with the permission and within the length, goes to BASE plus its offset; an older generation
of an OPEN window is refused as revoked, and any other access as denied. Completes, with exec answering a next state
under conditions on the state and the operands alone: krmWindowOpen, krmWindowModify, krmWindowRevoke,
windowChangeEffect. -/
def Obligations.WindowsOpenChangeAndRefuse : Prop :=
  (∀ (s : State) (c : Cmd) (who : Caller) (env : BkEnv) (i : Nat), s.bkAccepts 0x0604 c who env false true true = true →
    winParamsOk c false = true →
    (s.served 0x0604 c).freeWindow = some i →
    (s.served 0x0604 c).krm.windows.get i = none →
    ThenBuckram (.krmWindowOpen c) env s (
      ((s.served 0x0604 c).useFree.onKrm fun k => { k with windows := k.windows.set i (Window.unused who.owner) }).winLater i {
        base := winBase c, wlen := winLen c, perm := winPerm c, gen := 0, state := .open, accepted := (s.served 0x0604 c).ft
        code := 0x0604, cmd := c, key := i * 1024 })) ∧
  (∀ (s : State) (c : Cmd) (who : Caller) (env : BkEnv) , s.bkAccepts 0x0605 c who env false true true = true →
    winParamsOk c true = true →
    winLen c ≠ 0 →
    ThenBuckram (.krmWindowModify c) env s (
      (s.served 0x0605 c).winLater (c.target.toNat / 1024) {
        base := winBase c, wlen := winLen c, perm := winPerm c, gen := c.target.toNat % 1024, state := .open
        accepted := (s.served 0x0605 c).ft, code := 0x0605, cmd := c, key := 0 })) ∧
  (∀ (s : State) (c : Cmd) (who : Caller) (env : BkEnv) (w : Window), s.bkAccepts 0x0606 c who env false true true = true →
    (s.served 0x0606 c).krm.windows.get (c.target.toNat / 1024) = some w →
    c.target.toNat % 1024 < 1023 →
    ThenBuckram (.krmWindowRevoke c) env s (
      (s.served 0x0606 c).winLater (c.target.toNat / 1024) {
        base := w.latestRange.1, wlen := w.latestRange.2.1, perm := w.latestRange.2.2, gen := c.target.toNat % 1024 + 1
        state := .open, accepted := (s.served 0x0606 c).ft, code := 0x0606, cmd := c
        key := c.target.toNat / 1024 * 1024 + c.target.toNat % 1024 + 1 })) ∧
  (∀ (s : State) (i : Nat) (w : Window) (x : WinChange), s.krm.windows.get i = some w → s.fatal = false → w.pend = [x] →
    x.code = 0x0604 → s.onFrame = true → nextFrame x.accepted ≤ s.ft → exec (.windowChangeEffect i) s =
      .next (((s.onKrm fun k => { k with windows := k.windows.mod i fun w => { w with
        base := x.base, wlen := x.wlen, perm := x.perm, gen := x.gen, state := x.state
        pend := w.pend.filter fun y => !s.dueFrame y.accepted
        waits := w.waits } }).writeWindow i).reply 0x0604 x.cmd true { Answer.ok x.key with ft := some s.frameFt }).windowReplies) ∧
  (∀ (s : State) (c : Conn) (w : Window) (i off len p : Nat), s.krm.windows.get i = some w → s.areaPoisoned windowRegion (i * 32) = false →
    w.gen < 1024 → (w.state = .open → w.owner = c.owner → bit w.perm p = true → off + len ≤ w.wlen →
      s.windowCheck c (i * 1024 + w.gen) off len p = .inl ((w.base + off) % 2 ^ 64)) ∧
    (∀ g, g < 1024 → w.state = .open → g ≠ w.gen → s.windowCheck c (i * 1024 + g) off len p = .inr 1) ∧
    (w.state ≠ .open ∨ w.owner ≠ c.owner ∨ bit w.perm p = false ∨ w.wlen < off + len →
      s.windowCheck c (i * 1024 + w.gen) off len p = .inr 2)) ∧
  (∀ (s : State) (c : Conn) (key off len p : Nat), s.krm.windows.get (key / 1024) = none → s.windowCheck c key off len p = .inr 2)

/-- KRM packets are received, their writes accepted and reads served, and packets are sent and sent again on time. A frame
that is no KRM packet is counted and dropped, and so is one that names no connection in use with its generation; one
for an uncached connection waits, one for a cached one is taken by it: a sealed one waits in the packet buffer for its
slices of the Calico engine, where there is room for it, else it is counted and dropped. A connection that is not
OPEN, another source and a missing or unwanted seal are counted. State that can be read enters the cache, else the
connection fails. An accepted write of a WRITE, a READ_RESP or a SEND is consumed in the receive record and
acknowledged as R261 says, or refused with its NAK; a read served is answered with its packets, or with the NAK for
its failure. On a connection no longer OPEN neither answers. A cached OPEN connection sends the control packets that
waited and its next packet; an ACK is sent when due; at a frame boundary past the timeout the oldest packet is sent
again, or the connection fails at its limit; packets refused for want of a buffer are sent again after their wait.
Completes, with exec answering a next state under conditions on the state and the operands alone: krmPacketReceive,
krmStateFetched, krmWriteAccepted, krmReadResponse, krmPacketSend, krmAckTimer, krmRetransmitTimeout, krmRnrRetry. -/
def Obligations.KrmPacketsAreReceivedAndSent : Prop :=
  (∀ (s : State) (n : Nat) (f : RxFrame) (p : Parse), s.fatal = false → s.twill.frames.get n = some f → f.stage = .krm →
    f.parse = some p → (krmPacket f ((s.versionOf f).parse f.bytes f.port ((s.versionOf f).profile f.port).depth) p.l4Ok = none →
      exec (.krmPacketReceive n) s = .next ((s.count Ct.krm (s.krmTile f
        ((s.versionOf f).parse f.bytes f.port ((s.versionOf f).profile f.port).depth)) 4).delFrame n)) ∧
    (∀ k, krmPacket f ((s.versionOf f).parse f.bytes f.port ((s.versionOf f).profile f.port).depth) p.l4Ok = some k →
      (s.conn (be k.header 4 4 / 4096) = none → exec (.krmPacketReceive n) s = .next ((s.count Ct.krm f.tile 5).delFrame n)) ∧
      (∀ c, s.conn (be k.header 4 4 / 4096) = some c →
        (c.state = .free ∨ be k.header 4 4 % 4096 ≠ c.cgen →
          exec (.krmPacketReceive n) s = .next ((s.count Ct.krm c.home 5).delFrame n)) ∧
        (c.state ≠ .free → be k.header 4 4 % 4096 = c.cgen → exec (.krmPacketReceive n) s =
          .next (if s.cachedConn (be k.header 4 4 / 4096) = true then s.krmTake n (be k.header 4 4 / 4096) c k else s))))) ∧
  (∀ (s : State) (n cid : Nat) (c : Conn) (k : KrmPkt),
    (∀ w, s.cy.inlineWork.find? (fun w => w.frame == some n) = some w →
      s.krmTake n cid c k = if w.left = 0 then (s.delFrame n).krmForConn cid c k else s) ∧
    (s.cy.inlineWork.find? (fun w => w.frame == some n) = none →
      (s.krmToOpen c k = false → s.krmTake n cid c k = (s.delFrame n).krmForConn cid c k) ∧
      (s.krmToOpen c k = true → s.heldBytes c.home + 32 + k.rest.length ≤ 33554432 →
        s.krmTake n cid c k = s.inlineItem c.home 0 (16 + k.rest.length) (some n) (32 + k.rest.length)) ∧
      (s.krmToOpen c k = true → 33554432 < s.heldBytes c.home + 32 + k.rest.length →
        s.krmTake n cid c k = (s.delFrame n).krmCount cid 11))) ∧
  (∀ (s u : State) (cid : Nat) (c : Conn) (k : KrmPkt),
    u = (s.krmCount cid 1).krmCount cid 3 (if hOpc k.header = 2 then 0 else hLen k.header) →
    (c.state ≠ .open → s.krmForConn cid c k = u.krmCount cid 6) ∧
    (c.state = .open → k.src ≠ c.peerIp ∨ k.port ≠ u.peerUdp c → s.krmForConn cid c k = u.krmCount cid 7) ∧
    (c.state = .open → k.src = c.peerIp → k.port = u.peerUdp c → bit (byteAt k.header 0) 3 ≠ c.sealed →
      s.krmForConn cid c k = u.krmCount cid 8)) ∧
  (∀ (s : State) (cid : Nat), s.fatal = false →
    (s.areaPoisoned connRegion (cid * 128) = false → s.areaPoisoned connRegion (cid * 128 + 64) = false →
      exec (.krmStateFetched cid) s = .next ((s.areaMeet connRegion (cid * 128) 128).fetchConn cid)) ∧
    (s.areaPoisoned connRegion (cid * 128) = true ∨ s.areaPoisoned connRegion (cid * 128 + 64) = true →
      exec (.krmStateFetched cid) s = .next ((s.areaMeet connRegion (cid * 128) 128).connFail cid St.uncorrectable none none))) ∧
  (∀ (s u x : State) (cid psn : Nat) (c : Conn) (p : HeldPkt), s.fatal = false → s.conn cid = some c →
    c.hold.find? (fun p => p.psn == psn && p.admitted.isSome) = some p → u = s.onConn cid (·.consume psn) →
    x = (if hOpc p.header = 3 then
        (match c.reads.find? (fun (r : PendRead) => r.rtag == hW p.header) with
          | some r => ((u.onConn cid fun c => { c with reads := c.reads.map fun (r : PendRead) =>
              (if r.rtag = hW p.header then { r with left := r.left - p.body.length } else r) }).onOp r.op fun o =>
              { o with bytes := o.bytes + p.body.length }).krmCheck cid r.op
          | none => u.onConn cid fun c => { c with reads := c.reads.map fun (r : PendRead) =>
              (if r.rtag = hW p.header then { r with left := r.left - p.body.length } else r) })
      else if hOpc p.header = 4 then u.sendApplied cid p.header else u) →
    (c.state ≠ .open → exec (.krmWriteAccepted cid psn) s = .next x.windowReplies) ∧
    (c.state = .open → (p.refuse = none → exec (.krmWriteAccepted cid psn) s =
        .next (((x.afterApply cid psn (hPfl p.header) p.ce p.waited).drainHold cid c.hold.length).windowReplies)) ∧
      (∀ r, p.refuse = some r → exec (.krmWriteAccepted cid psn) s =
        .next (((x.nak cid r psn).drainHold cid c.hold.length).windowReplies)))) ∧
  (∀ (s u : State) (cid psn t : Nat) (c : Conn) (r : Served) (e : ReadEnd), s.fatal = false → s.serveTag cid psn = some t →
    s.conn cid = some c → c.served.find? (fun (r : Served) => r.psn == psn) = some r →
    u = (s.dropRead t).onConn cid (fun c => { c with served := c.served.filter (·.psn != psn) }) →
    (c.state ≠ .open → exec (.krmReadResponse cid psn e) s = .next u.windowReplies) ∧
    (c.state = .open → exec (.krmReadResponse cid psn e) s = .next (((match e with
      | .data b => u.onConn cid fun d => { d with queue := d.queue ++ respPackets c r (sliceZ b 0 r.len) }
      | .timeout => u.nak cid 5 psn
      | .poisoned => u.nak cid 7 psn
      | _ => u.nak cid 6 psn).drainHold cid c.hold.length).windowReplies))) ∧
  (∀ (s : State) (cid : Nat) (c : Conn), s.conn cid = some c → s.fatal = false → c.state = .open → s.cachedConn cid = true →
    exec (.krmPacketSend cid) s = .next ((c.ctl.foldl (fun s (o, r, n) => s.sendCtl cid o r n) s).krmSend cid)) ∧
  (∀ (s : State) (cid t : Nat) (c : Conn), s.conn cid = some c → s.fatal = false → c.state = .open → c.ackDue = some t → t ≤ s.ft →
    exec (.krmAckTimer cid) s = .next (s.ackNow cid)) ∧
  (∀ (s : State) (cid : Nat) (c : Conn) (p : SentPkt), s.conn cid = some c → c.oldest = some p → s.fatal = false → c.state = .open →
    s.onFrame = true → p.rnrAt = none → p.lastFt + min 100000000 (c.rto * 2 ^ c.backoff) ≤ s.ft →
    (c.retryMax ≤ c.backoff → exec (.krmRetransmitTimeout cid) s =
      .next ((s.krmCount cid 17).connFail cid St.remoteTimeout p.op p.piece)) ∧
    (c.backoff < c.retryMax → exec (.krmRetransmitTimeout cid) s = .next (((s.krmCount cid 17).onConn cid fun c => { c with
      backoff := c.backoff + 1, cwnd := c.cwndFloor, roundEnd := some ((c.sndNext + 2 ^ 32 - 1) % 2 ^ 32)
      sent := c.sent.map fun (q : SentPkt) => { q with resend := q.resend || q.psn == p.psn, lost := true } }).krmSend cid))) ∧
  (∀ (s : State) (cid : Nat) (c : Conn) (l : List SentPkt), s.conn cid = some c → s.fatal = false → c.state = .open → s.onFrame = true →
    l = c.sent.filter (fun p => p.rnrAt.any (· ≤ s.ft)) → l ≠ [] → exec (.krmRnrRetry cid) s =
      .next (((s.krmCount cid 18 l.length).onConn cid fun c => { c with sent := c.sent.map fun (p : SentPkt) =>
        (if p.rnrAt.any (· ≤ s.ft) then { p with rnrAt := none, resend := true } else p) }).krmSend cid))

/-- KRM_WRITE, KRM_READ and KRM_SEND entries become operations of their connection, and KRM_RQ buffers are posted. A
KRM_SQ entry that may start, on an OPEN cached connection of its owner that no volume has claimed, and let pass by its
shaper, becomes an operation: a WRITE and a SEND read their data, a READ does not, and the connection takes up what
may join its queue. Without credit in the shaper it waits, and while its connection is not cached it waits. Where no
connection has its CID, or one of another owner, it ends with S_DENIED as a spoof event; on a connection that has left
OPEN or is claimed it ends with S_BAD_STATE. A KRM_RQ POST becomes an operation when its shaper lets it pass, and
waits till then. Completes, with exec answering a next state under conditions on the state and the operands alone:
krmWrite, krmRead, krmSend, krmRqPost. -/
def Obligations.KrmEntriesStart : Prop :=
  (∀ (s x : State) (qid o : Nat) (q : Queue) (e : Bytes), s.readyHead qid = some (q, e) → q.cls = .krmSq → entryOp e = o →
    (s.conn (krmCid e)).any (fun c => c.owner == q.owner) = false →
    x = (s.spoofFailed q.owner 1).endHead qid St.denied (krmCid e) e →
    (o = 1 → exec (.krmWrite qid) s = .next x) ∧ (o = 2 → exec (.krmRead qid) s = .next x) ∧
    (o = 3 → exec (.krmSend qid) s = .next x)) ∧
  (∀ (s x : State) (qid o : Nat) (q : Queue) (e : Bytes) (c : Conn) (y : State × Bool) (z : State × Nat), s.readyHead qid = some (q, e) →
    q.cls = .krmSq → entryOp e = o → s.conn (krmCid e) = some c → c.owner = q.owner →
    y = s.shaperGo qid (fragTotal (entryFrags .krmSq e q.headFrags)) →
    z = y.1.newOp qid e (entryFrags .krmSq e q.headFrags) →
    x = (if c.state ≠ .open ∨ c.claims ≠ 0 then s.endHead qid St.badState (krmCid e) e
      else if s.cachedConn (krmCid e) = false then s
      else if y.2 = false then y.1
      else if o = 2 then z.1.krmGo (krmCid e)
      else (z.1.readFrags z.2 q.owner 0 (entryFrags .krmSq e q.headFrags)).krmGo (krmCid e)) →
    (o = 1 → exec (.krmWrite qid) s = .next x) ∧ (o = 2 → exec (.krmRead qid) s = .next x) ∧
    (o = 3 → exec (.krmSend qid) s = .next x)) ∧
  (∀ (s : State) (qid : Nat) (q : Queue) (e : Bytes) (y : State × Bool), s.readyHead qid = some (q, e) → q.cls = .krmRq → entryOp e = 1 →
    y = s.shaperGo qid (fragTotal (entryFrags .krmRq e q.headFrags)) →
    exec (.krmRqPost qid) s = .next (if y.2 = true then (y.1.newOp qid e (entryFrags .krmRq e q.headFrags)).1 else y.1))

/-- Volumes are created, queried, tested and destroyed, each command with its reply. BLK_VOLUME_CREATE of a remote volume
claims its members' connections and is READY at once unless it is encrypted; of a RAM volume it takes a region.
BLK_VOLUME_DESTROY of a volume that no command names removes it. BLK_VOLUME_QUERY replies with 64 bytes. BLK_SELFTEST
starts a short or an extended test of a volume that is not being tested, or aborts the test; a test request, in its
turn and with no piece of its tile to issue, of a RAM member reads the lines of its unit, which is good where none is
poisoned, and otherwise gives the first block that failed; of a remote member whose connection is OPEN it is sent: a
PING, or a VERIFY of a stripe unit. Completes, with exec answering a next state under conditions on the state and the
operands alone: blkVolumeCreate, blkVolumeDestroy, blkVolumeQuery, blkSelftestStart, blkSelftestAbort,
blkSelftestQuery, selftestRequest. -/
def Obligations.VolumesAndTheirSelfTests : Prop :=
  (∀ (s : State) (c : Cmd) (who : Caller) (env : BkEnv) (vid : Nat), s.bkAccepts 0x0701 c who env false true false = true →
    volumeLenOk c = true →
    (s.served 0x0701 c).volumeCreateCheck c who = none →
    bit (cmdByte c 16) 3 = false →
    vid = (if c.target.toNat = targetNone then
        (chooseFree (s.served 0x0701 c).freeVal 16384 (s.served 0x0701 c).blk.volumes.length (s.served 0x0701 c).blk.volumes.has).getD 0 else c.target.toNat) →
    ThenBuckram (.blkVolumeCreate c) env s (
      (((s.served 0x0701 c).useFree.claim (createMembers c)).onBlk fun b => { b with
        volumes := b.volumes.set vid (newVolume c who.owner none (s.served 0x0701 c).ft) }).bkAnswer 0x0701 c (Answer.ok vid))) ∧
  (∀ (s : State) (c : Cmd) (who : Caller) (env : BkEnv) (u : State) (r vid : Nat), s.bkAccepts 0x0701 c who env false true false = true →
    volumeLenOk c = true →
    (s.served 0x0701 c).volumeCreateCheck c who = none →
    bit (cmdByte c 16) 3 = true →
    vid = (if c.target.toNat = targetNone then
        (chooseFree (s.served 0x0701 c).freeVal 16384 (s.served 0x0701 c).blk.volumes.length (s.served 0x0701 c).blk.volumes.has).getD 0 else c.target.toNat) →
    (s.served 0x0701 c).useFree.newRegion none .function (cmdLe c 24 8 * (if bit (cmdByte c 16) 4 then 4096 else 512)) (some who.owner) = some (u, r) →
    ThenBuckram (.blkVolumeCreate c) env s (
      (u.onBlk fun b => { b with
        volumes := b.volumes.set vid { newVolume c who.owner none (s.served 0x0701 c).ft with region := some r } }).bkAnswer 0x0701 c (Answer.ok vid))) ∧
  (∀ (s : State) (c : Cmd) (who : Caller) (env : BkEnv) , s.bkAccepts 0x0701 c who env false true false = true →
    volumeLenOk c = true →
    (s.served 0x0701 c).volumeCreateCheck c who = none →
    bit (cmdByte c 16) 3 = true →
    (s.served 0x0701 c).useFree.newRegion none .function (cmdLe c 24 8 * (if bit (cmdByte c 16) 4 then 4096 else 512)) (some who.owner) = none →
    ThenBuckram (.blkVolumeCreate c) env s (
      ((s.served 0x0701 c).useFree).bkAnswer 0x0701 c (Answer.just St.noResource))) ∧
  (∀ (s : State) (c : Cmd) (who : Caller) (env : BkEnv) (v : Volume), s.bkAccepts 0x0702 c who env false true true = true →
    (s.served 0x0702 c).volume c.target.toNat = some v →
    (s.served 0x0702 c).volumeBusy c.target.toNat = false →
    ThenBuckram (.blkVolumeDestroy c) env s (
      ((s.served 0x0702 c).dropVolume c.target.toNat v).bkAnswer 0x0702 c (Answer.ok))) ∧
  (∀ (s : State) (c : Cmd) (who : Caller) (v : Volume), s.accepts 0x0703 c who false true true = true →
    (s.taken 0x0703 c).volume c.target.toNat = some v →
    exec (.blkVolumeQuery c) s = .next (
      (s.taken 0x0703 c).answer 0x0703 c ({ Answer.ok with data := (s.taken 0x0703 c).volumeBytes c.target.toNat v }))) ∧
  (∀ (s : State) (vid : Nat) (v : Volume), (s.volumeBytes vid v).length = 64 ∧ le (s.volumeBytes vid v) 8 8 = v.nblocks % 2 ^ 64 ∧
    le (s.volumeBytes vid v) 24 8 = v.cmds % 2 ^ 64) ∧
  (∀ (s : State) (c : Cmd) (who : Caller) (v : Volume) (t : TestState), s.accepts 0x0705 c who false true true = true →
    (s.taken 0x0705 c).volume c.target.toNat = some v →
    v.testing = false →
    cmdByte c 16 = 0 ∧ t = .short ∨ cmdByte c 16 = 1 ∧ t = .extended →
    exec (.blkSelftestStart c) s = .next (
      ((s.taken 0x0705 c).onVolume c.target.toNat fun v => { v with
        test := t, testNext := List.replicate v.span 0, testDone := 0, testBad := false, failLba := none, testBusy := [] }).answer 0x0705 c (Answer.ok t.code))) ∧
  (∀ (s : State) (c : Cmd) (who : Caller) (v : Volume), s.accepts 0x0705 c who false true true = true →
    (s.taken 0x0705 c).volume c.target.toNat = some v →
    v.testing = true →
    cmdByte c 16 = 2 →
    exec (.blkSelftestAbort c) s = .next (
      ((s.taken 0x0705 c).testEnd c.target.toNat v .aborted).answer 0x0705 c (Answer.ok (((((s.taken 0x0705 c).testEnd c.target.toNat v .aborted).volume c.target.toNat).map (·.test.code)).getD 0)))) ∧
  (∀ (s : State) (c : Cmd) (who : Caller) (v : Volume), s.accepts 0x0706 c who false true true = true →
    (s.taken 0x0706 c).volume c.target.toNat = some v →
    exec (.blkSelftestQuery c) s = .next (
      (s.taken 0x0706 c).answer 0x0706 c (Answer.ok v.test.code v.progress))) ∧
  (∀ (s : State) (vid m k rg : Nat) (bad : Option Nat) (v : Volume), s.volume vid = some v → s.fatal = false → v.testing = true → m < v.span → k = v.testNext.getD m 0 →
    k < v.testCount v.test m → v.testTurn m k = true → v.testBusy.any (fun (x, _, _) => x == m) = false →
    v.testStale.any (·.1 == m) = false → s.blk.pieces.any (fun (_, p) => !p.issued && !p.done && match s.volume p.vid with
      | some x => s.memberTile p.vid x p.member == s.memberTile vid v m
      | none => false) = false →
    v.region = some rg → bad = (v.testUnit m k).bind (s.ramBad v rg) →
    exec (.selftestRequest vid m) s = .next (((s.ramMeet v rg (v.testUnit m k)).onVolume vid fun w => { w with
      testNext := w.testNext.set m (k + 1) }).testStep vid m bad.isNone bad)) ∧
  (∀ (s : State) (vid m k : Nat) (v : Volume) (c : Conn) (x : State × Nat), s.volume vid = some v → s.fatal = false → v.testing = true → m < v.span → k = v.testNext.getD m 0 →
    k < v.testCount v.test m → v.testTurn m k = true → v.testBusy.any (fun (x, _, _) => x == m) = false →
    v.testStale.any (·.1 == m) = false → s.blk.pieces.any (fun (_, p) => !p.issued && !p.done && match s.volume p.vid with
      | some x => s.memberTile p.vid x p.member == s.memberTile vid v m
      | none => false) = false →
    v.region = none → s.conn (v.member m).cid = some c →
    x = (s.onVolume vid fun w => { w with testNext := w.testNext.set m (k + 1) }).takeRtag →
    (c.state ≠ .open → exec (.selftestRequest vid m) s = .next s) ∧
    (c.state = .open → exec (.selftestRequest vid m) s = .next ((x.1.onVolume vid fun w => { w with
      testBusy := w.testBusy ++ [(m, x.2, k)] }).blkSend (v.member m).cid none (match v.testUnit m k with
        | none => capsule 7 (if v.bs = 4096 then 12 else 9) x.2 (v.member m).rvol 0 0 0
        | some u => capsule 5 (if v.bs = 4096 then 12 else 9) x.2 (v.member m).rvol (min v.nblocks ((u + 1) * v.bu) - u * v.bu)
            ((v.member m).rbase + u / v.span * v.bu) 0))))

/-- Block entries are split into pieces, pieces are issued and answered, and a queue reset ends what it finds. A BLK_SQ
entry that may start ends with the status of the check that it now fails; one that passes waits while ORDERED or its
shaper holds it, and then becomes a command of at most one piece a member. A piece on a PENDING connection waits, and
on one that is neither OPEN nor PENDING ends with S_BAD_STATE; with an OPEN one it waits for a place in the response
area and for its owner's bus mastering where it moves data, and is then sent, a WRITE once its data is read. A piece
of a RAM volume is done there. A message of a claimed connection is taken as a response: one of a wrong form is
counted, a READ's data goes on from the response area, any other ends its piece with the status of its target.
BLK_QUEUE_RESET of an ENABLED block queue ends its unstarted entries and aborts its pieces; pieces unanswered after
150 ms are abandoned; when all have ended the queue is ENABLED at P0 with the counts in the reply. Completes, with
exec answering a next state under conditions on the state and the operands alone: blkQueueReset, blkResetAbandon,
blkQueueResetComplete, blkRead, blkWrite, blkFlush, blkTrim, blkPieceIssue, blkRespReceive. -/
def Obligations.BlockCommandsAreSplitIssuedAndReset : Prop :=
  (∀ (s w : State) (qid op st : Nat) (q : Queue) (e : Bytes), s.readyHead qid = some (q, e) → q.cls = .blkSq → entryOp e = op →
    s.blkEntryCheck qid q.owner e (fragTotal (entryFrags .blkSq e q.headFrags)) = some st →
    w = s.endHead qid st (blkC12 e) e →
    (op = 1 → exec (.blkRead qid) s = .next w) ∧ (op = 2 → exec (.blkWrite qid) s = .next w) ∧
    (op = 3 → exec (.blkFlush qid) s = .next w) ∧ (op = 4 → exec (.blkTrim qid) s = .next w)) ∧
  (∀ (s w : State) (qid op : Nat) (q : Queue) (e : Bytes) (x : Volume) (y : State × Bool) (z : State × Nat),
    s.readyHead qid = some (q, e) → q.cls = .blkSq →
    entryOp e = op → s.volume (blkVid e) = some x →
    s.blkEntryCheck qid q.owner e (fragTotal (entryFrags .blkSq e q.headFrags)) = none →
    y = s.shaperGo qid (fragTotal (entryFrags .blkSq e q.headFrags)) →
    z = y.1.newOp qid e (entryFrags .blkSq e q.headFrags) →
    w = (if s.orderedOk qid e x = false then s else if y.2 = false then y.1 else
      ((blkSplit x z.2 (blkVid e) e).foldl (fun s p => s.onBlk fun b => { b with
        pieces := b.pieces.set b.nextPiece p, nextPiece := b.nextPiece + 1 })
      ((if x.span = 4 ∧ entryOrdered e = true then (z.1.count Ct.block q.home 0).count Ct.block q.home 1
          else z.1.count Ct.block q.home 0).onVolume (blkVid e) fun y => { y with
        cmds := (y.cmds + 1) % 2 ^ 48, vseq := y.vseq + 1 })).onOp z.2 fun o => { o with admitted := true }) →
    (op = 1 → exec (.blkRead qid) s = .next w) ∧ (op = 2 → exec (.blkWrite qid) s = .next w) ∧
    (op = 3 → exec (.blkFlush qid) s = .next w) ∧ (op = 4 → exec (.blkTrim qid) s = .next w)) ∧
  (∀ (v : Volume) (n vid : Nat) (e : Bytes), (blkSplit v n vid e).length ≤ v.span ∧
    (entryOp e = 3 → (blkSplit v n vid e).length = v.span) ∧ ((blkSplit v n vid e).map (·.member)).Nodup) ∧
  (∀ (s : State) (k : Nat) (p : Piece) (o : Op) (v : Volume) (q : Queue) (c : Conn), s.piece k = some p → s.op p.op = some o →
    s.volume p.vid = some v → s.queue o.qid = some q → s.fatal = false → p.issued = false → p.done = false → o.status = none →
    s.pieceHeld p v = false → v.ram = false →
    v.region = none → s.conn (v.member p.member).cid = some c →
    (c.state = .pending → exec (.blkPieceIssue k) s = .next s) ∧
    (c.state ≠ .pending → c.state ≠ .open → exec (.blkPieceIssue k) s = .next (s.pieceDone k St.badState 0 true)) ∧
    (c.state = .open → s.respPlace (s.memberTile p.vid v p.member) (p.respBytes v.bs) = none →
      exec (.blkPieceIssue k) s = .next s) ∧
    (∀ off u, c.state = .open → s.respPlace (s.memberTile p.vid v p.member) (p.respBytes v.bs) = some off →
      u = s.onPiece k (fun p => { p with issued := true, slot := some (s.memberTile p.vid v p.member, off) }) →
      (s.ownerHeld q.owner = true → p.bop = 1 ∨ p.bop = 2 → exec (.blkPieceIssue k) s = .next s) ∧
      (p.bop ≠ 2 → s.ownerHeld q.owner = false ∨ p.bop ≠ 1 → exec (.blkPieceIssue k) s = .next (u.pieceSend k p v [])) ∧
      (p.bop = 2 → s.ownerHeld q.owner = false → exec (.blkPieceIssue k) s = .next ((u.pieceReads k p.op q.owner o v
        (v.runs p.member (blkSpan o.entry).1 (blkSpan o.entry).2)).pieceForm k)))) ∧
  (∀ (s u : State) (k rg : Nat) (p : Piece) (o : Op) (v : Volume) (q : Queue), s.piece k = some p → s.op p.op = some o →
    s.volume p.vid = some v → s.queue o.qid = some q → s.fatal = false → p.issued = false → p.done = false → o.status = none →
    s.pieceHeld p v = false → v.ram = true →
    v.region = some rg → u = s.onPiece k (fun p => { p with issued := true, slot := none }) →
    (s.ownerHeld q.owner = true → p.bop = 1 ∨ p.bop = 2 → exec (.blkPieceIssue k) s = .next s) ∧
    (s.ownerHeld q.owner = false ∨ (p.bop ≠ 1 ∧ p.bop ≠ 2) → exec (.blkPieceIssue k) s = .next (
      if p.bop = 2 then (u.pieceReads k p.op q.owner o v
        (v.runs p.member (blkSpan o.entry).1 (blkSpan o.entry).2)).pieceForm k
      else if p.bop = 1 then (u.blkSlices p v).ramRead k o p.vid v rg q.owner
        (v.runs p.member (blkSpan o.entry).1 (blkSpan o.entry).2)
      else u.pieceDone k St.ok 0 true))) ∧
  (∀ (s : State) (cid : Nat) (c : Conn) (b : BlkMsg) (l : List BlkMsg), s.conn cid = some c → c.blkMsgs = b :: l → s.fatal = false →
    exec (.blkRespReceive cid) s = .next ((s.onConn cid fun c => { c with blkMsgs := l }).blkResp cid b)) ∧
  (∀ (s : State) (cid k : Nat) (b : BlkMsg) (p : Piece) (v : Volume), s.pieceOfTag cid b.rtag = some (k, p, v) →
    (b.respOk v.bs (p.respData v.bs b.tstat) = false →
      s.blkResp cid b = s.count Ct.block (((s.conn cid).map (·.home)).getD 0) 2) ∧
    (b.respOk v.bs (p.respData v.bs b.tstat) = true →
      (p.bop = 1 → b.tstat = 0 → s.blkResp cid b = s.respTaken k p v) ∧
      (p.bop ≠ 1 ∨ b.tstat ≠ 0 → s.blkResp cid b = s.pieceDone k (tstatStatus b.tstat) b.tstat true))) ∧
  (∀ (s : State) (c : Cmd) (who : Caller) (q : Queue), s.accepts 0x0704 c who false true true = true →
    (s.taken 0x0704 c).queue c.target.toNat = some q →
    q.cls = .blkSq →
    q.state = .enabled →
    exec (.blkQueueReset c) s = .next (
      ((((((s.taken 0x0704 c).onQueue c.target.toNat fun q => { q with
        state := .draining, resetAt := some (s.taken 0x0704 c).ft, resetEnd := q.p, resetTags := 0, resetAbandoned := 0
        resetCmd := some c }).writeBack c.target.toNat).resetConsume c.target.toNat 65536).abortPieces c.target.toNat).fetch c.target.toNat))) ∧
  (∀ (s : State) (qid t : Nat) (q : Queue), s.queue qid = some q → s.fatal = false →
    q.resetAt = some t → t + 150000000 ≤ s.ft →
    exec (.blkResetAbandon qid) s = .next ((s.blk.pieces.filter fun (_, p) => !p.done && (s.op p.op).any (·.qid == qid)).foldl
      (fun s (k, p) => ((s.count Ct.block (match s.volume p.vid with
          | some v => s.memberTile p.vid v p.member
          | none => 0) 3).onQueue qid fun q => { q with
        resetAbandoned := q.resetAbandoned + 1 }).pieceDone k St.abortedReset 0 false) s)) ∧
  (∀ (s : State) (qid : Nat) (q : Queue) (c : Cmd), s.queue qid = some q → s.fatal = false → q.resetCmd = some c → q.resetAt ≠ none →
    q.c = q.resetEnd → s.allFinished qid = true → exec (.blkQueueResetComplete qid) s =
      .next (((s.onQueue qid fun q => { q.dropCached with
        state := .enabled, p := q.resetEnd, c := q.resetEnd, f := q.resetEnd, resetAt := none, resetCmd := none }).writeBack qid).reply
          0x0704 c false (Answer.ok q.resetTags q.resetAbandoned)))

/-- Cipher channels are created, keyed through their page, given engine slices, queried and destroyed. CY_CHANNEL_CREATE
binds the channel with eight empty slots; CY_CHANNEL_DESTROY with its queue IDLE or DISABLED removes it. Through the
page of a bound channel a staging word is written, CY_KEY_CTRL stores or clears a key and zeroes the staging words,
and CY_JOB_DB rings the channel's queue; a write to an unbound page is counted. A slice table waits for its frame
boundary with its reply. An engine slice goes to the ready channel that its entry names, once in its row, after what
earlier rows produced is written; row 0 begins with a frame, and the next row 32 ns after the last. The previous key
of a connection is discarded at the end of its grace time. Completes, with exec answering a next state under
conditions on the state and the operands alone: cyChannelCreate, cyChannelDestroy, cySliceTableSet, sliceTableEffect,
cyQuery, rekeyGraceExpire, engineSlice, cyKeyStore256, cyKeyStore512, cyKeyClear, cyKeyDataWrite, cyJobDb. -/
def Obligations.CipherChannelsKeysAndSlices : Prop :=
  (∀ (s : State) (c : Cmd) (who : Caller) (env : BkEnv) (o : Owner) (q : Queue), s.bkAccepts 0x0801 c who env false true false = true →
    (s.served 0x0801 c).cyCreateCheck c who = none →
    (s.served 0x0801 c).cyOwner c who = some o →
    (s.served 0x0801 c).queue (cmdLe c 20 2) = some q →
    c.target.toNat ≠ targetNone →
    ThenBuckram (.cyChannelCreate c) env s (
      ((s.served 0x0801 c).onCy fun y => { y with chans := y.chans.set c.target.toNat (newCyChan c o who) }).bkAnswer 0x0801 c (Answer.ok c.target.toNat))) ∧
  (∀ (s : State) (c : Cmd) (who : Caller) (env : BkEnv) (x : CyChan), s.bkAccepts 0x0802 c who env false true true = true →
    (s.served 0x0802 c).cyChan c.target.toNat = some x →
    (s.served 0x0802 c).quiet x.jq = true →
    ThenBuckram (.cyChannelDestroy c) env s (
      ((s.served 0x0802 c).onCy fun y => { y with chans := y.chans.del c.target.toNat }).bkAnswer 0x0802 c (Answer.ok))) ∧
  (∀ (s : State) (f : FnRef) (page t : Nat) (x : CyChan) (v : W32), s.fatal = false → s.barOpen f = true →
    s.chanOfPage f page = some (t, x) →
    (field v.toNat 6 2 = 1 → exec (.cyKeyStore256 f page v) s = .next (s.onChanCy t (·.keyCtrl v.toNat))) ∧
    (field v.toNat 6 2 = 2 → exec (.cyKeyStore512 f page v) s = .next (s.onChanCy t (·.keyCtrl v.toNat))) ∧
    (field v.toNat 6 2 = 0 → exec (.cyKeyClear f page v) s = .next (s.onChanCy t (·.keyCtrl v.toNat)))) ∧
  (∀ (x : CyChan) (v k : Nat), k = v % 8 → x.wide = 0 →
    (x.keyCtrl v).staging = List.replicate 8 0 ∧
    (field v 6 2 = 1 → x.keyCtrl v = { x with
      slots := x.slots.set k (x.stagedKey 0), valid := if bit x.valid k then x.valid else x.valid + 2 ^ k
      staging := List.replicate 8 0 }) ∧
    (field v 6 2 = 0 → x.keyCtrl v = { x with
      slots := x.slots.set k (zeros 32), valid := if bit x.valid k then x.valid - 2 ^ k else x.valid
      staging := List.replicate 8 0 }) ∧
    (field v 6 2 = 2 → k % 2 = 1 → x.keyCtrl v = { x with err := x.err ||| 1, staging := List.replicate 8 0 })) ∧
  (∀ (s : State) (f : FnRef) (page w t : Nat) (x : CyChan) (v : W64), s.fatal = false → s.barOpen f = true → w < 8 →
    (s.chanOfPage f page = some (t, x) →
      exec (.cyKeyDataWrite f page w v) s = .next (s.onChanCy t fun x => { x with staging := x.staging.set w v })) ∧
    (s.chanOfPage f page = none → exec (.cyKeyDataWrite f page w v) s = .next (s.count Ct.func (fnWord f) 0))) ∧
  (∀ (s : State) (f : FnRef) (page t : Nat) (x : CyChan) (q : Queue) (v : W64), s.fatal = false → s.barOpen f = true →
    s.chanOfPage f page = some (t, x) → s.cyChan t = some x →
    (v.toNat % 65536 ≠ x.jq → exec (.cyJobDb f page v) s =
      .next ((s.onChanCy t fun x => { x with err := x.err ||| 2 }).count Ct.func (fnWord f) 0)) ∧
    (v.toNat % 65536 = x.jq → s.queue x.jq = some q → q.state = .enabled → exec (.cyJobDb f page v) s =
      .next (s.ringWork q { fn := f, bar := 2, offset := page * 4096 + 0x18, size := 8, value := v }))) ∧
  (∀ (s : State) (c : Cmd) (who : Caller) , s.accepts 0x0803 c who false (c.pbLen == 2048) true = true →
    (∀ i, i < 1024 → sliceEntryOk (le c.pb (2 * i) 2) = true) →
    (s.taken 0x0803 c).tileOn c.target.toNat = true →
    exec (.cySliceTableSet c) s = .next (
      (s.taken 0x0803 c).onCy fun y => { y with pend := y.pend ++ [(c.target.toNat, (List.range 1024).map (fun i => le c.pb (2 * i) 2), (s.taken 0x0803 c).ft, c)] })) ∧
  (∀ (s0 s : State) (tile a : Nat) (l : List Nat) (c : Cmd), s = s0.seenFrom tile → s.fatal = false → s.onFrame = true → nextFrame a ≤ s.ft →
    s.cy.pend = [(tile, l, a, c)] → exec (.sliceTableEffect tile) s0 = .next (s0.backFrom ((s.onCy fun y => { y with pend := [], tables := y.tables.set tile l }).reply 0x0803 c false
        { Answer.ok with ft := some s.frameFt }))) ∧
  (∀ (s : State) (c : Cmd) (who : Caller) (x : CyChan), s.accepts 0x0804 c who false true (decide (2 ≤ c.target.toNat % 65536)) = true →
    (s.taken 0x0804 c).cyChan c.target.toNat = some x →
    exec (.cyQuery c) s = .next (
      (s.taken 0x0804 c).answer 0x0804 c ({ Answer.ok with data := (s.taken 0x0804 c).cyBytes c.target.toNat x }))) ∧
  (∀ (s : State) (c : Cmd) (who : Caller) , s.accepts 0x0804 c who false true (decide (2 ≤ c.target.toNat % 65536)) = true →
    (s.taken 0x0804 c).cyChan c.target.toNat = none →
    c.target.toNat % 65536 < 2 →
    exec (.cyQuery c) s = .next (
      (s.taken 0x0804 c).answer 0x0804 c ({ Answer.ok with data := (s.taken 0x0804 c).inlineBytes c.target.toNat }))) ∧
  (∀ (s u v : State) (tile lane ch : Nat) (r : CyRow), s.fatal = false → tile < 4 → lane < 32 → s.tileOn tile = true →
    u = s.settleJobs tile → u.rowNow tile = some r → bit r.lanes lane = false →
    v = u.onCy (fun y => { y with rows := y.rows.set tile { r with lanes := r.lanes + 2 ^ lane } }) →
    v.sliceOwner tile lane r.row = some ch → v.channelReady tile ch = true →
    exec (.engineSlice tile lane) s = .next (v.giveSlice tile ch true)) ∧
  (∀ (s : State) (tile : Nat) (r : CyRow), s.cy.rows.getD tile { start := 0, row := 0, frame := 0, lanes := 0 } = r →
    (s.onFrame = true → r.start + 32 ≤ s.time.osc → s.rowNow tile = some { start := s.time.osc, row := 0, frame := s.ft / 1024, lanes := 0 }) ∧
    (s.onFrame = false → s.spareTime = false → s.time.osc = r.start + 32 → s.ft / 1024 = r.frame → r.row < 31 →
      s.rowNow tile = some { start := s.time.osc, row := r.row + 1, frame := s.ft / 1024, lanes := 0 })) ∧
  (∀ (s0 s : State) (cid : Nat) (k : InlineKey), s = s0.seenFrom (s0.connDie cid) → s.sealKey cid = some k → k.next = none → k.previous ≠ none → s.fatal = false →
    k.graceEnd ≤ s.ft → exec (.rekeyGraceExpire cid) s0 = .next (s0.backFrom (s.onCy fun y => { y with
      cidKeys := y.cidKeys.mod cid fun k => { k with previous := none } })))

/-- A cipher entry becomes a job with a copy of its key, and a finished job writes its output and its completion. A CRY_JQ
entry that may start ends with S_BAD_STATE where its queue has no channel or its slot holds no key of the width of its
algorithm; with 16 active jobs, or without credit in its shaper, it waits; otherwise it becomes a job that takes a
copy of the key, and its source is read. A job all of whose engine slices have ended, with its source read well, is
done: the output not yet written goes to its destination; the job leaves its channel, which counts it, and a
completion with the output's length follows, with S_AUTHFAIL where the tag does not verify. A SHAKE256 job needs no
key, and its output is the digest. Completes, with exec answering a next state under conditions on the state and the
operands alone: cryEncrypt, cryDecrypt, cryDigest. -/
def Obligations.CipherJobsStartAndEnd : Prop :=
  (∀ (s w : State) (qid op : Nat) (q : Queue) (e : Bytes), s.readyHead qid = some (q, e) → q.cls = .cryJq → entryOp e = op →
    s.chanOfQueue qid = none → w = s.endHead qid St.badState 0 e →
    (op = 1 → exec (.cryEncrypt qid) s = .next w) ∧ (op = 2 → exec (.cryDecrypt qid) s = .next w) ∧
    (op = 3 → exec (.cryDigest qid) s = .next w)) ∧
  (∀ (s w : State) (qid op t : Nat) (q : Queue) (e : Bytes) (x : CyChan), s.readyHead qid = some (q, e) → q.cls = .cryJq →
    entryOp e = op → s.chanOfQueue qid = some (t, x) → x.keyOf (cryAlg e) (crySlot e) = none → w = s.endHead qid St.badState t e →
    (op = 1 → exec (.cryEncrypt qid) s = .next w) ∧ (op = 2 → exec (.cryDecrypt qid) s = .next w) ∧
    (op = 3 → exec (.cryDigest qid) s = .next w)) ∧
  (∀ (s w : State) (qid op t : Nat) (q : Queue) (e key : Bytes) (x : CyChan) (y : State × Bool) (z : State × Nat),
    s.readyHead qid = some (q, e) →
    q.cls = .cryJq → entryOp e = op → s.chanOfQueue qid = some (t, x) → x.keyOf (cryAlg e) (crySlot e) = some key →
    y = s.shaperGo qid (fragTotal (entryFrags .cryJq e q.headFrags)) →
    z = y.1.newOp qid e (entryFrags .cryJq e q.headFrags) →
    w = (if 16 ≤ x.active.length then s else if y.2 = false then y.1 else
      (((z.1.onOp z.2 fun o => { o with admitted := true }).onChanCy t fun x => { x with active := x.active ++ [{
        op := z.2, key := key, total := max 1 (cryWork e (fragTotal (entryFrags .cryJq e q.headFrags))), done := 0
        perSlice := sliceBytes (cryAlg e), lastRow := 0, written := 0 }] }).readFrags z.2 q.owner 0
          (entryFrags .cryJq e q.headFrags))) →
    (op = 1 → exec (.cryEncrypt qid) s = .next w) ∧ (op = 2 → exec (.cryDecrypt qid) s = .next w) ∧
    (op = 3 → exec (.cryDigest qid) s = .next w)) ∧
  (∀ (s : State) (t : Nat) (j : Job) (o : Op) (q : Queue), s.op j.op = some o → s.queue o.qid = some q → j.lastRow ≠ 0 →
    j.lastRow + 31 ≤ s.time.osc → o.failAt = none → j.total ≤ j.done →
    s.jobSettle t j = s.jobDone t j o q.owner (s.ft + (j.lastRow + 31) - s.time.osc)) ∧
  (∀ (s u : State) (t at' : Nat) (j : Job) (o : Op) (w : Owner) (b : Bytes) (ok : Bool),
    cryOutput o.entry j.key (o.data (fragTotal o.frags)) = (b, ok) →
    u = (((s.jobWrite t j o w b b.length).jobGone j.op).onChanCy t fun x => { x with
      jobs := (x.jobs + 1) % 2 ^ 48 }).count Ct.calico (t / 65536) 2 →
    s.jobDone t j o w at' = (if ok then u else u.count Ct.calico (t / 65536) 3).finishOp j.op
        (if ok then St.ok else St.authfail) b.length t at' ([byte (b2n (!ok))] ++ zeros 7)) ∧
  (∀ (x : CyChan) (k : Nat), x.keyOf 4 k = some [] ∧ (bit x.valid k = false → x.keyOf 1 k = none ∧ x.keyOf 3 k = none)) ∧
  (∀ (e key src : Bytes), cryAlg e = 4 → cryOutput e key src = (shake256 src (cryParam e), true))

/-- Decrypting what an AEAD algorithm encrypted gives the plaintext back, for cipher jobs and for sealed KRM packets. For
every key, IV, additional data and plaintext, AES-256-GCM opened with the ciphertext and the tag that sealing gave
answers the plaintext. A KRM packet sealed under a key, a salt and a seal counter opens under the same to its body. A
cipher job that decrypts the output of a job that encrypted under the same algorithm, 1 or 3, the same key, IV and
additional data gives the plaintext, and its tag verifies. -/
def Obligations.SealedDataOpensToWhatWasSealed : Prop :=
  (∀ (key iv aad pt : Bytes), gcmOpen key iv aad (gcmSeal key iv aad pt).1 (gcmSeal key iv aad pt).2 = some pt) ∧
  (∀ (key salt h ctr body : Bytes), ctr.length = 8 →
    openUnder key salt h (ctr ++ (gcmSeal key (salt ++ ctr) (h ++ ctr) body).1 ++ (gcmSeal key (salt ++ ctr) (h ++ ctr) body).2) =
      some body) ∧
  (∀ (e d key a pt : Bytes), cryAlg e = 1 ∨ cryAlg e = 3 → cryAlg d = cryAlg e → entryOp e = 1 → entryOp d = 2 →
    cryAad e = a.length → cryAad d = a.length → slice e 16 12 = slice d 16 12 →
    cryOutput d key (a ++ (cryOutput e key (a ++ pt)).1) = (pt, true))

/-- A DMA entry starts on its channel, moves in beats that cross no line or 64-byte boundary, and retries or ends on
errors. A DMA_CH entry that may start takes the channel of its queue and issues its beats; it waits for credit unless
it has a share, and while no channel is bound. A beat is 1 to 64 bytes and crosses neither a line nor a 64-byte
boundary on either side. A beat whose data is there is written and counted, and one whose write is refused fails; it
waits while its owner's bus mastering is disabled and it writes the host. A failed beat with retries left waits for
the next frame boundary, where it is issued again unless bus mastering is disabled; a poisoned one, an uncorrectable
one and one stopped by bus mastering end the entry at once; one whose retries have run out leaves the entry to fail
with its status and address when its other beats are done. Completes, with exec answering a next state under
conditions on the state and the operands alone: dmaCopy, dmaFill, dmaBeatComplete, dmaBeatFail, dmaBeatRetry. -/
def Obligations.DmaEntriesMoveInBeats : Prop :=
  (∀ (s w : State) (qid op : Nat) (q : Queue) (e : Bytes) (y : State × Bool) (z : State × Nat), s.readyHead qid = some (q, e) →
    q.cls = .dmaCh → entryOp e = op →
    y = (if dmaShare e = 0 then s.shaperGo qid (dmaTotal e) else (s, true)) →
    z = y.1.newOp qid e [] →
    w = (match s.dmaKey qid q with
      | none => s
      | some k => if y.2 = false then y.1 else
          (((z.1.onOp z.2 fun o => { o with admitted := true }).onDmaChan k fun x => { x with
            op := some z.2, paced := dmaShare e != 0, retries := 0, nextK := 0, count := beatCount e (dmaTotal e) 0, beats := []
            doneBytes := 0, failing := none }).issueBeats k 64).dmaSettle k) →
    (op = 1 → exec (.dmaCopy qid) s = .next w) ∧ (op = 2 → exec (.dmaFill qid) s = .next w)) ∧
  (∀ (e : Bytes) (k : Nat), k < dmaTotal e → (dmaCopies e = true → 0 < dmaSrcLen e) →
    1 ≤ beatLen e k ∧ k + beatLen e k ≤ dmaTotal e ∧ k % dmaDstLen e + beatLen e k ≤ dmaDstLen e ∧
    dmaDstAt e k % 64 + beatLen e k ≤ 64 ∧ (dmaCopies e = true →
      k % dmaSrcLen e + beatLen e k ≤ dmaSrcLen e ∧ dmaSrcAt e k % 64 + beatLen e k ≤ 64)) ∧
  (∀ (s : State) (tile chan b n : Nat) (x : DmaChan) (y : Beat) (e d : Bytes) (w : Owner), s.dmaChan (tile * 256 + chan) = some x →
    s.dmaEntry x = some (n, e, w) → x.beats.find? (·.k == b) = some y → y.data = some d → s.fatal = false →
    (bit (dmaFl e) 1 = false → s.ownerHeld w = true → exec (.dmaBeatComplete tile chan b) s = .next s) ∧
    (bit (dmaFl e) 1 = true ∨ s.ownerHeld w = false →
      (s.beatWrite e w b d = none → exec (.dmaBeatComplete tile chan b) s =
        .next (s.beatFail (tile * 256 + chan) b .writeError)) ∧
      (∀ u, s.beatWrite e w b d = some u →
        exec (.dmaBeatComplete tile chan b) s = .next (((u.onDmaChan (tile * 256 + chan) fun x => { x with
          beats := x.beats.filter (·.k != b), doneBytes := x.doneBytes + y.len }).issueBeats (tile * 256 + chan) 64).dmaSettle
            (tile * 256 + chan))))) ∧
  (∀ (s : State) (tile chan b n : Nat) (x : DmaChan) (y : Beat) (e : Bytes) (w : Owner) (how : BeatFault),
    s.dmaChan (tile * 256 + chan) = some x →
    s.dmaEntry x = some (n, e, w) → x.beats.find? (·.k == b) = some y → y.retryAt = none → s.fatal = false →
    how ≠ .busMaster ∨ s.ownerHeld w = true →
    exec (.dmaBeatFail tile chan b how) s =
      .next (((s.dropBeatRead tile chan b).beatFail (tile * 256 + chan) b how).issueBeats (tile * 256 + chan) 64)) ∧
  (∀ (s : State) (k b n : Nat) (x : DmaChan) (y : Beat) (e : Bytes) (w : Owner) (how : BeatFault), s.dmaChan k = some x →
    s.dmaEntry x = some (n, e, w) → x.beats.find? (·.k == b) = some y →
    (how = .poisoned → s.beatFail k b how = s.dmaFinish k x St.poisoned false) ∧
    (how = .uncorrectable → s.beatFail k b how = s.dmaFinish k x St.uncorrectable false) ∧
    (how = .busMaster → s.beatFail k b how = s.dmaFinish k x St.abortedBme false) ∧
    (how = .readTimeout ∨ how = .readError ∨ how = .writeError →
      (x.failing ≠ none → s.beatFail k b how = (s.onDmaChan k fun x => { x with
        beats := x.beats.filter (·.k != b) }).dmaSettle k) ∧
      (x.failing = none → y.tries < dmaRetry e → s.beatFail k b how = s.onBeat k b fun y => { y with
        data := none, tries := y.tries + 1, retryAt := some (nextFrame s.ft) }) ∧
      (x.failing = none → dmaRetry e ≤ y.tries → s.beatFail k b how = (s.onDmaChan k fun z => { z with
        failing := some (if how = .readTimeout then St.hostReadTimeout else if how = .writeError then St.hostWriteErr else St.hostReadErr,
          how == .writeError, if how = .writeError then dmaDstAt e b else dmaSrcAt e b)
        beats := x.beats.filter fun y => y.k != b && y.retryAt.isNone }).dmaSettle k))) ∧
  (∀ (s0 s : State) (tile chan b n t : Nat) (x : DmaChan) (y : Beat) (e : Bytes) (w : Owner), s = s0.seenFrom tile → s.dmaChan (tile * 256 + chan) = some x →
    s.dmaEntry x = some (n, e, w) → x.beats.find? (·.k == b) = some y → y.retryAt = some t → s.fatal = false → t ≤ s.ft →
    s.onFrame = true → exec (.dmaBeatRetry tile chan b) s0 = .next (s0.backFrom (if s.ownerHeld w = true then s else ((((s.onDmaChan (tile * 256 + chan) fun x => { x with retries := min 255 (x.retries + 1) }).count Ct.dma tile 1).onBeat
        (tile * 256 + chan) b fun y => { y with retryAt := none }).beatRead (tile * 256 + chan) b))))

/-- The CH instructions send, receive, configure and query channels, and answer their status in rd. For every thread that
may issue and whose word at the pc is the instruction, stepped or not, tagged for a sample or not: CH.WRF answers a
refusal's status and has one for space watched, commits a message of one word, or opens a longer one; CH.WR adds a
word and commits the last, and answers BADCH or NOMSG; CH.ABORT discards the open message. CH.RECV and CH.TRY answer
why a read cannot be made, or the oldest message's word with the message in the receive buffer; with none, CH.RECV
blocks and CH.TRY answers EMPTY. CH.GET answers a word of the receive buffer, CH.STAT the fill word (its free words of
a channel never configured are a free value of the model, log 45), CH.CFG configures an idle channel or answers why
not. An instruction that retires with a value writes it to rd, moves the pc by 4 and counts; a stepped thread returns
to DSTOP; a tagged one gives its record. Completes, with exec answering a next state under conditions on the state and
the operands alone: chWrf, chWr, chRecv, chTry, chGet, chAbort, chStat, chCfg. -/
def Obligations.ChannelInstructionsAnswer : Prop :=
  (∀ (r s : State) (tid : Nat) (t : Thread) (g : Bool) (rd rs1 rs2 : BitVec 5) (d ch len : Nat), r.issued tid (xkWord xkCh 0 rd.toNat rs1.toNat rs2.toNat) = some (s, t, g) →
    d = t.reg rs1.toNat → ch = d % 8192 → len = field d 16 4 + 1 →
    exec (.chWrf tid rd rs1 rs2) r = .next (match s.wrfStatus tid t d with
      | some st => s.retired tid t g (if st = 2 then s.onThread tid fun t => { t with spaceWatch := some (ch, len) } else s) rd.toNat st ch
      | none => s.retired tid t g (if len = 1 then (s.onChan ch fun c => { c with reserved := c.reserved + 1 }).commitOpen tid ch [t.regs.getD rs2.toNat 0] else (s.onChan ch fun c => { c with reserved := c.reserved + len }).onThread tid fun t => { t with stagingCh := some ch, stagingLen := len, staging := [t.regs.getD rs2.toNat 0] }) rd.toNat 0 ch)) ∧
  (∀ (r s : State) (tid : Nat) (t : Thread) (g : Bool) (rd rs2 : BitVec 5) (l : List W64), r.issued tid (xkWord xkCh 1 rd.toNat 0 rs2.toNat) = some (s, t, g) → l = t.staging ++ [t.regs.getD rs2.toNat 0] →
    exec (.chWr tid rd rs2) r = .next (match t.stagingCh with
      | none => s.retired tid t g s rd.toNat 6 0
      | some ch => if (s.openChan ch).isNone then s.retired tid t g s rd.toNat 4 ch
        else s.retired tid t g (if t.stagingLen ≤ l.length then s.commitOpen tid ch l else s.onThread tid fun t => { t with staging := l }) rd.toNat 0 ch)) ∧
  (∀ (r s : State) (tid : Nat) (t : Thread) (g : Bool) (rd : BitVec 5), r.issued tid (xkWord xkCh 5 rd.toNat 0 0) = some (s, t, g) →
    exec (.chAbort tid rd) r = .next (match t.stagingCh with
      | none => s.retired tid t g s rd.toNat 6 0
      | some ch => s.retired tid t g (s.discardStaging tid) rd.toNat 0 ch)) ∧
  (∀ (r s : State) (tid : Nat) (t : Thread) (g : Bool) (rd rs1 : BitVec 5) (v : Nat), r.issued tid (xkWord xkCh 2 rd.toNat rs1.toNat 0) = some (s, t, g) → v = t.reg rs1.toNat →
    exec (.chRecv tid rd rs1) r = .next (match s.readStatus tid v with
      | some st => s.retired tid t g s rd.toNat st (v % 8192)
      | none => (match s.takeMsg v with
        | (u, some (src, l)) => s.retired tid t g (u.onThread tid fun t => { t with recv := l }) rd.toNat (recvWord src l) v 7
        | (_, none) => s.issueEnd tid t g ((s.onThread tid fun u => { u with
          state := .blockedCh, waitCh := v, waitRd := rd.toNat }).onChan v fun c => { c with readers := c.readers ++ [tid] }, .blocked)))) ∧
  (∀ (r s : State) (tid : Nat) (t : Thread) (g : Bool) (rd rs1 : BitVec 5) (v : Nat), r.issued tid (xkWord xkCh 3 rd.toNat rs1.toNat 0) = some (s, t, g) → v = t.reg rs1.toNat →
    exec (.chTry tid rd rs1) r = .next (match s.readStatus tid v with
      | some st => s.retired tid t g s rd.toNat st (v % 8192)
      | none => (match s.takeMsg v with
        | (u, some (src, l)) => s.retired tid t g (u.onThread tid fun t => { t with recv := l }) rd.toNat (recvWord src l) v 7
        | (_, none) => s.retired tid t g s rd.toNat 1 v))) ∧
  (∀ (r s : State) (tid : Nat) (t : Thread) (g : Bool) (rd rs1 : BitVec 5), r.issued tid (xkWord xkCh 4 rd.toNat rs1.toNat 0) = some (s, t, g) →
    exec (.chGet tid rd rs1) r = .next (s.retired tid t g s rd.toNat (t.recv.getD (t.reg rs1.toNat % 16) 0).toNat 0)) ∧
  (∀ (r s : State) (tid : Nat) (t : Thread) (g : Bool) (rd rs1 : BitVec 5) (v : Nat), r.issued tid (xkWord xkCh 6 rd.toNat rs1.toNat 0) = some (s, t, g) → v = t.reg rs1.toNat →
    exec (.chStat tid rd rs1) r = .next (if 8192 ≤ v ∨ (2 ≤ v % 2048 ∧ v % 2048 < 16) ∨ s.tileOn (v / 2048) = false then
        s.retired tid t g s rd.toNat 4 (v % 8192)
      else match s.chan v with
        | some c => s.retired tid t g s rd.toNat c.fill v
        | none => s.retired tid t g s.useFree rd.toNat (s.freeVal % 65536 * 2 ^ 32) v)) ∧
  (∀ (r s : State) (tid : Nat) (t : Thread) (g : Bool) (rd rs1 rs2 : BitVec 5) (v w : Nat), r.issued tid (xkWord xkCh 7 rd.toNat rs1.toNat rs2.toNat) = some (s, t, g) → v = t.reg rs1.toNat → w = t.reg rs2.toNat →
    exec (.chCfg tid rd rs1 rs2) r = .next (match s.cfgStatus tid v w with
      | some st => s.retired tid t g s rd.toNat st (v % 8192)
      | none => s.retired tid t g (((s.onCores fun c => { c with chans := c.chans.set v (chanOf (s.chan v) (v % 2048) w) }).spaceCheck v).tileSettle (tid / 256)) rd.toNat 0 v)) ∧
  (∀ (s u y : State) (tid rd v addr level : Nat) (t x : Thread) (g : Bool), u.thread tid = some x →
    y = u.onThread tid (fun z => { (z.setReg rd v) with
      pc := (x.pc + 4) % 2 ^ 64, instret := (z.instret + 1) % 2 ^ 64
      state := if z.stepping && z.state == ThState.run then ThState.dstop else z.state, stepping := false }) →
    s.retired tid t g u rd v addr level = (if g = true then y.issueRecord tid t.pc addr level 0 else y).coreSettle (tid / 8))

/-- The EV instructions and TH.CTL answer and act as defined; deadlock and watchdog raise their events. EV.WAIT answers
the masked pending bits or blocks; EV.CLR answers the pending bits and clears, and thread 0 clearing DEADLOCK arms its
detection; EV.READ answers them; EV.POST sets a software bit in a thread that exists, else answers BADARG. TH.CTL is
illegal but in thread 0; of a thread that does not exist it answers 0. It stops, resumes, kills, starts and discards
another thread of its core that is not in DSTOP and whose state allows it, marks any, answers FPC and FVAL of a
faulted one, and otherwise the state word. An all-blocked core after 2,048 ns posts DEADLOCK once. A watchdog whose
condition has stood for its interval at a frame boundary hangs the core, for a fault or a deadlock. Completes, with
exec answering a next state under conditions on the state and the operands alone: evWait, evClr, evRead, evPost,
thCtlQuery, thCtlStop, thCtlResume, thCtlKill, thCtlStart, thCtlDiscard, thCtlSetpri, thCtlFpc, thCtlFval,
deadlockDetect, watchdogExpire. -/
def Obligations.EventAndThreadControlInstructions : Prop :=
  (∀ (r s : State) (tid : Nat) (t : Thread) (g : Bool) (rd rs1 : BitVec 5) (m : Nat), r.issued tid (xkWord xkEv 0 rd.toNat rs1.toNat 0) = some (s, t, g) → m = t.pending &&& t.reg rs1.toNat →
    exec (.evWait tid rd rs1) r = .next (if m ≠ 0 then s.retired tid t g s rd.toNat m 0 else s.issueEnd tid t g (s.onThread tid fun u => { u with
        state := .blockedEv, waitMask := t.reg rs1.toNat, waitRd := rd.toNat }, .blocked))) ∧
  (∀ (r s : State) (tid : Nat) (t : Thread) (g : Bool) (rd rs1 : BitVec 5) (u : State), r.issued tid (xkWord xkEv 1 rd.toNat rs1.toNat 0) = some (s, t, g) →
    u = s.onThread tid (fun u => { u with pending := u.pending - (u.pending &&& t.reg rs1.toNat) }) →
    exec (.evClr tid rd rs1) r = .next (s.retired tid t g (if tid % 8 = 0 ∧ bit (t.reg rs1.toNat) 29 = true then u.onCore (tid / 8) fun c => { c with deadlockArmed := true } else u) rd.toNat t.pending 0)) ∧
  (∀ (r s : State) (tid : Nat) (t : Thread) (g : Bool) (rd : BitVec 5), r.issued tid (xkWord xkEv 2 rd.toNat 0 0) = some (s, t, g) → exec (.evRead tid rd) r = .next (s.retired tid t g s rd.toNat t.pending 0)) ∧
  (∀ (r s : State) (tid : Nat) (t : Thread) (g : Bool) (rd rs1 rs2 : BitVec 5) (k b : Nat), r.issued tid (xkWord xkEv 3 rd.toNat rs1.toNat rs2.toNat) = some (s, t, g) → k = t.reg rs1.toNat → b = t.reg rs2.toNat →
    exec (.evPost tid rd rs1 rs2) r = .next (if 1024 ≤ k ∨ s.thread k = none ∨ b < 24 ∨ 27 < b then s.retired tid t g s rd.toNat 8 0
      else s.retired tid t g (s.postEvent k b) rd.toNat 0 0)) ∧
  (∀ (r s : State) (tid : Nat) (t : Thread) (g : Bool) (rd rs1 rs2 : BitVec 5) (w : State), r.issued tid (xkWord xkEv 4 rd.toNat rs1.toNat rs2.toNat) = some (s, t, g) → tid % 8 ≠ 0 ∨ s.thread (tid + t.reg rs1.toNat % 8) = none →
    w = (if tid % 8 ≠ 0 then s.issueEnd tid t g (s, .fault 2 (xkWord xkEv 4 rd.toNat rs1.toNat rs2.toNat) 0) else s.retired tid t g s rd.toNat 0 0) →
    (field (t.reg rs1.toNat) 8 4 = 0 → exec (.thCtlQuery tid rd rs1 rs2) r = .next w) ∧
    (field (t.reg rs1.toNat) 8 4 = 1 → exec (.thCtlStop tid rd rs1 rs2) r = .next w) ∧
    (field (t.reg rs1.toNat) 8 4 = 2 → exec (.thCtlResume tid rd rs1 rs2) r = .next w) ∧
    (field (t.reg rs1.toNat) 8 4 = 3 → exec (.thCtlKill tid rd rs1 rs2) r = .next w) ∧
    (field (t.reg rs1.toNat) 8 4 = 4 → exec (.thCtlStart tid rd rs1 rs2) r = .next w) ∧
    (field (t.reg rs1.toNat) 8 4 = 5 → exec (.thCtlDiscard tid rd rs1 rs2) r = .next w) ∧
    (field (t.reg rs1.toNat) 8 4 = 6 → exec (.thCtlSetpri tid rd rs1 rs2) r = .next w) ∧
    (field (t.reg rs1.toNat) 8 4 = 7 → exec (.thCtlFpc tid rd rs1 rs2) r = .next w) ∧
    (field (t.reg rs1.toNat) 8 4 = 8 → exec (.thCtlFval tid rd rs1 rs2) r = .next w)) ∧
  (∀ (r s : State) (tid : Nat) (t : Thread) (g : Bool) (rd rs1 rs2 : BitVec 5) (k : Nat) (x : Thread), r.issued tid (xkWord xkEv 4 rd.toNat rs1.toNat rs2.toNat) = some (s, t, g) → tid % 8 = 0 →
    k = tid + t.reg rs1.toNat % 8 → s.thread k = some x →
    (field (t.reg rs1.toNat) 8 4 = 0 ∨ 9 ≤ field (t.reg rs1.toNat) 8 4 → exec (.thCtlQuery tid rd rs1 rs2) r =
      .next (s.retired tid t g s rd.toNat (s.thWord k) 0)) ∧
    (field (t.reg rs1.toNat) 8 4 = 1 → ∀ u, u = (if k ≠ tid ∧ x.state ≠ .dstop ∧ (x.state = .run ∨ x.state = .blockedCh ∨ x.state = .blockedEv) then s.halt k .sstop .run else s) →
      exec (.thCtlStop tid rd rs1 rs2) r = .next (s.retired tid t g u rd.toNat (u.thWord k) 0)) ∧
    (field (t.reg rs1.toNat) 8 4 = 2 → ∀ u, u = (if k ≠ tid ∧ x.state ≠ .dstop ∧ (x.state = .sstop ∨ x.state = .faulted) then s.onThread k fun x => { x with state := .run } else s) →
      exec (.thCtlResume tid rd rs1 rs2) r = .next (s.retired tid t g u rd.toNat (u.thWord k) 0)) ∧
    (field (t.reg rs1.toNat) 8 4 = 3 → ∀ u, u = (if k ≠ tid ∧ x.state ≠ .dstop then (s.halt k .idle .run).discardStaging k else s) →
      exec (.thCtlKill tid rd rs1 rs2) r = .next (s.retired tid t g u rd.toNat (u.thWord k) 0)) ∧
    (field (t.reg rs1.toNat) 8 4 = 4 → ∀ u, u = (if k ≠ tid ∧ x.state ≠ .dstop ∧ x.state = .idle then (s.discardStaging k).onThread k fun x => { x with state := .run, remembered := .run, pc := t.reg rs2.toNat / 2 * 2 } else s) →
      exec (.thCtlStart tid rd rs1 rs2) r = .next (s.retired tid t g u rd.toNat (u.thWord k) 0)) ∧
    (field (t.reg rs1.toNat) 8 4 = 5 → ∀ u, u = (if k ≠ tid ∧ x.state ≠ .dstop ∧ (x.state = .sstop ∨ x.state = .faulted) then s.discardStaging k else s) →
      exec (.thCtlDiscard tid rd rs1 rs2) r = .next (s.retired tid t g u rd.toNat (u.thWord k) 0)) ∧
    (field (t.reg rs1.toNat) 8 4 = 6 → ∀ u, u = (s.onCore (tid / 8) fun c => { c with hipri := if t.reg rs2.toNat % 2 = 1 then some (k % 8) else if c.hipri = some (k % 8) then none else c.hipri }) →
      exec (.thCtlSetpri tid rd rs1 rs2) r = .next (s.retired tid t g u rd.toNat (u.thWord k) 0)) ∧
    (field (t.reg rs1.toNat) 8 4 = 7 → ∀ u, u = (s) →
      exec (.thCtlFpc tid rd rs1 rs2) r = .next (s.retired tid t g u rd.toNat (if k ≠ tid ∧ x.state = .faulted then x.pc else s.thWord k) 0)) ∧
    (field (t.reg rs1.toNat) 8 4 = 8 → ∀ u, u = (s) →
      exec (.thCtlFval tid rd rs1 rs2) r = .next (s.retired tid t g u rd.toNat (if k ≠ tid ∧ x.state = .faulted then x.fval else s.thWord k) 0))) ∧
  (∀ (s : State) (core t : Nat) (c : CoreSt), s.core core = some c → c.blockedSince = some t → s.fatal = false → c.hung = false →
    c.deadlockArmed = true → s.allBlocked core = true → t + 2048 ≤ s.time.osc → exec (.deadlockDetect core) s =
      .next ((((s.onCore core fun c => { c with deadlockArmed := false }).count Ct.cores (core / 32) (core % 32)).postEvent
        (core * 8) 29).coreSettle core)) ∧
  (∀ (s : State) (core : Nat) (c : CoreSt) (t : Thread), s.core core = some c → s.thread (core * 8) = some t → s.fatal = false →
    c.hung = false → s.onFrame = true → s.wdCondition core = true → s.wdPaused core = false → c.wdStart ≠ none →
    t.wdInterval ≤ c.wdTime s.ft → exec (.watchdogExpire core) s = .next (s.coreHung core (
      if bit t.pending 28 || (coreThreads core).any (fun k => (s.thread k).any fun x => x.state == .faulted) then 0 else 1)))

/-- A base instruction retires or faults, x0 stays 0, ADDI computes for every operand, and the debugger acts at level HALT
or FULL. A base instruction of a thread that may issue, of two bytes or of four, has the effect of its word and
retires, or it faults: an illegal one, one whose fetch faults and any whose effect faults changes nothing else and
faults the thread with its cause and value. One that retires moves the pc, counts, and returns a stepped thread to
DSTOP. ADDI of every register and immediate writes the sum of the register and the sign-extended immediate; SUB the
difference. A write of x0 is discarded. The debugger at level 2 or 3 stops, resumes, steps, discards, kills, reads and
writes a thread, and at another level changes nothing. Completes, with exec answering a next state under conditions on
the state and the operands alone: rv64Instruction, debugStop, debugResume, debugStep, debugDiscard, debugKill,
debugRegAccess. -/
def Obligations.BaseInstructionsAndDebugger : Prop :=
  (∀ (r s : State) (tid raw len : Nat) (t t0 : Thread) (g : Bool), r.readyThread tid = some t0 → r.fetchAt tid t0.pc = .ok raw len →
    (len = 4 && isXkzch raw) = false → (r.fetched t0.pc len).thread tid = some t → (r.fetched t0.pc len).tagIssue tid = (s, g) →
    exec (.rv64Instruction tid) r = .next (s.issueEnd tid t g (if len = 4 then s.rvExec tid t raw raw 4
      else match expand raw with
        | some w => s.rvExec tid t w raw 2
        | none => (s, .fault 2 raw 0)))) ∧
  (∀ (r s : State) (tid c v : Nat) (t : Thread) (g : Bool), r.readyThread tid = some t → r.fetchAt tid t.pc = .fault c v →
    (if v = t.pc then r else r.fetched t.pc 2).tagIssue tid = (s, g) →
    exec (.rv64Instruction tid) r = .next (s.issueEnd tid t g (s, .fault c v 0))) ∧
  (∀ (s u y z : State) (tid c v a npc l f : Nat) (t : Thread) (g : Bool),
    y = (if c = 24 ∨ c = 25 then s.meet 1 v 1 else s).faultThread tid c v →
    z = u.onThread tid (fun t => { t with
      pc := npc % 2 ^ 64, instret := (t.instret + 1) % 2 ^ 64
      state := if t.stepping && t.state == ThState.run then ThState.dstop else t.state, stepping := false }) →
    s.issueEnd tid t g (u, .fault c v a) =
      (if g = true then y.issueRecord tid t.pc a 0 (8 + b2n ([4, 5, 6, 7, 24].contains c)) else y).coreSettle (tid / 8) ∧
    s.issueEnd tid t g (u, .retire npc a l f) = (if g = true then z.issueRecord tid t.pc a l f else z).coreSettle (tid / 8)) ∧
  (∀ (s : State) (tid len : Nat) (t : Thread) (rd r1 : BitVec 5) (imm : BitVec 12),
    s.rvExec tid t (encI 0x13 0 rd.toNat r1.toNat imm.toNat) (encI 0x13 0 rd.toNat r1.toNat imm.toNat) len =
      (s.onThread tid (·.setReg rd.toNat ((t.reg r1.toNat + (imm.signExtend 64).toNat) % 2 ^ 64)),
        .retire ((t.pc + len) % 2 ^ 64) 0 0 0)) ∧
  (∀ (s : State) (tid len : Nat) (t : Thread) (rd r1 r2 : BitVec 5), t.reg r2.toNat < 2 ^ 64 →
    s.rvExec tid t (encR 0x33 0 0x20 rd.toNat r1.toNat r2.toNat) (encR 0x33 0 0x20 rd.toNat r1.toNat r2.toNat) len =
      (s.onThread tid (·.setReg rd.toNat ((BitVec.ofNat 64 (t.reg r1.toNat) - BitVec.ofNat 64 (t.reg r2.toNat)).toNat)),
        .retire ((t.pc + len) % 2 ^ 64) 0 0 0)) ∧
  (∀ (t : Thread) (r v : Nat), (t.setReg r v).reg 0 = t.reg 0 ∧ (r ≠ 0 → r < t.regs.length → (t.setReg r v).reg r = v % 2 ^ 64) ∧
    ∀ k, k ≠ r → (t.setReg r v).reg k = t.reg k) ∧
  (∀ (s : State) (tid : Nat) (t : Thread) (a : DebugAccess), s.thread tid = some t → s.trust.level < 2 →
    exec (.debugStop tid) s = .next s ∧ exec (.debugResume tid) s = .next s ∧ exec (.debugStep tid) s = .next s ∧
      exec (.debugDiscard tid) s = .next s ∧ exec (.debugKill tid) s = .next s ∧ exec (.debugRegAccess tid a) s = .next s) ∧
  (∀ (s : State) (tid : Nat) (t : Thread) (a : DebugAccess), s.thread tid = some t → 2 ≤ s.trust.level →
    exec (.debugStop tid) s = .next ((if t.state = .dstop then s
      else if t.state = .run ∨ t.state = .blockedCh ∨ t.state = .blockedEv then s.halt tid .dstop .run
      else s.onThread tid fun x => { x with state := .dstop, remembered := t.state }).coreSettle (tid / 8)) ∧
    exec (.debugResume tid) s = .next ((s.leaveDstop tid).coreSettle (tid / 8)) ∧
    exec (.debugStep tid) s = .next ((if t.state = .dstop ∧ (t.remembered = .run ∨ t.remembered = .faulted) then
      s.onThread tid fun t => { t with state := .run, remembered := .run, stepping := true } else s).coreSettle (tid / 8)) ∧
    exec (.debugDiscard tid) s = .next ((s.discardStaging tid).coreSettle (tid / 8)) ∧
    exec (.debugKill tid) s = .next (((s.halt tid .idle .run).discardStaging tid).coreSettle (tid / 8)) ∧
    exec (.debugRegAccess tid a) s = .next ((match a with
      | .readReg n => (s.debugRead tid t n).elim s fun v => s.emit (.readValue v)
      | .writeReg n v => s.onThread tid fun t => s.debugWrite tid t n v
      | .readStaging => s.emit (.readBuffer (t.staging.flatMap fun (w : W64) => toLe 8 w.toNat))
      | .readReceive => s.emit (.readBuffer (t.recv.flatMap fun (w : W64) => toLe 8 w.toNat))).coreSettle (tid / 8))) ∧
  (∀ (s : State) (tid n : Nat) (t : Thread) (v : W64), 1 ≤ n → n < 32 →
    s.debugRead tid t n = some (t.reg n) ∧ s.debugWrite tid t n v = t.setReg n v.toNat ∧
    s.debugRead tid t 0 = some t.pc ∧ s.debugRead tid t 35 = some t.instret ∧ s.debugRead tid t 37 = some tid)

/-- A step runs the command in front on a state with the queue's rest; device reset leaves FT at 0 and FREE and the
model's data in canonical form. Step with a command in front of the queue is the outcome of that command on the state
with the rest of the queue. With none waiting the block idles: a held command that may start runs, else the first
input yet to arrive is put in front at its instant, else 1 ns passes. As time passes FT_PPS_IN is found absent at its
instant, and the latency messages due are sent (model, logs 1, 8, 35, 42). At device reset FT and FT_FRAC are 0 and
the discipline state is FREE; nothing waits, the device is not FATAL, memory lists nothing and is canonical, and the
log is within its 4,096 records. -/
def Obligations.StepRunsTheFrontCommand : Prop :=
  (∀ (s : State) (c : Instr) (rest : List Instr), s.pending = c :: rest → step s = exec c { s with pending := rest }) ∧
  (∀ s : State, s.pending = [] → step s = .next (match s.heldReady with
    | some (code, c) => runOpcode code c s
    | none => match s.arrivals with
      | [] => (s.passTime 1).sendLtr
      | (t, c) :: l => { ((s.passTime (t - s.time.osc)).sendLtr) with arrivals := l, pending := [c] })) ∧
  (∀ (fuses : Fuses) (log : List Bytes) (n : Nat) (straps : Straps), log.length ≤ 4096 →
    (State.afterReset fuses log n straps).ft = 0 ∧ (State.afterReset fuses log n straps).time.frac = 0 ∧
    (State.afterReset fuses log n straps).ftu.state = .free ∧ (State.afterReset fuses log n straps).memOk ∧
    (State.afterReset fuses log n straps).logOk) ∧
  (State.reset.pending = [] ∧ State.reset.fatal = false ∧ State.reset.mem = [] ∧ State.reset.memOk ∧ State.reset.logOk)

/-- A byte written reads back and no other byte changes; memory keeps its canonical form, in which equal contents are
equal data. Writing one byte of a canonical cell list leaves it canonical, that byte reads back and every other reads
as before; two canonical lists that read alike everywhere are equal. A device write of a requester that is let through
stores its bytes at the keys of its addresses, where no two of them share a key, leaves every other byte and the map
of addresses alone, and keeps memory canonical. -/
def Obligations.DeviceMemoryReadsAsItWasWritten : Prop :=
  (∀ (m : List Host.Cell) (a : Nat) (b : Byte), Memory.wf m →
    Memory.wf (memPut m a b) ∧ ∀ x, memGet (memPut m a b) x = if x = a then b else memGet m x) ∧
  (∀ m m' : List Host.Cell, Memory.wf m → Memory.wf m' → (∀ a, memGet m a = memGet m' a) → m = m') ∧
  (∀ (s t : State) (q : Requester) (a : Nat) (bs : Bytes), s.memOk → s.devWrite q a bs = some t →
    t.memOk ∧ (∀ x, t.memKey x = s.memKey x) ∧
    (∀ k, (∀ i, i < bs.length → s.memKey (a + i) ≠ some k) → memGet t.mem k = memGet s.mem k) ∧
    (∀ i k, i < bs.length → s.memKey (a + i) = some k → (∀ j, j < bs.length → s.memKey (a + j) = some k → j = i) →
      memGet t.mem k = bs.getD i 0))

/-- The body of a management request decodes to the very command it carries, and MCTP_REQUEST runs that command's row. For
every row that is an opcode of R131 and every packet of the management controller (any flags, tag, target, reserved
bytes, parameters, an inline block of any length and the opcode's data): the request body made of its header, block
and data decodes to the same opcode and the same packet, and MCTP_REQUEST with that body answers exactly what the row
answers. A body shorter than the header, or whose length is not the header, PB_LEN and the data of its opcode, is
answered at once with S_BAD_PBLOCK and changes nothing else. The control message Get Vendor Defined Message Support is
answered with the enterprise number, in a form that is the model's choice (log 54). Completes, with exec answering a
next state under conditions on the state and the operands alone: mctpRequest. -/
def Obligations.ManagementRequestsRunTheirRows : Prop :=
  (∀ (code tag : Nat) (c : Cmd), code < 65536 → inlinePacket code tag c = true →
    le (requestBody code c) 0 2 = code ∧ mctpCmd tag (requestBody code c) = c) ∧
  (∀ (s : State) (i : Instr) (code tag : Nat) (c : Cmd), packetOf i = some (code, c) → inlinePacket code tag c = true →
    chosenRow s i = true → s.endpointOn = true →
    exec (.mctpRequest tag { kind := 0x7F, bytes := requestBody code c }) s = exec i s) ∧
  (∀ (s : State) (tag : Nat) (body : Bytes), s.endpointOn = true →
    (body.length < 64 ∨ body.length ≠ 64 + le body 12 2 + opcodeData (le body 0 2)) →
    exec (.mctpRequest tag { kind := 0x7F, bytes := body }) s = .next (s.emitMctp false tag
      (replyBytes (le body 0 2) (mctpCmd tag body) (Answer.just St.badPblock) s.ft 0 false false))) ∧
  (∀ (s : State) (tag : Nat) (body : Bytes), s.endpointOn = true → byteAt body 1 = 6 →
    exec (.mctpRequest tag { kind := 0, bytes := body }) s = .next (s.emitMctp false tag (vendorSupport body)))

/-- A device in FATAL stays there until device reset: every step keeps FATAL, and the rows of queues and commands then do
nothing. From every state that is FATAL, a step answers a state that is FATAL, unless the command in front is one of
the five rows that can be a device reset or the loss of all power (DEVICE_RESET_BEGIN, LIFECYCLE_RESET, SYS_RESET,
POWER_OFF, HELD_RESET_RELEASE). In FATAL no queue fetches, starts work or writes a completion: every opcode row, the
four doorbells, the fetch and head rows, NOP and the other work rows, the writing of completions and write-back
blocks, thread instructions and Buckram's mailbox leave the state as it is. -/
def Obligations.FatalEndsOnlyAtReset : Prop :=
  (∀ s t : State, s.fatal = true → (∀ i, s.pending.head? = some i → mayReset i = false) → step s = .next t → t.fatal = true) ∧
  (∀ (s : State) (i : Instr) (code : Nat) (c : Cmd), s.fatal = true → packetOf i = some (code, c) → exec i s = .next s) ∧
  (∀ (s : State) (i : Instr), s.fatal = true → actsInFatal i = false → exec i s = .next s)
end

