-- ==== Sys2Proof/Laws/Bytes.lean ====
section
/-! SUPPORT. What the byte-order helpers of Machine/Bits.lean do: numbers written are read back, and a CRC-32C fits its
register; and that a free number is found while there is one. -/

namespace Sys2Proof.Machine

@[simp] theorem byte_toNat (n : Nat) : (byte n).toNat = n % 256 := by simp [byte]

theorem byteAt_zeros (n i : Nat) : byteAt (zeros n) i = 0 := by
  simp [byteAt, zeros, List.getD_eq_getElem?_getD, List.getElem?_replicate]
  split <;> simp

/-- A number read in zero bytes is 0. -/
theorem le_zeros (n i k : Nat) : le (zeros n) i k = 0 := by
  induction k generalizing i with
  | zero => rfl
  | succ k ih => simp [le, byteAt_zeros, ih]

/-- A number is read alike behind one byte more. -/
theorem le_cons (x : Byte) (b : Bytes) (i n : Nat) : le (x :: b) (i + 1) n = le b i n := by
  induction n generalizing i with
  | zero => rfl
  | succ n ih => simp [le, byteAt, ih]

@[simp] theorem toLe_length (n v : Nat) : (toLe n v).length = n := by
  induction n generalizing v with
  | zero => rfl
  | succ n ih => simp [toLe, ih]

/-- A number written little-endian is read back, as far as its bytes reach (00 R11). -/
theorem le_toLe (n v : Nat) (r : Bytes) : le (toLe n v ++ r) 0 n = v % 256 ^ n := by
  induction n generalizing v with
  | zero => simp [le, Nat.mod_one]
  | succ n ih =>
    have h : byteAt (toLe (n + 1) v ++ r) 0 = v % 256 := by simp [toLe, byteAt]
    rw [le, h]
    simp only [toLe, List.cons_append, le_cons, ih]
    rw [Nat.pow_succ, Nat.mul_comm (256 ^ n), Nat.mod_mul]

/-- A number read little-endian fits its bytes. -/
theorem le_lt (b : Bytes) (i n : Nat) : le b i n < 256 ^ n := by
  induction n generalizing i with
  | zero => simp [le]
  | succ n ih =>
    have h1 := ih (i + 1)
    have h2 : byteAt b i < 256 := (b.getD i 0).isLt
    rw [le, Nat.pow_succ]
    omega

theorem crcBit_lt (r : Nat) (h : r < 2 ^ 32) : crcBit r < 2 ^ 32 := by
  unfold crcBit
  split
  · exact Nat.xor_lt_two_pow (by omega) (by decide)
  · omega

theorem crcByte_lt (r : Nat) (b : Byte) (h : r < 2 ^ 32) : crcByte r b < 2 ^ 32 := by
  have hb : r ^^^ b.toNat < 2 ^ 32 := Nat.xor_lt_two_pow h (Nat.lt_trans b.isLt (by decide))
  unfold crcByte
  exact crcBit_lt _ (crcBit_lt _ (crcBit_lt _ (crcBit_lt _ (crcBit_lt _ (crcBit_lt _ (crcBit_lt _ (crcBit_lt _ hb)))))))

/-- A CRC-32C is a 32-bit number. -/
theorem crc32c_lt (p : Nat) (b : Bytes) (h : p < 2 ^ 32) : crc32c p b < 2 ^ 32 := by
  have key : ∀ (b : Bytes) (p : Nat), p < 2 ^ 32 → b.foldl crcByte p < 2 ^ 32 := by
    intro b
    induction b with
    | nil => exact fun _ hp => hp
    | cons x b ih => exact fun p hp => ih _ (crcByte_lt p x hp)
  exact Nat.xor_lt_two_pow (key b p h) (by decide)

/-- Among `count + 1` numbers in a row modulo `n` one is free when at most `count` are taken; here: when none is. -/
theorem chooseFree_isSome_of_free (free n count : Nat) (taken : Nat → Bool) (k : Nat) (hk : k ≤ count)
    (h : taken ((free + k) % n) = false) : (chooseFree free n count taken).isSome = true := by
  unfold chooseFree
  rw [List.find?_isSome]
  exact ⟨(free + k) % n, List.mem_map.2 ⟨k, List.mem_range.2 (by omega), rfl⟩, by simp [h]⟩

end Sys2Proof.Machine
end

