-- ==== Sys2Proof/Laws/State.lean ====
section
/-! SUPPORT. One lemma for each field under each update of Machine/Update.lean, true by `rfl`, so that no proof unfolds a
record update. -/

namespace Sys2Proof.Machine

@[simp] theorem State.onPending_pending (s : State) (f : List Instr → List Instr) : (s.onPending f).pending = f s.pending := rfl
@[simp] theorem State.onPending_arrivals (s : State) (f : List Instr → List Instr) : (s.onPending f).arrivals = s.arrivals := rfl
@[simp] theorem State.onPending_time (s : State) (f : List Instr → List Instr) : (s.onPending f).time = s.time := rfl
@[simp] theorem State.onPending_ftu (s : State) (f : List Instr → List Instr) : (s.onPending f).ftu = s.ftu := rfl
@[simp] theorem State.onPending_links (s : State) (f : List Instr → List Instr) : (s.onPending f).links = s.links := rfl
@[simp] theorem State.onPending_fatal (s : State) (f : List Instr → List Instr) : (s.onPending f).fatal = s.fatal := rfl
@[simp] theorem State.onPending_mem (s : State) (f : List Instr → List Instr) : (s.onPending f).mem = s.mem := rfl
@[simp] theorem State.onPending_dram (s : State) (f : List Instr → List Instr) : (s.onPending f).dram = s.dram := rfl
@[simp] theorem State.onPending_host (s : State) (f : List Instr → List Instr) : (s.onPending f).host = s.host := rfl
@[simp] theorem State.onPending_qm (s : State) (f : List Instr → List Instr) : (s.onPending f).qm = s.qm := rfl
@[simp] theorem State.onPending_cmd (s : State) (f : List Instr → List Instr) : (s.onPending f).cmd = s.cmd := rfl
@[simp] theorem State.onPending_damask (s : State) (f : List Instr → List Instr) : (s.onPending f).damask = s.damask := rfl
@[simp] theorem State.onPending_tables (s : State) (f : List Instr → List Instr) : (s.onPending f).tables = s.tables := rfl
@[simp] theorem State.onPending_twill (s : State) (f : List Instr → List Instr) : (s.onPending f).twill = s.twill := rfl
@[simp] theorem State.onPending_krm (s : State) (f : List Instr → List Instr) : (s.onPending f).krm = s.krm := rfl
@[simp] theorem State.onPending_blk (s : State) (f : List Instr → List Instr) : (s.onPending f).blk = s.blk := rfl
@[simp] theorem State.onPending_cy (s : State) (f : List Instr → List Instr) : (s.onPending f).cy = s.cy := rfl
@[simp] theorem State.onPending_dma (s : State) (f : List Instr → List Instr) : (s.onPending f).dma = s.dma := rfl
@[simp] theorem State.onPending_cores (s : State) (f : List Instr → List Instr) : (s.onPending f).cores = s.cores := rfl
@[simp] theorem State.onPending_boot (s : State) (f : List Instr → List Instr) : (s.onPending f).boot = s.boot := rfl
@[simp] theorem State.onPending_power (s : State) (f : List Instr → List Instr) : (s.onPending f).power = s.power := rfl
@[simp] theorem State.onPending_trust (s : State) (f : List Instr → List Instr) : (s.onPending f).trust = s.trust := rfl
@[simp] theorem State.onPending_ev (s : State) (f : List Instr → List Instr) : (s.onPending f).ev = s.ev := rfl
@[simp] theorem State.onPending_ct (s : State) (f : List Instr → List Instr) : (s.onPending f).ct = s.ct := rfl
@[simp] theorem State.onPending_pins (s : State) (f : List Instr → List Instr) : (s.onPending f).pins = s.pins := rfl
@[simp] theorem State.onPending_out (s : State) (f : List Instr → List Instr) : (s.onPending f).out = s.out := rfl
@[simp] theorem State.onPending_free (s : State) (f : List Instr → List Instr) : (s.onPending f).free = s.free := rfl

@[simp] theorem State.onArrivals_pending (s : State) (f : List (Nat × Instr) → List (Nat × Instr)) : (s.onArrivals f).pending = s.pending := rfl
@[simp] theorem State.onArrivals_arrivals (s : State) (f : List (Nat × Instr) → List (Nat × Instr)) : (s.onArrivals f).arrivals = f s.arrivals := rfl
@[simp] theorem State.onArrivals_time (s : State) (f : List (Nat × Instr) → List (Nat × Instr)) : (s.onArrivals f).time = s.time := rfl
@[simp] theorem State.onArrivals_ftu (s : State) (f : List (Nat × Instr) → List (Nat × Instr)) : (s.onArrivals f).ftu = s.ftu := rfl
@[simp] theorem State.onArrivals_links (s : State) (f : List (Nat × Instr) → List (Nat × Instr)) : (s.onArrivals f).links = s.links := rfl
@[simp] theorem State.onArrivals_fatal (s : State) (f : List (Nat × Instr) → List (Nat × Instr)) : (s.onArrivals f).fatal = s.fatal := rfl
@[simp] theorem State.onArrivals_mem (s : State) (f : List (Nat × Instr) → List (Nat × Instr)) : (s.onArrivals f).mem = s.mem := rfl
@[simp] theorem State.onArrivals_dram (s : State) (f : List (Nat × Instr) → List (Nat × Instr)) : (s.onArrivals f).dram = s.dram := rfl
@[simp] theorem State.onArrivals_host (s : State) (f : List (Nat × Instr) → List (Nat × Instr)) : (s.onArrivals f).host = s.host := rfl
@[simp] theorem State.onArrivals_qm (s : State) (f : List (Nat × Instr) → List (Nat × Instr)) : (s.onArrivals f).qm = s.qm := rfl
@[simp] theorem State.onArrivals_cmd (s : State) (f : List (Nat × Instr) → List (Nat × Instr)) : (s.onArrivals f).cmd = s.cmd := rfl
@[simp] theorem State.onArrivals_damask (s : State) (f : List (Nat × Instr) → List (Nat × Instr)) : (s.onArrivals f).damask = s.damask := rfl
@[simp] theorem State.onArrivals_tables (s : State) (f : List (Nat × Instr) → List (Nat × Instr)) : (s.onArrivals f).tables = s.tables := rfl
@[simp] theorem State.onArrivals_twill (s : State) (f : List (Nat × Instr) → List (Nat × Instr)) : (s.onArrivals f).twill = s.twill := rfl
@[simp] theorem State.onArrivals_krm (s : State) (f : List (Nat × Instr) → List (Nat × Instr)) : (s.onArrivals f).krm = s.krm := rfl
@[simp] theorem State.onArrivals_blk (s : State) (f : List (Nat × Instr) → List (Nat × Instr)) : (s.onArrivals f).blk = s.blk := rfl
@[simp] theorem State.onArrivals_cy (s : State) (f : List (Nat × Instr) → List (Nat × Instr)) : (s.onArrivals f).cy = s.cy := rfl
@[simp] theorem State.onArrivals_dma (s : State) (f : List (Nat × Instr) → List (Nat × Instr)) : (s.onArrivals f).dma = s.dma := rfl
@[simp] theorem State.onArrivals_cores (s : State) (f : List (Nat × Instr) → List (Nat × Instr)) : (s.onArrivals f).cores = s.cores := rfl
@[simp] theorem State.onArrivals_boot (s : State) (f : List (Nat × Instr) → List (Nat × Instr)) : (s.onArrivals f).boot = s.boot := rfl
@[simp] theorem State.onArrivals_power (s : State) (f : List (Nat × Instr) → List (Nat × Instr)) : (s.onArrivals f).power = s.power := rfl
@[simp] theorem State.onArrivals_trust (s : State) (f : List (Nat × Instr) → List (Nat × Instr)) : (s.onArrivals f).trust = s.trust := rfl
@[simp] theorem State.onArrivals_ev (s : State) (f : List (Nat × Instr) → List (Nat × Instr)) : (s.onArrivals f).ev = s.ev := rfl
@[simp] theorem State.onArrivals_ct (s : State) (f : List (Nat × Instr) → List (Nat × Instr)) : (s.onArrivals f).ct = s.ct := rfl
@[simp] theorem State.onArrivals_pins (s : State) (f : List (Nat × Instr) → List (Nat × Instr)) : (s.onArrivals f).pins = s.pins := rfl
@[simp] theorem State.onArrivals_out (s : State) (f : List (Nat × Instr) → List (Nat × Instr)) : (s.onArrivals f).out = s.out := rfl
@[simp] theorem State.onArrivals_free (s : State) (f : List (Nat × Instr) → List (Nat × Instr)) : (s.onArrivals f).free = s.free := rfl

@[simp] theorem State.onTime_pending (s : State) (f : TimeSt → TimeSt) : (s.onTime f).pending = s.pending := rfl
@[simp] theorem State.onTime_arrivals (s : State) (f : TimeSt → TimeSt) : (s.onTime f).arrivals = s.arrivals := rfl
@[simp] theorem State.onTime_time (s : State) (f : TimeSt → TimeSt) : (s.onTime f).time = f s.time := rfl
@[simp] theorem State.onTime_ftu (s : State) (f : TimeSt → TimeSt) : (s.onTime f).ftu = s.ftu := rfl
@[simp] theorem State.onTime_links (s : State) (f : TimeSt → TimeSt) : (s.onTime f).links = s.links := rfl
@[simp] theorem State.onTime_fatal (s : State) (f : TimeSt → TimeSt) : (s.onTime f).fatal = s.fatal := rfl
@[simp] theorem State.onTime_mem (s : State) (f : TimeSt → TimeSt) : (s.onTime f).mem = s.mem := rfl
@[simp] theorem State.onTime_dram (s : State) (f : TimeSt → TimeSt) : (s.onTime f).dram = s.dram := rfl
@[simp] theorem State.onTime_host (s : State) (f : TimeSt → TimeSt) : (s.onTime f).host = s.host := rfl
@[simp] theorem State.onTime_qm (s : State) (f : TimeSt → TimeSt) : (s.onTime f).qm = s.qm := rfl
@[simp] theorem State.onTime_cmd (s : State) (f : TimeSt → TimeSt) : (s.onTime f).cmd = s.cmd := rfl
@[simp] theorem State.onTime_damask (s : State) (f : TimeSt → TimeSt) : (s.onTime f).damask = s.damask := rfl
@[simp] theorem State.onTime_tables (s : State) (f : TimeSt → TimeSt) : (s.onTime f).tables = s.tables := rfl
@[simp] theorem State.onTime_twill (s : State) (f : TimeSt → TimeSt) : (s.onTime f).twill = s.twill := rfl
@[simp] theorem State.onTime_krm (s : State) (f : TimeSt → TimeSt) : (s.onTime f).krm = s.krm := rfl
@[simp] theorem State.onTime_blk (s : State) (f : TimeSt → TimeSt) : (s.onTime f).blk = s.blk := rfl
@[simp] theorem State.onTime_cy (s : State) (f : TimeSt → TimeSt) : (s.onTime f).cy = s.cy := rfl
@[simp] theorem State.onTime_dma (s : State) (f : TimeSt → TimeSt) : (s.onTime f).dma = s.dma := rfl
@[simp] theorem State.onTime_cores (s : State) (f : TimeSt → TimeSt) : (s.onTime f).cores = s.cores := rfl
@[simp] theorem State.onTime_boot (s : State) (f : TimeSt → TimeSt) : (s.onTime f).boot = s.boot := rfl
@[simp] theorem State.onTime_power (s : State) (f : TimeSt → TimeSt) : (s.onTime f).power = s.power := rfl
@[simp] theorem State.onTime_trust (s : State) (f : TimeSt → TimeSt) : (s.onTime f).trust = s.trust := rfl
@[simp] theorem State.onTime_ev (s : State) (f : TimeSt → TimeSt) : (s.onTime f).ev = s.ev := rfl
@[simp] theorem State.onTime_ct (s : State) (f : TimeSt → TimeSt) : (s.onTime f).ct = s.ct := rfl
@[simp] theorem State.onTime_pins (s : State) (f : TimeSt → TimeSt) : (s.onTime f).pins = s.pins := rfl
@[simp] theorem State.onTime_out (s : State) (f : TimeSt → TimeSt) : (s.onTime f).out = s.out := rfl
@[simp] theorem State.onTime_free (s : State) (f : TimeSt → TimeSt) : (s.onTime f).free = s.free := rfl

@[simp] theorem State.onFtu_pending (s : State) (f : FtuSt → FtuSt) : (s.onFtu f).pending = s.pending := rfl
@[simp] theorem State.onFtu_arrivals (s : State) (f : FtuSt → FtuSt) : (s.onFtu f).arrivals = s.arrivals := rfl
@[simp] theorem State.onFtu_time (s : State) (f : FtuSt → FtuSt) : (s.onFtu f).time = s.time := rfl
@[simp] theorem State.onFtu_ftu (s : State) (f : FtuSt → FtuSt) : (s.onFtu f).ftu = f s.ftu := rfl
@[simp] theorem State.onFtu_links (s : State) (f : FtuSt → FtuSt) : (s.onFtu f).links = s.links := rfl
@[simp] theorem State.onFtu_fatal (s : State) (f : FtuSt → FtuSt) : (s.onFtu f).fatal = s.fatal := rfl
@[simp] theorem State.onFtu_mem (s : State) (f : FtuSt → FtuSt) : (s.onFtu f).mem = s.mem := rfl
@[simp] theorem State.onFtu_dram (s : State) (f : FtuSt → FtuSt) : (s.onFtu f).dram = s.dram := rfl
@[simp] theorem State.onFtu_host (s : State) (f : FtuSt → FtuSt) : (s.onFtu f).host = s.host := rfl
@[simp] theorem State.onFtu_qm (s : State) (f : FtuSt → FtuSt) : (s.onFtu f).qm = s.qm := rfl
@[simp] theorem State.onFtu_cmd (s : State) (f : FtuSt → FtuSt) : (s.onFtu f).cmd = s.cmd := rfl
@[simp] theorem State.onFtu_damask (s : State) (f : FtuSt → FtuSt) : (s.onFtu f).damask = s.damask := rfl
@[simp] theorem State.onFtu_tables (s : State) (f : FtuSt → FtuSt) : (s.onFtu f).tables = s.tables := rfl
@[simp] theorem State.onFtu_twill (s : State) (f : FtuSt → FtuSt) : (s.onFtu f).twill = s.twill := rfl
@[simp] theorem State.onFtu_krm (s : State) (f : FtuSt → FtuSt) : (s.onFtu f).krm = s.krm := rfl
@[simp] theorem State.onFtu_blk (s : State) (f : FtuSt → FtuSt) : (s.onFtu f).blk = s.blk := rfl
@[simp] theorem State.onFtu_cy (s : State) (f : FtuSt → FtuSt) : (s.onFtu f).cy = s.cy := rfl
@[simp] theorem State.onFtu_dma (s : State) (f : FtuSt → FtuSt) : (s.onFtu f).dma = s.dma := rfl
@[simp] theorem State.onFtu_cores (s : State) (f : FtuSt → FtuSt) : (s.onFtu f).cores = s.cores := rfl
@[simp] theorem State.onFtu_boot (s : State) (f : FtuSt → FtuSt) : (s.onFtu f).boot = s.boot := rfl
@[simp] theorem State.onFtu_power (s : State) (f : FtuSt → FtuSt) : (s.onFtu f).power = s.power := rfl
@[simp] theorem State.onFtu_trust (s : State) (f : FtuSt → FtuSt) : (s.onFtu f).trust = s.trust := rfl
@[simp] theorem State.onFtu_ev (s : State) (f : FtuSt → FtuSt) : (s.onFtu f).ev = s.ev := rfl
@[simp] theorem State.onFtu_ct (s : State) (f : FtuSt → FtuSt) : (s.onFtu f).ct = s.ct := rfl
@[simp] theorem State.onFtu_pins (s : State) (f : FtuSt → FtuSt) : (s.onFtu f).pins = s.pins := rfl
@[simp] theorem State.onFtu_out (s : State) (f : FtuSt → FtuSt) : (s.onFtu f).out = s.out := rfl
@[simp] theorem State.onFtu_free (s : State) (f : FtuSt → FtuSt) : (s.onFtu f).free = s.free := rfl

@[simp] theorem State.onLinks_pending (s : State) (f : List LinkSt → List LinkSt) : (s.onLinks f).pending = s.pending := rfl
@[simp] theorem State.onLinks_arrivals (s : State) (f : List LinkSt → List LinkSt) : (s.onLinks f).arrivals = s.arrivals := rfl
@[simp] theorem State.onLinks_time (s : State) (f : List LinkSt → List LinkSt) : (s.onLinks f).time = s.time := rfl
@[simp] theorem State.onLinks_ftu (s : State) (f : List LinkSt → List LinkSt) : (s.onLinks f).ftu = s.ftu := rfl
@[simp] theorem State.onLinks_links (s : State) (f : List LinkSt → List LinkSt) : (s.onLinks f).links = f s.links := rfl
@[simp] theorem State.onLinks_fatal (s : State) (f : List LinkSt → List LinkSt) : (s.onLinks f).fatal = s.fatal := rfl
@[simp] theorem State.onLinks_mem (s : State) (f : List LinkSt → List LinkSt) : (s.onLinks f).mem = s.mem := rfl
@[simp] theorem State.onLinks_dram (s : State) (f : List LinkSt → List LinkSt) : (s.onLinks f).dram = s.dram := rfl
@[simp] theorem State.onLinks_host (s : State) (f : List LinkSt → List LinkSt) : (s.onLinks f).host = s.host := rfl
@[simp] theorem State.onLinks_qm (s : State) (f : List LinkSt → List LinkSt) : (s.onLinks f).qm = s.qm := rfl
@[simp] theorem State.onLinks_cmd (s : State) (f : List LinkSt → List LinkSt) : (s.onLinks f).cmd = s.cmd := rfl
@[simp] theorem State.onLinks_damask (s : State) (f : List LinkSt → List LinkSt) : (s.onLinks f).damask = s.damask := rfl
@[simp] theorem State.onLinks_tables (s : State) (f : List LinkSt → List LinkSt) : (s.onLinks f).tables = s.tables := rfl
@[simp] theorem State.onLinks_twill (s : State) (f : List LinkSt → List LinkSt) : (s.onLinks f).twill = s.twill := rfl
@[simp] theorem State.onLinks_krm (s : State) (f : List LinkSt → List LinkSt) : (s.onLinks f).krm = s.krm := rfl
@[simp] theorem State.onLinks_blk (s : State) (f : List LinkSt → List LinkSt) : (s.onLinks f).blk = s.blk := rfl
@[simp] theorem State.onLinks_cy (s : State) (f : List LinkSt → List LinkSt) : (s.onLinks f).cy = s.cy := rfl
@[simp] theorem State.onLinks_dma (s : State) (f : List LinkSt → List LinkSt) : (s.onLinks f).dma = s.dma := rfl
@[simp] theorem State.onLinks_cores (s : State) (f : List LinkSt → List LinkSt) : (s.onLinks f).cores = s.cores := rfl
@[simp] theorem State.onLinks_boot (s : State) (f : List LinkSt → List LinkSt) : (s.onLinks f).boot = s.boot := rfl
@[simp] theorem State.onLinks_power (s : State) (f : List LinkSt → List LinkSt) : (s.onLinks f).power = s.power := rfl
@[simp] theorem State.onLinks_trust (s : State) (f : List LinkSt → List LinkSt) : (s.onLinks f).trust = s.trust := rfl
@[simp] theorem State.onLinks_ev (s : State) (f : List LinkSt → List LinkSt) : (s.onLinks f).ev = s.ev := rfl
@[simp] theorem State.onLinks_ct (s : State) (f : List LinkSt → List LinkSt) : (s.onLinks f).ct = s.ct := rfl
@[simp] theorem State.onLinks_pins (s : State) (f : List LinkSt → List LinkSt) : (s.onLinks f).pins = s.pins := rfl
@[simp] theorem State.onLinks_out (s : State) (f : List LinkSt → List LinkSt) : (s.onLinks f).out = s.out := rfl
@[simp] theorem State.onLinks_free (s : State) (f : List LinkSt → List LinkSt) : (s.onLinks f).free = s.free := rfl

@[simp] theorem State.onFatal_pending (s : State) (f : Bool → Bool) : (s.onFatal f).pending = s.pending := rfl
@[simp] theorem State.onFatal_arrivals (s : State) (f : Bool → Bool) : (s.onFatal f).arrivals = s.arrivals := rfl
@[simp] theorem State.onFatal_time (s : State) (f : Bool → Bool) : (s.onFatal f).time = s.time := rfl
@[simp] theorem State.onFatal_ftu (s : State) (f : Bool → Bool) : (s.onFatal f).ftu = s.ftu := rfl
@[simp] theorem State.onFatal_links (s : State) (f : Bool → Bool) : (s.onFatal f).links = s.links := rfl
@[simp] theorem State.onFatal_fatal (s : State) (f : Bool → Bool) : (s.onFatal f).fatal = f s.fatal := rfl
@[simp] theorem State.onFatal_mem (s : State) (f : Bool → Bool) : (s.onFatal f).mem = s.mem := rfl
@[simp] theorem State.onFatal_dram (s : State) (f : Bool → Bool) : (s.onFatal f).dram = s.dram := rfl
@[simp] theorem State.onFatal_host (s : State) (f : Bool → Bool) : (s.onFatal f).host = s.host := rfl
@[simp] theorem State.onFatal_qm (s : State) (f : Bool → Bool) : (s.onFatal f).qm = s.qm := rfl
@[simp] theorem State.onFatal_cmd (s : State) (f : Bool → Bool) : (s.onFatal f).cmd = s.cmd := rfl
@[simp] theorem State.onFatal_damask (s : State) (f : Bool → Bool) : (s.onFatal f).damask = s.damask := rfl
@[simp] theorem State.onFatal_tables (s : State) (f : Bool → Bool) : (s.onFatal f).tables = s.tables := rfl
@[simp] theorem State.onFatal_twill (s : State) (f : Bool → Bool) : (s.onFatal f).twill = s.twill := rfl
@[simp] theorem State.onFatal_krm (s : State) (f : Bool → Bool) : (s.onFatal f).krm = s.krm := rfl
@[simp] theorem State.onFatal_blk (s : State) (f : Bool → Bool) : (s.onFatal f).blk = s.blk := rfl
@[simp] theorem State.onFatal_cy (s : State) (f : Bool → Bool) : (s.onFatal f).cy = s.cy := rfl
@[simp] theorem State.onFatal_dma (s : State) (f : Bool → Bool) : (s.onFatal f).dma = s.dma := rfl
@[simp] theorem State.onFatal_cores (s : State) (f : Bool → Bool) : (s.onFatal f).cores = s.cores := rfl
@[simp] theorem State.onFatal_boot (s : State) (f : Bool → Bool) : (s.onFatal f).boot = s.boot := rfl
@[simp] theorem State.onFatal_power (s : State) (f : Bool → Bool) : (s.onFatal f).power = s.power := rfl
@[simp] theorem State.onFatal_trust (s : State) (f : Bool → Bool) : (s.onFatal f).trust = s.trust := rfl
@[simp] theorem State.onFatal_ev (s : State) (f : Bool → Bool) : (s.onFatal f).ev = s.ev := rfl
@[simp] theorem State.onFatal_ct (s : State) (f : Bool → Bool) : (s.onFatal f).ct = s.ct := rfl
@[simp] theorem State.onFatal_pins (s : State) (f : Bool → Bool) : (s.onFatal f).pins = s.pins := rfl
@[simp] theorem State.onFatal_out (s : State) (f : Bool → Bool) : (s.onFatal f).out = s.out := rfl
@[simp] theorem State.onFatal_free (s : State) (f : Bool → Bool) : (s.onFatal f).free = s.free := rfl

@[simp] theorem State.onMem_pending (s : State) (f : List Host.Cell → List Host.Cell) : (s.onMem f).pending = s.pending := rfl
@[simp] theorem State.onMem_arrivals (s : State) (f : List Host.Cell → List Host.Cell) : (s.onMem f).arrivals = s.arrivals := rfl
@[simp] theorem State.onMem_time (s : State) (f : List Host.Cell → List Host.Cell) : (s.onMem f).time = s.time := rfl
@[simp] theorem State.onMem_ftu (s : State) (f : List Host.Cell → List Host.Cell) : (s.onMem f).ftu = s.ftu := rfl
@[simp] theorem State.onMem_links (s : State) (f : List Host.Cell → List Host.Cell) : (s.onMem f).links = s.links := rfl
@[simp] theorem State.onMem_fatal (s : State) (f : List Host.Cell → List Host.Cell) : (s.onMem f).fatal = s.fatal := rfl
@[simp] theorem State.onMem_mem (s : State) (f : List Host.Cell → List Host.Cell) : (s.onMem f).mem = f s.mem := rfl
@[simp] theorem State.onMem_dram (s : State) (f : List Host.Cell → List Host.Cell) : (s.onMem f).dram = s.dram := rfl
@[simp] theorem State.onMem_host (s : State) (f : List Host.Cell → List Host.Cell) : (s.onMem f).host = s.host := rfl
@[simp] theorem State.onMem_qm (s : State) (f : List Host.Cell → List Host.Cell) : (s.onMem f).qm = s.qm := rfl
@[simp] theorem State.onMem_cmd (s : State) (f : List Host.Cell → List Host.Cell) : (s.onMem f).cmd = s.cmd := rfl
@[simp] theorem State.onMem_damask (s : State) (f : List Host.Cell → List Host.Cell) : (s.onMem f).damask = s.damask := rfl
@[simp] theorem State.onMem_tables (s : State) (f : List Host.Cell → List Host.Cell) : (s.onMem f).tables = s.tables := rfl
@[simp] theorem State.onMem_twill (s : State) (f : List Host.Cell → List Host.Cell) : (s.onMem f).twill = s.twill := rfl
@[simp] theorem State.onMem_krm (s : State) (f : List Host.Cell → List Host.Cell) : (s.onMem f).krm = s.krm := rfl
@[simp] theorem State.onMem_blk (s : State) (f : List Host.Cell → List Host.Cell) : (s.onMem f).blk = s.blk := rfl
@[simp] theorem State.onMem_cy (s : State) (f : List Host.Cell → List Host.Cell) : (s.onMem f).cy = s.cy := rfl
@[simp] theorem State.onMem_dma (s : State) (f : List Host.Cell → List Host.Cell) : (s.onMem f).dma = s.dma := rfl
@[simp] theorem State.onMem_cores (s : State) (f : List Host.Cell → List Host.Cell) : (s.onMem f).cores = s.cores := rfl
@[simp] theorem State.onMem_boot (s : State) (f : List Host.Cell → List Host.Cell) : (s.onMem f).boot = s.boot := rfl
@[simp] theorem State.onMem_power (s : State) (f : List Host.Cell → List Host.Cell) : (s.onMem f).power = s.power := rfl
@[simp] theorem State.onMem_trust (s : State) (f : List Host.Cell → List Host.Cell) : (s.onMem f).trust = s.trust := rfl
@[simp] theorem State.onMem_ev (s : State) (f : List Host.Cell → List Host.Cell) : (s.onMem f).ev = s.ev := rfl
@[simp] theorem State.onMem_ct (s : State) (f : List Host.Cell → List Host.Cell) : (s.onMem f).ct = s.ct := rfl
@[simp] theorem State.onMem_pins (s : State) (f : List Host.Cell → List Host.Cell) : (s.onMem f).pins = s.pins := rfl
@[simp] theorem State.onMem_out (s : State) (f : List Host.Cell → List Host.Cell) : (s.onMem f).out = s.out := rfl
@[simp] theorem State.onMem_free (s : State) (f : List Host.Cell → List Host.Cell) : (s.onMem f).free = s.free := rfl

@[simp] theorem State.onDram_pending (s : State) (f : DramSt → DramSt) : (s.onDram f).pending = s.pending := rfl
@[simp] theorem State.onDram_arrivals (s : State) (f : DramSt → DramSt) : (s.onDram f).arrivals = s.arrivals := rfl
@[simp] theorem State.onDram_time (s : State) (f : DramSt → DramSt) : (s.onDram f).time = s.time := rfl
@[simp] theorem State.onDram_ftu (s : State) (f : DramSt → DramSt) : (s.onDram f).ftu = s.ftu := rfl
@[simp] theorem State.onDram_links (s : State) (f : DramSt → DramSt) : (s.onDram f).links = s.links := rfl
@[simp] theorem State.onDram_fatal (s : State) (f : DramSt → DramSt) : (s.onDram f).fatal = s.fatal := rfl
@[simp] theorem State.onDram_mem (s : State) (f : DramSt → DramSt) : (s.onDram f).mem = s.mem := rfl
@[simp] theorem State.onDram_dram (s : State) (f : DramSt → DramSt) : (s.onDram f).dram = f s.dram := rfl
@[simp] theorem State.onDram_host (s : State) (f : DramSt → DramSt) : (s.onDram f).host = s.host := rfl
@[simp] theorem State.onDram_qm (s : State) (f : DramSt → DramSt) : (s.onDram f).qm = s.qm := rfl
@[simp] theorem State.onDram_cmd (s : State) (f : DramSt → DramSt) : (s.onDram f).cmd = s.cmd := rfl
@[simp] theorem State.onDram_damask (s : State) (f : DramSt → DramSt) : (s.onDram f).damask = s.damask := rfl
@[simp] theorem State.onDram_tables (s : State) (f : DramSt → DramSt) : (s.onDram f).tables = s.tables := rfl
@[simp] theorem State.onDram_twill (s : State) (f : DramSt → DramSt) : (s.onDram f).twill = s.twill := rfl
@[simp] theorem State.onDram_krm (s : State) (f : DramSt → DramSt) : (s.onDram f).krm = s.krm := rfl
@[simp] theorem State.onDram_blk (s : State) (f : DramSt → DramSt) : (s.onDram f).blk = s.blk := rfl
@[simp] theorem State.onDram_cy (s : State) (f : DramSt → DramSt) : (s.onDram f).cy = s.cy := rfl
@[simp] theorem State.onDram_dma (s : State) (f : DramSt → DramSt) : (s.onDram f).dma = s.dma := rfl
@[simp] theorem State.onDram_cores (s : State) (f : DramSt → DramSt) : (s.onDram f).cores = s.cores := rfl
@[simp] theorem State.onDram_boot (s : State) (f : DramSt → DramSt) : (s.onDram f).boot = s.boot := rfl
@[simp] theorem State.onDram_power (s : State) (f : DramSt → DramSt) : (s.onDram f).power = s.power := rfl
@[simp] theorem State.onDram_trust (s : State) (f : DramSt → DramSt) : (s.onDram f).trust = s.trust := rfl
@[simp] theorem State.onDram_ev (s : State) (f : DramSt → DramSt) : (s.onDram f).ev = s.ev := rfl
@[simp] theorem State.onDram_ct (s : State) (f : DramSt → DramSt) : (s.onDram f).ct = s.ct := rfl
@[simp] theorem State.onDram_pins (s : State) (f : DramSt → DramSt) : (s.onDram f).pins = s.pins := rfl
@[simp] theorem State.onDram_out (s : State) (f : DramSt → DramSt) : (s.onDram f).out = s.out := rfl
@[simp] theorem State.onDram_free (s : State) (f : DramSt → DramSt) : (s.onDram f).free = s.free := rfl

@[simp] theorem State.onHost_pending (s : State) (f : HostSt → HostSt) : (s.onHost f).pending = s.pending := rfl
@[simp] theorem State.onHost_arrivals (s : State) (f : HostSt → HostSt) : (s.onHost f).arrivals = s.arrivals := rfl
@[simp] theorem State.onHost_time (s : State) (f : HostSt → HostSt) : (s.onHost f).time = s.time := rfl
@[simp] theorem State.onHost_ftu (s : State) (f : HostSt → HostSt) : (s.onHost f).ftu = s.ftu := rfl
@[simp] theorem State.onHost_links (s : State) (f : HostSt → HostSt) : (s.onHost f).links = s.links := rfl
@[simp] theorem State.onHost_fatal (s : State) (f : HostSt → HostSt) : (s.onHost f).fatal = s.fatal := rfl
@[simp] theorem State.onHost_mem (s : State) (f : HostSt → HostSt) : (s.onHost f).mem = s.mem := rfl
@[simp] theorem State.onHost_dram (s : State) (f : HostSt → HostSt) : (s.onHost f).dram = s.dram := rfl
@[simp] theorem State.onHost_host (s : State) (f : HostSt → HostSt) : (s.onHost f).host = f s.host := rfl
@[simp] theorem State.onHost_qm (s : State) (f : HostSt → HostSt) : (s.onHost f).qm = s.qm := rfl
@[simp] theorem State.onHost_cmd (s : State) (f : HostSt → HostSt) : (s.onHost f).cmd = s.cmd := rfl
@[simp] theorem State.onHost_damask (s : State) (f : HostSt → HostSt) : (s.onHost f).damask = s.damask := rfl
@[simp] theorem State.onHost_tables (s : State) (f : HostSt → HostSt) : (s.onHost f).tables = s.tables := rfl
@[simp] theorem State.onHost_twill (s : State) (f : HostSt → HostSt) : (s.onHost f).twill = s.twill := rfl
@[simp] theorem State.onHost_krm (s : State) (f : HostSt → HostSt) : (s.onHost f).krm = s.krm := rfl
@[simp] theorem State.onHost_blk (s : State) (f : HostSt → HostSt) : (s.onHost f).blk = s.blk := rfl
@[simp] theorem State.onHost_cy (s : State) (f : HostSt → HostSt) : (s.onHost f).cy = s.cy := rfl
@[simp] theorem State.onHost_dma (s : State) (f : HostSt → HostSt) : (s.onHost f).dma = s.dma := rfl
@[simp] theorem State.onHost_cores (s : State) (f : HostSt → HostSt) : (s.onHost f).cores = s.cores := rfl
@[simp] theorem State.onHost_boot (s : State) (f : HostSt → HostSt) : (s.onHost f).boot = s.boot := rfl
@[simp] theorem State.onHost_power (s : State) (f : HostSt → HostSt) : (s.onHost f).power = s.power := rfl
@[simp] theorem State.onHost_trust (s : State) (f : HostSt → HostSt) : (s.onHost f).trust = s.trust := rfl
@[simp] theorem State.onHost_ev (s : State) (f : HostSt → HostSt) : (s.onHost f).ev = s.ev := rfl
@[simp] theorem State.onHost_ct (s : State) (f : HostSt → HostSt) : (s.onHost f).ct = s.ct := rfl
@[simp] theorem State.onHost_pins (s : State) (f : HostSt → HostSt) : (s.onHost f).pins = s.pins := rfl
@[simp] theorem State.onHost_out (s : State) (f : HostSt → HostSt) : (s.onHost f).out = s.out := rfl
@[simp] theorem State.onHost_free (s : State) (f : HostSt → HostSt) : (s.onHost f).free = s.free := rfl

@[simp] theorem State.onQm_pending (s : State) (f : QmSt → QmSt) : (s.onQm f).pending = s.pending := rfl
@[simp] theorem State.onQm_arrivals (s : State) (f : QmSt → QmSt) : (s.onQm f).arrivals = s.arrivals := rfl
@[simp] theorem State.onQm_time (s : State) (f : QmSt → QmSt) : (s.onQm f).time = s.time := rfl
@[simp] theorem State.onQm_ftu (s : State) (f : QmSt → QmSt) : (s.onQm f).ftu = s.ftu := rfl
@[simp] theorem State.onQm_links (s : State) (f : QmSt → QmSt) : (s.onQm f).links = s.links := rfl
@[simp] theorem State.onQm_fatal (s : State) (f : QmSt → QmSt) : (s.onQm f).fatal = s.fatal := rfl
@[simp] theorem State.onQm_mem (s : State) (f : QmSt → QmSt) : (s.onQm f).mem = s.mem := rfl
@[simp] theorem State.onQm_dram (s : State) (f : QmSt → QmSt) : (s.onQm f).dram = s.dram := rfl
@[simp] theorem State.onQm_host (s : State) (f : QmSt → QmSt) : (s.onQm f).host = s.host := rfl
@[simp] theorem State.onQm_qm (s : State) (f : QmSt → QmSt) : (s.onQm f).qm = f s.qm := rfl
@[simp] theorem State.onQm_cmd (s : State) (f : QmSt → QmSt) : (s.onQm f).cmd = s.cmd := rfl
@[simp] theorem State.onQm_damask (s : State) (f : QmSt → QmSt) : (s.onQm f).damask = s.damask := rfl
@[simp] theorem State.onQm_tables (s : State) (f : QmSt → QmSt) : (s.onQm f).tables = s.tables := rfl
@[simp] theorem State.onQm_twill (s : State) (f : QmSt → QmSt) : (s.onQm f).twill = s.twill := rfl
@[simp] theorem State.onQm_krm (s : State) (f : QmSt → QmSt) : (s.onQm f).krm = s.krm := rfl
@[simp] theorem State.onQm_blk (s : State) (f : QmSt → QmSt) : (s.onQm f).blk = s.blk := rfl
@[simp] theorem State.onQm_cy (s : State) (f : QmSt → QmSt) : (s.onQm f).cy = s.cy := rfl
@[simp] theorem State.onQm_dma (s : State) (f : QmSt → QmSt) : (s.onQm f).dma = s.dma := rfl
@[simp] theorem State.onQm_cores (s : State) (f : QmSt → QmSt) : (s.onQm f).cores = s.cores := rfl
@[simp] theorem State.onQm_boot (s : State) (f : QmSt → QmSt) : (s.onQm f).boot = s.boot := rfl
@[simp] theorem State.onQm_power (s : State) (f : QmSt → QmSt) : (s.onQm f).power = s.power := rfl
@[simp] theorem State.onQm_trust (s : State) (f : QmSt → QmSt) : (s.onQm f).trust = s.trust := rfl
@[simp] theorem State.onQm_ev (s : State) (f : QmSt → QmSt) : (s.onQm f).ev = s.ev := rfl
@[simp] theorem State.onQm_ct (s : State) (f : QmSt → QmSt) : (s.onQm f).ct = s.ct := rfl
@[simp] theorem State.onQm_pins (s : State) (f : QmSt → QmSt) : (s.onQm f).pins = s.pins := rfl
@[simp] theorem State.onQm_out (s : State) (f : QmSt → QmSt) : (s.onQm f).out = s.out := rfl
@[simp] theorem State.onQm_free (s : State) (f : QmSt → QmSt) : (s.onQm f).free = s.free := rfl

@[simp] theorem State.onCmd_pending (s : State) (f : CmdSt → CmdSt) : (s.onCmd f).pending = s.pending := rfl
@[simp] theorem State.onCmd_arrivals (s : State) (f : CmdSt → CmdSt) : (s.onCmd f).arrivals = s.arrivals := rfl
@[simp] theorem State.onCmd_time (s : State) (f : CmdSt → CmdSt) : (s.onCmd f).time = s.time := rfl
@[simp] theorem State.onCmd_ftu (s : State) (f : CmdSt → CmdSt) : (s.onCmd f).ftu = s.ftu := rfl
@[simp] theorem State.onCmd_links (s : State) (f : CmdSt → CmdSt) : (s.onCmd f).links = s.links := rfl
@[simp] theorem State.onCmd_fatal (s : State) (f : CmdSt → CmdSt) : (s.onCmd f).fatal = s.fatal := rfl
@[simp] theorem State.onCmd_mem (s : State) (f : CmdSt → CmdSt) : (s.onCmd f).mem = s.mem := rfl
@[simp] theorem State.onCmd_dram (s : State) (f : CmdSt → CmdSt) : (s.onCmd f).dram = s.dram := rfl
@[simp] theorem State.onCmd_host (s : State) (f : CmdSt → CmdSt) : (s.onCmd f).host = s.host := rfl
@[simp] theorem State.onCmd_qm (s : State) (f : CmdSt → CmdSt) : (s.onCmd f).qm = s.qm := rfl
@[simp] theorem State.onCmd_cmd (s : State) (f : CmdSt → CmdSt) : (s.onCmd f).cmd = f s.cmd := rfl
@[simp] theorem State.onCmd_damask (s : State) (f : CmdSt → CmdSt) : (s.onCmd f).damask = s.damask := rfl
@[simp] theorem State.onCmd_tables (s : State) (f : CmdSt → CmdSt) : (s.onCmd f).tables = s.tables := rfl
@[simp] theorem State.onCmd_twill (s : State) (f : CmdSt → CmdSt) : (s.onCmd f).twill = s.twill := rfl
@[simp] theorem State.onCmd_krm (s : State) (f : CmdSt → CmdSt) : (s.onCmd f).krm = s.krm := rfl
@[simp] theorem State.onCmd_blk (s : State) (f : CmdSt → CmdSt) : (s.onCmd f).blk = s.blk := rfl
@[simp] theorem State.onCmd_cy (s : State) (f : CmdSt → CmdSt) : (s.onCmd f).cy = s.cy := rfl
@[simp] theorem State.onCmd_dma (s : State) (f : CmdSt → CmdSt) : (s.onCmd f).dma = s.dma := rfl
@[simp] theorem State.onCmd_cores (s : State) (f : CmdSt → CmdSt) : (s.onCmd f).cores = s.cores := rfl
@[simp] theorem State.onCmd_boot (s : State) (f : CmdSt → CmdSt) : (s.onCmd f).boot = s.boot := rfl
@[simp] theorem State.onCmd_power (s : State) (f : CmdSt → CmdSt) : (s.onCmd f).power = s.power := rfl
@[simp] theorem State.onCmd_trust (s : State) (f : CmdSt → CmdSt) : (s.onCmd f).trust = s.trust := rfl
@[simp] theorem State.onCmd_ev (s : State) (f : CmdSt → CmdSt) : (s.onCmd f).ev = s.ev := rfl
@[simp] theorem State.onCmd_ct (s : State) (f : CmdSt → CmdSt) : (s.onCmd f).ct = s.ct := rfl
@[simp] theorem State.onCmd_pins (s : State) (f : CmdSt → CmdSt) : (s.onCmd f).pins = s.pins := rfl
@[simp] theorem State.onCmd_out (s : State) (f : CmdSt → CmdSt) : (s.onCmd f).out = s.out := rfl
@[simp] theorem State.onCmd_free (s : State) (f : CmdSt → CmdSt) : (s.onCmd f).free = s.free := rfl

@[simp] theorem State.onDamask_pending (s : State) (f : DamaskSt → DamaskSt) : (s.onDamask f).pending = s.pending := rfl
@[simp] theorem State.onDamask_arrivals (s : State) (f : DamaskSt → DamaskSt) : (s.onDamask f).arrivals = s.arrivals := rfl
@[simp] theorem State.onDamask_time (s : State) (f : DamaskSt → DamaskSt) : (s.onDamask f).time = s.time := rfl
@[simp] theorem State.onDamask_ftu (s : State) (f : DamaskSt → DamaskSt) : (s.onDamask f).ftu = s.ftu := rfl
@[simp] theorem State.onDamask_links (s : State) (f : DamaskSt → DamaskSt) : (s.onDamask f).links = s.links := rfl
@[simp] theorem State.onDamask_fatal (s : State) (f : DamaskSt → DamaskSt) : (s.onDamask f).fatal = s.fatal := rfl
@[simp] theorem State.onDamask_mem (s : State) (f : DamaskSt → DamaskSt) : (s.onDamask f).mem = s.mem := rfl
@[simp] theorem State.onDamask_dram (s : State) (f : DamaskSt → DamaskSt) : (s.onDamask f).dram = s.dram := rfl
@[simp] theorem State.onDamask_host (s : State) (f : DamaskSt → DamaskSt) : (s.onDamask f).host = s.host := rfl
@[simp] theorem State.onDamask_qm (s : State) (f : DamaskSt → DamaskSt) : (s.onDamask f).qm = s.qm := rfl
@[simp] theorem State.onDamask_cmd (s : State) (f : DamaskSt → DamaskSt) : (s.onDamask f).cmd = s.cmd := rfl
@[simp] theorem State.onDamask_damask (s : State) (f : DamaskSt → DamaskSt) : (s.onDamask f).damask = f s.damask := rfl
@[simp] theorem State.onDamask_tables (s : State) (f : DamaskSt → DamaskSt) : (s.onDamask f).tables = s.tables := rfl
@[simp] theorem State.onDamask_twill (s : State) (f : DamaskSt → DamaskSt) : (s.onDamask f).twill = s.twill := rfl
@[simp] theorem State.onDamask_krm (s : State) (f : DamaskSt → DamaskSt) : (s.onDamask f).krm = s.krm := rfl
@[simp] theorem State.onDamask_blk (s : State) (f : DamaskSt → DamaskSt) : (s.onDamask f).blk = s.blk := rfl
@[simp] theorem State.onDamask_cy (s : State) (f : DamaskSt → DamaskSt) : (s.onDamask f).cy = s.cy := rfl
@[simp] theorem State.onDamask_dma (s : State) (f : DamaskSt → DamaskSt) : (s.onDamask f).dma = s.dma := rfl
@[simp] theorem State.onDamask_cores (s : State) (f : DamaskSt → DamaskSt) : (s.onDamask f).cores = s.cores := rfl
@[simp] theorem State.onDamask_boot (s : State) (f : DamaskSt → DamaskSt) : (s.onDamask f).boot = s.boot := rfl
@[simp] theorem State.onDamask_power (s : State) (f : DamaskSt → DamaskSt) : (s.onDamask f).power = s.power := rfl
@[simp] theorem State.onDamask_trust (s : State) (f : DamaskSt → DamaskSt) : (s.onDamask f).trust = s.trust := rfl
@[simp] theorem State.onDamask_ev (s : State) (f : DamaskSt → DamaskSt) : (s.onDamask f).ev = s.ev := rfl
@[simp] theorem State.onDamask_ct (s : State) (f : DamaskSt → DamaskSt) : (s.onDamask f).ct = s.ct := rfl
@[simp] theorem State.onDamask_pins (s : State) (f : DamaskSt → DamaskSt) : (s.onDamask f).pins = s.pins := rfl
@[simp] theorem State.onDamask_out (s : State) (f : DamaskSt → DamaskSt) : (s.onDamask f).out = s.out := rfl
@[simp] theorem State.onDamask_free (s : State) (f : DamaskSt → DamaskSt) : (s.onDamask f).free = s.free := rfl

@[simp] theorem State.onTables_pending (s : State) (f : Tab Table → Tab Table) : (s.onTables f).pending = s.pending := rfl
@[simp] theorem State.onTables_arrivals (s : State) (f : Tab Table → Tab Table) : (s.onTables f).arrivals = s.arrivals := rfl
@[simp] theorem State.onTables_time (s : State) (f : Tab Table → Tab Table) : (s.onTables f).time = s.time := rfl
@[simp] theorem State.onTables_ftu (s : State) (f : Tab Table → Tab Table) : (s.onTables f).ftu = s.ftu := rfl
@[simp] theorem State.onTables_links (s : State) (f : Tab Table → Tab Table) : (s.onTables f).links = s.links := rfl
@[simp] theorem State.onTables_fatal (s : State) (f : Tab Table → Tab Table) : (s.onTables f).fatal = s.fatal := rfl
@[simp] theorem State.onTables_mem (s : State) (f : Tab Table → Tab Table) : (s.onTables f).mem = s.mem := rfl
@[simp] theorem State.onTables_dram (s : State) (f : Tab Table → Tab Table) : (s.onTables f).dram = s.dram := rfl
@[simp] theorem State.onTables_host (s : State) (f : Tab Table → Tab Table) : (s.onTables f).host = s.host := rfl
@[simp] theorem State.onTables_qm (s : State) (f : Tab Table → Tab Table) : (s.onTables f).qm = s.qm := rfl
@[simp] theorem State.onTables_cmd (s : State) (f : Tab Table → Tab Table) : (s.onTables f).cmd = s.cmd := rfl
@[simp] theorem State.onTables_damask (s : State) (f : Tab Table → Tab Table) : (s.onTables f).damask = s.damask := rfl
@[simp] theorem State.onTables_tables (s : State) (f : Tab Table → Tab Table) : (s.onTables f).tables = f s.tables := rfl
@[simp] theorem State.onTables_twill (s : State) (f : Tab Table → Tab Table) : (s.onTables f).twill = s.twill := rfl
@[simp] theorem State.onTables_krm (s : State) (f : Tab Table → Tab Table) : (s.onTables f).krm = s.krm := rfl
@[simp] theorem State.onTables_blk (s : State) (f : Tab Table → Tab Table) : (s.onTables f).blk = s.blk := rfl
@[simp] theorem State.onTables_cy (s : State) (f : Tab Table → Tab Table) : (s.onTables f).cy = s.cy := rfl
@[simp] theorem State.onTables_dma (s : State) (f : Tab Table → Tab Table) : (s.onTables f).dma = s.dma := rfl
@[simp] theorem State.onTables_cores (s : State) (f : Tab Table → Tab Table) : (s.onTables f).cores = s.cores := rfl
@[simp] theorem State.onTables_boot (s : State) (f : Tab Table → Tab Table) : (s.onTables f).boot = s.boot := rfl
@[simp] theorem State.onTables_power (s : State) (f : Tab Table → Tab Table) : (s.onTables f).power = s.power := rfl
@[simp] theorem State.onTables_trust (s : State) (f : Tab Table → Tab Table) : (s.onTables f).trust = s.trust := rfl
@[simp] theorem State.onTables_ev (s : State) (f : Tab Table → Tab Table) : (s.onTables f).ev = s.ev := rfl
@[simp] theorem State.onTables_ct (s : State) (f : Tab Table → Tab Table) : (s.onTables f).ct = s.ct := rfl
@[simp] theorem State.onTables_pins (s : State) (f : Tab Table → Tab Table) : (s.onTables f).pins = s.pins := rfl
@[simp] theorem State.onTables_out (s : State) (f : Tab Table → Tab Table) : (s.onTables f).out = s.out := rfl
@[simp] theorem State.onTables_free (s : State) (f : Tab Table → Tab Table) : (s.onTables f).free = s.free := rfl

@[simp] theorem State.onTwill_pending (s : State) (f : TwillSt → TwillSt) : (s.onTwill f).pending = s.pending := rfl
@[simp] theorem State.onTwill_arrivals (s : State) (f : TwillSt → TwillSt) : (s.onTwill f).arrivals = s.arrivals := rfl
@[simp] theorem State.onTwill_time (s : State) (f : TwillSt → TwillSt) : (s.onTwill f).time = s.time := rfl
@[simp] theorem State.onTwill_ftu (s : State) (f : TwillSt → TwillSt) : (s.onTwill f).ftu = s.ftu := rfl
@[simp] theorem State.onTwill_links (s : State) (f : TwillSt → TwillSt) : (s.onTwill f).links = s.links := rfl
@[simp] theorem State.onTwill_fatal (s : State) (f : TwillSt → TwillSt) : (s.onTwill f).fatal = s.fatal := rfl
@[simp] theorem State.onTwill_mem (s : State) (f : TwillSt → TwillSt) : (s.onTwill f).mem = s.mem := rfl
@[simp] theorem State.onTwill_dram (s : State) (f : TwillSt → TwillSt) : (s.onTwill f).dram = s.dram := rfl
@[simp] theorem State.onTwill_host (s : State) (f : TwillSt → TwillSt) : (s.onTwill f).host = s.host := rfl
@[simp] theorem State.onTwill_qm (s : State) (f : TwillSt → TwillSt) : (s.onTwill f).qm = s.qm := rfl
@[simp] theorem State.onTwill_cmd (s : State) (f : TwillSt → TwillSt) : (s.onTwill f).cmd = s.cmd := rfl
@[simp] theorem State.onTwill_damask (s : State) (f : TwillSt → TwillSt) : (s.onTwill f).damask = s.damask := rfl
@[simp] theorem State.onTwill_tables (s : State) (f : TwillSt → TwillSt) : (s.onTwill f).tables = s.tables := rfl
@[simp] theorem State.onTwill_twill (s : State) (f : TwillSt → TwillSt) : (s.onTwill f).twill = f s.twill := rfl
@[simp] theorem State.onTwill_krm (s : State) (f : TwillSt → TwillSt) : (s.onTwill f).krm = s.krm := rfl
@[simp] theorem State.onTwill_blk (s : State) (f : TwillSt → TwillSt) : (s.onTwill f).blk = s.blk := rfl
@[simp] theorem State.onTwill_cy (s : State) (f : TwillSt → TwillSt) : (s.onTwill f).cy = s.cy := rfl
@[simp] theorem State.onTwill_dma (s : State) (f : TwillSt → TwillSt) : (s.onTwill f).dma = s.dma := rfl
@[simp] theorem State.onTwill_cores (s : State) (f : TwillSt → TwillSt) : (s.onTwill f).cores = s.cores := rfl
@[simp] theorem State.onTwill_boot (s : State) (f : TwillSt → TwillSt) : (s.onTwill f).boot = s.boot := rfl
@[simp] theorem State.onTwill_power (s : State) (f : TwillSt → TwillSt) : (s.onTwill f).power = s.power := rfl
@[simp] theorem State.onTwill_trust (s : State) (f : TwillSt → TwillSt) : (s.onTwill f).trust = s.trust := rfl
@[simp] theorem State.onTwill_ev (s : State) (f : TwillSt → TwillSt) : (s.onTwill f).ev = s.ev := rfl
@[simp] theorem State.onTwill_ct (s : State) (f : TwillSt → TwillSt) : (s.onTwill f).ct = s.ct := rfl
@[simp] theorem State.onTwill_pins (s : State) (f : TwillSt → TwillSt) : (s.onTwill f).pins = s.pins := rfl
@[simp] theorem State.onTwill_out (s : State) (f : TwillSt → TwillSt) : (s.onTwill f).out = s.out := rfl
@[simp] theorem State.onTwill_free (s : State) (f : TwillSt → TwillSt) : (s.onTwill f).free = s.free := rfl

@[simp] theorem State.onKrm_pending (s : State) (f : KrmSt → KrmSt) : (s.onKrm f).pending = s.pending := rfl
@[simp] theorem State.onKrm_arrivals (s : State) (f : KrmSt → KrmSt) : (s.onKrm f).arrivals = s.arrivals := rfl
@[simp] theorem State.onKrm_time (s : State) (f : KrmSt → KrmSt) : (s.onKrm f).time = s.time := rfl
@[simp] theorem State.onKrm_ftu (s : State) (f : KrmSt → KrmSt) : (s.onKrm f).ftu = s.ftu := rfl
@[simp] theorem State.onKrm_links (s : State) (f : KrmSt → KrmSt) : (s.onKrm f).links = s.links := rfl
@[simp] theorem State.onKrm_fatal (s : State) (f : KrmSt → KrmSt) : (s.onKrm f).fatal = s.fatal := rfl
@[simp] theorem State.onKrm_mem (s : State) (f : KrmSt → KrmSt) : (s.onKrm f).mem = s.mem := rfl
@[simp] theorem State.onKrm_dram (s : State) (f : KrmSt → KrmSt) : (s.onKrm f).dram = s.dram := rfl
@[simp] theorem State.onKrm_host (s : State) (f : KrmSt → KrmSt) : (s.onKrm f).host = s.host := rfl
@[simp] theorem State.onKrm_qm (s : State) (f : KrmSt → KrmSt) : (s.onKrm f).qm = s.qm := rfl
@[simp] theorem State.onKrm_cmd (s : State) (f : KrmSt → KrmSt) : (s.onKrm f).cmd = s.cmd := rfl
@[simp] theorem State.onKrm_damask (s : State) (f : KrmSt → KrmSt) : (s.onKrm f).damask = s.damask := rfl
@[simp] theorem State.onKrm_tables (s : State) (f : KrmSt → KrmSt) : (s.onKrm f).tables = s.tables := rfl
@[simp] theorem State.onKrm_twill (s : State) (f : KrmSt → KrmSt) : (s.onKrm f).twill = s.twill := rfl
@[simp] theorem State.onKrm_krm (s : State) (f : KrmSt → KrmSt) : (s.onKrm f).krm = f s.krm := rfl
@[simp] theorem State.onKrm_blk (s : State) (f : KrmSt → KrmSt) : (s.onKrm f).blk = s.blk := rfl
@[simp] theorem State.onKrm_cy (s : State) (f : KrmSt → KrmSt) : (s.onKrm f).cy = s.cy := rfl
@[simp] theorem State.onKrm_dma (s : State) (f : KrmSt → KrmSt) : (s.onKrm f).dma = s.dma := rfl
@[simp] theorem State.onKrm_cores (s : State) (f : KrmSt → KrmSt) : (s.onKrm f).cores = s.cores := rfl
@[simp] theorem State.onKrm_boot (s : State) (f : KrmSt → KrmSt) : (s.onKrm f).boot = s.boot := rfl
@[simp] theorem State.onKrm_power (s : State) (f : KrmSt → KrmSt) : (s.onKrm f).power = s.power := rfl
@[simp] theorem State.onKrm_trust (s : State) (f : KrmSt → KrmSt) : (s.onKrm f).trust = s.trust := rfl
@[simp] theorem State.onKrm_ev (s : State) (f : KrmSt → KrmSt) : (s.onKrm f).ev = s.ev := rfl
@[simp] theorem State.onKrm_ct (s : State) (f : KrmSt → KrmSt) : (s.onKrm f).ct = s.ct := rfl
@[simp] theorem State.onKrm_pins (s : State) (f : KrmSt → KrmSt) : (s.onKrm f).pins = s.pins := rfl
@[simp] theorem State.onKrm_out (s : State) (f : KrmSt → KrmSt) : (s.onKrm f).out = s.out := rfl
@[simp] theorem State.onKrm_free (s : State) (f : KrmSt → KrmSt) : (s.onKrm f).free = s.free := rfl

@[simp] theorem State.onBlk_pending (s : State) (f : BlkSt → BlkSt) : (s.onBlk f).pending = s.pending := rfl
@[simp] theorem State.onBlk_arrivals (s : State) (f : BlkSt → BlkSt) : (s.onBlk f).arrivals = s.arrivals := rfl
@[simp] theorem State.onBlk_time (s : State) (f : BlkSt → BlkSt) : (s.onBlk f).time = s.time := rfl
@[simp] theorem State.onBlk_ftu (s : State) (f : BlkSt → BlkSt) : (s.onBlk f).ftu = s.ftu := rfl
@[simp] theorem State.onBlk_links (s : State) (f : BlkSt → BlkSt) : (s.onBlk f).links = s.links := rfl
@[simp] theorem State.onBlk_fatal (s : State) (f : BlkSt → BlkSt) : (s.onBlk f).fatal = s.fatal := rfl
@[simp] theorem State.onBlk_mem (s : State) (f : BlkSt → BlkSt) : (s.onBlk f).mem = s.mem := rfl
@[simp] theorem State.onBlk_dram (s : State) (f : BlkSt → BlkSt) : (s.onBlk f).dram = s.dram := rfl
@[simp] theorem State.onBlk_host (s : State) (f : BlkSt → BlkSt) : (s.onBlk f).host = s.host := rfl
@[simp] theorem State.onBlk_qm (s : State) (f : BlkSt → BlkSt) : (s.onBlk f).qm = s.qm := rfl
@[simp] theorem State.onBlk_cmd (s : State) (f : BlkSt → BlkSt) : (s.onBlk f).cmd = s.cmd := rfl
@[simp] theorem State.onBlk_damask (s : State) (f : BlkSt → BlkSt) : (s.onBlk f).damask = s.damask := rfl
@[simp] theorem State.onBlk_tables (s : State) (f : BlkSt → BlkSt) : (s.onBlk f).tables = s.tables := rfl
@[simp] theorem State.onBlk_twill (s : State) (f : BlkSt → BlkSt) : (s.onBlk f).twill = s.twill := rfl
@[simp] theorem State.onBlk_krm (s : State) (f : BlkSt → BlkSt) : (s.onBlk f).krm = s.krm := rfl
@[simp] theorem State.onBlk_blk (s : State) (f : BlkSt → BlkSt) : (s.onBlk f).blk = f s.blk := rfl
@[simp] theorem State.onBlk_cy (s : State) (f : BlkSt → BlkSt) : (s.onBlk f).cy = s.cy := rfl
@[simp] theorem State.onBlk_dma (s : State) (f : BlkSt → BlkSt) : (s.onBlk f).dma = s.dma := rfl
@[simp] theorem State.onBlk_cores (s : State) (f : BlkSt → BlkSt) : (s.onBlk f).cores = s.cores := rfl
@[simp] theorem State.onBlk_boot (s : State) (f : BlkSt → BlkSt) : (s.onBlk f).boot = s.boot := rfl
@[simp] theorem State.onBlk_power (s : State) (f : BlkSt → BlkSt) : (s.onBlk f).power = s.power := rfl
@[simp] theorem State.onBlk_trust (s : State) (f : BlkSt → BlkSt) : (s.onBlk f).trust = s.trust := rfl
@[simp] theorem State.onBlk_ev (s : State) (f : BlkSt → BlkSt) : (s.onBlk f).ev = s.ev := rfl
@[simp] theorem State.onBlk_ct (s : State) (f : BlkSt → BlkSt) : (s.onBlk f).ct = s.ct := rfl
@[simp] theorem State.onBlk_pins (s : State) (f : BlkSt → BlkSt) : (s.onBlk f).pins = s.pins := rfl
@[simp] theorem State.onBlk_out (s : State) (f : BlkSt → BlkSt) : (s.onBlk f).out = s.out := rfl
@[simp] theorem State.onBlk_free (s : State) (f : BlkSt → BlkSt) : (s.onBlk f).free = s.free := rfl

@[simp] theorem State.onCy_pending (s : State) (f : CySt → CySt) : (s.onCy f).pending = s.pending := rfl
@[simp] theorem State.onCy_arrivals (s : State) (f : CySt → CySt) : (s.onCy f).arrivals = s.arrivals := rfl
@[simp] theorem State.onCy_time (s : State) (f : CySt → CySt) : (s.onCy f).time = s.time := rfl
@[simp] theorem State.onCy_ftu (s : State) (f : CySt → CySt) : (s.onCy f).ftu = s.ftu := rfl
@[simp] theorem State.onCy_links (s : State) (f : CySt → CySt) : (s.onCy f).links = s.links := rfl
@[simp] theorem State.onCy_fatal (s : State) (f : CySt → CySt) : (s.onCy f).fatal = s.fatal := rfl
@[simp] theorem State.onCy_mem (s : State) (f : CySt → CySt) : (s.onCy f).mem = s.mem := rfl
@[simp] theorem State.onCy_dram (s : State) (f : CySt → CySt) : (s.onCy f).dram = s.dram := rfl
@[simp] theorem State.onCy_host (s : State) (f : CySt → CySt) : (s.onCy f).host = s.host := rfl
@[simp] theorem State.onCy_qm (s : State) (f : CySt → CySt) : (s.onCy f).qm = s.qm := rfl
@[simp] theorem State.onCy_cmd (s : State) (f : CySt → CySt) : (s.onCy f).cmd = s.cmd := rfl
@[simp] theorem State.onCy_damask (s : State) (f : CySt → CySt) : (s.onCy f).damask = s.damask := rfl
@[simp] theorem State.onCy_tables (s : State) (f : CySt → CySt) : (s.onCy f).tables = s.tables := rfl
@[simp] theorem State.onCy_twill (s : State) (f : CySt → CySt) : (s.onCy f).twill = s.twill := rfl
@[simp] theorem State.onCy_krm (s : State) (f : CySt → CySt) : (s.onCy f).krm = s.krm := rfl
@[simp] theorem State.onCy_blk (s : State) (f : CySt → CySt) : (s.onCy f).blk = s.blk := rfl
@[simp] theorem State.onCy_cy (s : State) (f : CySt → CySt) : (s.onCy f).cy = f s.cy := rfl
@[simp] theorem State.onCy_dma (s : State) (f : CySt → CySt) : (s.onCy f).dma = s.dma := rfl
@[simp] theorem State.onCy_cores (s : State) (f : CySt → CySt) : (s.onCy f).cores = s.cores := rfl
@[simp] theorem State.onCy_boot (s : State) (f : CySt → CySt) : (s.onCy f).boot = s.boot := rfl
@[simp] theorem State.onCy_power (s : State) (f : CySt → CySt) : (s.onCy f).power = s.power := rfl
@[simp] theorem State.onCy_trust (s : State) (f : CySt → CySt) : (s.onCy f).trust = s.trust := rfl
@[simp] theorem State.onCy_ev (s : State) (f : CySt → CySt) : (s.onCy f).ev = s.ev := rfl
@[simp] theorem State.onCy_ct (s : State) (f : CySt → CySt) : (s.onCy f).ct = s.ct := rfl
@[simp] theorem State.onCy_pins (s : State) (f : CySt → CySt) : (s.onCy f).pins = s.pins := rfl
@[simp] theorem State.onCy_out (s : State) (f : CySt → CySt) : (s.onCy f).out = s.out := rfl
@[simp] theorem State.onCy_free (s : State) (f : CySt → CySt) : (s.onCy f).free = s.free := rfl

@[simp] theorem State.onDma_pending (s : State) (f : Tab DmaChan → Tab DmaChan) : (s.onDma f).pending = s.pending := rfl
@[simp] theorem State.onDma_arrivals (s : State) (f : Tab DmaChan → Tab DmaChan) : (s.onDma f).arrivals = s.arrivals := rfl
@[simp] theorem State.onDma_time (s : State) (f : Tab DmaChan → Tab DmaChan) : (s.onDma f).time = s.time := rfl
@[simp] theorem State.onDma_ftu (s : State) (f : Tab DmaChan → Tab DmaChan) : (s.onDma f).ftu = s.ftu := rfl
@[simp] theorem State.onDma_links (s : State) (f : Tab DmaChan → Tab DmaChan) : (s.onDma f).links = s.links := rfl
@[simp] theorem State.onDma_fatal (s : State) (f : Tab DmaChan → Tab DmaChan) : (s.onDma f).fatal = s.fatal := rfl
@[simp] theorem State.onDma_mem (s : State) (f : Tab DmaChan → Tab DmaChan) : (s.onDma f).mem = s.mem := rfl
@[simp] theorem State.onDma_dram (s : State) (f : Tab DmaChan → Tab DmaChan) : (s.onDma f).dram = s.dram := rfl
@[simp] theorem State.onDma_host (s : State) (f : Tab DmaChan → Tab DmaChan) : (s.onDma f).host = s.host := rfl
@[simp] theorem State.onDma_qm (s : State) (f : Tab DmaChan → Tab DmaChan) : (s.onDma f).qm = s.qm := rfl
@[simp] theorem State.onDma_cmd (s : State) (f : Tab DmaChan → Tab DmaChan) : (s.onDma f).cmd = s.cmd := rfl
@[simp] theorem State.onDma_damask (s : State) (f : Tab DmaChan → Tab DmaChan) : (s.onDma f).damask = s.damask := rfl
@[simp] theorem State.onDma_tables (s : State) (f : Tab DmaChan → Tab DmaChan) : (s.onDma f).tables = s.tables := rfl
@[simp] theorem State.onDma_twill (s : State) (f : Tab DmaChan → Tab DmaChan) : (s.onDma f).twill = s.twill := rfl
@[simp] theorem State.onDma_krm (s : State) (f : Tab DmaChan → Tab DmaChan) : (s.onDma f).krm = s.krm := rfl
@[simp] theorem State.onDma_blk (s : State) (f : Tab DmaChan → Tab DmaChan) : (s.onDma f).blk = s.blk := rfl
@[simp] theorem State.onDma_cy (s : State) (f : Tab DmaChan → Tab DmaChan) : (s.onDma f).cy = s.cy := rfl
@[simp] theorem State.onDma_dma (s : State) (f : Tab DmaChan → Tab DmaChan) : (s.onDma f).dma = f s.dma := rfl
@[simp] theorem State.onDma_cores (s : State) (f : Tab DmaChan → Tab DmaChan) : (s.onDma f).cores = s.cores := rfl
@[simp] theorem State.onDma_boot (s : State) (f : Tab DmaChan → Tab DmaChan) : (s.onDma f).boot = s.boot := rfl
@[simp] theorem State.onDma_power (s : State) (f : Tab DmaChan → Tab DmaChan) : (s.onDma f).power = s.power := rfl
@[simp] theorem State.onDma_trust (s : State) (f : Tab DmaChan → Tab DmaChan) : (s.onDma f).trust = s.trust := rfl
@[simp] theorem State.onDma_ev (s : State) (f : Tab DmaChan → Tab DmaChan) : (s.onDma f).ev = s.ev := rfl
@[simp] theorem State.onDma_ct (s : State) (f : Tab DmaChan → Tab DmaChan) : (s.onDma f).ct = s.ct := rfl
@[simp] theorem State.onDma_pins (s : State) (f : Tab DmaChan → Tab DmaChan) : (s.onDma f).pins = s.pins := rfl
@[simp] theorem State.onDma_out (s : State) (f : Tab DmaChan → Tab DmaChan) : (s.onDma f).out = s.out := rfl
@[simp] theorem State.onDma_free (s : State) (f : Tab DmaChan → Tab DmaChan) : (s.onDma f).free = s.free := rfl

@[simp] theorem State.onCores_pending (s : State) (f : CoresSt → CoresSt) : (s.onCores f).pending = s.pending := rfl
@[simp] theorem State.onCores_arrivals (s : State) (f : CoresSt → CoresSt) : (s.onCores f).arrivals = s.arrivals := rfl
@[simp] theorem State.onCores_time (s : State) (f : CoresSt → CoresSt) : (s.onCores f).time = s.time := rfl
@[simp] theorem State.onCores_ftu (s : State) (f : CoresSt → CoresSt) : (s.onCores f).ftu = s.ftu := rfl
@[simp] theorem State.onCores_links (s : State) (f : CoresSt → CoresSt) : (s.onCores f).links = s.links := rfl
@[simp] theorem State.onCores_fatal (s : State) (f : CoresSt → CoresSt) : (s.onCores f).fatal = s.fatal := rfl
@[simp] theorem State.onCores_mem (s : State) (f : CoresSt → CoresSt) : (s.onCores f).mem = s.mem := rfl
@[simp] theorem State.onCores_dram (s : State) (f : CoresSt → CoresSt) : (s.onCores f).dram = s.dram := rfl
@[simp] theorem State.onCores_host (s : State) (f : CoresSt → CoresSt) : (s.onCores f).host = s.host := rfl
@[simp] theorem State.onCores_qm (s : State) (f : CoresSt → CoresSt) : (s.onCores f).qm = s.qm := rfl
@[simp] theorem State.onCores_cmd (s : State) (f : CoresSt → CoresSt) : (s.onCores f).cmd = s.cmd := rfl
@[simp] theorem State.onCores_damask (s : State) (f : CoresSt → CoresSt) : (s.onCores f).damask = s.damask := rfl
@[simp] theorem State.onCores_tables (s : State) (f : CoresSt → CoresSt) : (s.onCores f).tables = s.tables := rfl
@[simp] theorem State.onCores_twill (s : State) (f : CoresSt → CoresSt) : (s.onCores f).twill = s.twill := rfl
@[simp] theorem State.onCores_krm (s : State) (f : CoresSt → CoresSt) : (s.onCores f).krm = s.krm := rfl
@[simp] theorem State.onCores_blk (s : State) (f : CoresSt → CoresSt) : (s.onCores f).blk = s.blk := rfl
@[simp] theorem State.onCores_cy (s : State) (f : CoresSt → CoresSt) : (s.onCores f).cy = s.cy := rfl
@[simp] theorem State.onCores_dma (s : State) (f : CoresSt → CoresSt) : (s.onCores f).dma = s.dma := rfl
@[simp] theorem State.onCores_cores (s : State) (f : CoresSt → CoresSt) : (s.onCores f).cores = f s.cores := rfl
@[simp] theorem State.onCores_boot (s : State) (f : CoresSt → CoresSt) : (s.onCores f).boot = s.boot := rfl
@[simp] theorem State.onCores_power (s : State) (f : CoresSt → CoresSt) : (s.onCores f).power = s.power := rfl
@[simp] theorem State.onCores_trust (s : State) (f : CoresSt → CoresSt) : (s.onCores f).trust = s.trust := rfl
@[simp] theorem State.onCores_ev (s : State) (f : CoresSt → CoresSt) : (s.onCores f).ev = s.ev := rfl
@[simp] theorem State.onCores_ct (s : State) (f : CoresSt → CoresSt) : (s.onCores f).ct = s.ct := rfl
@[simp] theorem State.onCores_pins (s : State) (f : CoresSt → CoresSt) : (s.onCores f).pins = s.pins := rfl
@[simp] theorem State.onCores_out (s : State) (f : CoresSt → CoresSt) : (s.onCores f).out = s.out := rfl
@[simp] theorem State.onCores_free (s : State) (f : CoresSt → CoresSt) : (s.onCores f).free = s.free := rfl

@[simp] theorem State.onBoot_pending (s : State) (f : BootSt → BootSt) : (s.onBoot f).pending = s.pending := rfl
@[simp] theorem State.onBoot_arrivals (s : State) (f : BootSt → BootSt) : (s.onBoot f).arrivals = s.arrivals := rfl
@[simp] theorem State.onBoot_time (s : State) (f : BootSt → BootSt) : (s.onBoot f).time = s.time := rfl
@[simp] theorem State.onBoot_ftu (s : State) (f : BootSt → BootSt) : (s.onBoot f).ftu = s.ftu := rfl
@[simp] theorem State.onBoot_links (s : State) (f : BootSt → BootSt) : (s.onBoot f).links = s.links := rfl
@[simp] theorem State.onBoot_fatal (s : State) (f : BootSt → BootSt) : (s.onBoot f).fatal = s.fatal := rfl
@[simp] theorem State.onBoot_mem (s : State) (f : BootSt → BootSt) : (s.onBoot f).mem = s.mem := rfl
@[simp] theorem State.onBoot_dram (s : State) (f : BootSt → BootSt) : (s.onBoot f).dram = s.dram := rfl
@[simp] theorem State.onBoot_host (s : State) (f : BootSt → BootSt) : (s.onBoot f).host = s.host := rfl
@[simp] theorem State.onBoot_qm (s : State) (f : BootSt → BootSt) : (s.onBoot f).qm = s.qm := rfl
@[simp] theorem State.onBoot_cmd (s : State) (f : BootSt → BootSt) : (s.onBoot f).cmd = s.cmd := rfl
@[simp] theorem State.onBoot_damask (s : State) (f : BootSt → BootSt) : (s.onBoot f).damask = s.damask := rfl
@[simp] theorem State.onBoot_tables (s : State) (f : BootSt → BootSt) : (s.onBoot f).tables = s.tables := rfl
@[simp] theorem State.onBoot_twill (s : State) (f : BootSt → BootSt) : (s.onBoot f).twill = s.twill := rfl
@[simp] theorem State.onBoot_krm (s : State) (f : BootSt → BootSt) : (s.onBoot f).krm = s.krm := rfl
@[simp] theorem State.onBoot_blk (s : State) (f : BootSt → BootSt) : (s.onBoot f).blk = s.blk := rfl
@[simp] theorem State.onBoot_cy (s : State) (f : BootSt → BootSt) : (s.onBoot f).cy = s.cy := rfl
@[simp] theorem State.onBoot_dma (s : State) (f : BootSt → BootSt) : (s.onBoot f).dma = s.dma := rfl
@[simp] theorem State.onBoot_cores (s : State) (f : BootSt → BootSt) : (s.onBoot f).cores = s.cores := rfl
@[simp] theorem State.onBoot_boot (s : State) (f : BootSt → BootSt) : (s.onBoot f).boot = f s.boot := rfl
@[simp] theorem State.onBoot_power (s : State) (f : BootSt → BootSt) : (s.onBoot f).power = s.power := rfl
@[simp] theorem State.onBoot_trust (s : State) (f : BootSt → BootSt) : (s.onBoot f).trust = s.trust := rfl
@[simp] theorem State.onBoot_ev (s : State) (f : BootSt → BootSt) : (s.onBoot f).ev = s.ev := rfl
@[simp] theorem State.onBoot_ct (s : State) (f : BootSt → BootSt) : (s.onBoot f).ct = s.ct := rfl
@[simp] theorem State.onBoot_pins (s : State) (f : BootSt → BootSt) : (s.onBoot f).pins = s.pins := rfl
@[simp] theorem State.onBoot_out (s : State) (f : BootSt → BootSt) : (s.onBoot f).out = s.out := rfl
@[simp] theorem State.onBoot_free (s : State) (f : BootSt → BootSt) : (s.onBoot f).free = s.free := rfl

@[simp] theorem State.onPower_pending (s : State) (f : PowerSt → PowerSt) : (s.onPower f).pending = s.pending := rfl
@[simp] theorem State.onPower_arrivals (s : State) (f : PowerSt → PowerSt) : (s.onPower f).arrivals = s.arrivals := rfl
@[simp] theorem State.onPower_time (s : State) (f : PowerSt → PowerSt) : (s.onPower f).time = s.time := rfl
@[simp] theorem State.onPower_ftu (s : State) (f : PowerSt → PowerSt) : (s.onPower f).ftu = s.ftu := rfl
@[simp] theorem State.onPower_links (s : State) (f : PowerSt → PowerSt) : (s.onPower f).links = s.links := rfl
@[simp] theorem State.onPower_fatal (s : State) (f : PowerSt → PowerSt) : (s.onPower f).fatal = s.fatal := rfl
@[simp] theorem State.onPower_mem (s : State) (f : PowerSt → PowerSt) : (s.onPower f).mem = s.mem := rfl
@[simp] theorem State.onPower_dram (s : State) (f : PowerSt → PowerSt) : (s.onPower f).dram = s.dram := rfl
@[simp] theorem State.onPower_host (s : State) (f : PowerSt → PowerSt) : (s.onPower f).host = s.host := rfl
@[simp] theorem State.onPower_qm (s : State) (f : PowerSt → PowerSt) : (s.onPower f).qm = s.qm := rfl
@[simp] theorem State.onPower_cmd (s : State) (f : PowerSt → PowerSt) : (s.onPower f).cmd = s.cmd := rfl
@[simp] theorem State.onPower_damask (s : State) (f : PowerSt → PowerSt) : (s.onPower f).damask = s.damask := rfl
@[simp] theorem State.onPower_tables (s : State) (f : PowerSt → PowerSt) : (s.onPower f).tables = s.tables := rfl
@[simp] theorem State.onPower_twill (s : State) (f : PowerSt → PowerSt) : (s.onPower f).twill = s.twill := rfl
@[simp] theorem State.onPower_krm (s : State) (f : PowerSt → PowerSt) : (s.onPower f).krm = s.krm := rfl
@[simp] theorem State.onPower_blk (s : State) (f : PowerSt → PowerSt) : (s.onPower f).blk = s.blk := rfl
@[simp] theorem State.onPower_cy (s : State) (f : PowerSt → PowerSt) : (s.onPower f).cy = s.cy := rfl
@[simp] theorem State.onPower_dma (s : State) (f : PowerSt → PowerSt) : (s.onPower f).dma = s.dma := rfl
@[simp] theorem State.onPower_cores (s : State) (f : PowerSt → PowerSt) : (s.onPower f).cores = s.cores := rfl
@[simp] theorem State.onPower_boot (s : State) (f : PowerSt → PowerSt) : (s.onPower f).boot = s.boot := rfl
@[simp] theorem State.onPower_power (s : State) (f : PowerSt → PowerSt) : (s.onPower f).power = f s.power := rfl
@[simp] theorem State.onPower_trust (s : State) (f : PowerSt → PowerSt) : (s.onPower f).trust = s.trust := rfl
@[simp] theorem State.onPower_ev (s : State) (f : PowerSt → PowerSt) : (s.onPower f).ev = s.ev := rfl
@[simp] theorem State.onPower_ct (s : State) (f : PowerSt → PowerSt) : (s.onPower f).ct = s.ct := rfl
@[simp] theorem State.onPower_pins (s : State) (f : PowerSt → PowerSt) : (s.onPower f).pins = s.pins := rfl
@[simp] theorem State.onPower_out (s : State) (f : PowerSt → PowerSt) : (s.onPower f).out = s.out := rfl
@[simp] theorem State.onPower_free (s : State) (f : PowerSt → PowerSt) : (s.onPower f).free = s.free := rfl

@[simp] theorem State.onTrust_pending (s : State) (f : TrustSt → TrustSt) : (s.onTrust f).pending = s.pending := rfl
@[simp] theorem State.onTrust_arrivals (s : State) (f : TrustSt → TrustSt) : (s.onTrust f).arrivals = s.arrivals := rfl
@[simp] theorem State.onTrust_time (s : State) (f : TrustSt → TrustSt) : (s.onTrust f).time = s.time := rfl
@[simp] theorem State.onTrust_ftu (s : State) (f : TrustSt → TrustSt) : (s.onTrust f).ftu = s.ftu := rfl
@[simp] theorem State.onTrust_links (s : State) (f : TrustSt → TrustSt) : (s.onTrust f).links = s.links := rfl
@[simp] theorem State.onTrust_fatal (s : State) (f : TrustSt → TrustSt) : (s.onTrust f).fatal = s.fatal := rfl
@[simp] theorem State.onTrust_mem (s : State) (f : TrustSt → TrustSt) : (s.onTrust f).mem = s.mem := rfl
@[simp] theorem State.onTrust_dram (s : State) (f : TrustSt → TrustSt) : (s.onTrust f).dram = s.dram := rfl
@[simp] theorem State.onTrust_host (s : State) (f : TrustSt → TrustSt) : (s.onTrust f).host = s.host := rfl
@[simp] theorem State.onTrust_qm (s : State) (f : TrustSt → TrustSt) : (s.onTrust f).qm = s.qm := rfl
@[simp] theorem State.onTrust_cmd (s : State) (f : TrustSt → TrustSt) : (s.onTrust f).cmd = s.cmd := rfl
@[simp] theorem State.onTrust_damask (s : State) (f : TrustSt → TrustSt) : (s.onTrust f).damask = s.damask := rfl
@[simp] theorem State.onTrust_tables (s : State) (f : TrustSt → TrustSt) : (s.onTrust f).tables = s.tables := rfl
@[simp] theorem State.onTrust_twill (s : State) (f : TrustSt → TrustSt) : (s.onTrust f).twill = s.twill := rfl
@[simp] theorem State.onTrust_krm (s : State) (f : TrustSt → TrustSt) : (s.onTrust f).krm = s.krm := rfl
@[simp] theorem State.onTrust_blk (s : State) (f : TrustSt → TrustSt) : (s.onTrust f).blk = s.blk := rfl
@[simp] theorem State.onTrust_cy (s : State) (f : TrustSt → TrustSt) : (s.onTrust f).cy = s.cy := rfl
@[simp] theorem State.onTrust_dma (s : State) (f : TrustSt → TrustSt) : (s.onTrust f).dma = s.dma := rfl
@[simp] theorem State.onTrust_cores (s : State) (f : TrustSt → TrustSt) : (s.onTrust f).cores = s.cores := rfl
@[simp] theorem State.onTrust_boot (s : State) (f : TrustSt → TrustSt) : (s.onTrust f).boot = s.boot := rfl
@[simp] theorem State.onTrust_power (s : State) (f : TrustSt → TrustSt) : (s.onTrust f).power = s.power := rfl
@[simp] theorem State.onTrust_trust (s : State) (f : TrustSt → TrustSt) : (s.onTrust f).trust = f s.trust := rfl
@[simp] theorem State.onTrust_ev (s : State) (f : TrustSt → TrustSt) : (s.onTrust f).ev = s.ev := rfl
@[simp] theorem State.onTrust_ct (s : State) (f : TrustSt → TrustSt) : (s.onTrust f).ct = s.ct := rfl
@[simp] theorem State.onTrust_pins (s : State) (f : TrustSt → TrustSt) : (s.onTrust f).pins = s.pins := rfl
@[simp] theorem State.onTrust_out (s : State) (f : TrustSt → TrustSt) : (s.onTrust f).out = s.out := rfl
@[simp] theorem State.onTrust_free (s : State) (f : TrustSt → TrustSt) : (s.onTrust f).free = s.free := rfl

@[simp] theorem State.onEv_pending (s : State) (f : EvSt → EvSt) : (s.onEv f).pending = s.pending := rfl
@[simp] theorem State.onEv_arrivals (s : State) (f : EvSt → EvSt) : (s.onEv f).arrivals = s.arrivals := rfl
@[simp] theorem State.onEv_time (s : State) (f : EvSt → EvSt) : (s.onEv f).time = s.time := rfl
@[simp] theorem State.onEv_ftu (s : State) (f : EvSt → EvSt) : (s.onEv f).ftu = s.ftu := rfl
@[simp] theorem State.onEv_links (s : State) (f : EvSt → EvSt) : (s.onEv f).links = s.links := rfl
@[simp] theorem State.onEv_fatal (s : State) (f : EvSt → EvSt) : (s.onEv f).fatal = s.fatal := rfl
@[simp] theorem State.onEv_mem (s : State) (f : EvSt → EvSt) : (s.onEv f).mem = s.mem := rfl
@[simp] theorem State.onEv_dram (s : State) (f : EvSt → EvSt) : (s.onEv f).dram = s.dram := rfl
@[simp] theorem State.onEv_host (s : State) (f : EvSt → EvSt) : (s.onEv f).host = s.host := rfl
@[simp] theorem State.onEv_qm (s : State) (f : EvSt → EvSt) : (s.onEv f).qm = s.qm := rfl
@[simp] theorem State.onEv_cmd (s : State) (f : EvSt → EvSt) : (s.onEv f).cmd = s.cmd := rfl
@[simp] theorem State.onEv_damask (s : State) (f : EvSt → EvSt) : (s.onEv f).damask = s.damask := rfl
@[simp] theorem State.onEv_tables (s : State) (f : EvSt → EvSt) : (s.onEv f).tables = s.tables := rfl
@[simp] theorem State.onEv_twill (s : State) (f : EvSt → EvSt) : (s.onEv f).twill = s.twill := rfl
@[simp] theorem State.onEv_krm (s : State) (f : EvSt → EvSt) : (s.onEv f).krm = s.krm := rfl
@[simp] theorem State.onEv_blk (s : State) (f : EvSt → EvSt) : (s.onEv f).blk = s.blk := rfl
@[simp] theorem State.onEv_cy (s : State) (f : EvSt → EvSt) : (s.onEv f).cy = s.cy := rfl
@[simp] theorem State.onEv_dma (s : State) (f : EvSt → EvSt) : (s.onEv f).dma = s.dma := rfl
@[simp] theorem State.onEv_cores (s : State) (f : EvSt → EvSt) : (s.onEv f).cores = s.cores := rfl
@[simp] theorem State.onEv_boot (s : State) (f : EvSt → EvSt) : (s.onEv f).boot = s.boot := rfl
@[simp] theorem State.onEv_power (s : State) (f : EvSt → EvSt) : (s.onEv f).power = s.power := rfl
@[simp] theorem State.onEv_trust (s : State) (f : EvSt → EvSt) : (s.onEv f).trust = s.trust := rfl
@[simp] theorem State.onEv_ev (s : State) (f : EvSt → EvSt) : (s.onEv f).ev = f s.ev := rfl
@[simp] theorem State.onEv_ct (s : State) (f : EvSt → EvSt) : (s.onEv f).ct = s.ct := rfl
@[simp] theorem State.onEv_pins (s : State) (f : EvSt → EvSt) : (s.onEv f).pins = s.pins := rfl
@[simp] theorem State.onEv_out (s : State) (f : EvSt → EvSt) : (s.onEv f).out = s.out := rfl
@[simp] theorem State.onEv_free (s : State) (f : EvSt → EvSt) : (s.onEv f).free = s.free := rfl

@[simp] theorem State.onCt_pending (s : State) (f : CtSt → CtSt) : (s.onCt f).pending = s.pending := rfl
@[simp] theorem State.onCt_arrivals (s : State) (f : CtSt → CtSt) : (s.onCt f).arrivals = s.arrivals := rfl
@[simp] theorem State.onCt_time (s : State) (f : CtSt → CtSt) : (s.onCt f).time = s.time := rfl
@[simp] theorem State.onCt_ftu (s : State) (f : CtSt → CtSt) : (s.onCt f).ftu = s.ftu := rfl
@[simp] theorem State.onCt_links (s : State) (f : CtSt → CtSt) : (s.onCt f).links = s.links := rfl
@[simp] theorem State.onCt_fatal (s : State) (f : CtSt → CtSt) : (s.onCt f).fatal = s.fatal := rfl
@[simp] theorem State.onCt_mem (s : State) (f : CtSt → CtSt) : (s.onCt f).mem = s.mem := rfl
@[simp] theorem State.onCt_dram (s : State) (f : CtSt → CtSt) : (s.onCt f).dram = s.dram := rfl
@[simp] theorem State.onCt_host (s : State) (f : CtSt → CtSt) : (s.onCt f).host = s.host := rfl
@[simp] theorem State.onCt_qm (s : State) (f : CtSt → CtSt) : (s.onCt f).qm = s.qm := rfl
@[simp] theorem State.onCt_cmd (s : State) (f : CtSt → CtSt) : (s.onCt f).cmd = s.cmd := rfl
@[simp] theorem State.onCt_damask (s : State) (f : CtSt → CtSt) : (s.onCt f).damask = s.damask := rfl
@[simp] theorem State.onCt_tables (s : State) (f : CtSt → CtSt) : (s.onCt f).tables = s.tables := rfl
@[simp] theorem State.onCt_twill (s : State) (f : CtSt → CtSt) : (s.onCt f).twill = s.twill := rfl
@[simp] theorem State.onCt_krm (s : State) (f : CtSt → CtSt) : (s.onCt f).krm = s.krm := rfl
@[simp] theorem State.onCt_blk (s : State) (f : CtSt → CtSt) : (s.onCt f).blk = s.blk := rfl
@[simp] theorem State.onCt_cy (s : State) (f : CtSt → CtSt) : (s.onCt f).cy = s.cy := rfl
@[simp] theorem State.onCt_dma (s : State) (f : CtSt → CtSt) : (s.onCt f).dma = s.dma := rfl
@[simp] theorem State.onCt_cores (s : State) (f : CtSt → CtSt) : (s.onCt f).cores = s.cores := rfl
@[simp] theorem State.onCt_boot (s : State) (f : CtSt → CtSt) : (s.onCt f).boot = s.boot := rfl
@[simp] theorem State.onCt_power (s : State) (f : CtSt → CtSt) : (s.onCt f).power = s.power := rfl
@[simp] theorem State.onCt_trust (s : State) (f : CtSt → CtSt) : (s.onCt f).trust = s.trust := rfl
@[simp] theorem State.onCt_ev (s : State) (f : CtSt → CtSt) : (s.onCt f).ev = s.ev := rfl
@[simp] theorem State.onCt_ct (s : State) (f : CtSt → CtSt) : (s.onCt f).ct = f s.ct := rfl
@[simp] theorem State.onCt_pins (s : State) (f : CtSt → CtSt) : (s.onCt f).pins = s.pins := rfl
@[simp] theorem State.onCt_out (s : State) (f : CtSt → CtSt) : (s.onCt f).out = s.out := rfl
@[simp] theorem State.onCt_free (s : State) (f : CtSt → CtSt) : (s.onCt f).free = s.free := rfl

@[simp] theorem State.onPins_pending (s : State) (f : PinSt → PinSt) : (s.onPins f).pending = s.pending := rfl
@[simp] theorem State.onPins_arrivals (s : State) (f : PinSt → PinSt) : (s.onPins f).arrivals = s.arrivals := rfl
@[simp] theorem State.onPins_time (s : State) (f : PinSt → PinSt) : (s.onPins f).time = s.time := rfl
@[simp] theorem State.onPins_ftu (s : State) (f : PinSt → PinSt) : (s.onPins f).ftu = s.ftu := rfl
@[simp] theorem State.onPins_links (s : State) (f : PinSt → PinSt) : (s.onPins f).links = s.links := rfl
@[simp] theorem State.onPins_fatal (s : State) (f : PinSt → PinSt) : (s.onPins f).fatal = s.fatal := rfl
@[simp] theorem State.onPins_mem (s : State) (f : PinSt → PinSt) : (s.onPins f).mem = s.mem := rfl
@[simp] theorem State.onPins_dram (s : State) (f : PinSt → PinSt) : (s.onPins f).dram = s.dram := rfl
@[simp] theorem State.onPins_host (s : State) (f : PinSt → PinSt) : (s.onPins f).host = s.host := rfl
@[simp] theorem State.onPins_qm (s : State) (f : PinSt → PinSt) : (s.onPins f).qm = s.qm := rfl
@[simp] theorem State.onPins_cmd (s : State) (f : PinSt → PinSt) : (s.onPins f).cmd = s.cmd := rfl
@[simp] theorem State.onPins_damask (s : State) (f : PinSt → PinSt) : (s.onPins f).damask = s.damask := rfl
@[simp] theorem State.onPins_tables (s : State) (f : PinSt → PinSt) : (s.onPins f).tables = s.tables := rfl
@[simp] theorem State.onPins_twill (s : State) (f : PinSt → PinSt) : (s.onPins f).twill = s.twill := rfl
@[simp] theorem State.onPins_krm (s : State) (f : PinSt → PinSt) : (s.onPins f).krm = s.krm := rfl
@[simp] theorem State.onPins_blk (s : State) (f : PinSt → PinSt) : (s.onPins f).blk = s.blk := rfl
@[simp] theorem State.onPins_cy (s : State) (f : PinSt → PinSt) : (s.onPins f).cy = s.cy := rfl
@[simp] theorem State.onPins_dma (s : State) (f : PinSt → PinSt) : (s.onPins f).dma = s.dma := rfl
@[simp] theorem State.onPins_cores (s : State) (f : PinSt → PinSt) : (s.onPins f).cores = s.cores := rfl
@[simp] theorem State.onPins_boot (s : State) (f : PinSt → PinSt) : (s.onPins f).boot = s.boot := rfl
@[simp] theorem State.onPins_power (s : State) (f : PinSt → PinSt) : (s.onPins f).power = s.power := rfl
@[simp] theorem State.onPins_trust (s : State) (f : PinSt → PinSt) : (s.onPins f).trust = s.trust := rfl
@[simp] theorem State.onPins_ev (s : State) (f : PinSt → PinSt) : (s.onPins f).ev = s.ev := rfl
@[simp] theorem State.onPins_ct (s : State) (f : PinSt → PinSt) : (s.onPins f).ct = s.ct := rfl
@[simp] theorem State.onPins_pins (s : State) (f : PinSt → PinSt) : (s.onPins f).pins = f s.pins := rfl
@[simp] theorem State.onPins_out (s : State) (f : PinSt → PinSt) : (s.onPins f).out = s.out := rfl
@[simp] theorem State.onPins_free (s : State) (f : PinSt → PinSt) : (s.onPins f).free = s.free := rfl

@[simp] theorem State.onOut_pending (s : State) (f : List Out → List Out) : (s.onOut f).pending = s.pending := rfl
@[simp] theorem State.onOut_arrivals (s : State) (f : List Out → List Out) : (s.onOut f).arrivals = s.arrivals := rfl
@[simp] theorem State.onOut_time (s : State) (f : List Out → List Out) : (s.onOut f).time = s.time := rfl
@[simp] theorem State.onOut_ftu (s : State) (f : List Out → List Out) : (s.onOut f).ftu = s.ftu := rfl
@[simp] theorem State.onOut_links (s : State) (f : List Out → List Out) : (s.onOut f).links = s.links := rfl
@[simp] theorem State.onOut_fatal (s : State) (f : List Out → List Out) : (s.onOut f).fatal = s.fatal := rfl
@[simp] theorem State.onOut_mem (s : State) (f : List Out → List Out) : (s.onOut f).mem = s.mem := rfl
@[simp] theorem State.onOut_dram (s : State) (f : List Out → List Out) : (s.onOut f).dram = s.dram := rfl
@[simp] theorem State.onOut_host (s : State) (f : List Out → List Out) : (s.onOut f).host = s.host := rfl
@[simp] theorem State.onOut_qm (s : State) (f : List Out → List Out) : (s.onOut f).qm = s.qm := rfl
@[simp] theorem State.onOut_cmd (s : State) (f : List Out → List Out) : (s.onOut f).cmd = s.cmd := rfl
@[simp] theorem State.onOut_damask (s : State) (f : List Out → List Out) : (s.onOut f).damask = s.damask := rfl
@[simp] theorem State.onOut_tables (s : State) (f : List Out → List Out) : (s.onOut f).tables = s.tables := rfl
@[simp] theorem State.onOut_twill (s : State) (f : List Out → List Out) : (s.onOut f).twill = s.twill := rfl
@[simp] theorem State.onOut_krm (s : State) (f : List Out → List Out) : (s.onOut f).krm = s.krm := rfl
@[simp] theorem State.onOut_blk (s : State) (f : List Out → List Out) : (s.onOut f).blk = s.blk := rfl
@[simp] theorem State.onOut_cy (s : State) (f : List Out → List Out) : (s.onOut f).cy = s.cy := rfl
@[simp] theorem State.onOut_dma (s : State) (f : List Out → List Out) : (s.onOut f).dma = s.dma := rfl
@[simp] theorem State.onOut_cores (s : State) (f : List Out → List Out) : (s.onOut f).cores = s.cores := rfl
@[simp] theorem State.onOut_boot (s : State) (f : List Out → List Out) : (s.onOut f).boot = s.boot := rfl
@[simp] theorem State.onOut_power (s : State) (f : List Out → List Out) : (s.onOut f).power = s.power := rfl
@[simp] theorem State.onOut_trust (s : State) (f : List Out → List Out) : (s.onOut f).trust = s.trust := rfl
@[simp] theorem State.onOut_ev (s : State) (f : List Out → List Out) : (s.onOut f).ev = s.ev := rfl
@[simp] theorem State.onOut_ct (s : State) (f : List Out → List Out) : (s.onOut f).ct = s.ct := rfl
@[simp] theorem State.onOut_pins (s : State) (f : List Out → List Out) : (s.onOut f).pins = s.pins := rfl
@[simp] theorem State.onOut_out (s : State) (f : List Out → List Out) : (s.onOut f).out = f s.out := rfl
@[simp] theorem State.onOut_free (s : State) (f : List Out → List Out) : (s.onOut f).free = s.free := rfl

@[simp] theorem State.onFree_pending (s : State) (f : Nat → Nat) : (s.onFree f).pending = s.pending := rfl
@[simp] theorem State.onFree_arrivals (s : State) (f : Nat → Nat) : (s.onFree f).arrivals = s.arrivals := rfl
@[simp] theorem State.onFree_time (s : State) (f : Nat → Nat) : (s.onFree f).time = s.time := rfl
@[simp] theorem State.onFree_ftu (s : State) (f : Nat → Nat) : (s.onFree f).ftu = s.ftu := rfl
@[simp] theorem State.onFree_links (s : State) (f : Nat → Nat) : (s.onFree f).links = s.links := rfl
@[simp] theorem State.onFree_fatal (s : State) (f : Nat → Nat) : (s.onFree f).fatal = s.fatal := rfl
@[simp] theorem State.onFree_mem (s : State) (f : Nat → Nat) : (s.onFree f).mem = s.mem := rfl
@[simp] theorem State.onFree_dram (s : State) (f : Nat → Nat) : (s.onFree f).dram = s.dram := rfl
@[simp] theorem State.onFree_host (s : State) (f : Nat → Nat) : (s.onFree f).host = s.host := rfl
@[simp] theorem State.onFree_qm (s : State) (f : Nat → Nat) : (s.onFree f).qm = s.qm := rfl
@[simp] theorem State.onFree_cmd (s : State) (f : Nat → Nat) : (s.onFree f).cmd = s.cmd := rfl
@[simp] theorem State.onFree_damask (s : State) (f : Nat → Nat) : (s.onFree f).damask = s.damask := rfl
@[simp] theorem State.onFree_tables (s : State) (f : Nat → Nat) : (s.onFree f).tables = s.tables := rfl
@[simp] theorem State.onFree_twill (s : State) (f : Nat → Nat) : (s.onFree f).twill = s.twill := rfl
@[simp] theorem State.onFree_krm (s : State) (f : Nat → Nat) : (s.onFree f).krm = s.krm := rfl
@[simp] theorem State.onFree_blk (s : State) (f : Nat → Nat) : (s.onFree f).blk = s.blk := rfl
@[simp] theorem State.onFree_cy (s : State) (f : Nat → Nat) : (s.onFree f).cy = s.cy := rfl
@[simp] theorem State.onFree_dma (s : State) (f : Nat → Nat) : (s.onFree f).dma = s.dma := rfl
@[simp] theorem State.onFree_cores (s : State) (f : Nat → Nat) : (s.onFree f).cores = s.cores := rfl
@[simp] theorem State.onFree_boot (s : State) (f : Nat → Nat) : (s.onFree f).boot = s.boot := rfl
@[simp] theorem State.onFree_power (s : State) (f : Nat → Nat) : (s.onFree f).power = s.power := rfl
@[simp] theorem State.onFree_trust (s : State) (f : Nat → Nat) : (s.onFree f).trust = s.trust := rfl
@[simp] theorem State.onFree_ev (s : State) (f : Nat → Nat) : (s.onFree f).ev = s.ev := rfl
@[simp] theorem State.onFree_ct (s : State) (f : Nat → Nat) : (s.onFree f).ct = s.ct := rfl
@[simp] theorem State.onFree_pins (s : State) (f : Nat → Nat) : (s.onFree f).pins = s.pins := rfl
@[simp] theorem State.onFree_out (s : State) (f : Nat → Nat) : (s.onFree f).out = s.out := rfl
@[simp] theorem State.onFree_free (s : State) (f : Nat → Nat) : (s.onFree f).free = f s.free := rfl

end Sys2Proof.Machine
end

