-- ==== Sys2Proof/Laws/Commands.lean ====
section
/-! SUPPORT. What the shared operations of the command protocol do (04 R121 to R130): a command that is accepted reaches its effect on
the state in which it is in progress, service firmware's commands answer there, and Buckram's wait for their turn. -/

namespace Sys2Proof.Machine

@[simp] theorem State.countBy_cmd (s : State) (k o w n : Nat) : (s.countBy k o w n).cmd = s.cmd := rfl
@[simp] theorem State.count_cmd (s : State) (k o w : Nat) : (s.count k o w).cmd = s.cmd := rfl

/-- Two changes of the command state that agree on it. -/
theorem State.onCmd_congr {s : State} {f g : CmdSt → CmdSt} (h : f s.cmd = g s.cmd) : s.onCmd f = s.onCmd g := by
  unfold State.onCmd
  rw [h]

/-- An entry's index consumed changes queues and counters alone. -/
theorem State.consume_frame (s : State) (q : Nat) : (s.consume q).cmd = s.cmd ∧ (s.consume q).fatal = s.fatal ∧
    (s.consume q).power = s.power ∧ (s.consume q).pins = s.pins ∧ (s.consume q).mem = s.mem ∧ (s.consume q).time = s.time := by
  unfold State.consume
  split <;> exact ⟨rfl, rfl, rfl, rfl, rfl, rfl⟩

/-- A command that enters progress changes the command state alone. -/
theorem State.enter_frame (s : State) (code : Nat) (c : Cmd) (n : Nat) : (s.enter code c n).cmd.mailbox = s.cmd.mailbox ∧
    (s.enter code c n).cmd.rota = s.cmd.rota ∧ (s.enter code c n).fatal = s.fatal ∧ (s.enter code c n).power = s.power ∧
    (s.enter code c n).pins = s.pins ∧ (s.enter code c n).mem = s.mem := ⟨rfl, rfl, rfl, rfl, rfl, rfl⟩

/-- The state in which an accepted command's effect is applied: its mailbox and the block around it are as before. -/
theorem State.taken_frame (s : State) (code : Nat) (c : Cmd) : (s.taken code c).cmd.mailbox = s.cmd.mailbox ∧
    (s.taken code c).cmd.rota = s.cmd.rota ∧ (s.taken code c).fatal = s.fatal ∧ (s.taken code c).power = s.power ∧
    (s.taken code c).pins = s.pins ∧ (s.taken code c).mem = s.mem := by
  unfold State.taken
  split
  · next q _ =>
    obtain ⟨h1, h2, h3, h4, h5, -⟩ := s.consume_frame q
    exact ⟨(congrArg CmdSt.mailbox h1 :), (congrArg CmdSt.rota h1 :), h2, h3, h4, h5⟩
  · exact ⟨rfl, rfl, rfl, rfl, rfl, rfl⟩
  · exact ⟨rfl, rfl, rfl, rfl, rfl, rfl⟩

/-- A device that takes commands is not FATAL, has power and is out of reset. -/
theorem State.gate_run {s : State} {code : Nat} {src : CmdSrc} (h : s.gate code src = .run) :
    s.fatal = false ∧ (s.power.dev == .off) = false ∧ s.pins.sysRst = false
      ∧ (s.power.dev == .aux && !standbyOps.contains code) = false := by
  unfold State.gate at h
  split at h
  · cases h
  · next g =>
    have hx : (s.power.dev == .aux && !standbyOps.contains code) = false := by
      cases hc : standbyOps.contains code
      · cases ha : (s.power.dev == .aux)
        · rfl
        · simp only [ha, hc, Bool.or_true, Bool.true_or, if_true, Bool.false_eq_true, if_false] at h
          split at h
          · cases h
          · split at h
            · cases h
            · split at h <;> cases h
      · simp
    exact ⟨by simp_all, by simp_all, by simp_all, hx⟩

/-- A command that may start reaches its effect in the state `taken`. -/
theorem State.start_taken {s : State} {code : Nat} {c : Cmd} {who : Caller} (hw : s.callerOf c.src = some who)
    (h : s.mayStart code c = true) (body : Caller → State → State) : s.start code c body = body who (s.taken code c) := by
  simp only [State.mayStart, Bool.and_eq_true, decide_eq_true_eq] at h
  obtain ⟨⟨hg, ho⟩, hs⟩ := h
  unfold State.start State.taken
  rw [hw]
  cases hc : c.src with
  | ring q => rw [hc] at hg hs; simp [hg, ho, hs]
  | mctp t =>
    rw [hc] at hg hs
    by_cases hw' : s.cmd.held.contains (code, c) = true
    · simp only [hw', if_true, beq_iff_eq] at hs
      simp [hg, ho, hs]
      all_goals simp_all
    · simp only [hw', Bool.false_eq_true, if_false, Bool.and_eq_true, List.isEmpty_iff, decide_eq_true_eq] at hs
      have hl : ¬ 8 ≤ s.cmd.mctpOut.length := by omega
      simp [hg, ho, hs.1, hl]
  | jtag => rw [hc] at hg; simp [hg, ho]

/-- The parts of an acceptance. -/
theorem State.accepts_iff {s : State} {code : Nat} {c : Cmd} {who : Caller} {deny lenOk ex form found : Bool} :
    s.accepts code c who deny lenOk ex form found = true ↔ s.callerOf c.src = some who ∧ s.mayStart code c = true ∧
      (s.taken code c).precheck code c who false deny lenOk ex form found = none := by
  simp [State.accepts, and_assoc]

/-- The parts of an acceptance by Buckram. -/
theorem State.bkAccepts_iff {s : State} {code : Nat} {c : Cmd} {who : Caller} {env : BkEnv} {deny lenOk ex form found : Bool} :
    s.bkAccepts code c who env deny lenOk ex form found = true ↔ s.callerOf c.src = some who ∧ s.mayStart code c = true ∧
      s.mailboxIdle = true ∧ (s.taken code c).blockFor c env = c ∧
      (s.served code c).precheck code c who false deny lenOk ex form found = none := by
  simp [State.bkAccepts, and_assoc]

/-- Checks 1 to 8 that pass have found the flags right, and pass as Buckram repeats them. -/
theorem State.precheck_none {s : State} {code : Nat} {c : Cmd} {who : Caller} {deny lenOk ex form found : Bool}
    (h : s.precheck code c who false deny lenOk ex form found = none) :
    flagsOk code c (who == .firmware) = true ∧ s.precheck code c who true deny lenOk ex form found = none := by
  unfold State.precheck at h ⊢
  split at h
  · cases h
  · next i hi =>
    by_cases hf : flagsOk code c (who == .firmware) = true
    · refine ⟨hf, ?_⟩
      simpa [hf] using h
    · simp [hf] at h

/-- Service firmware's command: accepted, its effect is applied, and where it answers the reply follows. -/
theorem State.sf_accepted {s : State} {code : Nat} {c : Cmd} {who : Caller} {lenOk ex form : Bool} {deny found : Caller → State → Bool}
    {eff : Caller → State → State × Option Answer}
    (h : s.accepts code c who (deny who (s.taken code c)) lenOk ex form (found who (s.taken code c)) = true) :
    s.sf code c deny lenOk ex eff form found = match eff who (s.taken code c) with
      | (t, some a) => t.reply code c (!t.cmd.sfReady) a
      | (t, none) => t := by
  obtain ⟨hw, hm, hp⟩ := State.accepts_iff.1 h
  unfold State.sf
  rw [State.start_taken hw hm, hp]
  all_goals rfl

/-- A command refused by checks 1 to 8 is answered with the status, and has no effect. -/
theorem State.sf_refused {s : State} {code : Nat} {c : Cmd} {who : Caller} {lenOk ex form : Bool} {deny found : Caller → State → Bool}
    {eff : Caller → State → State × Option Answer} {e : Nat} (hw : s.callerOf c.src = some who) (hm : s.mayStart code c = true)
    (hp : (s.taken code c).precheck code c who false (deny who (s.taken code c)) lenOk ex form (found who (s.taken code c)) = some e) :
    s.sf code c deny lenOk ex eff form found = (s.taken code c).reply code c (!(s.taken code c).cmd.sfReady) (Answer.just e) := by
  unfold State.sf
  rw [State.start_taken hw hm, hp]

/-- A command for Buckram whose flags are right goes to its mailbox while that has room. -/
theorem State.bk_taken {s : State} {code : Nat} {c : Cmd} {who : Caller} {deny found : Caller → State → Bool} {lenOk ex form : Bool}
    {own : Caller → State → Option Nat} (hw : s.callerOf c.src = some who) (hm : s.mayStart code c = true)
    (hf : flagsOk code c (who == .firmware) = true) (hr : (s.taken code c).mailboxFull = false) :
    s.bk code c deny lenOk ex own form found = (s.taken code c).toBuckram code c who := by
  unfold State.bk
  rw [State.start_taken hw hm]
  simp [hf, hr]

/-- Buckram applies a command that its checks pass. -/
theorem State.bkApply_accepted {s : State} {code : Nat} {c : Cmd} {who : Caller} {deny lenOk ex form found : Bool}
    {eff : State → State × Option Answer} (h : s.precheck code c who true deny lenOk ex form found = none) :
    s.bkApply code c who deny lenOk ex eff form found = match eff s with
      | (t, some a) => t.reply code c true a
      | (t, none) => t := by
  unfold State.bkApply
  rw [h]
  all_goals rfl

/-- A command without a parameter block is at Buckram's turn what it was. -/
theorem State.blockFor_of_noBlock (s : State) {c : Cmd} (env : BkEnv) (h : c.pbLen = 0) : s.blockFor c env = c := by
  unfold State.blockFor
  rw [if_neg (fun x => x.2 h)]

/-- A step with a command in front of the queue. -/
theorem step_cons {s : State} {c : Instr} {rest : List Instr} (h : s.pending = c :: rest) :
    step s = exec c { s with pending := rest } := by
  unfold step
  rw [h]

/-- A step on an empty queue. -/
theorem step_nil {s : State} (h : s.pending = []) : step s = .next s.idle := by
  unfold step
  rw [h]

/-- A request that enters an empty mailbox stands there alone, and its caller alone in the rotation. -/
theorem State.toBuckram_idle {s : State} (code : Nat) (c : Cmd) (who : Caller) (hm : s.cmd.mailbox = []) (hr : s.cmd.rota = []) :
    s.toBuckram code c who = s.onCmd fun m => { m with mailbox := [.command code c who], rota := [who] } := by
  unfold State.toBuckram State.post
  exact State.onCmd_congr (by simp [hm, hr, bkCaller])

/-- Buckram's turn at the only request waiting. -/
theorem doBuckramRequest_single {s : State} {code : Nat} {c : Cmd} {who : Caller} (env : BkEnv)
    (hf : s.fatal = false) (hp : (s.power.dev == .off) = false) (hr : s.pins.sysRst = false)
    (ha : (s.power.dev == .aux && !standbyOps.contains code) = false) (hm : s.cmd.mailbox = [.command code c who]) (ho : s.cmd.rota = [who]) :
    doBuckramRequest env s = bkOpcode code ((s.onCmd fun m => { m with mailbox := [], rota := [] }).blockFor c env) who env
      ((s.onCmd fun m => { m with mailbox := [], rota := [] }).blockMeet c) := by
  have hn : s.bkNext = some who := by simp [State.bkNext, hm, ho, bkCaller]
  have hfind : s.cmd.mailbox.find? (fun r => bkCaller r == who) = some (.command code c who) := by simp [hm, bkCaller]
  have hu : (s.onCmd fun m => { m with
      mailbox := m.mailbox.erase (.command code c who)
      rota := if (m.mailbox.erase (.command code c who)).any fun x => bkCaller x == who then m.rota.erase who ++ [who] else m.rota.erase who })
      = s.onCmd fun m => { m with mailbox := [], rota := [] } := State.onCmd_congr (by simp [hm, ho])
  unfold doBuckramRequest
  simp only [hf, hp, hr, hn, hfind, Bool.or_false, Bool.false_eq_true, if_false]
  rw [hu]
  exact if_neg (by simpa using ha)

/-- A command that waits alone for Buckram, then Buckram's turn: what Buckram does with it, its block read, in the state where it is in
progress. -/
theorem State.toBuckram_served {s : State} {code : Nat} {c : Cmd} {who : Caller} (env : BkEnv) (hf : s.fatal = false)
    (hp : (s.power.dev == .off) = false) (hr : s.pins.sysRst = false) (ha : (s.power.dev == .aux && !standbyOps.contains code) = false)
    (hm : s.cmd.mailbox = []) (ho : s.cmd.rota = []) :
    doBuckramRequest env (s.toBuckram code c who) = bkOpcode code (s.blockFor c env) who env (s.blockMeet c) := by
  have hb : ((s.toBuckram code c who).onCmd fun m => { m with mailbox := [], rota := [] }) = s := by
    rw [State.toBuckram_idle code c who hm ho]
    show ({ s with cmd := { s.cmd with mailbox := [], rota := [] } } : State) = s
    rw [← hm, ← ho]
  have e := State.toBuckram_idle code c who hm ho
  rw [doBuckramRequest_single (s := s.toBuckram code c who) (code := code) (c := c) (who := who) env (by simp [e, hf])
    (by simpa [e] using hp) (by simp [e, hr]) (by simpa [e] using ha) (by simp [e]) (by simp [e]), hb]

/-- A command that Buckram applies, sent while its mailbox is idle, then Buckram's turn: what Buckram does with it in the state
where it is in progress. -/
theorem State.bk_served {s : State} {code : Nat} {c : Cmd} {who : Caller} {env : BkEnv} {deny found : Caller → State → Bool}
    {lenOk ex form : Bool} {own : Caller → State → Option Nat} {deny' lenOk' ex' form' found' : Bool}
    (h : s.bkAccepts code c who env deny' lenOk' ex' form' found' = true) :
    doBuckramRequest env (s.bk code c deny lenOk ex own form found) = bkOpcode code c who env (s.served code c) := by
  obtain ⟨hw, hm, hi, hb, hp⟩ := State.bkAccepts_iff.1 h
  simp only [State.mailboxIdle, Bool.and_eq_true, List.isEmpty_iff] at hi
  obtain ⟨t1, t2, t3, t4, t5, -⟩ := s.taken_frame code c
  have hg : s.gate code c.src = .run := by
    simp only [State.mayStart, Bool.and_eq_true, decide_eq_true_eq] at hm
    exact hm.1.1
  obtain ⟨g1, g2, g3, g4⟩ := State.gate_run hg
  rw [State.bk_taken hw hm (State.precheck_none hp).1 (by simp [State.mailboxFull, t1, hi.1]),
    State.toBuckram_served env (by simp [t3, g1]) (by simpa [t4] using g2) (by simp [t5, g3]) (by simpa [t4] using g4) (t1.trans hi.1) (t2.trans hi.2), hb]
  rfl

end Sys2Proof.Machine
end

