-- ==== Sys2Proof/Laws/Fatal.lean ====
section
/-! SUPPORT. In FATAL (03 R104, 18 R494) the shared operations that start work do nothing, and what the head of a queue that may
start is. -/

namespace Sys2Proof.Machine

variable {s : State}

/-- No command starts. -/
theorem State.start_fatal (h : s.fatal = true) (code : Nat) (c : Cmd) (f : Caller → State → State) : s.start code c f = s := by
  unfold State.start
  cases s.callerOf c.src with
  | none => rfl
  | some w => cases c.src <;> simp [State.gate, h]

theorem State.sf_fatal (h : s.fatal = true) (code : Nat) (c : Cmd) (deny : Caller → State → Bool) (lenOk ex : Bool)
    (eff : Caller → State → State × Option Answer) (form : Bool) (found : Caller → State → Bool) :
    s.sf code c deny lenOk ex eff form found = s := State.start_fatal h ..

theorem State.bk_fatal (h : s.fatal = true) (code : Nat) (c : Cmd) (deny : Caller → State → Bool) (lenOk ex : Bool)
    (own : Caller → State → Option Nat) (form : Bool) (found : Caller → State → Bool) :
    s.bk code c deny lenOk ex own form found = s := State.start_fatal h ..

theorem State.bkPart_fatal (h : s.fatal = true) (code : Nat) (c : Cmd) (deny : Caller → State → Bool) (lenOk ex : Bool)
    (part : Caller → State → State × Option Nat) (found : Caller → State → Bool) :
    s.bkPart code c deny lenOk ex part found = s := State.start_fatal h ..

/-- No queue has an entry that may start. -/
theorem State.readyHead_fatal (h : s.fatal = true) (qid : Nat) : s.readyHead qid = none := by
  unfold State.readyHead
  repeat' split
  all_goals simp_all

/-- No thread may issue. -/
theorem State.readyThread_fatal (h : s.fatal = true) (tid : Nat) : s.readyThread tid = none := by
  unfold State.readyThread
  repeat' split
  all_goals simp_all

/-- Doorbells, cipher pages, completions and write-back blocks do nothing. -/
theorem State.doorbell_fatal (h : s.fatal = true) (w : BarWrite) : s.doorbell w = s := by simp [State.doorbell, h]

theorem State.pageWrite_fatal (h : s.fatal = true) (f : FnRef) (page : Nat) (g : Nat → State → State) : s.pageWrite f page g = s := by
  simp [State.pageWrite, h]

theorem State.writeNext_fatal (h : s.fatal = true) (qid : Nat) : s.writeNext qid = s := by
  unfold State.writeNext
  split <;> simp [h]

theorem State.writeBack_fatal (h : s.fatal = true) (qid : Nat) : s.writeBack qid = s := by
  unfold State.writeBack
  split <;> simp [h]

/-- What it says of a queue that its head may start (03 R67 R71 R102). -/
theorem State.readyHead_some {qid : Nat} {q : Queue} {e : Bytes} (h : s.readyHead qid = some (q, e)) :
    s.queue qid = some q ∧ q.cache.get q.c = some e ∧ s.fatal = false ∧ (q.state = .enabled ∨ q.state = .draining) ∧
      q.headOk = true ∧ s.blocked q = false ∧ s.ownerHeld q.owner = false ∧ s.ownerResetting q.owner = false ∧ q.resetAt = none ∧
      (entryFence e = true → s.allFinished qid = true) ∧ s.dmaTakes qid q = true := by
  unfold State.readyHead at h
  cases hq : s.queue qid with
  | none => simp [hq] at h
  | some x =>
    cases he : x.cache.get x.c with
    | none => simp [hq, he] at h
    | some y =>
      simp only [hq, he] at h
      split at h
      · next hc =>
        simp only [Option.some.injEq, Prod.mk.injEq] at h
        obtain ⟨rfl, rfl⟩ := h
        simp only [Bool.and_eq_true, Bool.not_eq_true', Bool.or_eq_true, beq_iff_eq, decide_eq_true_eq, Option.isNone_iff_eq_none] at hc
        obtain ⟨⟨⟨⟨⟨⟨⟨⟨⟨⟨a, _⟩, b⟩, c⟩, d⟩, _⟩, f⟩, g⟩, i⟩, j⟩, m⟩ := hc
        refine ⟨rfl, he, a, b, c, d, f, g, i, fun k => ?_, m⟩
        rcases j with j | j
        · exact absurd k (by simp [j])
        · exact j
      · cases h

/-- A thread that may issue is in RUN on a core that is not hung, and the device is not FATAL (12 R338 R358). -/
theorem State.readyThread_some {tid : Nat} {t : Thread} (h : s.readyThread tid = some t) :
    s.thread tid = some t ∧ t.state = .run ∧ s.fatal = false ∧ ∃ c, s.core (tid / 8) = some c ∧ c.hung = false := by
  unfold State.readyThread at h
  cases ht : s.thread tid with
  | none => simp [ht] at h
  | some x =>
    cases hc : s.core (tid / 8) with
    | none => simp [ht, hc] at h
    | some k =>
      simp only [ht, hc] at h
      split at h
      · next g =>
        cases h
        exact ⟨rfl, g.1, g.2.2, k, rfl, g.2.1⟩
      · cases h

end Sys2Proof.Machine
end

