-- ==== Sys2Proof/Laws/Memory.lean ====
section
/-! SUPPORT. Device memory (01 R21 to R26) keeps its canonical form: addresses strictly rising, and no listed byte equal to the 0
that an unlisted one reads as. Every operation that writes memory goes through `memPut`. -/

namespace Sys2Proof.Machine

/-- The addresses of a list after a write are those before it or the one written. -/
theorem memPut_keys (m : List Host.Cell) (a : Nat) (b : Byte) : ∀ c ∈ memPut m a b, c.1 = a ∨ ∃ d ∈ m, d.1 = c.1 := by
  induction m with
  | nil =>
    intro c hc
    unfold memPut at hc
    split at hc
    · cases hc
    · simp at hc; exact .inl (by rw [hc])
  | cons x m ih =>
    intro c hc
    unfold memPut at hc
    split at hc
    · split at hc
      · exact .inr ⟨c, hc, rfl⟩
      · rcases List.mem_cons.1 hc with rfl | h
        · exact .inl rfl
        · exact .inr ⟨c, h, rfl⟩
    · split at hc
      · split at hc
        · exact .inr ⟨c, List.mem_cons_of_mem _ hc, rfl⟩
        · rcases List.mem_cons.1 hc with rfl | h
          · exact .inl rfl
          · exact .inr ⟨c, List.mem_cons_of_mem _ h, rfl⟩
      · rcases List.mem_cons.1 hc with rfl | h
        · exact .inr ⟨_, List.mem_cons_self, rfl⟩
        · rcases ih c h with e | ⟨d, hd, e⟩
          · exact .inl e
          · exact .inr ⟨d, List.mem_cons_of_mem _ hd, e⟩

/-- Writing a byte keeps the canonical form. -/
theorem memPut_wf {m : List Host.Cell} (h : Memory.wf m) (a : Nat) (b : Byte) : Memory.wf (memPut m a b) := by
  induction m with
  | nil =>
    unfold memPut
    split
    · exact h
    · next hb => exact ⟨by simp, by simpa using hb⟩
  | cons x m ih =>
    obtain ⟨hp, hz⟩ := h
    rw [List.pairwise_cons] at hp
    have hm : Memory.wf m := ⟨hp.2, fun c hc => hz c (List.mem_cons_of_mem _ hc)⟩
    have hx : x.2 ≠ 0 := hz x List.mem_cons_self
    unfold memPut
    split
    · next hlt =>
      split
      · exact ⟨List.pairwise_cons.2 hp, hz⟩
      · next hb =>
        refine ⟨List.pairwise_cons.2 ⟨fun c hc => ?_, List.pairwise_cons.2 hp⟩, fun c hc => ?_⟩
        · rcases List.mem_cons.1 hc with rfl | h
          · exact hlt
          · exact Nat.lt_trans hlt (hp.1 c h)
        · rcases List.mem_cons.1 hc with rfl | h
          · exact hb
          · exact hz c h
    · next hge =>
      split
      · next heq =>
        split
        · exact hm
        · next hb =>
          refine ⟨List.pairwise_cons.2 ⟨fun c hc => ?_, hp.2⟩, fun c hc => ?_⟩
          · show a < c.1
            rw [heq]
            exact hp.1 c hc
          · rcases List.mem_cons.1 hc with rfl | h
            · exact hb
            · exact hz c (List.mem_cons_of_mem _ h)
      · next hne =>
        refine ⟨List.pairwise_cons.2 ⟨fun c hc => ?_, (ih hm).1⟩, fun c hc => ?_⟩
        · rcases memPut_keys m a b c hc with e | ⟨d, hd, e⟩
          · show x.1 < c.1
            have h1 : ¬ a < x.1 := hge
            have h2 : ¬ a = x.1 := hne
            omega
          · show x.1 < c.1
            rw [← e]
            exact hp.1 d hd
        · rcases List.mem_cons.1 hc with rfl | h
          · exact hx
          · exact (ih hm).2 c h

/-- One byte written at a device address keeps memory canonical. -/
theorem State.pokeByte_memOk {s : State} (h : s.memOk) (a : Nat) (b : Byte) : (s.pokeByte a b).memOk := by
  unfold State.pokeByte
  split
  · exact memPut_wf h _ _
  · exact h

/-- A fold of steps that each keep memory canonical keeps it canonical. -/
theorem memOk_foldl {α : Type} (f : State → α → State) (hf : ∀ s x, s.memOk → (f s x).memOk) (l : List α) :
    ∀ s : State, s.memOk → (l.foldl f s).memOk := by
  induction l with
  | nil => exact fun _ h => h
  | cons x l ih => exact fun s h => ih _ (hf s x h)

theorem State.pokeBytes_memOk {s : State} (h : s.memOk) (a : Nat) (bs : Bytes) : (s.pokeBytes a bs).memOk :=
  memOk_foldl _ (fun _ x hs => State.pokeByte_memOk hs _ x.1) _ s h

/-- A whole line written into a channel's memory keeps it canonical. -/
theorem State.setLine_memOk {s : State} (h : s.memOk) (k : Nat) (b : Bytes) : (s.setLine k b).memOk :=
  memOk_foldl (fun (s : State) (x : Byte × Nat) => s.onMem fun m => memPut m (64 * k + x.2) x.1)
    (fun _ x hs => memPut_wf hs _ x.1) _ s h

/-- What follows a write, poison, reservations, write-backs and their counters, leaves memory as it is. -/
theorem State.cleanLines_mem (s : State) (a n : Nat) : (s.cleanLines a n).mem = s.mem := by
  have key : ∀ (l : List (ChannelSt × Nat)) (f : ChannelSt × Nat → Nat) (s : State),
      (l.foldl (fun s (x : ChannelSt × Nat) => s.countBy Ct.ddr (512 + x.2) 0 (f x)) s).mem = s.mem := by
    intro l f
    induction l with
    | nil => exact fun _ => rfl
    | cons x l ih => exact fun s => ih _
  exact key _ (fun x => (x.1.writebacks.filter
    ((addrs a n).filterMap fun y => (s.memKey y).map (· / 64)).contains).length) _

/-- A device write that is let through keeps memory canonical (01 R21). -/
theorem State.devWrite_memOk {s t : State} {q : Requester} {a : Nat} {bs : Bytes} (h : s.memOk)
    (hw : s.devWrite q a bs = some t) : t.memOk := by
  unfold State.devWrite at hw
  split at hw
  · cases hw
    unfold State.memOk
    rw [State.cleanLines_mem]
    exact State.pokeBytes_memOk h a bs
  · cases hw

/-- Memory as it is after any reset, and as the reset state has it, is canonical: it lists nothing. -/
theorem afterReset_memOk (fuses : Fuses) (log : List Bytes) (n : Nat) (straps : Straps) :
    Memory.wf (State.afterReset fuses log n straps).mem := ⟨List.Pairwise.nil, fun _ h => by cases h⟩

end Sys2Proof.Machine
end

