-- ==== Sys2Proof/Laws/Replies.lean ====
section
/-! SUPPORT. What a reply and an operation's start leave alone. -/

namespace Sys2Proof.Machine

/-- A reply that is sent changes queues, the command state and what the block sends, and nothing else (04 R115 R118). -/
theorem State.sendReply_frame (s : State) (code : Nat) (c : Cmd) (byBk : Bool) (a : Answer) :
    (s.sendReply code c byBk a).mem = s.mem ∧ (s.sendReply code c byBk a).fatal = s.fatal ∧ (s.sendReply code c byBk a).time
    = s.time ∧ (s.sendReply code c byBk a).dram = s.dram ∧ (s.sendReply code c byBk a).host = s.host ∧ (s.sendReply code c
    byBk a).damask = s.damask ∧ (s.sendReply code c byBk a).tables = s.tables ∧ (s.sendReply code c byBk a).twill = s.twill
    ∧ (s.sendReply code c byBk a).krm = s.krm ∧ (s.sendReply code c byBk a).blk = s.blk ∧ (s.sendReply code c byBk a).cy =
    s.cy ∧ (s.sendReply code c byBk a).dma = s.dma ∧ (s.sendReply code c byBk a).cores = s.cores ∧ (s.sendReply code c byBk
    a).boot = s.boot ∧ (s.sendReply code c byBk a).power = s.power ∧ (s.sendReply code c byBk a).trust = s.trust ∧
    (s.sendReply code c byBk a).ev = s.ev ∧ (s.sendReply code c byBk a).pins = s.pins := by
  unfold State.sendReply State.emitMctp
  dsimp only
  repeat' split
  all_goals exact ⟨rfl, rfl, rfl, rfl, rfl, rfl, rfl, rfl, rfl, rfl, rfl, rfl, rfl, rfl, rfl, rfl, rfl, rfl⟩

/-- The same of a reply that a command pause may hold back (04 R129). -/
theorem State.reply_frame (s : State) (code : Nat) (c : Cmd) (byBk : Bool) (a : Answer) :
    (s.reply code c byBk a).mem = s.mem ∧ (s.reply code c byBk a).fatal = s.fatal ∧ (s.reply code c byBk a).time = s.time ∧
    (s.reply code c byBk a).dram = s.dram ∧ (s.reply code c byBk a).host = s.host ∧ (s.reply code c byBk a).damask =
    s.damask ∧ (s.reply code c byBk a).tables = s.tables ∧ (s.reply code c byBk a).twill = s.twill ∧ (s.reply code c byBk
    a).krm = s.krm ∧ (s.reply code c byBk a).blk = s.blk ∧ (s.reply code c byBk a).cy = s.cy ∧ (s.reply code c byBk a).dma =
    s.dma ∧ (s.reply code c byBk a).cores = s.cores ∧ (s.reply code c byBk a).boot = s.boot ∧ (s.reply code c byBk a).power
    = s.power ∧ (s.reply code c byBk a).trust = s.trust ∧ (s.reply code c byBk a).ev = s.ev ∧ (s.reply code c byBk a).pins =
    s.pins := by
  unfold State.reply
  split
  · exact ⟨rfl, rfl, rfl, rfl, rfl, rfl, rfl, rfl, rfl, rfl, rfl, rfl, rfl, rfl, rfl, rfl, rfl, rfl⟩
  · exact s.sendReply_frame code c byBk a

/-- A started operation gets the next number and its queue's head entry; memory, hosts and the engines are as before (03 R67). -/
theorem State.newOp_frame (s : State) (qid : Nat) (e : Bytes) (l : List Frag) :
    (s.newOp qid e l).1.mem = s.mem ∧ (s.newOp qid e l).1.fatal = s.fatal ∧ (s.newOp qid e l).1.host = s.host ∧
    (s.newOp qid e l).1.krm = s.krm ∧ (s.newOp qid e l).1.blk = s.blk ∧ (s.newOp qid e l).1.cy = s.cy ∧
    (s.newOp qid e l).1.dma = s.dma ∧ (s.newOp qid e l).1.cmd = s.cmd ∧ (s.newOp qid e l).1.time = s.time := by
  unfold State.newOp State.consume
  dsimp only
  repeat' split
  all_goals exact ⟨rfl, rfl, rfl, rfl, rfl, rfl, rfl, rfl, rfl⟩

theorem State.newOp_number {s : State} {qid : Nat} {q : Queue} (h : s.queue qid = some q) (e : Bytes) (l : List Frag) :
    (s.newOp qid e l).2 = s.qm.nextOp := by
  unfold State.newOp
  rw [h]

end Sys2Proof.Machine
end

