-- ==== Sys2Proof/Laws/Time.lean ====
section
/-! SUPPORT. An FT that is a multiple of a period stands on its grid, and a change accepted before it takes effect then (02 R63 R64). -/

namespace Sys2Proof.Machine

theorem State.past_zero {s : State} {p : Nat} (h : s.ft % p = 0) : s.past p 0 = 0 := by
  unfold State.past
  simp [h]

theorem State.onGrid_of_mod {s : State} {p : Nat} (hp : 0 < p) (h : s.ft % p = 0) : s.onGrid p 0 = true := by
  simp [State.onGrid, State.past_zero h, Nat.pos_iff_ne_zero.1 hp]


theorem State.gridFt_of_mod {s : State} {p : Nat} (h : s.ft % p = 0) : s.gridFt p 0 = s.ft := by
  simp [State.gridFt, State.past_zero h]

theorem State.dueAt_of_grid {s : State} {t : Nat} (h : t ≤ s.ft) : s.dueAt t true = true := by simp [State.dueAt, h]

end Sys2Proof.Machine
end

