-- ==== Sys2Proof/Machine/Package.lean ====
section
/-! DEFINITION. The package (19_package_and_pins.md): the land map (R512 to R515), the supply rails and their
sequencing (R516 to R518), the clock inputs (R519), the straps (R521 R522), the reset timing (R523), the sideband signals (R525) and the
thermal and mechanical limits (R531). Nothing here changes in a run. -/

namespace Sys2Proof.Machine

/-! ## Rails (R516) -/

inductive Rail where
  | vddCore | vddSram | vddIod | vddSerdes | vddSerdesHv | vddqDdr | vddDimmSb | vddAux | vddAuxIo | vddAux3v3
deriving DecidableEq, Repr

/-- A rail's limits, in mV and mA; `main` is false for the auxiliary group. -/
structure RailLimits where
  main : Bool
  nominal : Nat
  low : Nat
  high : Nat
  absMax : Nat
  maxCurrent : Nat
deriving DecidableEq, Repr

def Rail.limits : Rail → RailLimits
  | .vddCore => ⟨true, 750, 735, 765, 900, 720000⟩
  | .vddSram => ⟨true, 800, 784, 816, 950, 160000⟩
  | .vddIod => ⟨true, 750, 735, 765, 900, 140000⟩
  | .vddSerdes => ⟨true, 850, 829, 871, 1000, 90000⟩
  | .vddSerdesHv => ⟨true, 1200, 1164, 1236, 1400, 25000⟩
  | .vddqDdr => ⟨true, 1100, 1067, 1133, 1350, 30000⟩
  | .vddDimmSb => ⟨true, 1000, 950, 1050, 1200, 100⟩
  | .vddAux => ⟨false, 800, 776, 824, 950, 6000⟩
  | .vddAuxIo => ⟨false, 1800, 1710, 1890, 2100, 500⟩
  | .vddAux3v3 => ⟨false, 3300, 3135, 3465, 3900, 200⟩

/-- A rail at a voltage in mV is in its operating range. -/
def Rail.inRange (r : Rail) (mv : Nat) : Bool := r.limits.low ≤ mv && mv ≤ r.limits.high

/-- The most that the package draws at any operating point, in mW (R516). -/
def packagePowerMax : Nat := 650000

/-! ## Sequencing and levels (R517 R518) -/

/-- The ramp of a rail from 10 % to 90 % lies in its limits; the time in us. -/
def rampOk (us : Nat) : Bool := 100 ≤ us && us ≤ 10000

/-- The least time in us for which every main rail is in range before MAIN_PWR_OK is asserted, and for which MAIN_PWR_OK is deasserted
before any of them leaves its range. -/
def mainPwrOkLead : Nat := 1000

/-- The main rails may come up: every auxiliary rail is at an operating voltage, in mV. -/
def mainMayRise (mv : Rail → Nat) : Bool := [Rail.vddAux, .vddAuxIo, .vddAux3v3].all fun r => r.inRange (mv r)

/-- MAIN_PWR_OK may be asserted: every main rail is in range, and has been so for the time in us. -/
def mainPwrOkMay (mv : Rail → Nat) (us : Nat) : Bool :=
  ([Rail.vddCore, .vddSram, .vddIod, .vddSerdes, .vddSerdesHv, .vddqDdr, .vddDimmSb].all fun r => r.inRange (mv r)) && mainPwrOkLead ≤ us

/-- A signal land of a rail at `mv` may be driven to a level in mV, against VSS. -/
def Rail.levelOk (r : Rail) (mv : Rail → Nat) (level : Int) : Bool := -300 ≤ level && level ≤ (mv r : Int) + 300

/-- A supply rail survives a voltage in mV: it is not driven below -0.3 V, and lies within its absolute maximum. -/
def Rail.survives (r : Rail) (mv : Int) : Bool := -300 ≤ mv && mv ≤ (r.limits.absMax : Int)

/-! ## Clock inputs (R519) -/

/-- When a clock input is required. -/
inductive Required where
  | always | portInUse | ppsClkOrHold | ppsClk
deriving DecidableEq, Repr

/-- A clock input: its frequencies in Hz, its tolerance in ppm where R519 gives one, the down-spread allowed in ppm, its jitter in fs rms
where R519 gives one with the band in Hz where it names one, and when it is required. -/
structure ClockInput where
  hz : List Nat
  ppm : Option Nat
  downSpread : Nat
  jitterFs : Option Nat
  band : Option (Nat × Nat)
  required : Required
deriving DecidableEq, Repr

def sysclkInput : ClockInput := ⟨[156250000], some 50, 0, some 150, some (12000, 20000000), .always⟩
def hrefclkInput : ClockInput := ⟨[100000000], some 300, 5000, none, none, .portInUse⟩
def ftClkInput : ClockInput := ⟨[10000000, 25000000], none, 0, some 1000, some (10, 1000000), .ppsClkOrHold⟩
def ppsInput : ClockInput := ⟨[1], none, 0, some 100000, none, .ppsClk⟩

/-- A frequency in mHz is within a tolerance in ppm of a nominal one in Hz, with a down-spread allowed. -/
def ClockInput.freqOk (c : ClockInput) (hz mHz : Nat) : Bool :=
  c.hz.contains hz && (match c.ppm with
    | some p => hz * (1000000 - p - c.downSpread) ≤ mHz * 1000 && mHz * 1000 ≤ hz * (1000000 + p)
    | none => true)

/-! ## Straps (R521 R522) -/

/-- The board's drive of a strap: a resistor in ohms to VDD_AUX_IO, a resistor to VSS or none, or a short. -/
inductive StrapDrive where
  | pullUp (ohms : Nat)
  | pullDown (ohms : Nat)
  | opened
  | short (high : Bool)
deriving DecidableEq, Repr

/-- The level that the drive sets; none for a resistor to VDD_AUX_IO outside 1 to 10 kilohms. -/
def StrapDrive.level : StrapDrive → Option Bool
  | .pullUp r => if 1000 ≤ r ∧ r ≤ 10000 then some true else none
  | .pullDown _ => some false
  | .opened => some false
  | .short high => some high

/-- A strap test finds the strap shorted: it does not follow the drive of 2 mA. -/
def StrapDrive.stuck : StrapDrive → Bool
  | .short _ => true
  | _ => false

/-! ## Reset timing (R523) -/

/-- The minima in ns of R523: SYS_RST# low, its release after the auxiliary rails, SYSCLK before that release, PERSTn# after
MAIN_PWR_OK, HREFCLKn before PERSTn# is deasserted, PERSTn# low; and the maxima: outputs tri-stated, THERM_TRIP# asserted. -/
structure ResetTiming where
  sysRstLow : Nat
  releaseAfterAux : Nat
  sysclkBefore : Nat
  perstAfterPwrOk : Nat
  hrefclkBefore : Nat
  perstLow : Nat
  triStateMax : Nat
  thermTripMax : Nat
deriving DecidableEq, Repr

def resetTiming : ResetTiming :=
  { sysRstLow := 10000, releaseAfterAux := 10000000, sysclkBefore := 1000000, perstAfterPwrOk := 100000000
    hrefclkBefore := 100000, perstLow := 100000, triStateMax := 1000, thermTripMax := 10000 }

/-! ## Sideband signals (R525) -/

inductive PinType where
  | input | openDrain | pushPull | i3cOrSmbus | i3cBasic | lvdsOutput
deriving DecidableEq, Repr

/-- A class of sideband signals: its rail where it is single-ended, its type, drive and current limit in uA, its internal pull in ohms
(up, down), and its highest clock in Hz where R525 gives one. -/
structure SidebandPin where
  rail : Option Rail
  type : PinType
  drive : Option Nat
  limit : Option Nat
  pullUp : Option Nat
  pullDown : Option Nat
  maxHz : Option Nat
deriving DecidableEq, Repr

/-- The class of a signal of R515 by its name; the clock pairs are no sideband signals. -/
def sidebandPin (n : String) : Option SidebandPin :=
  if n = "SYS_RST#" ∨ n = "MAIN_PWR_OK" ∨ n = "PERST0#" ∨ n = "PERST1#" then
    some ⟨some .vddAux3v3, .input, none, none, none, some 100000, none⟩
  else if n = "CLKREQ0#" ∨ n = "CLKREQ1#" ∨ n = "THERM_TRIP#" then some ⟨some .vddAux3v3, .openDrain, some 8000, none, none, none, none⟩
  else if n = "MGMT_SCL" ∨ n = "MGMT_SDA" then some ⟨some .vddAuxIo, .i3cOrSmbus, some 8000, none, none, none, some 12500000⟩
  else if "DC".isPrefixOf n then some ⟨some .vddDimmSb, .i3cBasic, some 4000, none, none, none, some 12500000⟩
  else if n = "XSPI_CS#" ∨ n = "XSPI_RST#" then some ⟨some .vddAuxIo, .pushPull, some 8000, some 20000, some 50000, none, some 200000000⟩
  else if "XSPI_".isPrefixOf n then some ⟨some .vddAuxIo, .pushPull, some 8000, some 20000, none, none, some 200000000⟩
  else if n = "EMMC_CMD" ∨ "EMMC_DAT".isPrefixOf n then some ⟨some .vddAuxIo, .pushPull, some 8000, some 20000, some 50000, none, none⟩
  else if "EMMC_".isPrefixOf n then some ⟨some .vddAuxIo, .pushPull, some 8000, some 20000, none, none, none⟩
  else if n = "DBG_TDO" then some ⟨some .vddAuxIo, .pushPull, some 8000, some 20000, none, none, none⟩
  else if n = "DBG_TRST#" then some ⟨some .vddAuxIo, .input, none, none, none, some 50000, none⟩
  else if "DBG_".isPrefixOf n then some ⟨some .vddAuxIo, .input, none, none, some 50000, none, some 25000000⟩
  else if "BOOT_SEL".isPrefixOf n ∨ "HP0_BIF".isPrefixOf n ∨ "HP1_BIF".isPrefixOf n then
    some ⟨some .vddAuxIo, .input, some 2000, none, none, some 50000, none⟩
  else if "FT_PPS_OUT".isPrefixOf n then some ⟨none, .lvdsOutput, some 3500, some 12000, none, none, none⟩
  else none

/-- VIL and VIH of SYS_RST#, MAIN_PWR_OK and PERSTn#, in mV: the level that a voltage is seen as, none between the two. -/
def schmittLevel (mv : Nat) : Option Bool := if mv ≤ 800 then some false else if 2000 ≤ mv then some true else none

/-! ## Thermal and mechanical limits (R531) -/

/-- Powers in mW, temperatures in millidegrees Celsius, the junction-to-lid resistance in millidegrees per W, flatness in um, the load of
the socket in N. -/
structure ThermalLimits where
  powerMax : Nat
  powerTypical : Nat
  tjMax : Int
  tjThrottle : Int
  tjTrip : Int
  thetaJl : Nat
  lidMax : Int
  lidFlatness : Nat
  loadMin : Nat
  loadMax : Nat
  storageMin : Int
  storageMax : Int
deriving DecidableEq, Repr

def thermalLimits : ThermalLimits :=
  { powerMax := packagePowerMax, powerTypical := 400000, tjMax := 105000, tjThrottle := 100000, tjTrip := 115000, thetaJl := 20
    lidMax := 85000, lidFlatness := 100, loadMin := 1800, loadMax := 2400, storageMin := -40000, storageMax := 125000 }

/-- The most that the junction reaches at a lid temperature and a power in mW. -/
def tjBound (lid : Int) (mw : Nat) : Int := lid + (mw * thermalLimits.thetaJl : Nat) / 1000

/-! ## Signals and their lands (R514 R515) -/

/-- A land, by column and row of the 120 by 120 grid. -/
structure Land where
  col : Nat
  row : Nat
deriving DecidableEq, Repr

/-- What a land carries: `ddr` is a land of the block of a DRAM channel, whose signal order R514 leaves to JEDEC. -/
inductive LandUse where
  | vss
  | rail (r : Rail)
  | npLane (port lane : Nat) (rx neg : Bool)
  | hpLane (port lane : Nat) (rx neg : Bool)
  | ddr (channel : Nat)
  | signal (name : String)
deriving DecidableEq, Repr

/-- The land of a leg of a network lane and of a host lane. -/
def npLand (p k : Nat) (rx neg : Bool) : Land :=
  ⟨3 + 4 * (k % 4) + (if neg then 1 else 0), 6 + 28 * p + 6 * (k / 4) + (if rx then 3 else 0)⟩
def hpLand (n k : Nat) (rx neg : Bool) : Land :=
  ⟨102 + 4 * (k % 4) + (if neg then 1 else 0), 8 + 60 * n + 6 * (k / 4) + (if rx then 3 else 0)⟩

/-- The first column of a DRAM channel, and the row of its sideband. -/
def ddrCol (c : Nat) : Nat := 22 + 13 * (c % 6)
def ddrSbRow (c : Nat) : Nat := if c ≤ 5 then 9 else 112

/-- Signals of R515 on consecutive lands of a row. -/
def inRow (col row : Nat) (names : List String) : List (Land × String) := names.zipIdx.map fun (n, i) => (⟨col + i, row⟩, n)

/-- The single-ended and timing signals (R515). -/
def singleLands : List (Land × String) :=
  inRow 4 48 ["FT_PPS_IN_P", "FT_PPS_IN_N"] ++ inRow 4 51 ["FT_PPS_OUT_P", "FT_PPS_OUT_N"] ++ inRow 4 54 ["FT_CLK_IN_P", "FT_CLK_IN_N"]
    ++ inRow 8 48 ["SYSCLK_P", "SYSCLK_N"] ++ inRow 104 34 ["HREFCLK0_P", "HREFCLK0_N"] ++ inRow 104 94 ["HREFCLK1_P", "HREFCLK1_N"]
    ++ inRow 110 34 ["PERST0#"] ++ inRow 110 94 ["PERST1#"] ++ inRow 112 34 ["CLKREQ0#"] ++ inRow 112 94 ["CLKREQ1#"]
    ++ inRow 110 40 ["SYS_RST#", "MAIN_PWR_OK", "THERM_TRIP#"] ++ inRow 114 42 ["BOOT_SEL0", "BOOT_SEL1", "BOOT_SEL2"]
    ++ inRow 114 40 ["HP0_BIF0", "HP0_BIF1"] ++ inRow 114 100 ["HP1_BIF0", "HP1_BIF1"] ++ inRow 110 44 ["MGMT_SCL", "MGMT_SDA"]
    ++ inRow 110 50 ["DBG_TCK", "DBG_TMS", "DBG_TDI", "DBG_TDO", "DBG_TRST#"]
    ++ inRow 106 46 ["XSPI_SCK", "XSPI_CS#", "XSPI_DQS", "XSPI_RST#", "XSPI_DQ0", "XSPI_DQ1", "XSPI_DQ2", "XSPI_DQ3", "XSPI_DQ4", "XSPI_DQ5",
        "XSPI_DQ6", "XSPI_DQ7"]
    ++ inRow 106 48 ["EMMC_CLK", "EMMC_CMD", "EMMC_DS", "EMMC_RST#", "EMMC_DAT0", "EMMC_DAT1", "EMMC_DAT2", "EMMC_DAT3", "EMMC_DAT4",
        "EMMC_DAT5", "EMMC_DAT6", "EMMC_DAT7"]
    ++ (List.range 12).flatMap fun c => inRow (ddrCol c) (ddrSbRow c) ["DC" ++ toString c ++ "_SCL", "DC" ++ toString c ++ "_SDA"]

/-! ## The land map (R512 R513) -/

/-- The rail of one of three column ranges, each given by its last column. -/
def byColumn (col a b : Nat) : Rail := if col ≤ a then .vddIod else if col ≤ b then .vddSerdes else .vddSerdesHv

/-- The rail that the odd lands of a supply area, or of the central region, carry at a position. -/
def railAt (l : Land) : Option Rail :=
  let c := l.col
  let r := l.row
  if 21 ≤ c ∧ c ≤ 100 ∧ 10 ≤ r ∧ r ≤ 111 then
    some (if r ≤ 19 ∨ 102 ≤ r then .vddqDdr else if r ≤ 29 ∨ 92 ≤ r then .vddSram else .vddCore)
  else if c = 100 ∧ (r ≤ 9 ∨ 112 ≤ r) then some .vddDimmSb
  else if c ≤ 20 ∧ ((18 ≤ r ∧ r ≤ 30) ∨ (75 ≤ r ∧ r ≤ 87)) then some (byColumn c 6 13)
  else if 118 ≤ c ∧ 52 ≤ r ∧ r ≤ 60 then some (if r ≤ 54 then .vddAux else if r ≤ 57 then .vddAuxIo else .vddAux3v3)
  else if 101 ≤ c ∧ 52 ≤ r ∧ r ≤ 60 then some (byColumn c 106 112)
  else if 101 ≤ c ∧ 106 ≤ r then some (byColumn c 107 114)
  else none

/-- A lane whose land this is, among the lanes of two or four ports; `at'` is the land of a leg. -/
def laneAt (ports lanes : Nat) (at' : Nat → Nat → Bool → Bool → Land) (l : Land) : Option (Nat × Nat × Bool × Bool) :=
  (List.range (ports * lanes)).findSome? fun i =>
    [(false, false), (false, true), (true, false), (true, true)].findSome? fun (rx, neg) =>
      if at' (i / lanes) (i % lanes) rx neg = l then some (i / lanes, i % lanes, rx, neg) else none

/-- What a land of the grid carries: a signal, or the rail of an odd land, or VSS. -/
def landUse (l : Land) : LandUse :=
  match singleLands.find? (·.1 == l), laneAt 4 8 npLand l, laneAt 2 16 hpLand l with
  | some (_, n), _, _ => .signal n
  | none, some (p, k, rx, neg), _ => .npLane p k rx neg
  | none, none, some (p, k, rx, neg) => .hpLane p k rx neg
  | none, none, none =>
    if 22 ≤ l.col ∧ l.col ≤ 99 ∧ (l.row ≤ 9 ∨ 112 ≤ l.row) then .ddr ((l.col - 22) / 13 + if l.row ≤ 9 then 0 else 6)
    else if (l.col + l.row) % 2 = 0 then .vss
    else match railAt l with
      | some r => .rail r
      | none => .vss

end Sys2Proof.Machine
end

