-- ==== Sys2Proof/WellFormed.lean ====
section
/-! DEFINITION. Well-formed commands: every operand within the range that its name has in the spec (00 R3 R11, 03 R87,
04 R110 R112, 13 R365, 18 R484). The meanings are total and do not rest on it. -/

namespace Sys2Proof

/-- A function of a host port: PF 0-7 or VF 0-1,023 (13 R369). -/
def fnWf (f : FnRef) : Bool := decide (f.port < 2) && decide (f.num < (if f.vf then 1024 else 8))

/-- A command packet: 48 parameter bytes, and at most 4,096 bytes of block where it could be read (04 R110). -/
def cmdWf (c : Cmd) : Bool :=
  decide (c.params.length = 48) && decide (c.pbLen < 65536) && decide (c.pb.length ≤ 65536)
    && match c.src with
       | .ring q => decide (q < 65536)
       | .mctp t => decide (t < 8)
       | .jtag => true

/-- A write within a BAR (13 R368). -/
def barWf (w : BarWrite) : Bool :=
  fnWf w.fn && (match w.bar with
    | 0 => decide (w.offset < 0x1000000)
    | 2 => decide (w.offset < 0x4000000)
    | _ => false)

/-- Sampled straps (19 R521). -/
def strapsWf (x : Straps) : Bool := decide (x.bootSel < 8) && decide (x.hp0Bif < 4) && decide (x.hp1Bif < 4)

/-- The values that a configuration field may be written with: a 64-bit BAR, a 32-bit register of Advanced Error Reporting, or a field of a
16-bit register (13 R367 R368). -/
def cfgLimit : CfgField → Nat
  | .bar _ | .vfBar _ => 2 ^ 64
  | .aer | .aerCor | .uncSeverity | .uncMask | .corMask => 2 ^ 32
  | _ => 65536

/-- A register access within its space (01 R21, 13 R368). -/
def accessWf : RegAccess → Bool
  | .config f r v => fnWf f && decide (v < cfgLimit r)
  | .control f o _ _ => fnWf f && decide (o < 0x1000)
  | .msix f o _ => fnWf f && decide (o < 0x10000)
  | .cipher f p o _ _ => fnWf f && decide (p < 16384) && decide (o < 0x1000)
  | .device d o _ _ => decide (d < 8) && decide (o < 0x10000000)

/-- The blocks on a medium are of 64 KiB, in the user area or a boot partition (15 R416 R419). -/
def mediumWf (m : Medium) : Bool :=
  decide (m.source < 2) && m.blocks.all fun l => l.all fun (a, _, b) => decide (a < 3) && decide (b.length = 65536)

/-- A debugger register number (12 R355). -/
def debugWf : DebugAccess → Bool
  | .readReg r => decide (r < 38)
  | .writeReg r _ => decide (r < 38)
  | .readStaging => true
  | .readReceive => true

/-- A command is well formed. -/
def Instr.wf : Instr → Bool
  | .ftMeasAtWrite _ => true
  | .ppsEdge _ => true
  | .ppsInFall => true
  | .ftClkInvert => true
  | .sourceLost _ => true
  | .ftClkInAbsent => true
  | .holdoverBoundCheck => true
  | .ftStep => true
  | .ftSetWrite _ => true
  | .ftNowRead die _ => decide (die < 8)
  | .ftAlignStatRead => true
  | .ftDistribute misalign => decide (misalign.length = 8)
  | .ftCfgApply => true
  | .ppsOutCfgApply => true
  | .ftPpsOutPulse => true
  | .ppsOutContend => true
  | .devIdentify c => cmdWf c
  | .devHealth c => cmdWf c
  | .devPortMode c => cmdWf c
  | .devPortQuery c => cmdWf c
  | .devReset c => cmdWf c
  | .deviceResetBegin straps => strapsWf straps
  | .queueCreate c => cmdWf c
  | .queueEnable c => cmdWf c
  | .queueDisable c => cmdWf c
  | .queueIdle qid => decide (qid < 65536)
  | .queueDestroy c => cmdWf c
  | .queueQuery c => cmdWf c
  | .queueMove c => cmdWf c
  | .homeMove qid => decide (qid < 65536)
  | .fnQuery c => cmdWf c
  | .sliceCreate c => cmdWf c
  | .sliceBindingEffect sid => decide (sid < 16384)
  | .sliceQuiesce c => cmdWf c
  | .sliceReset c => cmdWf c
  | .sliceResetComplete sid => decide (sid < 16384)
  | .sliceDestroy c => cmdWf c
  | .vfQuiesce c => cmdWf c
  | .spoofSet c => cmdWf c
  | .spoofSetEffect sid => decide (sid < 16384)
  | .spoofQuery c => cmdWf c
  | .tblCreate c => cmdWf c
  | .tblSearch c => cmdWf c
  | .tblNext c => cmdWf c
  | .iterationTimeout table => decide (table < 16)
  | .tblInsert c => cmdWf c
  | .tblDelete c => cmdWf c
  | .tblFlushByPort c => cmdWf c
  | .tblAgingSet c => cmdWf c
  | .ruleChangeEffect => true
  | .agingPassStart table => decide (table < 16)
  | .agingVisit table part _ => decide (table < 16) && decide (part < 4)
  | .twShaperSet c => cmdWf c
  | .shaperRefill qid => decide (qid < 65536)
  | .twPolicerSet c => cmdWf c
  | .policerSetApply policer => decide (policer < 65536)
  | .twDgSet c => cmdWf c
  | .dgSetApply dgid => decide (dgid < 16384)
  | .twSchedLoad c => cmdWf c
  | .twSchedSwap c => cmdWf c
  | .twModeSetScheduled c => cmdWf c
  | .twModeSetUnscheduled c => cmdWf c
  | .twQuery c => cmdWf c
  | .cycleBoundary port => decide (port < 4)
  | .slotStart port => decide (port < 4)
  | .calendarFire tile => decide (tile < 4)
  | .krmConnCreate c => cmdWf c
  | .krmConnSetPeer c => cmdWf c
  | .krmConnDestroy c => cmdWf c
  | .connDestroyComplete cid => decide (cid < 1048576)
  | .krmConnQuery c => cmdWf c
  | .connTransition cid => decide (cid < 1048576)
  | .krmWindowOpen c => cmdWf c
  | .krmWindowModify c => cmdWf c
  | .krmWindowRevoke c => cmdWf c
  | .windowChangeEffect index => decide (index < 4194304)
  | .krmConfig c => cmdWf c
  | .blkVolumeCreate c => cmdWf c
  | .blkVolumeDestroy c => cmdWf c
  | .blkVolumeQuery c => cmdWf c
  | .blkQueueReset c => cmdWf c
  | .blkResetAbandon qid => decide (qid < 65536)
  | .blkQueueResetComplete qid => decide (qid < 65536)
  | .blkSelftestStart c => cmdWf c
  | .blkSelftestAbort c => cmdWf c
  | .blkSelftestQuery c => cmdWf c
  | .selftestRequest vid member => decide (vid < 16384) && decide (member < 4)
  | .cyChannelCreate c => cmdWf c
  | .cyChannelDestroy c => cmdWf c
  | .cySliceTableSet c => cmdWf c
  | .sliceTableEffect tile => decide (tile < 4)
  | .cyQuery c => cmdWf c
  | .fwInfo c => cmdWf c
  | .fwWrite c => cmdWf c
  | .fwVerify c => cmdWf c
  | .fwActivate c => cmdWf c
  | .handoverReady => true
  | .handoverStateTimeout => true
  | .handoverComplete _ => true
  | .activateTimeout => true
  | .fwHealthConfirm c => cmdWf c
  | .trialDeadline => true
  | .fwAbort c => cmdWf c
  | .secLifecycleSet c => cmdWf c
  | .lifecycleReset straps => strapsWf straps
  | .secDebugChallenge c => cmdWf c
  | .secDebugResponse c => cmdWf c
  | .debugLevelEffect => true
  | .secDebugClose c => cmdWf c
  | .debugSessionExpire => true
  | .jtagKzauth opcode c => decide (opcode < 65536) && cmdWf c
  | .secAttest c => cmdWf c
  | .secMeasureRead c => cmdWf c
  | .secKeyInstall c => cmdWf c
  | .rekeyGraceExpire cid => decide (cid < 1048576)
  | .pwTilePark c => cmdWf c
  | .parkPoint => true
  | .parkDrainLimit => true
  | .tilePowerOff => true
  | .pwTileUnpark c => cmdWf c
  | .unparkPoint => true
  | .pwCapSet c => cmdWf c
  | .pwStateSetStandby c => cmdWf c
  | .pwStateSetRun c => cmdWf c
  | .pwQuery c => cmdWf c
  | .timeQuery c => cmdWf c
  | .timeCfgSet c => cmdWf c
  | .timeAsymSet c => cmdWf c
  | .timeSet c => cmdWf c
  | .ctRead c => cmdWf c
  | .ctDumpSet c => cmdWf c
  | .ctDumpCancel c => cmdWf c
  | .ctSlicePerm c => cmdWf c
  | .ctSampleSetCore c => cmdWf c
  | .ctSampleSetPacket c => cmdWf c
  | .sampleSetEffect tile => decide (tile < 4)
  | .diagEcho c => cmdWf c
  | .diagPinFault c => cmdWf c
  | .diagLogRead c => cmdWf c
  | .diagDramCal c => cmdWf c
  | .diagScrubSet c => cmdWf c
  | .diagErrInject c => cmdWf c
  | .mctpRequest tag m => decide (m.kind < 128 ∧ tag < 8)
  | .buckramRequest _ => true
  | .doorbellWork w => barWf w
  | .doorbellInv w => barWf w
  | .doorbellCq w => barWf w
  | .doorbellArm w => barWf w
  | .entryFetchDone _ _ => true
  | .entryFetchFail _ _ => true
  | .entryHeadCheck qid => decide (qid < 65536)
  | .nop qid => decide (qid < 65536)
  | .pktTxSend qid => decide (qid < 65536)
  | .pktRxPost qid => decide (qid < 65536)
  | .pktRxDeliver qid => decide (qid < 65536)
  | .krmWrite qid => decide (qid < 65536)
  | .krmRead qid => decide (qid < 65536)
  | .krmSend qid => decide (qid < 65536)
  | .krmRqPost qid => decide (qid < 65536)
  | .blkRead qid => decide (qid < 65536)
  | .blkWrite qid => decide (qid < 65536)
  | .blkFlush qid => decide (qid < 65536)
  | .blkTrim qid => decide (qid < 65536)
  | .blkPieceIssue _ => true
  | .blkRespReceive cid => decide (cid < 1048576)
  | .cryEncrypt qid => decide (qid < 65536)
  | .cryDecrypt qid => decide (qid < 65536)
  | .cryDigest qid => decide (qid < 65536)
  | .engineSlice tile lane => decide (tile < 4) && decide (lane < 32)
  | .cyKeyStore256 fn page _ => fnWf fn && decide (page < 16384)
  | .cyKeyStore512 fn page _ => fnWf fn && decide (page < 16384)
  | .cyKeyClear fn page _ => fnWf fn && decide (page < 16384)
  | .cyKeyDataWrite fn page word _ => fnWf fn && decide (page < 16384) && decide (word < 8)
  | .cyJobDb fn page _ => fnWf fn && decide (page < 16384)
  | .dmaCopy qid => decide (qid < 65536)
  | .dmaFill qid => decide (qid < 65536)
  | .dmaBeatComplete tile chan _ => decide (tile < 4) && decide (chan < 256)
  | .dmaBeatFail tile chan _ _ => decide (tile < 4) && decide (chan < 256)
  | .dmaBeatRetry tile chan _ => decide (tile < 4) && decide (chan < 256)
  | .completionWrite cq => decide (cq < 65536)
  | .writebackBlock qid => decide (qid < 65536)
  | .frameReceive port _ _ => decide (port < 32)
  | .steerHoldExpired _ => true
  | .steeringUpdate => true
  | .frameClassify _ => true
  | .policerDecide _ => true
  | .tableLookup _ => true
  | .learnInsert table part => decide (table < 16) && decide (part < 4)
  | .twillAdmit _ => true
  | .sourceQueueAdvance qid => decide (qid < 65536)
  | .frameTransmitStart port => decide (port < 32)
  | .spDisp tile => decide (tile < 4)
  | .portModePoint port => decide (port < 4)
  | .portTrained port _ _ => decide (port < 32)
  | .networkLinkDown port => decide (port < 32)
  | .krmPacketReceive _ => true
  | .krmStateFetched cid => decide (cid < 1048576)
  | .krmWriteAccepted cid _ => decide (cid < 1048576)
  | .krmReadResponse cid _ _ => decide (cid < 1048576)
  | .krmPacketSend cid => decide (cid < 1048576)
  | .krmAckTimer cid => decide (cid < 1048576)
  | .krmRetransmitTimeout cid => decide (cid < 1048576)
  | .krmRnrRetry cid => decide (cid < 1048576)
  | .hostReadCompletion _ _ => true
  | .completionTimeout _ => true
  | .msixSend fn vector => fnWf fn && decide (vector < 2048)
  | .eventRecordWrite fn => fnWf fn
  | .eventMctpSend => true
  | .dumpLatch dump => decide (dump < 4096)
  | .dumpRecordWrite dump => decide (dump < 4096)
  | .rv64Instruction tid => decide (tid < 1024)
  | .chWrf tid _ _ _ => decide (tid < 1024)
  | .chWr tid _ _ => decide (tid < 1024)
  | .chRecv tid _ _ => decide (tid < 1024)
  | .chTry tid _ _ => decide (tid < 1024)
  | .chGet tid _ _ => decide (tid < 1024)
  | .chAbort tid _ => decide (tid < 1024)
  | .chStat tid _ _ => decide (tid < 1024)
  | .chCfg tid _ _ _ => decide (tid < 1024)
  | .evWait tid _ _ => decide (tid < 1024)
  | .evClr tid _ _ => decide (tid < 1024)
  | .evRead tid _ => decide (tid < 1024)
  | .evPost tid _ _ _ => decide (tid < 1024)
  | .thCtlQuery tid _ _ _ => decide (tid < 1024)
  | .thCtlStop tid _ _ _ => decide (tid < 1024)
  | .thCtlResume tid _ _ _ => decide (tid < 1024)
  | .thCtlKill tid _ _ _ => decide (tid < 1024)
  | .thCtlStart tid _ _ _ => decide (tid < 1024)
  | .thCtlDiscard tid _ _ _ => decide (tid < 1024)
  | .thCtlSetpri tid _ _ _ => decide (tid < 1024)
  | .thCtlFpc tid _ _ _ => decide (tid < 1024)
  | .thCtlFval tid _ _ _ => decide (tid < 1024)
  | .deadlockDetect core => decide (core < 128)
  | .watchdogExpire core => decide (core < 128)
  | .debugStop tid => decide (tid < 1024)
  | .debugResume tid => decide (tid < 1024)
  | .debugStep tid => decide (tid < 1024)
  | .debugDiscard tid => decide (tid < 1024)
  | .debugKill tid => decide (tid < 1024)
  | .debugRegAccess tid access => decide (tid < 1024) && debugWf access
  | .cmdEnSet fn => fnWf fn
  | .cmdEnClear fn => fnWf fn
  | .registerWrite access => accessWf access
  | .flr fn => fnWf fn
  | .flrComplete fn => fnWf fn
  | .bmeClear fn => fnWf fn
  | .bmeSet fn => fnWf fn
  | .d3hotEnter fn => fnWf fn
  | .d3hotExit fn => fnWf fn
  | .vfEnableChange fn _ _ => fnWf fn
  | .hotReset port sub => decide (port < 2) && decide (sub < 4)
  | .perstAssert port => decide (port < 2)
  | .perstDeassert port => decide (port < 2)
  | .profileRecoveryTimeout port => decide (port < 2)
  | .l1Entry port sub _ => decide (port < 2) && decide (sub < 4)
  | .l0pNarrow port sub _ _ => decide (port < 2) && decide (sub < 4)
  | .l0pWiden port sub _ _ => decide (port < 2) && decide (sub < 4)
  | .flitRetransmit link _ => decide (link < 12)
  | .refresh channel rank => decide (channel < 12) && decide (rank < 16)
  | .forcedRefresh channel rank => decide (channel < 12) && decide (rank < 16)
  | .calWindow channel _ _ _ => decide (channel < 12)
  | .scrubPass channel => decide (channel < 12)
  | .scrubRead channel rank sub errors => decide (channel < 12) && decide (rank < 16) && decide (sub < 2) && decide (errors.length = 80)
  | .ceWriteback channel => decide (channel < 12)
  | .sidebandFault channel => decide (channel < 12)
  | .dramTrained found => decide (found.length = 12)
  | .powerWindow _ => true
  | .thermThrottle die _ => decide (die < 8)
  | .thermStep die _ => decide (die < 8)
  | .thermCrit die _ => decide (die < 8)
  | .thermalTrip die _ => decide (die < 8)
  | .tileIdle tile => decide (tile < 4)
  | .tileWake tile => decide (tile < 4)
  | .auxEnter => true
  | .auxExit => true
  | .powerOff => true
  | .sysReset => true
  | .romBoot straps media => strapsWf straps && media.all mediumWf
  | .bootSourceProbeTimeout source => decide (source < 2)
  | .strapTest stuck => decide (stuck < 128)
  | .buckramBoot media => media.all mediumWf
  | .pushTimeout => true
  | .sysclkLost => true
  | .sysclkReturn => true
  | .hrefclkLost port => decide (port < 2)
  | .openDrainFault bit => decide (bit < 64)
  | .ftClkInReturn => true
  | .hrefclkReturn port => decide (port < 2)
  | .linkTrainingEnd port sub _ _ _ => decide (port < 2) && decide (sub < 4)
  | .thermForcingEnd die _ => decide (die < 8)
  | .heldResetRelease _ straps => strapsWf straps
  | .sampleRecordLatch => true
  | .tlpError port sub fn _ => decide (port < 2) && decide (sub < 4) && fnWf fn
  | .unsupportedRequest fn _ => fnWf fn

end Sys2Proof
end

