-- ==== Sys2Proof/Tests/Slice0.lean ====
section
/-! SUPPORT. Tests: the well-formedness checks refuse ill-formed commands, worked examples of the spec come out as printed, and
concrete states and operands meet the hypotheses of every clause of every statement (clause k of statement X: `test_x_k`, or
conjunct of `witness_x`, in order). -/

open Sys2Proof Sys2Proof.Machine

namespace Sys2Proof.Tests

set_option Elab.async false
set_option linter.unusedVariables false
set_option linter.unusedTactic false
set_option linter.unreachableTactic false

/-! ## Small states and commands -/

/-- PF 0 of host port 0. -/
def pf : FnRef := { port := 0, vf := false, num := 0 }

/-- A command of the management controller: target, parameter bytes by their offset in the header, parameter block. -/
def mc (target : Nat) (ps : List (Nat × Bytes)) (pb : Bytes) : Cmd where
  src := .mctp 0
  flags := if pb.isEmpty then 0 else 2
  tag := 7
  target := BitVec.ofNat 32 target
  pbLen := pb.length
  rsv := 0
  params := ps.foldl (fun b (i, x) => b.take (i - 16) ++ x ++ b.drop (i - 16 + x.length)) (List.replicate 48 0)
  pb := pb
  pbErr := none
  data := []

/-- A management command without parameters. -/
def m0 (target : Nat) : Cmd := mc target [] []

/-- A management command with one parameter. -/
def m1 (target i v : Nat) : Cmd := mc target [(i, toLe 4 v)] []

/-- A module of 16 GiB with one rank of x4 devices. -/
def dimm : ModuleSpd where
  rdimmEcc80 := true
  width := 4
  density := 16
  capacity := 2 ^ 34
  packageRanks := 1
  height := 1

/-- Two such modules. -/
def dimms : ChannelPop where
  slot0 := some dimm
  slot1 := some dimm
  trains := true
  sidebandOk := true

/-- A running device in PRODUCTION: service firmware takes commands, PF 0 masters the bus, training has ended, and logical port 0 is
up. -/
def up : State :=
  let s := State.reset
  let s := s.onBoot fun b => { b with stage := .running }
  let s := s.onCmd fun m => { m with sfReady := true }
  let s := s.onTrust fun t => { t with lc := 3, level := 0 }
  let s := s.onHost fun h => { h with
    ports := [{ perst := false, deassertedAt := some 0, profile := some [⟨true, true, 4, 8, 2⟩], verified := none, recovery := false,
                subLinks := [{ up := true, inL1 := false, trainedWidth := 16, width := 16, remapped := false, dropped := false }] }, HostPort.reset]
    fns := [{ FnSt.reset pf with bme := true, mse := true, msixEnable := true, aspmL1 := true, pasidEnable := true }] }
  let s := s.onDram fun d => { d with
    done := true, channels := List.replicate 12 { ChannelSt.reset with trained := true, pop := some dimms }
    regions := [(0, { base := 2 ^ 32, size := 2 ^ 30, local3 := none, chanBase := 0, enabled := true, owner := .device, used := 0 })] }
  s.onTwill fun w => { w with logical := w.logical.set 0 { LogPort.reset with up := true } }

/-- The clock at an instant. -/
def atFt (t : Nat) (s : State) : State := s.onTime fun x => { x with ft := t, osc := t }

/-- PF 0 with the registers of a command ring of 64 entries. -/
def ringFn : FnSt := { FnSt.reset pf with
  bme := true, mse := true, msixEnable := true, aspmL1 := true, pasidEnable := true
  sqBase := 0x10000, cqBase := 0x20000, wbBase := 0x30000, cmdCfg := 0x66 }
def ring : State := up.onFn pf fun _ => ringFn

/-- A command on the ring with QID 1: target, parameter bytes by their offset in the header, parameter block. -/
def rc (target : Nat) (ps : List (Nat × Bytes)) (pb : Bytes) : Cmd :=
  let c := mc target (if pb.isEmpty then ps else ps ++ [(48, toLe 8 0x50000 ++ toLe 4 pb.length ++ toLe 4 0)]) pb
  { c with src := .ring 1, flags := if pb.isEmpty then 0 else 1 }

/-- A ring command without parameters, and with one. -/
def r0 (target : Nat) : Cmd := rc target [] []
def r1 (target i v : Nat) : Cmd := rc target [(i, toLe 4 v)] []

/-- An empty queue of 64 entries in host memory that runs. -/
def runQ (cls : QClass) (o : Owner) (cq : Nat) : Queue :=
  { newQueue cls 6 0x10000 o 0 0 cq 0x30000 0 false 0 with state := .enabled }

/-- The command ring 1 of an owner, with its CQ 2, that holds one command. -/
def withRing (o : Owner) (code : Nat) (c : Cmd) (s : State) : State :=
  s.onQm fun m => { m with queues := m.queues ++ [
    (1, { runQ .cmdSq o 2 with p := 1, cache := [(0, cmdHeader code c)], command := true }),
    (2, { runQ .cq o 0 with command := true })] }

/-- PF 0 as an owner, and a ring of PF 0. -/
def pfO : Owner := .function pf
def pfRing (code : Nat) (c : Cmd) (s : State) : State := withRing pfO code c s

/-- A slice of PF 0 that is live. -/
def slc : SliceSt := { newSlice pf 3 0 (m0 0) with live := true, createCmd := none }
def withSlice (s : State) : State := s.onHost fun h => { h with slices := [(5, slc)] }

/-- SEC_KEY_INSTALL for a CID. -/
def keyCmd : Cmd := rc 0xFFFFF [] (zeros 48)
/-- The same for volume 9. -/
def volKey : Cmd := rc 9 [(16, [1])] (zeros 48)
/-- A slot that holds a manifest of one block. -/
def heldSlot : State := up.onSlot 3 fun x => { x with held := some (zeros 12 ++ toLe 4 1) }

/-- Some queues. -/
def withQ (l : List (Nat × Queue)) (s : State) : State := s.onQm fun m => { m with queues := m.queues ++ l }

/-- A TX queue of PF 0 on doorbell page 1 with its CQ, the queues 3 and 4. -/
def txQ : Queue := { runQ .pktTx pfO 4 with dbPage := 1 }
def cqQ : Queue := { runQ .cq pfO 0 with dbPage := 1 }
def txUp : State := withQ [(3, txQ), (4, cqQ)] up

/-- A doorbell of PF 0. -/
def bell (value : W64) : BarWrite := { fn := pf, bar := 0, offset := 0x101000, size := 8, value := value }

/-- A locked FTU that takes its time from PTP. -/
def ptp (st : FtState) : State := (atFt 1024 up).onFtu fun f => { f with srcCfg := 1, state := st }

/-- QUEUE_CREATE of a TX queue of 64 entries with CQ 4. -/
def newTx : Cmd := rc 7 [(16, [0x60, 0]), (20, toLe 2 1), (22, toLe 2 4), (32, toLe 8 0x40000), (40, toLe 8 0x60000)] []

/-- A slice command of the ring of PF 0 with slice 5. -/
def slUp (code : Nat) (c : Cmd) : State := pfRing code c (withSlice up)

/-- A forwarding table of MAC addresses with the identifier 3, empty, and the TBL_INSERT block of an entry for port 31. -/
def tbl : Table := Table.fresh 12 1 0 true 1 (2 ^ 33)
def tblUp : State := up.onTables fun l => l.set 3 tbl
def macKey : Bytes := [byte 0, byte 9] ++ List.replicate 6 0xAA ++ zeros 12
def tblBlock : Bytes := macKey ++ toLe 2 1 ++ [byte 31, byte 0] ++ toLe 8 (2 ^ 60 + 31)
def entry (static : Bool) (hit : Bool) : TblEntry where
  key := macKey
  hit := hit
  isStatic := static
  learned := true
  port := 31
  portValid := true
  action := 2 ^ 60 + 31

/-- Rule bank 0 of 16 rules under the identifier 4, and a rule. -/
def bank : Bank := { table := 4, level := 0, size := 16, rules := [] }
def bankUp : State := up.onDamask fun d => { d with banks := [(0, bank)] }
def ruleBlock : Bytes := toLe 4 15 ++ zeros 4 ++ toLe 8 0 ++ zeros 128

/-- The region of a table of 4,096 entries as service firmware asks for it. -/
def tblLay : Nat × Region :=
  (up.layRegion none .device 132096).getD (0, { base := 0, size := 0, local3 := none, chanBase := 0, enabled := true, owner := .device, used := 0 })

/-- A 64-byte frame of Ethertype 0x0800, and as port 0 receives it. -/
def frm : Bytes := List.replicate 12 0x22 ++ [byte 8, byte 0] ++ zeros 50
def rxf (st : Stage) : RxFrame := up.newRx 0 frm 1 7 st
def rxUp (f : RxFrame) : State := up.onTwill fun w => { w with frames := [(6, f)] }

/-- A parse result without a rule. -/
def prs (table : Nat) : Parse where
  reason := 0
  depth := 1
  l3Ok := false
  l4Ok := false
  cls := 0
  colour := 0
  verdict := 0
  qid := none
  policer := some 2
  table := table
  krm := false
  ptpEvent := false
  strip := false
  result := zeros 64

/-- A frame in a Twill queue of tile 0, for port 0 with TC 0. -/
def twf (d : Dest) : TwFrame where
  bytes := frm
  colour := 0
  admitFt := 0
  op := none
  rx := none
  copy := none
  launch := none
  dest := d
def twUp (k : TwKey) (d : Dest) (s : State) : State := s.onTwill fun w => { w with queues := [{ TwQueue.fresh 0 k with frames := [twf d] }] }

/-- A complete schedule of one slot of 65,536 ns, and a port with it as active and shadow table. -/
def sched : Sched := { base := 0, slotLen := 65536, nslots := 1, guardNs := 10, slots := [(0, 0)] }
def port (f : PhysPort → PhysPort) (s : State) : State := s.onPhys 0 fun x => f { x with active := some sched, shadow := some sched }

/-- A work entry: opcode, cookie 9, one fragment of host memory at 0x70000 unless its length is 0, other fields by their offset. -/
def wEntry (op len : Nat) (fs : List (Nat × Bytes)) : Bytes :=
  let e : Bytes := [byte op, 0, byte (if len = 0 then 0 else 1), 0] ++ toLe 4 9 ++ zeros 40 ++ toLe 8 (if len = 0 then 0 else 0x70000)
    ++ toLe 4 len ++ zeros 4
  fs.foldl (fun b (i, x) => b.take i ++ x ++ b.drop (i + x.length)) e

/-- Queue 3 of PF 0 with CQ 4, and that entry at its head, checked. -/
def headUp (cls : QClass) (e : Bytes) (s : State) : State :=
  withQ [(3, { runQ cls pfO 4 with dbPage := 1, p := 1, cache := [(0, e)], headOk := true }), (4, cqQ)] s

/-- A posted buffer of 64 bytes, and a frame that waits for it. -/
def rxQUp (f : RxFrame) : State :=
  let s := (headUp .pktRx (wEntry 2 64 []) up).newOp 3 (wEntry 2 64 []) [{ addr := 0x70000, len := 64, dev := false }]
  s.1.onTwill fun w => { w with queues := [{ TwQueue.fresh 0 (.source 3) with frames := [{ twf (.port 0 7) with rx := some f }] }] }

/-- KRM_CONN_CREATE of connection 5 without a key, with its peer 6, and the connection it makes. -/
def newConnC (fl : Nat) : Cmd := rc 5 [(16, toLe 4 6), (20, [byte fl])] (zeros 64)
def conn0 : Conn := { newConn (newConnC 1) pfO 0 0 0 with next := [], createCmd := none }
def krmRegion (s : State) : State := s.onDram fun d => { d with
  regions := d.regions ++ [(connRegion, { base := 2 ^ 36, size := 2 ^ 29, local3 := none, chanBase := 0, enabled := true, owner := .device, used := 0 })] }
def connUp (c : Conn) (s : State) : State := s.onKrm fun k => { k with conns := [(5, c)], cached := [5] }

/-- A window of PF 0. -/
def win : Window := { Window.unused pfO with base := 0x90000, wlen := 4096, perm := 3, gen := 2, state := .open }
def winUp (w : Window) (s : State) : State := s.onKrm fun k => { k with windows := [(7, w)] }

/-- Connection 5, OPEN, that sends to itself, and its packet: a WRITE of 8 bytes to window 7. -/
def connO : Conn := { conn0 with state := .open, cwnd := 65536, sndNext := 9, at' := 8 }
def krmHead (opc psn : Nat) : Bytes := krmHeader false opc 3 (5 * 4096) psn (7 * 1024 + 2) 0 8 1
def krmFrm : Bytes := up.krmFrame { connO with params := connO.params.set 10 0xB6 |>.set 11 0x12 } (krmHead 1 9 ++ zeros 8) 0
/-- Connection 5 with AEAD, and a sealed packet for it. -/
def connK : Conn := { connO with params := connO.params.set 4 4, block := connO.block.set 44 0xB6 |>.set 45 0x12 }
def krmFrmK : Bytes := up.krmFrame { connO with params := connO.params.set 10 0xB6 |>.set 11 0x12 }
  (krmHeader true 1 3 (5 * 4096) 9 (7 * 1024 + 2) 0 8 1 ++ zeros 32) 0
def krmRx (b : Bytes) : RxFrame := { up.newRx 0 b 1 7 .krm with parse := some { prs 3 with l4Ok := true } }
def krmRxUp (b : Bytes) (s : State) : State := s.onTwill fun w => { w with frames := [(6, krmRx b)] }

/-- A packet that has been sent with PSN 9. -/
def sentPkt : SentPkt where
  psn := 9
  op := none
  piece := none
  opc := 1
  pfl := 3
  w := 7170
  offset := 0
  len := 8
  x := 1
  body := zeros 8
  wire := 114
  firstFt := 0
  lastFt := 0
  retx := false
  rnr := 0
  rnrAt := none
  resend := false
  lost := false
/-- A PRODUCTION entry of a KRM_SQ queue for connection 5. -/
def krmEntry (op : Nat) : Bytes := wEntry op 64 [(8, toLe 4 5), (16, toLe 4 7170)]

/-- BLK_VOLUME_CREATE of volume 9 with 64 blocks in RAM, and on a member over connection 5. -/
def ramC (fl : Nat) : Cmd := rc 9 [(16, [byte fl, 0]), (24, toLe 8 64)] []
def volC (fl : Nat) : Cmd := rc 9 [(16, [byte fl, 0]), (24, toLe 8 64)] (toLe 4 5 ++ toLe 4 1 ++ toLe 8 0)
def connB : Conn := { connO with params := connO.params.set 4 3 |>.set 8 0xFF |>.set 9 0xFF }
def blkUp : State := connUp connB up
def vol : Volume := newVolume (volC 0) pfO none 0
def ram (span : Nat) : Volume := newVolume (ramC (8 + span)) pfO (some 0) 0
def volUp (v : Volume) (s : State) : State := s.onBlk fun b => { b with volumes := [(9, v)] }
def blkEntry (op : Nat) (fs : List (Nat × Bytes)) : Bytes :=
  wEntry op (if op ≤ 2 then 4096 else 0) ([(12, toLe 2 9), (24, toLe 4 (if op = 3 then 0 else 8))] ++ fs)
/-- A started READ of queue 3 with its piece. -/
def pieceUp (v : Volume) (s : State) : State :=
  let s := (headUp .blkSq (blkEntry 1 []) (volUp v s)).newOp 3 (blkEntry 1 []) [{ addr := 0x70000, len := 4096, dev := false }]
  s.1.onBlk fun b => { b with pieces := [(2, newPiece s.2 9 0 1 0 8 0 0)] }

/-- A RAM volume too large for the device. -/
def ramBig : Cmd := rc 9 [(16, [8, 0]), (24, toLe 8 (2 ^ 40))] []
/-- The response area of tile 0, and a response with request tag 3. -/
def respUp (s : State) : State := s.onDram fun d => { d with
  regions := d.regions.set (respRegion 0) { base := 2 ^ 36, size := 2 ^ 27, local3 := none, chanBase := 0, enabled := true, owner := .device, used := 0 } }
def blkMsg (n : Nat) : BlkMsg := { head := [1, 0x81, 9, 0, 0, 0, 0, 3] ++ zeros 24 ++ toBe 4 n ++ zeros 28, len := 64 + n }

/-- CY_CHANNEL_CREATE of channel 16 on tile 0 for queue 3, page 100, every algorithm, and the channel it makes. -/
def cyC : Cmd := rc 16 [(18, toLe 2 100), (20, toLe 2 3), (22, [15])] []
def cyq : CyChan := { newCyChan cyC pfO (.fn pf) with slots := List.replicate 8 (zeros 32), valid := 2, staging := List.replicate 8 7 }
def cyUp (x : CyChan) (s : State) : State := s.onCy fun y => { y with chans := [(16, x)] }
def cryEntry (op alg : Nat) : Bytes := wEntry op 64 [(8, [byte alg, 1]), (12, toLe 4 32), (32, toLe 8 0x80000 ++ toLe 4 4096)]
def inlKey : InlineKey := { key := zeros 32, salt := zeros 4, previous := some (zeros 32, zeros 4), graceEnd := 1024, next := none }

/-- A job of queue 3 whose engine slices have ended, and the state that holds it. -/
def job : Job := { op := 0, key := zeros 32, total := 64, done := 64, perSlice := 512, lastRow := 1, written := 0 }
def jobUp (op alg : Nat) : State :=
  let s := ((headUp .cryJq (cryEntry op alg) (cyUp cyq up)).newOp 3 (cryEntry op alg) [{ addr := 0x70000, len := 64, dev := false }]).1
  let s := (s.onTime fun t => { t with osc := 64 }).onOp up.qm.nextOp fun o => { o with got := [(0, zeros 64)] }
  s.onChanCy 16 fun x => { x with active := [{ job with op := up.qm.nextOp }] }
/-- An operation of queue 3 whose 64 source bytes are there. -/
def jobO (e : Bytes) : Op where
  qid := 3
  idx := 0
  tile := 0
  entry := e
  frags := [{ addr := 0x70000, len := 64, dev := false }]
  got := [(0, zeros 64)]
  reading := 0
  failAt := none
  startFt := 0
  dest := .none
  admitted := true
  status := none
  bytes := 0
  ending := false

/-- A DMA entry: 8 bytes in one line on each side from and to host memory, with further fields. -/
def dmaE (op len : Nat) (fs : List (Nat × Bytes)) : Bytes :=
  let e : Bytes := byte op :: zeros 3 ++ toLe 4 9 ++ zeros 8 ++ toLe 8 0x9003C ++ toLe 8 0 ++ toLe 4 (if op = 1 then len else 0)
    ++ toLe 4 (if op = 1 then 1 else 0) ++ toLe 8 0xA0030 ++ toLe 8 0 ++ toLe 4 len ++ toLe 4 1
  fs.foldl (fun b (i, x) => b.take i ++ x ++ b.drop (i + x.length)) e
/-- The channel of queue 3, and that channel with an entry whose beats are issued. -/
def dmc : DmaChan where
  qid := 3
  op := none
  lastStatus := 0
  paced := false
  errDst := false
  halt := false
  err := false
  errAddr := 0
  retries := 0
  nextK := 0
  count := 0
  beats := []
  doneBytes := 0
  failing := none
def dmaUp (e : Bytes) : State := (headUp .dmaCh e (up.onDram fun d => { d with regions := d.regions.map fun (k, r) => (k, { r with used := 4096 }) })).onDma fun _ => [(0, dmc)]
def beat (k len tries : Nat) (data : Option Bytes) (r : Option Nat) : Beat := { k := k, len := len, data := data, tries := tries, retryAt := r }
def dmaRun (e : Bytes) : State :=
  let r := (dmaUp e).newOp 3 e []
  r.1.onDmaChan 0 fun x => { x with
    op := some r.2, nextK := 2, count := 2, beats := [beat 0 4 0 none none, beat 4 64 0 none none] }
/-- The same with a beat that waits for its retry, or with its data. -/
def beatUp (e : Bytes) (t : Nat) (y : Beat) : State := (atFt t (dmaRun e)).onBeat 0 y.k fun _ => y
/-- Bus mastering of PF 0 disabled. -/
def bmeOff (s : State) : State := s.onFn pf fun f => { f with bme := false }

/-- Threads 8 to 10 of core 1, thread 8 in RUN with an instruction at its pc, its registers by number, and some channels. -/
def th (f : Thread → Thread) (regs : List (Nat × Nat)) (tid : Nat) : Thread :=
  regs.foldl (fun t (k, v) => t.setReg k v) (f { Thread.fresh tid with state := .run, pc := 2 ^ 33 })
def chn : Chan := { Chan.slowPath 6 7 with prod := 0 }
def coreUp (w : Nat) (regs : List (Nat × Nat)) (f g : Thread → Thread) (chans : Tab Chan) : State :=
  let s := up.onDram fun d => { d with
    regions := [(0, { base := 2 ^ 33, size := 49152, local3 := none, chanBase := 0, enabled := true, owner := .code, used := 4096 })] }
  (s.pokeBytes (2 ^ 33) (toLe 4 w)).onCores fun c => { c with
    threads := [(8, th f regs 8), (9, g (th id [] 9)), (10, Thread.fresh 10)], cores := [(1, CoreSt.fresh)], chans := chans }

/-! ## Well-formedness -/

/-- A write, straps and a medium that are well formed, and ill-formed operands of each kind. -/
def okW : BarWrite := { fn := pf, bar := 0, offset := 0, size := 8, value := 0 }
def okS : Straps := { bootSel := 0, hp0Bif := 0, hp1Bif := 0 }
def badC : Cmd := { m0 0 with params := zeros 47 }
def badF : FnRef := { port := 2, vf := false, num := 0 }
def badW : BarWrite := { okW with fn := badF }
def badS : Straps := { okS with bootSel := 8 }
def badM : Medium := { source := 2, present := true, readOk := true, blocks := some [] }

/-- Each check of the operands' own shapes refuses a term. -/
theorem test_operandChecks :
    (cmdWf { m0 0 with pbLen := 65536 } || cmdWf { m0 0 with pb := zeros 65537 } || cmdWf { m0 0 with src := .ring 65536 }
      || cmdWf { m0 0 with src := .mctp 8 } || cmdWf badC || fnWf badF || fnWf { pf with num := 8 } || fnWf ⟨0, true, 1024⟩
      || barWf badW || barWf { okW with offset := 0x1000000 } || barWf { okW with bar := 2, offset := 0x4000000 } || barWf { okW with bar := 4 }
      || strapsWf badS || strapsWf { okS with hp0Bif := 4 } || strapsWf { okS with hp1Bif := 4 } || mediumWf badM
      || mediumWf { badM with source := 1, blocks := some [(0, 0, zeros 3)] } || mediumWf { badM with source := 1, blocks := some [(3, 0, zeros 65536)] } || debugWf (.readReg 38) || debugWf (.writeReg 38 0)
      || accessWf (.config badF .mse 0) || accessWf (.config pf .mse 65536) || accessWf (.config pf .corMask (2 ^ 32)) || accessWf (.control badF 0 4 0)
      || accessWf (.control pf 0x1000 4 0) || accessWf (.msix badF 0 0) || accessWf (.msix pf 0x10000 0) || accessWf (.cipher badF 0 0 4 0)
      || accessWf (.cipher pf 16384 0 4 0) || accessWf (.cipher pf 0 0x1000 4 0) || accessWf (.device 8 0 4 0)
      || accessWf (.device 0 0x10000000 4 0)) = false := by decide +kernel
/-- Each check of a row refuses an ill-formed command (1). -/
theorem test_illFormed_1 : ([
    .ftNowRead 8 true, .ftDistribute [], .devIdentify badC, .devHealth badC, .devPortMode badC, .devPortQuery badC,
      .devReset badC, .deviceResetBegin badS, .queueCreate badC, .queueEnable badC, .queueDisable badC, .queueIdle 65536,
      .queueDestroy badC, .queueQuery badC, .queueMove badC, .homeMove 65536, .fnQuery badC, .sliceCreate badC,
      .sliceBindingEffect 16384, .sliceQuiesce badC, .sliceReset badC, .sliceResetComplete 16384, .sliceDestroy badC,
      .vfQuiesce badC, .spoofSet badC, .spoofSetEffect 16384, .spoofQuery badC, .tblCreate badC, .tblSearch badC,
      .tblNext badC, .iterationTimeout 16, .tblInsert badC, .tblDelete badC, .tblFlushByPort badC, .tblAgingSet badC,
      .agingPassStart 16, .agingVisit 16 0 0, .agingVisit 0 4 0, .twShaperSet badC, .shaperRefill 65536, .twPolicerSet badC,
      .policerSetApply 65536, .twDgSet badC, .dgSetApply 16384, .twSchedLoad badC] : List Instr).all (fun i => !i.wf) = true := by decide +kernel
/-- Each check of a row refuses an ill-formed command (2). -/
theorem test_illFormed_2 : ([
    .twSchedSwap badC, .twModeSetScheduled badC, .twModeSetUnscheduled badC, .twQuery badC, .cycleBoundary 4, .slotStart 4,
      .calendarFire 4, .krmConnCreate badC, .krmConnSetPeer badC, .krmConnDestroy badC, .connDestroyComplete 1048576,
      .krmConnQuery badC, .connTransition 1048576, .krmWindowOpen badC, .krmWindowModify badC, .krmWindowRevoke badC,
      .windowChangeEffect 4194304, .krmConfig badC, .blkVolumeCreate badC, .blkVolumeDestroy badC, .blkVolumeQuery badC,
      .blkQueueReset badC, .blkResetAbandon 65536, .blkQueueResetComplete 65536, .blkSelftestStart badC,
      .blkSelftestAbort badC, .blkSelftestQuery badC, .selftestRequest 16384 0, .selftestRequest 0 4, .cyChannelCreate badC,
      .cyChannelDestroy badC, .cySliceTableSet badC, .sliceTableEffect 4, .cyQuery badC, .fwInfo badC, .fwWrite badC,
      .fwVerify badC, .fwActivate badC, .fwHealthConfirm badC, .fwAbort badC, .secLifecycleSet badC, .lifecycleReset badS,
      .secDebugChallenge badC, .secDebugResponse badC, .secDebugClose badC] : List Instr).all (fun i => !i.wf) = true := by decide +kernel
/-- Each check of a row refuses an ill-formed command (3). -/
theorem test_illFormed_3 : ([
    .jtagKzauth 65536 (m0 0), .jtagKzauth 0 badC, .secAttest badC, .secMeasureRead badC, .secKeyInstall badC,
      .rekeyGraceExpire 1048576, .pwTilePark badC, .pwTileUnpark badC, .pwCapSet badC, .pwStateSetStandby badC,
      .pwStateSetRun badC, .pwQuery badC, .timeQuery badC, .timeCfgSet badC, .timeAsymSet badC, .timeSet badC, .ctRead badC,
      .ctDumpSet badC, .ctDumpCancel badC, .ctSlicePerm badC, .ctSampleSetCore badC, .ctSampleSetPacket badC,
      .sampleSetEffect 4, .diagEcho badC, .diagPinFault badC, .diagLogRead badC, .diagDramCal badC, .diagScrubSet badC,
      .diagErrInject badC, .doorbellWork badW, .doorbellInv badW, .doorbellCq badW, .doorbellArm badW,
      .entryHeadCheck 65536, .nop 65536, .pktTxSend 65536, .pktRxPost 65536, .pktRxDeliver 65536, .krmWrite 65536,
      .krmRead 65536, .krmSend 65536, .krmRqPost 65536, .blkRead 65536, .blkWrite 65536, .blkFlush 65536] : List Instr).all (fun i => !i.wf) = true := by decide +kernel
/-- Each check of a row refuses an ill-formed command (4). -/
theorem test_illFormed_4 : ([
    .mctpRequest 8 { kind := 0x7F, bytes := [] }, .mctpRequest 0 { kind := 128, bytes := [] }, .blkTrim 65536, .blkRespReceive 1048576, .cryEncrypt 65536, .cryDecrypt 65536, .cryDigest 65536, .engineSlice 4 0,
      .engineSlice 0 32, .cyKeyStore256 badF 0 0, .cyKeyStore256 pf 16384 0, .cyKeyStore512 badF 0 0,
      .cyKeyStore512 pf 16384 0, .cyKeyClear badF 0 0, .cyKeyClear pf 16384 0, .cyKeyDataWrite badF 0 0 0,
      .cyKeyDataWrite pf 16384 0 0, .cyKeyDataWrite pf 0 8 0, .cyJobDb badF 0 0, .cyJobDb pf 16384 0, .dmaCopy 65536,
      .dmaFill 65536, .dmaBeatComplete 4 0 0, .dmaBeatComplete 0 256 0, .dmaBeatFail 4 0 0 .poisoned,
      .dmaBeatFail 0 256 0 .poisoned, .dmaBeatRetry 4 0 0, .dmaBeatRetry 0 256 0, .completionWrite 65536,
      .writebackBlock 65536, .frameReceive 32 [] true, .learnInsert 16 0, .learnInsert 0 4, .sourceQueueAdvance 65536,
      .frameTransmitStart 32, .spDisp 4, .portModePoint 4, .portTrained 32 true true, .networkLinkDown 32,
      .krmStateFetched 1048576, .krmWriteAccepted 1048576 0, .krmReadResponse 1048576 0 .poisoned, .krmPacketSend 1048576,
      .krmAckTimer 1048576, .krmRetransmitTimeout 1048576, .krmRnrRetry 1048576, .msixSend badF 0] : List Instr).all (fun i => !i.wf) = true := by decide +kernel
/-- Each check of a row refuses an ill-formed command (5). -/
theorem test_illFormed_5 : ([
    .msixSend pf 2048, .eventRecordWrite badF, .dumpLatch 4096, .dumpRecordWrite 4096, .rv64Instruction 1024,
      .chWrf 1024 0 0 0, .chWr 1024 0 0, .chRecv 1024 0 0, .chTry 1024 0 0, .chGet 1024 0 0, .chAbort 1024 0,
      .chStat 1024 0 0, .chCfg 1024 0 0 0, .evWait 1024 0 0, .evClr 1024 0 0, .evRead 1024 0, .evPost 1024 0 0 0,
      .thCtlQuery 1024 0 0 0, .thCtlStop 1024 0 0 0, .thCtlResume 1024 0 0 0, .thCtlKill 1024 0 0 0, .thCtlStart 1024 0 0 0,
      .thCtlDiscard 1024 0 0 0, .thCtlSetpri 1024 0 0 0, .thCtlFpc 1024 0 0 0, .thCtlFval 1024 0 0 0, .deadlockDetect 128,
      .watchdogExpire 128, .debugStop 1024, .debugResume 1024, .debugStep 1024, .debugDiscard 1024, .debugKill 1024,
      .debugRegAccess 1024 .readStaging, .debugRegAccess 0 (.readReg 38), .cmdEnSet badF, .cmdEnClear badF,
      .registerWrite (.msix badF 0 0), .flr badF, .flrComplete badF, .bmeClear badF, .bmeSet badF, .d3hotEnter badF,
      .d3hotExit badF, .vfEnableChange badF true 0] : List Instr).all (fun i => !i.wf) = true := by decide +kernel
/-- Each check of a row refuses an ill-formed command (6). -/
theorem test_illFormed_6 : ([
    .hotReset 2 0, .hotReset 0 4, .perstAssert 2, .perstDeassert 2, .profileRecoveryTimeout 2, .l1Entry 2 0 0,
      .l1Entry 0 4 0, .l0pNarrow 2 0 0 0, .l0pNarrow 0 4 0 0, .l0pWiden 2 0 0 0, .l0pWiden 0 4 0 0, .flitRetransmit 12 true,
      .refresh 12 0, .refresh 0 16, .forcedRefresh 12 0, .forcedRefresh 0 16, .calWindow 12 true true 0, .scrubPass 12,
      .scrubRead 12 0 0 (zeros 80), .scrubRead 0 16 0 (zeros 80), .scrubRead 0 0 2 (zeros 80), .scrubRead 0 0 0 [],
      .ceWriteback 12, .sidebandFault 12, .dramTrained [], .thermThrottle 8 0, .thermStep 8 0, .thermCrit 8 0,
      .thermalTrip 8 0, .tileIdle 4, .tileWake 4, .romBoot badS [], .romBoot okS [badM], .bootSourceProbeTimeout 2,
      .strapTest 128, .buckramBoot [badM], .hrefclkLost 2, .openDrainFault 64, .hrefclkReturn 2,
      .linkTrainingEnd 2 0 0 true true, .linkTrainingEnd 0 4 0 true true, .thermForcingEnd 8 0, .heldResetRelease 0 badS,
      .tlpError 2 0 pf (.linkLevel .badTlp), .tlpError 0 4 pf (.linkLevel .badTlp)] : List Instr).all (fun i => !i.wf) = true := by decide +kernel
/-- Each check of a row refuses an ill-formed command (7). -/
theorem test_illFormed_7 : ([
    .tlpError 0 0 badF (.linkLevel .badTlp), .unsupportedRequest badF .memoryRead] : List Instr).all (fun i => !i.wf) = true := by decide +kernel
/-- The same commands with operands in range are well formed (1). -/
theorem test_wellFormed_1 : ([
    .ftNowRead 0 true, .ftDistribute (List.replicate 8 0), .devIdentify (m0 0), .devHealth (m0 0), .devPortMode (m0 0),
      .devPortQuery (m0 0), .devReset (m0 0), .deviceResetBegin okS, .queueCreate (m0 0), .queueEnable (m0 0),
      .queueDisable (m0 0), .queueIdle 0, .queueDestroy (m0 0), .queueQuery (m0 0), .queueMove (m0 0), .homeMove 0,
      .fnQuery (m0 0), .sliceCreate (m0 0), .sliceBindingEffect 0, .sliceQuiesce (m0 0), .sliceReset (m0 0),
      .sliceResetComplete 0, .sliceDestroy (m0 0), .vfQuiesce (m0 0), .spoofSet (m0 0), .spoofSetEffect 0,
      .spoofQuery (m0 0), .tblCreate (m0 0), .tblSearch (m0 0), .tblNext (m0 0), .iterationTimeout 0, .tblInsert (m0 0),
      .tblDelete (m0 0), .tblFlushByPort (m0 0), .tblAgingSet (m0 0), .agingPassStart 0, .agingVisit 0 0 0,
      .twShaperSet (m0 0), .shaperRefill 0, .twPolicerSet (m0 0), .policerSetApply 0, .twDgSet (m0 0), .dgSetApply 0,
      .twSchedLoad (m0 0), .twSchedSwap (m0 0), .twModeSetScheduled (m0 0), .twModeSetUnscheduled (m0 0), .twQuery (m0 0),
      .cycleBoundary 0, .slotStart 0, .calendarFire 0, .krmConnCreate (m0 0), .krmConnSetPeer (m0 0),
      .krmConnDestroy (m0 0), .connDestroyComplete 0, .krmConnQuery (m0 0), .connTransition 0, .krmWindowOpen (m0 0),
      .krmWindowModify (m0 0), .krmWindowRevoke (m0 0)] : List Instr).all (·.wf) = true := by decide +kernel
/-- The same commands with operands in range are well formed (2). -/
theorem test_wellFormed_2 : ([
    .windowChangeEffect 0, .krmConfig (m0 0), .blkVolumeCreate (m0 0), .blkVolumeDestroy (m0 0), .blkVolumeQuery (m0 0),
      .blkQueueReset (m0 0), .blkResetAbandon 0, .blkQueueResetComplete 0, .blkSelftestStart (m0 0),
      .blkSelftestAbort (m0 0), .blkSelftestQuery (m0 0), .selftestRequest 0 0, .cyChannelCreate (m0 0),
      .cyChannelDestroy (m0 0), .cySliceTableSet (m0 0), .sliceTableEffect 0, .cyQuery (m0 0), .fwInfo (m0 0),
      .fwWrite (m0 0), .fwVerify (m0 0), .fwActivate (m0 0), .fwHealthConfirm (m0 0), .fwAbort (m0 0),
      .secLifecycleSet (m0 0), .lifecycleReset okS, .secDebugChallenge (m0 0), .secDebugResponse (m0 0),
      .secDebugClose (m0 0), .jtagKzauth 0 (m0 0), .secAttest (m0 0), .secMeasureRead (m0 0), .secKeyInstall (m0 0),
      .rekeyGraceExpire 0, .pwTilePark (m0 0), .pwTileUnpark (m0 0), .pwCapSet (m0 0), .pwStateSetStandby (m0 0),
      .pwStateSetRun (m0 0), .pwQuery (m0 0), .timeQuery (m0 0), .timeCfgSet (m0 0), .timeAsymSet (m0 0), .timeSet (m0 0),
      .ctRead (m0 0), .ctDumpSet (m0 0), .ctDumpCancel (m0 0), .ctSlicePerm (m0 0), .ctSampleSetCore (m0 0),
      .ctSampleSetPacket (m0 0), .sampleSetEffect 0, .diagEcho (m0 0), .diagPinFault (m0 0), .diagLogRead (m0 0),
      .diagDramCal (m0 0), .diagScrubSet (m0 0), .diagErrInject (m0 0), .doorbellWork okW, .doorbellInv okW,
      .doorbellCq okW, .doorbellArm okW] : List Instr).all (·.wf) = true := by decide +kernel
/-- The same commands with operands in range are well formed (3). -/
theorem test_wellFormed_3 : ([
    .entryHeadCheck 0, .nop 0, .pktTxSend 0, .pktRxPost 0, .pktRxDeliver 0, .krmWrite 0, .krmRead 0, .krmSend 0,
      .krmRqPost 0, .blkRead 0, .blkWrite 0, .blkFlush 0, .blkTrim 0, .blkRespReceive 0, .cryEncrypt 0, .cryDecrypt 0,
      .cryDigest 0, .engineSlice 0 0, .cyKeyStore256 pf 0 0, .cyKeyStore512 pf 0 0, .cyKeyClear pf 0 0,
      .cyKeyDataWrite pf 0 0 0, .cyJobDb pf 0 0, .dmaCopy 0, .dmaFill 0, .dmaBeatComplete 0 0 0,
      .dmaBeatFail 0 0 0 .poisoned, .dmaBeatRetry 0 0 0, .completionWrite 0, .writebackBlock 0, .frameReceive 0 [] true,
      .learnInsert 0 0, .sourceQueueAdvance 0, .frameTransmitStart 0, .spDisp 0, .portModePoint 0, .portTrained 0 true true,
      .networkLinkDown 0, .krmStateFetched 0, .krmWriteAccepted 0 0, .krmReadResponse 0 0 .poisoned, .krmPacketSend 0,
      .krmAckTimer 0, .krmRetransmitTimeout 0, .krmRnrRetry 0, .msixSend pf 0, .eventRecordWrite pf, .dumpLatch 0,
      .dumpRecordWrite 0, .rv64Instruction 0, .chWrf 0 0 0 0, .chWr 0 0 0, .chRecv 0 0 0, .chTry 0 0 0, .chGet 0 0 0,
      .chAbort 0 0, .chStat 0 0 0, .chCfg 0 0 0 0, .evWait 0 0 0, .evClr 0 0 0] : List Instr).all (·.wf) = true := by decide +kernel
/-- The same commands with operands in range are well formed (4). -/
theorem test_wellFormed_4 : ([
    .evRead 0 0, .evPost 0 0 0 0, .thCtlQuery 0 0 0 0, .thCtlStop 0 0 0 0, .thCtlResume 0 0 0 0, .thCtlKill 0 0 0 0,
      .thCtlStart 0 0 0 0, .thCtlDiscard 0 0 0 0, .thCtlSetpri 0 0 0 0, .thCtlFpc 0 0 0 0, .thCtlFval 0 0 0 0,
      .deadlockDetect 0, .watchdogExpire 0, .debugStop 0, .debugResume 0, .debugStep 0, .debugDiscard 0, .debugKill 0,
      .debugRegAccess 0 .readStaging, .cmdEnSet pf, .cmdEnClear pf, .registerWrite (.msix pf 0 0), .flr pf, .flrComplete pf,
      .bmeClear pf, .bmeSet pf, .d3hotEnter pf, .d3hotExit pf, .vfEnableChange pf true 0, .hotReset 0 0, .perstAssert 0,
      .perstDeassert 0, .profileRecoveryTimeout 0, .l1Entry 0 0 0, .l0pNarrow 0 0 0 0, .l0pWiden 0 0 0 0,
      .flitRetransmit 0 true, .refresh 0 0, .forcedRefresh 0 0, .calWindow 0 true true 0, .scrubPass 0,
      .scrubRead 0 0 0 (zeros 80), .ceWriteback 0, .sidebandFault 0, .dramTrained (List.replicate 12 dimms),
      .thermThrottle 0 0, .thermStep 0 0, .thermCrit 0 0, .thermalTrip 0 0, .tileIdle 0, .tileWake 0, .romBoot okS [],
      .bootSourceProbeTimeout 0, .strapTest 0, .buckramBoot [], .hrefclkLost 0, .openDrainFault 0, .hrefclkReturn 0,
      .linkTrainingEnd 0 0 0 true true, .thermForcingEnd 0 0] : List Instr).all (·.wf) = true := by decide +kernel
/-- The same commands with operands in range are well formed (5). -/
theorem test_wellFormed_5 : ([
    .heldResetRelease 0 okS, .tlpError 0 0 pf (.linkLevel .badTlp), .unsupportedRequest pf .memoryRead] : List Instr).all (·.wf) = true := by decide +kernel

/-! ## Worked examples of the spec, with the results that it prints -/

/-- 01, below R26: A = 0x12345678 with B = 0 and CB = 0 lies on DC9 at 0x1845678, or on DC3 at 0x6117678. -/
theorem test_addressMap : Region.map { base := 0, size := 2 ^ 32, local3 := none, chanBase := 0, enabled := true, owner := .device, used := 0 }
    0x12345678 = (9, 0x1845678) := by decide +kernel
theorem test_addressMapLocal : Region.map { base := 0, size := 2 ^ 32, local3 := some 1, chanBase := 0, enabled := true, owner := .device, used := 0 }
    0x12345678 = (3, 0x6117678) := by decide +kernel

/-- 02, the worked example: an error bound of 19.996 ns is within 20 ns, one of 20.001 ns is not. -/
def heldFtu : FtuSt := { FtuSt.reset with state := .holdover, holdCfg := 0x202, holdOscClk := true, estimate := 6 * 65536 }
theorem test_holdoverBound : (fun (f : FtuSt) => decide (f.bound 2399232 ≤ 20 * boundNs) && decide (20 * boundNs < f.bound 2400256))
    { heldFtu with boundFrom := 0, boundBase := heldFtu.e0 } = true := by decide +kernel

/-- 05, the worked parse: META of the innermost level and of level 1, and the offsets of every level. -/
def ip4 (src dst proto len tos : Nat) : Bytes :=
  let h := [0x45, byte tos] ++ toBe 2 len ++ [0, 0, 0, 0, 64, byte proto, 0, 0] ++ toBe 4 src ++ toBe 4 dst
  splice h 10 (toBe 2 (csumOf h))
def vxlanFrame : Bytes :=
  zeros 12 ++ [0x81, 0] ++ toBe 2 300 ++ [0x88, 0x47] ++ toBe 4 (16004 * 4096 + 64) ++ toBe 4 (3001 * 4096 + 256 + 64)
    ++ ip4 0x0A010001 0x0A020001 47 118 0 ++ [0x20, 0, 8, 0] ++ toBe 4 0x2A01
    ++ ip4 0xAC100509 0xAC100703 17 90 0 ++ toBe 2 51220 ++ toBe 2 4789 ++ toBe 2 70 ++ [0, 0]
    ++ [8, 0, 0, 0] ++ toBe 3 5120 ++ [0] ++ toBe 6 0x020000AA0001 ++ toBe 6 0x020000AA0002 ++ [8, 0]
    ++ ip4 0xC0A82802 0xC0A8284D 6 40 0x68 ++ toBe 2 443 ++ toBe 2 33000 ++ zeros 8 ++ [0x50, 0x18, 0, 0, 0, 0, 0, 0]
def vxlanParse : PState := up.damask.version.parse vxlanFrame 8 192
theorem test_workedParseMeta : (vxlanParse.reason, vxlanParse.depth, vxlanParse.meta 8 3, vxlanParse.meta 8 1) = (0, 3, 0x000513E8, 0x001D27A8) := by
  decide +kernel
theorem test_workedParseOffsets : (List.range 4).map (fun j => (vxlanParse.level j).map fun l => [l.l2, l.l3, l.l4, l.enc])
    = [some [0, 0xFFFF, 0xFFFF, 18], some [0xFFFF, 26, 0xFFFF, 46], some [0xFFFF, 54, 74, 82], some [90, 104, 124, 0xFFFF]] := by decide +kernel
theorem test_workedParseShallow : (up.damask.version.parse vxlanFrame 8 128).reason ≠ 0 := by decide +kernel

/-- 08, below R265: at CWND 67,424 an ACK that covers 8,428 wire bytes gives CWND 67,936, and with ECE 59,444. -/
def connW : Conn := { connO with cwnd := 67424, sndNext := 12, sent := [{ sentPkt with wire := 4214 }, { sentPkt with psn := 10, wire := 4214 }] }
theorem test_congestion : (List.map (fun ece => (((connUp connW up).takeAck 5 connW 10 (zeros 32) ece).conn 5).map (·.cwnd)) [false, true])
    = [some 67936, some 59444] := by decide +kernel

/-- 09, the worked example: the member blocks of W1 (100-139), R2 (120-127), W3 (200-207) and R4 (64-79). -/
def vol77 : Volume := { newVolume (rc 77 [(16, [0x16, 4]), (24, toLe 8 65536)] (zeros 64)) pfO none 0 with members := List.replicate 4 ⟨0, 0, 0⟩ }
theorem test_shares : ((List.range 4).map fun m => (vol77.share m 100 140).map (·.2)) = [some (32, 12), none, some (20, 12), some (16, 16)] := by
  decide +kernel
theorem test_shares2 : (vol77.share 3 120 128, vol77.share 0 200 208, vol77.share 0 64 80)
    = (some (120, 24, 8), some (200, 56, 8), some (64, 16, 16)) := by decide +kernel

/-- 10, the worked example: a GCM DECRYPT of 98,352 source bytes with 32 of AAD counts 98,336 and needs 193 engine slices. -/
theorem test_cipherWork : (fun (e : Bytes) => (cryWork e 98352, ceilDiv (cryWork e 98352) (sliceBytes 1), cryOutLen e 98352)) 
    ([2] ++ zeros 7 ++ [1, 0] ++ toLe 2 32 ++ zeros 52) = (98336, 193, 98304) := by decide +kernel

/-- 11, the worked example: 21 beats, the last of 24 bytes at stream byte 576, and its addresses. -/
def copyEntry : Bytes := [1, 0, 0, 0] ++ zeros 4 ++ [4, 2] ++ zeros 6 ++ toLe 8 0x4001000020 ++ toLe 8 4096 ++ toLe 4 200 ++ toLe 4 3
  ++ toLe 8 0x4002000000 ++ toLe 8 0 ++ toLe 4 600 ++ toLe 4 1
theorem test_beats : (beatCount copyEntry 600 0, beatLen copyEntry 576, dmaSrcAt copyEntry 576, dmaDstAt copyEntry 576)
    = (21, 24, 0x40010020D0, 0x4002000240) := by decide +kernel

/-- 12 R340: CH.RECV x10, x11 encodes as 0x0005A50B. -/
theorem test_recvWord : xkWord xkCh 2 10 11 0 = 0x0005A50B ∧ isXkzch 0x0005A50B = true := by decide

/-- 12, a half-written message: LEN 10 from thread 0x12B is received as 0x012B0900; LEN 8 with 6 words free is NOSPACE. -/
theorem test_recvStatus : recvWord 0x12B (List.replicate 10 0) = 0x012B0900 := by decide
theorem test_noSpace : (coreUp 0 [] id id [(100, { Chan.slowPath 6 15 with msgs := List.replicate 4 (3, List.replicate 12 0), reserved := 10, prod := 0 })]).wrfStatus
    8 (Thread.fresh 8) (7 * 65536 + 100) = some 2 := by decide +kernel

/-- The check value of CRC-32C over "123456789" (05 R157, log 9). -/
theorem test_crc32c : crc32c 0xFFFFFFFF [0x31, 0x32, 0x33, 0x34, 0x35, 0x36, 0x37, 0x38, 0x39] = 0xE3069283 := by decide +kernel

/-- An idle step takes 1 ns of oscillator time (log 1). -/
theorem test_idle : (match step up with
    | .next t => t.time.osc
    | _ => 0) = 1 := by decide +kernel

/-- 19 R514 and R531: NP1 lane 6 lies at L011-040 and L012-040, its RX pair in row 43; at 650 W and a lid at 85 degrees Tj is at most 98. -/
theorem test_npLand : (npLand 1 6 false false, npLand 1 6 false true, npLand 1 6 true false) = (⟨11, 40⟩, ⟨12, 40⟩, ⟨11, 43⟩) := by decide
theorem test_tjBound : tjBound 85000 650000 = 98000 ∧ tjBound 85000 400000 = 93000 := by decide

/-- 19 R528: a swapped pulse input is decided at the falling edge that completes 999,900,000 ns high in a period of 1 s. -/
theorem test_ppsSwapped : (doPpsInFall ((atFt 1300000000 up).onPins fun p => { p with ppsRise := some 300100000, ppsFall := some 300000000 })).pins.ppsSwap
    = some true := by decide +kernel

/-! ## Witnesses of the statements' hypotheses -/

/-- Clauses 1, 2, 3 of HostLinkPowerChanges. -/
theorem witness_hostLinkPowerChanges :
    ((fun (s : State) => (fun (port : Nat) => (fun (sub : Nat) => (fun (idleNs : Nat) => ((s.subUp port sub).any fun (l : SubLink) => decide (((s.fn (s.firstPf port sub)).any fun (x : FnSt) => decide ((s.subUp port sub = some l) ∧
    (s.fn (s.firstPf port sub) = some x) ∧ (x.aspmL1 = true) ∧ (8000 ≤ idleNs) ∧ ((∀ r ∈ s.host.reads, r.2.ref.fn.port = port → s.subLinkOf r.2.ref.fn ≠ sub)))) = true)) = true) (8000))
    (0)) (0)) (up)) ∧
    ((fun (s0 : State) => (fun (port : Nat) => (fun (s : State) => (fun (sub : Nat) => (fun (a : Nat) => (fun (b : Nat) => ((s.subUp port sub).any fun (l : SubLink) => decide ((s.subUp port sub = some l))) = true) (199))
    (199)) (0)) (s0.seenFrom (6 + port))) (0)) (atFt 65536 up)) ∧
    ((fun (s0 : State) => (fun (port : Nat) => (fun (s : State) => (fun (sub : Nat) => (fun (a : Nat) => (fun (b : Nat) => ((s.subUp port sub).any fun (l : SubLink) => decide ((s.subUp port sub = some l))) = true) (0))
    (751)) (0)) (s0.seenFrom (6 + port))) (0)) ((atFt 1024 up).onSub 0 0 fun y => { y with width := 8 })) := by
  refine ⟨?_, ?_, ?_⟩ <;> decide +kernel

/-- Clauses 1, 2, 3, 4 of BusMasteringCommands. -/
theorem witness_busMasteringCommands :
    ((fun (s : State) => (fun (f : FnRef) => (s.configurable f = true) ∧ (s.fatal = false)) (pf))
    (up)) ∧
    ((fun (s : State) => (fun (f : FnRef) => ((s.fn f).any fun (x : FnSt) => decide ((s.configurable f = true) ∧
    (s.fatal = false) ∧ (s.fn f = some x) ∧ (s.mastering f = false))) = true) (pf)) (up.onFn pf fun x => { x with bme := false })) ∧
    ((fun (s : State) => (fun (f : FnRef) => (s.configurable f = true) ∧ (s.fatal = false) ∧ (s.mastering f = true))
    (pf)) (up)) ∧
    ((fun (s : State) => (fun (f : FnRef) => (s.configurable f = true) ∧ (s.fatal = true)) (pf))
    (up.onFatal fun _ => true)) := by
  refine ⟨?_, ?_, ?_, ?_⟩ <;> decide +kernel

/-- Clauses 1, 4, 5 of CommandRingOpensAndCloses. -/
theorem witness_commandRingOpensAndCloses :
    ((fun (s : State) => (fun (f : FnRef) => ((s.fn f).any fun (x : FnSt) => decide ((s.fn f = some x) ∧
    (s.barOpen f = true) ∧ (s.fatal = false) ∧ (x.cmdEn = false) ∧ (s.cmdEnBad f x = true))) = true) (pf))
    (up.onFn pf fun x => { x with sqBase := 1 })) ∧
    ((fun (s : State) => (fun (f : FnRef) => ((s.fn f).any fun (x : FnSt) => decide ((s.fn f = some x) ∧
    (s.barOpen f = true) ∧ (s.fatal = false) ∧ (x.cmdEn = true) ∧ (x.cmdActive = true))) = true) (pf))
    (ring.onFn pf fun x => { x with cmdEn := true, cmdActive := true })) ∧
    ((fun (s : State) => (fun (f : FnRef) => ((s.fn f).any fun (x : FnSt) => decide ((s.fn f = some x) ∧
    (s.barOpen f = true) ∧ (s.fatal = false) ∧ (x.cmdEn = true) ∧ (x.cmdActive = false))) = true) (pf))
    (ring.onFn pf fun x => { x with cmdEn := true })) := by
  refine ⟨?_, ?_, ?_⟩ <;> decide +kernel

/-- Clauses 1, 2, 3, 4, 5, 6, 7, 8, 9, 9 of ResetsOfFunctionsAndPorts. -/
theorem witness_resetsOfFunctionsAndPorts :
    ((fun (s : State) => (fun (f : FnRef) => ((s.fn f).any fun (x : FnSt) => decide ((s.fn f = some x) ∧
    (x.flrAt = none))) = true) (pf)) (up)) ∧
    ((fun (s : State) => (fun (f : FnRef) => ((s.fn f).any fun (x : FnSt) => decide ((s.fn f = some x) ∧
    (x.flrAt ≠ none) ∧ (s.fnPresent f = true) ∧ ((∀ r ∈ s.host.reads, r.2.ref.fn ≠ f)))) = true) (pf))
    (up.onFn pf fun x => { x with flrAt := some 0 })) ∧
    ((fun (s : State) => (fun (f : FnRef) => ((s.fn f).any fun (x : FnSt) => decide ((s.fn f = some x) ∧
    (x.flrAt ≠ none) ∧ (s.fnPresent f = false) ∧ ((∀ r ∈ s.host.reads, r.2.ref.fn ≠ f)))) = true) ({ port := 0, vf := true, num := 7 }))
    (up.onHost fun h => { h with fns := h.fns ++ [{ FnSt.reset { port := 0, vf := true, num := 7 } with flrAt := some 0 }] })) ∧
    ((fun (s : State) => (fun (f : FnRef) => ((s.fn f).any fun (x : FnSt) => decide (((s.pfRecord f.port f.num).any fun (r : PfRecord) => decide ((fun (n : Nat) => (fun (on : Bool) => (fun (gone : List FnRef) => (fun (u : State) => (s.fn f = some x) ∧
    (f.vf = false) ∧ (x.flrAt = none) ∧ (s.pfRecord f.port f.num = some r) ∧ (r.sriov = true) ∧
    (n ≤ s.totalVfs f.port f.num)) (((s.unquiesced fun o => o.fnRef.any gone.contains).flrStop gone).onFn f (fun y => { y with vfEnable := on, numVfs := n })))
    ((s.vfRange f x.vfEnable x.numVfs).filter (fun g => !(s.vfRange f on n).contains g))) (true))
    (4))) = true)) = true) (pf)) (up)) ∧
    ((fun (s : State) => (fun (f : FnRef) => ((s.fn f).any fun (x : FnSt) => decide ((fun (n : Nat) => (fun (on : Bool) => (s.fn f = some x) ∧
    (s.totalVfs f.port f.num < n) ∧ (x.numVfs ≤ s.totalVfs f.port f.num)) (true)) (9))) = true) (pf))
    (up)) ∧
    ((fun (s : State) => (fun (port : Nat) => (fun (sub : Nat) => ((s.hostPort port).perst = false))
    (0)) (0)) (up)) ∧
    ((fun (s : State) => (fun (port : Nat) => ((s.hostPort port).perst = false)) (0)) (up)) ∧
    ((fun (s : State) => (fun (port : Nat) => ((s.hostPort port).perst = true) ∧ (s.power.dev ≠ .aux) ∧
    (s.power.dev ≠ .off) ∧ (s.pins.thermTrip = false) ∧ (s.pins.sysRst = false)) (1)) (up)) ∧
    ((fun (s : State) => (fun (port : Nat) => (fun (t : Nat) => ((s.hostPort port).deassertedAt = some t) ∧
    ((s.hostPort port).profile = none)) (0)) (0)) ((atFt 900000000 up).onHostPort 0 fun p => { p with profile := none })) ∧
    ((fun (s : State) => (fun (port : Nat) => (fun (t : Nat) => ((s.hostPort port).deassertedAt = some t) ∧
    ((s.hostPort port).profile = none)) (0)) (0)) ((atFt 899999999 up).onHostPort 0 fun p => { p with profile := none })) := by
  refine ⟨?_, ?_, ?_, ?_, ?_, ?_, ?_, ?_, ?_, ?_⟩ <;> decide +kernel

/-- Clauses 1, 2, 3, 4, 5 of LinkTrainingAndErrors. -/
theorem witness_linkTrainingAndErrors :
    ((fun (s : State) => (fun (port : Nat) => (fun (sub : Nat) => (fun (width : Nat) => (fun (rm : Bool) => (fun (dr : Bool) => (((s.hostPort port).subLinks[sub]?).any fun (l : SubLink) => decide (((s.hostPort port).perst = false) ∧
    ((s.hostPort port).deassertedAt ≠ none) ∧ (s.pins.hrefclk.getD port false = true) ∧ (s.pins.hrefReadyAt.getD port 0 ≤ s.time.osc) ∧
    ((s.hostPort port).subLinks[sub]? = some l) ∧ (l.up = false) ∧ (width ∈ [1, 2, 4, 8, 16]) ∧
    (width ≤ 16 / s.subLinks port))) = true) (false)) (true)) (16)) (0)) (0)) (up.onSub 0 0 fun y => { y with up := false })) ∧
    ((fun (s : State) => (fun (port : Nat) => (fun (sub : Nat) => (fun (f : FnRef) => (((s.hostPort port).subLinks[sub]?).any fun (l : SubLink) => decide ((fun (le : LinkErr) => (fun (fe : FatalErr) => ((s.hostPort port).subLinks[sub]? = some l) ∧
    (l.up = true)) (.dataLinkProtocol)) (.badTlp))) = true) (pf)) (0)) (0)) (up)) ∧
    ((fun (s : State) => (fun (port : Nat) => (fun (sub : Nat) => (fun (tag : Nat) => (fun (f : FnRef) => (((s.hostPort port).subLinks[sub]?).any fun (l : SubLink) => decide (((s.readOut tag).any fun (r : HostReadSt) => decide (((s.hostPort port).subLinks[sub]? = some l) ∧
    (l.up = true) ∧ (s.readOut tag = some r))) = true)) = true) (pf)) (3)) (0)) (0)) (up.onHost fun h => { h with reads := [(3, { ref := { fn := pf, pasid := none }, addr := 4096, len := 8, deadline := 0, dead := false, why := .serve 1 2 })] })) ∧
    ((fun (s : State) => (fun (f : FnRef) => ((s.hostPort f.port).perst = false)) (pf)) (up)) ∧
    ((fun (s : State) => (fun (f : FnRef) => ((s.hostPort f.port).perst = false) ∧ (s.barOpen f = false))
    (pf)) (up.onFn pf fun x => { x with mse := false })) := by
  refine ⟨?_, ?_, ?_, ?_, ?_⟩ <;> decide +kernel

/-- Clauses 1, 1, 2, 3, 4, 5, 6, 6 of HostReadsEndAndVectorsAreSent. -/
theorem witness_hostReadsEndAndVectorsAreSent :
    ((fun (s : State) => (fun (tag : Nat) => ((s.readOut tag).any fun (r : HostReadSt) => decide ((fun (how : ReadEnd) => (s.readOut tag = some r) ∧
    (how ≠ .timeout) ∧ (how ≠ .poisoned)) (.data [1, 2, 3]))) = true) (3)) (up.onHost fun h => { h with reads := [(3, { ref := { fn := pf, pasid := none }, addr := 4096, len := 8, deadline := 0, dead := false, why := .serve 1 2 })] })) ∧
    ((fun (s : State) => (fun (tag : Nat) => ((s.readOut tag).any fun (r : HostReadSt) => decide ((fun (how : ReadEnd) => (s.readOut tag = some r) ∧
    (how ≠ .timeout) ∧ (how ≠ .poisoned)) (.translation))) = true) (3)) (up.onHost fun h => { h with reads := [(3, { ref := { fn := pf, pasid := none }, addr := 4096, len := 8, deadline := 0, dead := false, why := .serve 1 2 })] })) ∧
    ((fun (s : State) => (fun (tag : Nat) => ((s.readOut tag).any fun (r : HostReadSt) => decide ((s.readOut tag = some r))) = true) (3))
    (up.onHost fun h => { h with reads := [(3, { ref := { fn := pf, pasid := none }, addr := 4096, len := 8, deadline := 0, dead := false, why := .serve 1 2 })] })) ∧
    ((fun (s : State) => (fun (tag : Nat) => (fun (f : FnRef) => (fun (how : ReadEnd) => (s.readOut tag = none) ∧
    (s.host.timedOut.get tag = some f)) (.data [1])) (pf)) (3)) (up.onHost fun h => { h with timedOut := [(3, pf)] })) ∧
    ((fun (s : State) => (fun (tag : Nat) => ((s.readOut tag).any fun (r : HostReadSt) => decide ((s.readOut tag = some r) ∧
    (r.deadline ≤ s.time.osc))) = true) (3)) (up.onHost fun h => { h with reads := [(3, { ref := { fn := pf, pasid := none }, addr := 4096, len := 8, deadline := 0, dead := false, why := .serve 1 2 })] })) ∧
    ((fun (s0 : State) => (fun (f : FnRef) => (fun (s : State) => (fun (v : Nat) => (fun (t : Nat) => (s.fatal = false) ∧
    (s.host.msixReq.find? (fun y => y.1 == f && y.2.1 == v && s.dueAt y.2.2 (s.onGrid 256 0)) = some (f, v, t)))
    (256)) (7)) (s0.seenFrom (6 + f.port))) (pf)) ((atFt 256 up).onHost fun h => { h with msixReq := [(pf, 7, 256)] })) ∧
    ((fun (s : State) => (fun (f : FnRef) => (fun (v : Nat) => ((s.fn f).any fun (x : FnSt) => decide ((s.fn f = some x) ∧
    (s.fnPresent f = true) ∧ (x.flrAt = none) ∧ (v < s.tableSize f))) = true) (7)) (pf)) (up)) ∧
    ((fun (s : State) => (fun (f : FnRef) => (fun (v : Nat) => ((s.fn f).any fun (x : FnSt) => decide ((s.fn f = some x) ∧
    (s.fnPresent f = true) ∧ (x.flrAt = none) ∧ (v < s.tableSize f))) = true) (7)) (pf)) (up.onFn pf fun x => { x with bme := false })) := by
  refine ⟨?_, ?_, ?_, ?_, ?_, ?_, ?_, ?_⟩ <;> decide +kernel

/-- Clauses 1, 2, 3, 4, 5, 6, 7, 8, 9 of RegisterWritesReachTheirRegister. -/
theorem witness_registerWritesReachTheirRegister :
    ((fun (s : State) => (fun (f : FnRef) => (fun (r : CfgField) => (fun (v : Nat) => ((s.fn f).any fun (x : FnSt) => decide ((s.configurable f = true) ∧
    (s.fn f = some x) ∧ (s.sizeHostError f r (x.setField r v) = false))) = true) (2)) (.ctoValue))
    (pf)) (up)) ∧
    ((fun (s : State) => (fun (f : FnRef) => (fun (r : CfgField) => (fun (v : Nat) => ((s.fn f).any fun (x : FnSt) => decide ((s.configurable f = true) ∧
    (s.fn f = some x) ∧ (s.sizeHostError f r (x.setField r v) = true))) = true) (256)) (.maxPayload))
    (pf)) (up.onHost fun h => { h with reads := [(3, { ref := { fn := pf, pasid := none }, addr := 4096, len := 8, deadline := 0, dead := false, why := .serve 1 2 })] })) ∧
    ((fun (s : State) => (fun (f : FnRef) => ((s.fn f).any fun (x : FnSt) => decide ((fun (v : W64) => (s.fn f = some x) ∧
    (s.barOpen f = true) ∧ (s.fatal = false) ∧ (x.cmdEn = false)) (0x1234000))) = true) (pf))
    (up)) ∧
    ((fun (s : State) => (fun (f : FnRef) => ((s.fn f).any fun (x : FnSt) => decide ((fun (v : W64) => (s.fn f = some x) ∧
    (s.barOpen f = true) ∧ (s.fatal = false) ∧ (x.cmdEn = false) ∧ (v.toNat < 2 ^ 32) ∧ (v.toNat &&& 0x07FF00FF = v.toNat))
    (0x00070005))) = true) (pf)) (up)) ∧
    ((fun (s : State) => (fun (f : FnRef) => ((s.fn f).any fun (x : FnSt) => decide ((fun (off : Nat) => (fun (size : Nat) => (fun (v : W64) => (s.fn f = some x) ∧
    (x.cmdEn = true) ∧ (off ≠ 0x008)) (1)) (8)) (0x010))) = true) (pf)) (up.onFn pf fun x => { x with cmdEn := true })) ∧
    ((fun (s : State) => (fun (f : FnRef) => (fun (k : Nat) => (fun (v : W32) => (s.barOpen f = true) ∧
    (k < 4 * s.tableSize f) ∧ (s.msixHostError f (4 * k) v = false)) (0xFFFFFFFF)) (31)) (pf))
    (up)) ∧
    ((fun (s : State) => (fun (f : FnRef) => (fun (k : Nat) => (fun (v : W32) => (s.barOpen f = true) ∧
    (k < 4 * s.tableSize f) ∧ (s.msixHostError f (4 * k) v = true)) (0x1000)) (28)) (pf)) (up.onFn pf fun x => { x with vecEntries := [(31, 0)] })) ∧
    ((fun (s : State) => (fun (f : FnRef) => (fun (page : Nat) => ((s.chanOfPage f page).any fun z => decide ((fun (t : Nat) (x : CyChan) => (fun (v : W64) => (s.fatal = false) ∧
    (s.barOpen f = true) ∧ (s.chanOfPage f page = some (t, x))) (1)) (z.1) (z.2))) = true) (1))
    (pf)) (cyUp { cyq with page := 1, pageFn := some pf, err := 3 } up)) ∧
    ((fun (s : State) => (fun (v : W64) => (s.fatal = false) ∧ (v.toNat < 2 ^ 32)) (0x100)) (up)) := by
  refine ⟨?_, ?_, ?_, ?_, ?_, ?_, ?_, ?_, ?_⟩ <;> decide +kernel

/-- Clauses 1, 2, 3 of FabricLinkFailure. -/
theorem witness_fabricLinkFailure :
    ((fun (s : State) => (fun (k : Nat) => ((s.links[k]?).any fun (x : LinkSt) => decide ((s.links[k]? = some x) ∧
    (x.up = true))) = true) (11)) (State.reset)) ∧
    ((fun (s : State) => (fun (k : Nat) => (k < 12) ∧ (s.links = List.replicate 12 { up := true, fails := 0 }) ∧
    (s.fatal = false)) (11)) (State.reset)) ∧
    ((fun (s : State) => (s.links = modAt (List.replicate 12 { up := true, fails := 0 }) 4 (fun _ => { up := false, fails := 0 })))
    ({ State.reset with links := modAt (List.replicate 12 { up := true, fails := 0 }) 4 (fun _ => { up := false, fails := 0 }) })) := by
  refine ⟨?_, ?_, ?_⟩ <;> decide +kernel

/-- Clauses 1, 2, 3 of SingleSymbolErrorsAreCorrected. -/
theorem witness_singleSymbolErrorsAreCorrected :
    ((fun (data : List Nat) => (data.length = 8) ∧ ((∀ d ∈ data, d < 256))) ([1, 2, 3, 4, 5, 6, 7, 255])) ∧
    ((fun (data : List Nat) => (fun (p : Nat) => (fun (e : Nat) => (data.length = 8) ∧ ((∀ d ∈ data, d < 256)) ∧
    (p < 10) ∧ (0 < e) ∧ (e < 256)) (255)) (9)) ([1, 2, 3, 4, 5, 6, 7, 255])) ∧
    ((fun (data : List Nat) => (data.length = 8) ∧ ((∀ d ∈ data, d < 256))) ([1, 2, 3, 4, 5, 6, 7, 255])) := by
  refine ⟨?_, ?_, ?_⟩ <;> decide +kernel

/-- Clauses 1, 2 of PoisonedAndCleanLinesAreRecognised. -/
theorem witness_poisonedAndCleanLinesAreRecognised :
    ((fun (b : Bytes) => (b.length = 64)) (List.replicate 64 0xA5)) ∧
    ((fun (b : Bytes) => (fun (errors : Bytes) => (fun (p : Nat) => (b.length = 64) ∧ (errors.length = 80) ∧
    (p < 10) ∧ ((List.range 80).all (fun i => i % 10 == p || byteAt errors i == 0) = true)) (9))
    ((zeros 80).set 79 0xFF)) (List.replicate 64 0xA5)) := by
  refine ⟨?_, ?_⟩ <;> decide +kernel

/-- Clauses 1, 2, 2, 3, 4, 4, 4, 5, 6 of MemoryIsTrainedAndRefreshed. -/
theorem witness_memoryIsTrainedAndRefreshed :
    ((fun (s : State) => (fun (found : List ChannelPop) => (s.fatal = false) ∧ (s.dram.done = false) ∧
    (s.boot.stage = .buckram) ∧ (s.pins.mainPwrOk = true) ∧ (found.length = 12)) (List.replicate 12 dimms))
    (State.reset.onBoot fun b => { b with stage := .buckram })) ∧
    ((fun (s0 : State) => (fun (c : Nat) => (fun (s : State) => (fun (r : Nat) => (s.refreshing c r = true))
    (1)) (s0.seenFrom (c / 3))) (11)) (atFt 29760 up)) ∧
    ((fun (s0 : State) => (fun (c : Nat) => (fun (s : State) => (fun (r : Nat) => (s.refreshing c r = true))
    (1)) (s0.seenFrom (c / 3))) (11)) (atFt 29758 up)) ∧
    ((fun (s : State) => (fun (c : Nat) => (fun (r : Nat) => (fun (t : Nat) => (s.refreshing c r = true) ∧
    ((r, t) ∈ (s.channel c).lastRefresh) ∧ (t + 4 * (s.channel c).tRef r ≤ s.time.osc)) (0)) (0))
    (0)) ((atFt 15360 up).onChannel 0 fun x => { x with lastRefresh := [(0, 0)] })) ∧
    ((fun (s0 : State) => (fun (c : Nat) => (fun (s : State) => (fun (load : Nat) => (fun (h0 : Bool) => (fun (h1 : Bool) => (fun (u : State) => (u.fatal = false) ∧
    (u.onGrid 4096 0 = true) ∧ ((u.channel c).trained = true) ∧ (u.channelOn c = true) ∧ ((u.channel c).calUntil ≤ u.ft))
    (s.calEnds c)) (false)) (true)) (0)) (s0.seenFrom (c / 3))) (11)) (atFt 92274688 up)) ∧
    ((fun (s0 : State) => (fun (c : Nat) => (fun (s : State) => (fun (load : Nat) => (fun (h0 : Bool) => (fun (h1 : Bool) => (fun (u : State) => (u.fatal = false) ∧
    (u.onGrid 4096 0 = true) ∧ ((u.channel c).trained = true) ∧ (u.channelOn c = true) ∧ ((u.channel c).calUntil ≤ u.ft))
    (s.calEnds c)) (false)) (true)) (0)) (s0.seenFrom (c / 3))) (11)) (atFt 49152 up)) ∧
    ((fun (s0 : State) => (fun (c : Nat) => (fun (s : State) => (fun (load : Nat) => (fun (h0 : Bool) => (fun (h1 : Bool) => (fun (u : State) => (u.fatal = false) ∧
    (u.onGrid 4096 0 = true) ∧ ((u.channel c).trained = true) ∧ (u.channelOn c = true) ∧ ((u.channel c).calUntil ≤ u.ft))
    (s.calEnds c)) (false)) (true)) (501)) (s0.seenFrom (c / 3))) (11)) ((atFt 92278784 up).onChannel 11 fun x => { x with calLeft := 3 })) ∧
    ((fun (s : State) => (fun (c : Nat) => (fun (k : Cmd) => ((s.channel c).calCmd = some k) ∧
    ((s.channel c).calLeft = 0) ∧ ((s.channel c).calUntil ≤ s.ft)) (m0 11)) (11)) (up.onChannel 11 fun x => { x with calCmd := some (m0 11) })) ∧
    ((fun (s : State) => (fun (c : Nat) => (s.fatal = false) ∧ (s.dram.done = true) ∧ ((s.channel c).sidebandBad = false) ∧
    (s.channelOn c = true)) (11)) (up)) := by
  refine ⟨?_, ?_, ?_, ?_, ?_, ?_, ?_, ?_, ?_⟩ <;> decide +kernel

/-- Clauses 1, 2, 2, 3, 4, 5, 5, 5, 6, 7 of ScrubbingAndItsCommands. -/
theorem witness_scrubbingAndItsCommands :
    ((fun (s0 : State) => (fun (c : Nat) => (fun (s : State) => (fun (u : State) => (fun (left : Nat) => (u.fatal = false) ∧
    (u.onGrid u.dram.scrubPeriod 0 = true) ∧ (u.refreshing c 0 = true) ∧ ((u.channel c).scrubStart ≠ some (u.gridFt u.dram.scrubPeriod 0)))
    ((if (u.channel c).scrubStart = none then 0 else (u.channel c).lines - (u.channel c).scrubNext)))
    (s.scrubTake)) (s0.seenFrom (c / 3))) (0)) (up)) ∧
    ((fun (s0 : State) => (fun (c : Nat) => (fun (s : State) => (fun (r : Nat) => (fun (sub : Nat) => (fun (i : Nat) => (fun (errors : Bytes) => (fun (rank : Nat) => (fun (sb : Nat) => (fun (u : State) => (fun (l : List (List Nat)) => (s.fatal = false) ∧
    (s.refreshing c r = true) ∧ (s.dram.scrubPeriod ≠ 0) ∧ (s.scrubLine c = some i)) (lineCodewords (u.lineBytes (c * 2 ^ 34 + i))
    (s.lineErrors (c * 2 ^ 34 + i) (burstSymbols errors)) (s.dram.poison.contains (c * 2 ^ 34 + i))))
    ((s.onChannel c fun x => if 0 < x.scrubPass then { x with scrubPass := x.scrubPass - 1 } else { x with scrubNext := i + 1 }).onDram (fun d => { d with faults := d.faults.del (c * 2 ^ 34 + i) })))
    ((s.lineRank (c * 2 ^ 34 + i)).2)) ((s.lineRank (c * 2 ^ 34 + i)).1)) (zeros 80)) (0)) (0))
    (0)) (s0.seenFrom (c / 3))) (0)) (up.onChannel 0 fun x => { x with scrubStart := some 0 })) ∧
    ((fun (s0 : State) => (fun (c : Nat) => (fun (s : State) => (fun (r : Nat) => (fun (sub : Nat) => (fun (i : Nat) => (fun (errors : Bytes) => (fun (rank : Nat) => (fun (sb : Nat) => (fun (u : State) => (fun (l : List (List Nat)) => (s.fatal = false) ∧
    (s.refreshing c r = true) ∧ (s.dram.scrubPeriod ≠ 0) ∧ (s.scrubLine c = some i)) (lineCodewords (u.lineBytes (c * 2 ^ 34 + i))
    (s.lineErrors (c * 2 ^ 34 + i) (burstSymbols errors)) (s.dram.poison.contains (c * 2 ^ 34 + i))))
    ((s.onChannel c fun x => if 0 < x.scrubPass then { x with scrubPass := x.scrubPass - 1 } else { x with scrubNext := i + 1 }).onDram (fun d => { d with faults := d.faults.del (c * 2 ^ 34 + i) })))
    ((s.lineRank (c * 2 ^ 34 + i)).2)) ((s.lineRank (c * 2 ^ 34 + i)).1)) ([byte 3] ++ zeros 79))
    (0)) (0)) (0)) (s0.seenFrom (c / 3))) (0)) (up.onChannel 0 fun x => { x with scrubStart := some 0 })) ∧
    ((fun (s0 : State) => (fun (c : Nat) => (fun (s : State) => (fun (r : Nat) => (fun (sub : Nat) => (fun (i : Nat) => (s.fatal = false) ∧
    (s.refreshing c r = true) ∧ (s.dram.scrubPeriod ≠ 0) ∧ (s.scrubLine c = some i) ∧ (s.dram.faults.get (c * 2 ^ 34 + i) = none))
    (0)) (0)) (0)) (s0.seenFrom (c / 3))) (0)) (up.onChannel 0 fun x => { x with scrubStart := some 0 })) ∧
    ((fun (s : State) => (fun (c : Nat) => (s.fatal = false) ∧ (s.refreshing c 0 = true)) (0))
    (up)) ∧
    ((fun (s : State) => (fun (c : Cmd) => (fun (who : Caller) => (s.accepts 0x0E05 c who false true true = true))
    (.management)) (m1 0xFFFFFFFF 16 1)) (up)) ∧
    ((fun (s : State) => (fun (c : Cmd) => (fun (who : Caller) => (s.accepts 0x0E05 c who false true true = true))
    (.management)) (mc 0xFFFFFFFF [(16, toLe 8 3600000000000)] [])) (up)) ∧
    ((fun (s : State) => (fun (c : Cmd) => (fun (who : Caller) => (s.accepts 0x0E05 c who false true true = true))
    (.management)) (m0 0xFFFFFFFF)) (up)) ∧
    ((fun (s : State) => (fun (c : Cmd) => (fun (who : Caller) => (s.accepts 0x0E04 c who false true true = true) ∧
    (((s.taken 0x0E04 c).channel c.target.toNat).trained = true) ∧ (((s.taken 0x0E04 c).channel c.target.toNat).calCmd = none))
    (.management)) (m0 11)) (up)) ∧
    ((fun (s : State) => (fun (c : Cmd) => (fun (who : Caller) => (s.accepts 0x0E04 c who false true true = true) ∧
    ((((s.taken 0x0E04 c).channel c.target.toNat).trained = false ∨ ((s.taken 0x0E04 c).channel c.target.toNat).calCmd ≠ none)))
    (.management)) (m0 11)) (up.onChannel 11 fun x => { x with trained := false })) := by
  refine ⟨?_, ?_, ?_, ?_, ?_, ?_, ?_, ?_, ?_, ?_⟩ <;> decide +kernel

/-- Clauses 1, 2, 3, 4, 5, 6, 7, 8 of ParkingATile. -/
theorem witness_parkingATile :
    ((fun (s : State) => (fun (c : Cmd) => (fun (who : Caller) => (fun (env : BkEnv) => (s.accepts 0x0B01 c who false true false = true) ∧
    (s.mailboxIdle = true) ∧ ((s.taken 0x0B01 c).parkCheck c.target.toNat = none)) ({ mediaOk := true, rpmbOk := true, noiseOk := true, pb := c.pb }))
    (.management)) (m0 3)) (up)) ∧
    ((fun (s : State) => ((s.power.op).any fun (o : ParkOp) => decide ((s.power.op = some o) ∧
    (s.fatal = false) ∧ (o.unpark = false) ∧ (o.passed = false) ∧ (s.dueAt o.point s.onRebalance = true))) = true) (atFt 1048576 (up.onPower fun p => { p with op := some { tile := 3, unpark := false, point := 1048576, passed := false, limit := 0, ready := false, cmd := m0 3 } }))) ∧
    ((fun (s : State) => ((s.power.op).any fun (o : ParkOp) => decide ((s.power.op = some o) ∧
    (s.fatal = false) ∧ (o.unpark = false) ∧ (o.passed = true) ∧ (o.limit ≤ s.ft))) = true) (up.onPower fun p => { p with op := some { tile := 3, unpark := false, point := 0, passed := true, limit := 0, ready := false, cmd := m0 3 } })) ∧
    ((fun (s : State) => (fun (c : Cmd) => (fun (limit : Nat) => (s.power.op = none) ∧ (s.power.standby = some (c, limit)) ∧
    (s.fatal = false) ∧ (limit ≤ s.ft)) (0)) (m1 0xFFFFFFFF 16 1)) (up.onPower fun p => { p with standby := some (m1 0xFFFFFFFF 16 1, 0) })) ∧
    ((fun (s : State) => ((s.power.op).any fun (o : ParkOp) => decide ((fun (u : State) => (s.power.op = some o) ∧
    (s.fatal = false) ∧ (o.unpark = false) ∧ (o.passed = true) ∧ (s.cmd.mailbox.any (fun r => match r with | .command 0x0B01 _ _ => true | _ => false) = false) ∧
    (s.onFrame = true) ∧ (s.tileEmpty o.tile = true)) (((s.carryContexts o.tile).loseTile o.tile).onPower (fun p => { p with op := none })))) = true) (up.onPower fun p => { p with op := some { tile := 3, unpark := false, point := 0, passed := true, limit := 0, ready := false, cmd := m0 3 } })) ∧
    ((fun (s : State) => (fun (c : Cmd) => (fun (limit : Nat) => (s.power.op = none) ∧ (s.power.standby = some (c, limit)) ∧
    (s.fatal = false) ∧ (s.cmd.mailbox = []) ∧ (s.onFrame = true) ∧ ((List.range 4).all s.tileEmpty = true))
    (9)) (m1 0xFFFFFFFF 16 1)) (up.onPower fun p => { p with standby := some (m1 0xFFFFFFFF 16 1, 9) })) ∧
    ((fun (s : State) => (fun (c : Cmd) => (fun (who : Caller) => (fun (env : BkEnv) => (s.accepts 0x0B02 c who false true false = true) ∧
    (s.mailboxIdle = true) ∧ ((s.taken 0x0B02 c).power.tiles.getD c.target.toNat .off = .parked) ∧
    ((s.taken 0x0B02 c).power.op = none) ∧ ((s.taken 0x0B02 c).boot.activation = none)) ({ mediaOk := true, rpmbOk := true, noiseOk := true, pb := c.pb }))
    (.management)) (m0 3)) (up.onPower fun p => { p with tiles := [.active, .active, .active, .parked] })) ∧
    ((fun (s : State) => ((s.power.op).any fun (o : ParkOp) => decide ((fun (u : State) => (fun (v : State) => (s.power.op = some o) ∧
    (s.fatal = false) ∧ (o.unpark = true) ∧ (o.ready = true) ∧ (s.dueAt o.point s.onRebalance = true))
    ((u.onPower fun p => { p with away := p.away.filter fun x => x.1 != o.tile }).trimCached))
    ((s.power.away.filter fun x => x.1 == o.tile && s.krm.conns.has x.2).foldl (fun w x => (w.onConn x.2 fun c => { c with home := x.1 }).onDamask fun d => { d with homePend := d.homePend ++ [(x.2, some x.1)] }) (s.onPower fun p => { p with op := none })))) = true) (atFt 1048576 (up.onPower fun p => { p with op := some { tile := 3, unpark := true, point := 1048576, passed := false, limit := 0, ready := true, cmd := m0 3 } }))) := by
  refine ⟨?_, ?_, ?_, ?_, ?_, ?_, ?_, ?_⟩ <;> decide +kernel

/-- Clauses 1, 1, 1, 2, 2, 3, 4, 6 of PowerStatesAndQuery. -/
theorem witness_powerStatesAndQuery :
    ((fun (s : State) => (fun (c : Cmd) => (fun (who : Caller) => (fun (env : BkEnv) => (s.bkAccepts 0x0B04 c who env false true false = true) ∧
    (cmdByte c 16 = 1)) ({ mediaOk := true, rpmbOk := true, noiseOk := true, pb := c.pb })) (.management))
    (m1 0xFFFFFFFF 16 1)) (up)) ∧
    ((fun (s : State) => (fun (c : Cmd) => (fun (who : Caller) => (fun (env : BkEnv) => (s.bkAccepts 0x0B04 c who env false true false = true) ∧
    (cmdByte c 16 = 1)) ({ mediaOk := true, rpmbOk := true, noiseOk := true, pb := c.pb })) (.management))
    (m1 0xFFFFFFFF 16 1)) (up.onPower fun p => { p with dev := .standby })) ∧
    ((fun (s : State) => (fun (c : Cmd) => (fun (who : Caller) => (fun (env : BkEnv) => (s.bkAccepts 0x0B04 c who env false true false = true) ∧
    (cmdByte c 16 = 1)) ({ mediaOk := true, rpmbOk := true, noiseOk := true, pb := c.pb })) (.management))
    (m1 0xFFFFFFFF 16 1)) (up.onPower fun p => { p with op := some { tile := 3, unpark := false, point := 1048576, passed := false, limit := 0, ready := false, cmd := m0 3 } })) ∧
    ((fun (s : State) => (fun (c : Cmd) => (fun (who : Caller) => (fun (env : BkEnv) => (fun (u : State) => (s.bkAccepts 0x0B04 c who env false true false = true) ∧
    (cmdByte c 16 = 0)) ((if (s.served 0x0B04 c).power.dev = .standby then (s.served 0x0B04 c).leaveStandby else s.served 0x0B04 c)))
    ({ mediaOk := true, rpmbOk := true, noiseOk := true, pb := c.pb })) (.management)) (m0 0xFFFFFFFF))
    (up.onPower fun p => { p with dev := .standby })) ∧
    ((fun (s : State) => (fun (c : Cmd) => (fun (who : Caller) => (fun (env : BkEnv) => (fun (u : State) => (s.bkAccepts 0x0B04 c who env false true false = true) ∧
    (cmdByte c 16 = 0)) ((if (s.served 0x0B04 c).power.dev = .standby then (s.served 0x0B04 c).leaveStandby else s.served 0x0B04 c)))
    ({ mediaOk := true, rpmbOk := true, noiseOk := true, pb := c.pb })) (.management)) (m0 0xFFFFFFFF))
    (up)) ∧
    ((fun (s : State) => (s.power.dev ≠ .off) ∧ (s.pins.mainPwrOk = true) ∧ (s.pins.sysRst = false))
    (up)) ∧
    ((fun (s : State) => (s.power.dev ≠ .off) ∧ (s.pins.mainPwrOk = false) ∧ (s.pins.sysRst = false) ∧
    (s.fatal = false) ∧ (s.pins.heldReset = false)) (up.onPins fun p => { p with mainPwrOk := false })) ∧
    ((fun (s : State) => (fun (c : Cmd) => (fun (who : Caller) => (s.accepts 0x0B05 c who false true false = true))
    (.management)) (m0 0xFFFFFFFF)) (up)) := by
  refine ⟨?_, ?_, ?_, ?_, ?_, ?_, ?_, ?_⟩ <;> decide +kernel

/-- Clauses 1, 1, 2, 2, 3, 4, 5, 6, 7, 8, 9, 10 of PowerCapAndThermalLimits. -/
theorem witness_powerCapAndThermalLimits :
    ((fun (s : State) => (fun (c : Cmd) => (fun (who : Caller) => (fun (env : BkEnv) => (s.bkAccepts 0x0B03 c who env false true false = true))
    ({ mediaOk := true, rpmbOk := true, noiseOk := true, pb := c.pb })) (.management)) (m1 0xFFFFFFFF 16 150))
    (up)) ∧
    ((fun (s : State) => (fun (c : Cmd) => (fun (who : Caller) => (fun (env : BkEnv) => (s.bkAccepts 0x0B03 c who env false true false = true))
    ({ mediaOk := true, rpmbOk := true, noiseOk := true, pb := c.pb })) (.management)) (m1 0xFFFFFFFF 16 651))
    (up)) ∧
    ((fun (s : State) => (fun (w : Nat) => (fun (due : List (Nat × Nat × Cmd)) => (fun (cap : Nat) => (fun (l : List Nat) => (fun (u : State) => (fun (v : State) => (s.fatal = false) ∧
    (s.power.dev ≠ .off) ∧ (s.onGrid 10000 0 = true) ∧ (s.power.lastWindow ≠ s.gridFt 10000 0 / 10000 + 1))
    ((if u.power.ladder = 10 ∧ capExceeded cap l = true ∧ u.power.capUnmet = false then u.raise (sourceNo 6 20) noObject cap .dev else u)))
    (s.onClocks (fun p => { p with windows := l, lastWindow := s.gridFt 10000 0 / 10000 + 1, cap := cap, capPend := p.capPend.filter fun x => s.ft ≤ x.2.1, level := if p.level = 10 ∧ capExceeded cap l = true then 10 else ladderStep cap p.level l })))
    ((s.power.windows ++ [w]).drop (s.power.windows.length + 1 - 100))) (((due.getLast?).map fun x => x.1).getD s.power.cap))
    (s.power.capPend.filter (fun x => x.2.1 < s.ft))) (700)) ((atFt 10000 up).onPower fun p => { p with windows := List.replicate 98 100, capPend := [(300, 9999, m1 0xFFFFFFFF 16 300)] })) ∧
    ((fun (s : State) => (fun (w : Nat) => (fun (due : List (Nat × Nat × Cmd)) => (fun (cap : Nat) => (fun (l : List Nat) => (fun (u : State) => (fun (v : State) => (s.fatal = false) ∧
    (s.power.dev ≠ .off) ∧ (s.onGrid 10000 0 = true) ∧ (s.power.lastWindow ≠ s.gridFt 10000 0 / 10000 + 1))
    ((if u.power.ladder = 10 ∧ capExceeded cap l = true ∧ u.power.capUnmet = false then u.raise (sourceNo 6 20) noObject cap .dev else u)))
    (s.onClocks (fun p => { p with windows := l, lastWindow := s.gridFt 10000 0 / 10000 + 1, cap := cap, capPend := p.capPend.filter fun x => s.ft ≤ x.2.1, level := if p.level = 10 ∧ capExceeded cap l = true then 10 else ladderStep cap p.level l })))
    ((s.power.windows ++ [w]).drop (s.power.windows.length + 1 - 100))) (((due.getLast?).map fun x => x.1).getD s.power.cap))
    (s.power.capPend.filter (fun x => x.2.1 < s.ft))) (700)) ((atFt 20000 up).onPower fun p => { p with windows := List.replicate 98 100, level := 10, cap := 80 })) ∧
    ((fun (cap : Nat) => (fun (level : Nat) => (fun (l : List Nat) => (8 ≤ l.length)) (List.replicate 8 200))
    (4)) (100)) ∧
    ((fun (s : State) => (fun (die : Nat) => (fun (tj : Nat) => (s.thermalOn = true) ∧ (100 ≤ tj) ∧
    (s.power.throttle = false)) (100)) (0)) (up)) ∧
    ((fun (s : State) => (fun (die : Nat) => (fun (tj : Nat) => (s.thermalOn = true) ∧ (100 ≤ tj) ∧
    (s.power.throttle = true) ∧ (s.power.lastForce + 100000 ≤ s.time.osc)) (100)) (0)) (atFt 100000 (up.onPower fun p => { p with throttle := true }))) ∧
    ((fun (s : State) => (fun (die : Nat) => (fun (tj : Nat) => (s.thermalOn = true) ∧ (tj < 98))
    (97)) (0)) (up)) ∧
    ((fun (s : State) => (fun (die : Nat) => (fun (tj : Nat) => (fun (t : Nat) => (s.thermalOn = true) ∧
    (105 < tj) ∧ (s.power.crit = false) ∧ (s.power.hotSince = some t) ∧ (t + 100000000 ≤ s.time.osc))
    (0)) (106)) (0)) (atFt 100000000 (up.onPower fun p => { p with hotSince := some 0 }))) ∧
    ((fun (s : State) => (fun (die : Nat) => (fun (tj : Nat) => (s.thermalOn = true) ∧ (115 ≤ tj))
    (115)) (0)) (up)) ∧
    ((fun (s : State) => (fun (tile : Nat) => (s.fatal = false) ∧ (s.power.tiles.getD tile .off = .active) ∧
    (s.tileQuiet tile = true)) (3)) (up)) ∧
    ((fun (s : State) => (fun (tile : Nat) => (s.fatal = false) ∧ (s.power.tiles.getD tile .off = .idle))
    (3)) (up.setTile 3 .idle)) := by
  refine ⟨?_, ?_, ?_, ?_, ?_, ?_, ?_, ?_, ?_, ?_, ?_, ?_⟩ <;> decide +kernel

/-- Clauses 3, 3, 4, 5, 5, 6, 7 of PinsAndClocks. -/
theorem witness_pinsAndClocks :
    ((fun (s : State) => (s.pins.sysclk = true)) (up.onTrust fun t => { t with mrCount := [1, 0, 0, 0] })) ∧
    ((fun (s : State) => (s.pins.sysclk = true)) (up)) ∧
    ((fun (s : State) => (s.pins.sysclk = false)) (up.onPins fun p => { p with sysclk := false })) ∧
    ((fun (s : State) => (s.pins.sysclk = true ∨ (s.romBegan = true ∧ s.onFrame = false))) (up)) ∧
    ((fun (s : State) => (s.pins.sysclk = true ∨ (s.romBegan = true ∧ s.onFrame = false))) ((atFt 2 (up.onTrust fun t => { t with mrCount := [1, 0, 0, 0] })).onPins fun p => { p with sysclk := false })) ∧
    ((fun (s : State) => (s.pins.sysclk = false) ∧ (s.romBegan = false)) (State.reset.onPins fun p => { p with sysclk := false })) ∧
    ((fun (s : State) => (s.pins.sysclk = false) ∧ (s.romBegan = true) ∧ (s.onFrame = true)) ((up.onTrust fun t => { t with mrCount := [1, 0, 0, 0] }).onPins fun p => { p with sysclk := false })) := by
  refine ⟨?_, ?_, ?_, ?_, ?_, ?_, ?_⟩ <;> decide +kernel

/-- Clauses 1, 1 of FwAbortEndsAWrite. -/
theorem witness_fwAbortEndsAWrite :
    ((fun (s : State) => (fun (c : Cmd) => (fun (who : Caller) => (s.accepts 0x0906 c who false true false = true))
    (.management)) (m0 3)) (up)) ∧
    ((fun (s : State) => (fun (c : Cmd) => (fun (who : Caller) => (s.accepts 0x0906 c who false true false = true))
    (.management)) (m0 3)) (up.onSlot 3 fun x => { x with writing := true })) := by
  refine ⟨?_, ?_⟩ <;> decide +kernel

/-- Clauses 1 of MeasurementsAreReadWhole. -/
theorem witness_measurementsAreReadWhole :
    ((fun (s : State) => (fun (c : Cmd) => (fun (who : Caller) => (fun (env : BkEnv) => (fun (a : Bytes) => (fun (b : Bytes) => (fun (d : Bytes) => (fun (e : Bytes) => (fun (i : Nat) => (fun (j : Nat) => (fun (k : Nat) => (fun (l : Nat) => (s.bkAccepts 0x0A06 c who env false true false = true) ∧
    ((s.served 0x0A06 c).trust.mr = [a, b, d, e]) ∧ ((s.served 0x0A06 c).trust.mrCount = [i, j, k, l]) ∧
    (a.length = 64) ∧ (b.length = 64) ∧ (d.length = 64) ∧ (e.length = 64)) (0)) (0)) (0)) (0))
    (zeros 64)) (zeros 64)) (zeros 64)) (zeros 64)) ({ mediaOk := true, rpmbOk := true, noiseOk := true, pb := c.pb }))
    (.management)) (m0 0xFFFFFFFF)) (up)) := by
  decide +kernel

/-- Clauses 1, 2, 6, 7, 8 of FieldUpdateOfASlot. -/
theorem witness_fieldUpdateOfASlot :
    ((fun (s : State) => (fun (c : Cmd) => (fun (who : Caller) => (s.accepts 0x0901 c who false true false = true))
    (.management)) (m0 0xFFFFFFFF)) (up)) ∧
    ((fun (s : State) => (fun (c : Cmd) => (fun (who : Caller) => (s.accepts 0x0902 c who false true false = true))
    (.management)) ({ mc 3 [(20, toLe 4 0)] [] with data := zeros 65536 })) (up)) ∧
    ((fun (s : State) => (fun (c : Cmd) => (fun (who : Caller) => (fun (env : BkEnv) => (fun (b : Bytes) => (fun (u : State) => (s.bkAccepts 0x0903 c who env false true false = true) ∧
    (env.mediaOk = true) ∧ ((s.served 0x0903 c).pushReadable c.target.toNat = true) ∧ (((s.served 0x0903 c).imgSlot c.target.toNat).held = some b) ∧
    (mfBlocks b ≤ ((s.served 0x0903 c).imgSlot c.target.toNat).received.length)) (((s.served 0x0903 c).readPush c.target.toNat).reread c.target.toNat env.changed))
    ([])) ({ mediaOk := true, rpmbOk := true, noiseOk := true, pb := c.pb })) (.management)) (m0 3))
    (up.onSlot 3 fun x => { x with held := some [] })) ∧
    ((fun (s : State) => (fun (c : Cmd) => (fun (who : Caller) => (fun (env : BkEnv) => (s.bkAccepts 0x0903 c who env false true false = true) ∧
    ((((s.served 0x0903 c).imgSlot c.target.toNat).held.all fun b => decide (((s.served 0x0903 c).imgSlot c.target.toNat).received.length < mfBlocks b)) = true))
    ({ mediaOk := true, rpmbOk := true, noiseOk := true, pb := c.pb })) (.management)) (m0 3))
    (up)) ∧
    ((fun (s : State) => (fun (c : Cmd) => (fun (who : Caller) => (fun (env : BkEnv) => (fun (b : Bytes) => (s.bkAccepts 0x0903 c who env false true false = true) ∧
    ((env.mediaOk = false ∨ (s.served 0x0903 c).pushReadable c.target.toNat = false)) ∧ (((s.served 0x0903 c).imgSlot c.target.toNat).held = some b) ∧
    (mfBlocks b ≤ ((s.served 0x0903 c).imgSlot c.target.toNat).received.length)) ([])) ({ mediaOk := false, rpmbOk := true, noiseOk := true }))
    (.management)) (m0 3)) (up.onSlot 3 fun x => { x with held := some [] })) := by
  refine ⟨?_, ?_, ?_, ?_, ?_⟩ <;> decide +kernel

/-- Clauses 1, 2, 2, 3, 4, 5, 6, 6, 6, 7, 8, 8 of ActivationAndItsTrial. -/
theorem witness_activationAndItsTrial :
    ((fun (s : State) => (fun (c : Cmd) => (fun (who : Caller) => (fun (env : BkEnv) => (s.bkAccepts 0x0904 c who env false true false = true) ∧
    (env.mediaOk = true) ∧ ((s.served 0x0904 c).pushComp = none) ∧ (c.target.toNat / 2 = 1) ∧
    ((s.served 0x0904 c).slotActive c.target.toNat = false) ∧ (((s.served 0x0904 c).imgSlot c.target.toNat).verified = true))
    ({ mediaOk := true, rpmbOk := true, noiseOk := true, pb := c.pb })) (.management)) (m0 2))
    ((up.onBoot fun b => { b with runBk := 3 }).onSlot 2 fun x => { x with verified := true })) ∧
    ((fun (s : State) => (fun (c : Cmd) => (fun (who : Caller) => (fun (env : BkEnv) => (fun (t : State) => (fun (b : Bytes) => (fun (u : State) => (fun (v : State) => (s.bkAccepts 0x0904 c who env false true false = true) ∧
    (env.mediaOk = true) ∧ (t.pushComp = none) ∧ (c.target.toNat / 2 = 0) ∧ (t.trialOpen = false) ∧
    (t.power.op = none) ∧ (t.slotActive c.target.toNat = false) ∧ (t.boot.activation = none) ∧
    ((t.imgSlot c.target.toNat).verified = true) ∧ ((cmdLe c 16 4 = 0 ∨ (10 ≤ cmdLe c 16 4 ∧ cmdLe c 16 4 ≤ 3600))) ∧
    (t.pushReadable c.target.toNat = true)) ((u.program c.target.toNat 2).handoverThreads.foldl (fun w k => (w.onThread k fun x => { x with state := .run, remembered := .run, pc := ((u.program c.target.toNat 2).loadCode c.target.toNat (1 - u.boot.codeRegion)).2 + mfHandover b }).coreSettle (k / 8))
    ((u.program c.target.toNat 2).loadCode c.target.toNat (1 - u.boot.codeRegion)).1)) ((((t.program c.target.toNat 1).readPush c.target.toNat).reread c.target.toNat env.changed).codeChecked (1 - t.boot.codeRegion) false))
    ((t.imgSlot c.target.toNat).manifest.getD [])) (s.served 0x0904 c)) ({ mediaOk := true, rpmbOk := true, noiseOk := true, pb := c.pb }))
    (.management)) (m0 1)) (up.onSlot 1 fun x => { x with verified := true, manifest := some [] })) ∧
    ((fun (s : State) => (fun (c : Cmd) => (fun (who : Caller) => (fun (env : BkEnv) => (fun (t : State) => (fun (b : Bytes) => (fun (u : State) => (fun (v : State) => (s.bkAccepts 0x0904 c who env false true false = true) ∧
    (env.mediaOk = true) ∧ (t.pushComp = none) ∧ (c.target.toNat / 2 = 0) ∧ (t.trialOpen = false) ∧
    (t.power.op = none) ∧ (t.slotActive c.target.toNat = false) ∧ (t.boot.activation = none) ∧
    ((t.imgSlot c.target.toNat).verified = true) ∧ ((cmdLe c 16 4 = 0 ∨ (10 ≤ cmdLe c 16 4 ∧ cmdLe c 16 4 ≤ 3600))) ∧
    (t.pushReadable c.target.toNat = true)) ((u.program c.target.toNat 2).handoverThreads.foldl (fun w k => (w.onThread k fun x => { x with state := .run, remembered := .run, pc := ((u.program c.target.toNat 2).loadCode c.target.toNat (1 - u.boot.codeRegion)).2 + mfHandover b }).coreSettle (k / 8))
    ((u.program c.target.toNat 2).loadCode c.target.toNat (1 - u.boot.codeRegion)).1)) ((((t.program c.target.toNat 1).readPush c.target.toNat).reread c.target.toNat env.changed).codeChecked (1 - t.boot.codeRegion) false))
    ((t.imgSlot c.target.toNat).manifest.getD [])) (s.served 0x0904 c)) ({ mediaOk := true, rpmbOk := true, noiseOk := true, pb := c.pb }))
    (.management)) (m0 1)) (up.onSlot 1 fun x => { x with verified := true, manifest := some (zeros 65536) })) ∧
    ((fun (s : State) => ((s.boot.activation).any fun (a : Activation) => decide ((s.boot.activation = some a) ∧
    (s.fatal = false) ∧ (a.ready = false) ∧ (s.time.osc < a.startedAt + 1000000000))) = true) (up.onBoot fun b => { b with activation := some { slot := 1, cmd := some (m0 1), startedAt := 0, ready := false, pauseAt := 0, window := 0, revert := false } })) ∧
    ((fun (s : State) => ((s.boot.activation).any fun (a : Activation) => decide ((fun (b : Bytes) => (s.boot.activation = some a) ∧
    (s.fatal = false) ∧ (a.ready = true)) ([]))) = true) (atFt 30000000 (up.onBoot fun b => { b with activation := some { slot := 1, cmd := some (m0 1), startedAt := 0, ready := true, pauseAt := 0, window := 0, revert := false } }))) ∧
    ((fun (s : State) => ((s.boot.activation).any fun (a : Activation) => decide ((fun (c : Cmd) => (s.boot.activation = some a) ∧
    (s.fatal = false) ∧ (a.ready = false) ∧ (a.cmd = some c) ∧ (a.startedAt + 1000000000 ≤ s.time.osc))
    (m0 1))) = true) (atFt 1000000000 (up.onBoot fun b => { b with activation := some { slot := 1, cmd := some (m0 1), startedAt := 0, ready := false, pauseAt := 0, window := 0, revert := false } }))) ∧
    ((fun (s : State) => (fun (c : Cmd) => (fun (who : Caller) => (fun (env : BkEnv) => (fun (u : State) => (fun (v : State) => (s.bkAccepts 0x0905 c who env false true false = true) ∧
    (env.mediaOk = true) ∧ ((s.served 0x0905 c).boot.activation = none)) ((if u.boot.trialBk.isSome then (u.confirm u.boot.runBk).onBoot fun z => { z with trialBk := none } else u)))
    ((if (s.served 0x0905 c).boot.trialSf.isSome then ((s.served 0x0905 c).confirm (s.served 0x0905 c).boot.runSf).onBoot fun z => { z with trialSf := none, prevManifest := none } else s.served 0x0905 c)))
    ({ mediaOk := true, rpmbOk := true, noiseOk := true, pb := c.pb })) (.firmware)) (r0 0xFFFFFFFF))
    (withRing .firmware 0x0905 (r0 0xFFFFFFFF) (up.onBoot fun b => { b with trialSf := some 5 }))) ∧
    ((fun (s : State) => (fun (c : Cmd) => (fun (who : Caller) => (fun (env : BkEnv) => (fun (u : State) => (fun (v : State) => (s.bkAccepts 0x0905 c who env false true false = true) ∧
    (env.mediaOk = true) ∧ ((s.served 0x0905 c).boot.activation = none)) ((if u.boot.trialBk.isSome then (u.confirm u.boot.runBk).onBoot fun z => { z with trialBk := none } else u)))
    ((if (s.served 0x0905 c).boot.trialSf.isSome then ((s.served 0x0905 c).confirm (s.served 0x0905 c).boot.runSf).onBoot fun z => { z with trialSf := none, prevManifest := none } else s.served 0x0905 c)))
    ({ mediaOk := true, rpmbOk := true, noiseOk := true, pb := c.pb })) (.firmware)) (r0 0xFFFFFFFF))
    (withRing .firmware 0x0905 (r0 0xFFFFFFFF) (up.onBoot fun b => { b with trialBk := some 5 }))) ∧
    ((fun (s : State) => (fun (c : Cmd) => (fun (who : Caller) => (fun (env : BkEnv) => (fun (u : State) => (fun (v : State) => (s.bkAccepts 0x0905 c who env false true false = true) ∧
    (env.mediaOk = true) ∧ ((s.served 0x0905 c).boot.activation = none)) ((if u.boot.trialBk.isSome then (u.confirm u.boot.runBk).onBoot fun z => { z with trialBk := none } else u)))
    ((if (s.served 0x0905 c).boot.trialSf.isSome then ((s.served 0x0905 c).confirm (s.served 0x0905 c).boot.runSf).onBoot fun z => { z with trialSf := none, prevManifest := none } else s.served 0x0905 c)))
    ({ mediaOk := true, rpmbOk := true, noiseOk := true, pb := c.pb })) (.firmware)) (r0 0xFFFFFFFF))
    (withRing .firmware 0x0905 (r0 0xFFFFFFFF) (up))) ∧
    ((fun (s : State) => (fun (t : Nat) => (s.fatal = false) ∧ (s.boot.trialBk = some t) ∧ (t ≤ s.ft))
    (0)) (up.onBoot fun b => { b with trialBk := some 0 })) ∧
    ((fun (s : State) => (fun (t : Nat) => (s.fatal = false) ∧ ((s.boot.trialBk.all fun x => decide (s.ft < x)) = true) ∧
    (s.boot.trialSf = some t) ∧ (t ≤ s.ft)) (0)) (up.onBoot fun b => { b with trialSf := some 0 })) ∧
    ((fun (s : State) => (fun (t : Nat) => (s.fatal = false) ∧ ((s.boot.trialBk.all fun x => decide (s.ft < x)) = true) ∧
    (s.boot.trialSf = some t) ∧ (t ≤ s.ft)) (0)) (up.onBoot fun b => { b with trialSf := some 0, trialBk := some 1 })) := by
  refine ⟨?_, ?_, ?_, ?_, ?_, ?_, ?_, ?_, ?_, ?_, ?_, ?_⟩ <;> decide +kernel

/-- Clauses 1, 1, 2, 3, 4, 4, 5, 6, 7, 7 of BootStages. -/
theorem witness_bootStages :
    ((fun (s : State) => (fun (straps : Straps) => (fun (media : List Medium) => (fun (u : State) => (s.boot.stage = .rom) ∧
    (s.fatal = false) ∧ (s.power.dev ≠ .off) ∧ (s.pins.heldReset = false) ∧ (s.pins.thermTrip = false) ∧
    (s.power.tj < 100) ∧ (s.trust.mrCount.getD 0 0 = 0)) (s.romStart straps (media.any fun m => m.source == 1 && m.present)))
    ([])) ({ bootSel := 5, hp0Bif := 0, hp1Bif := 0 })) (State.reset)) ∧
    ((fun (s : State) => (fun (straps : Straps) => (fun (media : List Medium) => (fun (u : State) => (s.boot.stage = .rom) ∧
    (s.fatal = false) ∧ (s.power.dev ≠ .off) ∧ (s.pins.heldReset = false) ∧ (s.pins.thermTrip = false) ∧
    (s.power.tj < 100) ∧ (s.trust.mrCount.getD 0 0 = 0)) (s.romStart straps (media.any fun m => m.source == 1 && m.present)))
    ([])) ({ bootSel := 5, hp0Bif := 0, hp1Bif := 0 })) (State.reset.onFuses fun f => { f with lcLog := [5] })) ∧
    ((fun (s : State) => (fun (straps : Straps) => (fun (media : List Medium) => (s.boot.stage = .rom) ∧
    (s.fatal = false) ∧ (s.power.dev ≠ .off) ∧ (s.pins.heldReset = false) ∧ (s.pins.thermTrip = false) ∧
    (100 ≤ s.power.tj)) ([])) ({ bootSel := 0, hp0Bif := 0, hp1Bif := 0 })) (State.reset.onPower fun p => { p with tj := 100 })) ∧
    ((fun (s : State) => (fun (straps : Straps) => (fun (media : List Medium) => (s.boot.stage = .rom) ∧
    (s.fatal = false) ∧ (s.power.dev ≠ .off) ∧ (s.pins.heldReset = false) ∧ (s.pins.thermTrip = false) ∧
    (s.power.tj < 100) ∧ (s.trust.mrCount.getD 0 0 ≠ 0) ∧ (s.pins.sysclk = true)) ([])) ({ bootSel := 0, hp0Bif := 0, hp1Bif := 0 }))
    ((State.reset.onTrust fun t => { t with lc := 3, mrCount := [1, 0, 0, 0] }))) ∧
    ((fun (s : State) => (fun (x : Nat) => (s.fatal = false) ∧ ((s.boot.stage = .rom ∧ s.trust.mrCount.getD 0 0 ≠ 0) ∨ s.boot.stage = .buckram) ∧
    (x < 2) ∧ (x ∉ s.boot.probed) ∧ (x ∈ s.bootOrder) ∧ (s.boot.probeFrom + (if x = 0 then 1000000 else 100000000) ≤ s.time.osc))
    (1)) ((atFt 100000000 (State.reset.onTrust fun t => { t with lc := 3, mrCount := [1, 0, 0, 0] })).onBoot fun b => { b with probed := [] })) ∧
    ((fun (s : State) => (fun (x : Nat) => (s.fatal = false) ∧ ((s.boot.stage = .rom ∧ s.trust.mrCount.getD 0 0 ≠ 0) ∨ s.boot.stage = .buckram) ∧
    (x < 2) ∧ (x ∉ s.boot.probed) ∧ (x ∈ s.bootOrder) ∧ (s.boot.probeFrom + (if x = 0 then 1000000 else 100000000) ≤ s.time.osc))
    (0)) ((atFt 100000000 (State.reset.onTrust fun t => { t with lc := 3, mrCount := [1, 0, 0, 0] })).onBoot fun b => { b with probed := [] })) ∧
    ((fun (s : State) => (fun (media : List Medium) => (s.fatal = false) ∧ (s.boot.stage = .buckram) ∧
    (s.dram.done = true) ∧ (s.pins.mainPwrOk = true) ∧ (s.power.dev = .run) ∧ ((List.range 4).find? s.tileTrained = none))
    ([])) (((State.reset.onBoot fun b => { b with stage := .buckram }).onDram fun d => { d with done := true }).onPower fun p => { p with dev := .run })) ∧
    ((fun (s : State) => (fun (media : List Medium) => (((List.range 4).find? s.tileTrained).any fun (t : Nat) => decide ((fun (u : State) => (s.fatal = false) ∧
    (s.boot.stage = .buckram) ∧ (s.dram.done = true) ∧ (s.pins.mainPwrOk = true) ∧ (s.power.dev = .run) ∧
    ((List.range 4).find? s.tileTrained = some t)) ((s.placeRegions t).onBoot (fun z => { z with codeRegion := 0, refused := false })))) = true) ([]))
    ((((up.onBoot fun b => { b with stage := .buckram, left := [0, 1] }).onPins fun p => { p with mainPwrOk := true }).onPower fun p => { p with dev := .run }))) ∧
    ((fun (s : State) => (fun (src : Nat) => (fun (till : Nat) => (fun (sf : Bool) => (s.boot.stage = .push src till sf) ∧
    (s.fatal = false) ∧ (till ≤ s.ft)) (true)) (0)) (3)) (State.reset.onBoot fun b => { b with stage := .push 3 0 true })) ∧
    ((fun (s : State) => (fun (src : Nat) => (fun (till : Nat) => (fun (sf : Bool) => (s.boot.stage = .push src till sf) ∧
    (s.fatal = false) ∧ (till ≤ s.ft)) (false)) (0)) (3)) (State.reset.onBoot fun b => { b with stage := .push 3 0 false })) := by
  refine ⟨?_, ?_, ?_, ?_, ?_, ?_, ?_, ?_, ?_, ?_⟩ <;> decide +kernel

/-- Clauses 1, 1, 2, 2, 3, 4, 5 of DeviceResets. -/
theorem witness_deviceResets :
    ((fun (s : State) => (fun (c : Cmd) => (fun (who : Caller) => (fun (env : BkEnv) => (s.bkAccepts 0x0105 c who env false true false = true))
    ({ mediaOk := true, rpmbOk := true, noiseOk := true, pb := c.pb })) (.management)) (m0 0xFFFFFFFF))
    (up)) ∧
    ((fun (s : State) => (fun (c : Cmd) => (fun (who : Caller) => (fun (env : BkEnv) => (s.bkAccepts 0x0105 c who env false true false = true))
    ({ mediaOk := true, rpmbOk := true, noiseOk := true, pb := c.pb })) (.management)) (m0 0xFFFFFFFF))
    (up.onPins fun p => { p with resetArmed := some (3, true), heldReset := false })) ∧
    ((fun (s : State) => (fun (straps : Straps) => (fun (t : Nat) => (s.pins.resetArmed = some (t, false)) ∧
    (s.dueAt t s.onRebalance = true)) (0)) ({ bootSel := 0, hp0Bif := 0, hp1Bif := 0 })) (up.onPins fun p => { p with resetArmed := some (0, false), heldReset := false })) ∧
    ((fun (s : State) => (fun (straps : Straps) => (fun (t : Nat) => (s.pins.resetArmed = some (t, false)) ∧
    (s.dueAt t s.onRebalance = true)) (0)) ({ bootSel := 0, hp0Bif := 0, hp1Bif := 0 })) ((up.onPins fun p => { p with resetArmed := some (0, false), heldReset := false }).onPower fun p => { p with tj := 100 })) ∧
    ((fun (s : State) => (fun (straps : Straps) => (fun (tj : Nat) => ((s.pins.resetArmed).any fun (r : Nat × Bool) => decide ((s.pins.heldReset = true) ∧
    (s.pins.resetArmed = some r) ∧ (tj < 100))) = true) (99)) ({ bootSel := 0, hp0Bif := 0, hp1Bif := 0 }))
    (up.onPins fun p => { p with resetArmed := some (0, true), heldReset := true })) ∧
    ((fun (s : State) => (fun (straps : Straps) => (fun (tj : Nat) => (s.pins.heldReset = true) ∧
    (s.pins.resetArmed = none) ∧ (tj < 100)) (99)) ({ bootSel := 0, hp0Bif := 0, hp1Bif := 0 }))
    (up.onPins fun p => { p with heldReset := true })) ∧
    ((fun (s : State) => (fun (straps : Straps) => (fun (t : Nat) => (s.trust.resetAt = some t) ∧
    (s.dueAt t s.onRebalance = true)) (0)) ({ bootSel := 0, hp0Bif := 0, hp1Bif := 0 })) (up.onTrust fun t => { t with resetAt := some 0 })) := by
  refine ⟨?_, ?_, ?_, ?_, ?_, ?_, ?_⟩ <;> decide +kernel

/-- Clauses 1, 1, 1, 1, 2, 3, 4, 4, 5, 6, 6, 6, 7, 8, 9 of DebugAuthorisation. -/
theorem witness_debugAuthorisation :
    ((fun (s : State) => (fun (c : Cmd) => (fun (who : Caller) => (fun (env : BkEnv) => (fun (t : State) => (fun (p : Nat) => (fun (n : Nat) => (fun (b : Bytes) => (s.bkAccepts 0x0A02 c who env false true false = true) ∧
    (p < 4 ∨ (0x11 ≤ p ∧ p ≤ 0x15)) ∧ ((p < 4 → t.trust.level < p → t.otherCarrier c = false)))
    (dsn ++ toLe 8 t.ft ++ sliceZ (Config.random32 t.free) 0 32 ++ [byte p, byte t.trust.lc, byte t.trust.level, byte (b2n (c.src == .jtag))] ++ toLe 4 n ++ zeros 8))
    ((t.trust.challengeCount + 1) % 2 ^ 32)) (cmdByte c 16)) (s.served 0x0A02 c)) ({ mediaOk := true, rpmbOk := true, noiseOk := true, pb := c.pb }))
    (.management)) (m1 0xFFFFFFFF 16 0)) (up)) ∧
    ((fun (s : State) => (fun (c : Cmd) => (fun (who : Caller) => (fun (env : BkEnv) => (fun (t : State) => (fun (p : Nat) => (fun (n : Nat) => (fun (b : Bytes) => (s.bkAccepts 0x0A02 c who env false true false = true) ∧
    (p < 4 ∨ (0x11 ≤ p ∧ p ≤ 0x15)) ∧ ((p < 4 → t.trust.level < p → t.otherCarrier c = false)))
    (dsn ++ toLe 8 t.ft ++ sliceZ (Config.random32 t.free) 0 32 ++ [byte p, byte t.trust.lc, byte t.trust.level, byte (b2n (c.src == .jtag))] ++ toLe 4 n ++ zeros 8))
    ((t.trust.challengeCount + 1) % 2 ^ 32)) (cmdByte c 16)) (s.served 0x0A02 c)) ({ mediaOk := true, rpmbOk := true, noiseOk := true, pb := c.pb }))
    (.management)) (m1 0xFFFFFFFF 16 3)) (up)) ∧
    ((fun (s : State) => (fun (c : Cmd) => (fun (who : Caller) => (fun (env : BkEnv) => (fun (t : State) => (fun (p : Nat) => (fun (n : Nat) => (fun (b : Bytes) => (s.bkAccepts 0x0A02 c who env false true false = true) ∧
    (p < 4 ∨ (0x11 ≤ p ∧ p ≤ 0x15)) ∧ ((p < 4 → t.trust.level < p → t.otherCarrier c = false)))
    (dsn ++ toLe 8 t.ft ++ sliceZ (Config.random32 t.free) 0 32 ++ [byte p, byte t.trust.lc, byte t.trust.level, byte (b2n (c.src == .jtag))] ++ toLe 4 n ++ zeros 8))
    ((t.trust.challengeCount + 1) % 2 ^ 32)) (cmdByte c 16)) (s.served 0x0A02 c)) ({ mediaOk := true, rpmbOk := true, noiseOk := true, pb := c.pb }))
    (.management)) (m1 0xFFFFFFFF 16 17)) (up)) ∧
    ((fun (s : State) => (fun (c : Cmd) => (fun (who : Caller) => (fun (env : BkEnv) => (fun (t : State) => (fun (p : Nat) => (fun (n : Nat) => (fun (b : Bytes) => (s.bkAccepts 0x0A02 c who env false true false = true) ∧
    (p < 4 ∨ (0x11 ≤ p ∧ p ≤ 0x15)) ∧ ((p < 4 → t.trust.level < p → t.otherCarrier c = false)))
    (dsn ++ toLe 8 t.ft ++ sliceZ (Config.random32 t.free) 0 32 ++ [byte p, byte t.trust.lc, byte t.trust.level, byte (b2n (c.src == .jtag))] ++ toLe 4 n ++ zeros 8))
    ((t.trust.challengeCount + 1) % 2 ^ 32)) (cmdByte c 16)) (s.served 0x0A02 c)) ({ mediaOk := true, rpmbOk := true, noiseOk := true, pb := c.pb }))
    (.management)) (m1 0xFFFFFFFF 16 21)) (up)) ∧
    ((fun (s : State) => (fun (c : Cmd) => (fun (who : Caller) => (fun (env : BkEnv) => (s.bkAccepts 0x0A02 c who env false true false = true) ∧
    (cmdByte c 16 < 4) ∧ ((s.served 0x0A02 c).trust.level < cmdByte c 16) ∧ ((s.served 0x0A02 c).otherCarrier c = true))
    ({ mediaOk := true, rpmbOk := true, noiseOk := true, pb := c.pb })) (.management)) (m1 0xFFFFFFFF 16 3))
    (up.onTrust fun t => { t with session := true, level := 2, carrierJtag := true })) ∧
    ((fun (s : State) => (fun (c : Cmd) => (fun (who : Caller) => (fun (env : BkEnv) => (s.bkAccepts 0x0A03 c who env false (c.pbLen == 3088) false = true))
    ({ mediaOk := true, rpmbOk := true, noiseOk := true, pb := c.pb })) (.management)) (mc 0xFFFFFFFF [] (zeros 3088)))
    (up)) ∧
    ((fun (s : State) => (fun (lv : Nat) => (fun (a : Nat) => (fun (dur : Nat) => (fun (c : Cmd) => (fun (u : State) => (s.trust.levelPend = some (lv, c, a, dur)) ∧
    (s.fatal = false) ∧ (s.dueAt (nextFrame a) s.onFrame = true)) (s.onTrust (fun x => { x with levelPend := none, session := true, carrierJtag := c.src == .jtag, sessionEnd := if dur = 0 then none else some (s.frameFt + dur * 1000000000) })))
    (m0 0)) (60)) (1023)) (1)) (atFt 1024 (up.onTrust fun t => { t with levelPend := some (1, m0 0, 1023, 60) }))) ∧
    ((fun (s : State) => (fun (lv : Nat) => (fun (a : Nat) => (fun (dur : Nat) => (fun (c : Cmd) => (fun (u : State) => (s.trust.levelPend = some (lv, c, a, dur)) ∧
    (s.fatal = false) ∧ (s.dueAt (nextFrame a) s.onFrame = true)) (s.onTrust (fun x => { x with levelPend := none, session := true, carrierJtag := c.src == .jtag, sessionEnd := if dur = 0 then none else some (s.frameFt + dur * 1000000000) })))
    (m0 0)) (60)) (1023)) (2)) (atFt 1024 (up.onTrust fun t => { t with levelPend := some (2, m0 0, 1023, 60) }))) ∧
    ((fun (s : State) => (fun (t : Nat) => (s.trust.sessionEnd = some t) ∧ (s.trust.session = true) ∧
    (s.dueAt (nextFrame t) s.onFrame = true)) (1023)) (atFt 1024 (up.onTrust fun t => { t with session := true, level := 2, sessionEnd := some 1023 }))) ∧
    ((fun (s : State) => (fun (c : Cmd) => (fun (who : Caller) => (fun (env : BkEnv) => (fun (u : State) => (s.bkAccepts 0x0A04 c who env false true false = true))
    ((if (s.served 0x0A04 c).trust.session = true ∧ (s.served 0x0A04 c).otherCarrier c = false then (s.served 0x0A04 c).endSession else s.served 0x0A04 c)))
    ({ mediaOk := true, rpmbOk := true, noiseOk := true, pb := c.pb })) (.management)) (m0 0xFFFFFFFF))
    (up.onTrust fun t => { t with session := true, level := 2, carrierJtag := false })) ∧
    ((fun (s : State) => (fun (c : Cmd) => (fun (who : Caller) => (fun (env : BkEnv) => (fun (u : State) => (s.bkAccepts 0x0A04 c who env false true false = true))
    ((if (s.served 0x0A04 c).trust.session = true ∧ (s.served 0x0A04 c).otherCarrier c = false then (s.served 0x0A04 c).endSession else s.served 0x0A04 c)))
    ({ mediaOk := true, rpmbOk := true, noiseOk := true, pb := c.pb })) (.management)) (m0 0xFFFFFFFF))
    (up.onTrust fun t => { t with session := true, level := 2, carrierJtag := true })) ∧
    ((fun (s : State) => (fun (c : Cmd) => (fun (who : Caller) => (fun (env : BkEnv) => (fun (u : State) => (s.bkAccepts 0x0A04 c who env false true false = true))
    ((if (s.served 0x0A04 c).trust.session = true ∧ (s.served 0x0A04 c).otherCarrier c = false then (s.served 0x0A04 c).endSession else s.served 0x0A04 c)))
    ({ mediaOk := true, rpmbOk := true, noiseOk := true, pb := c.pb })) (.management)) (m0 0xFFFFFFFF))
    (up)) ∧
    ((fun (s : State) => (fun (c : Cmd) => (c.src = .jtag)) ({ m0 0xFFFFFFFF with src := .jtag }))
    (up)) ∧
    ((fun (s : State) => (fun (c : Cmd) => (c.src = .jtag)) ({ m0 0xFFFFFFFF with src := .jtag }))
    (up)) ∧
    ((fun (s : State) => (fun (c : Cmd) => ((s.callerOf c.src).any fun (who : Caller) => decide ((fun (env : BkEnv) => (c.src = .jtag) ∧
    (s.bkAccepts 0x0A04 c who env false true false = true) ∧ ((s.served 0x0A04 c).trust.session = true) ∧
    ((s.served 0x0A04 c).otherCarrier c = false)) ({ mediaOk := true, rpmbOk := true, noiseOk := true, pb := c.pb }))) = true) ({ m0 0xFFFFFFFF with src := .jtag }))
    (up.onTrust fun t => { t with session := true, level := 2, carrierJtag := true })) := by
  refine ⟨?_, ?_, ?_, ?_, ?_, ?_, ?_, ?_, ?_, ?_, ?_, ?_, ?_, ?_, ?_⟩ <;> decide +kernel

/-- Clauses 1, 2, 3, 4, 5, 6, 7 of LifecycleKeysAndAttestation. -/
theorem witness_lifecycleKeysAndAttestation :
    ((fun (s : State) => (fun (c : Cmd) => (fun (who : Caller) => (fun (env : BkEnv) => (((s.served 0x0A01 c).authCheck c true).any fun (e : Nat) => decide ((s.bkAccepts 0x0A01 c who env false (c.pbLen == 3088) false = true) ∧
    ((s.served 0x0A01 c).authCheck c true = some e))) = true) ({ mediaOk := true, rpmbOk := true, noiseOk := true, pb := c.pb }))
    (.management)) (mc 0xFFFFFFFF [] (zeros 3088))) (up)) ∧
    ((fun (s : State) => (fun (c : Cmd) => (fun (who : Caller) => (fun (env : BkEnv) => (fun (t : State) => (fun (x : State × Bool) => (fun (v : State) => (s.bkAccepts 0x0A01 c who env false (c.pbLen == 3088) false = true))
    ((x.1.onFuses fun f => { f with lcLog := f.lcLog ++ [authGrant c.pb] }).extendMr3)) (((t.onTrust fun y => { y with challenge := none }).onFuses (burnFlags c.pb ((unsealOrk t.trust.fuses c.pb).getD []))).transitionEffects t.trust.lc (authGrant c.pb) c.pb env.noiseOk))
    (s.served 0x0A01 c)) ({ mediaOk := true, rpmbOk := true, noiseOk := true, pb := c.pb })) (.management))
    (mc 0xFFFFFFFF [] (zeros 3088))) (up)) ∧
    ((fun (s : State) => (fun (c : Cmd) => (fun (who : Caller) => (fun (env : BkEnv) => (((s.served 0x0A07 c).keyObject (cmdByte c 16) c.target.toNat).any fun (o : Owner) => decide ((fun (t : State) => (s.bkAccepts 0x0A07 c who env false (keyLenOk c) false (keyTargetOk (cmdByte c 16) c.target.toNat) ((s.served 0x0A07 c).keyFound c who) = true) ∧
    (keyKindOk c = true) ∧ (t.keyObject (cmdByte c 16) c.target.toNat = some o) ∧ ((cmdByte c 16 = 1 → t.cy.vidKeys.has c.target.toNat = false)))
    (s.served 0x0A07 c))) = true) ({ mediaOk := true, rpmbOk := true, noiseOk := true, pb := c.pb }))
    (.fn pf)) (keyCmd)) (pfRing 0x0A07 keyCmd (up.onKrm fun k => { k with conns := [(0xFFFFF, newConn (m0 0) pfO 0 0 0)] }))) ∧
    ((fun (s : State) => (fun (c : Cmd) => (fun (who : Caller) => (fun (env : BkEnv) => (((s.served 0x0A07 c).keyObject 1 c.target.toNat).any fun (o : Owner) => decide ((s.bkAccepts 0x0A07 c who env false (keyLenOk c) false (keyTargetOk (cmdByte c 16) c.target.toNat) ((s.served 0x0A07 c).keyFound c who) = true) ∧
    (keyKindOk c = true) ∧ (cmdByte c 16 = 1) ∧ ((s.served 0x0A07 c).keyObject 1 c.target.toNat = some o) ∧
    ((s.served 0x0A07 c).cy.vidKeys.has c.target.toNat = true))) = true) ({ mediaOk := true, rpmbOk := true, noiseOk := true, pb := c.pb }))
    (.fn pf)) (volKey)) (pfRing 0x0A07 volKey ((volUp vol up).onCy fun y => { y with vidKeys := [(9, zeros 64)] }))) ∧
    ((fun (s : State) => (fun (c : Cmd) => (fun (who : Caller) => (fun (env : BkEnv) => (s.bkAccepts 0x0A05 c who env false (c.pbLen == 0 || c.pbLen == 32) false = true) ∧
    (c.pbLen = 0)) ({ mediaOk := true, rpmbOk := true, noiseOk := true, pb := c.pb })) (.management))
    (m0 0xFFFFFFFF)) (up)) ∧
    ((fun (s : State) => (fun (c : Cmd) => (fun (who : Caller) => (fun (env : BkEnv) => (fun (r : State × Option Answer) => ((r.2).any fun (a : Answer) => decide ((s.bkAccepts 0x0A05 c who env false (c.pbLen == 0 || c.pbLen == 32) false = true) ∧
    (c.pbLen = 32) ∧ (cmdLe c 16 5 = 0) ∧ (r = (s.served 0x0A05 c).signReport c who env.rpmbOk) ∧
    (r.2 = some a))) = true) ((s.served 0x0A05 c).signReport c who env.rpmbOk)) ({ mediaOk := true, rpmbOk := true, noiseOk := true, pb := c.pb }))
    (.management)) (mc 0xFFFFFFFF [] (zeros 32))) (up)) ∧
    ((fun (s : State) => (fun (c : Cmd) => (fun (who : Caller) => (fun (env : BkEnv) => (s.bkAccepts 0x0E06 c who env false true false = true))
    ({ mediaOk := true, rpmbOk := true, noiseOk := true, pb := c.pb })) (.management)) (mc 7 [] []))
    (up.onTrust fun t => { t with lc := 2 })) := by
  refine ⟨?_, ?_, ?_, ?_, ?_, ?_, ?_⟩ <;> decide +kernel

/-- Clauses 1, 2, 3, 4, 5, 5 of IdentityHealthAndDiagnostics. -/
theorem witness_identityHealthAndDiagnostics :
    ((fun (s : State) => (fun (c : Cmd) => (fun (who : Caller) => (s.accepts 0x0101 c who false true false = true))
    (.management)) (m0 0xFFFFFFFF)) (up)) ∧
    ((fun (s : State) => (fun (c : Cmd) => (fun (who : Caller) => (s.accepts 0x0102 c who false true false = true))
    (.management)) (m0 0xFFFFFFFF)) (up)) ∧
    ((fun (s : State) => (fun (c : Cmd) => (fun (who : Caller) => (s.accepts 0x0E01 c who false true false = true))
    (.management)) (m0 0xFFFFFFFF)) (up)) ∧
    ((fun (s : State) => (fun (c : Cmd) => (fun (who : Caller) => (s.accepts 0x0E02 c who false true false = true))
    (.management)) (m0 0xFFFFFFFF)) (up)) ∧
    ((fun (s : State) => (fun (c : Cmd) => (fun (who : Caller) => (s.accepts 0x0E03 c who false true false = true))
    (.management)) (m1 0xFFFFFFFF 16 0)) (up)) ∧
    ((fun (s : State) => (fun (c : Cmd) => (fun (who : Caller) => (s.accepts 0x0E03 c who false true false = true))
    (.management)) (m0 0xFFFFFFFF)) (up.logRecord 33 [])) := by
  refine ⟨?_, ?_, ?_, ?_, ?_, ?_⟩ <;> decide +kernel

/-- Clauses 1, 1, 2, 3, 3, 4, 5, 5, 6, 6, 7, 7, 7, 7, 7, 7, 8, 8, 8, 8, 9 of CountersAreLatchedWhole. -/
theorem witness_countersAreLatchedWhole :
    ((fun (s : State) => (fun (c : Cmd) => (fun (who : Caller) => (s.accepts 0x0D01 c who (ctClassDenied c who s) true false (ctForm c) ((s.taken 0x0D01 c).ctFound c who) = true) ∧
    ((s.taken 0x0D01 c).ctDenied who (ctKind c.target.toNat) (ctIndex c.target.toNat) = none) ∧
    (ctKind c.target.toNat ≠ 24)) (.management)) (m0 0)) (up)) ∧
    ((fun (s : State) => (fun (c : Cmd) => (fun (who : Caller) => (s.accepts 0x0D01 c who (ctClassDenied c who s) true false (ctForm c) ((s.taken 0x0D01 c).ctFound c who) = true) ∧
    ((s.taken 0x0D01 c).ctDenied who (ctKind c.target.toNat) (ctIndex c.target.toNat) = none) ∧
    (ctKind c.target.toNat ≠ 24)) (.management)) (m0 1207959552)) (up)) ∧
    ((fun (s : State) => (fun (c : Cmd) => (fun (who : Caller) => (((s.taken 0x0D01 c).ctDenied who (ctKind c.target.toNat) (ctIndex c.target.toNat)).any fun (e : Nat) => decide ((s.accepts 0x0D01 c who (ctClassDenied c who s) true false (ctForm c) ((s.taken 0x0D01 c).ctFound c who) = true) ∧
    ((s.taken 0x0D01 c).ctDenied who (ctKind c.target.toNat) (ctIndex c.target.toNat) = some e))) = true) (.management))
    (m0 2684354560)) (up)) ∧
    ((fun (s : State) => (fun (c : Cmd) => (fun (who : Caller) => (s.accepts 0x0D01 c who (ctClassDenied c who s) true false (ctForm c) ((s.taken 0x0D01 c).ctFound c who) = true) ∧
    ((s.taken 0x0D01 c).ctDenied who (ctKind c.target.toNat) (ctIndex c.target.toNat) = none) ∧
    (ctKind c.target.toNat = 24)) (.management)) (m0 3221229567)) (up.onCt fun x => { x with dumps := [(4095, { owner := .management, block := 0, period := 1024, phase := 0, area := none, latched := none, seq := 0, skipped := false, latchedSkip := false, lastRecord := none, fromFt := 0, oneShotDone := false })] })) ∧
    ((fun (s : State) => (fun (c : Cmd) => (fun (who : Caller) => (s.accepts 0x0D01 c who (ctClassDenied c who s) true false (ctForm c) ((s.taken 0x0D01 c).ctFound c who) = true) ∧
    ((s.taken 0x0D01 c).ctDenied who (ctKind c.target.toNat) (ctIndex c.target.toNat) = none) ∧
    (ctKind c.target.toNat = 24)) (.management)) (m0 3221229567)) ((up.onCt fun x => { x with dumps := [(4095, { owner := .management, block := 0, period := 1024, phase := 0, area := none, latched := none, seq := 0, skipped := false, latchedSkip := false, lastRecord := none, fromFt := 0, oneShotDone := false })] }).onDump 4095 fun x => { x with lastRecord := some (zeros 64) })) ∧
    ((fun (s : State) => (fun (kind : Nat) => (fun (idx : Nat) => (kind < 10) ∧ (kind ≠ 1)) (0))
    (9)) (up)) ∧
    ((fun (s : State) => (fun (kind : Nat) => (fun (idx : Nat) => (fun (w : Nat) => (w < 128))
    (127)) (0)) (2)) (up)) ∧
    ((fun (s : State) => (fun (kind : Nat) => (fun (idx : Nat) => (fun (w : Nat) => (w < 128))
    (127)) (0)) (2)) ((up.onCt fun x => { x with words := [(128 * (2 * 2 ^ 27) + 127, 2 ^ 48 - 1)] }))) ∧
    ((fun (s : State) => (fun (c : Cmd) => (fun (who : Caller) => (s.accepts 0x0D04 c who false true true = true))
    (.fn pf)) (r1 5 16 1)) (pfRing 0x0D04 (r1 5 16 1) (withSlice up))) ∧
    ((fun (s : State) => (fun (c : Cmd) => (fun (who : Caller) => (s.accepts 0x0D04 c who false true true = true))
    (.fn pf)) (r1 5 16 2)) (pfRing 0x0D04 (r1 5 16 2) (withSlice up))) ∧
    ((fun (s : State) => (fun (c : Cmd) => (fun (who : Caller) => (s.accepts 0x0D05 c who false true false = true) ∧
    (cmdByte c 17 = 0 ∨ (8 ≤ cmdByte c 17 ∧ cmdByte c 17 ≤ 24))) (.management)) (mc 0 [(16, [0, 0])] []))
    (up)) ∧
    ((fun (s : State) => (fun (c : Cmd) => (fun (who : Caller) => (s.accepts 0x0D05 c who false true false = true) ∧
    (cmdByte c 17 = 0 ∨ (8 ≤ cmdByte c 17 ∧ cmdByte c 17 ≤ 24))) (.management)) (mc 0 [(16, [1, 0])] []))
    (up)) ∧
    ((fun (s : State) => (fun (c : Cmd) => (fun (who : Caller) => (s.accepts 0x0D05 c who false true false = true) ∧
    (cmdByte c 17 = 0 ∨ (8 ≤ cmdByte c 17 ∧ cmdByte c 17 ≤ 24))) (.management)) (mc 0 [(16, [0, 8])] []))
    (up)) ∧
    ((fun (s : State) => (fun (c : Cmd) => (fun (who : Caller) => (s.accepts 0x0D05 c who false true false = true) ∧
    (cmdByte c 17 = 0 ∨ (8 ≤ cmdByte c 17 ∧ cmdByte c 17 ≤ 24))) (.management)) (mc 0 [(16, [1, 8])] []))
    (up)) ∧
    ((fun (s : State) => (fun (c : Cmd) => (fun (who : Caller) => (s.accepts 0x0D05 c who false true false = true) ∧
    (cmdByte c 17 = 0 ∨ (8 ≤ cmdByte c 17 ∧ cmdByte c 17 ≤ 24))) (.management)) (mc 0 [(16, [0, 24])] []))
    (up)) ∧
    ((fun (s : State) => (fun (c : Cmd) => (fun (who : Caller) => (s.accepts 0x0D05 c who false true false = true) ∧
    (cmdByte c 17 = 0 ∨ (8 ≤ cmdByte c 17 ∧ cmdByte c 17 ≤ 24))) (.management)) (mc 0 [(16, [1, 24])] []))
    (up)) ∧
    ((fun (s : State) => (fun (c : Cmd) => (fun (who : Caller) => (s.accepts 0x0D05 c who false true false = true) ∧
    (cmdByte c 17 ≠ 0) ∧ (cmdByte c 17 < 8 ∨ 24 < cmdByte c 17)) (.management)) (mc 0 [(16, [0, 7])] []))
    (up)) ∧
    ((fun (s : State) => (fun (c : Cmd) => (fun (who : Caller) => (s.accepts 0x0D05 c who false true false = true) ∧
    (cmdByte c 17 ≠ 0) ∧ (cmdByte c 17 < 8 ∨ 24 < cmdByte c 17)) (.management)) (mc 0 [(16, [1, 7])] []))
    (up)) ∧
    ((fun (s : State) => (fun (c : Cmd) => (fun (who : Caller) => (s.accepts 0x0D05 c who false true false = true) ∧
    (cmdByte c 17 ≠ 0) ∧ (cmdByte c 17 < 8 ∨ 24 < cmdByte c 17)) (.management)) (mc 0 [(16, [0, 25])] []))
    (up)) ∧
    ((fun (s : State) => (fun (c : Cmd) => (fun (who : Caller) => (s.accepts 0x0D05 c who false true false = true) ∧
    (cmdByte c 17 ≠ 0) ∧ (cmdByte c 17 < 8 ∨ 24 < cmdByte c 17)) (.management)) (mc 0 [(16, [1, 25])] []))
    (up)) ∧
    ((fun (s0 : State) => (fun (tile : Nat) => (fun (s : State) => (s.fatal = false)) (s0.seenFrom tile))
    (3)) (atFt 1024 (up.onCores fun x => { x with samplePend := [(3, true, 8, 1023, m0 3)] }))) := by
  refine ⟨?_, ?_, ?_, ?_, ?_, ?_, ?_, ?_, ?_, ?_, ?_, ?_, ?_, ?_, ?_, ?_, ?_, ?_, ?_, ?_, ?_⟩ <;> decide +kernel

/-- Clauses 1, 1, 2, 2, 3, 3, 4, 5, 5, 6 of DumpsAreArmedLatchedAndWritten. -/
theorem witness_dumpsAreArmedLatchedAndWritten :
    ((fun (s : State) => (fun (c : Cmd) => (fun (who : Caller) => (fun (n : Nat) => (fun (u : State) => (s.accepts 0x0D02 c who (ctClassDenied c who s) true false (ctForm c && ctKind c.target.toNat != 24) ((s.taken 0x0D02 c).ctFound c who) = true) ∧
    (u.ctDenied who (ctKind c.target.toNat) (ctIndex c.target.toNat) = none) ∧ ((cmdLe c 24 8 = 0 ∨ (100000 ≤ cmdLe c 24 8 ∧
    cmdLe c 24 8 ≤ 10 ^ 15 ∧ cmdLe c 16 8 < cmdLe c 24 8))) ∧ ((cmdRbuf c = true → slotSize (ctKind c.target.toNat) (ctIndex c.target.toNat) ≤ (cmdRbufDesc c).len)) ∧
    (chooseFree u.freeVal 4096 u.ct.dumps.length u.ct.dumps.has = some n)) (s.taken 0x0D02 c))
    (s.freeVal % 4096)) (.management)) (m0 0)) (up)) ∧
    ((fun (s : State) => (fun (c : Cmd) => (fun (who : Caller) => (fun (n : Nat) => (fun (u : State) => (s.accepts 0x0D02 c who (ctClassDenied c who s) true false (ctForm c && ctKind c.target.toNat != 24) ((s.taken 0x0D02 c).ctFound c who) = true) ∧
    (u.ctDenied who (ctKind c.target.toNat) (ctIndex c.target.toNat) = none) ∧ ((cmdLe c 24 8 = 0 ∨ (100000 ≤ cmdLe c 24 8 ∧
    cmdLe c 24 8 ≤ 10 ^ 15 ∧ cmdLe c 16 8 < cmdLe c 24 8))) ∧ ((cmdRbuf c = true → slotSize (ctKind c.target.toNat) (ctIndex c.target.toNat) ≤ (cmdRbufDesc c).len)) ∧
    (chooseFree u.freeVal 4096 u.ct.dumps.length u.ct.dumps.has = some n)) (s.taken 0x0D02 c))
    (s.freeVal % 4096)) (.management)) (mc 0 [(16, toLe 8 99999), (24, toLe 8 100000)] [])) (up)) ∧
    ((fun (s0 : State) => (fun (n : Nat) => (fun (s : State) => (fun (t : Nat) => ((s.ct.dumps.get n).any fun (d : Dump) => decide ((fun (u : State) => (s.ct.dumps.get n = some d) ∧
    (s.fatal = false) ∧ (d.latched = none) ∧ ((d.period = 0 ∧ d.oneShotDone = false ∧ d.phase ≤ s.ft ∧
    t = s.ft) ∨ (d.period ≠ 0 ∧ s.onGrid d.period d.phase = true ∧ t = s.gridFt d.period d.phase ∧
    d.fromFt ≤ t))) (s.onDump n (fun x => { x with fromFt := t + 1, oneShotDone := d.period == 0 })))) = true) (s.ft))
    (s0.seenFrom (s0.dumpDie n))) (4095)) (up.onCt fun x => { x with dumps := [(4095, { owner := .management, block := 0, period := 0, phase := 0, area := none, latched := none, seq := 0, skipped := false, latchedSkip := false, lastRecord := none, fromFt := 0, oneShotDone := false })] })) ∧
    ((fun (s0 : State) => (fun (n : Nat) => (fun (s : State) => (fun (t : Nat) => ((s.ct.dumps.get n).any fun (d : Dump) => decide ((fun (u : State) => (s.ct.dumps.get n = some d) ∧
    (s.fatal = false) ∧ (d.latched = none) ∧ ((d.period = 0 ∧ d.oneShotDone = false ∧ d.phase ≤ s.ft ∧
    t = s.ft) ∨ (d.period ≠ 0 ∧ s.onGrid d.period d.phase = true ∧ t = s.gridFt d.period d.phase ∧
    d.fromFt ≤ t))) (s.onDump n (fun x => { x with fromFt := t + 1, oneShotDone := d.period == 0 })))) = true) (s.ft))
    (s0.seenFrom (s0.dumpDie n))) (4095)) (up.onCt fun x => { x with dumps := [(4095, { owner := .management, block := 0, period := 1024, phase := 0, area := none, latched := none, seq := 0, skipped := false, latchedSkip := false, lastRecord := none, fromFt := 0, oneShotDone := false })] })) ∧
    ((fun (s0 : State) => (fun (n : Nat) => (fun (s : State) => (fun (t : Nat) => ((s.ct.dumps.get n).any fun (d : Dump) => decide ((s.ct.dumps.get n = some d) ∧
    (s.fatal = false) ∧ (d.latched ≠ none) ∧ ((d.period = 0 ∧ d.oneShotDone = false ∧ d.phase ≤ s.ft ∧
    t = s.ft) ∨ (d.period ≠ 0 ∧ s.onGrid d.period d.phase = true ∧ t = s.gridFt d.period d.phase ∧
    d.fromFt ≤ t)))) = true) (s.ft)) (s0.seenFrom (s0.dumpDie n))) (4095)) (up.onCt fun x => { x with dumps := [(4095, { owner := .management, block := 0, period := 0, phase := 0, area := none, latched := some (0, 0, []), seq := 0, skipped := false, latchedSkip := false, lastRecord := none, fromFt := 0, oneShotDone := false })] })) ∧
    ((fun (s0 : State) => (fun (n : Nat) => (fun (s : State) => (fun (t : Nat) => ((s.ct.dumps.get n).any fun (d : Dump) => decide ((s.ct.dumps.get n = some d) ∧
    (s.fatal = false) ∧ (d.latched ≠ none) ∧ ((d.period = 0 ∧ d.oneShotDone = false ∧ d.phase ≤ s.ft ∧
    t = s.ft) ∨ (d.period ≠ 0 ∧ s.onGrid d.period d.phase = true ∧ t = s.gridFt d.period d.phase ∧
    d.fromFt ≤ t)))) = true) (s.ft)) (s0.seenFrom (s0.dumpDie n))) (4095)) (up.onCt fun x => { x with dumps := [(4095, { owner := .management, block := 0, period := 1024, phase := 0, area := none, latched := some (0, 0, []), seq := 0, skipped := false, latchedSkip := false, lastRecord := none, fromFt := 0, oneShotDone := false })] })) ∧
    ((fun (s : State) => (fun (n : Nat) => (fun (t : Nat) => (fun (fts : Nat) => (fun (l : List Nat) => ((s.ct.dumps.get n).any fun (d : Dump) => decide ((s.ct.dumps.get n = some d) ∧
    (s.fatal = false) ∧ (d.area = none) ∧ (d.latched = some (t, fts, l)) ∧ (s.ft ≤ t + 50000))) = true) ([]))
    (0)) (0)) (4095)) (atFt 50000 (up.onCt fun x => { x with dumps := [(4095, { owner := .management, block := 0, period := 0, phase := 0, area := none, latched := some (0, 0, []), seq := 0, skipped := false, latchedSkip := false, lastRecord := none, fromFt := 0, oneShotDone := false })] }))) ∧
    ((fun (s : State) => (fun (n : Nat) => (fun (t : Nat) => (fun (fts : Nat) => (fun (l : List Nat) => ((s.ct.dumps.get n).any fun (d : Dump) => decide ((fun (r : HostRef) => (fun (f : Frag) => (fun (late : Bool) => (fun (b : Bytes) => (fun (sz : Nat) => (fun (a : Nat) => (fun (u : State) => (s.ct.dumps.get n = some d) ∧
    (s.fatal = false) ∧ (d.area = some (r, f)) ∧ (d.latched = some (t, fts, l)) ∧ (s.ownerHeld d.owner.owner = false))
    (s.writeSlot d.owner.owner a b)) (f.addr + d.seq % max 1 (f.len / sz) * sz)) (slotSize (ctKind d.block) (ctIndex d.block)))
    (dumpBytes n d t fts l late)) (decide (t + 50000 < s.ft))) ({ addr := 0x80000, len := 4096, dev := false }))
    ({ fn := pf, pasid := none }))) = true) ([7])) (0)) (0)) (4095)) ((atFt 50000 (up.onCt fun x => { x with dumps := [(4095, { owner := .management, block := 0, period := 0, phase := 0, area := none, latched := some (0, 0, [7]), seq := 0, skipped := false, latchedSkip := false, lastRecord := none, fromFt := 0, oneShotDone := false })] })).onDump 4095 fun x => { x with owner := .fn pf, area := some ({ fn := pf, pasid := none }, { addr := 0x80000, len := 4096, dev := false }) })) ∧
    ((fun (s : State) => (fun (n : Nat) => (fun (t : Nat) => (fun (fts : Nat) => (fun (l : List Nat) => ((s.ct.dumps.get n).any fun (d : Dump) => decide ((fun (r : HostRef) => (fun (f : Frag) => (fun (late : Bool) => (fun (b : Bytes) => (fun (sz : Nat) => (fun (a : Nat) => (fun (u : State) => (s.ct.dumps.get n = some d) ∧
    (s.fatal = false) ∧ (d.area = some (r, f)) ∧ (d.latched = some (t, fts, l)) ∧ (s.ownerHeld d.owner.owner = false))
    (s.writeSlot d.owner.owner a b)) (f.addr + d.seq % max 1 (f.len / sz) * sz)) (slotSize (ctKind d.block) (ctIndex d.block)))
    (dumpBytes n d t fts l late)) (decide (t + 50000 < s.ft))) ({ addr := 0x80000, len := 4096, dev := false }))
    ({ fn := pf, pasid := none }))) = true) ([7])) (0)) (0)) (4095)) ((atFt 50001 (up.onCt fun x => { x with dumps := [(4095, { owner := .management, block := 0, period := 0, phase := 0, area := none, latched := some (0, 0, [7]), seq := 0, skipped := false, latchedSkip := false, lastRecord := none, fromFt := 0, oneShotDone := false })] })).onDump 4095 fun x => { x with owner := .fn pf, area := some ({ fn := pf, pasid := none }, { addr := 0x80000, len := 4096, dev := false }) })) ∧
    ((fun (s : State) => (fun (c : Cmd) => (fun (who : Caller) => (((doDumpLatch c.target.toNat (s.taken 0x0D03 c)).ct.dumps.get c.target.toNat).any fun (d : Dump) => decide ((s.accepts 0x0D03 c who false true false true (((s.taken 0x0D03 c).ct.dumps.get c.target.toNat).any (·.owner == who)) = true) ∧
    ((doDumpLatch c.target.toNat (s.taken 0x0D03 c)).ct.dumps.get c.target.toNat = some d) ∧ (d.owner = who))) = true) (.management))
    (m0 4095)) (up.onCt fun x => { x with dumps := [(4095, { owner := .management, block := 0, period := 0, phase := 0, area := none, latched := none, seq := 0, skipped := false, latchedSkip := false, lastRecord := none, fromFt := 0, oneShotDone := false })] })) := by
  refine ⟨?_, ?_, ?_, ?_, ?_, ?_, ?_, ?_, ?_, ?_⟩
  · refine And.intro ?_ (And.intro ?_ (And.intro ?_ (And.intro ?_ (?_)))) <;> first | decide +kernel | rfl | (intro a h; cases h; done) | (intro a h; cases h; decide +kernel) | exact Or.inr ⟨_, rfl, rfl⟩
  · refine And.intro ?_ (And.intro ?_ (And.intro ?_ (And.intro ?_ (?_)))) <;> first | decide +kernel | rfl | (intro a h; cases h; done) | (intro a h; cases h; decide +kernel) | exact Or.inr ⟨_, rfl, rfl⟩
  · decide +kernel
  · decide +kernel
  · decide +kernel
  · decide +kernel
  · decide +kernel
  · decide +kernel
  · decide +kernel
  · decide +kernel

/-- Clauses 1, 2, 3, 5 of EventRecordsAreDelivered. -/
theorem witness_eventRecordsAreDelivered :
    ((fun (s0 : State) => (fun (f : FnRef) => (fun (s : State) => ((s.fn f).any fun (x : FnSt) => decide (((s.openRec (.fn f)).any fun (r : OpenRec) => decide (((s.queue x.cqQid).any fun (q : Queue) => decide ((s.fn f = some x) ∧
    (s.openRec (.fn f) = some r) ∧ (s.queue x.cqQid = some q) ∧ (s.fatal = false) ∧ (x.cmdActive = true) ∧
    (s.dueAt (nextFrame r.ft) s.onFrame = true) ∧ (q.full = false) ∧ (q.held = []) ∧ (q.due = []) ∧
    (q.episode = false) ∧ (s.mastering f = true) ∧ (x.flrAt = none))) = true)) = true)) = true) (s0.seenFrom (6 + f.port)))
    (pf)) (((atFt 1024 up).onFn pf fun x => { x with cmdActive := true, cqQid := 2 }).onEv (fun e => { e with opened := [{ dest := .fn pf, source := 0, object := 5, count := 1, ft := 1023, detail := 0, sid := none }] }) |>.onQm fun m => { m with queues := [(2, runQ .cq pfO 0)] })) ∧
    ((fun (s : State) => ((s.ev.opened.find? (fun r => r.dest == .management && s.dieReports (sourceDie r.source))).any fun (r : OpenRec) => decide ((s.ev.opened.find? (fun r => r.dest == .management && s.dieReports (sourceDie r.source)) = some r) ∧
    (s.pins.sysRst = false) ∧ (bit s.pins.fault 51 = false) ∧ (s.dueAt (nextFrame r.ft) s.onFrame = true))) = true) ((atFt 1024 up).onEv fun e => { e with opened := [{ dest := .management, source := 0, object := 5, count := 1, ft := 1023, detail := 0, sid := none }] })) ∧
    ((fun (s : State) => (bit s.pins.fault 51 = true)) (up.onPins fun p => { p with fault := 2 ^ 51 })) ∧
    ((fun (s : State) => (fun (d : EvDest) => (fun (r : OpenRec) => (fun (detail : Nat) => (fun (sid : Option Nat) => (r ∈ s.ev.opened) ∧
    (r.dest = d)) (none)) (9)) ({ dest := .management, source := 0, object := 5, count := 1, ft := 1023, detail := 0, sid := none }))
    (.management)) (up.onEv fun e => { e with opened := [{ dest := .management, source := 0, object := 5, count := 1, ft := 1023, detail := 0, sid := none }] })) := by
  refine ⟨?_, ?_, ?_, ?_⟩ <;> decide +kernel

/-- Clauses 1, 1, 2, 3, 4, 5, 6, 7, 8, 9 of FabricTimeIsMeasured. -/
theorem witness_fabricTimeIsMeasured :
    ((fun (s : State) => (fun (v : W64) => (s.ftu.src = 1) ∧ ((∀ a, s.ftu.lastMeasAt = some a → a < v.toNat)))
    (0)) (ptp .acquiring)) ∧
    ((fun (s : State) => (fun (v : W64) => (s.ftu.src = 1) ∧ ((∀ a, s.ftu.lastMeasAt = some a → a < v.toNat)))
    (5)) ((ptp .locked).onFtu fun f => { f with lastMeasAt := some 4 })) ∧
    ((fun (s : State) => (fun (m : Int) => (fun (a : Int) => (fun (b : Int) => (s.ftu.state = .acquiring) ∧
    (s.ftu.pendStep = none) ∧ (m.natAbs < 65536000000) ∧ (s.ftu.lockCount = 7) ∧ (s.ftu.med1 = some a) ∧
    (s.ftu.med2 = some b) ∧ (m.natAbs ≤ s.ftu.thresh * 65536) ∧ (a.natAbs ≤ s.ftu.thresh * 65536) ∧
    (b.natAbs ≤ s.ftu.thresh * 65536)) (-1310720)) (0)) (1310720)) ((ptp .acquiring).onFtu fun f => { f with lockCount := 7, med1 := some 0, med2 := some (-1310720) })) ∧
    ((fun (s : State) => (fun (m : Int) => (s.ftu.state = .free) ∧ (s.ftu.pendStep = none) ∧ (m.natAbs < 65536000000))
    (65535999999)) (up)) ∧
    ((fun (s : State) => (fun (r : Nat) => (fun (t : Nat) => (s.pins.ppsSwap = some false) ∧ (s.ftu.src = 2) ∧
    (s.pins.clkIn = true) ∧ (s.pins.ppsFall = some t) ∧ (s.time.osc ≤ t + 1000001000) ∧ (s.ftu.ppsRef = some r) ∧
    (oneSecond r s.time.osc = true)) (0)) (1)) (((atFt 1000000000 up).onPins fun p => { p with ppsSwap := some false, ppsFall := some 0 }).onFtu fun f => { f with srcCfg := 2, ppsRef := some 1 })) ∧
    ((fun (s : State) => (fun (r : Nat) => (s.pins.ppsSwap = none) ∧ (s.pins.ppsRise = some r) ∧
    (r + 100 ≤ s.time.osc) ∧ (s.time.osc ≤ r + 400000000)) (0)) ((atFt 1024 up).onPins fun p => { p with ppsRise := some 0 })) ∧
    ((fun (s : State) => (s.onFrame = true) ∧ (s.pins.clkSwapDue = true)) ((atFt 1024 up).onPins fun p => { p with clkSwapDue := true })) ∧
    ((fun (s : State) => (s.onFrame = true) ∧ (s.ftu.src = 1) ∧ (s.ftu.lost = false) ∧ (s.ftu.state = .locked) ∧
    (s.sourceGone false = true)) ((atFt 10240000000 (ptp .locked)))) ∧
    ((fun (s : State) => (s.onFrame = false) ∧ (s.ftu.src = 1)) (atFt 1 (ptp .locked))) ∧
    ((fun (s : State) => (s.onFrame = true) ∧ (s.ftu.src ≠ 2)) (ptp .locked)) := by
  refine ⟨?_, ?_, ?_, ?_, ?_, ?_, ?_, ?_, ?_, ?_⟩
  · refine And.intro ?_ (?_) <;> first | decide +kernel | rfl | (intro a h; cases h; done) | (intro a h; cases h; decide +kernel) | exact Or.inr ⟨_, rfl, rfl⟩
  · refine And.intro ?_ (?_) <;> first | decide +kernel | rfl | (intro a h; cases h; done) | (intro a h; cases h; decide +kernel) | exact Or.inr ⟨_, rfl, rfl⟩
  · decide +kernel
  · decide +kernel
  · decide +kernel
  · decide +kernel
  · decide +kernel
  · decide +kernel
  · decide +kernel
  · decide +kernel

/-- Clauses 1, 2, 6 of FabricTimeIsSteppedReadAndDistributed. -/
theorem witness_fabricTimeIsSteppedReadAndDistributed :
    ((fun (s : State) => (s.onFrame = true) ∧ (s.ftu.state = .holdover) ∧ (s.ftu.thresh * boundNs < s.ftu.bound s.ft))
    ((ptp .holdover).onFtu fun f => { f with boundBase := 2 ^ 90 })) ∧
    ((fun (s : State) => (fun (v : Nat) => (fun (b : Nat) => (s.ftu.pendStep = some { amount := 0, setTo := some v, boundary := b, cmd := none }) ∧
    (s.onFrame = true) ∧ (b ≤ s.ft)) (1024)) (5000)) ((atFt 1024 up).onFtu fun f => { f with pendStep := some { amount := 0, setTo := some 5000, boundary := 1024, cmd := none } })) ∧
    ((fun (s : State) => (fun (l : List Int) => (s.onFrame = true) ∧ (l.length = 8) ∧ ((∀ m ∈ l, m.natAbs ≤ 8)) ∧
    ((∀ m ∈ s.ftu.misalign, m.natAbs ≤ 8)) ∧ (l.getD 4 0 = 0)) ([8, -8, 0, 0, 0, 0, 0, 1])) (atFt 1024 up)) := by
  refine ⟨?_, ?_, ?_⟩ <;> decide +kernel

/-- Clauses 1, 2, 3, 4, 5, 6, 7, 8, 9, 10, 11, 12 of PulseOutputAndTimeCommands. -/
theorem witness_pulseOutputAndTimeCommands :
    ((fun (s : State) => (fun (v : W32) => (fun (t : Nat) => (s.ftu.ppsOutPend = some (v, t)) ∧
    (t ≤ s.ft)) (0)) (3)) ((up).onFtu fun f => { f with ppsOutPend := some (3, 0) })) ∧
    ((fun (s : State) => (bit s.ftu.ppsOutLive.toNat 0 = false)) (up)) ∧
    ((fun (s : State) => (bit s.ftu.ppsOutLive.toNat 0 = true) ∧ (bit s.ftu.ppsOutLive.toNat 1 = true) ∧
    (s.ftu.state = .unlocked) ∧ (s.ppsHeldOff = false)) ((up).onFtu fun f => { f with ppsOutLive := 3, state := .unlocked })) ∧
    ((fun (s : State) => (bit s.ftu.ppsOutLive.toNat 0 = true) ∧ (bit s.ftu.ppsOutLive.toNat 1 = false) ∧
    (((s.ft : Int) + signed 16 (field s.ftu.ppsOutLive.toNat 16 16)) % 1000000000 = 0) ∧ (s.pins.ppsDriveAt ≤ s.ft))
    ((atFt 1000000001 up).onFtu fun f => { f with ppsOutLive := 0xFFFF0001 })) ∧
    ((fun (s : State) => (bit s.ftu.ppsOutLive.toNat 0 = true) ∧ (s.pins.ppsOut = none) ∧ (bit s.pins.fault 7 = true) ∧
    (s.ft < s.pins.ppsDriveAt)) (((up).onFtu fun f => { f with ppsOutLive := 1 }).onPins fun p => { p with ppsDriveAt := 1, fault := 128 })) ∧
    ((fun (s : State) => (s.pins.ppsOut.isSome = true)) ((atFt 1024 up).onPins fun p => { p with ppsOut := some true })) ∧
    ((fun (s : State) => (fun (c : Cmd) => (fun (who : Caller) => (s.accepts 0x0C01 c who false true false = true))
    (.management)) (m0 0xFFFFFFFF)) (up)) ∧
    ((fun (s : State) => (fun (c : Cmd) => (fun (who : Caller) => (s.accepts 0x0C02 c who false true false = true) ∧
    (cmdByte c 16 < 32) ∧ ((∀ x ∈ cfgSetWrites c, x.2.toNat &&& cfgReserved x.1 = 0))) (.management))
    (mc 0xFFFFFFFF [(16, [31]), (20, [0x2A]), (24, [4]), (28, [0])] [])) (up)) ∧
    ((fun (s : State) => (fun (c : Cmd) => (fun (who : Caller) => (s.accepts 0x0C03 c who false true false = true))
    (.management)) (m1 31 16 5)) (up)) ∧
    ((fun (s : State) => (fun (v : W32) => (fun (a : Nat) => (fun (c : Cmd) => (s.onFrame = true) ∧
    (nextFrame a ≤ s.ft) ∧ (s.ftu.cfgPend = [{ writes := [(0x018, v)], accepted := a, cmd := some c }]))
    (m0 0)) (1023)) (3)) ((atFt 1024 up).onFtu fun f => { f with cfgPend := [{ writes := [(0x018, 3)], accepted := 1023, cmd := some (m0 0) }] })) ∧
    ((fun (s : State) => (fun (c : Cmd) => (fun (who : Caller) => (s.accepts 0x0C04 c who false true false = true) ∧
    ((s.taken 0x0C04 c).setAllowed = true)) (.management)) (m1 0xFFFFFFFF 16 5)) (up)) ∧
    ((fun (s : State) => (fun (c : Cmd) => (fun (who : Caller) => (s.accepts 0x0C04 c who false true false = true) ∧
    ((s.taken 0x0C04 c).setAllowed = false)) (.management)) (m1 0xFFFFFFFF 16 5)) (ptp .locked)) := by
  refine ⟨?_, ?_, ?_, ?_, ?_, ?_, ?_, ?_, ?_, ?_, ?_, ?_⟩ <;> decide +kernel

/-- Clauses 1, 1, 2, 3, 3, 4, 4, 4, 5, 5, 5, 5, 6, 6, 7, 7, 7, 7 of DoorbellsRingTheirQueues. -/
theorem witness_doorbellsRingTheirQueues :
    ((fun (s : State) => (fun (w : BarWrite) => (s.barOpen w.fn = false ∨ s.fatal = true)) (bell 3))
    (txUp.onFatal fun _ => true)) ∧
    ((fun (s : State) => (fun (w : BarWrite) => (s.barOpen w.fn = false ∨ s.fatal = true)) (bell 3))
    (txUp.onFn pf fun x => { x with mse := false })) ∧
    ((fun (s : State) => (fun (w : BarWrite) => (fun (u : State) => (s.barOpen w.fn = true) ∧ (s.fatal = false) ∧
    (s.dbTarget w = none)) ((s.count Ct.func (fnWord w.fn) 0).raise (sourceNo (6 + w.fn.port % 2) 0) (fnWord w.fn) w.offset (.own (.function w.fn))))
    (bell 9)) (txUp)) ∧
    ((fun (s : State) => (fun (w : BarWrite) => ((s.dbTarget w).any fun (q : Queue) => decide ((fun (u : State) => (s.barOpen w.fn = true) ∧
    (s.fatal = false) ∧ (s.dbTarget w = some q) ∧ (2 ^ 34 ≤ w.value.toNat ∨ q.state ≠ .enabled))
    ((if 2 ^ 34 ≤ w.value.toNat then s.queueHostError (dbQid w) else s.count Ct.func (fnWord w.fn) 1)))) = true) (bell (3 + 2 ^ 34)))
    (txUp)) ∧
    ((fun (s : State) => (fun (w : BarWrite) => ((s.dbTarget w).any fun (q : Queue) => decide ((fun (u : State) => (s.barOpen w.fn = true) ∧
    (s.fatal = false) ∧ (s.dbTarget w = some q) ∧ (2 ^ 34 ≤ w.value.toNat ∨ q.state ≠ .enabled))
    ((if 2 ^ 34 ≤ w.value.toNat then s.queueHostError (dbQid w) else s.count Ct.func (fnWord w.fn) 1)))) = true) (bell (3 + 65536)))
    (txUp.onQueue 3 fun q => { q with state := .idle })) ∧
    ((fun (s : State) => (fun (w : BarWrite) => ((s.dbTarget w).any fun (q : Queue) => decide ((fun (u : State) => (s.barOpen w.fn = true) ∧
    (s.fatal = false) ∧ (s.dbTarget w = some q) ∧ (w.value.toNat < 2 ^ 34) ∧ (q.state = .enabled) ∧
    (q.cls ≠ .cq)) ((if dbInv w then (s.killFetches (dbQid w)).onQueue (dbQid w) Queue.dropCached else s)))) = true) (bell (3 + 65536 * 64 + 2 ^ 32 * 0)))
    (txUp)) ∧
    ((fun (s : State) => (fun (w : BarWrite) => ((s.dbTarget w).any fun (q : Queue) => decide ((fun (u : State) => (s.barOpen w.fn = true) ∧
    (s.fatal = false) ∧ (s.dbTarget w = some q) ∧ (w.value.toNat < 2 ^ 34) ∧ (q.state = .enabled) ∧
    (q.cls ≠ .cq)) ((if dbInv w then (s.killFetches (dbQid w)).onQueue (dbQid w) Queue.dropCached else s)))) = true) (bell (3 + 65536 * 64 + 2 ^ 32 * 1)))
    (txUp)) ∧
    ((fun (s : State) => (fun (w : BarWrite) => ((s.dbTarget w).any fun (q : Queue) => decide ((fun (u : State) => (s.barOpen w.fn = true) ∧
    (s.fatal = false) ∧ (s.dbTarget w = some q) ∧ (w.value.toNat < 2 ^ 34) ∧ (q.state = .enabled) ∧
    (q.cls ≠ .cq)) ((if dbInv w then (s.killFetches (dbQid w)).onQueue (dbQid w) Queue.dropCached else s)))) = true) (bell (3 + 65536 * 65 + 2 ^ 32 * 0)))
    (txUp)) ∧
    ((fun (s : State) => (fun (w : BarWrite) => ((s.dbTarget w).any fun (q : Queue) => decide ((fun (u : State) => (s.barOpen w.fn = true) ∧
    (s.fatal = false) ∧ (s.dbTarget w = some q) ∧ (w.value.toNat < 2 ^ 34) ∧ (q.state = .enabled) ∧
    (q.cls = .cq)) (s.onQueue (dbQid w) (fun q => { q with c := dbIndex w, armed := q.armed || dbArm w })))) = true) (bell (4 + 65536 * 2 + 2 ^ 33 * 0)))
    (txUp.onQueue 4 fun q => { q with p := 2 })) ∧
    ((fun (s : State) => (fun (w : BarWrite) => ((s.dbTarget w).any fun (q : Queue) => decide ((fun (u : State) => (s.barOpen w.fn = true) ∧
    (s.fatal = false) ∧ (s.dbTarget w = some q) ∧ (w.value.toNat < 2 ^ 34) ∧ (q.state = .enabled) ∧
    (q.cls = .cq)) (s.onQueue (dbQid w) (fun q => { q with c := dbIndex w, armed := q.armed || dbArm w })))) = true) (bell (4 + 65536 * 1 + 2 ^ 33 * 1)))
    (txUp.onQueue 4 fun q => { q with p := 2 })) ∧
    ((fun (s : State) => (fun (w : BarWrite) => ((s.dbTarget w).any fun (q : Queue) => decide ((fun (u : State) => (s.barOpen w.fn = true) ∧
    (s.fatal = false) ∧ (s.dbTarget w = some q) ∧ (w.value.toNat < 2 ^ 34) ∧ (q.state = .enabled) ∧
    (q.cls = .cq)) (s.onQueue (dbQid w) (fun q => { q with c := dbIndex w, armed := q.armed || dbArm w })))) = true) (bell (4 + 65536 * 3 + 2 ^ 33 * 1)))
    (txUp.onQueue 4 fun q => { q with p := 2 })) ∧
    ((fun (s : State) => (fun (w : BarWrite) => ((s.dbTarget w).any fun (q : Queue) => decide ((fun (u : State) => (s.barOpen w.fn = true) ∧
    (s.fatal = false) ∧ (s.dbTarget w = some q) ∧ (w.value.toNat < 2 ^ 34) ∧ (q.state = .enabled) ∧
    (q.cls = .cq)) (s.onQueue (dbQid w) (fun q => { q with c := dbIndex w, armed := q.armed || dbArm w })))) = true) (bell (4 + 65536 * 1 + 2 ^ 33 * 0)))
    (txUp.onQueue 4 fun q => { q with p := 64, held := [{ qid := 3, ok := true, suppressed := false, bytes := zeros 32, data := none, event := false, tag := none }] })) ∧
    ((fun (s : State) => (fun (tag : Nat) => (fun (qid : Nat) => (fun (idx : Nat) => (fun (n : Nat) => (fun (b : Bytes) => ((s.readOut tag).any fun (r : HostReadSt) => decide ((s.readOut tag = some r) ∧
    (r.why = .entries qid idx n))) = true) (zeros 64)) (1)) (63)) (3)) (9)) (txUp.onHost fun h => { h with reads := [(9, { ref := { fn := pf, pasid := none }, addr := 4096, len := 64, deadline := 0, dead := false, why := .entries 3 63 1 })] })) ∧
    ((fun (s : State) => (fun (tag : Nat) => (fun (qid : Nat) => (fun (idx : Nat) => (fun (n : Nat) => (fun (b : Bytes) => ((s.readOut tag).any fun (r : HostReadSt) => decide ((s.readOut tag = some r) ∧
    (r.why = .entries qid idx n))) = true) (zeros 64)) (1)) (63)) (3)) (9)) (txUp.onHost fun h => { h with reads := [(9, { ref := { fn := pf, pasid := none }, addr := 4096, len := 64, deadline := 0, dead := true, why := .entries 3 63 1 })] })) ∧
    ((fun (s : State) => (fun (tag : Nat) => (fun (qid : Nat) => (fun (idx : Nat) => (fun (n : Nat) => (fun (how : ReadEnd) => ((s.readOut tag).any fun (r : HostReadSt) => decide ((s.readOut tag = some r) ∧
    (r.why = .entries qid idx n) ∧ (readStatus how ≠ St.ok))) = true) (.timeout)) (1)) (63)) (3))
    (9)) (txUp.onHost fun h => { h with reads := [(9, { ref := { fn := pf, pasid := none }, addr := 4096, len := 64, deadline := 0, dead := false, why := .entries 3 63 1 })] })) ∧
    ((fun (s : State) => (fun (tag : Nat) => (fun (qid : Nat) => (fun (idx : Nat) => (fun (n : Nat) => (fun (how : ReadEnd) => ((s.readOut tag).any fun (r : HostReadSt) => decide ((s.readOut tag = some r) ∧
    (r.why = .entries qid idx n) ∧ (readStatus how ≠ St.ok))) = true) (.timeout)) (1)) (63)) (3))
    (9)) (txUp.onHost fun h => { h with reads := [(9, { ref := { fn := pf, pasid := none }, addr := 4096, len := 64, deadline := 0, dead := true, why := .entries 3 63 1 })] })) ∧
    ((fun (s : State) => (fun (tag : Nat) => (fun (qid : Nat) => (fun (idx : Nat) => (fun (n : Nat) => (fun (how : ReadEnd) => ((s.readOut tag).any fun (r : HostReadSt) => decide ((s.readOut tag = some r) ∧
    (r.why = .entries qid idx n) ∧ (readStatus how ≠ St.ok))) = true) (.translation)) (1)) (63))
    (3)) (9)) (txUp.onHost fun h => { h with reads := [(9, { ref := { fn := pf, pasid := none }, addr := 4096, len := 64, deadline := 0, dead := false, why := .entries 3 63 1 })] })) ∧
    ((fun (s : State) => (fun (tag : Nat) => (fun (qid : Nat) => (fun (idx : Nat) => (fun (n : Nat) => (fun (how : ReadEnd) => ((s.readOut tag).any fun (r : HostReadSt) => decide ((s.readOut tag = some r) ∧
    (r.why = .entries qid idx n) ∧ (readStatus how ≠ St.ok))) = true) (.translation)) (1)) (63))
    (3)) (9)) (txUp.onHost fun h => { h with reads := [(9, { ref := { fn := pf, pasid := none }, addr := 4096, len := 64, deadline := 0, dead := true, why := .entries 3 63 1 })] })) := by
  refine ⟨?_, ?_, ?_, ?_, ?_, ?_, ?_, ?_, ?_, ?_, ?_, ?_, ?_, ?_, ?_, ?_, ?_, ?_⟩ <;> decide +kernel

/-- Clauses 1, 1, 2, 2, 2, 2, 2, 4, 4, 5, 5, 5, 5, 6, 6, 6, 6, 6, 6, 7, 7, 8, 9 of EntriesAreCheckedAndCompletionsWritten. -/
theorem witness_entriesAreCheckedAndCompletionsWritten :
    ((fun (s : State) => (fun (qid : Nat) => ((s.queue qid).any fun (p : Queue) => decide ((fun (u : State) => ((u.queue qid).any fun (q : Queue) => decide ((s.queue qid = some p) ∧
    (s.fatal = false) ∧ (u = s.fetchRound p.home) ∧ (u.queue qid = some q) ∧ (u.fatal = false) ∧
    (u.blocked q = false) ∧ (u.ownerHeld q.owner = false) ∧ (u.ownerResetting q.owner = false) ∧
    (u.dmaTakes qid q = true) ∧ (u.opsOnTile q.home < 65536) ∧ (q.resetAt = none) ∧ (q.state = .enabled ∨ q.state = .draining) ∧
    (q.headOk = false) ∧ (q.headReading = false))) = true) (s.fetchRound p.home))) = true) (3))
    (txUp.onQueue 3 fun q => { q with p := 1, f := 1, failed := [(0, 5)] })) ∧
    ((fun (s : State) => (fun (qid : Nat) => ((s.queue qid).any fun (p : Queue) => decide ((fun (u : State) => ((u.queue qid).any fun (q : Queue) => decide ((s.queue qid = some p) ∧
    (s.fatal = false) ∧ (u = s.fetchRound p.home) ∧ (u.queue qid = some q) ∧ (u.fatal = false) ∧
    (u.blocked q = false) ∧ (u.ownerHeld q.owner = false) ∧ (u.ownerResetting q.owner = false) ∧
    (u.dmaTakes qid q = true) ∧ (u.opsOnTile q.home < 65536) ∧ (q.resetAt = none) ∧ (q.state = .enabled ∨ q.state = .draining) ∧
    (q.headOk = false) ∧ (q.headReading = false))) = true) (s.fetchRound p.home))) = true) (3))
    (txUp.onQueue 3 fun q => { q with p := 1, f := 1 })) ∧
    ((fun (s : State) => (fun (qid : Nat) => ((s.queue qid).any fun (p : Queue) => decide ((fun (u : State) => ((u.queue qid).any fun (q : Queue) => decide (((q.cache.get q.c).any fun (e : Bytes) => decide ((s.queue qid = some p) ∧
    (s.fatal = false) ∧ (u = s.fetchRound p.home) ∧ (u.queue qid = some q) ∧ (u.fatal = false) ∧
    (u.blocked q = false) ∧ (u.ownerHeld q.owner = false) ∧ (u.ownerResetting q.owner = false) ∧
    (u.dmaTakes qid q = true) ∧ (u.opsOnTile q.home < 65536) ∧ (q.resetAt = none) ∧ (q.state = .enabled ∨ q.state = .draining) ∧
    (q.headOk = false) ∧ (q.headReading = false) ∧ (q.failed.has q.c = false) ∧ (q.cache.get q.c = some e))) = true)) = true) (s.fetchRound p.home))) = true) (3))
    (txUp.onQueue 3 fun q => { q with p := 1, f := 1, cache := [(0, [byte 9] ++ zeros 63)] })) ∧
    ((fun (s : State) => (fun (qid : Nat) => ((s.queue qid).any fun (p : Queue) => decide ((fun (u : State) => ((u.queue qid).any fun (q : Queue) => decide (((q.cache.get q.c).any fun (e : Bytes) => decide ((s.queue qid = some p) ∧
    (s.fatal = false) ∧ (u = s.fetchRound p.home) ∧ (u.queue qid = some q) ∧ (u.fatal = false) ∧
    (u.blocked q = false) ∧ (u.ownerHeld q.owner = false) ∧ (u.ownerResetting q.owner = false) ∧
    (u.dmaTakes qid q = true) ∧ (u.opsOnTile q.home < 65536) ∧ (q.resetAt = none) ∧ (q.state = .enabled ∨ q.state = .draining) ∧
    (q.headOk = false) ∧ (q.headReading = false) ∧ (q.failed.has q.c = false) ∧ (q.cache.get q.c = some e))) = true)) = true) (s.fetchRound p.home))) = true) (3))
    (txUp.onQueue 3 fun q => { q with p := 1, f := 1, cache := [(0, zeros 64)] })) ∧
    ((fun (s : State) => (fun (qid : Nat) => ((s.queue qid).any fun (p : Queue) => decide ((fun (u : State) => ((u.queue qid).any fun (q : Queue) => decide (((q.cache.get q.c).any fun (e : Bytes) => decide ((s.queue qid = some p) ∧
    (s.fatal = false) ∧ (u = s.fetchRound p.home) ∧ (u.queue qid = some q) ∧ (u.fatal = false) ∧
    (u.blocked q = false) ∧ (u.ownerHeld q.owner = false) ∧ (u.ownerResetting q.owner = false) ∧
    (u.dmaTakes qid q = true) ∧ (u.opsOnTile q.home < 65536) ∧ (q.resetAt = none) ∧ (q.state = .enabled ∨ q.state = .draining) ∧
    (q.headOk = false) ∧ (q.headReading = false) ∧ (q.failed.has q.c = false) ∧ (q.cache.get q.c = some e))) = true)) = true) (s.fetchRound p.home))) = true) (3))
    (txUp.onQueue 3 fun q => { q with p := 1, f := 1, cache := [(0, zeros 64)], headEnd := some 5 })) ∧
    ((fun (s : State) => (fun (qid : Nat) => ((s.queue qid).any fun (p : Queue) => decide ((fun (u : State) => ((u.queue qid).any fun (q : Queue) => decide (((q.cache.get q.c).any fun (e : Bytes) => decide ((s.queue qid = some p) ∧
    (s.fatal = false) ∧ (u = s.fetchRound p.home) ∧ (u.queue qid = some q) ∧ (u.fatal = false) ∧
    (u.blocked q = false) ∧ (u.ownerHeld q.owner = false) ∧ (u.ownerResetting q.owner = false) ∧
    (u.dmaTakes qid q = true) ∧ (u.opsOnTile q.home < 65536) ∧ (q.resetAt = none) ∧ (q.state = .enabled ∨ q.state = .draining) ∧
    (q.headOk = false) ∧ (q.headReading = false) ∧ (q.failed.has q.c = false) ∧ (q.cache.get q.c = some e))) = true)) = true) (s.fetchRound p.home))) = true) (3))
    (txUp.onQueue 3 fun q => { q with p := 1, f := 1, cache := [(0, zeros 64)], cls := .cmdSq })) ∧
    ((fun (s : State) => (fun (qid : Nat) => ((s.queue qid).any fun (p : Queue) => decide ((fun (u : State) => ((u.queue qid).any fun (q : Queue) => decide (((q.cache.get q.c).any fun (e : Bytes) => decide ((s.queue qid = some p) ∧
    (s.fatal = false) ∧ (u = s.fetchRound p.home) ∧ (u.queue qid = some q) ∧ (u.fatal = false) ∧
    (u.blocked q = false) ∧ (u.ownerHeld q.owner = false) ∧ (u.ownerResetting q.owner = false) ∧
    (u.dmaTakes qid q = true) ∧ (u.opsOnTile q.home < 65536) ∧ (q.resetAt = none) ∧ (q.state = .enabled ∨ q.state = .draining) ∧
    (q.headOk = false) ∧ (q.headReading = false) ∧ (q.failed.has q.c = false) ∧ (q.cache.get q.c = some e))) = true)) = true) (s.fetchRound p.home))) = true) (3))
    (txUp.onQueue 3 fun q => { q with p := 1, f := 1, cache := [(0, toLe 2 0x0101 ++ zeros 62)], cls := .cmdSq })) ∧
    ((fun (s : State) => (fun (qid : Nat) => ((s.readyHead qid).any fun z => decide ((fun (q : Queue) (e : Bytes) => (fun (u : State × Bool) => (s.readyHead qid = some (q, e)) ∧
    (entryOp e = 0) ∧ (q.cls ≠ .cmdSq)) ((if q.cls = .pktRx ∨ q.cls = .krmRq then (s, true) else s.shaperGo qid 0)))
    (z.1) (z.2))) = true) (3)) (txUp.onQueue 3 fun q => { q with p := 1, f := 1, cache := [(0, zeros 64)], headOk := true })) ∧
    ((fun (s : State) => (fun (qid : Nat) => ((s.readyHead qid).any fun z => decide ((fun (q : Queue) (e : Bytes) => (fun (u : State × Bool) => (s.readyHead qid = some (q, e)) ∧
    (entryOp e = 0) ∧ (q.cls ≠ .cmdSq)) ((if q.cls = .pktRx ∨ q.cls = .krmRq then (s, true) else s.shaperGo qid 0)))
    (z.1) (z.2))) = true) (3)) (txUp.onQueue 3 fun q => { q with p := 1, f := 1, cache := [(0, zeros 64)], headOk := true, cls := .pktRx })) ∧
    ((fun (s : State) => (fun (cq : Nat) => ((s.queue cq).any fun (q : Queue) => decide (((q.due.head?).any fun (c : Compl) => decide ((fun (l : List Compl) => (s.queue cq = some q) ∧
    (s.fatal = false) ∧ (q.cls = .cq) ∧ (q.state = .enabled) ∧ (s.ownerHeld q.owner = false) ∧
    (q.held = []) ∧ (q.due = c :: l)) ([]))) = true)) = true) (4)) (txUp.onQueue 4 fun q => { q with due := [{ qid := 3, ok := true, suppressed := false, bytes := zeros 32, data := none, event := false, tag := none }] })) ∧
    ((fun (s : State) => (fun (cq : Nat) => ((s.queue cq).any fun (q : Queue) => decide (((q.due.head?).any fun (c : Compl) => decide ((fun (l : List Compl) => (s.queue cq = some q) ∧
    (s.fatal = false) ∧ (q.cls = .cq) ∧ (q.state = .enabled) ∧ (s.ownerHeld q.owner = false) ∧
    (q.held = []) ∧ (q.due = c :: l)) ([]))) = true)) = true) (4)) (txUp.onQueue 4 fun q => { q with due := [{ qid := 3, ok := true, suppressed := false, bytes := zeros 32, data := none, event := false, tag := none }], p := 64 })) ∧
    ((fun (s : State) => (fun (cq : Nat) => ((s.queue cq).any fun (q : Queue) => decide (((q.due.head?).any fun (c : Compl) => decide ((fun (l : List Compl) => (s.queue cq = some q) ∧
    (s.fatal = false) ∧ (q.cls = .cq) ∧ (q.state = .enabled) ∧ (s.ownerHeld q.owner = false) ∧
    (q.held = []) ∧ (q.due = c :: l)) ([]))) = true)) = true) (4)) (txUp.onQueue 4 fun q => { q with due := [{ qid := 3, ok := true, suppressed := true, bytes := zeros 32, data := none, event := false, tag := none }] })) ∧
    ((fun (s : State) => (fun (cq : Nat) => ((s.queue cq).any fun (q : Queue) => decide (((q.due.head?).any fun (c : Compl) => decide ((fun (l : List Compl) => (s.queue cq = some q) ∧
    (s.fatal = false) ∧ (q.cls = .cq) ∧ (q.state = .enabled) ∧ (s.ownerHeld q.owner = false) ∧
    (q.held = []) ∧ (q.due = c :: l)) ([]))) = true)) = true) (4)) (txUp.onQueue 4 fun q => { q with due := [{ qid := 3, ok := true, suppressed := true, bytes := zeros 32, data := none, event := false, tag := none }], p := 64 })) ∧
    ((fun (s : State) => (fun (cq : Nat) => ((s.queue cq).any fun (q : Queue) => decide (((q.held.head?).any fun (c : Compl) => decide ((fun (l : List Compl) => (s.queue cq = some q) ∧
    (s.fatal = false) ∧ (q.cls = .cq) ∧ (q.state = .enabled) ∧ (s.ownerHeld q.owner = false) ∧
    (q.held = c :: l)) ([]))) = true)) = true) (4)) (txUp.onQueue 4 fun q => { q with held := [{ qid := 3, ok := true, suppressed := false, bytes := zeros 32, data := none, event := false, tag := none }] })) ∧
    ((fun (s : State) => (fun (cq : Nat) => ((s.queue cq).any fun (q : Queue) => decide (((q.held.head?).any fun (c : Compl) => decide ((fun (l : List Compl) => (s.queue cq = some q) ∧
    (s.fatal = false) ∧ (q.cls = .cq) ∧ (q.state = .enabled) ∧ (s.ownerHeld q.owner = false) ∧
    (q.held = c :: l)) ([]))) = true)) = true) (4)) (txUp.onQueue 4 fun q => { q with held := [{ qid := 3, ok := true, suppressed := false, bytes := zeros 32, data := none, event := false, tag := none }], p := 64 })) ∧
    ((fun (s : State) => (fun (cq : Nat) => ((s.queue cq).any fun (q : Queue) => decide (((q.held.head?).any fun (c : Compl) => decide ((fun (l : List Compl) => (s.queue cq = some q) ∧
    (s.fatal = false) ∧ (q.cls = .cq) ∧ (q.state = .enabled) ∧ (s.ownerHeld q.owner = false) ∧
    (q.held = c :: l)) ([]))) = true)) = true) (4)) (txUp.onQueue 4 fun q => { q with held := [{ qid := 3, ok := true, suppressed := false, bytes := zeros 32, data := none, event := false, tag := none }], p := 64, due := [{ qid := 3, ok := true, suppressed := false, bytes := zeros 32, data := none, event := false, tag := none }] })) ∧
    ((fun (s : State) => (fun (cq : Nat) => ((s.queue cq).any fun (q : Queue) => decide (((q.held.head?).any fun (c : Compl) => decide ((fun (l : List Compl) => (s.queue cq = some q) ∧
    (s.fatal = false) ∧ (q.cls = .cq) ∧ (q.state = .enabled) ∧ (s.ownerHeld q.owner = false) ∧
    (q.held = c :: l)) ([]))) = true)) = true) (4)) (txUp.onQueue 4 fun q => { q with held := [{ qid := 3, ok := true, suppressed := true, bytes := zeros 32, data := none, event := false, tag := none }] })) ∧
    ((fun (s : State) => (fun (cq : Nat) => ((s.queue cq).any fun (q : Queue) => decide (((q.held.head?).any fun (c : Compl) => decide ((fun (l : List Compl) => (s.queue cq = some q) ∧
    (s.fatal = false) ∧ (q.cls = .cq) ∧ (q.state = .enabled) ∧ (s.ownerHeld q.owner = false) ∧
    (q.held = c :: l)) ([]))) = true)) = true) (4)) (txUp.onQueue 4 fun q => { q with held := [{ qid := 3, ok := true, suppressed := true, bytes := zeros 32, data := none, event := false, tag := none }], p := 64 })) ∧
    ((fun (s : State) => (fun (cq : Nat) => ((s.queue cq).any fun (q : Queue) => decide (((q.held.head?).any fun (c : Compl) => decide ((fun (l : List Compl) => (s.queue cq = some q) ∧
    (s.fatal = false) ∧ (q.cls = .cq) ∧ (q.state = .enabled) ∧ (s.ownerHeld q.owner = false) ∧
    (q.held = c :: l)) ([]))) = true)) = true) (4)) (txUp.onQueue 4 fun q => { q with held := [{ qid := 3, ok := true, suppressed := true, bytes := zeros 32, data := none, event := false, tag := none }], p := 64, due := [{ qid := 3, ok := true, suppressed := false, bytes := zeros 32, data := none, event := false, tag := none }] })) ∧
    ((fun (s : State) => (fun (cq : Nat) => ((s.queue cq).any fun (q : Queue) => decide (((q.due.head?).any fun (c : Compl) => decide ((fun (l : List Compl) => (s.queue cq = some q) ∧
    (s.fatal = false) ∧ (q.cls = .cq) ∧ (q.state = .enabled) ∧ (s.ownerHeld q.owner = true) ∧
    (q.due = c :: l)) ([]))) = true)) = true) (4)) ((txUp.onQueue 4 fun q => { q with due := [{ qid := 3, ok := true, suppressed := false, bytes := zeros 32, data := none, event := false, tag := none }] }).onFn pf fun x => { x with bme := false })) ∧
    ((fun (s : State) => (fun (cq : Nat) => ((s.queue cq).any fun (q : Queue) => decide (((q.due.head?).any fun (c : Compl) => decide ((fun (l : List Compl) => (s.queue cq = some q) ∧
    (s.fatal = false) ∧ (q.cls = .cq) ∧ (q.state = .enabled) ∧ (s.ownerHeld q.owner = true) ∧
    (q.due = c :: l)) ([]))) = true)) = true) (4)) ((txUp.onQueue 4 fun q => { q with due := [{ qid := 3, ok := true, suppressed := true, bytes := zeros 32, data := none, event := false, tag := none }] }).onFn pf fun x => { x with bme := false })) ∧
    ((fun (s : State) => (fun (qid : Nat) => (fun (idx : Nat) => (fun (st : Nat) => (fun (n : Nat) => ((s.queue qid).any fun (q : Queue) => decide ((fun (c : Compl) => (s.queue qid = some q) ∧
    (q.cls.indexed = true) ∧ (idx ≠ q.nextDone) ∧ (q.waitDone.get q.nextDone = none)) ({ qid := 3, ok := true, suppressed := false, bytes := zeros 32, data := none, event := false, tag := none }))) = true) (0))
    (0)) (1)) (3)) (txUp)) ∧
    ((fun (s0 : State) => (fun (qid : Nat) => (fun (s : State) => ((s.queue qid).any fun (q : Queue) => decide ((s.queue qid = some q) ∧
    (s.onFrame = true) ∧ (q.wbDue = true) ∧ (q.cls ≠ .cq) ∧ (s.fatal = false))) = true) (s0.seenFrom (s0.queueDie qid)))
    (3)) ((atFt 1024 txUp).onQueue 3 fun q => { q with wbDue := true })) := by
  refine ⟨?_, ?_, ?_, ?_, ?_, ?_, ?_, ?_, ?_, ?_, ?_, ?_, ?_, ?_, ?_, ?_, ?_, ?_, ?_, ?_, ?_, ?_, ?_⟩ <;> decide +kernel

/-- Clauses 1, 2, 3, 3, 4, 5, 6, 7, 8, 8 of QueuesAreCreatedEnabledAndMoved. -/
theorem witness_queuesAreCreatedEnabledAndMoved :
    ((fun (s : State) => (fun (c : Cmd) => (fun (t : State) => (fun (who : Caller) => (fun (env : BkEnv) => (fun (cls : QClass) => (fun (o : Owner) => (s.accepts 0x0201 c who (queueCreateDeny c who s) true false true ((s.taken 0x0201 c).queueCreateFound c who) = true) ∧
    (s.mailboxIdle = true) ∧ (t = s.taken 0x0201 c) ∧ (t.queueCreateCheck c who = none) ∧ (QClass.ofCode (cmdByte c 16 % 16) = some cls) ∧
    (t.createOwner c who = some o) ∧ (c.target.toNat ≠ targetNone) ∧ ((∀ x ∈ t.qm.queues, x.2.maker ≠ some c)))
    (pfO)) (.pktTx)) ({ mediaOk := true, rpmbOk := true, noiseOk := true, pb := c.pb })) (.fn pf))
    (s.taken 0x0201 c)) (newTx)) (pfRing 0x0201 newTx txUp)) ∧
    ((fun (s : State) => (fun (c : Cmd) => (fun (who : Caller) => (fun (env : BkEnv) => (((s.taken 0x0204 c).queue c.target.toNat).any fun (q : Queue) => decide ((s.bkAccepts 0x0204 c who env false true true = true) ∧
    ((s.served 0x0204 c).queue c.target.toNat = some q) ∧ ((s.served 0x0204 c).queueDestroyCheck c.target.toNat = none) ∧
    (q.shaper.pend = []))) = true) ({ mediaOk := true, rpmbOk := true, noiseOk := true, pb := c.pb }))
    (.fn pf)) (r0 3)) (pfRing 0x0204 (r0 3) (txUp.onQueue 3 fun q => { q with state := .idle }))) ∧
    ((fun (s : State) => (fun (c : Cmd) => (fun (who : Caller) => (fun (q : Queue) => (s.accepts 0x0202 c who false true true = true) ∧
    ((s.taken 0x0202 c).queue c.target.toNat = some q) ∧ (q.command = false) ∧ (q.state = .disabled ∨ q.state = .idle) ∧
    (q.cls = .cq ∨ (∃ k, (s.taken 0x0202 c).queue q.cq = some k ∧ k.state = .enabled))) ({ txQ with state := .idle }))
    (.management)) (m0 3)) (txUp.onQueue 3 fun q => { q with state := .idle })) ∧
    ((fun (s : State) => (fun (c : Cmd) => (fun (who : Caller) => (fun (q : Queue) => (s.accepts 0x0202 c who false true true = true) ∧
    ((s.taken 0x0202 c).queue c.target.toNat = some q) ∧ (q.command = false) ∧ (q.state = .disabled ∨ q.state = .idle) ∧
    (q.cls = .cq ∨ (∃ k, (s.taken 0x0202 c).queue q.cq = some k ∧ k.state = .enabled))) ({ cqQ with state := .disabled }))
    (.management)) (m1 4 16 65535)) (txUp.onQueue 4 fun q => { q with state := .disabled })) ∧
    ((fun (s : State) => (fun (c : Cmd) => (fun (who : Caller) => (((s.taken 0x0203 c).queue c.target.toNat).any fun (q : Queue) => decide ((s.accepts 0x0203 c who false true true = true) ∧
    ((s.taken 0x0203 c).queue c.target.toNat = some q) ∧ (q.command = false) ∧ (q.state = .enabled) ∧
    (q.cls ≠ .cq))) = true) (.management)) (m0 3)) (txUp)) ∧
    ((fun (s : State) => (fun (qid : Nat) => ((s.queue qid).any fun (q : Queue) => decide ((s.queue qid = some q) ∧
    (s.fatal = false) ∧ (s.drained qid = true) ∧ (q.owner.sid = none) ∧ (q.disableCmds = []) ∧
    (s.cmd.quiesce = []) ∧ (q.command = false) ∧ (q.cls ≠ .cq))) = true) (3)) (txUp.onQueue 3 fun q => { q with state := .draining })) ∧
    ((fun (s : State) => (fun (c : Cmd) => (fun (who : Caller) => (((s.taken 0x0205 c).queue c.target.toNat).any fun (q : Queue) => decide ((s.accepts 0x0205 c who false true true = true) ∧
    ((s.taken 0x0205 c).queue c.target.toNat = some q))) = true) (.management)) (m0 3)) (txUp)) ∧
    ((fun (s : State) => (fun (c : Cmd) => (fun (who : Caller) => (((s.taken 0x0206 c).queue c.target.toNat).any fun (q : Queue) => decide ((s.accepts 0x0206 c who false true true = true) ∧
    ((s.taken 0x0206 c).queue c.target.toNat = some q) ∧ (cmdByte c 16 < 4) ∧ (q.command = false) ∧
    ((s.taken 0x0206 c).homeOk (cmdByte c 16) = true) ∧ ((∀ x ∈ (s.taken 0x0206 c).cy.chans, x.2.jq ≠ c.target.toNat)) ∧
    (q.cls ≠ .dmaCh))) = true) (.management)) (m1 3 16 3)) (txUp)) ∧
    ((fun (s0 : State) => (fun (qid : Nat) => (fun (s : State) => (fun (t : Nat) => ((s.queue qid).any fun (q : Queue) => decide ((fun (u : State) => (fun (v : State) => (s.queue qid = some q) ∧
    (s.fatal = false) ∧ (q.moveTo = some t) ∧ (s.dueAt q.moveAt s.onRebalance = true)) ((if u.homeFor t qid = q.home then u else u.rehome qid (u.homeFor t qid))))
    (s.onQueue qid (fun q => { q with moveTo := none, moveCmds := [] })))) = true) (3)) (s0.seenFrom (s0.queueDie qid)))
    (3)) (txUp.onQueue 3 fun q => { q with moveTo := some 3, moveCmds := [m0 3] })) ∧
    ((fun (s0 : State) => (fun (qid : Nat) => (fun (s : State) => (fun (t : Nat) => ((s.queue qid).any fun (q : Queue) => decide ((fun (u : State) => (fun (v : State) => (s.queue qid = some q) ∧
    (s.fatal = false) ∧ (q.moveTo = some t) ∧ (s.dueAt q.moveAt s.onRebalance = true)) ((if u.homeFor t qid = q.home then u else u.rehome qid (u.homeFor t qid))))
    (s.onQueue qid (fun q => { q with moveTo := none, moveCmds := [] })))) = true) (0)) (s0.seenFrom (s0.queueDie qid)))
    (3)) (txUp.onQueue 3 fun q => { q with moveTo := some 0, moveCmds := [m0 3] })) := by
  refine ⟨?_, ?_, ?_, ?_, ?_, ?_, ?_, ?_, ?_, ?_⟩
  · decide +kernel
  · decide +kernel
  · refine And.intro ?_ (And.intro ?_ (And.intro ?_ (And.intro ?_ (?_)))) <;> first | decide +kernel | rfl | (intro a h; cases h; done) | (intro a h; cases h; decide +kernel) | exact Or.inr ⟨_, rfl, rfl⟩
  · refine And.intro ?_ (And.intro ?_ (And.intro ?_ (And.intro ?_ (?_)))) <;> first | decide +kernel | rfl | (intro a h; cases h; done) | (intro a h; cases h; decide +kernel) | exact Or.inr ⟨_, rfl, rfl⟩
  · decide +kernel
  · decide +kernel
  · decide +kernel
  · decide +kernel
  · decide +kernel
  · decide +kernel

/-- Clauses 1, 2, 3, 4, 5, 6, 7, 8, 9, 10, 11 of SlicesAndSpoofSets. -/
theorem witness_slicesAndSpoofSets :
    ((fun (s : State) => (fun (c : Cmd) => (fun (who : Caller) => (fun (env : BkEnv) => (fun (f : FnRef) => (s.bkAccepts 0x0302 c who env false true false = true) ∧
    (who = .fn f) ∧ ((s.served 0x0302 c).sliceCreateCheck c f = none) ∧ (c.target.toNat ≠ targetNone))
    (pf)) ({ mediaOk := true, rpmbOk := true, noiseOk := true, pb := c.pb })) (.fn pf)) (r1 9 16 7))
    (pfRing 0x0302 (r1 9 16 7) up)) ∧
    ((fun (s0 : State) => (fun (sid : Nat) => (fun (s : State) => ((s.slice sid).any fun (x : SliceSt) => decide ((fun (c : Cmd) => (s.slice sid = some x) ∧
    (x.createCmd = some c) ∧ (s.fatal = false) ∧ (s.dueFrame x.createdAt = true)) (m0 5))) = true) (s0.seenFrom (s0.sliceDie sid)))
    (5)) (atFt 1024 (up.onHost fun h => { h with slices := [(5, { slc with live := false, createCmd := some (m0 5) })] }))) ∧
    ((fun (s : State) => (fun (c : Cmd) => (fun (who : Caller) => (s.accepts 0x0303 c who false true true = true))
    (.fn pf)) (r0 5)) (slUp 0x0303 (r0 5))) ∧
    ((fun (s : State) => (fun (c : Cmd) => (fun (who : Caller) => (s.accepts 0x0306 c who false true true = true) ∧
    ((fnOfWord c.target.toNat).vf = true)) (.fn pf)) (r0 1024)) ((pfRing 0x0306 (r0 1024) up).onHost fun h => { h with fns := h.fns.map (fun x => { x with vfEnable := true, numVfs := 4 }) ++ [FnSt.reset { port := 0, vf := true, num := 0 }] })) ∧
    ((fun (s : State) => (fun (c : Cmd) => (fun (who : Caller) => (((s.taken 0x0304 c).slice c.target.toNat).any fun (x : SliceSt) => decide ((s.accepts 0x0304 c who false true true = true) ∧
    ((s.taken 0x0304 c).slice c.target.toNat = some x) ∧ (x.resetAt = none) ∧ ((s.taken 0x0304 c).cmd.mailbox.length < 256))) = true) (.fn pf))
    (r0 5)) (slUp 0x0304 (r0 5))) ∧
    ((fun (s : State) => (fun (sid : Nat) => ((s.slice sid).any fun (x : SliceSt) => decide ((fun (c : Cmd) => (s.slice sid = some x) ∧
    (x.resetCmd = some c) ∧ (s.fatal = false) ∧ ((∀ r ∈ s.host.reads, s.refOfSlice sid r.2.ref = false)))
    (m0 5))) = true) (5)) (up.onHost fun h => { h with slices := [(5, { slc with resetAt := some 0, resetCmd := some (m0 5) })] })) ∧
    ((fun (s : State) => (fun (c : Cmd) => (fun (who : Caller) => (fun (env : BkEnv) => (((s.taken 0x0305 c).slice c.target.toNat).any fun (x : SliceSt) => decide ((s.bkAccepts 0x0305 c who env false true true = true) ∧
    ((s.served 0x0305 c).slice c.target.toNat = some x) ∧ (x.resetAt = none) ∧ (x.spoofPend = none) ∧
    ((s.served 0x0305 c).sliceOwns c.target.toNat = false))) = true) ({ mediaOk := true, rpmbOk := true, noiseOk := true, pb := c.pb }))
    (.fn pf)) (r0 5)) (slUp 0x0305 (r0 5))) ∧
    ((fun (s : State) => (fun (c : Cmd) => (fun (who : Caller) => (fun (env : BkEnv) => (((s.taken 0x0307 c).slice c.target.toNat).any fun (x : SliceSt) => decide ((s.bkAccepts 0x0307 c who env false (spoofLenOk c) true = true) ∧
    ((s.served 0x0307 c).slice c.target.toNat = some x) ∧ (spoofOk c.pb = true) ∧ (x.spoofPend = none) ∧
    ((s.served 0x0307 c).spoofUse x.mgr.port c.target.toNat + (spoofOf c.pb).entries ≤ 131072))) = true) ({ mediaOk := true, rpmbOk := true, noiseOk := true, pb := c.pb }))
    (.management)) (mc 5 [] (zeros 16))) (withSlice up)) ∧
    ((fun (s0 : State) => (fun (sid : Nat) => (fun (s : State) => (fun (t : Nat) => ((s.slice sid).any fun (x : SliceSt) => decide ((fun (y : SpoofSets) => (fun (c : Cmd) => (s.slice sid = some x) ∧
    (x.spoofPend = some (y, t, c)) ∧ (s.fatal = false) ∧ (s.dueFrame t = true)) (m0 5)) (SpoofSets.empty))) = true) (1023))
    (s0.seenFrom (s0.sliceDie sid))) (5)) (atFt 1024 (up.onHost fun h => { h with slices := [(5, { slc with spoofPend := some (SpoofSets.empty, 1023, m0 5) })] }))) ∧
    ((fun (s : State) => (fun (c : Cmd) => (fun (who : Caller) => (((s.taken 0x0308 c).slice c.target.toNat).any fun (x : SliceSt) => decide ((s.accepts 0x0308 c who false true true = true) ∧
    ((s.taken 0x0308 c).slice c.target.toNat = some x))) = true) (.management)) (m0 5)) (withSlice up)) ∧
    ((fun (s : State) => (fun (c : Cmd) => (fun (who : Caller) => (s.accepts 0x0301 c who false true true = true))
    (.management)) (m0 0)) (up)) := by
  refine ⟨?_, ?_, ?_, ?_, ?_, ?_, ?_, ?_, ?_, ?_, ?_⟩ <;> decide +kernel

/-- Clauses 1, 2, 2, 3, 3, 4, 5, 6, 7, 8, 9, 10, 11, 11, 12, 12, 13 of TableCommandsReply. -/
theorem witness_tableCommandsReply :
    ((fun (s : State) => (fun (c : Cmd) => (fun (who : Caller) => (s.accepts 0x0401 c who false true false = true) ∧
    (cmdByte c 17 = 0xC0) ∧ (cmdByte c 16 = 5) ∧ ((s.taken 0x0401 c).tableInUse c.target.toNat = false) ∧
    ((s.taken 0x0401 c).damask.profileTable = none)) (.management)) (mc 15 [(16, [5, 0xC0])] []))
    (up)) ∧
    ((fun (s : State) => (fun (c : Cmd) => (fun (who : Caller) => (s.accepts 0x0401 c who false true false = true) ∧
    (0x80 ≤ cmdByte c 17 ∧ cmdByte c 17 < 0xA0 ∧ cmdByte c 17 % 8 ≤ 4) ∧ (4 ≤ cmdByte c 16 ∧ cmdByte c 16 ≤ 15) ∧
    ((s.taken 0x0401 c).tableInUse c.target.toNat = false) ∧ ((s.taken 0x0401 c).damask.banks.has (field (cmdByte c 17) 3 2) = false) ∧
    (2 ^ cmdByte c 16 + ((s.taken 0x0401 c).damask.banks.map fun (_, b) => b.size).sum ≤ 32768))
    (.management)) (mc 4 [(16, [4, 128])] [])) (up)) ∧
    ((fun (s : State) => (fun (c : Cmd) => (fun (who : Caller) => (s.accepts 0x0401 c who false true false = true) ∧
    (0x80 ≤ cmdByte c 17 ∧ cmdByte c 17 < 0xA0 ∧ cmdByte c 17 % 8 ≤ 4) ∧ (4 ≤ cmdByte c 16 ∧ cmdByte c 16 ≤ 15) ∧
    ((s.taken 0x0401 c).tableInUse c.target.toNat = false) ∧ ((s.taken 0x0401 c).damask.banks.has (field (cmdByte c 17) 3 2) = false) ∧
    (2 ^ cmdByte c 16 + ((s.taken 0x0401 c).damask.banks.map fun (_, b) => b.size).sum ≤ 32768))
    (.management)) (mc 4 [(16, [15, 156])] [])) (up)) ∧
    ((fun (s : State) => (fun (c : Cmd) => (fun (who : Caller) => (((s.taken 0x0401 c).layRegion none .device (2 ^ (cmdByte c 16 + 5) + 1024)).any fun z => decide ((fun (i : Nat) (r : Region) => (s.accepts 0x0401 c who false true false = true) ∧
    (12 ≤ cmdByte c 16 ∧ cmdByte c 16 ≤ 26) ∧ (cmdByte c 17 < 0x80 ∧ field (cmdByte c 17) 3 3 < 5 ∧
    cmdByte c 17 % 8 = 1) ∧ ((s.taken 0x0401 c).tableInUse c.target.toNat = false) ∧ ((s.taken 0x0401 c).cmd.mailbox = []) ∧
    ((s.taken 0x0401 c).layRegion none .device (2 ^ (cmdByte c 16 + 5) + 1024) = some (i, r)))
    (z.1) (z.2))) = true) (.management)) (mc 4 [(16, [12, 1])] [])) (up)) ∧
    ((fun (s : State) => (fun (c : Cmd) => (fun (who : Caller) => (((s.taken 0x0401 c).layRegion none .device (2 ^ (cmdByte c 16 + 5) + 1024)).any fun z => decide ((fun (i : Nat) (r : Region) => (s.accepts 0x0401 c who false true false = true) ∧
    (12 ≤ cmdByte c 16 ∧ cmdByte c 16 ≤ 26) ∧ (cmdByte c 17 < 0x80 ∧ field (cmdByte c 17) 3 3 < 5 ∧
    cmdByte c 17 % 8 = 1) ∧ ((s.taken 0x0401 c).tableInUse c.target.toNat = false) ∧ ((s.taken 0x0401 c).cmd.mailbox = []) ∧
    ((s.taken 0x0401 c).layRegion none .device (2 ^ (cmdByte c 16 + 5) + 1024) = some (i, r)))
    (z.1) (z.2))) = true) (.management)) (mc 4 [(16, [26, 97])] [])) (up)) ∧
    ((fun (s : State) => (fun (c : Cmd) => (fun (env : BkEnv) => (fun (i : Nat) => (fun (k : Nat) => (fun (form : Nat) => (fun (r : Region) => (s.fatal = false) ∧
    (s.power.dev ≠ .off) ∧ (s.pins.sysRst = false) ∧ (s.cmd.mailbox = [.region i (some r) (some (c, k, form))]) ∧
    (s.cmd.rota = [.firmware]) ∧ (s.regionChangeOk i (some r) = true)) (tblLay.2)) (1)) (12))
    (tblLay.1)) ({ mediaOk := true, rpmbOk := true, noiseOk := true, pb := c.pb })) (m0 4)) (up.onCmd fun m => { m with mailbox := [.region tblLay.1 (some tblLay.2) (some (m0 4, 12, 1))], rota := [.firmware] })) ∧
    ((fun (s : State) => (fun (c : Cmd) => (fun (who : Caller) => (s.accepts 0x0402 c who false (s.tblLenOk c 20 64 1) true = true) ∧
    ((s.taken 0x0402 c).tables.get c.target.toNat = none)) (.management)) (mc 4 [] (zeros 64)))
    (bankUp)) ∧
    ((fun (s : State) => (fun (c : Cmd) => (fun (who : Caller) => (((s.taken 0x0402 c).tables.get c.target.toNat).any fun (t : Table) => decide ((s.accepts 0x0402 c who false (s.tblLenOk c 20 64 1) true = true) ∧
    ((s.taken 0x0402 c).tables.get c.target.toNat = some t))) = true) (.management)) (mc 3 [] macKey))
    (tblUp)) ∧
    ((fun (s : State) => (fun (c : Cmd) => (fun (who : Caller) => (((s.taken 0x0403 c).tables.get c.target.toNat).any fun (t : Table) => decide ((s.accepts 0x0403 c who false true true = true) ∧
    ((s.taken 0x0403 c).tables.get c.target.toNat = some t))) = true) (.management)) (m0 3)) (tblUp)) ∧
    ((fun (s : State) => (fun (c : Cmd) => (fun (who : Caller) => (((s.taken 0x0404 c).tables.get c.target.toNat).any fun (t : Table) => decide ((s.accepts 0x0404 c who false (s.tblLenOk c 32 144 32) true = true) ∧
    ((s.taken 0x0404 c).tables.get c.target.toNat = some t))) = true) (.management)) (mc 3 [] tblBlock))
    (tblUp)) ∧
    ((fun (s : State) => (fun (c : Cmd) => (fun (who : Caller) => (fun (rank : Nat) => (fun (b : Bank) => (s.accepts 0x0404 c who false (s.tblLenOk c 32 144 32) true = true) ∧
    ((s.taken 0x0404 c).tables.get c.target.toNat = none) ∧ ((s.taken 0x0404 c).bankOf c.target.toNat = some (rank, b)) ∧
    (le c.pb 0 4 < b.size) ∧ (le c.pb 4 4 = 0) ∧ (le c.pb 8 8 < 2 ^ 56 ∧ field (le c.pb 8 8) 14 2 ≠ 3 ∧
    le c.pb 8 8 % 8 ≤ 4)) (bank)) (0)) (.management)) (mc 4 [] ruleBlock)) (bankUp)) ∧
    ((fun (s : State) => (fun (c : Cmd) => (fun (who : Caller) => (((s.taken 0x0405 c).tables.get c.target.toNat).any fun (t : Table) => decide ((s.accepts 0x0405 c who false (s.tblLenOk c 20 4 1) true = true) ∧
    ((s.taken 0x0405 c).tables.get c.target.toNat = some t))) = true) (.management)) (mc 3 [] macKey))
    (tblUp)) ∧
    ((fun (s : State) => (fun (c : Cmd) => (fun (who : Caller) => (fun (p : Nat) => (fun (b : State) => (fun (d : State) => (fun (e : State) => (s.accepts 0x0406 c who false true true = true) ∧
    (p = cmdByte c 16) ∧ (p < 32 ∨ p = 0xFF) ∧ ((s.taken 0x0406 c).tables.has c.target.toNat = true) ∧
    (b = ((s.taken 0x0406 c).flushPart c.target.toNat 0 p).1) ∧ (d = (b.flushPart c.target.toNat 1 p).1) ∧
    (e = (d.flushPart c.target.toNat 2 p).1)) ((d.flushPart c.target.toNat 2 p).1)) ((b.flushPart c.target.toNat 1 p).1))
    (((s.taken 0x0406 c).flushPart c.target.toNat 0 p).1)) (cmdByte c 16)) (.management)) (m1 3 16 31))
    (tblUp)) ∧
    ((fun (s : State) => (fun (c : Cmd) => (fun (who : Caller) => (fun (p : Nat) => (fun (b : State) => (fun (d : State) => (fun (e : State) => (s.accepts 0x0406 c who false true true = true) ∧
    (p = cmdByte c 16) ∧ (p < 32 ∨ p = 0xFF) ∧ ((s.taken 0x0406 c).tables.has c.target.toNat = true) ∧
    (b = ((s.taken 0x0406 c).flushPart c.target.toNat 0 p).1) ∧ (d = (b.flushPart c.target.toNat 1 p).1) ∧
    (e = (d.flushPart c.target.toNat 2 p).1)) ((d.flushPart c.target.toNat 2 p).1)) ((b.flushPart c.target.toNat 1 p).1))
    (((s.taken 0x0406 c).flushPart c.target.toNat 0 p).1)) (cmdByte c 16)) (.management)) (m1 3 16 255))
    (tblUp)) ∧
    ((fun (s : State) => (fun (c : Cmd) => (fun (who : Caller) => (s.accepts 0x0407 c who false true true = true) ∧
    ((s.taken 0x0407 c).tables.has c.target.toNat = true) ∧ (1000000000 ≤ cmdLe c 16 8 ∧ cmdLe c 16 8 ≤ 10 ^ 15) ∧
    (cmdLe c 24 8 < cmdLe c 16 8)) (.management)) (mc 3 [(16, toLe 8 1000000000), (24, toLe 8 999999999)] []))
    (tblUp)) ∧
    ((fun (s : State) => (fun (c : Cmd) => (fun (who : Caller) => (s.accepts 0x0407 c who false true true = true) ∧
    ((s.taken 0x0407 c).tables.has c.target.toNat = true) ∧ (1000000000 ≤ cmdLe c 16 8 ∧ cmdLe c 16 8 ≤ 10 ^ 15) ∧
    (cmdLe c 24 8 < cmdLe c 16 8)) (.management)) (mc 3 [(16, toLe 8 1000000000000000), (24, toLe 8 999999999999999)] []))
    (tblUp)) ∧
    ((fun (s : State) => (fun (id : Nat) => ((s.tables.get id).any fun (t : Table) => decide (((t.iter).any fun (it : Iter) => decide ((s.tables.get id = some t) ∧
    (t.iter = some it) ∧ (it.lastFt + 1000000000 ≤ s.ft))) = true)) = true) (3)) ((atFt 1000000001 up).onTables fun l => l.set 3 { tbl with iter := some { number := 1, cursor := 0, lastFt := 0 } })) := by
  refine ⟨?_, ?_, ?_, ?_, ?_, ?_, ?_, ?_, ?_, ?_, ?_, ?_, ?_, ?_, ?_, ?_, ?_⟩ <;> decide +kernel

/-- Clauses 1, 2, 3, 4, 4, 5, 5, 5, 6, 7 of TableEntriesAreFoundLearnedAndAged. -/
theorem witness_tableEntriesAreFoundLearnedAndAged :
    ((fun (s : State) => (fun (id : Nat) => (fun (t : Table) => (fun (pb : Bytes) => ((s.freeSlot t (t.place id (pb.take 20)).1 (t.place id (pb.take 20)).2.1).any fun (w : Nat) => decide ((s.tables.get id = some t) ∧
    (t.parts.length = 4) ∧ (pb.length = 32) ∧ (le pb 20 2 = 1) ∧ (byteAt pb 22 < 32) ∧ (byteAt pb 23 = 0) ∧
    (actionOk (le pb 24 8) = true) ∧ (keyOk t.form (pb.take 20) = true) ∧ (s.findKey t (t.place id (pb.take 20)).1 (t.place id (pb.take 20)).2.1 (t.place id (pb.take 20)).2.2 (pb.take 20) = []) ∧
    (s.freeSlot t (t.place id (pb.take 20)).1 (t.place id (pb.take 20)).2.1 = some w) ∧ (w < 4) ∧
    ((t.place id (pb.take 20)).2.1 < t.nb))) = true) (tblBlock)) (tbl)) (3)) (tblUp)) ∧
    ((fun (s : State) => (fun (id : Nat) => ((s.tables.get id).any fun (t : Table) => decide ((fun (p : Nat) => (fun (key : Bytes) => (fun (port : Nat) => (fun (l : List (Bytes × Nat)) => (fun (u : State) => ((u.tables.get id).any fun (x : Table) => decide ((fun (v : State) => ((v.placeEntry id x p (x.place id key).2.1 (x.place id key).2.2 { key := key, hit := true, isStatic := false, learned := true, port := port, portValid := true, action := 2 ^ 60 + port }).any fun z => decide ((fun (w : State) (b : Nat) (i : Nat) => (s.fatal = false) ∧
    (s.tables.get id = some t) ∧ ((t.part p).learnQ = (key, port) :: l) ∧ (u = (s.onPart id p fun x => { x with learnQ := l })) ∧
    (u.tables.get id = some x) ∧ (v = u.readBuckets id p x [(x.place id key).2.1, (x.place id key).2.2] false) ∧
    (v.findKey x p (x.place id key).2.1 (x.place id key).2.2 key = []) ∧ (v.placeEntry id x p (x.place id key).2.1 (x.place id key).2.2 { key := key, hit := true, isStatic := false, learned := true, port := port, portValid := true, action := 2 ^ 60 + port } = some (w, b, i)))
    (z.1) (z.2.1) (z.2.2))) = true) (u.readBuckets id p x [(x.place id key).2.1, (x.place id key).2.2] false))) = true) (s.onPart id p fun x => { x with learnQ := l }))
    ([])) (31)) (macKey)) ((tbl.place 3 macKey).1))) = true) (3)) ((up).onTables fun l => l.set 3 { tbl with parts := List.replicate 4 { buckets := [], stash := List.replicate 8 none, learnQ := [(macKey, 31)], pass := none, passNext := 0 } })) ∧
    ((fun (s : State) => (fun (id : Nat) => ((s.tables.get id).any fun (t : Table) => decide ((s.fatal = false) ∧
    (s.tables.get id = some t) ∧ (t.agingPend = []) ∧ (t.period ≠ 0) ∧ (s.onGrid t.period t.phase = true) ∧
    ((∀ x ∈ t.parts, x.pass = none)) ∧ (t.parts.length = 4))) = true) (3)) ((atFt 2000000000 up).onTables fun l => l.set 3 { tbl with period := 1000000000, phase := 0 })) ∧
    ((fun (s0 : State) => (fun (p : Nat) => (fun (s : State) => (fun (id : Nat) => (fun (line : Nat) => (fun (start : Nat) => (fun (period : Nat) => ((s.tables.get id).any fun (t : Table) => decide ((s.fatal = false) ∧
    (s.tables.get id = some t) ∧ ((t.part p).pass = some (start, period)) ∧ ((t.part p).passNext = line))) = true) (1000000000))
    (0)) (0)) (3)) (s0.seenFrom p)) (3)) ((up).onTables fun l => l.set 3 { tbl with parts := List.replicate 4 { buckets := [], stash := List.replicate 8 none, learnQ := [], pass := some (0, 1000000000), passNext := 0 } })) ∧
    ((fun (s0 : State) => (fun (p : Nat) => (fun (s : State) => (fun (id : Nat) => (fun (line : Nat) => (fun (start : Nat) => (fun (period : Nat) => ((s.tables.get id).any fun (t : Table) => decide ((s.fatal = false) ∧
    (s.tables.get id = some t) ∧ ((t.part p).pass = some (start, period)) ∧ ((t.part p).passNext = line))) = true) (1000000000))
    (0)) (tbl.nb)) (3)) (s0.seenFrom p)) (3)) ((atFt 1000000000 up).onTables fun l => l.set 3 { tbl with parts := List.replicate 4 { buckets := [], stash := List.replicate 8 none, learnQ := [], pass := some (0, 1000000000), passNext := tbl.nb } })) ∧
    ((fun (s : State) => (fun (id : Nat) => (fun (p : Nat) => (fun (b : Nat) => (fun (i : Nat) => ((s.tables.get id).any fun (t : Table) => decide ((((s.slots t p b).getD i none).any fun (e : TblEntry) => decide ((s.tables.get id = some t) ∧
    ((s.slots t p b).getD i none = some e))) = true)) = true) (1)) (7)) (3)) (3)) ((up).onTables fun l => l.set 3 { tbl with parts := List.replicate 4 { buckets := [(7, [none, some (entry true true), none, none])], stash := List.replicate 8 none, learnQ := [], pass := none, passNext := 0 } })) ∧
    ((fun (s : State) => (fun (id : Nat) => (fun (p : Nat) => (fun (b : Nat) => (fun (i : Nat) => ((s.tables.get id).any fun (t : Table) => decide ((((s.slots t p b).getD i none).any fun (e : TblEntry) => decide ((s.tables.get id = some t) ∧
    ((s.slots t p b).getD i none = some e))) = true)) = true) (1)) (7)) (3)) (3)) ((up).onTables fun l => l.set 3 { tbl with parts := List.replicate 4 { buckets := [(7, [none, some (entry false true), none, none])], stash := List.replicate 8 none, learnQ := [], pass := none, passNext := 0 } })) ∧
    ((fun (s : State) => (fun (id : Nat) => (fun (p : Nat) => (fun (b : Nat) => (fun (i : Nat) => ((s.tables.get id).any fun (t : Table) => decide ((((s.slots t p b).getD i none).any fun (e : TblEntry) => decide ((s.tables.get id = some t) ∧
    ((s.slots t p b).getD i none = some e))) = true)) = true) (1)) (7)) (3)) (3)) ((up).onTables fun l => l.set 3 { tbl with parts := List.replicate 4 { buckets := [(7, [none, some (entry false false), none, none])], stash := List.replicate 8 none, learnQ := [], pass := none, passNext := 0 } })) ∧
    ((fun (s : State) => (fun (rank : Nat) => (fun (i : Nat) => (fun (t : Nat) => (fun (r : Rule) => (fun (c : Cmd) => (s.fatal = false) ∧
    (s.onFrame = true) ∧ (nextFrame t ≤ s.ft) ∧ (s.damask.changes = [(.setRule rank i r, t, some (c, 0x0404))]) ∧
    ((∀ f ∈ s.twill.frames, f.2.frozen = none ∧ f.2.ft < s.frameFt))) (m0 4)) ({ action := 0, value := 0, mask := 0 }))
    (1023)) (15)) (0)) ((atFt 1024 bankUp).onDamask fun d => { d with changes := [(.setRule 0 15 { action := 0, value := 0, mask := 0 }, 1023, some (m0 4, 0x0404))] })) ∧
    ((fun (s : State) => (fun (c : Cmd) => (fun (who : Caller) => (s.accepts 0x0607 c who false true true = true))
    (.management)) (m1 0xFFFFFFFF 16 65535)) (up)) := by
  refine ⟨?_, ?_, ?_, ?_, ?_, ?_, ?_, ?_, ?_, ?_⟩ <;> decide +kernel

/-- Clauses 1, 1, 1, 1, 2, 2, 3, 3 of FramesAreReceivedAndSteered. -/
theorem witness_framesAreReceivedAndSteered :
    ((fun (s0 : State) => (fun (port : Nat) => (fun (s : State) => (fun (b : Bytes) => (fun (ok : Bool) => (s.fatal = true ∨ s.linkUp port = false ∨ s.power.dev = .standby ∨ s.power.standby.isSome = true ∨ ok = false))
    (false)) (frm)) (s0.seenFrom (4 + port / 16))) (0)) (up)) ∧
    ((fun (s0 : State) => (fun (port : Nat) => (fun (s : State) => (fun (b : Bytes) => (fun (ok : Bool) => (s.fatal = true ∨ s.linkUp port = false ∨ s.power.dev = .standby ∨ s.power.standby.isSome = true ∨ ok = false))
    (true)) (frm)) (s0.seenFrom (4 + port / 16))) (0)) (up.onPower fun p => { p with dev := .standby })) ∧
    ((fun (s0 : State) => (fun (port : Nat) => (fun (s : State) => (fun (b : Bytes) => (fun (ok : Bool) => (s.fatal = true ∨ s.linkUp port = false ∨ s.power.dev = .standby ∨ s.power.standby.isSome = true ∨ ok = false))
    (true)) (frm)) (s0.seenFrom (4 + port / 16))) (0)) (up.onFatal fun _ => true)) ∧
    ((fun (s0 : State) => (fun (port : Nat) => (fun (s : State) => (fun (b : Bytes) => (fun (ok : Bool) => (s.fatal = true ∨ s.linkUp port = false ∨ s.power.dev = .standby ∨ s.power.standby.isSome = true ∨ ok = false))
    (true)) (frm)) (s0.seenFrom (4 + port / 16))) (1)) (up)) ∧
    ((fun (s0 : State) => (fun (port : Nat) => (fun (s : State) => (fun (b : Bytes) => (fun (u : State) => (fun (ps : PState) => (fun (hash : Nat) => (fun (tile : Nat) => (fun (home : Bool) => (fun (st : Stage) => (s.fatal = false) ∧
    (s.linkUp port = true) ∧ (s.power.dev ≠ .standby) ∧ (s.power.standby = none)) ((match home, u.holding port hash tile with | false, some p => .steerHold p | _, _ => .arrived)))
    (u.byHome ps b)) (u.steer port ps b hash)) (ps.flowHash b (u.damask.version.profile port)))
    (u.damask.version.parse b port 128)) (((s.count Ct.netPort (port / 8) (2 + 5 * (port % 8))).countBy Ct.netPort (port / 8) (2 + 5 * (port % 8) + 1) b.length).steerNow))
    (frm)) (s0.seenFrom (4 + port / 16))) (0)) (up)) ∧
    ((fun (s0 : State) => (fun (port : Nat) => (fun (s : State) => (fun (b : Bytes) => (fun (u : State) => (fun (ps : PState) => (fun (hash : Nat) => (fun (tile : Nat) => (fun (home : Bool) => (fun (st : Stage) => (s.fatal = false) ∧
    (s.linkUp port = true) ∧ (s.power.dev ≠ .standby) ∧ (s.power.standby = none)) ((match home, u.holding port hash tile with | false, some p => .steerHold p | _, _ => .arrived)))
    (u.byHome ps b)) (u.steer port ps b hash)) (ps.flowHash b (u.damask.version.profile port)))
    (u.damask.version.parse b port 128)) (((s.count Ct.netPort (port / 8) (2 + 5 * (port % 8))).countBy Ct.netPort (port / 8) (2 + 5 * (port % 8) + 1) b.length).steerNow))
    (frm)) (s0.seenFrom (4 + port / 16))) (0)) ((List.range 512).foldl (fun s k => s.onDamask fun d => { d with moved := d.moved ++ [(k, (1, 1))] }) (up.onTwill fun w => { w with frames := (List.range 512).map fun k => (k, { rxf .arrived with hash := k }) }))) ∧
    ((fun (s : State) => (fun (n : Nat) => (fun (p : Nat) => ((s.twill.frames.get n).any fun (f : RxFrame) => decide ((s.twill.frames.get n = some f) ∧
    (f.stage = .steerHold p))) = true) (0)) (6)) (atFt 4096 (rxUp (rxf (.steerHold 0))))) ∧
    ((fun (s : State) => (fun (n : Nat) => (fun (p : Nat) => ((s.twill.frames.get n).any fun (f : RxFrame) => decide ((s.twill.frames.get n = some f) ∧
    (f.stage = .steerHold p))) = true) (0)) (6)) (atFt 4095 (rxUp (rxf (.steerHold 0))))) := by
  refine ⟨?_, ?_, ?_, ?_, ?_, ?_, ?_, ?_⟩ <;> decide +kernel

/-- Clauses 1, 2, 2, 2, 2, 3, 4, 5, 5, 5, 5, 5, 7, 7, 8, 9, 9, 9 of FramesPassDamaskAndTables. -/
theorem witness_framesPassDamaskAndTables :
    ((fun (s : State) => (fun (n : Nat) => ((s.twill.frames.get n).any fun (f : RxFrame) => decide ((fun (x : State × Bool) => (fun (v : Version) => (fun (prof : Profile) => (fun (ps : PState) => (fun (c : Classified) => (fun (p : Parse) => (fun (w : State) => (fun (g : RxFrame) => (s.fatal = false) ∧
    (s.twill.frames.get n = some f) ∧ (f.stage = .arrived)) ({ f with parse := some p, sampled := x.2, parsedAt := w.ft }))
    ((x.1.count Ct.damask f.tile 0).countHits c.hits)) (parseOf f ps c prof.vlanStrip)) (v.classify ps f.port))
    (v.parse f.bytes f.port prof.depth)) (v.profile f.port)) ((x.1.count Ct.damask f.tile 0).versionOf f))
    (s.sampleTag f.tile))) = true) (6)) (rxUp (rxf .arrived))) ∧
    ((fun (s : State) => (fun (n : Nat) => ((s.twill.frames.get n).any fun (f : RxFrame) => decide ((fun (p : Parse) => (fun (pol : Policer) => (fun (x : Policer × Nat) => (fun (u : State) => (fun (p2 : Parse) => (s.fatal = false) ∧
    (s.twill.frames.get n = some f) ∧ (f.stage = .classified) ∧ (f.parse = some p)) ({ p with colour := x.2, result := splice p.result 53 [byte (x.2 + 4 * p.verdict)] }))
    ((s.onTwill fun w => { w with policers := w.policers.set (p.policer.getD 0) x.1 }).count Ct.policer (p.policer.getD 0) x.2))
    (pol.decide' s.ft f.bytes.length p.colour)) ((s.twill.policers.get (p.policer.getD 0)).getD (Policer.fresh (s.unparked (p.policer.getD 0)))))
    (prs 3))) = true) (6)) (up.onTwill fun w => { w with frames := [(6, { rxf .classified with parse := some (prs 3) })], policers := [(2, { Policer.fresh 0 with rate := 0, cbs := 0, ebs := 0, tc := 0, te := 0 })] })) ∧
    ((fun (s : State) => (fun (n : Nat) => ((s.twill.frames.get n).any fun (f : RxFrame) => decide ((fun (p : Parse) => (fun (pol : Policer) => (fun (x : Policer × Nat) => (fun (u : State) => (fun (p2 : Parse) => (s.fatal = false) ∧
    (s.twill.frames.get n = some f) ∧ (f.stage = .classified) ∧ (f.parse = some p)) ({ p with colour := x.2, result := splice p.result 53 [byte (x.2 + 4 * p.verdict)] }))
    ((s.onTwill fun w => { w with policers := w.policers.set (p.policer.getD 0) x.1 }).count Ct.policer (p.policer.getD 0) x.2))
    (pol.decide' s.ft f.bytes.length p.colour)) ((s.twill.policers.get (p.policer.getD 0)).getD (Policer.fresh (s.unparked (p.policer.getD 0)))))
    (prs 3))) = true) (6)) (up.onTwill fun w => { w with frames := [(6, { rxf .classified with parse := some (prs 3) })], policers := [(2, { Policer.fresh 0 with rate := 1, cbs := 1000000, ebs := 1000000, tc := 10000000000, te := 0 })] })) ∧
    ((fun (s : State) => (fun (n : Nat) => ((s.twill.frames.get n).any fun (f : RxFrame) => decide ((fun (p : Parse) => (fun (pol : Policer) => (fun (x : Policer × Nat) => (fun (u : State) => (fun (p2 : Parse) => (s.fatal = false) ∧
    (s.twill.frames.get n = some f) ∧ (f.stage = .classified) ∧ (f.parse = some p)) ({ p with colour := x.2, result := splice p.result 53 [byte (x.2 + 4 * p.verdict)] }))
    ((s.onTwill fun w => { w with policers := w.policers.set (p.policer.getD 0) x.1 }).count Ct.policer (p.policer.getD 0) x.2))
    (pol.decide' s.ft f.bytes.length p.colour)) ((s.twill.policers.get (p.policer.getD 0)).getD (Policer.fresh (s.unparked (p.policer.getD 0)))))
    (prs 3))) = true) (6)) (up.onTwill fun w => { w with frames := [(6, { rxf .classified with parse := some (prs 3) })], policers := [(2, { Policer.fresh 0 with rate := 1, cbs := 0, ebs := 1000000, tc := 0, te := 10000000000 })] })) ∧
    ((fun (s : State) => (fun (n : Nat) => ((s.twill.frames.get n).any fun (f : RxFrame) => decide ((fun (p : Parse) => (fun (pol : Policer) => (fun (x : Policer × Nat) => (fun (u : State) => (fun (p2 : Parse) => (s.fatal = false) ∧
    (s.twill.frames.get n = some f) ∧ (f.stage = .classified) ∧ (f.parse = some p)) ({ p with colour := x.2, result := splice p.result 53 [byte (x.2 + 4 * p.verdict)] }))
    ((s.onTwill fun w => { w with policers := w.policers.set (p.policer.getD 0) x.1 }).count Ct.policer (p.policer.getD 0) x.2))
    (pol.decide' s.ft f.bytes.length p.colour)) ((s.twill.policers.get (p.policer.getD 0)).getD (Policer.fresh (s.unparked (p.policer.getD 0)))))
    (prs 3))) = true) (6)) (up.onTwill fun w => { w with frames := [(6, { rxf .classified with parse := some (prs 3) })], policers := [(2, { Policer.fresh 0 with rate := 1, cbs := 0, ebs := 0, tc := 0, te := 0 })] })) ∧
    ((fun (s : State) => (fun (n : Nat) => ((s.twill.frames.get n).any fun (f : RxFrame) => decide ((fun (p : Parse) => (s.fatal = false) ∧
    (s.twill.frames.get n = some f) ∧ (f.stage = .policed) ∧ (f.parse = some p) ∧ (s.tables.get p.table = none))
    (prs 3))) = true) (6)) (rxUp { rxf .policed with parse := some (prs 3) })) ∧
    ((fun (s : State) => (fun (n : Nat) => ((s.twill.frames.get n).any fun (f : RxFrame) => decide ((fun (p : Parse) => (fun (t : Table) => (fun (x : State × Nat) => (s.fatal = false) ∧
    (s.twill.frames.get n = some f) ∧ (f.stage = .policed) ∧ (f.parse = some p) ∧ (s.tables.get p.table = some t))
    (s.lookups p.table t f p)) (tbl)) (prs 3))) = true) (6)) (tblUp.onTwill fun w => { w with frames := [(6, { rxf .policed with parse := some (prs 3) })] })) ∧
    ((fun (s : State) => (fun (n : Nat) => ((s.twill.frames.get n).any fun (f : RxFrame) => decide ((fun (a : Nat) => (s.fatal = false) ∧
    (s.twill.frames.get n = some f) ∧ (f.stage = .resolved a)) ((2 * 2 ^ 60 + 65535)))) = true) (6))
    (withQ [(65535, runQ .pktRx pfO 4)] (rxUp (rxf (.resolved (2 * 2 ^ 60 + 65535)))))) ∧
    ((fun (s : State) => (fun (n : Nat) => ((s.twill.frames.get n).any fun (f : RxFrame) => decide ((fun (a : Nat) => (s.fatal = false) ∧
    (s.twill.frames.get n = some f) ∧ (f.stage = .resolved a)) ((2 ^ 60 + 1)))) = true) (6)) (withQ [(65535, runQ .pktRx pfO 4)] (rxUp (rxf (.resolved (2 ^ 60 + 1)))))) ∧
    ((fun (s : State) => (fun (n : Nat) => ((s.twill.frames.get n).any fun (f : RxFrame) => decide ((fun (a : Nat) => (s.fatal = false) ∧
    (s.twill.frames.get n = some f) ∧ (f.stage = .resolved a)) ((3 * 2 ^ 60)))) = true) (6)) (withQ [(65535, runQ .pktRx pfO 4)] (rxUp (rxf (.resolved (3 * 2 ^ 60)))))) ∧
    ((fun (s : State) => (fun (n : Nat) => ((s.twill.frames.get n).any fun (f : RxFrame) => decide ((fun (a : Nat) => (s.fatal = false) ∧
    (s.twill.frames.get n = some f) ∧ (f.stage = .resolved a)) ((5 * 2 ^ 60 + 3)))) = true) (6))
    (withQ [(65535, runQ .pktRx pfO 4)] (rxUp (rxf (.resolved (5 * 2 ^ 60 + 3)))))) ∧
    ((fun (s : State) => (fun (n : Nat) => (fun (a : Nat) => ((s.twill.frames.get n).any fun (f : RxFrame) => decide ((s.fatal = false) ∧
    (s.twill.frames.get n = some f) ∧ (f.stage = .resolved a))) = true) (2 ^ 60)) (6)) ((rxUp (rxf (.resolved (2 ^ 60)))).onPower fun p => { p with tiles := List.replicate 4 .parked })) ∧
    ((fun (s : State) => (fun (tile : Nat) => (fun (u : State × Option (Nat × List W64)) => (s.fatal = false))
    (s.takeMsg (tile * 2048 + 1))) (1)) (up)) ∧
    ((fun (s : State) => (fun (tile : Nat) => (fun (u : State × Option (Nat × List W64)) => (s.fatal = false))
    (s.takeMsg (tile * 2048 + 1))) (1)) ((rxUp (rxf (.slowPath 65535 4))).onCores fun c => { c with chans := [(2049, { Chan.slowPath 6 2 with msgs := [(2, [1])] })] })) ∧
    ((fun (s : State) => (fun (tile : Nat) => (fun (src : Nat) => (fun (w0 : W64) => (fun (w1 : W64) => (fun (u : State) => (s.fatal = false) ∧
    (s.takeMsg (tile * 2048 + 1) = (u, some (src, [w0, w1]))) ∧ (u.handleFrame tile (w0.toNat % 65536) = none))
    ((s.takeMsg (tile * 2048 + 1)).1)) (0)) (9)) (2)) (1)) ((rxUp (rxf (.slowPath 65535 4))).onCores fun c => { c with chans := [(2049, { Chan.slowPath 6 2 with msgs := [(2, [9, 0])] })] })) ∧
    ((fun (s : State) => (fun (tile : Nat) => (fun (src : Nat) => (fun (w0 : W64) => (fun (w1 : W64) => (fun (u : State) => (fun (n : Nat) => (fun (f : RxFrame) => (fun (a : Nat) => (fun (len : Nat) => (s.fatal = false) ∧
    (s.takeMsg (tile * 2048 + 1) = (u, some (src, [w0, w1]))) ∧ (u.handleFrame tile (w0.toNat % 65536) = some (n, f, a)))
    ((if field w0.toNat 16 16 = 0 then f.bytes.length else field w0.toNat 16 16))) (4)) (rxf (.slowPath 65535 4)))
    (6)) ((s.takeMsg (tile * 2048 + 1)).1)) (0)) (65535)) (2)) (1)) ((rxUp (rxf (.slowPath 65535 4))).onCores fun c => { c with chans := [(2049, { Chan.slowPath 6 2 with msgs := [(2, [65535, 0])] })] })) ∧
    ((fun (s : State) => (fun (tile : Nat) => (fun (src : Nat) => (fun (w0 : W64) => (fun (w1 : W64) => (fun (u : State) => (fun (n : Nat) => (fun (f : RxFrame) => (fun (a : Nat) => (fun (len : Nat) => (s.fatal = false) ∧
    (s.takeMsg (tile * 2048 + 1) = (u, some (src, [w0, w1]))) ∧ (u.handleFrame tile (w0.toNat % 65536) = some (n, f, a)))
    ((if field w0.toNat 16 16 = 0 then f.bytes.length else field w0.toNat 16 16))) (4)) (rxf (.slowPath 65535 4)))
    (6)) ((s.takeMsg (tile * 2048 + 1)).1)) (2 ^ 60)) (65535)) (2)) (1)) ((rxUp (rxf (.slowPath 65535 4))).onCores fun c => { c with chans := [(2049, { Chan.slowPath 6 2 with msgs := [(2, [65535, 2 ^ 60])] })] })) ∧
    ((fun (s : State) => (fun (tile : Nat) => (fun (src : Nat) => (fun (w0 : W64) => (fun (w1 : W64) => (fun (u : State) => (fun (n : Nat) => (fun (f : RxFrame) => (fun (a : Nat) => (fun (len : Nat) => (s.fatal = false) ∧
    (s.takeMsg (tile * 2048 + 1) = (u, some (src, [w0, w1]))) ∧ (u.handleFrame tile (w0.toNat % 65536) = some (n, f, a)))
    ((if field w0.toNat 16 16 = 0 then f.bytes.length else field w0.toNat 16 16))) (4)) (rxf (.slowPath 65535 4)))
    (6)) ((s.takeMsg (tile * 2048 + 1)).1)) (2 ^ 62)) (65535)) (2)) (1)) ((rxUp (rxf (.slowPath 65535 4))).onCores fun c => { c with chans := [(2049, { Chan.slowPath 6 2 with msgs := [(2, [65535, 2 ^ 62])] })] })) := by
  refine ⟨?_, ?_, ?_, ?_, ?_, ?_, ?_, ?_, ?_, ?_, ?_, ?_, ?_, ?_, ?_, ?_, ?_, ?_⟩ <;> decide +kernel

/-- Clauses 1, 1, 1, 2, 3, 4, 5, 6, 6, 7, 8, 8, 8, 9, 10 of ShapersPolicersAndGroups. -/
theorem witness_shapersPolicersAndGroups :
    ((fun (s : State) => (fun (c : Cmd) => (fun (who : Caller) => (((s.taken 0x0501 c).queue c.target.toNat).any fun (q : Queue) => decide (((destOf (cmdLe c 24 4)).any fun (d : Option Dest) => decide ((s.accepts 0x0501 c who (shaperDeny c who s) true true = true) ∧
    ((s.taken 0x0501 c).queue c.target.toNat = some q) ∧ (destOf (cmdLe c 24 4) = some d) ∧ (rateOk (cmdLe c 16 4) = true) ∧
    (1024 ≤ cmdLe c 20 3) ∧ (cmdByte c 30 ≤ 1 ∧ cmdByte c 31 = 0) ∧ (q.cls = .pktTx))) = true)) = true) (.management))
    (mc 3 [(16, toLe 4 0), (20, toLe 3 1024), (24, toLe 4 3221225472), (28, [255, 255, 1])] []))
    (txUp)) ∧
    ((fun (s : State) => (fun (c : Cmd) => (fun (who : Caller) => (((s.taken 0x0501 c).queue c.target.toNat).any fun (q : Queue) => decide (((destOf (cmdLe c 24 4)).any fun (d : Option Dest) => decide ((s.accepts 0x0501 c who (shaperDeny c who s) true true = true) ∧
    ((s.taken 0x0501 c).queue c.target.toNat = some q) ∧ (destOf (cmdLe c 24 4) = some d) ∧ (rateOk (cmdLe c 16 4) = true) ∧
    (1024 ≤ cmdLe c 20 3) ∧ (cmdByte c 30 ≤ 1 ∧ cmdByte c 31 = 0) ∧ (q.cls = .pktTx))) = true)) = true) (.management))
    (mc 3 [(16, toLe 4 1600000000), (20, toLe 3 16777215), (24, toLe 4 255), (28, [255, 255, 1])] []))
    (txUp)) ∧
    ((fun (s : State) => (fun (c : Cmd) => (fun (who : Caller) => (((s.taken 0x0501 c).queue c.target.toNat).any fun (q : Queue) => decide (((destOf (cmdLe c 24 4)).any fun (d : Option Dest) => decide ((s.accepts 0x0501 c who (shaperDeny c who s) true true = true) ∧
    ((s.taken 0x0501 c).queue c.target.toNat = some q) ∧ (destOf (cmdLe c 24 4) = some d) ∧ (rateOk (cmdLe c 16 4) = true) ∧
    (1024 ≤ cmdLe c 20 3) ∧ (cmdByte c 30 ≤ 1 ∧ cmdByte c 31 = 0) ∧ (q.cls = .pktTx))) = true)) = true) (.management))
    (mc 3 [(16, toLe 4 1000), (20, toLe 3 1024), (24, toLe 4 1073758207), (28, [255, 255, 1])] []))
    (txUp)) ∧
    ((fun (s0 : State) => (fun (qid : Nat) => (fun (s : State) => ((s.queue qid).any fun (q : Queue) => decide (((q.shaper.pend.head?).any fun (n : ShaperSet) => decide ((s.queue qid = some q) ∧
    (s.fatal = false) ∧ (q.cls = .pktTx) ∧ (s.onFrame = true) ∧ (q.shaper.pend = [n]) ∧ (q.destroyCmds = []))) = true)) = true) (s0.seenFrom (s0.queueDie qid)))
    (3)) ((atFt 1024 txUp).onQueue 3 fun q => { q with shaper := { q.shaper with pend := [{ rate := 1000, vs := false, burst := 1024, overhead := 0, dest := none, limit := none, sample := false, acceptedAt := 0, cmd := m0 3 }] } })) ∧
    ((fun (h : Shaper) => (fun (now : Nat) => (h.rate ≠ 0)) (1000)) ({ Shaper.fresh 0 with rate := 1000, burst := 1024 })) ∧
    ((fun (s0 : State) => (fun (tile : Nat) => (fun (s : State) => (fun (qid : Nat) => (fun (x : CalEntry) => (s.fatal = false) ∧
    (s.twill.calendar = [x]) ∧ (x.obj = .shaper qid) ∧ (x.tile = tile) ∧ (s.calDue x.e = true))
    ({ e := 1, obj := .shaper 3, tile := 0, place := none })) (3)) (s0.seenFrom tile)) (0)) ((atFt 4 txUp).onTwill fun w => { w with calendar := [{ e := 1, obj := .shaper 3, tile := 0, place := none }] })) ∧
    ((fun (s : State) => (fun (qid : Nat) => ((s.queue qid).any fun (q : Queue) => decide ((fun (f : TwFrame) => (fun (l : List TwFrame) => (s.fatal = false) ∧
    (s.queue qid = some q) ∧ (s.twFrames q.home (.source qid) = f :: l) ∧ (q.cls = .pktTx) ∧ (f.launch = none) ∧
    (s.destFault f.dest = none) ∧ (s.admitFail q.home f.dest.key f.bytes.length 0 true = none))
    ([])) (twf (.port 0 7)))) = true) (3)) (twUp (.source 3) (.port 0 7) txUp)) ∧
    ((fun (s : State) => (fun (c : Cmd) => (fun (who : Caller) => (fun (p : Policer) => (s.accepts 0x0502 c who false true true = true) ∧
    (rateOk (cmdLe c 16 4) = true) ∧ (1024 ≤ cmdLe c 20 3) ∧ (cmdByte c 27 ≤ 1) ∧ (cmdLe c 28 4 = 0) ∧
    (p = ((s.taken 0x0502 c).twill.policers.get c.target.toNat).getD (Policer.fresh ((s.taken 0x0502 c).unparked c.target.toNat))))
    (((s.taken 0x0502 c).twill.policers.get c.target.toNat).getD (Policer.fresh ((s.taken 0x0502 c).unparked c.target.toNat))))
    (.management)) (mc 65535 [(16, toLe 4 0), (20, toLe 3 1024), (27, [0])] [])) (up)) ∧
    ((fun (s : State) => (fun (c : Cmd) => (fun (who : Caller) => (fun (p : Policer) => (s.accepts 0x0502 c who false true true = true) ∧
    (rateOk (cmdLe c 16 4) = true) ∧ (1024 ≤ cmdLe c 20 3) ∧ (cmdByte c 27 ≤ 1) ∧ (cmdLe c 28 4 = 0) ∧
    (p = ((s.taken 0x0502 c).twill.policers.get c.target.toNat).getD (Policer.fresh ((s.taken 0x0502 c).unparked c.target.toNat))))
    (((s.taken 0x0502 c).twill.policers.get c.target.toNat).getD (Policer.fresh ((s.taken 0x0502 c).unparked c.target.toNat))))
    (.management)) (mc 65535 [(16, toLe 4 1600000000), (20, toLe 3 1024), (27, [1])] [])) (up)) ∧
    ((fun (s0 : State) => (fun (k : Nat) => (fun (s : State) => (fun (t : Nat) => (fun (p : Policer) => (fun (b : Bytes) => (fun (c : Cmd) => (s.twill.policers.get k = some p) ∧
    (s.fatal = false) ∧ (p.pend = [(b, t, c)]) ∧ (s.onFrame = true) ∧ (nextFrame t ≤ s.ft)) (m0 65535))
    (zeros 16)) ({ Policer.fresh 0 with pend := [(zeros 16, 1023, m0 65535)] })) (1023)) (s0.seenFrom (k % 4)))
    (65535)) ((atFt 1024 up).onTwill fun w => { w with policers := [(65535, { Policer.fresh 0 with pend := [(zeros 16, 1023, m0 65535)] })] })) ∧
    ((fun (p : Policer) => (fun (now : Nat) => (fun (len : Nat) => (fun (colour : Nat) => (fun (u : Policer) => (fun (b : Nat) => (p.aware = false) ∧
    (u = p.update now) ∧ (b = frameCharge p.overhead len * 8000000)) (frameCharge p.overhead len * 8000000))
    (p.update now)) (0)) (64)) (0)) ({ Policer.fresh 0 with rate := 1, cbs := 1000000, ebs := 1000000, tc := 10000000000, te := 10000000000 })) ∧
    ((fun (p : Policer) => (fun (now : Nat) => (fun (len : Nat) => (fun (colour : Nat) => (fun (u : Policer) => (fun (b : Nat) => (p.aware = false) ∧
    (u = p.update now) ∧ (b = frameCharge p.overhead len * 8000000)) (frameCharge p.overhead len * 8000000))
    (p.update now)) (0)) (64)) (0)) ({ Policer.fresh 0 with rate := 1, cbs := 1000000, ebs := 1000000, tc := 0, te := 10000000000 })) ∧
    ((fun (p : Policer) => (fun (now : Nat) => (fun (len : Nat) => (fun (colour : Nat) => (fun (u : Policer) => (fun (b : Nat) => (p.aware = false) ∧
    (u = p.update now) ∧ (b = frameCharge p.overhead len * 8000000)) (frameCharge p.overhead len * 8000000))
    (p.update now)) (0)) (64)) (0)) ({ Policer.fresh 0 with rate := 1, cbs := 1000000, ebs := 1000000, tc := 0, te := 0 })) ∧
    ((fun (s : State) => (fun (c : Cmd) => (fun (who : Caller) => (s.accepts 0x0503 c who false true true = true) ∧
    (cmdByte c 17 = 1) ∧ (cmdLe c 18 2 < 16384 ∧ cmdLe c 20 2 < 16384) ∧ (cmdLe c 28 4 = 0)) (.management))
    (mc 16383 [(17, [1]), (18, toLe 2 16383), (20, toLe 2 16383)] [])) (up)) ∧
    ((fun (s : State) => (fun (d : Nat) => (fun (t : Nat) => (fun (r : DgRec) => (fun (c : Cmd) => (s.fatal = false) ∧
    (s.onFrame = true) ∧ (nextFrame t ≤ s.ft) ∧ (r.self = false) ∧ (s.twill.dgPend = [(d, some r, t, c)]))
    (m0 5)) ({ port := 0, tc := 0, self := false, relayHold := false, via0 := none, via1 := none, mac := 0 }))
    (1023)) (5)) ((atFt 1024 up).onTwill fun w => { w with dgPend := [(5, some { port := 0, tc := 0, self := false, relayHold := false, via0 := none, via1 := none, mac := 0 }, 1023, m0 5)] })) := by
  refine ⟨?_, ?_, ?_, ?_, ?_, ?_, ?_, ?_, ?_, ?_, ?_, ?_, ?_, ?_, ?_⟩ <;> decide +kernel

/-- Clauses 1, 1, 2, 3, 4, 5, 5, 6, 7, 8, 9, 10, 11 of SchedulesTakeEffectAtCycleBoundaries. -/
theorem witness_schedulesTakeEffectAtCycleBoundaries :
    ((fun (s : State) => (fun (c : Cmd) => (fun (who : Caller) => (fun (t : Sched) => (s.accepts 0x0504 c who false (loadLenOk c) true = true) ∧
    (loadOk c.pb = true) ∧ (bit (byteAt c.pb 20) 0 = true) ∧ (((s.taken 0x0504 c).phys c.target.toNat).swap = none) ∧
    (t = (List.range (le c.pb 18 2)).foldl (fun (t : Sched) i => { t with slots := t.slots.set (le c.pb 16 2 + i) (le c.pb (32 + 2 * i) 2) }) (loadHeader c.pb)))
    ((List.range (le c.pb 18 2)).foldl (fun (t : Sched) i => { t with slots := t.slots.set (le c.pb 16 2 + i) (le c.pb (32 + 2 * i) 2) }) (loadHeader c.pb)))
    (.management)) (mc 0 [] (toLe 8 0 ++ toLe 4 128 ++ toLe 2 1 ++ toLe 2 10 ++ toLe 2 0 ++ toLe 2 1 ++ [1] ++ zeros 11 ++ toLe 2 0x8000)))
    (up)) ∧
    ((fun (s : State) => (fun (c : Cmd) => (fun (who : Caller) => (fun (t : Sched) => (s.accepts 0x0504 c who false (loadLenOk c) true = true) ∧
    (loadOk c.pb = true) ∧ (bit (byteAt c.pb 20) 0 = true) ∧ (((s.taken 0x0504 c).phys c.target.toNat).swap = none) ∧
    (t = (List.range (le c.pb 18 2)).foldl (fun (t : Sched) i => { t with slots := t.slots.set (le c.pb 16 2 + i) (le c.pb (32 + 2 * i) 2) }) (loadHeader c.pb)))
    ((List.range (le c.pb 18 2)).foldl (fun (t : Sched) i => { t with slots := t.slots.set (le c.pb 16 2 + i) (le c.pb (32 + 2 * i) 2) }) (loadHeader c.pb)))
    (.management)) (mc 0 [] (toLe 8 0 ++ toLe 4 65536 ++ toLe 2 1 ++ toLe 2 10 ++ toLe 2 0 ++ toLe 2 1 ++ [1] ++ zeros 11 ++ toLe 2 0x8000)))
    (up)) ∧
    ((fun (s : State) => (fun (c : Cmd) => (fun (who : Caller) => (fun (h : Sched) => (s.accepts 0x0505 c who false true true = true) ∧
    (((s.taken 0x0505 c).phys c.target.toNat).shadow = some h) ∧ ((s.taken 0x0505 c).cmdStart + 100000 ≤ cmdLe c 16 8) ∧
    (h.complete = true) ∧ (((s.taken 0x0505 c).phys c.target.toNat).swap = none) ∧ (h.isBoundary (cmdLe c 16 8) = true) ∧
    ((∀ a, ((s.taken 0x0505 c).phys c.target.toNat).active = some a → a.isBoundary (cmdLe c 16 8) = true)))
    (sched)) (.management)) (mc 0 [(16, toLe 8 131072)] [])) (port id up)) ∧
    ((fun (s : State) => (fun (c : Cmd) => (fun (who : Caller) => (s.accepts 0x0506 c who false true true = true) ∧
    (cmdByte c 16 = 1) ∧ (((s.taken 0x0506 c).phys c.target.toNat).mode = 0) ∧ (((s.taken 0x0506 c).phys c.target.toNat).active.isSome = true) ∧
    ((s.taken 0x0506 c).ftLocked = true)) (.management)) (m1 0 16 1)) (port id (ptp .locked))) ∧
    ((fun (s : State) => (fun (c : Cmd) => (fun (who : Caller) => (s.accepts 0x0506 c who false true true = true) ∧
    (cmdByte c 16 = 1) ∧ (((s.taken 0x0506 c).phys c.target.toNat).mode = 0) ∧ (((s.taken 0x0506 c).phys c.target.toNat).active.isSome = true) ∧
    ((s.taken 0x0506 c).ftLocked = false)) (.management)) (m1 0 16 1)) (port id up)) ∧
    ((fun (s : State) => (fun (c : Cmd) => (fun (who : Caller) => (s.accepts 0x0506 c who false true true = true) ∧
    (cmdByte c 16 = 0)) (.management)) (m1 0 16 0)) (port id up)) ∧
    ((fun (s : State) => (fun (c : Cmd) => (fun (who : Caller) => (s.accepts 0x0506 c who false true true = true) ∧
    (cmdByte c 16 = 0)) (.management)) (m1 0 16 0)) (up)) ∧
    ((fun (s0 : State) => (fun (p : Nat) => (fun (s : State) => (fun (b : Nat) => (fun (t : Nat) => (fun (c : Cmd) => (s.cycleNow p = some b) ∧
    (s.fatal = false) ∧ ((s.phys p).swap = none) ∧ ((s.phys p).fallback = none) ∧ ((s.phys p).schedPend = [(true, c, t)]) ∧
    (t < b) ∧ (s.ftLocked = true)) (m0 0)) (0)) (65536)) (s0.seenFrom (4 + p / 2))) (0)) (port (fun x => { x with schedPend := [(true, m0 0, 0)] }) (atFt 65536 (ptp .locked)))) ∧
    ((fun (s0 : State) => (fun (p : Nat) => (fun (s : State) => (fun (b : Nat) => (fun (t : Nat) => (s.cycleNow p = some b) ∧
    (s.fatal = false) ∧ ((s.phys p).swap = none) ∧ ((s.phys p).fallback = some t) ∧ (t < b) ∧
    ((s.phys p).schedPend = [])) (0)) (65536)) (s0.seenFrom (4 + p / 2))) (0)) (port (fun x => { x with scheduled := true, fallback := some 0 }) (atFt 65536 (ptp .locked)))) ∧
    ((fun (s0 : State) => (fun (p : Nat) => (fun (s : State) => (fun (b : Nat) => (fun (t : Nat) => (fun (c : Cmd) => (s.cycleNow p = some b) ∧
    (s.fatal = false) ∧ ((s.phys p).swap = some (t, c)) ∧ (t ≤ b) ∧ ((s.phys p).fallback = none) ∧
    ((s.phys p).schedPend = [])) (m0 0)) (65536)) (65536)) (s0.seenFrom (4 + p / 2))) (0)) (port (fun x => { x with swap := some (65536, m0 0) }) (atFt 65536 (ptp .locked)))) ∧
    ((fun (s0 : State) => (fun (p : Nat) => (fun (s : State) => (fun (c : Sched) => (s.fatal = false) ∧
    ((s.phys p).active = some c) ∧ ((s.phys p).scheduled = true) ∧ (s.ftu.stepAt ≤ (c.slotAt s.ft).2) ∧
    ((s.phys p).lastBoundary ≤ (c.slotAt s.ft).2)) (sched)) (s0.seenFrom (4 + p / 2))) (0)) (port (fun x => { x with scheduled := true }) (atFt 100000 (ptp .locked)))) ∧
    ((fun (s0 : State) => (fun (n : Nat) => (fun (s : State) => ((s.choose n false 0 none).any fun z => decide ((fun (h : Head) (tc : Nat) => (s.fatal = false) ∧
    (s.linkUp n = true) ∧ ((s.phys (n / 8)).scheduled = false) ∧ ((s.phys (n / 8)).schedPend = []) ∧
    (s.choose n false (if (s.phys (n / 8)).freeFrom ≤ s.ft then (s.phys (n / 8)).freeFrom * 200 else 0) none = some (h, tc)))
    (z.1) (z.2))) = true) (s0.seenFrom (4 + n / 16))) (0)) (twUp (.port 0 7) (.port 0 7) up)) ∧
    ((fun (s : State) => (fun (c : Cmd) => (fun (who : Caller) => (fun (x : PhysPort) => (s.accepts 0x0507 c who false true true = true) ∧
    (x = (s.taken 0x0507 c).phys c.target.toNat)) ((s.taken 0x0507 c).phys c.target.toNat)) (.management))
    (m0 0)) (port id up)) := by
  refine ⟨?_, ?_, ?_, ?_, ?_, ?_, ?_, ?_, ?_, ?_, ?_, ?_, ?_⟩
  · decide +kernel
  · decide +kernel
  · refine And.intro ?_ (And.intro ?_ (And.intro ?_ (And.intro ?_ (And.intro ?_ (And.intro ?_ (?_)))))) <;> first | decide +kernel | rfl | (intro a h; cases h; done) | (intro a h; cases h; decide +kernel) | exact Or.inr ⟨_, rfl, rfl⟩
  · decide +kernel
  · decide +kernel
  · decide +kernel
  · decide +kernel
  · decide +kernel
  · decide +kernel
  · decide +kernel
  · decide +kernel
  · decide +kernel
  · decide +kernel

/-- Clauses 1, 1, 1, 1, 2, 2, 3, 3, 4, 4, 5, 5, 5, 5, 8, 8 of PortModesLinksAndSamples. -/
theorem witness_portModesLinksAndSamples :
    ((fun (s : State) => (fun (c : Cmd) => (fun (who : Caller) => (s.accepts 0x0103 c who false true true = true))
    (.management)) (m1 3 16 0)) (up)) ∧
    ((fun (s : State) => (fun (c : Cmd) => (fun (who : Caller) => (s.accepts 0x0103 c who false true true = true))
    (.management)) (m1 3 16 3)) (up)) ∧
    ((fun (s : State) => (fun (c : Cmd) => (fun (who : Caller) => (s.accepts 0x0103 c who false true true = true))
    (.management)) (m1 3 16 4)) (up)) ∧
    ((fun (s : State) => (fun (c : Cmd) => (fun (who : Caller) => (s.accepts 0x0103 c who false true true = true))
    (.management)) (m1 3 16 1)) ((atFt 0 up).onPhys 3 fun x => { x with scheduled := true })) ∧
    ((fun (s0 : State) => (fun (p : Nat) => (fun (s : State) => (fun (m : Nat) => (fun (t : Nat) => (fun (c : Cmd) => (fun (old : List (Nat × Nat × Nat × Cmd)) => (fun (u : State) => (s.fatal = false) ∧
    ((s.phys p).modePend = some (m, t, c)) ∧ (s.dueRebalance t = true)) (((((modePorts p (s.phys p).mode).foldl (fun v n => v.portDown n false) s).pinClear (16 + p)).pinClear (20 + p)).onPhys p (fun x => { x with mode := m, modePend := none, modeWait := some (t, s.rebalanceFt, c), modeOld := old })))
    ((match (s.phys p).modeWait with | some (t', b, c') => (s.phys p).modeOld ++ [((s.phys p).mode, t', b, c')] | none => (s.phys p).modeOld)))
    (m0 3)) (0)) (1)) (s0.seenFrom (4 + p / 2))) (3)) ((atFt 1048576 up).onPhys 3 fun x => { x with mode := 3, modePend := some (1, 0, m0 3) })) ∧
    ((fun (s0 : State) => (fun (p : Nat) => (fun (s : State) => (fun (m : Nat) => (fun (t : Nat) => (fun (c : Cmd) => (fun (old : List (Nat × Nat × Nat × Cmd)) => (fun (u : State) => (s.fatal = false) ∧
    ((s.phys p).modePend = some (m, t, c)) ∧ (s.dueRebalance t = true)) (((((modePorts p (s.phys p).mode).foldl (fun v n => v.portDown n false) s).pinClear (16 + p)).pinClear (20 + p)).onPhys p (fun x => { x with mode := m, modePend := none, modeWait := some (t, s.rebalanceFt, c), modeOld := old })))
    ((match (s.phys p).modeWait with | some (t', b, c') => (s.phys p).modeOld ++ [((s.phys p).mode, t', b, c')] | none => (s.phys p).modeOld)))
    (m0 3)) (0)) (1)) (s0.seenFrom (4 + p / 2))) (3)) ((atFt 1048576 up).onPhys 3 fun x => { x with mode := 3, modePend := some (1, 0, m0 3), modeWait := some (1, 2, m0 2) })) ∧
    ((fun (s0 : State) => (fun (p : Nat) => (fun (s : State) => (s.fatal = false) ∧ (((s.phys p).modePend.all fun x => !s.dueRebalance x.2.1) = true))
    (s0.seenFrom (4 + p / 2))) (3)) (up)) ∧
    ((fun (s0 : State) => (fun (p : Nat) => (fun (s : State) => (s.fatal = false) ∧ (((s.phys p).modePend.all fun x => !s.dueRebalance x.2.1) = true))
    (s0.seenFrom (4 + p / 2))) (3)) ((atFt 1024 up).onPhys 3 fun x => { x with modePend := some (1, 0, m0 3) })) ∧
    ((fun (s : State) => (fun (p : Nat) => (fun (t : Nat) => (fun (b : Nat) => (fun (c : Cmd) => (fun (m : Nat) => ((s.phys p).modeWait = some (t, b, c)) ∧
    ((s.phys p).modeOld = [])) ((s.phys p).mode)) (m0 3)) (0)) (0)) (3)) ((atFt 0 up).onPhys 3 fun x => { x with modeWait := some (0, 0, m0 3) })) ∧
    ((fun (s : State) => (fun (p : Nat) => (fun (t : Nat) => (fun (b : Nat) => (fun (c : Cmd) => (fun (m : Nat) => ((s.phys p).modeWait = some (t, b, c)) ∧
    ((s.phys p).modeOld = [])) ((s.phys p).mode)) (m0 3)) (0)) (0)) (3)) ((atFt 500000000 up).onPhys 3 fun x => { x with modeWait := some (0, 0, m0 3) })) ∧
    ((fun (s : State) => (fun (n : Nat) => (fun (lost : Bool) => (fun (remapped : Bool) => (fun (u : State) => (fun (l : List LogPort) => (fun (v : State) => (s.fatal = false) ∧
    (s.pins.sysclk = true) ∧ ((s.twill.logical.getD n LogPort.reset).training = true) ∧ (n ∈ modePorts (n / 8) (s.phys (n / 8)).mode))
    (((if l.any (·.remapped) = true then u.pinFault (16 + n / 8) else u.pinClear (16 + n / 8)).pinFollow (20 + n / 8) (l.any (·.dropped)))))
    ((modePorts (n / 8) (s.phys (n / 8)).mode).map (fun m => u.twill.logical.getD m LogPort.reset)))
    ((s.onLogical n fun x => { x with dropped := lost, remapped := remapped }))) (true)) (true))
    (31)) ((up.onPhys 3 fun x => { x with mode := 3 }).onLogical 31 fun x => { x with training := true })) ∧
    ((fun (s : State) => (fun (n : Nat) => (fun (lost : Bool) => (fun (remapped : Bool) => (fun (u : State) => (fun (l : List LogPort) => (fun (v : State) => (s.fatal = false) ∧
    (s.pins.sysclk = true) ∧ ((s.twill.logical.getD n LogPort.reset).training = true) ∧ (n ∈ modePorts (n / 8) (s.phys (n / 8)).mode))
    (((if l.any (·.remapped) = true then u.pinFault (16 + n / 8) else u.pinClear (16 + n / 8)).pinFollow (20 + n / 8) (l.any (·.dropped)))))
    ((modePorts (n / 8) (s.phys (n / 8)).mode).map (fun m => u.twill.logical.getD m LogPort.reset)))
    ((s.onLogical n fun x => { x with dropped := lost, remapped := remapped }))) (false)) (true))
    (31)) ((up.onPhys 3 fun x => { x with mode := 3 }).onLogical 31 fun x => { x with training := true })) ∧
    ((fun (s : State) => (fun (n : Nat) => (fun (lost : Bool) => (fun (remapped : Bool) => (fun (u : State) => (fun (l : List LogPort) => (fun (v : State) => (s.fatal = false) ∧
    (s.pins.sysclk = true) ∧ ((s.twill.logical.getD n LogPort.reset).training = true) ∧ (n ∈ modePorts (n / 8) (s.phys (n / 8)).mode))
    (((if l.any (·.remapped) = true then u.pinFault (16 + n / 8) else u.pinClear (16 + n / 8)).pinFollow (20 + n / 8) (l.any (·.dropped)))))
    ((modePorts (n / 8) (s.phys (n / 8)).mode).map (fun m => u.twill.logical.getD m LogPort.reset)))
    ((s.onLogical n fun x => { x with dropped := lost, remapped := remapped }))) (true)) (false))
    (31)) ((up.onPhys 3 fun x => { x with mode := 3 }).onLogical 31 fun x => { x with training := true })) ∧
    ((fun (s : State) => (fun (n : Nat) => (fun (lost : Bool) => (fun (remapped : Bool) => (fun (u : State) => (fun (l : List LogPort) => (fun (v : State) => (s.fatal = false) ∧
    (s.pins.sysclk = true) ∧ ((s.twill.logical.getD n LogPort.reset).training = true) ∧ (n ∈ modePorts (n / 8) (s.phys (n / 8)).mode))
    (((if l.any (·.remapped) = true then u.pinFault (16 + n / 8) else u.pinClear (16 + n / 8)).pinFollow (20 + n / 8) (l.any (·.dropped)))))
    ((modePorts (n / 8) (s.phys (n / 8)).mode).map (fun m => u.twill.logical.getD m LogPort.reset)))
    ((s.onLogical n fun x => { x with dropped := lost, remapped := remapped }))) (false)) (false))
    (31)) ((up.onPhys 3 fun x => { x with mode := 3 }).onLogical 31 fun x => { x with training := true })) ∧
    ((fun (s : State) => (fun (c : Cmd) => (fun (who : Caller) => (fun (x : LogPort) => (s.accepts 0x0104 c who false true true = true))
    ((s.taken 0x0104 c).twill.logical.getD c.target.toNat LogPort.reset)) (.management)) (m0 24))
    (up)) ∧
    ((fun (s : State) => (fun (c : Cmd) => (fun (who : Caller) => (fun (x : LogPort) => (s.accepts 0x0104 c who false true true = true))
    ((s.taken 0x0104 c).twill.logical.getD c.target.toNat LogPort.reset)) (.management)) (m0 25))
    (up)) := by
  refine ⟨?_, ?_, ?_, ?_, ?_, ?_, ?_, ?_, ?_, ?_, ?_, ?_, ?_, ?_, ?_, ?_⟩ <;> decide +kernel

/-- Clauses 1, 2, 3, 6 of PacketQueuesSendAndDeliver. -/
theorem witness_packetQueuesSendAndDeliver :
    ((fun (s : State) => (fun (qid : Nat) => ((s.readyHead qid).any fun z => decide ((fun (p : Queue) (e : Bytes) => (fun (r : State) => ((r.queue qid).any fun (q : Queue) => decide ((fun (len : Nat) => (fun (x : State × Bool) => (fun (y : State) => (fun (v : State) => (fun (n : Nat) => (s.readyHead qid = some (p, e)) ∧
    (p.cls = .pktTx) ∧ (entryOp e = 1) ∧ (r = s.refill qid) ∧ (r.queue qid = some q) ∧ (y.newOp qid e (entryFrags .pktTx e p.headFrags) = (v, n)))
    (y.qm.nextOp)) ((y.newOp qid e (entryFrags .pktTx e p.headFrags)).1)) ((match launchOf e with | some t => if t < x.1.ft then x.1.count Ct.twill q.home 12 else x.1 | none => x.1)))
    (s.shaperGo qid (frameCharge q.shaper.overhead len))) (txLen e (fragTotal (entryFrags .pktTx e p.headFrags))))) = true) (s.refill qid))
    (z.1) (z.2))) = true) (3)) (headUp .pktTx (wEntry 1 64 []) up)) ∧
    ((fun (s : State) => (fun (qid : Nat) => ((s.readyHead qid).any fun z => decide ((fun (q : Queue) (e : Bytes) => (s.readyHead qid = some (q, e)) ∧
    (q.cls = .pktRx) ∧ (entryOp e = 2)) (z.1) (z.2))) = true) (3)) (headUp .pktRx (wEntry 2 64 []) up)) ∧
    ((fun (s : State) => (fun (qid : Nat) => ((s.queue qid).any fun (q : Queue) => decide ((((s.twFrames q.home (.source qid)).head?).any fun (f : TwFrame) => decide ((fun (l : List TwFrame) => ((s.qm.ops.find? (fun (_, o) => o.qid == qid)).any fun z => decide ((fun (n : Nat) (o : Op) => (fun (r : RxFrame) => (fun (p : Parse) => (fun (x : State × Bool) => (s.queue qid = some q) ∧
    (s.twFrames (s.sourceTile qid q.home) (.source qid) = f :: l) ∧ (s.qm.ops.find? (fun (_, o) => o.qid == qid) = some (n, o)) ∧
    (s.fatal = false) ∧ (q.cls = .pktRx) ∧ (s.ownerHeld q.owner = false) ∧ (s.ownerResetting q.owner = false) ∧
    (f.rx = some r) ∧ (r.parse = some p)) (s.shaperGo qid (frameCharge (((s.refill qid).queue qid).getD q).shaper.overhead f.bytes.length)))
    (prs 3)) ({ rxf .policed with parse := some (prs 3) })) (z.1) (z.2))) = true) ((s.twFrames q.home (.source qid)).tail))) = true)) = true) (3))
    (rxQUp { rxf .policed with parse := some (prs 3) })) ∧
    ((fun (x : SpoofSets) => (fun (b : Bytes) => (x.anyMac = true) ∧ (x.anyVlan = true) ∧ (x.anyIp = true) ∧
    (etherAfter (b.take 128) 12 4 ≠ none)) (frm)) ({ SpoofSets.empty with anyMac := true, anyVlan := true, anyIp := true })) := by
  refine ⟨?_, ?_, ?_, ?_⟩ <;> decide +kernel

/-- Clauses 1, 1, 2, 3, 4, 5, 6 of ConnectionsAreCreatedOpenedAndDestroyed. -/
theorem witness_connectionsAreCreatedOpenedAndDestroyed :
    ((fun (s : State) => (fun (c : Cmd) => (fun (who : Caller) => (fun (env : BkEnv) => (fun (f : FnRef) => (s.bkAccepts 0x0601 c who env false true false = true) ∧
    (who = .fn f) ∧ (s.isSetPeer c = false) ∧ ((s.served 0x0601 c).isSetPeer c = false) ∧ (c.pbLen = 64) ∧
    ((s.served 0x0601 c).connCreateCheck c = none) ∧ (bit (cmdByte c 20) 5 = false) ∧ (c.target.toNat ≠ targetNone))
    (pf)) ({ mediaOk := true, rpmbOk := true, noiseOk := true, pb := c.pb })) (.fn pf)) (newConnC 0))
    (pfRing 0x0601 (newConnC 0) (krmRegion up))) ∧
    ((fun (s : State) => (fun (c : Cmd) => (fun (who : Caller) => (fun (env : BkEnv) => (fun (f : FnRef) => (s.bkAccepts 0x0601 c who env false true false = true) ∧
    (who = .fn f) ∧ (s.isSetPeer c = false) ∧ ((s.served 0x0601 c).isSetPeer c = false) ∧ (c.pbLen = 64) ∧
    ((s.served 0x0601 c).connCreateCheck c = none) ∧ (bit (cmdByte c 20) 5 = false) ∧ (c.target.toNat ≠ targetNone))
    (pf)) ({ mediaOk := true, rpmbOk := true, noiseOk := true, pb := c.pb })) (.fn pf)) (newConnC 1))
    (pfRing 0x0601 (newConnC 1) (krmRegion up))) ∧
    ((fun (s : State) => (fun (c : Cmd) => (fun (who : Caller) => (fun (env : BkEnv) => (fun (t : State) => (s.bkAccepts 0x0601 c who env false true false = true) ∧
    (s.isSetPeer c = true) ∧ ((s.served 0x0601 c).isSetPeer c = true) ∧ (t = ((s.served 0x0601 c).onConn c.target.toNat fun k => { k with peer := some (cmdLe c 16 4) }).tryOpen c.target.toNat))
    (((s.taken 0x0601 c).onConn c.target.toNat fun k => { k with peer := some (cmdLe c 16 4) }).tryOpen c.target.toNat))
    ({ mediaOk := true, rpmbOk := true, noiseOk := true, pb := c.pb })) (.fn pf)) (newConnC 1))
    (pfRing 0x0601 (newConnC 1) (connUp { conn0 with state := .pending, peer := none } up))) ∧
    ((fun (s : State) => (fun (c : Cmd) => (fun (who : Caller) => (s.accepts 0x0602 c who false true true = true) ∧
    ((s.taken 0x0602 c).cmd.mailbox.length < 256) ∧ ((s.taken 0x0602 c).connDestroyCheck c.target.toNat = none))
    (.fn pf)) (r0 5)) (pfRing 0x0602 (r0 5) (connUp { conn0 with state := .open } up))) ∧
    ((fun (s0 : State) => (fun (cid : Nat) => (fun (s : State) => (fun (t : Nat) => ((s.conn cid).any fun (c : Conn) => decide ((s.conn cid = some c) ∧
    (s.fatal = false) ∧ (c.next = [(.open, t)]) ∧ (c.state = .pending) ∧ (s.onFrame = true) ∧
    (nextFrame t ≤ s.ft))) = true) (1024)) (s0.seenFrom (s0.connDie cid))) (5)) (atFt 2048 (connUp { conn0 with state := .pending, next := [(.open, 1024)] } up))) ∧
    ((fun (s : State) => (fun (cid : Nat) => ((s.conn cid).any fun (c : Conn) => decide ((fun (k : Cmd) => (s.conn cid = some c) ∧
    (c.destroyCmd = some k) ∧ (s.fatal = false) ∧ (c.state = .closing) ∧ (s.connQuiet c = true))
    (r0 5))) = true) (5)) (connUp { conn0 with state := .closing, destroyCmd := some (r0 5) } up)) ∧
    ((fun (s : State) => (fun (c : Cmd) => (fun (who : Caller) => (((s.taken 0x0603 c).conn c.target.toNat).any fun (k : Conn) => decide ((s.accepts 0x0603 c who false true true = true) ∧
    ((s.taken 0x0603 c).conn c.target.toNat = some k))) = true) (.fn pf)) (r0 5)) (pfRing 0x0603 (r0 5) (connUp { conn0 with state := .open } up))) := by
  refine ⟨?_, ?_, ?_, ?_, ?_, ?_, ?_⟩ <;> decide +kernel

/-- Clauses 2, 3, 4, 5, 5, 5, 6 of WindowsOpenChangeAndRefuse. -/
theorem witness_windowsOpenChangeAndRefuse :
    ((fun (s : State) => (fun (c : Cmd) => (fun (who : Caller) => (fun (env : BkEnv) => (s.bkAccepts 0x0605 c who env false true true = true) ∧
    (winParamsOk c true = true) ∧ (winLen c ≠ 0)) ({ mediaOk := true, rpmbOk := true, noiseOk := true, pb := c.pb }))
    (.fn pf)) (rc 7170 [(16, toLe 8 0x90000), (24, toLe 4 4096)] [])) (pfRing 0x0605 (rc 7170 [(16, toLe 8 0x90000), (24, toLe 4 4096)] []) (winUp win up))) ∧
    ((fun (s : State) => (fun (c : Cmd) => (fun (who : Caller) => (fun (env : BkEnv) => (((s.taken 0x0606 c).krm.windows.get (c.target.toNat / 1024)).any fun (w : Window) => decide ((s.bkAccepts 0x0606 c who env false true true = true) ∧
    ((s.served 0x0606 c).krm.windows.get (c.target.toNat / 1024) = some w) ∧ (c.target.toNat % 1024 < 1023))) = true) ({ mediaOk := true, rpmbOk := true, noiseOk := true, pb := c.pb }))
    (.fn pf)) (r0 7170)) (pfRing 0x0606 (r0 7170) (winUp win up))) ∧
    ((fun (s : State) => (fun (i : Nat) => ((s.krm.windows.get i).any fun (w : Window) => decide ((fun (x : WinChange) => (s.krm.windows.get i = some w) ∧
    (s.fatal = false) ∧ (w.pend = [x]) ∧ (x.code = 0x0604) ∧ (s.onFrame = true) ∧ (nextFrame x.accepted ≤ s.ft))
    ({ base := 1, wlen := 64, perm := 1, gen := 0, state := .open, accepted := 1024, code := 0x0604, cmd := r0 7, key := 7168 }))) = true) (7))
    (atFt 2048 (winUp { Window.unused pfO with pend := [{ base := 1, wlen := 64, perm := 1, gen := 0, state := .open, accepted := 1024, code := 0x0604, cmd := r0 7, key := 7168 }] } up))) ∧
    ((fun (s : State) => (fun (c : Conn) => (fun (w : Window) => (fun (i : Nat) => (fun (off : Nat) => (fun (len : Nat) => (fun (p : Nat) => (s.krm.windows.get i = some w) ∧
    (s.areaPoisoned windowRegion (i * 32) = false) ∧ (w.gen < 1024)) (1)) (64)) (4032)) (7)) (win))
    (conn0)) (winUp win up)) ∧
    ((fun (s : State) => (fun (c : Conn) => (fun (w : Window) => (fun (i : Nat) => (fun (off : Nat) => (fun (len : Nat) => (fun (p : Nat) => (s.krm.windows.get i = some w) ∧
    (s.areaPoisoned windowRegion (i * 32) = false) ∧ (w.gen < 1024)) (1)) (64)) (4033)) (7)) (win))
    (conn0)) (winUp win up)) ∧
    ((fun (s : State) => (fun (c : Conn) => (fun (w : Window) => (fun (i : Nat) => (fun (off : Nat) => (fun (len : Nat) => (fun (p : Nat) => (s.krm.windows.get i = some w) ∧
    (s.areaPoisoned windowRegion (i * 32) = false) ∧ (w.gen < 1024)) (1)) (64)) (4033)) (7)) ({ win with state := .retired }))
    (conn0)) (winUp { win with state := .retired } up)) ∧
    ((fun (s : State) => (fun (c : Conn) => (fun (key : Nat) => (fun (off : Nat) => (fun (len : Nat) => (fun (p : Nat) => (s.krm.windows.get (key / 1024) = none))
    (1)) (64)) (0)) (8192)) (conn0)) (winUp win up)) := by
  refine ⟨?_, ?_, ?_, ?_, ?_, ?_, ?_⟩ <;> decide +kernel

/-- Clauses 1, 1, 1, 1, 1, 1, 4, 5, 5, 5, 5, 5, 6, 6, 6, 6, 6, 7, 7, 7, 8, 9, 9, 9, 10 of KrmPacketsAreReceivedAndSent. -/
theorem witness_krmPacketsAreReceivedAndSent :
    ((fun (s : State) => (fun (n : Nat) => (fun (f : RxFrame) => (fun (p : Parse) => (s.fatal = false) ∧
    (s.twill.frames.get n = some f) ∧ (f.stage = .krm) ∧ (f.parse = some p)) ({ prs 3 with l4Ok := true }))
    (krmRx (frm))) (6)) (krmRxUp (frm) (((winUp win up).onKrm fun k => { k with conns := [(5, connO)], cached := [5] })))) ∧
    ((fun (s : State) => (fun (n : Nat) => (fun (f : RxFrame) => (fun (p : Parse) => (s.fatal = false) ∧
    (s.twill.frames.get n = some f) ∧ (f.stage = .krm) ∧ (f.parse = some p)) ({ prs 3 with l4Ok := true }))
    (krmRx (krmFrm))) (6)) (krmRxUp (krmFrm) (up))) ∧
    ((fun (s : State) => (fun (n : Nat) => (fun (f : RxFrame) => (fun (p : Parse) => (s.fatal = false) ∧
    (s.twill.frames.get n = some f) ∧ (f.stage = .krm) ∧ (f.parse = some p)) ({ prs 3 with l4Ok := true }))
    (krmRx (krmFrm))) (6)) (krmRxUp (krmFrm) (((winUp win up).onKrm fun k => { k with conns := [(5, connO)], cached := [5] })))) ∧
    ((fun (s : State) => (fun (n : Nat) => (fun (f : RxFrame) => (fun (p : Parse) => (s.fatal = false) ∧
    (s.twill.frames.get n = some f) ∧ (f.stage = .krm) ∧ (f.parse = some p)) ({ prs 3 with l4Ok := true }))
    (krmRx (krmFrmK))) (6)) (krmRxUp (krmFrmK) (connUp connK (winUp win up)))) ∧
    ((fun (s : State) => (fun (n : Nat) => (fun (f : RxFrame) => (fun (p : Parse) => (s.fatal = false) ∧
    (s.twill.frames.get n = some f) ∧ (f.stage = .krm) ∧ (f.parse = some p)) ({ prs 3 with l4Ok := true }))
    (krmRx (krmFrm))) (6)) (krmRxUp (krmFrm) (((winUp win up).onKrm fun k => { k with conns := [(5, { connO with cgen := 3 })], cached := [5] })))) ∧
    ((fun (s : State) => (fun (n : Nat) => (fun (f : RxFrame) => (fun (p : Parse) => (s.fatal = false) ∧
    (s.twill.frames.get n = some f) ∧ (f.stage = .krm) ∧ (f.parse = some p)) ({ prs 3 with l4Ok := true }))
    (krmRx (krmFrm))) (6)) (krmRxUp (krmFrm) (((winUp win up).onKrm fun k => { k with conns := [(5, connO)], cached := [] })))) ∧
    ((fun (s : State) => (fun (cid : Nat) => (s.fatal = false)) (5)) (up.onKrm fun k => { k with conns := [(5, connO)] })) ∧
    ((fun (s : State) => (fun (cid : Nat) => (fun (psn : Nat) => ((s.conn cid).any fun (c : Conn) => decide ((fun (p : HeldPkt) => (fun (u : State) => (fun (x : State) => (s.fatal = false) ∧
    (s.conn cid = some c) ∧ (c.hold.find? (fun p => p.psn == psn && p.admitted.isSome) = some p))
    ((if hOpc p.header = 3 then (match c.reads.find? (fun (r : PendRead) => r.rtag == hW p.header) with | some r => ((u.onConn cid fun c => { c with reads := c.reads.map fun (r : PendRead) => (if r.rtag = hW p.header then { r with left := r.left - p.body.length } else r) }).onOp r.op fun o => { o with bytes := o.bytes + p.body.length }).krmCheck cid r.op | none => u.onConn cid fun c => { c with reads := c.reads.map fun (r : PendRead) => (if r.rtag = hW p.header then { r with left := r.left - p.body.length } else r) }) else if hOpc p.header = 4 then u.sendApplied cid p.header else u)))
    (s.onConn cid (·.consume psn))) ({ psn := 9, header := krmHead 1 9, body := zeros 8, ce := false, admitted := some 0, refuse := none }))) = true) (9))
    (5)) (((winUp win up).onKrm fun k => { k with conns := [(5, { connO with hold := [{ psn := 9, header := krmHead 1 9, body := zeros 8, ce := false, admitted := some 0, refuse := none }] })], cached := [5] }))) ∧
    ((fun (s : State) => (fun (cid : Nat) => (fun (psn : Nat) => ((s.conn cid).any fun (c : Conn) => decide ((fun (p : HeldPkt) => (fun (u : State) => (fun (x : State) => (s.fatal = false) ∧
    (s.conn cid = some c) ∧ (c.hold.find? (fun p => p.psn == psn && p.admitted.isSome) = some p))
    ((if hOpc p.header = 3 then (match c.reads.find? (fun (r : PendRead) => r.rtag == hW p.header) with | some r => ((u.onConn cid fun c => { c with reads := c.reads.map fun (r : PendRead) => (if r.rtag = hW p.header then { r with left := r.left - p.body.length } else r) }).onOp r.op fun o => { o with bytes := o.bytes + p.body.length }).krmCheck cid r.op | none => u.onConn cid fun c => { c with reads := c.reads.map fun (r : PendRead) => (if r.rtag = hW p.header then { r with left := r.left - p.body.length } else r) }) else if hOpc p.header = 4 then u.sendApplied cid p.header else u)))
    (s.onConn cid (·.consume psn))) ({ psn := 9, header := krmHead 1 9, body := zeros 8, ce := false, admitted := some 0, refuse := some 5 }))) = true) (9))
    (5)) (((winUp win up).onKrm fun k => { k with conns := [(5, { connO with hold := [{ psn := 9, header := krmHead 1 9, body := zeros 8, ce := false, admitted := some 0, refuse := some 5 }] })], cached := [5] }))) ∧
    ((fun (s : State) => (fun (cid : Nat) => (fun (psn : Nat) => ((s.conn cid).any fun (c : Conn) => decide ((fun (p : HeldPkt) => (fun (u : State) => (fun (x : State) => (s.fatal = false) ∧
    (s.conn cid = some c) ∧ (c.hold.find? (fun p => p.psn == psn && p.admitted.isSome) = some p))
    ((if hOpc p.header = 3 then (match c.reads.find? (fun (r : PendRead) => r.rtag == hW p.header) with | some r => ((u.onConn cid fun c => { c with reads := c.reads.map fun (r : PendRead) => (if r.rtag = hW p.header then { r with left := r.left - p.body.length } else r) }).onOp r.op fun o => { o with bytes := o.bytes + p.body.length }).krmCheck cid r.op | none => u.onConn cid fun c => { c with reads := c.reads.map fun (r : PendRead) => (if r.rtag = hW p.header then { r with left := r.left - p.body.length } else r) }) else if hOpc p.header = 4 then u.sendApplied cid p.header else u)))
    (s.onConn cid (·.consume psn))) ({ psn := 9, header := krmHead 3 9, body := zeros 8, ce := false, admitted := some 0, refuse := none }))) = true) (9))
    (5)) (((winUp win up).onKrm fun k => { k with conns := [(5, { connO with hold := [{ psn := 9, header := krmHead 3 9, body := zeros 8, ce := false, admitted := some 0, refuse := none }] })], cached := [5] }))) ∧
    ((fun (s : State) => (fun (cid : Nat) => (fun (psn : Nat) => ((s.conn cid).any fun (c : Conn) => decide ((fun (p : HeldPkt) => (fun (u : State) => (fun (x : State) => (s.fatal = false) ∧
    (s.conn cid = some c) ∧ (c.hold.find? (fun p => p.psn == psn && p.admitted.isSome) = some p))
    ((if hOpc p.header = 3 then (match c.reads.find? (fun (r : PendRead) => r.rtag == hW p.header) with | some r => ((u.onConn cid fun c => { c with reads := c.reads.map fun (r : PendRead) => (if r.rtag = hW p.header then { r with left := r.left - p.body.length } else r) }).onOp r.op fun o => { o with bytes := o.bytes + p.body.length }).krmCheck cid r.op | none => u.onConn cid fun c => { c with reads := c.reads.map fun (r : PendRead) => (if r.rtag = hW p.header then { r with left := r.left - p.body.length } else r) }) else if hOpc p.header = 4 then u.sendApplied cid p.header else u)))
    (s.onConn cid (·.consume psn))) ({ psn := 9, header := krmHead 4 9, body := zeros 8, ce := false, admitted := some 0, refuse := none }))) = true) (9))
    (5)) (((winUp win up).onKrm fun k => { k with conns := [(5, { connO with hold := [{ psn := 9, header := krmHead 4 9, body := zeros 8, ce := false, admitted := some 0, refuse := none }] })], cached := [5] }))) ∧
    ((fun (s : State) => (fun (cid : Nat) => (fun (psn : Nat) => ((s.conn cid).any fun (c : Conn) => decide ((fun (p : HeldPkt) => (fun (u : State) => (fun (x : State) => (s.fatal = false) ∧
    (s.conn cid = some c) ∧ (c.hold.find? (fun p => p.psn == psn && p.admitted.isSome) = some p))
    ((if hOpc p.header = 3 then (match c.reads.find? (fun (r : PendRead) => r.rtag == hW p.header) with | some r => ((u.onConn cid fun c => { c with reads := c.reads.map fun (r : PendRead) => (if r.rtag = hW p.header then { r with left := r.left - p.body.length } else r) }).onOp r.op fun o => { o with bytes := o.bytes + p.body.length }).krmCheck cid r.op | none => u.onConn cid fun c => { c with reads := c.reads.map fun (r : PendRead) => (if r.rtag = hW p.header then { r with left := r.left - p.body.length } else r) }) else if hOpc p.header = 4 then u.sendApplied cid p.header else u)))
    (s.onConn cid (·.consume psn))) ({ psn := 9, header := krmHead 1 9, body := zeros 8, ce := false, admitted := some 0, refuse := none }))) = true) (9))
    (5)) (((winUp win up).onKrm fun k => { k with conns := [(5, { connO with hold := [{ psn := 9, header := krmHead 1 9, body := zeros 8, ce := false, admitted := some 0, refuse := none }], state := .error })], cached := [5] }))) ∧
    ((fun (s : State) => (fun (cid : Nat) => (fun (psn : Nat) => ((s.conn cid).any fun (c : Conn) => decide ((fun (r : Served) => ((s.serveTag cid psn).any fun (t : Nat) => decide ((fun (u : State) => (fun (e : ReadEnd) => (s.fatal = false) ∧
    (s.serveTag cid psn = some t) ∧ (s.conn cid = some c) ∧ (c.served.find? (fun (r : Served) => r.psn == psn) = some r) ∧
    (u = (s.dropRead t).onConn cid (fun c => { c with served := c.served.filter (·.psn != psn) })))
    (.data (zeros 64))) ((s.dropRead t).onConn cid (fun c => { c with served := c.served.filter (·.psn != psn) })))) = true) ({ psn := 9, window := 7, addr := 0, len := 64, rtag := 1, admitted := 0, issued := true }))) = true) (9))
    (5)) ((((winUp win up).onKrm fun k => { k with conns := [(5, { connO with served := [{ psn := 9, window := 7, addr := 0, len := 64, rtag := 1, admitted := 0, issued := true }] })], cached := [5] })).onHost fun h => { h with reads := [(3, { ref := { fn := pf, pasid := none }, addr := 0x90000, len := 64, deadline := 0, dead := false, why := .serve 5 9 })] })) ∧
    ((fun (s : State) => (fun (cid : Nat) => (fun (psn : Nat) => ((s.conn cid).any fun (c : Conn) => decide ((fun (r : Served) => ((s.serveTag cid psn).any fun (t : Nat) => decide ((fun (u : State) => (fun (e : ReadEnd) => (s.fatal = false) ∧
    (s.serveTag cid psn = some t) ∧ (s.conn cid = some c) ∧ (c.served.find? (fun (r : Served) => r.psn == psn) = some r) ∧
    (u = (s.dropRead t).onConn cid (fun c => { c with served := c.served.filter (·.psn != psn) })))
    (.timeout)) ((s.dropRead t).onConn cid (fun c => { c with served := c.served.filter (·.psn != psn) })))) = true) ({ psn := 9, window := 7, addr := 0, len := 64, rtag := 1, admitted := 0, issued := true }))) = true) (9))
    (5)) ((((winUp win up).onKrm fun k => { k with conns := [(5, { connO with served := [{ psn := 9, window := 7, addr := 0, len := 64, rtag := 1, admitted := 0, issued := true }] })], cached := [5] })).onHost fun h => { h with reads := [(3, { ref := { fn := pf, pasid := none }, addr := 0x90000, len := 64, deadline := 0, dead := false, why := .serve 5 9 })] })) ∧
    ((fun (s : State) => (fun (cid : Nat) => (fun (psn : Nat) => ((s.conn cid).any fun (c : Conn) => decide ((fun (r : Served) => ((s.serveTag cid psn).any fun (t : Nat) => decide ((fun (u : State) => (fun (e : ReadEnd) => (s.fatal = false) ∧
    (s.serveTag cid psn = some t) ∧ (s.conn cid = some c) ∧ (c.served.find? (fun (r : Served) => r.psn == psn) = some r) ∧
    (u = (s.dropRead t).onConn cid (fun c => { c with served := c.served.filter (·.psn != psn) })))
    (.poisoned)) ((s.dropRead t).onConn cid (fun c => { c with served := c.served.filter (·.psn != psn) })))) = true) ({ psn := 9, window := 7, addr := 0, len := 64, rtag := 1, admitted := 0, issued := true }))) = true) (9))
    (5)) ((((winUp win up).onKrm fun k => { k with conns := [(5, { connO with served := [{ psn := 9, window := 7, addr := 0, len := 64, rtag := 1, admitted := 0, issued := true }] })], cached := [5] })).onHost fun h => { h with reads := [(3, { ref := { fn := pf, pasid := none }, addr := 0x90000, len := 64, deadline := 0, dead := false, why := .serve 5 9 })] })) ∧
    ((fun (s : State) => (fun (cid : Nat) => (fun (psn : Nat) => ((s.conn cid).any fun (c : Conn) => decide ((fun (r : Served) => ((s.serveTag cid psn).any fun (t : Nat) => decide ((fun (u : State) => (fun (e : ReadEnd) => (s.fatal = false) ∧
    (s.serveTag cid psn = some t) ∧ (s.conn cid = some c) ∧ (c.served.find? (fun (r : Served) => r.psn == psn) = some r) ∧
    (u = (s.dropRead t).onConn cid (fun c => { c with served := c.served.filter (·.psn != psn) })))
    (.aborted)) ((s.dropRead t).onConn cid (fun c => { c with served := c.served.filter (·.psn != psn) })))) = true) ({ psn := 9, window := 7, addr := 0, len := 64, rtag := 1, admitted := 0, issued := true }))) = true) (9))
    (5)) ((((winUp win up).onKrm fun k => { k with conns := [(5, { connO with served := [{ psn := 9, window := 7, addr := 0, len := 64, rtag := 1, admitted := 0, issued := true }] })], cached := [5] })).onHost fun h => { h with reads := [(3, { ref := { fn := pf, pasid := none }, addr := 0x90000, len := 64, deadline := 0, dead := false, why := .serve 5 9 })] })) ∧
    ((fun (s : State) => (fun (cid : Nat) => (fun (psn : Nat) => ((s.conn cid).any fun (c : Conn) => decide ((fun (r : Served) => ((s.serveTag cid psn).any fun (t : Nat) => decide ((fun (u : State) => (fun (e : ReadEnd) => (s.fatal = false) ∧
    (s.serveTag cid psn = some t) ∧ (s.conn cid = some c) ∧ (c.served.find? (fun (r : Served) => r.psn == psn) = some r) ∧
    (u = (s.dropRead t).onConn cid (fun c => { c with served := c.served.filter (·.psn != psn) })))
    (.timeout)) ((s.dropRead t).onConn cid (fun c => { c with served := c.served.filter (·.psn != psn) })))) = true) ({ psn := 9, window := 7, addr := 0, len := 64, rtag := 1, admitted := 0, issued := true }))) = true) (9))
    (5)) ((((winUp win up).onKrm fun k => { k with conns := [(5, { connO with served := [{ psn := 9, window := 7, addr := 0, len := 64, rtag := 1, admitted := 0, issued := true }], state := .error })], cached := [5] })).onHost fun h => { h with reads := [(3, { ref := { fn := pf, pasid := none }, addr := 0x90000, len := 64, deadline := 0, dead := false, why := .serve 5 9 })] })) ∧
    ((fun (s : State) => (fun (cid : Nat) => ((s.conn cid).any fun (c : Conn) => decide ((s.conn cid = some c) ∧
    (s.fatal = false) ∧ (c.state = .open) ∧ (s.cachedConn cid = true))) = true) (5)) (((winUp win up).onKrm fun k => { k with conns := [(5, { connO with queue := [] })], cached := [5] }))) ∧
    ((fun (s : State) => (fun (cid : Nat) => ((s.conn cid).any fun (c : Conn) => decide ((s.conn cid = some c) ∧
    (s.fatal = false) ∧ (c.state = .open) ∧ (s.cachedConn cid = true))) = true) (5)) (((winUp win up).onKrm fun k => { k with conns := [(5, { connO with queue := [sentPkt] })], cached := [5] }))) ∧
    ((fun (s : State) => (fun (cid : Nat) => ((s.conn cid).any fun (c : Conn) => decide ((s.conn cid = some c) ∧
    (s.fatal = false) ∧ (c.state = .open) ∧ (s.cachedConn cid = true))) = true) (5)) (((winUp win up).onKrm fun k => { k with conns := [(5, { connO with ctl := [(0x10, 0, 8)] })], cached := [5] }))) ∧
    ((fun (s : State) => (fun (cid : Nat) => (fun (t : Nat) => ((s.conn cid).any fun (c : Conn) => decide ((s.conn cid = some c) ∧
    (s.fatal = false) ∧ (c.state = .open) ∧ (c.ackDue = some t) ∧ (t ≤ s.ft))) = true) (2048))
    (5)) (atFt 2048 ((winUp win up).onKrm fun k => { k with conns := [(5, { connO with ackDue := some 2048, unacked := 1 })], cached := [5] }))) ∧
    ((fun (s : State) => (fun (cid : Nat) => ((s.conn cid).any fun (c : Conn) => decide ((fun (p : SentPkt) => (s.conn cid = some c) ∧
    (c.oldest = some p) ∧ (s.fatal = false) ∧ (c.state = .open) ∧ (s.onFrame = true) ∧ (p.rnrAt = none) ∧
    (p.lastFt + min 100000000 (c.rto * 2 ^ c.backoff) ≤ s.ft)) (sentPkt))) = true) (5)) (atFt 102400000 ((winUp win up).onKrm fun k => { k with conns := [(5, { connO with sent := [sentPkt], backoff := 0 })], cached := [5] }))) ∧
    ((fun (s : State) => (fun (cid : Nat) => ((s.conn cid).any fun (c : Conn) => decide ((fun (p : SentPkt) => (s.conn cid = some c) ∧
    (c.oldest = some p) ∧ (s.fatal = false) ∧ (c.state = .open) ∧ (s.onFrame = true) ∧ (p.rnrAt = none) ∧
    (p.lastFt + min 100000000 (c.rto * 2 ^ c.backoff) ≤ s.ft)) (sentPkt))) = true) (5)) (atFt 102400000 ((winUp win up).onKrm fun k => { k with conns := [(5, { connO with sent := [sentPkt], backoff := 6 })], cached := [5] }))) ∧
    ((fun (s : State) => (fun (cid : Nat) => ((s.conn cid).any fun (c : Conn) => decide ((fun (p : SentPkt) => (s.conn cid = some c) ∧
    (c.oldest = some p) ∧ (s.fatal = false) ∧ (c.state = .open) ∧ (s.onFrame = true) ∧ (p.rnrAt = none) ∧
    (p.lastFt + min 100000000 (c.rto * 2 ^ c.backoff) ≤ s.ft)) (sentPkt))) = true) (5)) (atFt 102400000 ((winUp win up).onKrm fun k => { k with conns := [(5, { connO with sent := [sentPkt], backoff := 7 })], cached := [5] }))) ∧
    ((fun (s : State) => (fun (cid : Nat) => ((s.conn cid).any fun (c : Conn) => decide ((fun (l : List SentPkt) => (s.conn cid = some c) ∧
    (s.fatal = false) ∧ (c.state = .open) ∧ (s.onFrame = true) ∧ (l ≠ [])) (c.sent.filter (fun p => p.rnrAt.any (· ≤ s.ft))))) = true) (5))
    (atFt 1048576 ((winUp win up).onKrm fun k => { k with conns := [(5, { connO with sent := [{ sentPkt with rnrAt := some 5 }, { sentPkt with psn := 10 }] })], cached := [5] }))) := by
  refine ⟨?_, ?_, ?_, ?_, ?_, ?_, ?_, ?_, ?_, ?_, ?_, ?_, ?_, ?_, ?_, ?_, ?_, ?_, ?_, ?_, ?_, ?_, ?_, ?_, ?_⟩
  · exact ⟨rfl, rfl, rfl, rfl⟩
  · exact ⟨rfl, rfl, rfl, rfl⟩
  · exact ⟨rfl, rfl, rfl, rfl⟩
  · exact ⟨rfl, rfl, rfl, rfl⟩
  · exact ⟨rfl, rfl, rfl, rfl⟩
  · exact ⟨rfl, rfl, rfl, rfl⟩
  · decide +kernel
  · decide +kernel
  · decide +kernel
  · decide +kernel
  · decide +kernel
  · decide +kernel
  · decide +kernel
  · decide +kernel
  · decide +kernel
  · decide +kernel
  · decide +kernel
  · decide +kernel
  · decide +kernel
  · decide +kernel
  · decide +kernel
  · decide +kernel
  · decide +kernel
  · decide +kernel
  · decide +kernel

/-- Clauses 1, 1, 2, 2, 2, 2, 2, 2, 2, 3, 3 of KrmEntriesStart. -/
theorem witness_krmEntriesStart :
    ((fun (s : State) => (fun (qid : Nat) => ((s.readyHead qid).any fun z => decide ((fun (q : Queue) (e : Bytes) => (fun (o : Nat) => (fun (x : State) => (s.readyHead qid = some (q, e)) ∧
    (q.cls = .krmSq) ∧ (entryOp e = o) ∧ ((s.conn (krmCid e)).any (fun c => c.owner == q.owner) = false))
    ((s.spoofFailed q.owner 1).endHead qid St.denied (krmCid e) e)) (1)) (z.1) (z.2))) = true) (3))
    (headUp .krmSq (krmEntry 1) (up))) ∧
    ((fun (s : State) => (fun (qid : Nat) => ((s.readyHead qid).any fun z => decide ((fun (q : Queue) (e : Bytes) => (fun (o : Nat) => (fun (x : State) => (s.readyHead qid = some (q, e)) ∧
    (q.cls = .krmSq) ∧ (entryOp e = o) ∧ ((s.conn (krmCid e)).any (fun c => c.owner == q.owner) = false))
    ((s.spoofFailed q.owner 1).endHead qid St.denied (krmCid e) e)) (2)) (z.1) (z.2))) = true) (3))
    (headUp .krmSq (krmEntry 2) (((winUp win up).onKrm fun k => { k with conns := [(5, { connO with owner := .firmware })], cached := [5] })))) ∧
    ((fun (s : State) => (fun (qid : Nat) => ((s.readyHead qid).any fun z => decide ((fun (q : Queue) (e : Bytes) => ((s.conn (krmCid e)).any fun (c : Conn) => decide ((fun (y : State × Bool) => (fun (z : State × Nat) => (fun (o : Nat) => (fun (x : State) => (s.readyHead qid = some (q, e)) ∧
    (q.cls = .krmSq) ∧ (entryOp e = o) ∧ (s.conn (krmCid e) = some c) ∧ (c.owner = q.owner)) ((if c.state ≠ .open ∨ c.claims ≠ 0 then s.endHead qid St.badState (krmCid e) e else if s.cachedConn (krmCid e) = false then s else if y.2 = false then y.1 else if o = 2 then z.1.krmGo (krmCid e) else (z.1.readFrags z.2 q.owner 0 (entryFrags .krmSq e q.headFrags)).krmGo (krmCid e))))
    (1)) (y.1.newOp qid e (entryFrags .krmSq e q.headFrags))) (s.shaperGo qid (fragTotal (entryFrags .krmSq e q.headFrags))))) = true) (z.1) (z.2))) = true) (3))
    (headUp .krmSq (krmEntry 1) (((winUp win up).onKrm fun k => { k with conns := [(5, connO)], cached := [5] })))) ∧
    ((fun (s : State) => (fun (qid : Nat) => ((s.readyHead qid).any fun z => decide ((fun (q : Queue) (e : Bytes) => ((s.conn (krmCid e)).any fun (c : Conn) => decide ((fun (y : State × Bool) => (fun (z : State × Nat) => (fun (o : Nat) => (fun (x : State) => (s.readyHead qid = some (q, e)) ∧
    (q.cls = .krmSq) ∧ (entryOp e = o) ∧ (s.conn (krmCid e) = some c) ∧ (c.owner = q.owner)) ((if c.state ≠ .open ∨ c.claims ≠ 0 then s.endHead qid St.badState (krmCid e) e else if s.cachedConn (krmCid e) = false then s else if y.2 = false then y.1 else if o = 2 then z.1.krmGo (krmCid e) else (z.1.readFrags z.2 q.owner 0 (entryFrags .krmSq e q.headFrags)).krmGo (krmCid e))))
    (2)) (y.1.newOp qid e (entryFrags .krmSq e q.headFrags))) (s.shaperGo qid (fragTotal (entryFrags .krmSq e q.headFrags))))) = true) (z.1) (z.2))) = true) (3))
    (headUp .krmSq (krmEntry 2) (((winUp win up).onKrm fun k => { k with conns := [(5, connO)], cached := [5] })))) ∧
    ((fun (s : State) => (fun (qid : Nat) => ((s.readyHead qid).any fun z => decide ((fun (q : Queue) (e : Bytes) => ((s.conn (krmCid e)).any fun (c : Conn) => decide ((fun (y : State × Bool) => (fun (z : State × Nat) => (fun (o : Nat) => (fun (x : State) => (s.readyHead qid = some (q, e)) ∧
    (q.cls = .krmSq) ∧ (entryOp e = o) ∧ (s.conn (krmCid e) = some c) ∧ (c.owner = q.owner)) ((if c.state ≠ .open ∨ c.claims ≠ 0 then s.endHead qid St.badState (krmCid e) e else if s.cachedConn (krmCid e) = false then s else if y.2 = false then y.1 else if o = 2 then z.1.krmGo (krmCid e) else (z.1.readFrags z.2 q.owner 0 (entryFrags .krmSq e q.headFrags)).krmGo (krmCid e))))
    (3)) (y.1.newOp qid e (entryFrags .krmSq e q.headFrags))) (s.shaperGo qid (fragTotal (entryFrags .krmSq e q.headFrags))))) = true) (z.1) (z.2))) = true) (3))
    (headUp .krmSq (krmEntry 3) (((winUp win up).onKrm fun k => { k with conns := [(5, connO)], cached := [5] })))) ∧
    ((fun (s : State) => (fun (qid : Nat) => ((s.readyHead qid).any fun z => decide ((fun (q : Queue) (e : Bytes) => ((s.conn (krmCid e)).any fun (c : Conn) => decide ((fun (y : State × Bool) => (fun (z : State × Nat) => (fun (o : Nat) => (fun (x : State) => (s.readyHead qid = some (q, e)) ∧
    (q.cls = .krmSq) ∧ (entryOp e = o) ∧ (s.conn (krmCid e) = some c) ∧ (c.owner = q.owner)) ((if c.state ≠ .open ∨ c.claims ≠ 0 then s.endHead qid St.badState (krmCid e) e else if s.cachedConn (krmCid e) = false then s else if y.2 = false then y.1 else if o = 2 then z.1.krmGo (krmCid e) else (z.1.readFrags z.2 q.owner 0 (entryFrags .krmSq e q.headFrags)).krmGo (krmCid e))))
    (1)) (y.1.newOp qid e (entryFrags .krmSq e q.headFrags))) (s.shaperGo qid (fragTotal (entryFrags .krmSq e q.headFrags))))) = true) (z.1) (z.2))) = true) (3))
    (headUp .krmSq (krmEntry 1) ((winUp win up).onKrm fun k => { k with conns := [(5, { connO with state := .error })], cached := [5] }))) ∧
    ((fun (s : State) => (fun (qid : Nat) => ((s.readyHead qid).any fun z => decide ((fun (q : Queue) (e : Bytes) => ((s.conn (krmCid e)).any fun (c : Conn) => decide ((fun (y : State × Bool) => (fun (z : State × Nat) => (fun (o : Nat) => (fun (x : State) => (s.readyHead qid = some (q, e)) ∧
    (q.cls = .krmSq) ∧ (entryOp e = o) ∧ (s.conn (krmCid e) = some c) ∧ (c.owner = q.owner)) ((if c.state ≠ .open ∨ c.claims ≠ 0 then s.endHead qid St.badState (krmCid e) e else if s.cachedConn (krmCid e) = false then s else if y.2 = false then y.1 else if o = 2 then z.1.krmGo (krmCid e) else (z.1.readFrags z.2 q.owner 0 (entryFrags .krmSq e q.headFrags)).krmGo (krmCid e))))
    (1)) (y.1.newOp qid e (entryFrags .krmSq e q.headFrags))) (s.shaperGo qid (fragTotal (entryFrags .krmSq e q.headFrags))))) = true) (z.1) (z.2))) = true) (3))
    (headUp .krmSq (krmEntry 1) ((winUp win up).onKrm fun k => { k with conns := [(5, { connO with claims := 1 })], cached := [5] }))) ∧
    ((fun (s : State) => (fun (qid : Nat) => ((s.readyHead qid).any fun z => decide ((fun (q : Queue) (e : Bytes) => ((s.conn (krmCid e)).any fun (c : Conn) => decide ((fun (y : State × Bool) => (fun (z : State × Nat) => (fun (o : Nat) => (fun (x : State) => (s.readyHead qid = some (q, e)) ∧
    (q.cls = .krmSq) ∧ (entryOp e = o) ∧ (s.conn (krmCid e) = some c) ∧ (c.owner = q.owner)) ((if c.state ≠ .open ∨ c.claims ≠ 0 then s.endHead qid St.badState (krmCid e) e else if s.cachedConn (krmCid e) = false then s else if y.2 = false then y.1 else if o = 2 then z.1.krmGo (krmCid e) else (z.1.readFrags z.2 q.owner 0 (entryFrags .krmSq e q.headFrags)).krmGo (krmCid e))))
    (1)) (y.1.newOp qid e (entryFrags .krmSq e q.headFrags))) (s.shaperGo qid (fragTotal (entryFrags .krmSq e q.headFrags))))) = true) (z.1) (z.2))) = true) (3))
    (headUp .krmSq (krmEntry 1) ((winUp win up).onKrm fun k => { k with conns := [(5, connO)], cached := [] }))) ∧
    ((fun (s : State) => (fun (qid : Nat) => ((s.readyHead qid).any fun z => decide ((fun (q : Queue) (e : Bytes) => ((s.conn (krmCid e)).any fun (c : Conn) => decide ((fun (y : State × Bool) => (fun (z : State × Nat) => (fun (o : Nat) => (fun (x : State) => (s.readyHead qid = some (q, e)) ∧
    (q.cls = .krmSq) ∧ (entryOp e = o) ∧ (s.conn (krmCid e) = some c) ∧ (c.owner = q.owner)) ((if c.state ≠ .open ∨ c.claims ≠ 0 then s.endHead qid St.badState (krmCid e) e else if s.cachedConn (krmCid e) = false then s else if y.2 = false then y.1 else if o = 2 then z.1.krmGo (krmCid e) else (z.1.readFrags z.2 q.owner 0 (entryFrags .krmSq e q.headFrags)).krmGo (krmCid e))))
    (1)) (y.1.newOp qid e (entryFrags .krmSq e q.headFrags))) (s.shaperGo qid (fragTotal (entryFrags .krmSq e q.headFrags))))) = true) (z.1) (z.2))) = true) (3))
    ((headUp .krmSq (krmEntry 1) ((winUp win up).onKrm fun k => { k with conns := [(5, connO)], cached := [5] })).onQueue 3 fun q => { q with shaper := { q.shaper with rate := 1, credit := -1 } })) ∧
    ((fun (s : State) => (fun (qid : Nat) => ((s.readyHead qid).any fun z => decide ((fun (q : Queue) (e : Bytes) => (fun (y : State × Bool) => (s.readyHead qid = some (q, e)) ∧
    (q.cls = .krmRq) ∧ (entryOp e = 1) ∧ (y = s.shaperGo qid (fragTotal (entryFrags .krmRq e q.headFrags))))
    (s.shaperGo qid (fragTotal (entryFrags .krmRq e q.headFrags)))) (z.1) (z.2))) = true) (3))
    (headUp .krmRq (wEntry 1 64 []) up)) ∧
    ((fun (s : State) => (fun (qid : Nat) => ((s.readyHead qid).any fun z => decide ((fun (q : Queue) (e : Bytes) => (fun (y : State × Bool) => (s.readyHead qid = some (q, e)) ∧
    (q.cls = .krmRq) ∧ (entryOp e = 1) ∧ (y = s.shaperGo qid (fragTotal (entryFrags .krmRq e q.headFrags))))
    (s.shaperGo qid (fragTotal (entryFrags .krmRq e q.headFrags)))) (z.1) (z.2))) = true) (3))
    ((headUp .krmRq (wEntry 1 64 []) up).onQueue 3 fun q => { q with shaper := { q.shaper with rate := 1, credit := -1 } })) := by
  refine ⟨?_, ?_, ?_, ?_, ?_, ?_, ?_, ?_, ?_, ?_, ?_⟩ <;> decide +kernel

/-- Clauses 1, 1, 2, 2, 3, 4, 5, 7, 7, 8, 9, 10, 10, 10, 11, 11, 11 of VolumesAndTheirSelfTests. -/
theorem witness_volumesAndTheirSelfTests :
    ((fun (s : State) => (fun (c : Cmd) => (fun (who : Caller) => (fun (env : BkEnv) => (fun (vid : Nat) => (s.bkAccepts 0x0701 c who env false true false = true) ∧
    (volumeLenOk c = true) ∧ ((s.served 0x0701 c).volumeCreateCheck c who = none) ∧ (bit (cmdByte c 16) 3 = false))
    ((if c.target.toNat = targetNone then (chooseFree (s.served 0x0701 c).freeVal 16384 (s.served 0x0701 c).blk.volumes.length (s.served 0x0701 c).blk.volumes.has).getD 0 else c.target.toNat)))
    ({ mediaOk := true, rpmbOk := true, noiseOk := true, pb := c.pb })) (.fn pf)) (volC 0)) (pfRing 0x0701 (volC 0) blkUp)) ∧
    ((fun (s : State) => (fun (c : Cmd) => (fun (who : Caller) => (fun (env : BkEnv) => (fun (vid : Nat) => (s.bkAccepts 0x0701 c who env false true false = true) ∧
    (volumeLenOk c = true) ∧ ((s.served 0x0701 c).volumeCreateCheck c who = none) ∧ (bit (cmdByte c 16) 3 = false))
    ((if c.target.toNat = targetNone then (chooseFree (s.served 0x0701 c).freeVal 16384 (s.served 0x0701 c).blk.volumes.length (s.served 0x0701 c).blk.volumes.has).getD 0 else c.target.toNat)))
    ({ mediaOk := true, rpmbOk := true, noiseOk := true, pb := c.pb })) (.fn pf)) ({ volC 0 with target := 0xFFFFFFFF }))
    (pfRing 0x0701 ({ volC 0 with target := 0xFFFFFFFF }) blkUp)) ∧
    ((fun (s : State) => (fun (c : Cmd) => (fun (who : Caller) => (fun (env : BkEnv) => (((s.served 0x0701 c).useFree.newRegion none .function (cmdLe c 24 8 * (if bit (cmdByte c 16) 4 then 4096 else 512))
    (some who.owner)).any fun z => decide ((fun (u : State) (r : Nat) => (fun (vid : Nat) => (s.bkAccepts 0x0701 c who env false true false = true) ∧
    (volumeLenOk c = true) ∧ ((s.served 0x0701 c).volumeCreateCheck c who = none) ∧ (bit (cmdByte c 16) 3 = true) ∧
    ((s.served 0x0701 c).useFree.newRegion none .function (cmdLe c 24 8 * (if bit (cmdByte c 16) 4 then 4096 else 512))
    (some who.owner) = some (u, r))) ((if c.target.toNat = targetNone then (chooseFree (s.served 0x0701 c).freeVal 16384 (s.served 0x0701 c).blk.volumes.length (s.served 0x0701 c).blk.volumes.has).getD 0 else c.target.toNat)))
    (z.1) (z.2))) = true) ({ mediaOk := true, rpmbOk := true, noiseOk := true, pb := c.pb }))
    (.fn pf)) (ramC 8)) (pfRing 0x0701 (ramC 8) up)) ∧
    ((fun (s : State) => (fun (c : Cmd) => (fun (who : Caller) => (fun (env : BkEnv) => (((s.served 0x0701 c).useFree.newRegion none .function (cmdLe c 24 8 * (if bit (cmdByte c 16) 4 then 4096 else 512))
    (some who.owner)).any fun z => decide ((fun (u : State) (r : Nat) => (fun (vid : Nat) => (s.bkAccepts 0x0701 c who env false true false = true) ∧
    (volumeLenOk c = true) ∧ ((s.served 0x0701 c).volumeCreateCheck c who = none) ∧ (bit (cmdByte c 16) 3 = true) ∧
    ((s.served 0x0701 c).useFree.newRegion none .function (cmdLe c 24 8 * (if bit (cmdByte c 16) 4 then 4096 else 512))
    (some who.owner) = some (u, r))) ((if c.target.toNat = targetNone then (chooseFree (s.served 0x0701 c).freeVal 16384 (s.served 0x0701 c).blk.volumes.length (s.served 0x0701 c).blk.volumes.has).getD 0 else c.target.toNat)))
    (z.1) (z.2))) = true) ({ mediaOk := true, rpmbOk := true, noiseOk := true, pb := c.pb }))
    (.fn pf)) (ramC 26)) (pfRing 0x0701 (ramC 26) up)) ∧
    ((fun (s : State) => (fun (c : Cmd) => (fun (who : Caller) => (fun (env : BkEnv) => (s.bkAccepts 0x0701 c who env false true false = true) ∧
    (volumeLenOk c = true) ∧ ((s.served 0x0701 c).volumeCreateCheck c who = none) ∧ (bit (cmdByte c 16) 3 = true) ∧
    ((s.served 0x0701 c).useFree.newRegion none .function (cmdLe c 24 8 * (if bit (cmdByte c 16) 4 then 4096 else 512))
    (some who.owner) = none)) ({ mediaOk := true, rpmbOk := true, noiseOk := true, pb := c.pb }))
    (.fn pf)) (ramBig)) (pfRing 0x0701 (ramBig) up)) ∧
    ((fun (s : State) => (fun (c : Cmd) => (fun (who : Caller) => (fun (env : BkEnv) => (((s.taken 0x0702 c).volume c.target.toNat).any fun (v : Volume) => decide ((s.bkAccepts 0x0702 c who env false true true = true) ∧
    ((s.served 0x0702 c).volume c.target.toNat = some v) ∧ ((s.served 0x0702 c).volumeBusy c.target.toNat = false))) = true) ({ mediaOk := true, rpmbOk := true, noiseOk := true, pb := c.pb }))
    (.fn pf)) (r0 9)) (pfRing 0x0702 (r0 9) (volUp vol blkUp))) ∧
    ((fun (s : State) => (fun (c : Cmd) => (fun (who : Caller) => (((s.taken 0x0703 c).volume c.target.toNat).any fun (v : Volume) => decide ((s.accepts 0x0703 c who false true true = true) ∧
    ((s.taken 0x0703 c).volume c.target.toNat = some v))) = true) (.fn pf)) (r0 9)) (pfRing 0x0703 (r0 9) (volUp vol blkUp))) ∧
    ((fun (s : State) => (fun (c : Cmd) => (fun (who : Caller) => (((s.taken 0x0705 c).volume c.target.toNat).any fun (v : Volume) => decide ((fun (t : TestState) => (s.accepts 0x0705 c who false true true = true) ∧
    ((s.taken 0x0705 c).volume c.target.toNat = some v) ∧ (v.testing = false) ∧ (cmdByte c 16 = 0 ∧
    t = .short ∨ cmdByte c 16 = 1 ∧ t = .extended)) (.short))) = true) (.fn pf)) (r1 9 16 0))
    (pfRing 0x0705 (r1 9 16 0) (volUp vol blkUp))) ∧
    ((fun (s : State) => (fun (c : Cmd) => (fun (who : Caller) => (((s.taken 0x0705 c).volume c.target.toNat).any fun (v : Volume) => decide ((fun (t : TestState) => (s.accepts 0x0705 c who false true true = true) ∧
    ((s.taken 0x0705 c).volume c.target.toNat = some v) ∧ (v.testing = false) ∧ (cmdByte c 16 = 0 ∧
    t = .short ∨ cmdByte c 16 = 1 ∧ t = .extended)) (.extended))) = true) (.fn pf)) (r1 9 16 1))
    (pfRing 0x0705 (r1 9 16 1) (volUp vol blkUp))) ∧
    ((fun (s : State) => (fun (c : Cmd) => (fun (who : Caller) => (((s.taken 0x0705 c).volume c.target.toNat).any fun (v : Volume) => decide ((s.accepts 0x0705 c who false true true = true) ∧
    ((s.taken 0x0705 c).volume c.target.toNat = some v) ∧ (v.testing = true) ∧ (cmdByte c 16 = 2))) = true) (.fn pf))
    (r1 9 16 2)) (pfRing 0x0705 (r1 9 16 2) (volUp ({ ram 0 with test := .short, testNext := [3], testDone := 1 }) up))) ∧
    ((fun (s : State) => (fun (c : Cmd) => (fun (who : Caller) => (((s.taken 0x0706 c).volume c.target.toNat).any fun (v : Volume) => decide ((s.accepts 0x0706 c who false true true = true) ∧
    ((s.taken 0x0706 c).volume c.target.toNat = some v))) = true) (.fn pf)) (r0 9)) (pfRing 0x0706 (r0 9) (volUp ({ ram 0 with test := .short, testNext := [3], testDone := 1 }) up))) ∧
    ((fun (s : State) => (fun (vid : Nat) => (fun (m : Nat) => (fun (rg : Nat) => ((s.volume vid).any fun (v : Volume) => decide ((fun (k : Nat) => (fun (bad : Option Nat) => (s.volume vid = some v) ∧
    (s.fatal = false) ∧ (v.testing = true) ∧ (m < v.span) ∧ (k = v.testNext.getD m 0) ∧ (k < v.testCount v.test m) ∧
    (v.testTurn m k = true) ∧ (v.testBusy.any (fun (x, _, _) => x == m) = false) ∧ (v.testStale.any (·.1 == m) = false) ∧
    (s.blk.pieces.any (fun (_, p) => !p.issued && !p.done && match s.volume p.vid with | some x => s.memberTile p.vid x p.member == s.memberTile vid v m | none => false) = false) ∧
    (v.region = some rg) ∧ (bad = (v.testUnit m k).bind (s.ramBad v rg))) ((v.testUnit m k).bind (s.ramBad v rg)))
    (v.testNext.getD m 0))) = true) (0)) (1)) (9)) (volUp ({ ram 1 with test := .extended, testNext := [1, 0] }) up)) ∧
    ((fun (s : State) => (fun (vid : Nat) => (fun (m : Nat) => (fun (rg : Nat) => ((s.volume vid).any fun (v : Volume) => decide ((fun (k : Nat) => (fun (bad : Option Nat) => (s.volume vid = some v) ∧
    (s.fatal = false) ∧ (v.testing = true) ∧ (m < v.span) ∧ (k = v.testNext.getD m 0) ∧ (k < v.testCount v.test m) ∧
    (v.testTurn m k = true) ∧ (v.testBusy.any (fun (x, _, _) => x == m) = false) ∧ (v.testStale.any (·.1 == m) = false) ∧
    (s.blk.pieces.any (fun (_, p) => !p.issued && !p.done && match s.volume p.vid with | some x => s.memberTile p.vid x p.member == s.memberTile vid v m | none => false) = false) ∧
    (v.region = some rg) ∧ (bad = (v.testUnit m k).bind (s.ramBad v rg))) ((v.testUnit m k).bind (s.ramBad v rg)))
    (v.testNext.getD m 0))) = true) (0)) (0)) (9)) (volUp ({ ram 0 with test := .extended, testNext := [7], testDone := 7 }) up)) ∧
    ((fun (s : State) => (fun (vid : Nat) => (fun (m : Nat) => (fun (rg : Nat) => ((s.volume vid).any fun (v : Volume) => decide ((fun (k : Nat) => (fun (bad : Option Nat) => (s.volume vid = some v) ∧
    (s.fatal = false) ∧ (v.testing = true) ∧ (m < v.span) ∧ (k = v.testNext.getD m 0) ∧ (k < v.testCount v.test m) ∧
    (v.testTurn m k = true) ∧ (v.testBusy.any (fun (x, _, _) => x == m) = false) ∧ (v.testStale.any (·.1 == m) = false) ∧
    (s.blk.pieces.any (fun (_, p) => !p.issued && !p.done && match s.volume p.vid with | some x => s.memberTile p.vid x p.member == s.memberTile vid v m | none => false) = false) ∧
    (v.region = some rg) ∧ (bad = (v.testUnit m k).bind (s.ramBad v rg))) ((v.testUnit m k).bind (s.ramBad v rg)))
    (v.testNext.getD m 0))) = true) (0)) (0)) (9)) (volUp ({ ram 0 with test := .short, testNext := [7], testDone := 7 }) up)) ∧
    ((fun (s : State) => (fun (vid : Nat) => (fun (m : Nat) => ((s.volume vid).any fun (v : Volume) => decide ((fun (k : Nat) => ((s.conn (v.member m).cid).any fun (c : Conn) => decide ((fun (x : State × Nat) => (s.volume vid = some v) ∧
    (s.fatal = false) ∧ (v.testing = true) ∧ (m < v.span) ∧ (k = v.testNext.getD m 0) ∧ (k < v.testCount v.test m) ∧
    (v.testTurn m k = true) ∧ (v.testBusy.any (fun (x, _, _) => x == m) = false) ∧ (v.testStale.any (·.1 == m) = false) ∧
    (s.blk.pieces.any (fun (_, p) => !p.issued && !p.done && match s.volume p.vid with | some x => s.memberTile p.vid x p.member == s.memberTile vid v m | none => false) = false) ∧
    (v.region = none) ∧ (s.conn (v.member m).cid = some c)) ((s.onVolume vid fun w => { w with testNext := w.testNext.set m (k + 1) }).takeRtag))) = true) (v.testNext.getD m 0))) = true) (0))
    (9)) (volUp ({ vol with test := .extended, testNext := [1] }) (blkUp))) ∧
    ((fun (s : State) => (fun (vid : Nat) => (fun (m : Nat) => ((s.volume vid).any fun (v : Volume) => decide ((fun (k : Nat) => ((s.conn (v.member m).cid).any fun (c : Conn) => decide ((fun (x : State × Nat) => (s.volume vid = some v) ∧
    (s.fatal = false) ∧ (v.testing = true) ∧ (m < v.span) ∧ (k = v.testNext.getD m 0) ∧ (k < v.testCount v.test m) ∧
    (v.testTurn m k = true) ∧ (v.testBusy.any (fun (x, _, _) => x == m) = false) ∧ (v.testStale.any (·.1 == m) = false) ∧
    (s.blk.pieces.any (fun (_, p) => !p.issued && !p.done && match s.volume p.vid with | some x => s.memberTile p.vid x p.member == s.memberTile vid v m | none => false) = false) ∧
    (v.region = none) ∧ (s.conn (v.member m).cid = some c)) ((s.onVolume vid fun w => { w with testNext := w.testNext.set m (k + 1) }).takeRtag))) = true) (v.testNext.getD m 0))) = true) (0))
    (9)) (volUp ({ vol with test := .short, testNext := [0] }) (blkUp))) ∧
    ((fun (s : State) => (fun (vid : Nat) => (fun (m : Nat) => ((s.volume vid).any fun (v : Volume) => decide ((fun (k : Nat) => ((s.conn (v.member m).cid).any fun (c : Conn) => decide ((fun (x : State × Nat) => (s.volume vid = some v) ∧
    (s.fatal = false) ∧ (v.testing = true) ∧ (m < v.span) ∧ (k = v.testNext.getD m 0) ∧ (k < v.testCount v.test m) ∧
    (v.testTurn m k = true) ∧ (v.testBusy.any (fun (x, _, _) => x == m) = false) ∧ (v.testStale.any (·.1 == m) = false) ∧
    (s.blk.pieces.any (fun (_, p) => !p.issued && !p.done && match s.volume p.vid with | some x => s.memberTile p.vid x p.member == s.memberTile vid v m | none => false) = false) ∧
    (v.region = none) ∧ (s.conn (v.member m).cid = some c)) ((s.onVolume vid fun w => { w with testNext := w.testNext.set m (k + 1) }).takeRtag))) = true) (v.testNext.getD m 0))) = true) (0))
    (9)) (volUp ({ vol with test := .extended, testNext := [1] }) (connUp { connB with state := .error } up))) := by
  refine ⟨?_, ?_, ?_, ?_, ?_, ?_, ?_, ?_, ?_, ?_, ?_, ?_, ?_, ?_, ?_, ?_, ?_⟩ <;> decide +kernel

/-- Clauses 1, 1, 2, 2, 2, 2, 2, 4, 4, 4, 4, 4, 5, 5, 5, 6, 7, 7, 7, 8, 9, 10 of BlockCommandsAreSplitIssuedAndReset. -/
theorem witness_blockCommandsAreSplitIssuedAndReset :
    ((fun (s : State) => (fun (qid : Nat) => ((s.readyHead qid).any fun z => decide ((fun (q : Queue) (e : Bytes) => (fun (op : Nat) => ((s.blkEntryCheck qid q.owner e (fragTotal (entryFrags .blkSq e q.headFrags))).any fun (st : Nat) => decide ((fun (w : State) => (s.readyHead qid = some (q, e)) ∧
    (q.cls = .blkSq) ∧ (entryOp e = op) ∧ (s.blkEntryCheck qid q.owner e (fragTotal (entryFrags .blkSq e q.headFrags)) = some st))
    (s.endHead qid st (blkC12 e) e))) = true) (1)) (z.1) (z.2))) = true) (3)) (headUp .blkSq (blkEntry 1 [(12, toLe 2 10)]) (volUp (vol) up))) ∧
    ((fun (s : State) => (fun (qid : Nat) => ((s.readyHead qid).any fun z => decide ((fun (q : Queue) (e : Bytes) => (fun (op : Nat) => ((s.blkEntryCheck qid q.owner e (fragTotal (entryFrags .blkSq e q.headFrags))).any fun (st : Nat) => decide ((fun (w : State) => (s.readyHead qid = some (q, e)) ∧
    (q.cls = .blkSq) ∧ (entryOp e = op) ∧ (s.blkEntryCheck qid q.owner e (fragTotal (entryFrags .blkSq e q.headFrags)) = some st))
    (s.endHead qid st (blkC12 e) e))) = true) (2)) (z.1) (z.2))) = true) (3)) (headUp .blkSq (blkEntry 2 [(16, toLe 8 60)]) (volUp (ram 1) up))) ∧
    ((fun (s : State) => (fun (qid : Nat) => ((s.readyHead qid).any fun z => decide ((fun (q : Queue) (e : Bytes) => (fun (op : Nat) => ((s.volume (blkVid e)).any fun (x : Volume) => decide ((fun (y : State × Bool) => (fun (z : State × Nat) => (fun (w : State) => (s.readyHead qid = some (q, e)) ∧
    (q.cls = .blkSq) ∧ (entryOp e = op) ∧ (s.volume (blkVid e) = some x) ∧ (s.blkEntryCheck qid q.owner e (fragTotal (entryFrags .blkSq e q.headFrags)) = none))
    ((if s.orderedOk qid e x = false then s else if y.2 = false then y.1 else ((blkSplit x z.2 (blkVid e) e).foldl (fun s p => s.onBlk fun b => { b with pieces := b.pieces.set b.nextPiece p, nextPiece := b.nextPiece + 1 }) ((if x.span = 4 ∧
    entryOrdered e = true then (z.1.count Ct.block q.home 0).count Ct.block q.home 1 else z.1.count Ct.block q.home 0).onVolume (blkVid e) fun y => { y with cmds := (y.cmds + 1) % 2 ^ 48, vseq := y.vseq + 1 })).onOp z.2 fun o => { o with admitted := true })))
    (y.1.newOp qid e (entryFrags .blkSq e q.headFrags))) (s.shaperGo qid (fragTotal (entryFrags .blkSq e q.headFrags))))) = true) (1))
    (z.1) (z.2))) = true) (3)) (headUp .blkSq (blkEntry 1 []) (volUp (vol) up))) ∧
    ((fun (s : State) => (fun (qid : Nat) => ((s.readyHead qid).any fun z => decide ((fun (q : Queue) (e : Bytes) => (fun (op : Nat) => ((s.volume (blkVid e)).any fun (x : Volume) => decide ((fun (y : State × Bool) => (fun (z : State × Nat) => (fun (w : State) => (s.readyHead qid = some (q, e)) ∧
    (q.cls = .blkSq) ∧ (entryOp e = op) ∧ (s.volume (blkVid e) = some x) ∧ (s.blkEntryCheck qid q.owner e (fragTotal (entryFrags .blkSq e q.headFrags)) = none))
    ((if s.orderedOk qid e x = false then s else if y.2 = false then y.1 else ((blkSplit x z.2 (blkVid e) e).foldl (fun s p => s.onBlk fun b => { b with pieces := b.pieces.set b.nextPiece p, nextPiece := b.nextPiece + 1 }) ((if x.span = 4 ∧
    entryOrdered e = true then (z.1.count Ct.block q.home 0).count Ct.block q.home 1 else z.1.count Ct.block q.home 0).onVolume (blkVid e) fun y => { y with cmds := (y.cmds + 1) % 2 ^ 48, vseq := y.vseq + 1 })).onOp z.2 fun o => { o with admitted := true })))
    (y.1.newOp qid e (entryFrags .blkSq e q.headFrags))) (s.shaperGo qid (fragTotal (entryFrags .blkSq e q.headFrags))))) = true) (2))
    (z.1) (z.2))) = true) (3)) (headUp .blkSq (blkEntry 2 []) (volUp (ram 1) up))) ∧
    ((fun (s : State) => (fun (qid : Nat) => ((s.readyHead qid).any fun z => decide ((fun (q : Queue) (e : Bytes) => (fun (op : Nat) => ((s.volume (blkVid e)).any fun (x : Volume) => decide ((fun (y : State × Bool) => (fun (z : State × Nat) => (fun (w : State) => (s.readyHead qid = some (q, e)) ∧
    (q.cls = .blkSq) ∧ (entryOp e = op) ∧ (s.volume (blkVid e) = some x) ∧ (s.blkEntryCheck qid q.owner e (fragTotal (entryFrags .blkSq e q.headFrags)) = none))
    ((if s.orderedOk qid e x = false then s else if y.2 = false then y.1 else ((blkSplit x z.2 (blkVid e) e).foldl (fun s p => s.onBlk fun b => { b with pieces := b.pieces.set b.nextPiece p, nextPiece := b.nextPiece + 1 }) ((if x.span = 4 ∧
    entryOrdered e = true then (z.1.count Ct.block q.home 0).count Ct.block q.home 1 else z.1.count Ct.block q.home 0).onVolume (blkVid e) fun y => { y with cmds := (y.cmds + 1) % 2 ^ 48, vseq := y.vseq + 1 })).onOp z.2 fun o => { o with admitted := true })))
    (y.1.newOp qid e (entryFrags .blkSq e q.headFrags))) (s.shaperGo qid (fragTotal (entryFrags .blkSq e q.headFrags))))) = true) (3))
    (z.1) (z.2))) = true) (3)) (headUp .blkSq (blkEntry 3 []) (volUp (ram 0) up))) ∧
    ((fun (s : State) => (fun (qid : Nat) => ((s.readyHead qid).any fun z => decide ((fun (q : Queue) (e : Bytes) => (fun (op : Nat) => ((s.volume (blkVid e)).any fun (x : Volume) => decide ((fun (y : State × Bool) => (fun (z : State × Nat) => (fun (w : State) => (s.readyHead qid = some (q, e)) ∧
    (q.cls = .blkSq) ∧ (entryOp e = op) ∧ (s.volume (blkVid e) = some x) ∧ (s.blkEntryCheck qid q.owner e (fragTotal (entryFrags .blkSq e q.headFrags)) = none))
    ((if s.orderedOk qid e x = false then s else if y.2 = false then y.1 else ((blkSplit x z.2 (blkVid e) e).foldl (fun s p => s.onBlk fun b => { b with pieces := b.pieces.set b.nextPiece p, nextPiece := b.nextPiece + 1 }) ((if x.span = 4 ∧
    entryOrdered e = true then (z.1.count Ct.block q.home 0).count Ct.block q.home 1 else z.1.count Ct.block q.home 0).onVolume (blkVid e) fun y => { y with cmds := (y.cmds + 1) % 2 ^ 48, vseq := y.vseq + 1 })).onOp z.2 fun o => { o with admitted := true })))
    (y.1.newOp qid e (entryFrags .blkSq e q.headFrags))) (s.shaperGo qid (fragTotal (entryFrags .blkSq e q.headFrags))))) = true) (4))
    (z.1) (z.2))) = true) (3)) (headUp .blkSq (blkEntry 4 []) (volUp (ram 1) up))) ∧
    ((fun (s : State) => (fun (qid : Nat) => ((s.readyHead qid).any fun z => decide ((fun (q : Queue) (e : Bytes) => (fun (op : Nat) => ((s.volume (blkVid e)).any fun (x : Volume) => decide ((fun (y : State × Bool) => (fun (z : State × Nat) => (fun (w : State) => (s.readyHead qid = some (q, e)) ∧
    (q.cls = .blkSq) ∧ (entryOp e = op) ∧ (s.volume (blkVid e) = some x) ∧ (s.blkEntryCheck qid q.owner e (fragTotal (entryFrags .blkSq e q.headFrags)) = none))
    ((if s.orderedOk qid e x = false then s else if y.2 = false then y.1 else ((blkSplit x z.2 (blkVid e) e).foldl (fun s p => s.onBlk fun b => { b with pieces := b.pieces.set b.nextPiece p, nextPiece := b.nextPiece + 1 }) ((if x.span = 4 ∧
    entryOrdered e = true then (z.1.count Ct.block q.home 0).count Ct.block q.home 1 else z.1.count Ct.block q.home 0).onVolume (blkVid e) fun y => { y with cmds := (y.cmds + 1) % 2 ^ 48, vseq := y.vseq + 1 })).onOp z.2 fun o => { o with admitted := true })))
    (y.1.newOp qid e (entryFrags .blkSq e q.headFrags))) (s.shaperGo qid (fragTotal (entryFrags .blkSq e q.headFrags))))) = true) (1))
    (z.1) (z.2))) = true) (3)) ((headUp .blkSq (blkEntry 1 []) (volUp (ram 1) up)).onQueue 3 fun q => { q with shaper := { q.shaper with rate := 1, credit := -1 } })) ∧
    ((fun (s : State) => (fun (k : Nat) => ((s.piece k).any fun (p : Piece) => decide (((s.op p.op).any fun (o : Op) => decide (((s.volume p.vid).any fun (v : Volume) => decide (((s.queue o.qid).any fun (q : Queue) => decide (((s.conn (v.member p.member).cid).any fun (c : Conn) => decide ((s.piece k = some p) ∧
    (s.op p.op = some o) ∧ (s.volume p.vid = some v) ∧ (s.queue o.qid = some q) ∧ (s.fatal = false) ∧
    (p.issued = false) ∧ (p.done = false) ∧ (o.status = none) ∧ (s.pieceHeld p v = false) ∧ (v.ram = false) ∧
    (v.region = none) ∧ (s.conn (v.member p.member).cid = some c))) = true)) = true)) = true)) = true)) = true) (2))
    (respUp (pieceUp vol (connUp { connB with state := .pending } up)))) ∧
    ((fun (s : State) => (fun (k : Nat) => ((s.piece k).any fun (p : Piece) => decide (((s.op p.op).any fun (o : Op) => decide (((s.volume p.vid).any fun (v : Volume) => decide (((s.queue o.qid).any fun (q : Queue) => decide (((s.conn (v.member p.member).cid).any fun (c : Conn) => decide ((s.piece k = some p) ∧
    (s.op p.op = some o) ∧ (s.volume p.vid = some v) ∧ (s.queue o.qid = some q) ∧ (s.fatal = false) ∧
    (p.issued = false) ∧ (p.done = false) ∧ (o.status = none) ∧ (s.pieceHeld p v = false) ∧ (v.ram = false) ∧
    (v.region = none) ∧ (s.conn (v.member p.member).cid = some c))) = true)) = true)) = true)) = true)) = true) (2))
    (respUp (pieceUp vol (connUp { connB with state := .error } up)))) ∧
    ((fun (s : State) => (fun (k : Nat) => ((s.piece k).any fun (p : Piece) => decide (((s.op p.op).any fun (o : Op) => decide (((s.volume p.vid).any fun (v : Volume) => decide (((s.queue o.qid).any fun (q : Queue) => decide (((s.conn (v.member p.member).cid).any fun (c : Conn) => decide ((s.piece k = some p) ∧
    (s.op p.op = some o) ∧ (s.volume p.vid = some v) ∧ (s.queue o.qid = some q) ∧ (s.fatal = false) ∧
    (p.issued = false) ∧ (p.done = false) ∧ (o.status = none) ∧ (s.pieceHeld p v = false) ∧ (v.ram = false) ∧
    (v.region = none) ∧ (s.conn (v.member p.member).cid = some c))) = true)) = true)) = true)) = true)) = true) (2))
    (respUp (pieceUp vol (connUp { connB with state := .open } up)))) ∧
    ((fun (s : State) => (fun (k : Nat) => ((s.piece k).any fun (p : Piece) => decide (((s.op p.op).any fun (o : Op) => decide (((s.volume p.vid).any fun (v : Volume) => decide (((s.queue o.qid).any fun (q : Queue) => decide (((s.conn (v.member p.member).cid).any fun (c : Conn) => decide ((s.piece k = some p) ∧
    (s.op p.op = some o) ∧ (s.volume p.vid = some v) ∧ (s.queue o.qid = some q) ∧ (s.fatal = false) ∧
    (p.issued = false) ∧ (p.done = false) ∧ (o.status = none) ∧ (s.pieceHeld p v = false) ∧ (v.ram = false) ∧
    (v.region = none) ∧ (s.conn (v.member p.member).cid = some c))) = true)) = true)) = true)) = true)) = true) (2))
    (pieceUp vol blkUp)) ∧
    ((fun (s : State) => (fun (k : Nat) => ((s.piece k).any fun (p : Piece) => decide (((s.op p.op).any fun (o : Op) => decide (((s.volume p.vid).any fun (v : Volume) => decide (((s.queue o.qid).any fun (q : Queue) => decide (((s.conn (v.member p.member).cid).any fun (c : Conn) => decide ((s.piece k = some p) ∧
    (s.op p.op = some o) ∧ (s.volume p.vid = some v) ∧ (s.queue o.qid = some q) ∧ (s.fatal = false) ∧
    (p.issued = false) ∧ (p.done = false) ∧ (o.status = none) ∧ (s.pieceHeld p v = false) ∧ (v.ram = false) ∧
    (v.region = none) ∧ (s.conn (v.member p.member).cid = some c))) = true)) = true)) = true)) = true)) = true) (2))
    ((respUp (pieceUp vol blkUp)).onBlk fun b => { b with pieces := b.pieces.map fun (k, p) => (k, { p with bop := 2 }) })) ∧
    ((fun (s : State) => (fun (k : Nat) => (fun (rg : Nat) => ((s.piece k).any fun (p : Piece) => decide (((s.op p.op).any fun (o : Op) => decide (((s.volume p.vid).any fun (v : Volume) => decide (((s.queue o.qid).any fun (q : Queue) => decide ((fun (u : State) => (s.piece k = some p) ∧
    (s.op p.op = some o) ∧ (s.volume p.vid = some v) ∧ (s.queue o.qid = some q) ∧ (s.fatal = false) ∧
    (p.issued = false) ∧ (p.done = false) ∧ (o.status = none) ∧ (s.pieceHeld p v = false) ∧ (v.ram = true) ∧
    (v.region = some rg) ∧ (u = s.onPiece k (fun p => { p with issued := true, slot := none })))
    (s.onPiece k (fun p => { p with issued := true, slot := none })))) = true)) = true)) = true)) = true) (0))
    (2)) ((pieceUp (ram 0) up).onBlk fun b => { b with pieces := b.pieces.map fun (k, p) => (k, { p with bop := 1 }) })) ∧
    ((fun (s : State) => (fun (k : Nat) => (fun (rg : Nat) => ((s.piece k).any fun (p : Piece) => decide (((s.op p.op).any fun (o : Op) => decide (((s.volume p.vid).any fun (v : Volume) => decide (((s.queue o.qid).any fun (q : Queue) => decide ((fun (u : State) => (s.piece k = some p) ∧
    (s.op p.op = some o) ∧ (s.volume p.vid = some v) ∧ (s.queue o.qid = some q) ∧ (s.fatal = false) ∧
    (p.issued = false) ∧ (p.done = false) ∧ (o.status = none) ∧ (s.pieceHeld p v = false) ∧ (v.ram = true) ∧
    (v.region = some rg) ∧ (u = s.onPiece k (fun p => { p with issued := true, slot := none })))
    (s.onPiece k (fun p => { p with issued := true, slot := none })))) = true)) = true)) = true)) = true) (0))
    (2)) ((pieceUp (ram 0) up).onBlk fun b => { b with pieces := b.pieces.map fun (k, p) => (k, { p with bop := 2 }) })) ∧
    ((fun (s : State) => (fun (k : Nat) => (fun (rg : Nat) => ((s.piece k).any fun (p : Piece) => decide (((s.op p.op).any fun (o : Op) => decide (((s.volume p.vid).any fun (v : Volume) => decide (((s.queue o.qid).any fun (q : Queue) => decide ((fun (u : State) => (s.piece k = some p) ∧
    (s.op p.op = some o) ∧ (s.volume p.vid = some v) ∧ (s.queue o.qid = some q) ∧ (s.fatal = false) ∧
    (p.issued = false) ∧ (p.done = false) ∧ (o.status = none) ∧ (s.pieceHeld p v = false) ∧ (v.ram = true) ∧
    (v.region = some rg) ∧ (u = s.onPiece k (fun p => { p with issued := true, slot := none })))
    (s.onPiece k (fun p => { p with issued := true, slot := none })))) = true)) = true)) = true)) = true) (0))
    (2)) ((pieceUp (ram 0) up).onBlk fun b => { b with pieces := b.pieces.map fun (k, p) => (k, { p with bop := 4 }) })) ∧
    ((fun (s : State) => (fun (cid : Nat) => ((s.conn cid).any fun (c : Conn) => decide ((fun (b : BlkMsg) => (fun (l : List BlkMsg) => (s.conn cid = some c) ∧
    (c.blkMsgs = b :: l) ∧ (s.fatal = false)) ([])) (blkMsg 0))) = true) (5)) (connUp { connB with blkMsgs := [blkMsg 0] } up)) ∧
    ((fun (s : State) => (fun (cid : Nat) => (fun (b : BlkMsg) => ((s.pieceOfTag cid b.rtag).any fun z => decide ((fun (k : Nat) (p : Piece) (v : Volume) => (s.pieceOfTag cid b.rtag = some (k, p, v)))
    (z.1) (z.2.1) (z.2.2))) = true) (blkMsg 4096)) (5)) ((pieceUp vol blkUp).onPiece 2 fun p => { p with sent := true, rtag := 3, slot := some (0, 0) })) ∧
    ((fun (s : State) => (fun (cid : Nat) => (fun (b : BlkMsg) => ((s.pieceOfTag cid b.rtag).any fun z => decide ((fun (k : Nat) (p : Piece) (v : Volume) => (s.pieceOfTag cid b.rtag = some (k, p, v)))
    (z.1) (z.2.1) (z.2.2))) = true) ({ blkMsg 4096 with len := 64 })) (5)) ((pieceUp vol blkUp).onPiece 2 fun p => { p with sent := true, rtag := 3, slot := some (0, 0) })) ∧
    ((fun (s : State) => (fun (cid : Nat) => (fun (b : BlkMsg) => ((s.pieceOfTag cid b.rtag).any fun z => decide ((fun (k : Nat) (p : Piece) (v : Volume) => (s.pieceOfTag cid b.rtag = some (k, p, v)))
    (z.1) (z.2.1) (z.2.2))) = true) (blkMsg 0)) (5)) ((pieceUp vol blkUp).onPiece 2 fun p => { p with sent := true, rtag := 3, slot := some (0, 0), bop := 2 })) ∧
    ((fun (s : State) => (fun (c : Cmd) => (fun (who : Caller) => (((s.taken 0x0704 c).queue c.target.toNat).any fun (q : Queue) => decide ((s.accepts 0x0704 c who false true true = true) ∧
    ((s.taken 0x0704 c).queue c.target.toNat = some q) ∧ (q.cls = .blkSq) ∧ (q.state = .enabled))) = true) (.fn pf))
    (r0 3)) (pfRing 0x0704 (r0 3) (headUp .blkSq (blkEntry 1 []) (volUp vol blkUp)))) ∧
    ((fun (s : State) => (fun (qid : Nat) => (fun (t : Nat) => ((s.queue qid).any fun (q : Queue) => decide ((s.queue qid = some q) ∧
    (s.fatal = false) ∧ (q.resetAt = some t) ∧ (t + 150000000 ≤ s.ft))) = true) (1)) (3)) (atFt 150000001 ((pieceUp vol blkUp).onQueue 3 fun q => { q with resetAt := some 1 }))) ∧
    ((fun (s : State) => (fun (qid : Nat) => ((s.queue qid).any fun (q : Queue) => decide ((fun (c : Cmd) => (s.queue qid = some q) ∧
    (s.fatal = false) ∧ (q.resetCmd = some c) ∧ (q.resetAt ≠ none) ∧ (q.c = q.resetEnd) ∧ (s.allFinished qid = true))
    (r0 3))) = true) (3)) ((headUp .blkSq (blkEntry 1 []) (volUp vol blkUp)).onQueue 3 fun q => { q with resetAt := some 1, resetEnd := 0, p := 0, cache := [], resetCmd := some (r0 3), state := .draining })) := by
  refine ⟨?_, ?_, ?_, ?_, ?_, ?_, ?_, ?_, ?_, ?_, ?_, ?_, ?_, ?_, ?_, ?_, ?_, ?_, ?_, ?_, ?_, ?_⟩ <;> decide +kernel

/-- Clauses 1, 2, 3, 3, 3, 4, 4, 4, 4, 4, 5, 5, 6, 6, 8, 9, 10, 11, 11, 12, 12, 13 of CipherChannelsKeysAndSlices. -/
theorem witness_cipherChannelsKeysAndSlices :
    ((fun (s : State) => (fun (c : Cmd) => (fun (who : Caller) => (fun (env : BkEnv) => (fun (o : Owner) => (((s.taken 0x0801 c).queue (cmdLe c 20 2)).any fun (q : Queue) => decide ((s.bkAccepts 0x0801 c who env false true false = true) ∧
    ((s.served 0x0801 c).cyCreateCheck c who = none) ∧ ((s.served 0x0801 c).cyOwner c who = some o) ∧
    ((s.served 0x0801 c).queue (cmdLe c 20 2) = some q) ∧ (c.target.toNat ≠ targetNone))) = true) (pfO))
    ({ mediaOk := true, rpmbOk := true, noiseOk := true, pb := c.pb })) (.fn pf)) (cyC)) (pfRing 0x0801 cyC (withQ [(3, { runQ .cryJq pfO 4 with state := .disabled }), (4, cqQ)] up))) ∧
    ((fun (s : State) => (fun (c : Cmd) => (fun (who : Caller) => (fun (env : BkEnv) => (fun (x : CyChan) => (s.bkAccepts 0x0802 c who env false true true = true) ∧
    ((s.served 0x0802 c).cyChan c.target.toNat = some x) ∧ ((s.served 0x0802 c).quiet x.jq = true))
    (cyq)) ({ mediaOk := true, rpmbOk := true, noiseOk := true, pb := c.pb })) (.fn pf)) (r0 16))
    (pfRing 0x0802 (r0 16) (withQ [(3, { runQ .cryJq pfO 4 with state := .disabled }), (4, cqQ)] (cyUp cyq up)))) ∧
    ((fun (s : State) => (fun (f : FnRef) => (fun (page : Nat) => (fun (t : Nat) => (fun (x : CyChan) => (fun (v : W32) => (s.fatal = false) ∧
    (s.barOpen f = true) ∧ (s.chanOfPage f page = some (t, x))) (0x47)) (cyq)) (16)) (100)) (pf))
    (cyUp cyq up)) ∧
    ((fun (s : State) => (fun (f : FnRef) => (fun (page : Nat) => (fun (t : Nat) => (fun (x : CyChan) => (fun (v : W32) => (s.fatal = false) ∧
    (s.barOpen f = true) ∧ (s.chanOfPage f page = some (t, x))) (0x86)) (cyq)) (16)) (100)) (pf))
    (cyUp cyq up)) ∧
    ((fun (s : State) => (fun (f : FnRef) => (fun (page : Nat) => (fun (t : Nat) => (fun (x : CyChan) => (fun (v : W32) => (s.fatal = false) ∧
    (s.barOpen f = true) ∧ (s.chanOfPage f page = some (t, x))) (0x01)) (cyq)) (16)) (100)) (pf))
    (cyUp cyq up)) ∧
    ((fun (x : CyChan) => (fun (v : Nat) => (fun (k : Nat) => (k = v % 8) ∧ (x.wide = 0)) (7))
    (71)) (cyq)) ∧
    ((fun (x : CyChan) => (fun (v : Nat) => (fun (k : Nat) => (k = v % 8) ∧ (x.wide = 0)) (1))
    (65)) (cyq)) ∧
    ((fun (x : CyChan) => (fun (v : Nat) => (fun (k : Nat) => (k = v % 8) ∧ (x.wide = 0)) (7))
    (7)) (cyq)) ∧
    ((fun (x : CyChan) => (fun (v : Nat) => (fun (k : Nat) => (k = v % 8) ∧ (x.wide = 0)) (1))
    (1)) (cyq)) ∧
    ((fun (x : CyChan) => (fun (v : Nat) => (fun (k : Nat) => (k = v % 8) ∧ (x.wide = 0)) (7))
    (135)) (cyq)) ∧
    ((fun (s : State) => (fun (f : FnRef) => (fun (page : Nat) => (fun (w : Nat) => (fun (t : Nat) => (fun (x : CyChan) => (fun (v : W64) => (s.fatal = false) ∧
    (s.barOpen f = true) ∧ (w < 8)) (0xFFFFFFFFFFFFFFFF)) (cyq)) (16)) (7)) (100)) (pf)) (cyUp cyq up)) ∧
    ((fun (s : State) => (fun (f : FnRef) => (fun (page : Nat) => (fun (w : Nat) => (fun (t : Nat) => (fun (x : CyChan) => (fun (v : W64) => (s.fatal = false) ∧
    (s.barOpen f = true) ∧ (w < 8)) (1)) (cyq)) (16)) (0)) (100)) (pf)) (up)) ∧
    ((fun (s : State) => (fun (f : FnRef) => (fun (page : Nat) => (fun (t : Nat) => (fun (x : CyChan) => ((s.queue x.jq).any fun (q : Queue) => decide ((fun (v : W64) => (s.fatal = false) ∧
    (s.barOpen f = true) ∧ (s.chanOfPage f page = some (t, x)) ∧ (s.cyChan t = some x)) (4))) = true) (cyq))
    (16)) (100)) (pf)) (withQ [(3, runQ .cryJq pfO 4), (4, cqQ)] (cyUp cyq up))) ∧
    ((fun (s : State) => (fun (f : FnRef) => (fun (page : Nat) => (fun (t : Nat) => (fun (x : CyChan) => ((s.queue x.jq).any fun (q : Queue) => decide ((fun (v : W64) => (s.fatal = false) ∧
    (s.barOpen f = true) ∧ (s.chanOfPage f page = some (t, x)) ∧ (s.cyChan t = some x)) (0x10003))) = true) (cyq))
    (16)) (100)) (pf)) (withQ [(3, runQ .cryJq pfO 4), (4, cqQ)] (cyUp cyq up))) ∧
    ((fun (s0 : State) => (fun (tile : Nat) => (fun (s : State) => (fun (a : Nat) => (fun (l : List Nat) => (fun (c : Cmd) => (s.fatal = false) ∧
    (s.onFrame = true) ∧ (nextFrame a ≤ s.ft) ∧ (s.cy.pend = [(tile, l, a, c)])) (m0 3)) ([5]))
    (1023)) (s0.seenFrom tile)) (3)) (atFt 1024 up |>.onCy fun y => { y with pend := [(3, [5], 1023, m0 3)] })) ∧
    ((fun (s : State) => (fun (c : Cmd) => (fun (who : Caller) => (fun (x : CyChan) => (s.accepts 0x0804 c who false true (decide (2 ≤ c.target.toNat % 65536)) = true) ∧
    ((s.taken 0x0804 c).cyChan c.target.toNat = some x)) (cyq)) (.fn pf)) (r0 16)) (pfRing 0x0804 (r0 16) (cyUp cyq up))) ∧
    ((fun (s : State) => (fun (c : Cmd) => (fun (who : Caller) => (s.accepts 0x0804 c who false true (decide (2 ≤ c.target.toNat % 65536)) = true) ∧
    ((s.taken 0x0804 c).cyChan c.target.toNat = none) ∧ (c.target.toNat % 65536 < 2)) (.fn pf))
    (r0 1)) (pfRing 0x0804 (r0 1) up)) ∧
    ((fun (s : State) => (fun (tile : Nat) => (fun (lane : Nat) => (fun (u : State) => ((u.rowNow tile).any fun (r : CyRow) => decide ((fun (v : State) => (fun (ch : Nat) => (s.fatal = false) ∧
    (tile < 4) ∧ (lane < 32) ∧ (s.tileOn tile = true) ∧ (u = s.settleJobs tile) ∧ (u.rowNow tile = some r) ∧
    (bit r.lanes lane = false) ∧ (v = u.onCy (fun y => { y with rows := y.rows.set tile { r with lanes := r.lanes + 2 ^ lane } })) ∧
    (v.sliceOwner tile lane r.row = some ch) ∧ (v.channelReady tile ch = true)) (0)) (u.onCy (fun y => { y with rows := y.rows.set tile { r with lanes := r.lanes + 2 ^ lane } })))) = true) (s.settleJobs tile))
    (31)) (0)) ((atFt 1024 up).onCy fun y => { y with inlineWork := [{ tile := 0, chan := 0, frame := none, bytes := 0, left := 2 }] })) ∧
    ((fun (s : State) => (fun (tile : Nat) => (fun (lane : Nat) => (fun (u : State) => ((u.rowNow tile).any fun (r : CyRow) => decide ((fun (v : State) => (fun (ch : Nat) => (s.fatal = false) ∧
    (tile < 4) ∧ (lane < 32) ∧ (s.tileOn tile = true) ∧ (u = s.settleJobs tile) ∧ (u.rowNow tile = some r) ∧
    (bit r.lanes lane = false) ∧ (v = u.onCy (fun y => { y with rows := y.rows.set tile { r with lanes := r.lanes + 2 ^ lane } })) ∧
    (v.sliceOwner tile lane r.row = some ch) ∧ (v.channelReady tile ch = true)) (0)) (u.onCy (fun y => { y with rows := y.rows.set tile { r with lanes := r.lanes + 2 ^ lane } })))) = true) (s.settleJobs tile))
    (0)) (0)) ((atFt 2048 up).onCy fun y => { y with inlineWork := [{ tile := 0, chan := 0, frame := none, bytes := 0, left := 2 }] })) ∧
    ((fun (s : State) => (fun (tile : Nat) => (fun (r : CyRow) => (s.cy.rows.getD tile { start := 0, row := 0, frame := 0, lanes := 0 } = r))
    (s.cy.rows.getD tile { start := 0, row := 0, frame := 0, lanes := 0 })) (0)) (atFt 1024 up)) ∧
    ((fun (s : State) => (fun (tile : Nat) => (fun (r : CyRow) => (s.cy.rows.getD tile { start := 0, row := 0, frame := 0, lanes := 0 } = r))
    (s.cy.rows.getD tile { start := 0, row := 0, frame := 0, lanes := 0 })) (0)) ((atFt 1056 up).onCy fun y => { y with rows := [{ start := 1024, row := 0, frame := 1, lanes := 3 }] })) ∧
    ((fun (s0 : State) => (fun (cid : Nat) => (fun (s : State) => (fun (k : InlineKey) => (s.sealKey cid = some k) ∧
    (k.next = none) ∧ (k.previous ≠ none) ∧ (s.fatal = false) ∧ (k.graceEnd ≤ s.ft)) (inlKey))
    (s0.seenFrom (s0.connDie cid))) (5)) ((atFt 1024 up).onCy fun y => { y with cidKeys := [(5, inlKey)] })) := by
  refine ⟨?_, ?_, ?_, ?_, ?_, ?_, ?_, ?_, ?_, ?_, ?_, ?_, ?_, ?_, ?_, ?_, ?_, ?_, ?_, ?_, ?_, ?_⟩ <;> decide +kernel

/-- Clauses 1, 2, 3, 3, 3, 3, 3, 4, 5, 5, 7 of CipherJobsStartAndEnd. -/
theorem witness_cipherJobsStartAndEnd :
    ((fun (s : State) => (fun (qid : Nat) => ((s.readyHead qid).any fun z => decide ((fun (q : Queue) (e : Bytes) => (fun (op : Nat) => (fun (w : State) => (s.readyHead qid = some (q, e)) ∧
    (q.cls = .cryJq) ∧ (entryOp e = op) ∧ (s.chanOfQueue qid = none)) (s.endHead qid St.badState 0 e))
    (1)) (z.1) (z.2))) = true) (3)) (headUp .cryJq (cryEntry 1 1) up)) ∧
    ((fun (s : State) => (fun (qid : Nat) => ((s.readyHead qid).any fun z => decide ((fun (q : Queue) (e : Bytes) => (fun (op : Nat) => ((s.chanOfQueue qid).any fun z => decide ((fun (t : Nat) (x : CyChan) => (fun (w : State) => (s.readyHead qid = some (q, e)) ∧
    (q.cls = .cryJq) ∧ (entryOp e = op) ∧ (s.chanOfQueue qid = some (t, x)) ∧ (x.keyOf (cryAlg e) (crySlot e) = none))
    (s.endHead qid St.badState t e)) (z.1) (z.2))) = true) (1)) (z.1) (z.2))) = true) (3)) (headUp .cryJq (cryEntry 1 1) (cyUp { cyq with valid := 0 } up))) ∧
    ((fun (s : State) => (fun (qid : Nat) => ((s.readyHead qid).any fun z => decide ((fun (q : Queue) (e : Bytes) => (fun (op : Nat) => ((s.chanOfQueue qid).any fun z => decide ((fun (t : Nat) (x : CyChan) => ((x.keyOf (cryAlg e) (crySlot e)).any fun (key : Bytes) => decide ((fun (y : State × Bool) => (fun (z : State × Nat) => (fun (w : State) => (s.readyHead qid = some (q, e)) ∧
    (q.cls = .cryJq) ∧ (entryOp e = op) ∧ (s.chanOfQueue qid = some (t, x)) ∧ (x.keyOf (cryAlg e) (crySlot e) = some key))
    ((if 16 ≤ x.active.length then s else if y.2 = false then y.1 else (((z.1.onOp z.2 fun o => { o with admitted := true }).onChanCy t fun x => { x with active := x.active ++ [{ op := z.2, key := key, total := max 1 (cryWork e (fragTotal (entryFrags .cryJq e q.headFrags))), done := 0, perSlice := sliceBytes (cryAlg e), lastRow := 0, written := 0 }] }).readFrags z.2 q.owner 0 (entryFrags .cryJq e q.headFrags)))))
    (y.1.newOp qid e (entryFrags .cryJq e q.headFrags))) (s.shaperGo qid (fragTotal (entryFrags .cryJq e q.headFrags))))) = true) (z.1) (z.2))) = true) (1))
    (z.1) (z.2))) = true) (3)) (headUp .cryJq (cryEntry 1 1) (cyUp cyq up))) ∧
    ((fun (s : State) => (fun (qid : Nat) => ((s.readyHead qid).any fun z => decide ((fun (q : Queue) (e : Bytes) => (fun (op : Nat) => ((s.chanOfQueue qid).any fun z => decide ((fun (t : Nat) (x : CyChan) => ((x.keyOf (cryAlg e) (crySlot e)).any fun (key : Bytes) => decide ((fun (y : State × Bool) => (fun (z : State × Nat) => (fun (w : State) => (s.readyHead qid = some (q, e)) ∧
    (q.cls = .cryJq) ∧ (entryOp e = op) ∧ (s.chanOfQueue qid = some (t, x)) ∧ (x.keyOf (cryAlg e) (crySlot e) = some key))
    ((if 16 ≤ x.active.length then s else if y.2 = false then y.1 else (((z.1.onOp z.2 fun o => { o with admitted := true }).onChanCy t fun x => { x with active := x.active ++ [{ op := z.2, key := key, total := max 1 (cryWork e (fragTotal (entryFrags .cryJq e q.headFrags))), done := 0, perSlice := sliceBytes (cryAlg e), lastRow := 0, written := 0 }] }).readFrags z.2 q.owner 0 (entryFrags .cryJq e q.headFrags)))))
    (y.1.newOp qid e (entryFrags .cryJq e q.headFrags))) (s.shaperGo qid (fragTotal (entryFrags .cryJq e q.headFrags))))) = true) (z.1) (z.2))) = true) (2))
    (z.1) (z.2))) = true) (3)) (headUp .cryJq (cryEntry 2 3) (cyUp cyq up))) ∧
    ((fun (s : State) => (fun (qid : Nat) => ((s.readyHead qid).any fun z => decide ((fun (q : Queue) (e : Bytes) => (fun (op : Nat) => ((s.chanOfQueue qid).any fun z => decide ((fun (t : Nat) (x : CyChan) => ((x.keyOf (cryAlg e) (crySlot e)).any fun (key : Bytes) => decide ((fun (y : State × Bool) => (fun (z : State × Nat) => (fun (w : State) => (s.readyHead qid = some (q, e)) ∧
    (q.cls = .cryJq) ∧ (entryOp e = op) ∧ (s.chanOfQueue qid = some (t, x)) ∧ (x.keyOf (cryAlg e) (crySlot e) = some key))
    ((if 16 ≤ x.active.length then s else if y.2 = false then y.1 else (((z.1.onOp z.2 fun o => { o with admitted := true }).onChanCy t fun x => { x with active := x.active ++ [{ op := z.2, key := key, total := max 1 (cryWork e (fragTotal (entryFrags .cryJq e q.headFrags))), done := 0, perSlice := sliceBytes (cryAlg e), lastRow := 0, written := 0 }] }).readFrags z.2 q.owner 0 (entryFrags .cryJq e q.headFrags)))))
    (y.1.newOp qid e (entryFrags .cryJq e q.headFrags))) (s.shaperGo qid (fragTotal (entryFrags .cryJq e q.headFrags))))) = true) (z.1) (z.2))) = true) (3))
    (z.1) (z.2))) = true) (3)) (headUp .cryJq (cryEntry 3 4) (cyUp cyq up))) ∧
    ((fun (s : State) => (fun (qid : Nat) => ((s.readyHead qid).any fun z => decide ((fun (q : Queue) (e : Bytes) => (fun (op : Nat) => ((s.chanOfQueue qid).any fun z => decide ((fun (t : Nat) (x : CyChan) => ((x.keyOf (cryAlg e) (crySlot e)).any fun (key : Bytes) => decide ((fun (y : State × Bool) => (fun (z : State × Nat) => (fun (w : State) => (s.readyHead qid = some (q, e)) ∧
    (q.cls = .cryJq) ∧ (entryOp e = op) ∧ (s.chanOfQueue qid = some (t, x)) ∧ (x.keyOf (cryAlg e) (crySlot e) = some key))
    ((if 16 ≤ x.active.length then s else if y.2 = false then y.1 else (((z.1.onOp z.2 fun o => { o with admitted := true }).onChanCy t fun x => { x with active := x.active ++ [{ op := z.2, key := key, total := max 1 (cryWork e (fragTotal (entryFrags .cryJq e q.headFrags))), done := 0, perSlice := sliceBytes (cryAlg e), lastRow := 0, written := 0 }] }).readFrags z.2 q.owner 0 (entryFrags .cryJq e q.headFrags)))))
    (y.1.newOp qid e (entryFrags .cryJq e q.headFrags))) (s.shaperGo qid (fragTotal (entryFrags .cryJq e q.headFrags))))) = true) (z.1) (z.2))) = true) (1))
    (z.1) (z.2))) = true) (3)) (headUp .cryJq (cryEntry 1 1) (cyUp { cyq with active := List.replicate 16 job } up))) ∧
    ((fun (s : State) => (fun (qid : Nat) => ((s.readyHead qid).any fun z => decide ((fun (q : Queue) (e : Bytes) => (fun (op : Nat) => ((s.chanOfQueue qid).any fun z => decide ((fun (t : Nat) (x : CyChan) => ((x.keyOf (cryAlg e) (crySlot e)).any fun (key : Bytes) => decide ((fun (y : State × Bool) => (fun (z : State × Nat) => (fun (w : State) => (s.readyHead qid = some (q, e)) ∧
    (q.cls = .cryJq) ∧ (entryOp e = op) ∧ (s.chanOfQueue qid = some (t, x)) ∧ (x.keyOf (cryAlg e) (crySlot e) = some key))
    ((if 16 ≤ x.active.length then s else if y.2 = false then y.1 else (((z.1.onOp z.2 fun o => { o with admitted := true }).onChanCy t fun x => { x with active := x.active ++ [{ op := z.2, key := key, total := max 1 (cryWork e (fragTotal (entryFrags .cryJq e q.headFrags))), done := 0, perSlice := sliceBytes (cryAlg e), lastRow := 0, written := 0 }] }).readFrags z.2 q.owner 0 (entryFrags .cryJq e q.headFrags)))))
    (y.1.newOp qid e (entryFrags .cryJq e q.headFrags))) (s.shaperGo qid (fragTotal (entryFrags .cryJq e q.headFrags))))) = true) (z.1) (z.2))) = true) (1))
    (z.1) (z.2))) = true) (3)) ((headUp .cryJq (cryEntry 1 1) (cyUp cyq up)).onQueue 3 fun q => { q with shaper := { q.shaper with rate := 1, credit := -1 } })) ∧
    ((fun (s : State) => (fun (t : Nat) => (fun (j : Job) => ((s.op j.op).any fun (o : Op) => decide (((s.queue o.qid).any fun (q : Queue) => decide ((s.op j.op = some o) ∧
    (s.queue o.qid = some q) ∧ (j.lastRow ≠ 0) ∧ (j.lastRow + 31 ≤ s.time.osc) ∧ (o.failAt = none) ∧
    (j.total ≤ j.done))) = true)) = true) ({ job with op := up.qm.nextOp })) (16)) (jobUp 1 1)) ∧
    ((fun (s : State) => (fun (t : Nat) => (fun (at' : Nat) => (fun (j : Job) => (fun (o : Op) => (fun (w : Owner) => (fun (b : Bytes) => (fun (ok : Bool) => (fun (u : State) => (cryOutput o.entry j.key (o.data (fragTotal o.frags)) = (b, ok)))
    ((((s.jobWrite t j o w b b.length).jobGone j.op).onChanCy t fun x => { x with jobs := (x.jobs + 1) % 2 ^ 48 }).count Ct.calico (t / 65536) 2))
    ((cryOutput o.entry j.key (o.data (fragTotal o.frags))).2)) ((cryOutput o.entry j.key (o.data (fragTotal o.frags))).1))
    (pfO)) (jobO (cryEntry 1 1))) ({ job with op := up.qm.nextOp })) (7)) (16)) (jobUp 1 1)) ∧
    ((fun (s : State) => (fun (t : Nat) => (fun (at' : Nat) => (fun (j : Job) => (fun (o : Op) => (fun (w : Owner) => (fun (b : Bytes) => (fun (ok : Bool) => (fun (u : State) => (cryOutput o.entry j.key (o.data (fragTotal o.frags)) = (b, ok)))
    ((((s.jobWrite t j o w b b.length).jobGone j.op).onChanCy t fun x => { x with jobs := (x.jobs + 1) % 2 ^ 48 }).count Ct.calico (t / 65536) 2))
    ((cryOutput o.entry j.key (o.data (fragTotal o.frags))).2)) ((cryOutput o.entry j.key (o.data (fragTotal o.frags))).1))
    (pfO)) (jobO (cryEntry 2 3))) ({ job with op := up.qm.nextOp })) (7)) (16)) (jobUp 2 3)) ∧
    ((fun (e : Bytes) => (fun (key : Bytes) => (fun (src : Bytes) => (cryAlg e = 4)) (zeros 8))
    ([])) (cryEntry 3 4)) := by
  refine ⟨?_, ?_, ?_, ?_, ?_, ?_, ?_, ?_, ?_, ?_, ?_⟩
  · decide +kernel
  · decide +kernel
  · decide +kernel
  · decide +kernel
  · decide +kernel
  · decide +kernel
  · decide +kernel
  · decide +kernel
  · rfl
  · rfl
  · decide +kernel

/-- Clauses 2, 3, 3 of SealedDataOpensToWhatWasSealed. -/
theorem witness_sealedDataOpensToWhatWasSealed :
    ((fun (key : Bytes) => (fun (salt : Bytes) => (fun (h : Bytes) => (fun (ctr : Bytes) => (fun (body : Bytes) => (ctr.length = 8))
    ([1, 2, 3])) (zeros 8)) (zeros 32)) (zeros 4)) (List.replicate 32 7)) ∧
    ((fun (e : Bytes) => (fun (d : Bytes) => (fun (key : Bytes) => (fun (a : Bytes) => (fun (pt : Bytes) => (cryAlg e = 1 ∨ cryAlg e = 3) ∧
    (cryAlg d = cryAlg e) ∧ (entryOp e = 1) ∧ (entryOp d = 2) ∧ (cryAad e = a.length) ∧ (cryAad d = a.length) ∧
    (slice e 16 12 = slice d 16 12)) (List.replicate 20 5)) ([1, 2, 3])) (List.replicate 32 7))
    (([2] ++ zeros 7 ++ [1, 0] ++ toLe 2 3 ++ zeros 52))) (([1] ++ zeros 7 ++ [1, 0] ++ toLe 2 3 ++ zeros 52))) ∧
    ((fun (e : Bytes) => (fun (d : Bytes) => (fun (key : Bytes) => (fun (a : Bytes) => (fun (pt : Bytes) => (cryAlg e = 1 ∨ cryAlg e = 3) ∧
    (cryAlg d = cryAlg e) ∧ (entryOp e = 1) ∧ (entryOp d = 2) ∧ (cryAad e = a.length) ∧ (cryAad d = a.length) ∧
    (slice e 16 12 = slice d 16 12)) (List.replicate 20 5)) ([1, 2, 3])) (List.replicate 32 7))
    (([2] ++ zeros 7 ++ [3, 0] ++ toLe 2 3 ++ zeros 52))) (([1] ++ zeros 7 ++ [3, 0] ++ toLe 2 3 ++ zeros 52))) := by
  refine ⟨?_, ?_, ?_⟩ <;> decide +kernel

/-- Clauses 1, 1, 1, 1, 1, 2, 2, 2, 2, 2, 3, 3, 3, 3, 4, 4, 4, 4, 4, 4, 5, 5, 5, 5, 5, 5, 5, 5, 5, 5, 5, 5, 5, 6, 6 of DmaEntriesMoveInBeats. -/
theorem witness_dmaEntriesMoveInBeats :
    ((fun (s : State) => (fun (qid : Nat) => ((s.readyHead qid).any fun z => decide ((fun (q : Queue) (e : Bytes) => (fun (op : Nat) => (fun (y : State × Bool) => (fun (z : State × Nat) => (fun (w : State) => (s.readyHead qid = some (q, e)) ∧
    (q.cls = .dmaCh) ∧ (entryOp e = op)) ((match s.dmaKey qid q with | none => s | some k => if y.2 = false then y.1 else (((z.1.onOp z.2 fun o => { o with admitted := true }).onDmaChan k fun x => { x with op := some z.2, paced := dmaShare e != 0, retries := 0, nextK := 0, count := beatCount e (dmaTotal e) 0, beats := [], doneBytes := 0, failing := none }).issueBeats k 64).dmaSettle k)))
    (y.1.newOp qid e [])) ((if dmaShare e = 0 then s.shaperGo qid (dmaTotal e) else (s, true))))
    (entryOp e)) (z.1) (z.2))) = true) (3)) (dmaUp (dmaE 1 100 []))) ∧
    ((fun (s : State) => (fun (qid : Nat) => ((s.readyHead qid).any fun z => decide ((fun (q : Queue) (e : Bytes) => (fun (op : Nat) => (fun (y : State × Bool) => (fun (z : State × Nat) => (fun (w : State) => (s.readyHead qid = some (q, e)) ∧
    (q.cls = .dmaCh) ∧ (entryOp e = op)) ((match s.dmaKey qid q with | none => s | some k => if y.2 = false then y.1 else (((z.1.onOp z.2 fun o => { o with admitted := true }).onDmaChan k fun x => { x with op := some z.2, paced := dmaShare e != 0, retries := 0, nextK := 0, count := beatCount e (dmaTotal e) 0, beats := [], doneBytes := 0, failing := none }).issueBeats k 64).dmaSettle k)))
    (y.1.newOp qid e [])) ((if dmaShare e = 0 then s.shaperGo qid (dmaTotal e) else (s, true))))
    (entryOp e)) (z.1) (z.2))) = true) (3)) (dmaUp (dmaE 2 100 []))) ∧
    ((fun (s : State) => (fun (qid : Nat) => ((s.readyHead qid).any fun z => decide ((fun (q : Queue) (e : Bytes) => (fun (op : Nat) => (fun (y : State × Bool) => (fun (z : State × Nat) => (fun (w : State) => (s.readyHead qid = some (q, e)) ∧
    (q.cls = .dmaCh) ∧ (entryOp e = op)) ((match s.dmaKey qid q with | none => s | some k => if y.2 = false then y.1 else (((z.1.onOp z.2 fun o => { o with admitted := true }).onDmaChan k fun x => { x with op := some z.2, paced := dmaShare e != 0, retries := 0, nextK := 0, count := beatCount e (dmaTotal e) 0, beats := [], doneBytes := 0, failing := none }).issueBeats k 64).dmaSettle k)))
    (y.1.newOp qid e [])) ((if dmaShare e = 0 then s.shaperGo qid (dmaTotal e) else (s, true))))
    (entryOp e)) (z.1) (z.2))) = true) (3)) (dmaUp (dmaE 1 8 [(10, [1])]))) ∧
    ((fun (s : State) => (fun (qid : Nat) => ((s.readyHead qid).any fun z => decide ((fun (q : Queue) (e : Bytes) => (fun (op : Nat) => (fun (y : State × Bool) => (fun (z : State × Nat) => (fun (w : State) => (s.readyHead qid = some (q, e)) ∧
    (q.cls = .dmaCh) ∧ (entryOp e = op)) ((match s.dmaKey qid q with | none => s | some k => if y.2 = false then y.1 else (((z.1.onOp z.2 fun o => { o with admitted := true }).onDmaChan k fun x => { x with op := some z.2, paced := dmaShare e != 0, retries := 0, nextK := 0, count := beatCount e (dmaTotal e) 0, beats := [], doneBytes := 0, failing := none }).issueBeats k 64).dmaSettle k)))
    (y.1.newOp qid e [])) ((if dmaShare e = 0 then s.shaperGo qid (dmaTotal e) else (s, true))))
    (entryOp e)) (z.1) (z.2))) = true) (3)) ((dmaUp (dmaE 1 100 [])).onDma fun _ => [])) ∧
    ((fun (s : State) => (fun (qid : Nat) => ((s.readyHead qid).any fun z => decide ((fun (q : Queue) (e : Bytes) => (fun (op : Nat) => (fun (y : State × Bool) => (fun (z : State × Nat) => (fun (w : State) => (s.readyHead qid = some (q, e)) ∧
    (q.cls = .dmaCh) ∧ (entryOp e = op)) ((match s.dmaKey qid q with | none => s | some k => if y.2 = false then y.1 else (((z.1.onOp z.2 fun o => { o with admitted := true }).onDmaChan k fun x => { x with op := some z.2, paced := dmaShare e != 0, retries := 0, nextK := 0, count := beatCount e (dmaTotal e) 0, beats := [], doneBytes := 0, failing := none }).issueBeats k 64).dmaSettle k)))
    (y.1.newOp qid e [])) ((if dmaShare e = 0 then s.shaperGo qid (dmaTotal e) else (s, true))))
    (entryOp e)) (z.1) (z.2))) = true) (3)) ((dmaUp (dmaE 1 100 [])).onQueue 3 fun q => { q with shaper := { q.shaper with rate := 1, credit := -1 } })) ∧
    ((fun (e : Bytes) => (fun (k : Nat) => (k < dmaTotal e) ∧ ((dmaCopies e = true → 0 < dmaSrcLen e)))
    (0)) ((dmaE 1 100 []))) ∧
    ((fun (e : Bytes) => (fun (k : Nat) => (k < dmaTotal e) ∧ ((dmaCopies e = true → 0 < dmaSrcLen e)))
    (99)) ((dmaE 1 100 []))) ∧
    ((fun (e : Bytes) => (fun (k : Nat) => (k < dmaTotal e) ∧ ((dmaCopies e = true → 0 < dmaSrcLen e)))
    (4)) ((dmaE 1 100 []))) ∧
    ((fun (e : Bytes) => (fun (k : Nat) => (k < dmaTotal e) ∧ ((dmaCopies e = true → 0 < dmaSrcLen e)))
    (16)) ((dmaE 2 100 []))) ∧
    ((fun (e : Bytes) => (fun (k : Nat) => (k < dmaTotal e) ∧ ((dmaCopies e = true → 0 < dmaSrcLen e)))
    (299)) (dmaE 2 100 [(48, toLe 8 1000), (60, toLe 4 3)])) ∧
    ((fun (s : State) => (fun (tile : Nat) => (fun (chan : Nat) => (fun (b : Nat) => ((s.dmaChan (tile * 256 + chan)).any fun (x : DmaChan) => decide (((s.dmaEntry x).any fun z => decide ((fun (n : Nat) (e : Bytes) (w : Owner) => ((x.beats.find? (·.k == b)).any fun (y : Beat) => decide ((fun (d : Bytes) => (s.dmaChan (tile * 256 + chan) = some x) ∧
    (s.dmaEntry x = some (n, e, w)) ∧ (x.beats.find? (·.k == b) = some y) ∧ (y.data = some d) ∧
    (s.fatal = false)) (zeros 4))) = true) (z.1) (z.2.1) (z.2.2))) = true)) = true) (0)) (0))
    (0)) (beatUp (dmaE 2 100 [(8, [2]), (40, toLe 8 (2 ^ 32 + 60))]) 0 (beat 0 4 0 (some (zeros 4)) none))) ∧
    ((fun (s : State) => (fun (tile : Nat) => (fun (chan : Nat) => (fun (b : Nat) => ((s.dmaChan (tile * 256 + chan)).any fun (x : DmaChan) => decide (((s.dmaEntry x).any fun z => decide ((fun (n : Nat) (e : Bytes) (w : Owner) => ((x.beats.find? (·.k == b)).any fun (y : Beat) => decide ((fun (d : Bytes) => (s.dmaChan (tile * 256 + chan) = some x) ∧
    (s.dmaEntry x = some (n, e, w)) ∧ (x.beats.find? (·.k == b) = some y) ∧ (y.data = some d) ∧
    (s.fatal = false)) (zeros 4))) = true) (z.1) (z.2.1) (z.2.2))) = true)) = true) (0)) (0))
    (0)) (beatUp (dmaE 2 100 [(8, [2]), (40, toLe 8 (2 ^ 47))]) 0 (beat 0 4 0 (some (zeros 4)) none))) ∧
    ((fun (s : State) => (fun (tile : Nat) => (fun (chan : Nat) => (fun (b : Nat) => ((s.dmaChan (tile * 256 + chan)).any fun (x : DmaChan) => decide (((s.dmaEntry x).any fun z => decide ((fun (n : Nat) (e : Bytes) (w : Owner) => ((x.beats.find? (·.k == b)).any fun (y : Beat) => decide ((fun (d : Bytes) => (s.dmaChan (tile * 256 + chan) = some x) ∧
    (s.dmaEntry x = some (n, e, w)) ∧ (x.beats.find? (·.k == b) = some y) ∧ (y.data = some d) ∧
    (s.fatal = false)) (zeros 4))) = true) (z.1) (z.2.1) (z.2.2))) = true)) = true) (0)) (0))
    (0)) (bmeOff (beatUp (dmaE 2 100 []) 0 (beat 0 4 0 (some (zeros 4)) none)))) ∧
    ((fun (s : State) => (fun (tile : Nat) => (fun (chan : Nat) => (fun (b : Nat) => ((s.dmaChan (tile * 256 + chan)).any fun (x : DmaChan) => decide (((s.dmaEntry x).any fun z => decide ((fun (n : Nat) (e : Bytes) (w : Owner) => ((x.beats.find? (·.k == b)).any fun (y : Beat) => decide ((fun (d : Bytes) => (s.dmaChan (tile * 256 + chan) = some x) ∧
    (s.dmaEntry x = some (n, e, w)) ∧ (x.beats.find? (·.k == b) = some y) ∧ (y.data = some d) ∧
    (s.fatal = false)) (zeros 4))) = true) (z.1) (z.2.1) (z.2.2))) = true)) = true) (0)) (0))
    (0)) (beatUp (dmaE 2 100 []) 0 (beat 0 4 0 (some (zeros 4)) none))) ∧
    ((fun (s : State) => (fun (tile : Nat) => (fun (chan : Nat) => (fun (b : Nat) => ((s.dmaChan (tile * 256 + chan)).any fun (x : DmaChan) => decide (((s.dmaEntry x).any fun z => decide ((fun (n : Nat) (e : Bytes) (w : Owner) => ((x.beats.find? (·.k == b)).any fun (y : Beat) => decide ((fun (how : BeatFault) => (s.dmaChan (tile * 256 + chan) = some x) ∧
    (s.dmaEntry x = some (n, e, w)) ∧ (x.beats.find? (·.k == b) = some y) ∧ (y.retryAt = none) ∧
    (s.fatal = false) ∧ (how ≠ .busMaster ∨ s.ownerHeld w = true)) (.readError))) = true) (z.1) (z.2.1) (z.2.2))) = true)) = true) (4))
    (0)) (0)) (dmaRun (dmaE 1 100 []))) ∧
    ((fun (s : State) => (fun (tile : Nat) => (fun (chan : Nat) => (fun (b : Nat) => ((s.dmaChan (tile * 256 + chan)).any fun (x : DmaChan) => decide (((s.dmaEntry x).any fun z => decide ((fun (n : Nat) (e : Bytes) (w : Owner) => ((x.beats.find? (·.k == b)).any fun (y : Beat) => decide ((fun (how : BeatFault) => (s.dmaChan (tile * 256 + chan) = some x) ∧
    (s.dmaEntry x = some (n, e, w)) ∧ (x.beats.find? (·.k == b) = some y) ∧ (y.retryAt = none) ∧
    (s.fatal = false) ∧ (how ≠ .busMaster ∨ s.ownerHeld w = true)) (.readTimeout))) = true) (z.1) (z.2.1) (z.2.2))) = true)) = true) (4))
    (0)) (0)) (dmaRun (dmaE 1 100 []))) ∧
    ((fun (s : State) => (fun (tile : Nat) => (fun (chan : Nat) => (fun (b : Nat) => ((s.dmaChan (tile * 256 + chan)).any fun (x : DmaChan) => decide (((s.dmaEntry x).any fun z => decide ((fun (n : Nat) (e : Bytes) (w : Owner) => ((x.beats.find? (·.k == b)).any fun (y : Beat) => decide ((fun (how : BeatFault) => (s.dmaChan (tile * 256 + chan) = some x) ∧
    (s.dmaEntry x = some (n, e, w)) ∧ (x.beats.find? (·.k == b) = some y) ∧ (y.retryAt = none) ∧
    (s.fatal = false) ∧ (how ≠ .busMaster ∨ s.ownerHeld w = true)) (.writeError))) = true) (z.1) (z.2.1) (z.2.2))) = true)) = true) (4))
    (0)) (0)) (dmaRun (dmaE 1 100 []))) ∧
    ((fun (s : State) => (fun (tile : Nat) => (fun (chan : Nat) => (fun (b : Nat) => ((s.dmaChan (tile * 256 + chan)).any fun (x : DmaChan) => decide (((s.dmaEntry x).any fun z => decide ((fun (n : Nat) (e : Bytes) (w : Owner) => ((x.beats.find? (·.k == b)).any fun (y : Beat) => decide ((fun (how : BeatFault) => (s.dmaChan (tile * 256 + chan) = some x) ∧
    (s.dmaEntry x = some (n, e, w)) ∧ (x.beats.find? (·.k == b) = some y) ∧ (y.retryAt = none) ∧
    (s.fatal = false) ∧ (how ≠ .busMaster ∨ s.ownerHeld w = true)) (.poisoned))) = true) (z.1) (z.2.1) (z.2.2))) = true)) = true) (4))
    (0)) (0)) (dmaRun (dmaE 1 100 []))) ∧
    ((fun (s : State) => (fun (tile : Nat) => (fun (chan : Nat) => (fun (b : Nat) => ((s.dmaChan (tile * 256 + chan)).any fun (x : DmaChan) => decide (((s.dmaEntry x).any fun z => decide ((fun (n : Nat) (e : Bytes) (w : Owner) => ((x.beats.find? (·.k == b)).any fun (y : Beat) => decide ((fun (how : BeatFault) => (s.dmaChan (tile * 256 + chan) = some x) ∧
    (s.dmaEntry x = some (n, e, w)) ∧ (x.beats.find? (·.k == b) = some y) ∧ (y.retryAt = none) ∧
    (s.fatal = false) ∧ (how ≠ .busMaster ∨ s.ownerHeld w = true)) (.uncorrectable))) = true) (z.1) (z.2.1) (z.2.2))) = true)) = true) (4))
    (0)) (0)) (dmaRun (dmaE 1 100 []))) ∧
    ((fun (s : State) => (fun (tile : Nat) => (fun (chan : Nat) => (fun (b : Nat) => ((s.dmaChan (tile * 256 + chan)).any fun (x : DmaChan) => decide (((s.dmaEntry x).any fun z => decide ((fun (n : Nat) (e : Bytes) (w : Owner) => ((x.beats.find? (·.k == b)).any fun (y : Beat) => decide ((fun (how : BeatFault) => (s.dmaChan (tile * 256 + chan) = some x) ∧
    (s.dmaEntry x = some (n, e, w)) ∧ (x.beats.find? (·.k == b) = some y) ∧ (y.retryAt = none) ∧
    (s.fatal = false) ∧ (how ≠ .busMaster ∨ s.ownerHeld w = true)) (.busMaster))) = true) (z.1) (z.2.1) (z.2.2))) = true)) = true) (4))
    (0)) (0)) (bmeOff (dmaRun (dmaE 1 100 [])))) ∧
    ((fun (s : State) => (fun (k : Nat) => (fun (b : Nat) => ((s.dmaChan k).any fun (x : DmaChan) => decide (((s.dmaEntry x).any fun z => decide ((fun (n : Nat) (e : Bytes) (w : Owner) => ((x.beats.find? (·.k == b)).any fun (y : Beat) => decide ((fun (how : BeatFault) => (s.dmaChan k = some x) ∧
    (s.dmaEntry x = some (n, e, w)) ∧ (x.beats.find? (·.k == b) = some y)) (.readError))) = true) (z.1) (z.2.1) (z.2.2))) = true)) = true) (0))
    (0)) (beatUp (dmaE 1 100 []) 5 (beat 0 4 0 none none))) ∧
    ((fun (s : State) => (fun (k : Nat) => (fun (b : Nat) => ((s.dmaChan k).any fun (x : DmaChan) => decide (((s.dmaEntry x).any fun z => decide ((fun (n : Nat) (e : Bytes) (w : Owner) => ((x.beats.find? (·.k == b)).any fun (y : Beat) => decide ((fun (how : BeatFault) => (s.dmaChan k = some x) ∧
    (s.dmaEntry x = some (n, e, w)) ∧ (x.beats.find? (·.k == b) = some y)) (.readTimeout))) = true) (z.1) (z.2.1) (z.2.2))) = true)) = true) (0))
    (0)) (beatUp (dmaE 1 100 []) 5 (beat 0 4 0 none none))) ∧
    ((fun (s : State) => (fun (k : Nat) => (fun (b : Nat) => ((s.dmaChan k).any fun (x : DmaChan) => decide (((s.dmaEntry x).any fun z => decide ((fun (n : Nat) (e : Bytes) (w : Owner) => ((x.beats.find? (·.k == b)).any fun (y : Beat) => decide ((fun (how : BeatFault) => (s.dmaChan k = some x) ∧
    (s.dmaEntry x = some (n, e, w)) ∧ (x.beats.find? (·.k == b) = some y)) (.writeError))) = true) (z.1) (z.2.1) (z.2.2))) = true)) = true) (0))
    (0)) (beatUp (dmaE 1 100 []) 5 (beat 0 4 0 none none))) ∧
    ((fun (s : State) => (fun (k : Nat) => (fun (b : Nat) => ((s.dmaChan k).any fun (x : DmaChan) => decide (((s.dmaEntry x).any fun z => decide ((fun (n : Nat) (e : Bytes) (w : Owner) => ((x.beats.find? (·.k == b)).any fun (y : Beat) => decide ((fun (how : BeatFault) => (s.dmaChan k = some x) ∧
    (s.dmaEntry x = some (n, e, w)) ∧ (x.beats.find? (·.k == b) = some y)) (.poisoned))) = true) (z.1) (z.2.1) (z.2.2))) = true)) = true) (0))
    (0)) (beatUp (dmaE 1 100 []) 5 (beat 0 4 0 none none))) ∧
    ((fun (s : State) => (fun (k : Nat) => (fun (b : Nat) => ((s.dmaChan k).any fun (x : DmaChan) => decide (((s.dmaEntry x).any fun z => decide ((fun (n : Nat) (e : Bytes) (w : Owner) => ((x.beats.find? (·.k == b)).any fun (y : Beat) => decide ((fun (how : BeatFault) => (s.dmaChan k = some x) ∧
    (s.dmaEntry x = some (n, e, w)) ∧ (x.beats.find? (·.k == b) = some y)) (.uncorrectable))) = true) (z.1) (z.2.1) (z.2.2))) = true)) = true) (0))
    (0)) (beatUp (dmaE 1 100 []) 5 (beat 0 4 0 none none))) ∧
    ((fun (s : State) => (fun (k : Nat) => (fun (b : Nat) => ((s.dmaChan k).any fun (x : DmaChan) => decide (((s.dmaEntry x).any fun z => decide ((fun (n : Nat) (e : Bytes) (w : Owner) => ((x.beats.find? (·.k == b)).any fun (y : Beat) => decide ((fun (how : BeatFault) => (s.dmaChan k = some x) ∧
    (s.dmaEntry x = some (n, e, w)) ∧ (x.beats.find? (·.k == b) = some y)) (.busMaster))) = true) (z.1) (z.2.1) (z.2.2))) = true)) = true) (0))
    (0)) (beatUp (dmaE 1 100 []) 5 (beat 0 4 0 none none))) ∧
    ((fun (s : State) => (fun (k : Nat) => (fun (b : Nat) => ((s.dmaChan k).any fun (x : DmaChan) => decide (((s.dmaEntry x).any fun z => decide ((fun (n : Nat) (e : Bytes) (w : Owner) => ((x.beats.find? (·.k == b)).any fun (y : Beat) => decide ((fun (how : BeatFault) => (s.dmaChan k = some x) ∧
    (s.dmaEntry x = some (n, e, w)) ∧ (x.beats.find? (·.k == b) = some y)) (.readError))) = true) (z.1) (z.2.1) (z.2.2))) = true)) = true) (0))
    (0)) (beatUp (dmaE 1 100 []) 5 (beat 0 4 3 none none))) ∧
    ((fun (s : State) => (fun (k : Nat) => (fun (b : Nat) => ((s.dmaChan k).any fun (x : DmaChan) => decide (((s.dmaEntry x).any fun z => decide ((fun (n : Nat) (e : Bytes) (w : Owner) => ((x.beats.find? (·.k == b)).any fun (y : Beat) => decide ((fun (how : BeatFault) => (s.dmaChan k = some x) ∧
    (s.dmaEntry x = some (n, e, w)) ∧ (x.beats.find? (·.k == b) = some y)) (.readTimeout))) = true) (z.1) (z.2.1) (z.2.2))) = true)) = true) (0))
    (0)) (beatUp (dmaE 1 100 []) 5 (beat 0 4 3 none none))) ∧
    ((fun (s : State) => (fun (k : Nat) => (fun (b : Nat) => ((s.dmaChan k).any fun (x : DmaChan) => decide (((s.dmaEntry x).any fun z => decide ((fun (n : Nat) (e : Bytes) (w : Owner) => ((x.beats.find? (·.k == b)).any fun (y : Beat) => decide ((fun (how : BeatFault) => (s.dmaChan k = some x) ∧
    (s.dmaEntry x = some (n, e, w)) ∧ (x.beats.find? (·.k == b) = some y)) (.writeError))) = true) (z.1) (z.2.1) (z.2.2))) = true)) = true) (0))
    (0)) (beatUp (dmaE 1 100 []) 5 (beat 0 4 3 none none))) ∧
    ((fun (s : State) => (fun (k : Nat) => (fun (b : Nat) => ((s.dmaChan k).any fun (x : DmaChan) => decide (((s.dmaEntry x).any fun z => decide ((fun (n : Nat) (e : Bytes) (w : Owner) => ((x.beats.find? (·.k == b)).any fun (y : Beat) => decide ((fun (how : BeatFault) => (s.dmaChan k = some x) ∧
    (s.dmaEntry x = some (n, e, w)) ∧ (x.beats.find? (·.k == b) = some y)) (.poisoned))) = true) (z.1) (z.2.1) (z.2.2))) = true)) = true) (0))
    (0)) (beatUp (dmaE 1 100 []) 5 (beat 0 4 3 none none))) ∧
    ((fun (s : State) => (fun (k : Nat) => (fun (b : Nat) => ((s.dmaChan k).any fun (x : DmaChan) => decide (((s.dmaEntry x).any fun z => decide ((fun (n : Nat) (e : Bytes) (w : Owner) => ((x.beats.find? (·.k == b)).any fun (y : Beat) => decide ((fun (how : BeatFault) => (s.dmaChan k = some x) ∧
    (s.dmaEntry x = some (n, e, w)) ∧ (x.beats.find? (·.k == b) = some y)) (.uncorrectable))) = true) (z.1) (z.2.1) (z.2.2))) = true)) = true) (0))
    (0)) (beatUp (dmaE 1 100 []) 5 (beat 0 4 3 none none))) ∧
    ((fun (s : State) => (fun (k : Nat) => (fun (b : Nat) => ((s.dmaChan k).any fun (x : DmaChan) => decide (((s.dmaEntry x).any fun z => decide ((fun (n : Nat) (e : Bytes) (w : Owner) => ((x.beats.find? (·.k == b)).any fun (y : Beat) => decide ((fun (how : BeatFault) => (s.dmaChan k = some x) ∧
    (s.dmaEntry x = some (n, e, w)) ∧ (x.beats.find? (·.k == b) = some y)) (.busMaster))) = true) (z.1) (z.2.1) (z.2.2))) = true)) = true) (0))
    (0)) (beatUp (dmaE 1 100 []) 5 (beat 0 4 3 none none))) ∧
    ((fun (s : State) => (fun (k : Nat) => (fun (b : Nat) => ((s.dmaChan k).any fun (x : DmaChan) => decide (((s.dmaEntry x).any fun z => decide ((fun (n : Nat) (e : Bytes) (w : Owner) => ((x.beats.find? (·.k == b)).any fun (y : Beat) => decide ((fun (how : BeatFault) => (s.dmaChan k = some x) ∧
    (s.dmaEntry x = some (n, e, w)) ∧ (x.beats.find? (·.k == b) = some y)) (.readError))) = true) (z.1) (z.2.1) (z.2.2))) = true)) = true) (0))
    (0)) ((beatUp (dmaE 1 100 []) 5 (beat 0 4 0 none none)).onDmaChan 0 fun x => { x with failing := some (2, false, 0) })) ∧
    ((fun (s0 : State) => (fun (tile : Nat) => (fun (s : State) => (fun (chan : Nat) => (fun (b : Nat) => ((s.dmaChan (tile * 256 + chan)).any fun (x : DmaChan) => decide (((s.dmaEntry x).any fun z => decide ((fun (n : Nat) (e : Bytes) (w : Owner) => ((x.beats.find? (·.k == b)).any fun (y : Beat) => decide ((fun (t : Nat) => (s.dmaChan (tile * 256 + chan) = some x) ∧
    (s.dmaEntry x = some (n, e, w)) ∧ (x.beats.find? (·.k == b) = some y) ∧ (y.retryAt = some t) ∧
    (s.fatal = false) ∧ (t ≤ s.ft) ∧ (s.onFrame = true)) (1024))) = true) (z.1) (z.2.1) (z.2.2))) = true)) = true) (0))
    (0)) (s0.seenFrom tile)) (0)) (beatUp (dmaE 1 100 []) 1024 (beat 0 4 1 none (some 1024)))) ∧
    ((fun (s0 : State) => (fun (tile : Nat) => (fun (s : State) => (fun (chan : Nat) => (fun (b : Nat) => ((s.dmaChan (tile * 256 + chan)).any fun (x : DmaChan) => decide (((s.dmaEntry x).any fun z => decide ((fun (n : Nat) (e : Bytes) (w : Owner) => ((x.beats.find? (·.k == b)).any fun (y : Beat) => decide ((fun (t : Nat) => (s.dmaChan (tile * 256 + chan) = some x) ∧
    (s.dmaEntry x = some (n, e, w)) ∧ (x.beats.find? (·.k == b) = some y) ∧ (y.retryAt = some t) ∧
    (s.fatal = false) ∧ (t ≤ s.ft) ∧ (s.onFrame = true)) (1024))) = true) (z.1) (z.2.1) (z.2.2))) = true)) = true) (0))
    (0)) (s0.seenFrom tile)) (0)) (bmeOff (beatUp (dmaE 1 100 []) 1024 (beat 0 4 1 none (some 1024))))) := by
  refine ⟨?_, ?_, ?_, ?_, ?_, ?_, ?_, ?_, ?_, ?_, ?_, ?_, ?_, ?_, ?_, ?_, ?_, ?_, ?_, ?_, ?_, ?_, ?_, ?_, ?_, ?_, ?_, ?_, ?_, ?_, ?_, ?_, ?_, ?_, ?_⟩ <;> decide +kernel

/-- Clauses 1, 1, 1, 1, 1, 1, 2, 2, 2, 2, 3, 3, 4, 4, 4, 5, 5, 5, 6, 7, 7, 7, 7, 8, 8, 9, 9, 9 of ChannelInstructionsAnswer. -/
theorem witness_channelInstructionsAnswer :
    ((fun (r : State) => (fun (tid : Nat) => (fun (rd : BitVec 5) => (fun (rs1 : BitVec 5) => (fun (rs2 : BitVec 5) => ((r.issued tid (xkWord xkCh 0 rd.toNat rs1.toNat rs2.toNat)).any fun z => decide ((fun (s : State) (t : Thread) (g : Bool) => (fun (d : Nat) => (fun (ch : Nat) => (fun (len : Nat) => (r.issued tid (xkWord xkCh 0 rd.toNat rs1.toNat rs2.toNat) = some (s, t, g)))
    (field d 16 4 + 1)) (d % 8192)) (t.reg rs1.toNat)) (z.1) (z.2.1) (z.2.2))) = true) (7)) (6))
    (5)) (8)) (coreUp (xkWord xkCh 0 5 6 7) [(6, 20), (7, 99)] (id) (id) [(20, chn)])) ∧
    ((fun (r : State) => (fun (tid : Nat) => (fun (rd : BitVec 5) => (fun (rs1 : BitVec 5) => (fun (rs2 : BitVec 5) => ((r.issued tid (xkWord xkCh 0 rd.toNat rs1.toNat rs2.toNat)).any fun z => decide ((fun (s : State) (t : Thread) (g : Bool) => (fun (d : Nat) => (fun (ch : Nat) => (fun (len : Nat) => (r.issued tid (xkWord xkCh 0 rd.toNat rs1.toNat rs2.toNat) = some (s, t, g)))
    (field d 16 4 + 1)) (d % 8192)) (t.reg rs1.toNat)) (z.1) (z.2.1) (z.2.2))) = true) (7)) (6))
    (5)) (8)) (coreUp (xkWord xkCh 0 5 6 7) [(6, 20 + 65536), (7, 99)] (id) (id) [(20, chn)])) ∧
    ((fun (r : State) => (fun (tid : Nat) => (fun (rd : BitVec 5) => (fun (rs1 : BitVec 5) => (fun (rs2 : BitVec 5) => ((r.issued tid (xkWord xkCh 0 rd.toNat rs1.toNat rs2.toNat)).any fun z => decide ((fun (s : State) (t : Thread) (g : Bool) => (fun (d : Nat) => (fun (ch : Nat) => (fun (len : Nat) => (r.issued tid (xkWord xkCh 0 rd.toNat rs1.toNat rs2.toNat) = some (s, t, g)))
    (field d 16 4 + 1)) (d % 8192)) (t.reg rs1.toNat)) (z.1) (z.2.1) (z.2.2))) = true) (7)) (6))
    (5)) (8)) (coreUp (xkWord xkCh 0 5 6 7) [(6, 21)] (id) (id) [(20, chn)])) ∧
    ((fun (r : State) => (fun (tid : Nat) => (fun (rd : BitVec 5) => (fun (rs1 : BitVec 5) => (fun (rs2 : BitVec 5) => ((r.issued tid (xkWord xkCh 0 rd.toNat rs1.toNat rs2.toNat)).any fun z => decide ((fun (s : State) (t : Thread) (g : Bool) => (fun (d : Nat) => (fun (ch : Nat) => (fun (len : Nat) => (r.issued tid (xkWord xkCh 0 rd.toNat rs1.toNat rs2.toNat) = some (s, t, g)))
    (field d 16 4 + 1)) (d % 8192)) (t.reg rs1.toNat)) (z.1) (z.2.1) (z.2.2))) = true) (7)) (6))
    (5)) (8)) (coreUp (xkWord xkCh 0 5 6 7) [(6, 20 + 65536)] (id) (id) [(20, { chn with msgs := [(3, List.replicate 8 1), (3, List.replicate 56 1)] })])) ∧
    ((fun (r : State) => (fun (tid : Nat) => (fun (rd : BitVec 5) => (fun (rs1 : BitVec 5) => (fun (rs2 : BitVec 5) => ((r.issued tid (xkWord xkCh 0 rd.toNat rs1.toNat rs2.toNat)).any fun z => decide ((fun (s : State) (t : Thread) (g : Bool) => (fun (d : Nat) => (fun (ch : Nat) => (fun (len : Nat) => (r.issued tid (xkWord xkCh 0 rd.toNat rs1.toNat rs2.toNat) = some (s, t, g)))
    (field d 16 4 + 1)) (d % 8192)) (t.reg rs1.toNat)) (z.1) (z.2.1) (z.2.2))) = true) (7)) (6))
    (5)) (8)) (coreUp (xkWord xkCh 0 5 6 7) [(6, 20 + 15 * 65536)] (id) (id) [(20, chn)])) ∧
    ((fun (r : State) => (fun (tid : Nat) => (fun (rd : BitVec 5) => (fun (rs1 : BitVec 5) => (fun (rs2 : BitVec 5) => ((r.issued tid (xkWord xkCh 0 rd.toNat rs1.toNat rs2.toNat)).any fun z => decide ((fun (s : State) (t : Thread) (g : Bool) => (fun (d : Nat) => (fun (ch : Nat) => (fun (len : Nat) => (r.issued tid (xkWord xkCh 0 rd.toNat rs1.toNat rs2.toNat) = some (s, t, g)))
    (field d 16 4 + 1)) (d % 8192)) (t.reg rs1.toNat)) (z.1) (z.2.1) (z.2.2))) = true) (7)) (6))
    (5)) (8)) ((coreUp (xkWord xkCh 0 5 6 7) [(6, 20), (7, 99)] (id) (id) [(20, chn)]).onThread 8 fun t => { t with stepping := true })) ∧
    ((fun (r : State) => (fun (tid : Nat) => (fun (rd : BitVec 5) => (fun (rs2 : BitVec 5) => ((r.issued tid (xkWord xkCh 1 rd.toNat 0 rs2.toNat)).any fun z => decide ((fun (s : State) (t : Thread) (g : Bool) => (fun (l : List W64) => (r.issued tid (xkWord xkCh 1 rd.toNat 0 rs2.toNat) = some (s, t, g)))
    (t.staging ++ [t.regs.getD rs2.toNat 0])) (z.1) (z.2.1) (z.2.2))) = true) (7)) (5)) (8)) (coreUp (xkWord xkCh 1 5 0 7) [(7, 99)] (fun t => { t with stagingCh := some 20, stagingLen := 2, staging := [1] }) (id) [(20, { chn with reserved := 2 })])) ∧
    ((fun (r : State) => (fun (tid : Nat) => (fun (rd : BitVec 5) => (fun (rs2 : BitVec 5) => ((r.issued tid (xkWord xkCh 1 rd.toNat 0 rs2.toNat)).any fun z => decide ((fun (s : State) (t : Thread) (g : Bool) => (fun (l : List W64) => (r.issued tid (xkWord xkCh 1 rd.toNat 0 rs2.toNat) = some (s, t, g)))
    (t.staging ++ [t.regs.getD rs2.toNat 0])) (z.1) (z.2.1) (z.2.2))) = true) (7)) (5)) (8)) (coreUp (xkWord xkCh 1 5 0 7) [(7, 99)] (fun t => { t with stagingCh := some 20, stagingLen := 3, staging := [1] }) (id) [(20, { chn with reserved := 3 })])) ∧
    ((fun (r : State) => (fun (tid : Nat) => (fun (rd : BitVec 5) => (fun (rs2 : BitVec 5) => ((r.issued tid (xkWord xkCh 1 rd.toNat 0 rs2.toNat)).any fun z => decide ((fun (s : State) (t : Thread) (g : Bool) => (fun (l : List W64) => (r.issued tid (xkWord xkCh 1 rd.toNat 0 rs2.toNat) = some (s, t, g)))
    (t.staging ++ [t.regs.getD rs2.toNat 0])) (z.1) (z.2.1) (z.2.2))) = true) (7)) (5)) (8)) (coreUp (xkWord xkCh 1 5 0 7) [(7, 99)] (id) (id) [(20, chn)])) ∧
    ((fun (r : State) => (fun (tid : Nat) => (fun (rd : BitVec 5) => (fun (rs2 : BitVec 5) => ((r.issued tid (xkWord xkCh 1 rd.toNat 0 rs2.toNat)).any fun z => decide ((fun (s : State) (t : Thread) (g : Bool) => (fun (l : List W64) => (r.issued tid (xkWord xkCh 1 rd.toNat 0 rs2.toNat) = some (s, t, g)))
    (t.staging ++ [t.regs.getD rs2.toNat 0])) (z.1) (z.2.1) (z.2.2))) = true) (7)) (5)) (8)) (coreUp (xkWord xkCh 1 5 0 7) [(7, 99)] (fun t => { t with stagingCh := some 20, stagingLen := 2, staging := [1] }) (id) [])) ∧
    ((fun (r : State) => (fun (tid : Nat) => (fun (rd : BitVec 5) => ((r.issued tid (xkWord xkCh 5 rd.toNat 0 0)).any fun z => decide ((fun (s : State) (t : Thread) (g : Bool) => (r.issued tid (xkWord xkCh 5 rd.toNat 0 0) = some (s, t, g)))
    (z.1) (z.2.1) (z.2.2))) = true) (5)) (8)) (coreUp (xkWord xkCh 5 5 0 0) [] (fun t => { t with stagingCh := some 20, stagingLen := 2, staging := [1] }) (id) [(20, { chn with reserved := 2 })])) ∧
    ((fun (r : State) => (fun (tid : Nat) => (fun (rd : BitVec 5) => ((r.issued tid (xkWord xkCh 5 rd.toNat 0 0)).any fun z => decide ((fun (s : State) (t : Thread) (g : Bool) => (r.issued tid (xkWord xkCh 5 rd.toNat 0 0) = some (s, t, g)))
    (z.1) (z.2.1) (z.2.2))) = true) (5)) (8)) (coreUp (xkWord xkCh 5 5 0 0) [] (id) (id) [(20, { chn with reserved := 2 })])) ∧
    ((fun (r : State) => (fun (tid : Nat) => (fun (rd : BitVec 5) => (fun (rs1 : BitVec 5) => ((r.issued tid (xkWord xkCh 2 rd.toNat rs1.toNat 0)).any fun z => decide ((fun (s : State) (t : Thread) (g : Bool) => (fun (v : Nat) => (r.issued tid (xkWord xkCh 2 rd.toNat rs1.toNat 0) = some (s, t, g)))
    (t.reg rs1.toNat)) (z.1) (z.2.1) (z.2.2))) = true) (6)) (5)) (8)) (coreUp (xkWord xkCh 2 5 6 0) [(6, 9000)] (id) (id) [(20, chn)])) ∧
    ((fun (r : State) => (fun (tid : Nat) => (fun (rd : BitVec 5) => (fun (rs1 : BitVec 5) => ((r.issued tid (xkWord xkCh 2 rd.toNat rs1.toNat 0)).any fun z => decide ((fun (s : State) (t : Thread) (g : Bool) => (fun (v : Nat) => (r.issued tid (xkWord xkCh 2 rd.toNat rs1.toNat 0) = some (s, t, g)))
    (t.reg rs1.toNat)) (z.1) (z.2.1) (z.2.2))) = true) (6)) (5)) (8)) (coreUp (xkWord xkCh 2 5 6 0) [(6, 20)] (id) (id) [(20, { chn with msgs := [(3, [7, 8])] })])) ∧
    ((fun (r : State) => (fun (tid : Nat) => (fun (rd : BitVec 5) => (fun (rs1 : BitVec 5) => ((r.issued tid (xkWord xkCh 2 rd.toNat rs1.toNat 0)).any fun z => decide ((fun (s : State) (t : Thread) (g : Bool) => (fun (v : Nat) => (r.issued tid (xkWord xkCh 2 rd.toNat rs1.toNat 0) = some (s, t, g)))
    (t.reg rs1.toNat)) (z.1) (z.2.1) (z.2.2))) = true) (6)) (5)) (8)) (coreUp (xkWord xkCh 2 5 6 0) [(6, 20)] (id) (id) [(20, chn)])) ∧
    ((fun (r : State) => (fun (tid : Nat) => (fun (rd : BitVec 5) => (fun (rs1 : BitVec 5) => ((r.issued tid (xkWord xkCh 3 rd.toNat rs1.toNat 0)).any fun z => decide ((fun (s : State) (t : Thread) (g : Bool) => (fun (v : Nat) => (r.issued tid (xkWord xkCh 3 rd.toNat rs1.toNat 0) = some (s, t, g)))
    (t.reg rs1.toNat)) (z.1) (z.2.1) (z.2.2))) = true) (6)) (5)) (8)) (coreUp (xkWord xkCh 3 5 6 0) [(6, 9000)] (id) (id) [(20, chn)])) ∧
    ((fun (r : State) => (fun (tid : Nat) => (fun (rd : BitVec 5) => (fun (rs1 : BitVec 5) => ((r.issued tid (xkWord xkCh 3 rd.toNat rs1.toNat 0)).any fun z => decide ((fun (s : State) (t : Thread) (g : Bool) => (fun (v : Nat) => (r.issued tid (xkWord xkCh 3 rd.toNat rs1.toNat 0) = some (s, t, g)))
    (t.reg rs1.toNat)) (z.1) (z.2.1) (z.2.2))) = true) (6)) (5)) (8)) (coreUp (xkWord xkCh 3 5 6 0) [(6, 20)] (id) (id) [(20, { chn with msgs := [(3, [7, 8])] })])) ∧
    ((fun (r : State) => (fun (tid : Nat) => (fun (rd : BitVec 5) => (fun (rs1 : BitVec 5) => ((r.issued tid (xkWord xkCh 3 rd.toNat rs1.toNat 0)).any fun z => decide ((fun (s : State) (t : Thread) (g : Bool) => (fun (v : Nat) => (r.issued tid (xkWord xkCh 3 rd.toNat rs1.toNat 0) = some (s, t, g)))
    (t.reg rs1.toNat)) (z.1) (z.2.1) (z.2.2))) = true) (6)) (5)) (8)) (coreUp (xkWord xkCh 3 5 6 0) [(6, 20)] (id) (id) [(20, chn)])) ∧
    ((fun (r : State) => (fun (tid : Nat) => (fun (rd : BitVec 5) => (fun (rs1 : BitVec 5) => ((r.issued tid (xkWord xkCh 4 rd.toNat rs1.toNat 0)).any fun z => decide ((fun (s : State) (t : Thread) (g : Bool) => (r.issued tid (xkWord xkCh 4 rd.toNat rs1.toNat 0) = some (s, t, g)))
    (z.1) (z.2.1) (z.2.2))) = true) (6)) (5)) (8)) (coreUp (xkWord xkCh 4 5 6 0) [(6, 17)] (fun t => { t with recv := [7, 8] }) (id) [(20, chn)])) ∧
    ((fun (r : State) => (fun (tid : Nat) => (fun (rd : BitVec 5) => (fun (rs1 : BitVec 5) => ((r.issued tid (xkWord xkCh 6 rd.toNat rs1.toNat 0)).any fun z => decide ((fun (s : State) (t : Thread) (g : Bool) => (fun (v : Nat) => (r.issued tid (xkWord xkCh 6 rd.toNat rs1.toNat 0) = some (s, t, g)))
    (t.reg rs1.toNat)) (z.1) (z.2.1) (z.2.2))) = true) (6)) (5)) (8)) (coreUp (xkWord xkCh 6 5 6 0) [(6, 20)] (id) (id) [(20, { chn with msgs := [(3, [7, 8])] })])) ∧
    ((fun (r : State) => (fun (tid : Nat) => (fun (rd : BitVec 5) => (fun (rs1 : BitVec 5) => ((r.issued tid (xkWord xkCh 6 rd.toNat rs1.toNat 0)).any fun z => decide ((fun (s : State) (t : Thread) (g : Bool) => (fun (v : Nat) => (r.issued tid (xkWord xkCh 6 rd.toNat rs1.toNat 0) = some (s, t, g)))
    (t.reg rs1.toNat)) (z.1) (z.2.1) (z.2.2))) = true) (6)) (5)) (8)) (coreUp (xkWord xkCh 6 5 6 0) [(6, 5)] (id) (id) [(20, chn)])) ∧
    ((fun (r : State) => (fun (tid : Nat) => (fun (rd : BitVec 5) => (fun (rs1 : BitVec 5) => ((r.issued tid (xkWord xkCh 6 rd.toNat rs1.toNat 0)).any fun z => decide ((fun (s : State) (t : Thread) (g : Bool) => (fun (v : Nat) => (r.issued tid (xkWord xkCh 6 rd.toNat rs1.toNat 0) = some (s, t, g)))
    (t.reg rs1.toNat)) (z.1) (z.2.1) (z.2.2))) = true) (6)) (5)) (8)) (coreUp (xkWord xkCh 6 5 6 0) [(6, 30)] (id) (id) [(20, chn)])) ∧
    ((fun (r : State) => (fun (tid : Nat) => (fun (rd : BitVec 5) => (fun (rs1 : BitVec 5) => ((r.issued tid (xkWord xkCh 6 rd.toNat rs1.toNat 0)).any fun z => decide ((fun (s : State) (t : Thread) (g : Bool) => (fun (v : Nat) => (r.issued tid (xkWord xkCh 6 rd.toNat rs1.toNat 0) = some (s, t, g)))
    (t.reg rs1.toNat)) (z.1) (z.2.1) (z.2.2))) = true) (6)) (5)) (8)) (coreUp (xkWord xkCh 6 5 6 0) [(6, 8191)] (id) (id) [(20, chn)])) ∧
    ((fun (r : State) => (fun (tid : Nat) => (fun (rd : BitVec 5) => (fun (rs1 : BitVec 5) => (fun (rs2 : BitVec 5) => ((r.issued tid (xkWord xkCh 7 rd.toNat rs1.toNat rs2.toNat)).any fun z => decide ((fun (s : State) (t : Thread) (g : Bool) => (fun (v : Nat) => (fun (w : Nat) => (r.issued tid (xkWord xkCh 7 rd.toNat rs1.toNat rs2.toNat) = some (s, t, g)))
    (t.reg rs2.toNat)) (t.reg rs1.toNat)) (z.1) (z.2.1) (z.2.2))) = true) (7)) (6)) (5)) (8))
    (coreUp (xkWord xkCh 7 5 6 7) [(6, 20), (7, 0x80040001)] (id) (id) [(20, { chn with readers := [9] })])) ∧
    ((fun (r : State) => (fun (tid : Nat) => (fun (rd : BitVec 5) => (fun (rs1 : BitVec 5) => (fun (rs2 : BitVec 5) => ((r.issued tid (xkWord xkCh 7 rd.toNat rs1.toNat rs2.toNat)).any fun z => decide ((fun (s : State) (t : Thread) (g : Bool) => (fun (v : Nat) => (fun (w : Nat) => (r.issued tid (xkWord xkCh 7 rd.toNat rs1.toNat rs2.toNat) = some (s, t, g)))
    (t.reg rs2.toNat)) (t.reg rs1.toNat)) (z.1) (z.2.1) (z.2.2))) = true) (7)) (6)) (5)) (8))
    (coreUp (xkWord xkCh 7 5 6 7) [(6, 20), (7, 0x100000000)] (id) (id) [(20, { chn with readers := [9] })])) ∧
    ((fun (s : State) => (fun (u : State) => (fun (tid : Nat) => (fun (rd : Nat) => (fun (v : Nat) => (fun (addr : Nat) => (fun (level : Nat) => (fun (t : Thread) => ((u.thread tid).any fun (x : Thread) => decide ((fun (g : Bool) => (fun (y : State) => (u.thread tid = some x))
    (u.onThread tid (fun z => { (z.setReg rd v) with pc := (x.pc + 4) % 2 ^ 64, instret := (z.instret + 1) % 2 ^ 64, state := if z.stepping && z.state == ThState.run then ThState.dstop else z.state, stepping := false })))
    (false))) = true) (Thread.fresh 8)) (0)) (20)) (2 ^ 64 + 3)) (5)) (8)) (coreUp (0) [] (id) (id) []))
    (up)) ∧
    ((fun (s : State) => (fun (u : State) => (fun (tid : Nat) => (fun (rd : Nat) => (fun (v : Nat) => (fun (addr : Nat) => (fun (level : Nat) => (fun (t : Thread) => ((u.thread tid).any fun (x : Thread) => decide ((fun (g : Bool) => (fun (y : State) => (u.thread tid = some x))
    (u.onThread tid (fun z => { (z.setReg rd v) with pc := (x.pc + 4) % 2 ^ 64, instret := (z.instret + 1) % 2 ^ 64, state := if z.stepping && z.state == ThState.run then ThState.dstop else z.state, stepping := false })))
    (true))) = true) (Thread.fresh 8)) (0)) (20)) (2 ^ 64 + 3)) (0)) (8)) (coreUp (0) [] (id) (id) []))
    (up)) ∧
    ((fun (s : State) => (fun (u : State) => (fun (tid : Nat) => (fun (rd : Nat) => (fun (v : Nat) => (fun (addr : Nat) => (fun (level : Nat) => (fun (t : Thread) => ((u.thread tid).any fun (x : Thread) => decide ((fun (g : Bool) => (fun (y : State) => (u.thread tid = some x))
    (u.onThread tid (fun z => { (z.setReg rd v) with pc := (x.pc + 4) % 2 ^ 64, instret := (z.instret + 1) % 2 ^ 64, state := if z.stepping && z.state == ThState.run then ThState.dstop else z.state, stepping := false })))
    (true))) = true) (Thread.fresh 8)) (0)) (20)) (2 ^ 64 + 3)) (5)) (8)) ((coreUp (0) [] (id) (id) []).onThread 8 fun t => { t with stepping := true }))
    (up)) := by
  refine ⟨?_, ?_, ?_, ?_, ?_, ?_, ?_, ?_, ?_, ?_, ?_, ?_, ?_, ?_, ?_, ?_, ?_, ?_, ?_, ?_, ?_, ?_, ?_, ?_, ?_, ?_, ?_, ?_⟩ <;> decide +kernel

/-- Clauses 1, 1, 2, 2, 3, 4, 4, 4, 4, 4, 5, 5, 5, 5, 5, 5, 6, 6, 6, 6, 6, 6, 6, 6, 6, 6, 6, 6, 6, 7, 8, 8 of EventAndThreadControlInstructions. -/
theorem witness_eventAndThreadControlInstructions :
    ((fun (r : State) => (fun (tid : Nat) => (fun (rd : BitVec 5) => (fun (rs1 : BitVec 5) => ((r.issued tid (xkWord xkEv 0 rd.toNat rs1.toNat 0)).any fun z => decide ((fun (s : State) (t : Thread) (g : Bool) => (fun (m : Nat) => (r.issued tid (xkWord xkEv 0 rd.toNat rs1.toNat 0) = some (s, t, g)))
    (t.pending &&& t.reg rs1.toNat)) (z.1) (z.2.1) (z.2.2))) = true) (6)) (5)) (8)) (coreUp (xkWord xkEv 0 5 6 0) [(6, 8)] (fun t => { t with pending := 12 }) (id) [])) ∧
    ((fun (r : State) => (fun (tid : Nat) => (fun (rd : BitVec 5) => (fun (rs1 : BitVec 5) => ((r.issued tid (xkWord xkEv 0 rd.toNat rs1.toNat 0)).any fun z => decide ((fun (s : State) (t : Thread) (g : Bool) => (fun (m : Nat) => (r.issued tid (xkWord xkEv 0 rd.toNat rs1.toNat 0) = some (s, t, g)))
    (t.pending &&& t.reg rs1.toNat)) (z.1) (z.2.1) (z.2.2))) = true) (6)) (5)) (8)) (coreUp (xkWord xkEv 0 5 6 0) [(6, 16)] (fun t => { t with pending := 12 }) (id) [])) ∧
    ((fun (r : State) => (fun (tid : Nat) => (fun (rd : BitVec 5) => (fun (rs1 : BitVec 5) => ((r.issued tid (xkWord xkEv 1 rd.toNat rs1.toNat 0)).any fun z => decide ((fun (s : State) (t : Thread) (g : Bool) => (fun (u : State) => (r.issued tid (xkWord xkEv 1 rd.toNat rs1.toNat 0) = some (s, t, g)))
    (s.onThread tid (fun u => { u with pending := u.pending - (u.pending &&& t.reg rs1.toNat) })))
    (z.1) (z.2.1) (z.2.2))) = true) (6)) (5)) (8)) (coreUp (xkWord xkEv 1 5 6 0) [(6, 4)] (fun t => { t with pending := 12 }) (id) [])) ∧
    ((fun (r : State) => (fun (tid : Nat) => (fun (rd : BitVec 5) => (fun (rs1 : BitVec 5) => ((r.issued tid (xkWord xkEv 1 rd.toNat rs1.toNat 0)).any fun z => decide ((fun (s : State) (t : Thread) (g : Bool) => (fun (u : State) => (r.issued tid (xkWord xkEv 1 rd.toNat rs1.toNat 0) = some (s, t, g)))
    (s.onThread tid (fun u => { u with pending := u.pending - (u.pending &&& t.reg rs1.toNat) })))
    (z.1) (z.2.1) (z.2.2))) = true) (6)) (5)) (8)) (coreUp (xkWord xkEv 1 5 6 0) [(6, 536870912)] (fun t => { t with pending := 12 }) (id) [])) ∧
    ((fun (r : State) => (fun (tid : Nat) => (fun (rd : BitVec 5) => ((r.issued tid (xkWord xkEv 2 rd.toNat 0 0)).any fun z => decide ((fun (s : State) (t : Thread) (g : Bool) => (r.issued tid (xkWord xkEv 2 rd.toNat 0 0) = some (s, t, g)))
    (z.1) (z.2.1) (z.2.2))) = true) (5)) (8)) (coreUp (xkWord xkEv 2 5 0 0) [] (fun t => { t with pending := 12 }) (id) [])) ∧
    ((fun (r : State) => (fun (tid : Nat) => (fun (rd : BitVec 5) => (fun (rs1 : BitVec 5) => (fun (rs2 : BitVec 5) => ((r.issued tid (xkWord xkEv 3 rd.toNat rs1.toNat rs2.toNat)).any fun z => decide ((fun (s : State) (t : Thread) (g : Bool) => (fun (k : Nat) => (fun (b : Nat) => (r.issued tid (xkWord xkEv 3 rd.toNat rs1.toNat rs2.toNat) = some (s, t, g)))
    (t.reg rs2.toNat)) (t.reg rs1.toNat)) (z.1) (z.2.1) (z.2.2))) = true) (7)) (6)) (5)) (8))
    (coreUp (xkWord xkEv 3 5 6 7) [(6, 9), (7, 27)] (id) (id) [])) ∧
    ((fun (r : State) => (fun (tid : Nat) => (fun (rd : BitVec 5) => (fun (rs1 : BitVec 5) => (fun (rs2 : BitVec 5) => ((r.issued tid (xkWord xkEv 3 rd.toNat rs1.toNat rs2.toNat)).any fun z => decide ((fun (s : State) (t : Thread) (g : Bool) => (fun (k : Nat) => (fun (b : Nat) => (r.issued tid (xkWord xkEv 3 rd.toNat rs1.toNat rs2.toNat) = some (s, t, g)))
    (t.reg rs2.toNat)) (t.reg rs1.toNat)) (z.1) (z.2.1) (z.2.2))) = true) (7)) (6)) (5)) (8))
    (coreUp (xkWord xkEv 3 5 6 7) [(6, 10), (7, 24)] (id) (id) [])) ∧
    ((fun (r : State) => (fun (tid : Nat) => (fun (rd : BitVec 5) => (fun (rs1 : BitVec 5) => (fun (rs2 : BitVec 5) => ((r.issued tid (xkWord xkEv 3 rd.toNat rs1.toNat rs2.toNat)).any fun z => decide ((fun (s : State) (t : Thread) (g : Bool) => (fun (k : Nat) => (fun (b : Nat) => (r.issued tid (xkWord xkEv 3 rd.toNat rs1.toNat rs2.toNat) = some (s, t, g)))
    (t.reg rs2.toNat)) (t.reg rs1.toNat)) (z.1) (z.2.1) (z.2.2))) = true) (7)) (6)) (5)) (8))
    (coreUp (xkWord xkEv 3 5 6 7) [(6, 9), (7, 28)] (id) (id) [])) ∧
    ((fun (r : State) => (fun (tid : Nat) => (fun (rd : BitVec 5) => (fun (rs1 : BitVec 5) => (fun (rs2 : BitVec 5) => ((r.issued tid (xkWord xkEv 3 rd.toNat rs1.toNat rs2.toNat)).any fun z => decide ((fun (s : State) (t : Thread) (g : Bool) => (fun (k : Nat) => (fun (b : Nat) => (r.issued tid (xkWord xkEv 3 rd.toNat rs1.toNat rs2.toNat) = some (s, t, g)))
    (t.reg rs2.toNat)) (t.reg rs1.toNat)) (z.1) (z.2.1) (z.2.2))) = true) (7)) (6)) (5)) (8))
    (coreUp (xkWord xkEv 3 5 6 7) [(6, 1024), (7, 24)] (id) (id) [])) ∧
    ((fun (r : State) => (fun (tid : Nat) => (fun (rd : BitVec 5) => (fun (rs1 : BitVec 5) => (fun (rs2 : BitVec 5) => ((r.issued tid (xkWord xkEv 3 rd.toNat rs1.toNat rs2.toNat)).any fun z => decide ((fun (s : State) (t : Thread) (g : Bool) => (fun (k : Nat) => (fun (b : Nat) => (r.issued tid (xkWord xkEv 3 rd.toNat rs1.toNat rs2.toNat) = some (s, t, g)))
    (t.reg rs2.toNat)) (t.reg rs1.toNat)) (z.1) (z.2.1) (z.2.2))) = true) (7)) (6)) (5)) (8))
    (coreUp (xkWord xkEv 3 5 6 7) [(6, 11), (7, 25)] (id) (id) [])) ∧
    ((fun (r : State) => (fun (tid : Nat) => (fun (rd : BitVec 5) => (fun (rs1 : BitVec 5) => (fun (rs2 : BitVec 5) => ((r.issued tid (xkWord xkEv 4 rd.toNat rs1.toNat rs2.toNat)).any fun z => decide ((fun (s : State) (t : Thread) (g : Bool) => (fun (w : State) => (r.issued tid (xkWord xkEv 4 rd.toNat rs1.toNat rs2.toNat) = some (s, t, g)) ∧
    (tid % 8 ≠ 0 ∨ s.thread (tid + t.reg rs1.toNat % 8) = none)) ((if tid % 8 ≠ 0 then s.issueEnd tid t g (s, .fault 2 (xkWord xkEv 4 rd.toNat rs1.toNat rs2.toNat) 0) else s.retired tid t g s rd.toNat 0 0)))
    (z.1) (z.2.1) (z.2.2))) = true) (7)) (6)) (5)) (8)) ((coreUp (xkWord xkEv 4 5 6 7) [(6, 3 + 0 * 256)] (id) (id) []).onThread 9 fun t => { (th id [(6, 1 + 0 * 256)] 9) with state := .run })) ∧
    ((fun (r : State) => (fun (tid : Nat) => (fun (rd : BitVec 5) => (fun (rs1 : BitVec 5) => (fun (rs2 : BitVec 5) => ((r.issued tid (xkWord xkEv 4 rd.toNat rs1.toNat rs2.toNat)).any fun z => decide ((fun (s : State) (t : Thread) (g : Bool) => (fun (w : State) => (r.issued tid (xkWord xkEv 4 rd.toNat rs1.toNat rs2.toNat) = some (s, t, g)) ∧
    (tid % 8 ≠ 0 ∨ s.thread (tid + t.reg rs1.toNat % 8) = none)) ((if tid % 8 ≠ 0 then s.issueEnd tid t g (s, .fault 2 (xkWord xkEv 4 rd.toNat rs1.toNat rs2.toNat) 0) else s.retired tid t g s rd.toNat 0 0)))
    (z.1) (z.2.1) (z.2.2))) = true) (7)) (6)) (5)) (9)) ((coreUp (xkWord xkEv 4 5 6 7) [(6, 3 + 0 * 256)] (id) (id) []).onThread 9 fun t => { (th id [(6, 1 + 0 * 256)] 9) with state := .run })) ∧
    ((fun (r : State) => (fun (tid : Nat) => (fun (rd : BitVec 5) => (fun (rs1 : BitVec 5) => (fun (rs2 : BitVec 5) => ((r.issued tid (xkWord xkEv 4 rd.toNat rs1.toNat rs2.toNat)).any fun z => decide ((fun (s : State) (t : Thread) (g : Bool) => (fun (w : State) => (r.issued tid (xkWord xkEv 4 rd.toNat rs1.toNat rs2.toNat) = some (s, t, g)) ∧
    (tid % 8 ≠ 0 ∨ s.thread (tid + t.reg rs1.toNat % 8) = none)) ((if tid % 8 ≠ 0 then s.issueEnd tid t g (s, .fault 2 (xkWord xkEv 4 rd.toNat rs1.toNat rs2.toNat) 0) else s.retired tid t g s rd.toNat 0 0)))
    (z.1) (z.2.1) (z.2.2))) = true) (7)) (6)) (5)) (8)) ((coreUp (xkWord xkEv 4 5 6 7) [(6, 3 + 1 * 256)] (id) (id) []).onThread 9 fun t => { (th id [(6, 1 + 1 * 256)] 9) with state := .run })) ∧
    ((fun (r : State) => (fun (tid : Nat) => (fun (rd : BitVec 5) => (fun (rs1 : BitVec 5) => (fun (rs2 : BitVec 5) => ((r.issued tid (xkWord xkEv 4 rd.toNat rs1.toNat rs2.toNat)).any fun z => decide ((fun (s : State) (t : Thread) (g : Bool) => (fun (w : State) => (r.issued tid (xkWord xkEv 4 rd.toNat rs1.toNat rs2.toNat) = some (s, t, g)) ∧
    (tid % 8 ≠ 0 ∨ s.thread (tid + t.reg rs1.toNat % 8) = none)) ((if tid % 8 ≠ 0 then s.issueEnd tid t g (s, .fault 2 (xkWord xkEv 4 rd.toNat rs1.toNat rs2.toNat) 0) else s.retired tid t g s rd.toNat 0 0)))
    (z.1) (z.2.1) (z.2.2))) = true) (7)) (6)) (5)) (9)) ((coreUp (xkWord xkEv 4 5 6 7) [(6, 3 + 1 * 256)] (id) (id) []).onThread 9 fun t => { (th id [(6, 1 + 1 * 256)] 9) with state := .run })) ∧
    ((fun (r : State) => (fun (tid : Nat) => (fun (rd : BitVec 5) => (fun (rs1 : BitVec 5) => (fun (rs2 : BitVec 5) => ((r.issued tid (xkWord xkEv 4 rd.toNat rs1.toNat rs2.toNat)).any fun z => decide ((fun (s : State) (t : Thread) (g : Bool) => (fun (w : State) => (r.issued tid (xkWord xkEv 4 rd.toNat rs1.toNat rs2.toNat) = some (s, t, g)) ∧
    (tid % 8 ≠ 0 ∨ s.thread (tid + t.reg rs1.toNat % 8) = none)) ((if tid % 8 ≠ 0 then s.issueEnd tid t g (s, .fault 2 (xkWord xkEv 4 rd.toNat rs1.toNat rs2.toNat) 0) else s.retired tid t g s rd.toNat 0 0)))
    (z.1) (z.2.1) (z.2.2))) = true) (7)) (6)) (5)) (8)) ((coreUp (xkWord xkEv 4 5 6 7) [(6, 3 + 8 * 256)] (id) (id) []).onThread 9 fun t => { (th id [(6, 1 + 8 * 256)] 9) with state := .run })) ∧
    ((fun (r : State) => (fun (tid : Nat) => (fun (rd : BitVec 5) => (fun (rs1 : BitVec 5) => (fun (rs2 : BitVec 5) => ((r.issued tid (xkWord xkEv 4 rd.toNat rs1.toNat rs2.toNat)).any fun z => decide ((fun (s : State) (t : Thread) (g : Bool) => (fun (w : State) => (r.issued tid (xkWord xkEv 4 rd.toNat rs1.toNat rs2.toNat) = some (s, t, g)) ∧
    (tid % 8 ≠ 0 ∨ s.thread (tid + t.reg rs1.toNat % 8) = none)) ((if tid % 8 ≠ 0 then s.issueEnd tid t g (s, .fault 2 (xkWord xkEv 4 rd.toNat rs1.toNat rs2.toNat) 0) else s.retired tid t g s rd.toNat 0 0)))
    (z.1) (z.2.1) (z.2.2))) = true) (7)) (6)) (5)) (9)) ((coreUp (xkWord xkEv 4 5 6 7) [(6, 3 + 8 * 256)] (id) (id) []).onThread 9 fun t => { (th id [(6, 1 + 8 * 256)] 9) with state := .run })) ∧
    ((fun (r : State) => (fun (tid : Nat) => (fun (rd : BitVec 5) => (fun (rs1 : BitVec 5) => (fun (rs2 : BitVec 5) => ((r.issued tid (xkWord xkEv 4 rd.toNat rs1.toNat rs2.toNat)).any fun z => decide ((fun (s : State) (t : Thread) (g : Bool) => ((s.thread (tid + t.reg rs1.toNat % 8)).any fun (x : Thread) => decide ((fun (k : Nat) => (r.issued tid (xkWord xkEv 4 rd.toNat rs1.toNat rs2.toNat) = some (s, t, g)) ∧
    (tid % 8 = 0) ∧ (s.thread k = some x)) (tid + t.reg rs1.toNat % 8))) = true) (z.1) (z.2.1) (z.2.2))) = true) (7))
    (6)) (5)) (8)) (coreUp (xkWord xkEv 4 5 6 7) [(6, 1 + 0 * 256), (7, 0)] (id) (id) [])) ∧
    ((fun (r : State) => (fun (tid : Nat) => (fun (rd : BitVec 5) => (fun (rs1 : BitVec 5) => (fun (rs2 : BitVec 5) => ((r.issued tid (xkWord xkEv 4 rd.toNat rs1.toNat rs2.toNat)).any fun z => decide ((fun (s : State) (t : Thread) (g : Bool) => ((s.thread (tid + t.reg rs1.toNat % 8)).any fun (x : Thread) => decide ((fun (k : Nat) => (r.issued tid (xkWord xkEv 4 rd.toNat rs1.toNat rs2.toNat) = some (s, t, g)) ∧
    (tid % 8 = 0) ∧ (s.thread k = some x)) (tid + t.reg rs1.toNat % 8))) = true) (z.1) (z.2.1) (z.2.2))) = true) (7))
    (6)) (5)) (8)) (coreUp (xkWord xkEv 4 5 6 7) [(6, 1 + 9 * 256), (7, 0)] (id) (id) [])) ∧
    ((fun (r : State) => (fun (tid : Nat) => (fun (rd : BitVec 5) => (fun (rs1 : BitVec 5) => (fun (rs2 : BitVec 5) => ((r.issued tid (xkWord xkEv 4 rd.toNat rs1.toNat rs2.toNat)).any fun z => decide ((fun (s : State) (t : Thread) (g : Bool) => ((s.thread (tid + t.reg rs1.toNat % 8)).any fun (x : Thread) => decide ((fun (k : Nat) => (r.issued tid (xkWord xkEv 4 rd.toNat rs1.toNat rs2.toNat) = some (s, t, g)) ∧
    (tid % 8 = 0) ∧ (s.thread k = some x)) (tid + t.reg rs1.toNat % 8))) = true) (z.1) (z.2.1) (z.2.2))) = true) (7))
    (6)) (5)) (8)) (coreUp (xkWord xkEv 4 5 6 7) [(6, 1 + 1 * 256), (7, 0)] (id) (id) [])) ∧
    ((fun (r : State) => (fun (tid : Nat) => (fun (rd : BitVec 5) => (fun (rs1 : BitVec 5) => (fun (rs2 : BitVec 5) => ((r.issued tid (xkWord xkEv 4 rd.toNat rs1.toNat rs2.toNat)).any fun z => decide ((fun (s : State) (t : Thread) (g : Bool) => ((s.thread (tid + t.reg rs1.toNat % 8)).any fun (x : Thread) => decide ((fun (k : Nat) => (r.issued tid (xkWord xkEv 4 rd.toNat rs1.toNat rs2.toNat) = some (s, t, g)) ∧
    (tid % 8 = 0) ∧ (s.thread k = some x)) (tid + t.reg rs1.toNat % 8))) = true) (z.1) (z.2.1) (z.2.2))) = true) (7))
    (6)) (5)) (8)) (coreUp (xkWord xkEv 4 5 6 7) [(6, 1 + 1 * 256), (7, 0)] (id) (fun t => { t with state := .idle, fval := 77 }) [])) ∧
    ((fun (r : State) => (fun (tid : Nat) => (fun (rd : BitVec 5) => (fun (rs1 : BitVec 5) => (fun (rs2 : BitVec 5) => ((r.issued tid (xkWord xkEv 4 rd.toNat rs1.toNat rs2.toNat)).any fun z => decide ((fun (s : State) (t : Thread) (g : Bool) => ((s.thread (tid + t.reg rs1.toNat % 8)).any fun (x : Thread) => decide ((fun (k : Nat) => (r.issued tid (xkWord xkEv 4 rd.toNat rs1.toNat rs2.toNat) = some (s, t, g)) ∧
    (tid % 8 = 0) ∧ (s.thread k = some x)) (tid + t.reg rs1.toNat % 8))) = true) (z.1) (z.2.1) (z.2.2))) = true) (7))
    (6)) (5)) (8)) (coreUp (xkWord xkEv 4 5 6 7) [(6, 1 + 2 * 256), (7, 0)] (id) (fun t => { t with state := .sstop, fval := 77 }) [])) ∧
    ((fun (r : State) => (fun (tid : Nat) => (fun (rd : BitVec 5) => (fun (rs1 : BitVec 5) => (fun (rs2 : BitVec 5) => ((r.issued tid (xkWord xkEv 4 rd.toNat rs1.toNat rs2.toNat)).any fun z => decide ((fun (s : State) (t : Thread) (g : Bool) => ((s.thread (tid + t.reg rs1.toNat % 8)).any fun (x : Thread) => decide ((fun (k : Nat) => (r.issued tid (xkWord xkEv 4 rd.toNat rs1.toNat rs2.toNat) = some (s, t, g)) ∧
    (tid % 8 = 0) ∧ (s.thread k = some x)) (tid + t.reg rs1.toNat % 8))) = true) (z.1) (z.2.1) (z.2.2))) = true) (7))
    (6)) (5)) (8)) (coreUp (xkWord xkEv 4 5 6 7) [(6, 1 + 3 * 256), (7, 0)] (id) (id) [])) ∧
    ((fun (r : State) => (fun (tid : Nat) => (fun (rd : BitVec 5) => (fun (rs1 : BitVec 5) => (fun (rs2 : BitVec 5) => ((r.issued tid (xkWord xkEv 4 rd.toNat rs1.toNat rs2.toNat)).any fun z => decide ((fun (s : State) (t : Thread) (g : Bool) => ((s.thread (tid + t.reg rs1.toNat % 8)).any fun (x : Thread) => decide ((fun (k : Nat) => (r.issued tid (xkWord xkEv 4 rd.toNat rs1.toNat rs2.toNat) = some (s, t, g)) ∧
    (tid % 8 = 0) ∧ (s.thread k = some x)) (tid + t.reg rs1.toNat % 8))) = true) (z.1) (z.2.1) (z.2.2))) = true) (7))
    (6)) (5)) (8)) (coreUp (xkWord xkEv 4 5 6 7) [(6, 1 + 4 * 256), (7, 17)] (id) (fun t => { t with state := .idle, fval := 77 }) [])) ∧
    ((fun (r : State) => (fun (tid : Nat) => (fun (rd : BitVec 5) => (fun (rs1 : BitVec 5) => (fun (rs2 : BitVec 5) => ((r.issued tid (xkWord xkEv 4 rd.toNat rs1.toNat rs2.toNat)).any fun z => decide ((fun (s : State) (t : Thread) (g : Bool) => ((s.thread (tid + t.reg rs1.toNat % 8)).any fun (x : Thread) => decide ((fun (k : Nat) => (r.issued tid (xkWord xkEv 4 rd.toNat rs1.toNat rs2.toNat) = some (s, t, g)) ∧
    (tid % 8 = 0) ∧ (s.thread k = some x)) (tid + t.reg rs1.toNat % 8))) = true) (z.1) (z.2.1) (z.2.2))) = true) (7))
    (6)) (5)) (8)) (coreUp (xkWord xkEv 4 5 6 7) [(6, 1 + 5 * 256), (7, 0)] (id) (fun t => { t with state := .faulted, fval := 77 }) [])) ∧
    ((fun (r : State) => (fun (tid : Nat) => (fun (rd : BitVec 5) => (fun (rs1 : BitVec 5) => (fun (rs2 : BitVec 5) => ((r.issued tid (xkWord xkEv 4 rd.toNat rs1.toNat rs2.toNat)).any fun z => decide ((fun (s : State) (t : Thread) (g : Bool) => ((s.thread (tid + t.reg rs1.toNat % 8)).any fun (x : Thread) => decide ((fun (k : Nat) => (r.issued tid (xkWord xkEv 4 rd.toNat rs1.toNat rs2.toNat) = some (s, t, g)) ∧
    (tid % 8 = 0) ∧ (s.thread k = some x)) (tid + t.reg rs1.toNat % 8))) = true) (z.1) (z.2.1) (z.2.2))) = true) (7))
    (6)) (5)) (8)) (coreUp (xkWord xkEv 4 5 6 7) [(6, 1 + 6 * 256), (7, 1)] (id) (id) [])) ∧
    ((fun (r : State) => (fun (tid : Nat) => (fun (rd : BitVec 5) => (fun (rs1 : BitVec 5) => (fun (rs2 : BitVec 5) => ((r.issued tid (xkWord xkEv 4 rd.toNat rs1.toNat rs2.toNat)).any fun z => decide ((fun (s : State) (t : Thread) (g : Bool) => ((s.thread (tid + t.reg rs1.toNat % 8)).any fun (x : Thread) => decide ((fun (k : Nat) => (r.issued tid (xkWord xkEv 4 rd.toNat rs1.toNat rs2.toNat) = some (s, t, g)) ∧
    (tid % 8 = 0) ∧ (s.thread k = some x)) (tid + t.reg rs1.toNat % 8))) = true) (z.1) (z.2.1) (z.2.2))) = true) (7))
    (6)) (5)) (8)) (coreUp (xkWord xkEv 4 5 6 7) [(6, 1 + 6 * 256), (7, 0)] (id) (id) [])) ∧
    ((fun (r : State) => (fun (tid : Nat) => (fun (rd : BitVec 5) => (fun (rs1 : BitVec 5) => (fun (rs2 : BitVec 5) => ((r.issued tid (xkWord xkEv 4 rd.toNat rs1.toNat rs2.toNat)).any fun z => decide ((fun (s : State) (t : Thread) (g : Bool) => ((s.thread (tid + t.reg rs1.toNat % 8)).any fun (x : Thread) => decide ((fun (k : Nat) => (r.issued tid (xkWord xkEv 4 rd.toNat rs1.toNat rs2.toNat) = some (s, t, g)) ∧
    (tid % 8 = 0) ∧ (s.thread k = some x)) (tid + t.reg rs1.toNat % 8))) = true) (z.1) (z.2.1) (z.2.2))) = true) (7))
    (6)) (5)) (8)) (coreUp (xkWord xkEv 4 5 6 7) [(6, 1 + 7 * 256), (7, 0)] (id) (fun t => { t with state := .faulted, fval := 77 }) [])) ∧
    ((fun (r : State) => (fun (tid : Nat) => (fun (rd : BitVec 5) => (fun (rs1 : BitVec 5) => (fun (rs2 : BitVec 5) => ((r.issued tid (xkWord xkEv 4 rd.toNat rs1.toNat rs2.toNat)).any fun z => decide ((fun (s : State) (t : Thread) (g : Bool) => ((s.thread (tid + t.reg rs1.toNat % 8)).any fun (x : Thread) => decide ((fun (k : Nat) => (r.issued tid (xkWord xkEv 4 rd.toNat rs1.toNat rs2.toNat) = some (s, t, g)) ∧
    (tid % 8 = 0) ∧ (s.thread k = some x)) (tid + t.reg rs1.toNat % 8))) = true) (z.1) (z.2.1) (z.2.2))) = true) (7))
    (6)) (5)) (8)) (coreUp (xkWord xkEv 4 5 6 7) [(6, 1 + 8 * 256), (7, 0)] (id) (fun t => { t with state := .faulted, fval := 77 }) [])) ∧
    ((fun (r : State) => (fun (tid : Nat) => (fun (rd : BitVec 5) => (fun (rs1 : BitVec 5) => (fun (rs2 : BitVec 5) => ((r.issued tid (xkWord xkEv 4 rd.toNat rs1.toNat rs2.toNat)).any fun z => decide ((fun (s : State) (t : Thread) (g : Bool) => ((s.thread (tid + t.reg rs1.toNat % 8)).any fun (x : Thread) => decide ((fun (k : Nat) => (r.issued tid (xkWord xkEv 4 rd.toNat rs1.toNat rs2.toNat) = some (s, t, g)) ∧
    (tid % 8 = 0) ∧ (s.thread k = some x)) (tid + t.reg rs1.toNat % 8))) = true) (z.1) (z.2.1) (z.2.2))) = true) (7))
    (6)) (5)) (8)) (coreUp (xkWord xkEv 4 5 6 7) [(6, 1 + 8 * 256), (7, 0)] (id) (fun t => { t with state := .dstop, fval := 77 }) [])) ∧
    ((fun (s : State) => (fun (core : Nat) => (fun (t : Nat) => ((s.core core).any fun (c : CoreSt) => decide ((s.core core = some c) ∧
    (c.blockedSince = some t) ∧ (s.fatal = false) ∧ (c.hung = false) ∧ (c.deadlockArmed = true) ∧
    (s.allBlocked core = true) ∧ (t + 2048 ≤ s.time.osc))) = true) (0)) (1)) (((atFt 2048 (coreUp (0) [] (id) (id) [(20, { chn with prod := 1, pcore := 1 })])).onThread 8 fun t => { t with state := .blockedCh, waitCh := 20 }).onThread 9 (fun t => { t with state := .idle }) |>.onCore 1 fun c => { c with blockedSince := some 0 })) ∧
    ((fun (s : State) => (fun (core : Nat) => ((s.core core).any fun (c : CoreSt) => decide (((s.thread (core * 8)).any fun (t : Thread) => decide ((s.core core = some c) ∧
    (s.thread (core * 8) = some t) ∧ (s.fatal = false) ∧ (c.hung = false) ∧ (s.onFrame = true) ∧
    (s.wdCondition core = true) ∧ (s.wdPaused core = false) ∧ (c.wdStart ≠ none) ∧ (t.wdInterval ≤ c.wdTime s.ft))) = true)) = true) (1))
    (((atFt 102400 (coreUp (0) [] (id) (id) [])).onThread 8 fun t => { t with pending := 2 ^ 28 }) |>.onCore 1 fun c => { c with wdStart := some 0 })) ∧
    ((fun (s : State) => (fun (core : Nat) => ((s.core core).any fun (c : CoreSt) => decide (((s.thread (core * 8)).any fun (t : Thread) => decide ((s.core core = some c) ∧
    (s.thread (core * 8) = some t) ∧ (s.fatal = false) ∧ (c.hung = false) ∧ (s.onFrame = true) ∧
    (s.wdCondition core = true) ∧ (s.wdPaused core = false) ∧ (c.wdStart ≠ none) ∧ (t.wdInterval ≤ c.wdTime s.ft))) = true)) = true) (1))
    ((((atFt 102400 (coreUp (0) [] (id) (id) [(20, { chn with prod := 1, pcore := 1 })])).onThread 8 fun t => { t with state := .blockedCh, waitCh := 20, pending := 2 ^ 29 }).onThread 9 (fun t => { t with state := .idle })) |>.onCore 1 fun c => { c with wdStart := some 0 })) := by
  refine ⟨?_, ?_, ?_, ?_, ?_, ?_, ?_, ?_, ?_, ?_, ?_, ?_, ?_, ?_, ?_, ?_, ?_, ?_, ?_, ?_, ?_, ?_, ?_, ?_, ?_, ?_, ?_, ?_, ?_, ?_, ?_, ?_⟩ <;> decide +kernel

/-- Clauses 1, 1, 1, 1, 2, 5, 7, 8, 8, 8, 8, 8, 9, 9 of BaseInstructionsAndDebugger. -/
theorem witness_baseInstructionsAndDebugger :
    ((fun (r : State) => (fun (tid : Nat) => ((r.readyThread tid).any fun (t0 : Thread) => decide ((fun (raw : Nat) => (fun (len : Nat) => (((r.fetched t0.pc len).thread tid).any fun (t : Thread) => decide ((fun (s : State) => (fun (g : Bool) => (r.readyThread tid = some t0) ∧
    (r.fetchAt tid t0.pc = .ok raw len) ∧ ((len = 4 && isXkzch raw) = false) ∧ ((r.fetched t0.pc len).thread tid = some t) ∧
    ((r.fetched t0.pc len).tagIssue tid = (s, g))) (((r.fetched t0.pc len).tagIssue tid).2)) (((r.fetched t0.pc len).tagIssue tid).1))) = true) ((match r.fetchAt tid t0.pc with | .ok _ b => b | .fault _ _ => 0)))
    ((match r.fetchAt tid t0.pc with | .ok a _ => a | .fault _ _ => 0)))) = true) (8)) (coreUp (encI 0x13 0 5 6 1) [(6, 0xFFFFFFFFFFFFFFFF), (7, 5)] (id) (id) [])) ∧
    ((fun (r : State) => (fun (tid : Nat) => ((r.readyThread tid).any fun (t0 : Thread) => decide ((fun (raw : Nat) => (fun (len : Nat) => (((r.fetched t0.pc len).thread tid).any fun (t : Thread) => decide ((fun (s : State) => (fun (g : Bool) => (r.readyThread tid = some t0) ∧
    (r.fetchAt tid t0.pc = .ok raw len) ∧ ((len = 4 && isXkzch raw) = false) ∧ ((r.fetched t0.pc len).thread tid = some t) ∧
    ((r.fetched t0.pc len).tagIssue tid = (s, g))) (((r.fetched t0.pc len).tagIssue tid).2)) (((r.fetched t0.pc len).tagIssue tid).1))) = true) ((match r.fetchAt tid t0.pc with | .ok _ b => b | .fault _ _ => 0)))
    ((match r.fetchAt tid t0.pc with | .ok a _ => a | .fault _ _ => 0)))) = true) (8)) (coreUp (0x73) [(6, 0xFFFFFFFFFFFFFFFF), (7, 5)] (id) (id) [])) ∧
    ((fun (r : State) => (fun (tid : Nat) => ((r.readyThread tid).any fun (t0 : Thread) => decide ((fun (raw : Nat) => (fun (len : Nat) => (((r.fetched t0.pc len).thread tid).any fun (t : Thread) => decide ((fun (s : State) => (fun (g : Bool) => (r.readyThread tid = some t0) ∧
    (r.fetchAt tid t0.pc = .ok raw len) ∧ ((len = 4 && isXkzch raw) = false) ∧ ((r.fetched t0.pc len).thread tid = some t) ∧
    ((r.fetched t0.pc len).tagIssue tid = (s, g))) (((r.fetched t0.pc len).tagIssue tid).2)) (((r.fetched t0.pc len).tagIssue tid).1))) = true) ((match r.fetchAt tid t0.pc with | .ok _ b => b | .fault _ _ => 0)))
    ((match r.fetchAt tid t0.pc with | .ok a _ => a | .fault _ _ => 0)))) = true) (8)) ((coreUp (0x0505) [(6, 0xFFFFFFFFFFFFFFFF), (7, 5)] (id) (id) []).onThread 8 fun t => { t with stepping := true })) ∧
    ((fun (r : State) => (fun (tid : Nat) => ((r.readyThread tid).any fun (t0 : Thread) => decide ((fun (raw : Nat) => (fun (len : Nat) => (((r.fetched t0.pc len).thread tid).any fun (t : Thread) => decide ((fun (s : State) => (fun (g : Bool) => (r.readyThread tid = some t0) ∧
    (r.fetchAt tid t0.pc = .ok raw len) ∧ ((len = 4 && isXkzch raw) = false) ∧ ((r.fetched t0.pc len).thread tid = some t) ∧
    ((r.fetched t0.pc len).tagIssue tid = (s, g))) (((r.fetched t0.pc len).tagIssue tid).2)) (((r.fetched t0.pc len).tagIssue tid).1))) = true) ((match r.fetchAt tid t0.pc with | .ok _ b => b | .fault _ _ => 0)))
    ((match r.fetchAt tid t0.pc with | .ok a _ => a | .fault _ _ => 0)))) = true) (8)) (coreUp (0) [(6, 0xFFFFFFFFFFFFFFFF), (7, 5)] (id) (id) [])) ∧
    ((fun (r : State) => (fun (tid : Nat) => ((r.readyThread tid).any fun (t : Thread) => decide ((fun (c : Nat) => (fun (v : Nat) => (fun (s : State) => (fun (g : Bool) => (r.readyThread tid = some t) ∧
    (r.fetchAt tid t.pc = .fault c v) ∧ ((if v = t.pc then r else r.fetched t.pc 2).tagIssue tid = (s, g)))
    (((if v = t.pc then r else r.fetched t.pc 2).tagIssue tid).2)) (((if v = t.pc then r else r.fetched t.pc 2).tagIssue tid).1))
    (2 ^ 40)) (1))) = true) (8)) ((coreUp (0) [] (id) (id) []).onThread 8 fun t => { t with pc := 2 ^ 40 })) ∧
    ((fun (s : State) => (fun (tid : Nat) => (fun (len : Nat) => (fun (t : Thread) => (fun (rd : BitVec 5) => (fun (r1 : BitVec 5) => (fun (r2 : BitVec 5) => (t.reg r2.toNat < 2 ^ 64))
    (7)) (6)) (5)) ((Thread.fresh 8).setReg 7 5)) (2)) (8)) (coreUp (0) [] (id) (id) [])) ∧
    ((fun (s : State) => (fun (tid : Nat) => ((s.thread tid).any fun (t : Thread) => decide ((fun (a : DebugAccess) => (s.thread tid = some t) ∧
    (s.trust.level < 2)) (.readReg 1))) = true) (8)) ((coreUp (0) [] (id) (id) []).onTrust fun x => { x with level := 1 })) ∧
    ((fun (s : State) => (fun (tid : Nat) => ((s.thread tid).any fun (t : Thread) => decide ((fun (a : DebugAccess) => (s.thread tid = some t) ∧
    (2 ≤ s.trust.level)) (.readReg 31))) = true) (8)) ((coreUp (0) [] (id) (id) []).onTrust fun x => { x with level := 2 })) ∧
    ((fun (s : State) => (fun (tid : Nat) => ((s.thread tid).any fun (t : Thread) => decide ((fun (a : DebugAccess) => (s.thread tid = some t) ∧
    (2 ≤ s.trust.level)) (.writeReg 1 9))) = true) (8)) ((coreUp (0) [] (fun t => { t with state := .dstop, remembered := .run }) (id) []).onTrust fun x => { x with level := 3 })) ∧
    ((fun (s : State) => (fun (tid : Nat) => ((s.thread tid).any fun (t : Thread) => decide ((fun (a : DebugAccess) => (s.thread tid = some t) ∧
    (2 ≤ s.trust.level)) (.readStaging))) = true) (8)) ((coreUp (0) [] (fun t => { t with state := .faulted }) (id) []).onTrust fun x => { x with level := 3 })) ∧
    ((fun (s : State) => (fun (tid : Nat) => ((s.thread tid).any fun (t : Thread) => decide ((fun (a : DebugAccess) => (s.thread tid = some t) ∧
    (2 ≤ s.trust.level)) (.readReceive))) = true) (8)) ((coreUp (0) [] (fun t => { t with state := .dstop, remembered := .faulted }) (id) []).onTrust fun x => { x with level := 2 })) ∧
    ((fun (s : State) => (fun (tid : Nat) => ((s.thread tid).any fun (t : Thread) => decide ((fun (a : DebugAccess) => (s.thread tid = some t) ∧
    (2 ≤ s.trust.level)) (.readReg 99))) = true) (8)) ((coreUp (0) [] (id) (id) []).onTrust fun x => { x with level := 2 })) ∧
    ((fun (s : State) => (fun (tid : Nat) => (fun (n : Nat) => (fun (t : Thread) => (fun (v : W64) => (1 ≤ n) ∧
    (n < 32)) (7)) (Thread.fresh 8)) (1)) (8)) (up)) ∧
    ((fun (s : State) => (fun (tid : Nat) => (fun (n : Nat) => (fun (t : Thread) => (fun (v : W64) => (1 ≤ n) ∧
    (n < 32)) (7)) (Thread.fresh 8)) (31)) (8)) (up)) := by
  refine ⟨?_, ?_, ?_, ?_, ?_, ?_, ?_, ?_, ?_, ?_, ?_, ?_, ?_, ?_⟩ <;> decide +kernel

theorem freeQids_isSome (s : State) (h : s.qm.queues = []) : s.freeQids.isSome = true := by
  unfold State.freeQids
  rw [h]
  have h1 := chooseFree_isSome_of_free s.freeVal 65536 0 (Tab.has ([] : Tab Queue)) 0 (by decide) rfl
  obtain ⟨a, ha⟩ := Option.isSome_iff_exists.1 h1
  simp only [List.length_nil, ha, Option.isSome_map, Nat.zero_add]
  by_cases e : (s.freeVal + 0) % 65536 = a
  · exact chooseFree_isSome_of_free _ _ _ _ 1 (by decide) (by
      have : (s.freeVal + 1) % 65536 ≠ a := by omega
      simpa [Tab.has, Tab.get] using this)
  · exact chooseFree_isSome_of_free _ _ _ _ 0 (by decide) (by simpa [Tab.has, Tab.get] using e)

/-- FW_WRITE of data into slot 3, with the CRC-32C that it names. -/
def fwC (d : Bytes) (w : Nat) : Cmd := { mc 3 [(20, toLe 4 w)] [] with data := d }
theorem fwC_crc (d : Bytes) (w : Nat) : cmdLe (fwC d w) 20 4 = w % 2 ^ 32 := by
  have h := le_toLe 4 w (zeros 40)
  have e : cmdLe (fwC d w) 20 4 = le (zeros 4 ++ (toLe 4 w ++ zeros 40)) 4 4 := by
    show le (fwC d w).params (20 - 16) 4 = _
    congr 1
  rw [e]
  have z : zeros 4 ++ (toLe 4 w ++ zeros 40) = 0 :: 0 :: 0 :: 0 :: (toLe 4 w ++ zeros 40) := rfl
  rw [z]
  simp only [le_cons]
  exact h
theorem fwC_wrong (d : Bytes) (hd : d.length = 65536) : (fun (c : Cmd) => (cmdRbuf c = false) ∧ (fwDescOk c = true) ∧ (c.pbErr = none) ∧ (c.data.length = 65536) ∧ (crc32c 0xFFFFFFFF c.data ≠ cmdLe c 20 4)) (fwC d (if crc32c 0xFFFFFFFF d = 0 then 1 else 0)) := by
  refine And.intro (show cmdRbuf (mc 3 [] []) = false by decide) (And.intro rfl (And.intro rfl (And.intro hd ?_)))
  rw [fwC_crc]
  show crc32c 0xFFFFFFFF d ≠ _
  by_cases h : crc32c 0xFFFFFFFF d = 0
  · simp [h]
  · simp [h]
theorem fwC_right (d : Bytes) (hd : d.length = 65536) : (fun (c : Cmd) => (cmdRbuf c = false) ∧ (fwDescOk c = true) ∧ (c.pbErr = none) ∧ (c.data.length = 65536) ∧ (crc32c 0xFFFFFFFF c.data = cmdLe c 20 4) ∧ (c.target.toNat < 2 → up.trialOpen = false) ∧ (up.slotActive c.target.toNat = false) ∧ (up.pushComp.any (fun k => k != c.target.toNat / 2) = false) ∧ (cmdLe c 16 4 = 0)) (fwC d (crc32c 0xFFFFFFFF d)) := by
  have h := crc32c_lt 0xFFFFFFFF d (by decide)
  refine And.intro (show cmdRbuf (mc 3 [] []) = false by decide) (And.intro rfl (And.intro rfl (And.intro hd (And.intro ?_ (And.intro ?_ (And.intro ?_ (And.intro ?_ rfl)))))))
  · rw [fwC_crc]
    exact (Nat.mod_eq_of_lt h).symm
  · intro _
    have : up.trialOpen = false := by decide +kernel
    exact this
  · show up.slotActive (BitVec.ofNat 32 3).toNat = false
    decide +kernel
  · show up.pushComp.any (fun k => k != (BitVec.ofNat 32 3).toNat / 2) = false
    decide +kernel
/-- FW_WRITE of data into block 1 of slot 3. -/
def fwB (d : Bytes) (w : Nat) : Cmd := { mc 3 [(16, toLe 4 1), (20, toLe 4 w)] [] with data := d }
theorem fwB_crc (d : Bytes) (w : Nat) : cmdLe (fwB d w) 20 4 = w % 2 ^ 32 := by
  have h := le_toLe 4 w (zeros 40)
  have e : cmdLe (fwB d w) 20 4 = le (1 :: 0 :: 0 :: 0 :: (toLe 4 w ++ zeros 40)) 4 4 := by
    show le (fwB d w).params (20 - 16) 4 = _
    congr 1
  rw [e]
  simp only [le_cons]
  exact h
theorem fwB_block (d : Bytes) (w : Nat) : cmdLe (fwB d w) 16 4 = 1 := by
  show le (1 :: 0 :: 0 :: 0 :: (toLe 4 w ++ zeros 40)) 0 4 = 1
  simp [le, byteAt]
theorem fwB_right (d : Bytes) (hd : d.length = 65536) : (fun (c : Cmd) => (cmdRbuf c = false) ∧ (fwDescOk c = true) ∧ (c.pbErr = none) ∧ (c.data.length = 65536) ∧ (crc32c 0xFFFFFFFF c.data = cmdLe c 20 4) ∧ (c.target.toNat < 2 → heldSlot.trialOpen = false) ∧ (heldSlot.slotActive c.target.toNat = false) ∧ (heldSlot.pushComp.any (fun k => k != c.target.toNat / 2) = false) ∧ (cmdLe c 16 4 ≠ 0) ∧ ((heldSlot.imgSlot c.target.toNat).held.any fun b => decide (cmdLe c 16 4 ≤ mfBlocks b ∧ cmdLe c 16 4 ≤ maxBlocks (c.target.toNat / 2))) = true) (fwB d (crc32c 0xFFFFFFFF d)) := by
  have h := crc32c_lt 0xFFFFFFFF d (by decide)
  refine And.intro (show cmdRbuf (mc 3 [] []) = false by decide) (And.intro rfl (And.intro rfl (And.intro hd (And.intro ?_ (And.intro ?_ (And.intro ?_ (And.intro ?_ (And.intro ?_ ?_))))))))
  · rw [fwB_crc]
    exact (Nat.mod_eq_of_lt h).symm
  · intro _
    have : heldSlot.trialOpen = false := by decide +kernel
    exact this
  · show heldSlot.slotActive (BitVec.ofNat 32 3).toNat = false
    decide +kernel
  · show heldSlot.pushComp.any (fun k => k != (BitVec.ofNat 32 3).toNat / 2) = false
    decide +kernel
  · simp [fwB_block]
  · simp only [fwB_block]
    show ((heldSlot.imgSlot (BitVec.ofNat 32 3).toNat).held.any fun b =>
      decide (1 ≤ mfBlocks b ∧ 1 ≤ maxBlocks ((BitVec.ofNat 32 3).toNat / 2))) = true
    decide +kernel
theorem test_fieldUpdateOfASlot_3 : (fun (c : Cmd) => (cmdRbuf c = false) ∧ (fwDescOk c = true) ∧ (c.pbErr = none) ∧ (c.data.length = 65536) ∧ (crc32c 0xFFFFFFFF c.data ≠ cmdLe c 20 4)) (fwC (zeros 65536) (if crc32c 0xFFFFFFFF (zeros 65536) = 0 then 1 else 0)) :=
  fwC_wrong (zeros 65536) (List.length_replicate ..)
theorem test_fieldUpdateOfASlot_4 : (fun (c : Cmd) => (cmdRbuf c = false) ∧ (fwDescOk c = true) ∧ (c.pbErr = none) ∧ (c.data.length = 65536) ∧ (crc32c 0xFFFFFFFF c.data = cmdLe c 20 4) ∧ (c.target.toNat < 2 → up.trialOpen = false) ∧ (up.slotActive c.target.toNat = false) ∧ (up.pushComp.any (fun k => k != c.target.toNat / 2) = false) ∧ (cmdLe c 16 4 = 0)) (fwC (zeros 65536) (crc32c 0xFFFFFFFF (zeros 65536))) :=
  fwC_right (zeros 65536) (List.length_replicate ..)
theorem test_fieldUpdateOfASlot_5 : (fun (c : Cmd) => (cmdRbuf c = false) ∧ (fwDescOk c = true) ∧ (c.pbErr = none) ∧ (c.data.length = 65536) ∧ (crc32c 0xFFFFFFFF c.data = cmdLe c 20 4) ∧ (c.target.toNat < 2 → heldSlot.trialOpen = false) ∧ (heldSlot.slotActive c.target.toNat = false) ∧ (heldSlot.pushComp.any (fun k => k != c.target.toNat / 2) = false) ∧ (cmdLe c 16 4 ≠ 0) ∧ ((heldSlot.imgSlot c.target.toNat).held.any fun b => decide (cmdLe c 16 4 ≤ mfBlocks b ∧ cmdLe c 16 4 ≤ maxBlocks (c.target.toNat / 2))) = true) (fwB (zeros 65536) (crc32c 0xFFFFFFFF (zeros 65536))) :=
  fwB_right (zeros 65536) (List.length_replicate ..)
theorem test_commandRingOpensAndCloses_2 : (fun (s : State) => (fun (f : FnRef) => (fun (x : FnSt) => (s.fn f = some x) ∧ (s.barOpen f = true) ∧ (s.fatal = false) ∧ (x.cmdEn = false) ∧ (s.cmdEnBad f x = false) ∧ ((s.onFn f fun y => { y with cmdEn := true, cmdErr := false }).takesCommands f = true)) (ringFn)) (pf)) (ring) := by
  have h : ring.freeQids.isNone = false := by simp [Option.isNone_eq_false_iff, freeQids_isSome ring rfl]
  refine And.intro (by decide +kernel) (And.intro (by decide +kernel) (And.intro rfl (And.intro rfl (And.intro ?_ (by decide +kernel)))))
  show (_ || ring.freeQids.isNone || _) = false
  rw [h]
  decide +kernel
theorem test_commandRingOpensAndCloses_3 : (fun (s : State) => (fun (f : FnRef) => (fun (x : FnSt) => (s.fn f = some x) ∧ (s.barOpen f = true) ∧ (s.fatal = false) ∧ (x.cmdEn = false) ∧ (s.cmdEnBad f x = false) ∧ ((s.onFn f fun y => { y with cmdEn := true, cmdErr := false }).takesCommands f = false)) (ringFn)) (pf)) (ring.onCmd fun m => { m with sfReady := false }) := by
  have h : (ring.onCmd fun m => { m with sfReady := false }).freeQids.isNone = false := by simp [Option.isNone_eq_false_iff, freeQids_isSome (ring.onCmd fun m => { m with sfReady := false }) rfl]
  refine And.intro (by decide +kernel) (And.intro (by decide +kernel) (And.intro rfl (And.intro rfl (And.intro ?_ (by decide +kernel)))))
  show (_ || (ring.onCmd fun m => { m with sfReady := false }).freeQids.isNone || _) = false
  rw [h]
  decide +kernel
def winO : Cmd := rc 0xFFFFFFFF [(16, toLe 8 0x90000), (24, toLe 8 4096), (29, [3])] []
theorem test_windowsOpenChangeAndRefuse_1 : (fun (s : State) => (fun (c : Cmd) => (fun (who : Caller) => (fun (env : BkEnv) => (((s.served 0x0604 c).freeWindow).any fun (i : Nat) => decide ((s.bkAccepts 0x0604 c who env false true true = true) ∧ (winParamsOk c false = true) ∧ ((s.served 0x0604 c).freeWindow = some i) ∧ ((s.served 0x0604 c).krm.windows.get i = none))) = true) ({ mediaOk := true, rpmbOk := true, noiseOk := true, pb := winO.pb })) (.fn pf)) (winO)) (pfRing 0x0604 winO up) := by
  have h : ((pfRing 0x0604 winO up).served 0x0604 winO).freeWindow.isSome = true := by
    by_cases e : ((pfRing 0x0604 winO up).served 0x0604 winO).freeVal % 4194304 = 0
    · exact chooseFree_isSome_of_free _ _ _ _ 1 (by decide +kernel) (by
        have : ((((pfRing 0x0604 winO up).served 0x0604 winO).freeVal + 1) % 4194304 == 0) = false := by simp; omega
        show ((_ % 4194304 == 0) || _) = false
        rw [this]; rfl)
    · exact chooseFree_isSome_of_free _ _ _ _ 0 (by decide +kernel) (by
        have : ((((pfRing 0x0604 winO up).served 0x0604 winO).freeVal + 0) % 4194304 == 0) = false := by simpa using e
        show ((_ % 4194304 == 0) || _) = false
        rw [this]; rfl)
  obtain ⟨i, hi⟩ := Option.isSome_iff_exists.1 h
  show Option.any _ (State.freeWindow (State.served (pfRing 0x0604 winO up) 0x0604 winO)) = true
  rw [hi]
  refine decide_eq_true (And.intro (by decide +kernel) (And.intro (by decide +kernel) (And.intro rfl rfl)))
theorem test_cipherChannelsKeysAndSlices_7 : (fun (s : State) => (fun (c : Cmd) => (fun (who : Caller) => s.accepts 0x0803 c who false (c.pbLen == 2048) true = true ∧ (∀ i, i < 1024 → sliceEntryOk (le c.pb (2 * i) 2) = true) ∧ (s.taken 0x0803 c).tileOn c.target.toNat = true) .management) (mc 3 [] (zeros 2048))) up := by
  refine And.intro (by decide +kernel) (And.intro (fun i _ => ?_) (by decide +kernel))
  show sliceEntryOk (le (zeros 2048) (2 * i) 2) = true
  rw [le_zeros]
  rfl
theorem test_stepRunsTheFrontCommand_1 : (fun (s : State) (c : Instr) (rest : List Instr) => s.pending = c :: rest)
    { up with pending := [.debugStop 8, .sysReset] } (.debugStop 8) [.sysReset] := rfl
theorem test_stepRunsTheFrontCommand_2 : (fun (s : State) => s.pending = []) up := rfl
theorem test_stepRunsTheFrontCommand_2b : (fun (s : State) => s.pending = []) { up with arrivals := [(5, .sysReset)] } := rfl
theorem test_stepRunsTheFrontCommand_3 : (fun (log : List Bytes) => log.length ≤ 4096) [zeros 64] := by decide
theorem test_deviceMemoryReadsAsItWasWritten_1 : (fun (m : List Host.Cell) => Memory.wf m) [(3, 1), (5, 2)] := by decide
theorem test_deviceMemoryReadsAsItWasWritten_2 : (fun (m m' : List Host.Cell) => Memory.wf m ∧ Memory.wf m' ∧ ∀ a, memGet m a = memGet m' a)
    (memPut [(5, 2)] 3 1) [(3, 1), (5, 2)] := And.intro (by decide) (And.intro (by decide) fun _ => rfl)
theorem test_deviceMemoryReadsAsItWasWritten_3 : (fun (s : State) (q : Requester) (a : Nat) (bs : Bytes) =>
    s.memOk ∧ (s.devWrite q a bs).isSome = true ∧ s.memKey (a + 4095) ≠ s.memKey (a + 4096)) up .buckram (2 ^ 32) [1, 0, 2] :=
  And.intro (show Memory.wf ([] : List Host.Cell) by decide) (And.intro (by decide +kernel) (by decide +kernel))
theorem test_managementRequestsRunTheirRows_1 : (fun (code tag : Nat) (c : Cmd) => code < 65536 ∧ inlinePacket code tag c = true)
    0x0502 0 (mc 65535 [(16, toLe 8 5)] (zeros 24)) := by decide +kernel
theorem test_managementRequestsRunTheirRows_2 : (fun (s : State) (i : Instr) (code tag : Nat) (c : Cmd) => packetOf i = some (code, c) ∧
    inlinePacket code tag c = true ∧ chosenRow s i = true ∧ s.endpointOn = true) up (.twPolicerSet (m0 65535)) 0x0502 0 (m0 65535) := by
  decide +kernel
theorem test_managementRequestsRunTheirRows_3 : (fun (s : State) (body : Bytes) => s.endpointOn = true ∧
    (body.length < 64 ∨ body.length ≠ 64 + le body 12 2 + opcodeData (le body 0 2))) up (zeros 63) := by decide +kernel
theorem test_managementRequestsRunTheirRows_3b : (fun (s : State) (body : Bytes) => s.endpointOn = true ∧
    (body.length < 64 ∨ body.length ≠ 64 + le body 12 2 + opcodeData (le body 0 2))) up (zeros 12 ++ toLe 2 8 ++ zeros 51) := by decide +kernel
theorem test_managementRequestsRunTheirRows_4 : (fun (s : State) (body : Bytes) => s.endpointOn = true ∧ byteAt body 1 = 6) up [0x80, 6, 0] := by
  decide +kernel
theorem test_fatalEndsOnlyAtReset_1 : (fun (s t : State) => s.fatal = true ∧ (∀ i, s.pending.head? = some i → mayReset i = false) ∧ step s = .next t)
    { up with fatal := true, pending := [.debugStop 8] } (doDebugStop 8 { up with fatal := true, pending := [] }) :=
  And.intro rfl (And.intro (fun _ h => by cases h; rfl) rfl)
theorem test_fatalEndsOnlyAtReset_2 : (fun (s : State) (i : Instr) (code : Nat) (c : Cmd) => s.fatal = true ∧ packetOf i = some (code, c))
    { up with fatal := true } (.fwWrite (m0 3)) 0x0902 (m0 3) := And.intro rfl rfl
theorem test_fatalEndsOnlyAtReset_3 : (fun (s : State) (i : Instr) => s.fatal = true ∧ actsInFatal i = false)
    { up with fatal := true } (.pktTxSend 3) := And.intro rfl rfl

end Sys2Proof.Tests
end

section
/-! SUPPORT. REGISTER_WRITE (00 R12): one lemma for what each kind of write does where it is taken, and O7 from them. -/

namespace Sys2Proof.Machine

variable {s : State} {f : FnRef} {x : FnSt}

theorem exec_registerWrite (a : RegAccess) (s : State) : exec (.registerWrite a) s = .next (doRegisterWrite a s) := rfl

/-! ## Configuration space (13 R366 R374 R392) -/

/-- A Configuration Write that a function takes. -/
theorem State.configWrite_of_configurable (hc : s.configurable f = true) (hf : s.fn f = some x) (r : CfgField) (v : Nat) :
    s.configWrite f r v = if s.sizeHostError f r (x.setField r v)
      then (((s.onFn f (·.setField r v)).flushVectors f).endRefused f.port).ownerHostError (.function f)
      else ((s.onFn f (·.setField r v)).flushVectors f).endRefused f.port := by
  simp [State.configWrite, hc, hf]

/-! ## The control page (13 R369 R370) -/

/-- Only FN_CTRL has reserved bits that count while CMD_EN is 1. -/
theorem controlReserved_of_cmdEn {off : Nat} (h : off ≠ 0x008) (size v : Nat) : controlReserved off size v true = false := by
  simp [controlReserved, h]

/-- A register other than FN_CTRL and FN_CMD_CFG has no reserved bits that a write checks. -/
theorem controlReserved_of_base {off : Nat} (h8 : off ≠ 0x008) (h28 : off ≠ 0x028) (size v : Nat) (cmdEn : Bool) :
    controlReserved off size v cmdEn = false := by
  simp [controlReserved, h8, h28]

/-- A value of FN_CMD_CFG without reserved bits. -/
theorem controlReserved_of_cmdCfg {v : Nat} (hv : v < 2 ^ 32) (hm : v &&& 0x07FF00FF = v) (size : Nat) (cmdEn : Bool) :
    controlReserved 0x028 size v cmdEn = false := by
  rw [controlReserved, Nat.mod_eq_of_lt hv, hm]
  simp

/-- FN_CMD_CFG keeps a value without reserved bits whole. -/
theorem cmdCfgMask_eq_ofNat {v : Nat} (hm : v &&& 0x07FF00FF = v) : cmdCfgMask v = BitVec.ofNat 32 v := by
  have hand : BitVec.ofNat 32 (v &&& 0x07FF00FF) = BitVec.ofNat 32 v &&& 0x07FF00FF := BitVec.ofNat_and ..
  rw [cmdCfgMask, ← hand, hm]

/-- A write without reserved bits is no host error. -/
theorem State.controlWrite_of_not_reserved {off size : Nat} {v : W64} (hf : s.fn f = some x)
    (hr : controlReserved off size v.toNat x.cmdEn = false) : s.controlWrite f off size v = s.controlStore f off size v := by
  simp [State.controlWrite, hf, hr]

/-- While CMD_EN is 1 the control page stores nothing. -/
theorem State.controlStore_of_cmdEn (hf : s.fn f = some x) (he : x.cmdEn = true) (off size : Nat) (v : W64) :
    s.controlStore f off size v = s := by
  unfold State.controlStore
  simp [hf, he]

section
variable (hf : s.fn f = some x) (hb : s.barOpen f = true) (hs : s.fatal = false) (he : x.cmdEn = false) (v : W64)
include hf hb hs he

/-- The three base registers, written whole. -/
theorem State.controlStore_base :
    s.controlStore f 0x010 8 v = (s.onFn f fun y => { y with sqBase := v }) ∧
    s.controlStore f 0x018 8 v = (s.onFn f fun y => { y with cqBase := v }) ∧
    s.controlStore f 0x020 8 v = (s.onFn f fun y => { y with wbBase := v }) := by
  unfold State.controlStore
  simp [hf, hb, hs, he]

theorem State.controlStore_cmdCfg :
    s.controlStore f 0x028 4 v = s.onFn f fun y => { y with cmdCfg := cmdCfgMask (v.toNat % 2 ^ 32) } := by
  unfold State.controlStore
  simp [hf, hb, hs, he]

end

/-! ## The MSI-X table (13 R372 R392) -/

/-- A word within the MSI-X table. -/
theorem State.msixWrite_word {k : Nat} (hb : s.barOpen f = true) (hk : k < 4 * s.tableSize f) (v : W32) :
    s.msixWrite f (4 * k) v = if s.msixHostError f (4 * k) v
      then ((s.onFn f fun y => { y with vecEntries := Tab.set y.vecEntries k v.toNat }).flushVectors f).ownerHostError (.function f)
      else (s.onFn f fun y => { y with vecEntries := Tab.set y.vecEntries k v.toNat }).flushVectors f := by
  have hdiv : 4 * k / 4 = k := Nat.mul_div_cancel_left k (by decide)
  simp [State.msixWrite, hb, hdiv, Nat.not_le.2 hk]

/-! ## Cipher pages (10 R301) -/

/-- A write through a cipher page that is bound reaches its channel. -/
theorem State.pageWrite_of_bound {page t : Nat} {y : CyChan} (hs : s.fatal = false) (hb : s.barOpen f = true)
    (hp : s.chanOfPage f page = some (t, y)) (g : Nat → State → State) : s.pageWrite f page g = g t s := by
  simp [State.pageWrite, hs, hb, hp]

/-- CY_ERR of a bound page. -/
theorem State.cipherWrite_err {page t : Nat} {y : CyChan} (hs : s.fatal = false) (hb : s.barOpen f = true)
    (hp : s.chanOfPage f page = some (t, y)) (v : W64) :
    s.cipherWrite f page 0x010 4 v = s.onChanCy t fun z => { z with err := z.err - (z.err &&& (v.toNat % 4)) } := by
  have hgood : cipherBad 0x010 4 = false := by decide
  simp [State.cipherWrite, State.pageWrite_of_bound hs hb hp, hgood]

/-! ## Registers of the management die (02 R60 R62) -/

/-- A word of a die that always answers is written as one 32-bit register. -/
theorem doRegisterWrite_ioWord {off : Nat} (hs : s.fatal = false) (ho : off % 4 = 0) (v : W64) :
    doRegisterWrite (.device 4 off 4 v) s = s.regWrite32 4 off (v.toNat % 2 ^ 32) := by
  simp [doRegisterWrite, State.dieAnswers, ownRow, State.regWrite, hs, ho]

/-- FT_STATE clears SET_IGN by a 1 written to it. -/
theorem State.regWrite32_ftState (s : State) (v : Nat) :
    s.regWrite32 4 0x800010 v = if bit v 8 then s.onFtu fun y => { y with setIgn := false } else s := by
  simp [State.regWrite32]

/-- FT_LOCK_THRESH is accepted as a change that waits. -/
theorem State.regWrite32_ftLockThresh (s : State) (v : Nat) :
    s.regWrite32 4 0x800018 v = s.onFtu fun y => { y with
      cfgPend := y.cfgPend ++ [{ writes := [(0x18, BitVec.ofNat 32 v)], accepted := s.ft, cmd := none }] } := by
  simp [State.regWrite32]

/-- Settles O7: each write is taken by its own register, whose lemma above says what it does. -/
theorem registerWritesReachTheirRegister : Obligations.RegisterWritesReachTheirRegister := by
  unfold Obligations.RegisterWritesReachTheirRegister
  simp only [exec_registerWrite]
  refine ⟨?config, ?configHostError, ?base, ?cmdCfg, ?ignored, ?msix, ?msixHostError, ?cipher, ?device⟩
  case config | configHostError =>
    intro s f r v x hc hf he
    simp [doRegisterWrite, State.configWrite_of_configurable hc hf, he]
  case base =>
    intro s f x v hf hb hs he
    have plain (off : Nat) (h8 : off ≠ 0x008) (h28 : off ≠ 0x028) :
        s.controlWrite f off 8 v = s.controlStore f off 8 v :=
      State.controlWrite_of_not_reserved hf (controlReserved_of_base h8 h28 ..)
    obtain ⟨hsq, hcq, hwb⟩ := State.controlStore_base hf hb hs he v
    simp [doRegisterWrite, plain, hsq, hcq, hwb]
  case cmdCfg =>
    intro s f x v hf hb hs he hv hm
    have plain := State.controlWrite_of_not_reserved hf (controlReserved_of_cmdCfg hv hm 4 x.cmdEn)
    simp only [doRegisterWrite, plain, State.controlStore_cmdCfg hf hb hs he, Nat.mod_eq_of_lt hv, cmdCfgMask_eq_ofNat hm]
  case ignored =>
    intro s f x off size v hf he hoff
    have plain : s.controlWrite f off size v = s.controlStore f off size v :=
      State.controlWrite_of_not_reserved hf (he ▸ controlReserved_of_cmdEn hoff ..)
    simp only [doRegisterWrite, plain, State.controlStore_of_cmdEn hf he]
  case msix | msixHostError =>
    intro s f k v hb hk he
    simp [doRegisterWrite, State.msixWrite_word hb hk, he]
  case cipher =>
    intro s f page t y v hs hb hp
    simp only [doRegisterWrite, State.cipherWrite_err hs hb hp]
  case device =>
    intro s v hs hv
    constructor
    · rw [doRegisterWrite_ioWord hs (by decide), Nat.mod_eq_of_lt hv, State.regWrite32_ftState]
    · rw [doRegisterWrite_ioWord hs (by decide), Nat.mod_eq_of_lt hv, State.regWrite32_ftLockThresh]

end Sys2Proof.Machine
end

section
/-! SUPPORT. What raising an event and writing device memory leave alone (01 R21, 18 R489): every part of the state that is not
the events' own, memory, the cores, the counters or the free values. One lemma for each operation on the way of a raise. -/

namespace Sys2Proof.Machine

/-- The state without what raising an event or writing device memory may change: the bytes of memory, the channels and the bad
lines of DRAM, the cores, the events, the counters and the number of free values used. -/
def State.beyondEvents (s : State) : State :=
  { s with mem := [], dram := { s.dram with channels := [], poison := [], faults := [] }
           cores := State.reset.cores, ev := State.reset.ev, ct := State.reset.ct, free := 0 }

/-- A fold whose steps all keep a view of the state keeps it. -/
theorem foldl_keeps {α β : Type} (view : State → β) (f : State → α → State) (hf : ∀ s x, view (f s x) = view s)
    (l : List α) (s : State) : view (l.foldl f s) = view s := by
  induction l generalizing s with
  | nil => rfl
  | cons x l ih => exact (ih _).trans (hf s x)

section
variable {s t : State} (h : t.beyondEvents = s.beyondEvents)
include h

theorem State.fatal_of_beyondEvents : t.fatal = s.fatal := (congrArg State.fatal h :)

theorem State.links_of_beyondEvents : t.links = s.links := (congrArg State.links h :)

/-- The map of device addresses reads the regions and the tiles' power alone (01 R21 R22). -/
theorem State.memKey_of_beyondEvents (a : Nat) : t.memKey a = s.memKey a := (congrArg (State.memKey · a) h :)

end

variable (s : State)

@[simp] theorem State.onMem_beyondEvents (f : List Host.Cell → List Host.Cell) : (s.onMem f).beyondEvents = s.beyondEvents := rfl
@[simp] theorem State.onCores_beyondEvents (f : CoresSt → CoresSt) : (s.onCores f).beyondEvents = s.beyondEvents := rfl
@[simp] theorem State.onEv_beyondEvents (f : EvSt → EvSt) : (s.onEv f).beyondEvents = s.beyondEvents := rfl
@[simp] theorem State.onCt_beyondEvents (f : CtSt → CtSt) : (s.onCt f).beyondEvents = s.beyondEvents := rfl

@[simp] theorem State.onThread_beyondEvents (tid : Nat) (f : Thread → Thread) : (s.onThread tid f).beyondEvents = s.beyondEvents := rfl
@[simp] theorem State.leaveReaders_beyondEvents (tid : Nat) (t : Thread) : (s.leaveReaders tid t).beyondEvents = s.beyondEvents := rfl
@[simp] theorem State.countBy_beyondEvents (kind index word n : Nat) : (s.countBy kind index word n).beyondEvents = s.beyondEvents := rfl
@[simp] theorem State.useFree_beyondEvents : s.useFree.beyondEvents = s.beyondEvents := rfl

/-! ## Device writes (01 R21, 14 R401 R402) -/

@[simp] theorem State.pokeByte_beyondEvents (a : Nat) (b : Byte) : (s.pokeByte a b).beyondEvents = s.beyondEvents := by
  unfold State.pokeByte
  split <;> simp

@[simp] theorem State.pokeBytes_beyondEvents (a : Nat) (bs : Bytes) : (s.pokeBytes a bs).beyondEvents = s.beyondEvents :=
  foldl_keeps State.beyondEvents (fun s (x : Byte × Nat) => s.pokeByte (a + x.2) x.1) (fun s _ => s.pokeByte_beyondEvents ..) _ s

@[simp] theorem State.cleanLines_beyondEvents (a n : Nat) : (s.cleanLines a n).beyondEvents = s.beyondEvents := by
  unfold State.cleanLines
  extract_lets whole touched cleaned lost counted
  have hcounts : counted.beyondEvents = cleaned.beyondEvents := by
    apply foldl_keeps State.beyondEvents
    exact fun s _ => s.countBy_beyondEvents ..
  calc _ = counted.beyondEvents := rfl
    _ = cleaned.beyondEvents := hcounts
    _ = s.beyondEvents := rfl

variable {s} in
/-- A device write that is let through keeps every other part of the state. -/
theorem State.devWrite_beyondEvents {t : State} {q : Requester} {a : Nat} {bs : Bytes} (hw : s.devWrite q a bs = some t) :
    t.beyondEvents = s.beyondEvents := by
  unfold State.devWrite at hw
  split at hw
  · cases hw
    simp
  · cases hw

/-! ## Threads that an event wakes (12 R350) -/

@[simp] theorem State.coreSettle_beyondEvents (core : Nat) : (s.coreSettle core).beyondEvents = s.beyondEvents := rfl

@[simp] theorem State.coreRecord_beyondEvents (tile : Nat) (b : Bytes) : (s.coreRecord tile b).beyondEvents = s.beyondEvents := by
  unfold State.coreRecord
  split
  · exact s.countBy_beyondEvents ..
  · exact s.onCt_beyondEvents _

@[simp] theorem State.settleFollow_beyondEvents (tid : Nat) (t : Thread) (level : Nat) :
    (s.settleFollow tid t level).beyondEvents = s.beyondEvents := by
  unfold State.settleFollow
  repeat' split
  all_goals simp

@[simp] theorem State.unblock_beyondEvents (tid v level : Nat) : (s.unblock tid v level).beyondEvents = s.beyondEvents := by
  unfold State.unblock
  split <;> simp

@[simp] theorem State.wakeEv_beyondEvents (tid : Nat) : (s.wakeEv tid).beyondEvents = s.beyondEvents := by
  unfold State.wakeEv
  repeat' split
  all_goals simp

@[simp] theorem State.wakeBy_beyondEvents (bitNo tid : Nat) : (s.wakeBy bitNo tid).beyondEvents = s.beyondEvents := by
  unfold State.wakeBy
  repeat' split
  all_goals simp

@[simp] theorem State.postEvent_beyondEvents (tid bitNo : Nat) : (s.postEvent tid bitNo).beyondEvents = s.beyondEvents := by
  unfold State.postEvent
  split
  · rfl
  · dsimp only
    split
    · exact foldl_keeps State.beyondEvents (fun s k => s.wakeBy bitNo k) (fun s _ => s.wakeBy_beyondEvents ..) _ _
    · exact State.wakeEv_beyondEvents ..

/-! ## The log, records and raises (18 R486 R489 R491 R495) -/

@[simp] theorem State.logRecord_beyondEvents (kind : Nat) (parts : List (Nat × Bytes)) :
    (s.logRecord kind parts).beyondEvents = s.beyondEvents :=
  State.onEv_beyondEvents ..

@[simp] theorem State.loseRecord_beyondEvents (d : EvDest) : (s.loseRecord d).beyondEvents = s.beyondEvents := by
  cases d <;> rfl

@[simp] theorem State.openRecord_beyondEvents (d : EvDest) (src obj detail : Nat) (sid : Option Nat) :
    (s.openRecord d src obj detail sid).beyondEvents = s.beyondEvents := by
  unfold State.openRecord
  repeat' split
  all_goals simp

@[simp] theorem State.toFn_beyondEvents (f : FnRef) (src obj detail : Nat) (sid : Option Nat) :
    (s.toFn f src obj detail sid).beyondEvents = s.beyondEvents := by
  unfold State.toFn
  repeat' split
  all_goals simp

@[simp] theorem State.toFirmware_beyondEvents (src obj detail : Nat) (sid : Option Nat) :
    (s.toFirmware src obj detail sid).beyondEvents = s.beyondEvents := by
  unfold State.toFirmware
  extract_lets routed die base p
  have hroute : routed.beyondEvents = s.beyondEvents := by
    unfold routed
    split <;> simp
  split
  · exact hroute
  · split
    · next hw => simp [State.devWrite_beyondEvents hw, hroute]
    · exact hroute

@[simp] theorem State.raise_beyondEvents (src obj detail : Nat) (sc : Scope) :
    (s.raise src obj detail sc).beyondEvents = s.beyondEvents := by
  unfold State.raise
  repeat' split
  all_goals simp

end Sys2Proof.Machine
end

section
/-! SUPPORT. The package fabric (01 R15 to R19): which links cut a die off, and that a lost link makes the device FATAL exactly
there; O8 from these. -/

namespace Sys2Proof.Machine

/-! ## Dies cut off (01 R16 R18 R19) -/

/-- What is cut off depends on the links alone, as every route does. -/
theorem State.cutOff_congr {s t : State} (h : s.links = t.links) : s.cutOff = t.cutOff := by
  have hlink : s.dieLinkUp = t.dieLinkUp := by
    unfold State.dieLinkUp
    rw [h]
  have htile : s.tileStep = t.tileStep := by
    unfold State.tileStep
    rw [hlink]
  have hstep : s.routeStep = t.routeStep := by
    unfold State.routeStep
    rw [hlink, htile]
  have hvia (a : Nat) (l : List Nat) : s.routeVia a l = t.routeVia a l := by
    induction l generalizing a with
    | nil => rfl
    | cons b l ih => simp only [State.routeVia, hstep, ih]
  unfold State.cutOff State.route
  simp only [hvia]

/-- A link taken down, before anything follows from it. -/
def State.linkDown (s : State) (k : Nat) : State := s.onLinks fun l => modAt l k fun _ => { up := false, fails := 0 }

/-- From every link up, one link down cuts no die off. -/
theorem cutOff_one_down : ∀ k < 12, (State.reset.linkDown k).cutOff = none := by
  decide +kernel

/-- With both links of N0 down, it is cut off. -/
theorem cutOff_N0_down : ((State.reset.linkDown 4).linkDown 5).cutOff.isSome = true := by
  decide +kernel

/-! ## FATAL (01 R19, 18 R494) -/

theorem State.enterFatal_fatal (s : State) (cause die addr : Nat) : (s.enterFatal cause die addr).fatal = true := by
  unfold State.enterFatal
  split
  · assumption
  · extract_lets marked logged raised signalled
    have hraised : raised.fatal = true :=
      State.fatal_of_beyondEvents (s := marked) (by simp [raised, logged])
    calc _ = signalled.fatal := by
          apply foldl_keeps State.fatal
          intro s p
          apply foldl_keeps State.fatal
          intro s k
          split <;> rfl
      _ = raised.fatal := rfl
      _ = true := hraised

/-- A lost link makes the device FATAL exactly where a die is cut off without it (01 R19). -/
theorem State.linkLost_fatal (s : State) (k : Nat) :
    (s.linkLost k).fatal = (s.fatal || (s.linkDown k).cutOff.isSome) := by
  unfold State.linkLost
  rcases linkEnds.getD k (0, 0) with ⟨a, b⟩
  dsimp -zeta only
  extract_lets down logged reported
  have hreported : reported.beyondEvents = (s.linkDown k).beyondEvents := by
    simp [reported, logged, down, State.linkDown]
  have hfatal : reported.fatal = s.fatal := (State.fatal_of_beyondEvents hreported).trans (s.onLinks_fatal _)
  have hcut : reported.cutOff = (s.linkDown k).cutOff := State.cutOff_congr (State.links_of_beyondEvents hreported)
  rw [hcut]
  cases (s.linkDown k).cutOff with
  | none => simp [hfatal]
  | some d => simp [State.enterFatal_fatal]

/-! ## FLIT_RETRANSMIT (01 R18) -/

theorem exec_flitRetransmit (k : Nat) (again : Bool) (s : State) :
    exec (.flitRetransmit k again) s = .next (doFlitRetransmit k again s) := rfl

/-- On a link that is up the count of failures decides. -/
theorem doFlitRetransmit_of_up {s : State} {k : Nat} {x : LinkSt} (hx : s.links[k]? = some x) (hup : x.up = true) (again : Bool) :
    doFlitRetransmit k again s =
      if again = false then s.onLinks fun l => modAt l k fun y => { y with fails := 0 }
      else if x.fails + 1 < 8 then s.onLinks fun l => modAt l k fun y => { y with fails := y.fails + 1 }
      else s.linkLost k := by
  unfold doFlitRetransmit
  simp [hx, hup]

/-- Settles O8: a lost link makes the device FATAL where it cuts a die off, which the links alone decide. -/
theorem fabricLinkFailure : Obligations.FabricLinkFailure := by
  unfold Obligations.FabricLinkFailure
  refine ⟨?retransmit, ?oneDown, ?lastOfN0⟩
  case retransmit =>
    intro s k x hx hup
    simp only [exec_flitRetransmit, doFlitRetransmit_of_up hx hup]
    refine ⟨rfl, fun hfew => ?_, fun hmany => ?_⟩
    · have hbelow : x.fails + 1 < 8 := by omega
      simp [hbelow]
    · have heighth : ¬ x.fails + 1 < 8 := by omega
      simp [heighth]
  case oneDown =>
    intro s k hk hlinks hfatal
    have hcut : (s.linkDown k).cutOff = none :=
      (State.cutOff_congr (congrArg (modAt · k _) hlinks)).trans (cutOff_one_down k hk)
    rw [State.linkLost_fatal, hfatal, hcut]
    rfl
  case lastOfN0 =>
    intro s hlinks
    have hcut : (s.linkDown 5).cutOff = ((State.reset.linkDown 4).linkDown 5).cutOff :=
      State.cutOff_congr (congrArg (modAt · 5 _) hlinks)
    rw [State.linkLost_fatal, hcut, cutOff_N0_down, Bool.or_true]

end Sys2Proof.Machine
end

section
/-! SUPPORT. Bytes of device memory (01 R21 R22 R26): what a canonical cell list reads as after a write, that it is determined by
what it reads as, and what a device write stores; O58 from these. -/

namespace Sys2Proof.Machine

/-! ## Cell lists -/

theorem memGet_nil (a : Nat) : memGet [] a = 0 := rfl

theorem memGet_cons (c : Host.Cell) (m : List Host.Cell) (a : Nat) :
    memGet (c :: m) a = if a = c.1 then c.2 else memGet m a := by
  simp only [memGet, eq_comm]

/-- An address below every key of a list reads 0. -/
theorem memGet_of_lt_keys {m : List Host.Cell} {a : Nat} (h : ∀ c ∈ m, a < c.1) : memGet m a = 0 := by
  induction m with
  | nil => rfl
  | cons c m ih =>
    have hne : a ≠ c.1 := (h c List.mem_cons_self).ne
    rw [memGet_cons, if_neg hne, ih fun d hd => h d (List.mem_cons_of_mem _ hd)]

/-- The tail of a canonical list is canonical, and its keys are above the head's. -/
theorem memWf_cons {c : Host.Cell} {m : List Host.Cell} (h : Memory.wf (c :: m)) : Memory.wf m ∧ ∀ d ∈ m, c.1 < d.1 := by
  obtain ⟨hkeys, hbytes⟩ := h
  obtain ⟨habove, htail⟩ := List.pairwise_cons.1 hkeys
  exact ⟨⟨htail, fun d hd => hbytes d (List.mem_cons_of_mem _ hd)⟩, habove⟩

/-- A byte put in front of a list that does not have its address, and left out where it is 0. -/
theorem memGet_front {m : List Host.Cell} {a : Nat} (h : memGet m a = 0) (b : Byte) (x : Nat) :
    memGet (if b = 0 then m else (a, b) :: m) x = if x = a then b else memGet m x := by
  split
  · next hb =>
    split
    · next hx => rw [hx, h, hb]
    · rfl
  · rw [memGet_cons]

/-- A byte written reads back, and every other reads as before. -/
theorem memGet_memPut {m : List Host.Cell} (h : Memory.wf m) (a : Nat) (b : Byte) (x : Nat) :
    memGet (memPut m a b) x = if x = a then b else memGet m x := by
  induction m with
  | nil => exact memGet_front (memGet_nil a) b x
  | cons c m ih =>
    obtain ⟨hm, habove⟩ := memWf_cons h
    rcases Nat.lt_trichotomy a c.1 with hlt | heq | hgt
    · have hput : memPut (c :: m) a b = if b = 0 then c :: m else (a, b) :: c :: m := by
        rw [memPut, if_pos hlt]
      have hfree : memGet (c :: m) a = 0 := memGet_of_lt_keys (by
        rintro d (_ | ⟨_, hd⟩)
        · exact hlt
        · exact hlt.trans (habove d hd))
      rw [hput, memGet_front hfree]
    · have hput : memPut (c :: m) a b = if b = 0 then m else (a, b) :: m := by
        rw [memPut, if_neg heq.not_lt, if_pos heq]
      have hfree : memGet m a = 0 := memGet_of_lt_keys (heq ▸ habove)
      rw [hput, memGet_front hfree, memGet_cons, ← heq]
      split <;> rfl
    · have hput : memPut (c :: m) a b = c :: memPut m a b := by
        rw [memPut, if_neg hgt.not_gt, if_neg hgt.ne']
      rw [hput, memGet_cons, memGet_cons, ih hm]
      split
      · next hx => rw [if_neg (hx ▸ hgt.ne)]
      · rfl

/-- What a canonical list lists is what it reads as, but for zero bytes. -/
theorem mem_iff_memGet {m : List Host.Cell} (h : Memory.wf m) (a : Nat) (b : Byte) : (a, b) ∈ m ↔ b ≠ 0 ∧ memGet m a = b := by
  induction m with
  | nil => exact ⟨nofun, fun ⟨hb, hread⟩ => absurd hread.symm hb⟩
  | cons c m ih =>
    obtain ⟨hm, habove⟩ := memWf_cons h
    have hbyte : c.2 ≠ 0 := h.2 c List.mem_cons_self
    obtain ⟨k, v⟩ := c
    rw [List.mem_cons, ih hm, memGet_cons, Prod.mk.injEq]
    by_cases ha : a = k
    · subst ha
      have hzero : memGet m a = 0 := memGet_of_lt_keys habove
      rw [hzero, if_pos rfl]
      constructor
      · rintro (⟨-, rfl⟩ | ⟨hb, rfl⟩)
        · exact ⟨hbyte, rfl⟩
        · exact absurd rfl hb
      · exact fun ⟨_, hv⟩ => .inl ⟨rfl, hv.symm⟩
    · simp [ha]

/-- Canonical lists that read alike are equal: they list the same cells, in the order of the keys. -/
theorem eq_of_memGet_eq {m m' : List Host.Cell} (h : Memory.wf m) (h' : Memory.wf m') (hread : ∀ a, memGet m a = memGet m' a) :
    m = m' := by
  have hnodup {l : List Host.Cell} (hl : Memory.wf l) : l.Nodup :=
    hl.1.imp fun hlt heq => hlt.ne (congrArg Prod.fst heq)
  have hmem (c : Host.Cell) : c ∈ m ↔ c ∈ m' := by
    rw [mem_iff_memGet h c.1 c.2, mem_iff_memGet h' c.1 c.2, hread]
  exact ((List.perm_ext_iff_of_nodup (hnodup h) (hnodup h')).2 hmem).eq_of_pairwise
    (fun c d _ _ hcd hdc => absurd hdc hcd.not_gt) h.1 h'.1

/-! ## Device writes (01 R21) -/

/-- One byte written through the map of addresses. -/
theorem State.memGet_pokeByte {s : State} (h : s.memOk) (a : Nat) (b : Byte) (k : Nat) :
    memGet (s.pokeByte a b).mem k = if s.memKey a = some k then b else memGet s.mem k := by
  unfold State.pokeByte
  split
  · next k' hk' => simp [hk', memGet_memPut h, eq_comm]
  · next hk' => simp [hk']

theorem State.pokeBytes_append (s : State) (a : Nat) (bs : Bytes) (b : Byte) :
    s.pokeBytes a (bs ++ [b]) = (s.pokeBytes a bs).pokeByte (a + bs.length) b := by
  simp [State.pokeBytes, List.zipIdx_append]

@[simp] theorem State.memKey_pokeBytes (s : State) (a : Nat) (bs : Bytes) (x : Nat) : (s.pokeBytes a bs).memKey x = s.memKey x :=
  State.memKey_of_beyondEvents (s.pokeBytes_beyondEvents a bs) x

theorem State.memGet_pokeBytes_of_not_written {s : State} (h : s.memOk) (a : Nat) (bs : Bytes) (k : Nat)
    (hk : ∀ i < bs.length, s.memKey (a + i) ≠ some k) : memGet (s.pokeBytes a bs).mem k = memGet s.mem k := by
  induction bs using List.reverseRecOn with
  | nil => rfl
  | append_singleton bs b ih =>
    have hlast : s.memKey (a + bs.length) ≠ some k := hk _ (by simp)
    rw [State.pokeBytes_append, State.memGet_pokeByte (State.pokeBytes_memOk h a bs), State.memKey_pokeBytes, if_neg hlast]
    exact ih fun i hi => hk i (by simp; omega)

/-- The last write to a key decides, so a key that one address alone has keeps that address's byte. -/
theorem State.memGet_pokeBytes_of_written {s : State} (h : s.memOk) (a : Nat) (bs : Bytes) {i k : Nat}
    (hi : i < bs.length) (hk : s.memKey (a + i) = some k) (honly : ∀ j < bs.length, s.memKey (a + j) = some k → j = i) :
    memGet (s.pokeBytes a bs).mem k = bs.getD i 0 := by
  induction bs using List.reverseRecOn with
  | nil => cases hi
  | append_singleton bs b ih =>
    rw [State.pokeBytes_append, State.memGet_pokeByte (State.pokeBytes_memOk h a bs), State.memKey_pokeBytes]
    split
    · next hlast =>
      have heq : bs.length = i := honly _ (by simp) hlast
      simp [← heq]
    · next hlast =>
      have hne : i ≠ bs.length := fun heq => hlast (heq ▸ hk)
      have hlt : i < bs.length := by
        rw [List.length_append, List.length_singleton] at hi
        omega
      rw [ih hlt fun j hj => honly j (by simp; omega)]
      simp [List.getD_eq_getElem?_getD, List.getElem?_append_left hlt]

/-- A device write that is let through leaves in memory the bytes written, which the cleaning of their lines does not touch. -/
theorem State.devWrite_mem {s t : State} {q : Requester} {a : Nat} {bs : Bytes} (hw : s.devWrite q a bs = some t) :
    t.mem = (s.pokeBytes a bs).mem := by
  unfold State.devWrite at hw
  split at hw
  · cases hw
    exact State.cleanLines_mem ..
  · cases hw

/-- Settles O58: the cell list by its recursion, the device write byte after byte. -/
theorem deviceMemoryReadsAsItWasWritten : Obligations.DeviceMemoryReadsAsItWasWritten := by
  unfold Obligations.DeviceMemoryReadsAsItWasWritten
  refine ⟨fun m a b h => ⟨memPut_wf h a b, memGet_memPut h a b⟩, fun m m' => eq_of_memGet_eq, ?_⟩
  intro s t q a bs h hw
  have hmem : t.mem = (s.pokeBytes a bs).mem := State.devWrite_mem hw
  refine ⟨State.devWrite_memOk h hw, State.memKey_of_beyondEvents (State.devWrite_beyondEvents hw),
    fun k hk => ?_, fun i k hi hk honly => ?_⟩
  · rw [hmem, State.memGet_pokeBytes_of_not_written h a bs k hk]
  · rw [hmem, State.memGet_pokeBytes_of_written h a bs hi hk honly]

end Sys2Proof.Machine
end

section
/-! SUPPORT. Measurements of fabric time (02 R40 to R45, 19 R520 R528): what a committed measurement and an edge of the pulse input
do; O29 from these. -/

namespace Sys2Proof.Machine

/-! ## What events and pin faults leave alone (18 R486, 19 R530) -/

@[simp] theorem State.raise_ftu (s : State) (src obj detail : Nat) (sc : Scope) : (s.raise src obj detail sc).ftu = s.ftu :=
  (congrArg State.ftu (s.raise_beyondEvents src obj detail sc) :)

@[simp] theorem State.raise_time (s : State) (src obj detail : Nat) (sc : Scope) : (s.raise src obj detail sc).time = s.time :=
  (congrArg State.time (s.raise_beyondEvents src obj detail sc) :)

@[simp] theorem State.pinFault_ftu (s : State) (b : Nat) : (s.pinFault b).ftu = s.ftu := by
  unfold State.pinFault
  split <;> simp

@[simp] theorem State.pinFault_time (s : State) (b : Nat) : (s.pinFault b).time = s.time := by
  unfold State.pinFault
  split <;> simp

/-- A frame boundary is told from the time alone. -/
theorem State.onFrame_congr {s t : State} (h : t.time = s.time) : t.onFrame = s.onFrame := by
  unfold State.onFrame State.onGrid State.past State.ft
  rw [h]

/-! ## The discipline state after a measurement (02 R43 R44) -/

@[simp] theorem State.ftGo_state (s : State) (new : FtState) : (s.ftGo new).ftu.state = new := by
  unfold State.ftGo
  extract_lets old entered paused falls fallen
  split
  · next h => exact h
  · have hfallen : fallen.ftu = paused.ftu := by
      unfold fallen
      split <;> rfl
    have hpaused : paused.ftu.state = new := by
      unfold paused
      split <;> rfl
    rw [State.raise_ftu, hfallen, hpaused]

theorem State.startSlew_state (s : State) : s.startSlew.ftu.state = s.ftu.state := rfl

/-- The median of three lies within a bound that two of them keep. -/
theorem median3_natAbs_le (free : Nat) {m a b : Int} {n : Nat} (ha : a.natAbs ≤ n) (hb : b.natAbs ≤ n) :
    (median3 free m (some a) (some b)).natAbs ≤ n := by
  simp only [median3]
  omega

/-- A measurement below 1 ms goes to the filter, unless a step is pending. -/
theorem State.commit_of_small {s : State} {m : Int} (hstep : s.ftu.pendStep = none) (hm : m.natAbs < 65536000000) :
    s.commit m = (s.onFtu fun f => { f with
      srcPresent := true, lost := false, announceLost := false, commitAt := s.ft }).commitSmall m := by
  have hsmall : ¬ msUnits.natAbs ≤ m.natAbs := Nat.not_le.2 hm
  unfold State.commit
  simp only [hstep, Option.isSome_none, Bool.false_eq_true, if_false, if_neg hsmall]

/-- FREE is left by the first measurement. -/
theorem State.commitSmall_state_of_free {s : State} (h : s.ftu.state = .free) (m : Int) :
    (s.commitSmall m).ftu.state = .acquiring := by
  unfold State.commitSmall
  simp [State.startSlew_state, State.useFree, h]

/-- ACQUIRING is left for LOCKED by the eighth estimate in a row within THRESH. -/
theorem State.commitSmall_state_of_acquiring {s : State} {m : Int} (h : s.ftu.state = .acquiring) (hcount : s.ftu.lockCount = 7)
    (hwithin : (median3 s.freeVal m s.ftu.med1 s.ftu.med2).natAbs ≤ s.ftu.thresh * 65536) :
    (s.commitSmall m).ftu.state = .locked := by
  unfold State.commitSmall
  simp [State.startSlew_state, State.useFree, h, hcount, hwithin]

/-! ## The pulse input (02 R40, 19 R520 R528) -/

/-- An input that had an edge at most 1 s and 1 us ago is not absent. -/
theorem State.ppsAbsence_of_recent {s : State} {t : Nat} (hedge : s.pins.ppsRise = some t ∨ s.pins.ppsFall = some t)
    (hrecent : s.time.osc ≤ t + 1000001000) : s.ppsAbsence = s := by
  unfold State.ppsAbsence
  split
  · next lapse hlapse =>
    have hlater : t + 1000001001 ≤ lapse := by
      unfold State.ppsLapse at hlapse
      split at hlapse
      · cases hlapse
        rcases hedge with h | h <;> simp [h]
      · cases hlapse
    have hnot : ¬ lapse ≤ s.time.osc := by omega
    rw [if_neg hnot]
  · rfl

/-- An edge passed to the FTU 1 s after the reference edge commits a measurement. -/
theorem State.ppsPassed_of_pair {s : State} {r : Nat} (hsrc : s.ftu.src = 2) (hclk : s.pins.clkIn = true)
    (href : s.ftu.ppsRef = some r) (hsec : oneSecond r s.time.osc = true) :
    s.ppsPassed = (s.onFtu fun f => { f with ppsRef := some s.time.osc, ppsPaired := true }).commit s.secondOffset := by
  unfold State.ppsPassed
  simp [hsrc, hclk, href, hsec]

/-- A rising edge, told to be not inverted, is passed. -/
theorem doPpsEdge_of_upright {s : State} (habsent : s.ppsAbsence = s) (hswap : s.pins.ppsSwap = some false) :
    doPpsEdge false s = (s.onPins fun p => { p with ppsHigh := true, ppsRise := some s.time.osc }).ppsPassed := by
  unfold doPpsEdge
  simp [habsent, hswap]

/-- A pulse that is high for 100 ns to 400 ms shows the input present and not inverted. -/
theorem doPpsInFall_of_high {s : State} {r : Nat} (habsent : s.ppsAbsence = s) (hswap : s.pins.ppsSwap = none)
    (hrise : s.pins.ppsRise = some r) (hmin : r + 100 ≤ s.time.osc) (hmax : s.time.osc ≤ r + 400000000) :
    doPpsInFall s = ((s.onPins fun p => { p with
      ppsHigh := false, ppsFall := some s.time.osc, ppsSwap := some false }).pinClear 4).pinClear 6 := by
  have hlow : 100 ≤ s.time.osc - r := by omega
  have hhigh : s.time.osc - r ≤ 400000000 := by omega
  unfold doPpsInFall
  simp only [habsent, hswap, hrise, hlow, hhigh, decide_true, Bool.and_self, if_true]
  rfl

/-! ## The rows -/

theorem exec_ftMeasAtWrite (v : W64) (s : State) : exec (.ftMeasAtWrite v) s = .next (doFtMeasAtWrite v s) := rfl
theorem exec_ppsEdge (near : Bool) (s : State) : exec (.ppsEdge near) s = .next (doPpsEdge near s) := rfl
theorem exec_ppsInFall (s : State) : exec .ppsInFall s = .next (doPpsInFall s) := rfl
theorem exec_ftClkInvert (s : State) : exec .ftClkInvert s = .next (doFtClkInvert s) := rfl
theorem exec_sourceLost (timeout : Bool) (s : State) : exec (.sourceLost timeout) s = .next (doSourceLost timeout s) := rfl
theorem exec_ftClkInAbsent (s : State) : exec .ftClkInAbsent s = .next (doFtClkInAbsent s) := rfl
theorem exec_ftClkInReturn (s : State) : exec .ftClkInReturn s = .next (doFtClkInReturn s) := rfl

/-- FT_MEAS_AT later than the measurement before commits FT_MEAS_OFFS. -/
theorem doFtMeasAtWrite_of_later {s : State} {v : W64} (hsrc : s.ftu.src = 1) (hlater : ∀ a, s.ftu.lastMeasAt = some a → a < v.toNat) :
    doFtMeasAtWrite v s = (s.onFtu fun f => { f with lastMeasAt := some v.toNat }).commit s.ftu.measOffs.toInt := by
  unfold doFtMeasAtWrite
  cases hlast : s.ftu.lastMeasAt with
  | none => simp [hsrc]
  | some a =>
    have hnot : ¬ v.toNat ≤ a := Nat.not_le.2 (hlater a hlast)
    simp [hsrc, hnot]

/-- FT_CLK_IN absent at a frame boundary, while it is not the source, changes the holdover oscillator alone. -/
theorem doFtClkInAbsent_of_other_source {s : State} (hframe : s.onFrame = true) (hsrc : s.ftu.src ≠ 2) :
    doFtClkInAbsent s = ((s.onPins fun p => { p with clkIn := false }).pinFault 3).oscUpdate := by
  have hframe' : ((s.onPins fun p => { p with clkIn := false }).pinFault 3).onFrame = true := by
    rw [State.onFrame_congr (State.pinFault_time ..), State.onFrame_congr (State.onPins_time ..), hframe]
  unfold doFtClkInAbsent
  simp [hframe', hsrc]

/-- Settles O29: a measurement through the filter, each row by its lemma above. -/
theorem fabricTimeIsMeasured : Obligations.FabricTimeIsMeasured := by
  unfold Obligations.FabricTimeIsMeasured
  simp only [exec_ftMeasAtWrite, exec_ppsEdge, exec_ppsInFall, exec_ftClkInvert, exec_sourceLost, exec_ftClkInAbsent,
    exec_ftClkInReturn]
  refine ⟨?measAt, ?eighth, ?first, ?pair, ?fall, ?invert, ?lost, ?announce, ?absent, ?returned⟩
  case measAt =>
    intro s v hsrc hlater
    rw [doFtMeasAtWrite_of_later hsrc hlater]
  case eighth =>
    intro s m a b hstate hstep hm hcount hmed1 hmed2 _ ha hb
    rw [State.commit_of_small hstep hm]
    refine State.commitSmall_state_of_acquiring hstate hcount ?_
    rw [State.onFtu_ftu, hmed1, hmed2]
    exact median3_natAbs_le _ ha hb
  case first =>
    intro s m hstate hstep hm
    rw [State.commit_of_small hstep hm]
    refine State.commitSmall_state_of_free ?_ m
    rw [State.onFtu_ftu, hstate]
  case pair =>
    intro s r t hswap hsrc hclk hfall hrecent href hsec
    rw [doPpsEdge_of_upright (State.ppsAbsence_of_recent (.inr hfall) hrecent) hswap]
    exact congrArg _ (State.ppsPassed_of_pair hsrc hclk href hsec)
  case fall =>
    intro s r hswap hrise hmin hmax
    have hrecent : s.time.osc ≤ r + 1000001000 := by omega
    rw [doPpsInFall_of_high (State.ppsAbsence_of_recent (.inl hrise) hrecent) hswap hrise hmin hmax]
  case invert =>
    intro s hframe hdue
    simp [doFtClkInvert, hframe, hdue]
  case lost =>
    intro s hframe _ hlost hstate hgone
    simp [doSourceLost, hframe, hlost, hstate, hgone]
  case announce =>
    intro s hframe hsrc
    simp [doSourceLost, hframe, hsrc]
  case absent =>
    intro s hframe hsrc
    rw [doFtClkInAbsent_of_other_source hframe hsrc]
  case returned => exact fun s => rfl

end Sys2Proof.Machine
end

section
/-! SUPPORT. FT stepped, read and distributed (02 R45 R49 R51 R53 R60 R61): what a die's counter shows and what its misalignment
sets; O30 from these. -/

namespace Sys2Proof.Machine

/-! ## The dies' counters (02 R38 R51 R53) -/

/-- N0's counter is FT, and so is a counter that no misalignment parts from it and that has not shown more. -/
theorem State.dieClock_eq_ft {s : State} {die : Nat}
    (h : die = 4 ∨ (s.ftu.misalign.getD die 0 = 0 ∧ s.ftu.shown.getD die 0 ≤ s.ft * 65536 + s.time.frac))
    (hfrac : s.time.frac < 65536) : s.dieClock die = (s.ft, s.time.frac) := by
  unfold State.dieClock
  split
  · rfl
  · next hdie =>
    obtain ⟨haligned, hshown⟩ := h.resolve_left hdie
    have hft : (s.ft * 65536 + s.time.frac) / 65536 = s.ft := by omega
    have hrest : (s.ft * 65536 + s.time.frac) % 65536 = s.time.frac := by omega
    simp only [haligned, Int.zero_mul, Int.add_zero, Int.toNat_natCast, max_eq_right hshown, hft, hrest]

/-- A die keeps the misalignment it measures while none, old or new, is beyond 2 ns, and N0 has none. -/
theorem alignedTo_of_small {die : Nat} {old new : Int} (hold : old.natAbs ≤ 8) (hmaster : die = 4 → new = 0) :
    alignedTo die old new = new := by
  unfold alignedTo
  split
  · next h => rcases h with h | h <;> omega
  · rfl

/-- A member of a list, or the 0 that stands for one beyond it, keeps a bound that the list keeps. -/
theorem natAbs_getD_le {l : List Int} {n : Nat} (h : ∀ m ∈ l, m.natAbs ≤ n) (i : Nat) : (l.getD i 0).natAbs ≤ n := by
  rw [List.getD_eq_getElem?_getD]
  cases hi : l[i]? with
  | none => simp
  | some m => exact h m (List.mem_of_getElem? hi)

/-- The misalignments of a boundary where none, old or new, is beyond 2 ns are those measured. -/
theorem map_alignedTo_of_small {old new : List Int} (hlen : new.length = 8) (hold : ∀ m ∈ old, m.natAbs ≤ 8)
    (hmaster : new.getD 4 0 = 0) :
    (List.range 8).map (fun d => alignedTo d (old.getD d 0) (new.getD d 0)) = new := by
  have hkept (d : Nat) : alignedTo d (old.getD d 0) (new.getD d 0) = new.getD d 0 :=
    alignedTo_of_small (natAbs_getD_le hold d) (by rintro rfl; exact hmaster)
  simp only [hkept]
  refine List.ext_getElem (by simp [hlen]) fun i _ hi => ?_
  simp [hi]

/-- A misalignment within 2 ns counts for MAX_ERR alone. -/
theorem State.dieAlign_of_small {m : Int} (h : m.natAbs ≤ 8) (s : State) (die : Nat) :
    s.dieAlign die m = s.onFtu fun f => { f with maxErr := max f.maxErr m.natAbs } := by
  unfold State.dieAlign
  exact if_neg (Nat.not_lt.2 h)

/-- Misalignments within 2 ns leave the greatest as MAX_ERR. -/
theorem foldl_dieAlign_of_small {l : List Int} (h : ∀ m ∈ l, m.natAbs ≤ 8) (k : Nat) (s : State) :
    (l.zipIdx k).foldl (fun s (x : Int × Nat) => s.dieAlign x.2 x.1) s =
      s.onFtu fun f => { f with maxErr := (l.map Int.natAbs).foldl max f.maxErr } := by
  induction l generalizing k s with
  | nil => rfl
  | cons m l ih =>
    have hm : m.natAbs ≤ 8 := h m List.mem_cons_self
    rw [List.zipIdx_cons, List.foldl_cons, State.dieAlign_of_small hm, ih fun x hx => h x (List.mem_cons_of_mem _ hx)]
    rfl

/-! ## The rows -/

theorem exec_holdoverBoundCheck (s : State) : exec .holdoverBoundCheck s = .next (doHoldoverBoundCheck s) := rfl
theorem exec_ftStep (s : State) : exec .ftStep s = .next (doFtStep s) := rfl
theorem exec_ftSetWrite (v : W64) (s : State) : exec (.ftSetWrite v) s = .next (s.ftSet v.toNat none) := rfl
theorem exec_ftNowRead (die : Nat) (wide : Bool) (s : State) : exec (.ftNowRead die wide) s = .next (doFtNowRead die wide s) := rfl
theorem exec_ftAlignStatRead (s : State) : exec .ftAlignStatRead s = .next (doFtAlignStatRead s) := rfl
theorem exec_ftDistribute (l : List Int) (s : State) : exec (.ftDistribute l) s = .next (doFtDistribute l s) := rfl

/-- FT distributed with every misalignment within 2 ns. -/
theorem doFtDistribute_of_small {s : State} {l : List Int} (hframe : s.onFrame = true) (hlen : l.length = 8)
    (hnew : ∀ m ∈ l, m.natAbs ≤ 8) (hold : ∀ m ∈ s.ftu.misalign, m.natAbs ≤ 8) (hmaster : l.getD 4 0 = 0) :
    doFtDistribute l s = ((s.onFtu fun f => { f with
      misalign := l, comp := (List.range 8).map fun d => s.routeNs 4 d
      shown := (List.range 8).map fun d => (s.dieClock d).1 * 65536 + (s.dieClock d).2 }).oscUpdate).onFtu fun f => { f with
        maxErr := (l.map Int.natAbs).foldl max f.maxErr } := by
  unfold doFtDistribute
  rw [if_pos hframe, map_alignedTo_of_small hlen hold hmaster]
  exact foldl_dieAlign_of_small hnew 0 _

/-- Settles O30: the counters and misalignments by the lemmas above, each row by its cases. -/
theorem fabricTimeIsSteppedReadAndDistributed : Obligations.FabricTimeIsSteppedReadAndDistributed := by
  unfold Obligations.FabricTimeIsSteppedReadAndDistributed
  simp only [exec_holdoverBoundCheck, exec_ftStep, exec_ftSetWrite, exec_ftNowRead, exec_ftAlignStatRead, exec_ftDistribute]
  refine ⟨?holdover, ?step, ?set, ?now, ?alignStat, ?distribute⟩
  case holdover =>
    intro s hframe hstate hbound
    simp [doHoldoverBoundCheck, State.boundCheck, hframe, hstate, hbound]
  case step =>
    intro s v b hpend hframe hdue
    have hreached : ¬ s.ft < b := Nat.not_lt.2 hdue
    unfold doFtStep
    simp only [hpend, hframe, Bool.not_true, Bool.false_or, decide_eq_true_eq, if_neg hreached]
    rfl
  case set => exact fun s v => rfl
  case now => exact fun s die wide => ⟨rfl, State.dieClock_eq_ft⟩
  case alignStat => exact fun s => rfl
  case distribute =>
    intro s l hframe hlen hnew hold hmaster
    rw [doFtDistribute_of_small hframe hlen hnew hold hmaster]

end Sys2Proof.Machine
end

section
/-! SUPPORT. The pulse output and the commands of class TIME (02 R58 R61 R62, 04 R131, 19 R529): what each answers where it is
accepted; O31 from these. -/

namespace Sys2Proof.Machine

variable {s : State}

/-! ## The pulse output (02 R58, 19 R529) -/

/-- A second of FT + ADJ begins where FT + ADJ is one. -/
theorem State.ppsSecond_of_whole
    (h : ((s.ft : Int) + signed 16 (field s.ftu.ppsOutLive.toNat 16 16)) % 1000000000 = 0) : s.ppsSecond = true := by
  have hphase : s.ppsPhase = 0 := by rw [State.ppsPhase, h]; rfl
  simp [State.ppsSecond, hphase]

/-- Without EN the output is not driven. -/
theorem doFtPpsOutPulse_of_disabled (hen : bit s.ftu.ppsOutLive.toNat 0 = false) : doFtPpsOutPulse s = s.drivePps none := by
  unfold doFtPpsOutPulse
  simp [hen]

/-- GATE holds an output low that contention does not hold off, outside LOCKED and HOLDOVER. -/
theorem doFtPpsOutPulse_of_gated (hen : bit s.ftu.ppsOutLive.toNat 0 = true) (hgate : bit s.ftu.ppsOutLive.toNat 1 = true)
    (hlocked : s.ftu.state ≠ .locked) (hholdover : s.ftu.state ≠ .holdover) (hheld : s.ppsHeldOff = false) :
    doFtPpsOutPulse s = s.drivePps (some false) := by
  unfold doFtPpsOutPulse
  simp [hen, hgate, hlocked, hholdover, hheld]

/-- A second that begins asserts an output that is not gated, once contention no longer holds it off. -/
theorem doFtPpsOutPulse_of_second (hen : bit s.ftu.ppsOutLive.toNat 0 = true) (hgate : bit s.ftu.ppsOutLive.toNat 1 = false)
    (hsecond : s.ppsSecond = true) (hdrive : s.pins.ppsDriveAt ≤ s.ft) :
    doFtPpsOutPulse s = (s.onPins fun p => { p with ppsPulseClean := true }).drivePps (some true) := by
  have hdriven : ¬ s.ft < s.pins.ppsDriveAt := Nat.not_lt.2 hdrive
  unfold doFtPpsOutPulse
  simp [hen, hgate, hsecond, hdriven]

/-- Until 16 s of FT after contention the output stays undriven. -/
theorem doFtPpsOutPulse_of_held_off (hen : bit s.ftu.ppsOutLive.toNat 0 = true) (hheld : s.ppsHeldOff = true)
    (hdrive : s.ft < s.pins.ppsDriveAt) : doFtPpsOutPulse s = s := by
  unfold doFtPpsOutPulse
  simp [hen, hheld, hdrive]

/-! ## Configuration (02 R62) -/

/-- At a frame boundary a change is due once the boundary after its acceptance has come. -/
theorem State.dueFrame_of_onFrame {a : Nat} (hframe : s.onFrame = true) (hdue : nextFrame a ≤ s.ft) : s.dueFrame a = true := by
  rw [State.dueFrame, hframe, State.dueAt_of_grid hdue]

/-- Two changes of the fabric-time unit that agree on it. -/
theorem State.onFtu_congr {f g : FtuSt → FtuSt} (h : f s.ftu = g s.ftu) : s.onFtu f = s.onFtu g := by
  unfold State.onFtu
  rw [h]

/-- One change that waits, of FT_LOCK_THRESH by a command: at its boundary the register is written and the command replies. -/
theorem doFtCfgApply_lockThresh {v : W32} {a : Nat} {c : Cmd} (hdue : s.dueFrame a = true)
    (hpend : s.ftu.cfgPend = [{ writes := [(0x018, v)], accepted := a, cmd := some c }]) :
    doFtCfgApply s = (s.onFtu fun f => { f with cfgPend := [], lockThresh := clampThresh v }).reply 0x0C02 c false
      { Answer.ok with ft := some s.frameFt } := by
  have hnow : s.ftu.cfgPend.filter (fun x => s.dueFrame x.accepted) =
      [{ writes := [(0x018, v)], accepted := a, cmd := some c }] := by
    simp [hpend, hdue]
  have hrest : (s.onFtu fun f => { f with cfgPend := f.cfgPend.filter fun x => !s.dueFrame x.accepted }) =
      s.onFtu fun f => { f with cfgPend := [] } :=
    State.onFtu_congr (by simp [hpend, hdue])
  unfold doFtCfgApply
  simp only [hnow, hrest]
  rfl

/-! ## The rows -/

theorem exec_ftCfgApply (s : State) : exec .ftCfgApply s = .next (doFtCfgApply s) := rfl
theorem exec_ppsOutCfgApply (s : State) : exec .ppsOutCfgApply s = .next (doPpsOutCfgApply s) := rfl
theorem exec_ftPpsOutPulse (s : State) : exec .ftPpsOutPulse s = .next (doFtPpsOutPulse s) := rfl
theorem exec_ppsOutContend (s : State) : exec .ppsOutContend s = .next (doPpsOutContend s) := rfl
theorem exec_timeQuery (c : Cmd) (s : State) : exec (.timeQuery c) s = .next (doTimeQuery c s) := rfl
theorem exec_timeCfgSet (c : Cmd) (s : State) : exec (.timeCfgSet c) s = .next (doTimeCfgSet c s) := rfl
theorem exec_timeAsymSet (c : Cmd) (s : State) : exec (.timeAsymSet c) s = .next (doTimeAsymSet c s) := rfl
theorem exec_timeSet (c : Cmd) (s : State) : exec (.timeSet c) s = .next (doTimeSet c s) := rfl

section
variable {c : Cmd} {who : Caller}

theorem doTimeQuery_accepted (h : s.accepts 0x0C01 c who false true false = true) :
    doTimeQuery c s = (s.taken 0x0C01 c).answer 0x0C01 c { Answer.ok with data := (s.taken 0x0C01 c).ftRegs } :=
  State.sf_accepted h

/-- TIME_CFG_SET of the five registers of its mask, with no reserved bit set, is accepted as a change that waits. -/
theorem doTimeCfgSet_accepted (h : s.accepts 0x0C02 c who false true false = true) (hmask : cmdByte c 16 < 32)
    (hres : ∀ x ∈ cfgSetWrites c, x.2.toNat &&& cfgReserved x.1 = 0) :
    doTimeCfgSet c s = (s.taken 0x0C02 c).onFtu fun f => { f with
      cfgPend := f.cfgPend ++ [{ writes := cfgSetWrites c, accepted := (s.taken 0x0C02 c).ft, cmd := some c }] } := by
  have hgood : ¬ (32 ≤ cmdByte c 16 || (cfgSetWrites c).any (fun (o, v) => v.toNat &&& cfgReserved o != 0)) = true := by
    simpa [Nat.not_le.2 hmask] using hres
  refine (State.sf_accepted h).trans ?_
  simp only [if_neg hgood]

theorem doTimeAsymSet_accepted (h : s.accepts 0x0C03 c who false true false = true) :
    doTimeAsymSet c s = (s.taken 0x0C03 c).onFtu fun f => { f with cfgPend := f.cfgPend ++ [{
      writes := [(0x100 + 4 * c.target.toNat, BitVec.ofNat 32 (cmdLe c 16 4))], accepted := (s.taken 0x0C03 c).ft, cmd := some c }] } :=
  State.sf_accepted h

/-- TIME_SET steps FT where that is allowed; its reply comes with the step. -/
theorem doTimeSet_allowed (h : s.accepts 0x0C04 c who false true false = true) (hset : (s.taken 0x0C04 c).setAllowed = true) :
    doTimeSet c s = (s.taken 0x0C04 c).ftSet (cmdLe c 16 8) (some c) := by
  refine (State.sf_accepted h).trans ?_
  simp only [hset, if_true]

/-- Elsewhere it sets SET_IGN and ends with S_BAD_STATE. -/
theorem doTimeSet_ignored (h : s.accepts 0x0C04 c who false true false = true) (hset : (s.taken 0x0C04 c).setAllowed = false) :
    doTimeSet c s = ((s.taken 0x0C04 c).ftSet (cmdLe c 16 8) none).answer 0x0C04 c (Answer.just St.badState) := by
  refine (State.sf_accepted h).trans ?_
  simp only [hset, Bool.false_eq_true, if_false]
  rfl

end

/-- Settles O31: the pulse output by its cases, each TIME command by its acceptance. -/
theorem pulseOutputAndTimeCommands : Obligations.PulseOutputAndTimeCommands := by
  unfold Obligations.PulseOutputAndTimeCommands
  simp only [exec_ftCfgApply, exec_ppsOutCfgApply, exec_ftPpsOutPulse, exec_ppsOutContend, exec_timeQuery, exec_timeCfgSet,
    exec_timeAsymSet, exec_timeSet]
  refine ⟨?outCfg, ?disabled, ?gated, ?second, ?heldOff, ?contend, ?query, ?cfgSet, ?asymSet, ?cfgApply, ?set, ?setIgnored⟩
  case outCfg =>
    intro s v t hpend hdue
    simp [doPpsOutCfgApply, hpend, hdue]
  case disabled =>
    intro s hen
    rw [doFtPpsOutPulse_of_disabled hen]
  case gated =>
    intro s hen hgate hstate hheld
    rw [doFtPpsOutPulse_of_gated hen hgate (by simp [hstate]) (by simp [hstate]) hheld]
  case second =>
    intro s hen hgate hwhole hdrive
    rw [doFtPpsOutPulse_of_second hen hgate (State.ppsSecond_of_whole hwhole) hdrive]
  case heldOff =>
    intro s hen hout hfault hdrive
    have hheld : s.ppsHeldOff = true := by simp [State.ppsHeldOff, hout, hfault]
    rw [doFtPpsOutPulse_of_held_off hen hheld hdrive]
  case contend =>
    intro s hout
    simp [doPpsOutContend, hout]
  case query =>
    intro s c who h
    rw [doTimeQuery_accepted h]
  case cfgSet =>
    intro s c who h hmask hres
    rw [doTimeCfgSet_accepted h hmask hres]
  case asymSet =>
    intro s c who h
    rw [doTimeAsymSet_accepted h]
  case cfgApply =>
    intro s v a c hframe hdue hpend
    rw [doFtCfgApply_lockThresh (State.dueFrame_of_onFrame hframe hdue) hpend]
    rfl
  case set =>
    intro s c who h hallowed
    rw [doTimeSet_allowed h hallowed, State.ftSet, if_pos hallowed]
  case setIgnored =>
    intro s c who h hallowed
    rw [doTimeSet_ignored h hallowed, State.ftSet, if_neg (by simp [hallowed])]

end Sys2Proof.Machine
end

section
/-! SUPPORT. A step of the block and the state after device reset (02 R37, 18 R495); O57 from these. -/

namespace Sys2Proof.Machine

theorem afterReset_logOk {log : List Bytes} (h : log.length ≤ 4096) (fuses : Fuses) (n : Nat) (straps : Straps) :
    (State.afterReset fuses log n straps).logOk := h

/-- Settles O57: a step by the front of the queue, device reset by its fields. -/
theorem stepRunsTheFrontCommand : Obligations.StepRunsTheFrontCommand := by
  unfold Obligations.StepRunsTheFrontCommand
  refine ⟨fun s c rest h => step_cons h, fun s h => step_nil h, ?afterReset, ?reset⟩
  case afterReset =>
    intro fuses log n straps hlog
    exact ⟨rfl, rfl, rfl, afterReset_memOk fuses log n straps, afterReset_logOk hlog fuses n straps⟩
  case reset =>
    exact ⟨rfl, rfl, rfl, afterReset_memOk .., afterReset_logOk (Nat.zero_le _) ..⟩

end Sys2Proof.Machine
end

section
/-! SUPPORT. What leaves the FATAL state as it is (03 R104, 18 R494): the operations on the way of the rows that act in FATAL, one
lemma each, in the order of the model's files. -/

namespace Sys2Proof.Machine

@[simp] theorem fatal_ite (p : Prop) [Decidable p] (s t : State) :
    (if p then s else t).fatal = if p then s.fatal else t.fatal :=
  apply_ite State.fatal ..

/-- A fold of steps that each leave FATAL as it is. -/
@[simp] theorem fatal_foldl {α : Type} {f : State → α → State} (hf : ∀ s x, (f s x).fatal = s.fatal) (l : List α) (s : State) :
    (l.foldl f s).fatal = s.fatal :=
  foldl_keeps State.fatal f hf l s

variable (s : State)

/-! ### Time, device memory, counters, host reads, the log, threads, events and pins -/

@[simp] theorem State.fatal_run (dt : Nat) : (s.run dt).fatal = s.fatal := by
  unfold State.run
  rfl

@[simp] theorem State.fatal_advance (dt : Nat) : (s.advance dt).fatal = s.fatal := by
  simp [State.advance]

@[simp] theorem State.fatal_seenFrom (die : Nat) : (s.seenFrom die).fatal = s.fatal := by
  simp [State.seenFrom]

@[simp] theorem State.fatal_backFrom (u : State) : (s.backFrom u).fatal = u.fatal := by
  unfold State.backFrom
  split <;> rfl

@[simp] theorem State.fatal_latchFt (die : Nat) : (s.latchFt die).fatal = s.fatal := by
  simp [State.latchFt]

@[simp] theorem State.fatal_pokeBytes (a : Nat) (bs : Bytes) : (s.pokeBytes a bs).fatal = s.fatal :=
  State.fatal_of_beyondEvents (s.pokeBytes_beyondEvents ..)

@[simp] theorem State.fatal_dropRegion (k : Nat) : (s.dropRegion k).fatal = s.fatal := by
  simp [State.dropRegion]

@[simp] theorem State.fatal_countBy (kind index word n : Nat) : (s.countBy kind index word n).fatal = s.fatal := by
  simp [State.countBy]

@[simp] theorem State.fatal_count (kind index word : Nat) : (s.count kind index word).fatal = s.fatal := by
  simp [State.count]

@[simp] theorem State.fatal_dropCounters (kind index : Nat) : (s.dropCounters kind index).fatal = s.fatal := by
  simp [State.dropCounters]

@[simp] theorem State.fatal_cleanLines (a n : Nat) : (s.cleanLines a n).fatal = s.fatal :=
  State.fatal_of_beyondEvents (s.cleanLines_beyondEvents ..)

@[simp] theorem State.fatal_emit (o : Out) : (s.emit o).fatal = s.fatal := by
  simp [State.emit]

@[simp] theorem State.fatal_useFree : s.useFree.fatal = s.fatal := by
  simp [State.useFree]

@[simp] theorem State.fatal_onHostPort (p : Nat) (f : HostPort → HostPort) : (s.onHostPort p f).fatal = s.fatal := by
  simp [State.onHostPort]

@[simp] theorem State.fatal_onFn (f : FnRef) (g : FnSt → FnSt) : (s.onFn f g).fatal = s.fatal := by
  simp [State.onFn]

@[simp] theorem State.fatal_leaveL1 (f : FnRef) : (s.leaveL1 f).fatal = s.fatal := by
  simp [State.leaveL1]

@[simp] theorem State.fatal_makeRead (tag : Nat) (r : HostReadSt) : (s.makeRead tag r).fatal = s.fatal := by
  simp [State.makeRead]

@[simp] theorem State.fatal_makeReads (port : Nat) : (s.makeReads port).fatal = s.fatal := by
  unfold State.makeReads
  refine (fatal_foldl (fun s x => ?_) ..).trans (s.onHost_fatal _)
  repeat' split
  all_goals simp

@[simp] theorem State.fatal_dropRead (tag : Nat) : (s.dropRead tag).fatal = s.fatal := by
  unfold State.dropRead
  split <;> simp

@[simp] theorem State.fatal_logAer (f : FnRef) (e : AerErr) : (s.logAer f e).fatal = s.fatal := by
  unfold State.logAer
  dsimp only
  repeat' split
  all_goals simp

@[simp] theorem State.fatal_logRecord (kind : Nat) (parts : List (Nat × Bytes)) : (s.logRecord kind parts).fatal = s.fatal :=
  State.fatal_of_beyondEvents (s.logRecord_beyondEvents ..)

@[simp] theorem State.fatal_onClocks (f : PowerSt → PowerSt) : (s.onClocks f).fatal = s.fatal := by
  simp [State.onClocks]

@[simp] theorem State.fatal_onThread (tid : Nat) (f : Thread → Thread) : (s.onThread tid f).fatal = s.fatal := by
  simp [State.onThread]

@[simp] theorem State.fatal_leaveReaders (tid : Nat) (t : Thread) : (s.leaveReaders tid t).fatal = s.fatal := by
  simp [State.leaveReaders]

@[simp] theorem State.fatal_onChan (ch : Nat) (f : Chan → Chan) : (s.onChan ch f).fatal = s.fatal := by
  simp [State.onChan]

@[simp] theorem State.fatal_onCore (core : Nat) (f : CoreSt → CoreSt) : (s.onCore core f).fatal = s.fatal := by
  simp [State.onCore]

@[simp] theorem State.fatal_coreSettle (core : Nat) : (s.coreSettle core).fatal = s.fatal := by
  simp [State.coreSettle]

@[simp] theorem State.fatal_postEvent (tid bitNo : Nat) : (s.postEvent tid bitNo).fatal = s.fatal :=
  State.fatal_of_beyondEvents (s.postEvent_beyondEvents ..)

@[simp] theorem State.fatal_raise (src obj detail : Nat) (sc : Scope) : (s.raise src obj detail sc).fatal = s.fatal :=
  State.fatal_of_beyondEvents (s.raise_beyondEvents ..)

@[simp] theorem State.fatal_pinFault (b : Nat) : (s.pinFault b).fatal = s.fatal := by
  simp [State.pinFault]

@[simp] theorem State.fatal_pinClear (b : Nat) : (s.pinClear b).fatal = s.fatal := by
  simp [State.pinClear]

@[simp] theorem State.fatal_pinFollow (b : Nat) (v : Bool) : (s.pinFollow b v).fatal = s.fatal := by
  simp [State.pinFollow]

@[simp] theorem State.fatal_emitMctp (own : Bool) (tag : Nat) (b : Bytes) : (s.emitMctp own tag b).fatal = s.fatal := by
  simp [State.emitMctp]

/-! ### What a read of DRAM meets -/

@[simp] theorem State.fatal_onChannel (c : Nat) (f : ChannelSt → ChannelSt) : (s.onChannel c f).fatal = s.fatal := by
  simp [State.onChannel]

@[simp] theorem State.fatal_memLog (kind c rank sub pos src ca : Nat) :
    (s.memLog kind c rank sub pos src ca).fatal = s.fatal :=
  State.fatal_logRecord ..

@[simp] theorem State.fatal_stormFrame (c : Nat) : (s.stormFrame c).fatal = s.fatal := by
  simp [State.stormFrame]

@[simp] theorem State.fatal_countCe (c rank sub pos src ca : Nat) : (s.countCe c rank sub pos src ca).fatal = s.fatal := by
  simp [State.countCe]

@[simp] theorem State.fatal_countFail (c rank sub pos src ca : Nat) : (s.countFail c rank sub pos src ca).fatal = s.fatal := by
  simp [State.countFail]

@[simp] theorem State.fatal_foundUe (c rank sub src ca : Nat) : (s.foundUe c rank sub src ca).fatal = s.fatal := by
  unfold State.foundUe
  dsimp only
  split <;> simp

@[simp] theorem State.fatal_correctLine (k rank sub src w : Nat) (l : List (Nat × Nat × Nat)) :
    (s.correctLine k rank sub src w l).fatal = s.fatal := by
  unfold State.correctLine
  repeat' split
  all_goals simp

@[simp] theorem State.fatal_meetLine (src k : Nat) : (s.meetLine src k).fatal = s.fatal := by
  unfold State.meetLine
  dsimp only
  split <;> simp

@[simp] theorem State.fatal_meet (src a n : Nat) : (s.meet src a n).fatal = s.fatal := by
  simp [State.meet]

/-! ### Queues, their operations and completions -/

@[simp] theorem State.fatal_onQueue (qid : Nat) (f : Queue → Queue) : (s.onQueue qid f).fatal = s.fatal := by
  simp [State.onQueue]

@[simp] theorem State.fatal_deliver (c : Compl) : (s.deliver c).fatal = s.fatal := by
  unfold State.deliver
  split <;> simp

@[simp] theorem State.fatal_release (qid n : Nat) : (s.release qid n).fatal = s.fatal := by
  induction n generalizing s with
  | zero => rfl
  | succ n ih =>
    unfold State.release
    repeat' split
    all_goals simp [ih]

@[simp] theorem State.fatal_finish (qid idx : Nat) (c : Compl) (status bytes : Nat) :
    (s.finish qid idx c status bytes).fatal = s.fatal := by
  unfold State.finish
  split <;> simp

@[simp] theorem State.fatal_consume (qid : Nat) : (s.consume qid).fatal = s.fatal := by
  unfold State.consume
  split <;> simp

@[simp] theorem State.fatal_endHead (qid status c12 : Nat) (entry : Bytes) : (s.endHead qid status c12 entry).fatal = s.fatal := by
  unfold State.endHead
  dsimp only
  repeat' split
  all_goals simp

@[simp] theorem State.fatal_onOp (n : Nat) (f : Op → Op) : (s.onOp n f).fatal = s.fatal := by
  simp [State.onOp]

@[simp] theorem State.fatal_finishOp (n status bytes c12 ft : Nat) (tail : Bytes) :
    (s.finishOp n status bytes c12 ft tail).fatal = s.fatal := by
  unfold State.finishOp
  repeat' split
  all_goals simp

@[simp] theorem State.fatal_endProgress (src : CmdSrc) (opcode target : Nat) :
    (s.endProgress src opcode target).fatal = s.fatal := by
  simp [State.endProgress]

@[simp] theorem State.fatal_removeQueue (qid : Nat) : (s.removeQueue qid).fatal = s.fatal := by
  simp [State.removeQueue]

/-! ### Command packets and replies -/

@[simp] theorem State.fatal_sendReply (code : Nat) (c : Cmd) (byBk : Bool) (a : Answer) :
    (s.sendReply code c byBk a).fatal = s.fatal := by
  unfold State.sendReply
  repeat' split
  all_goals simp

@[simp] theorem State.fatal_reply (code : Nat) (c : Cmd) (byBk : Bool) (a : Answer) : (s.reply code c byBk a).fatal = s.fatal := by
  simp [State.reply]

/-! ### Forwarding tables -/

@[simp] theorem State.fatal_onTable (id : Nat) (f : Table → Table) : (s.onTable id f).fatal = s.fatal := by
  simp [State.onTable]

/-! ### Frames -/

@[simp] theorem State.fatal_spaceCheck (ch : Nat) : (s.spaceCheck ch).fatal = s.fatal := by
  unfold State.spaceCheck
  split <;> simp

@[simp] theorem State.fatal_sampleRec (f : RxFrame) (out drop dest : Nat) : (s.sampleRec f out drop dest).fatal = s.fatal := by
  simp [State.sampleRec]

@[simp] theorem State.fatal_onFrameRx (n : Nat) (g : RxFrame → RxFrame) : (s.onFrameRx n g).fatal = s.fatal := by
  simp [State.onFrameRx]

@[simp] theorem State.fatal_txEnd (n status bytes ft frac port : Nat) : (s.txEnd n status bytes ft frac port).fatal = s.fatal := by
  unfold State.txEnd
  split <;> simp

@[simp] theorem State.fatal_sampleTw (f : TwFrame) (out drop dest : Nat) : (s.sampleTw f out drop dest).fatal = s.fatal := by
  unfold State.sampleTw
  repeat' split
  all_goals simp

@[simp] theorem State.fatal_discardTw (tile : Nat) (f : TwFrame) (word status : Nat) :
    (s.discardTw tile f word status).fatal = s.fatal := by
  unfold State.discardTw
  split <;> simp

@[simp] theorem State.fatal_discardQueues (pick : TwKey → Bool) (word status : Nat) :
    (s.discardQueues pick word status).fatal = s.fatal := by
  simp [State.discardQueues]

@[simp] theorem State.fatal_calReplace : s.calReplace.fatal = s.fatal := by
  simp [State.calReplace]

@[simp] theorem State.fatal_dropSource (qid : Nat) : (s.dropSource qid).fatal = s.fatal := by
  simp [State.dropSource]

/-! ### Rings -/

@[simp] theorem State.fatal_killFetches (qid : Nat) : (s.killFetches qid).fatal = s.fatal := by
  simp [State.killFetches]

@[simp] theorem State.fatal_ownerHostError (w : Owner) : (s.ownerHostError w).fatal = s.fatal := by
  unfold State.ownerHostError
  dsimp only
  split <;> simp

@[simp] theorem State.fatal_unquiesced (p : Owner → Bool) : (s.unquiesced p).fatal = s.fatal := by
  unfold State.unquiesced
  refine fatal_foldl (fun s w => ?_) ..
  split <;> rfl

@[simp] theorem State.fatal_endFailed (qid n : Nat) : (s.endFailed qid n).fatal = s.fatal := by
  induction n generalizing s with
  | zero => rfl
  | succ n ih =>
    unfold State.endFailed
    repeat' split
    all_goals simp [ih]

@[simp] theorem State.fatal_addQueue (qid : Nat) (q : Queue) : (s.addQueue qid q).fatal = s.fatal := by
  unfold State.addQueue
  dsimp only
  repeat' split
  all_goals simp

@[simp] theorem State.fatal_quiesceReplies : s.quiesceReplies.fatal = s.fatal := by
  simp [State.quiesceReplies]

@[simp] theorem State.fatal_destroyQueue (qid : Nat) : (s.destroyQueue qid).fatal = s.fatal := by
  unfold State.destroyQueue
  repeat' split
  all_goals simp

/-! ### Twill: frames, ports and links -/

@[simp] theorem State.fatal_portsStepped (amt : Int) : (s.portsStepped amt).fatal = s.fatal := by
  simp [State.portsStepped]

@[simp] theorem State.fatal_onLogical (n : Nat) (f : LogPort → LogPort) : (s.onLogical n f).fatal = s.fatal := by
  simp [State.onLogical]

@[simp] theorem State.fatal_linkChange (n : Nat) (up : Bool) : (s.linkChange n up).fatal = s.fatal := by
  simp [State.linkChange]

@[simp] theorem State.fatal_portDown (n : Nat) (training : Bool) : (s.portDown n training).fatal = s.fatal := by
  simp [State.portDown]

/-! ### KRM -/

@[simp] theorem State.fatal_areaMeet (region off n : Nat) : (s.areaMeet region off n).fatal = s.fatal := by
  unfold State.areaMeet
  split <;> simp

@[simp] theorem State.fatal_areaWrite (region off : Nat) (b : Bytes) : (s.areaWrite region off b).fatal = s.fatal := by
  unfold State.areaWrite
  split <;> simp

@[simp] theorem State.fatal_wipeKeyRecord (idx : Nat) : (s.wipeKeyRecord idx).fatal = s.fatal := by
  simp [State.wipeKeyRecord]

@[simp] theorem State.fatal_keyMeet (idx : Nat) : (s.keyMeet idx).fatal = s.fatal := by
  simp [State.keyMeet]

@[simp] theorem State.fatal_onConn (cid : Nat) (f : Conn → Conn) : (s.onConn cid f).fatal = s.fatal := by
  simp [State.onConn]

@[simp] theorem State.fatal_rekey (cid : Nat) : (s.rekey cid).fatal = s.fatal := by
  unfold State.rekey
  repeat' split
  all_goals simp

@[simp] theorem State.fatal_onVolume (vid : Nat) (f : Volume → Volume) : (s.onVolume vid f).fatal = s.fatal := by
  simp [State.onVolume]

@[simp] theorem State.fatal_connNext (cid : Nat) (st : ConnState) : (s.connNext cid st).fatal = s.fatal := by
  simp [State.connNext]

/-! ### Volumes -/

@[simp] theorem State.fatal_testEnd (vid : Nat) (v : Volume) (st : TestState) : (s.testEnd vid v st).fatal = s.fatal := by
  simp [State.testEnd]

@[simp] theorem State.fatal_dropVolume (vid : Nat) (v : Volume) : (s.dropVolume vid v).fatal = s.fatal := by
  unfold State.dropVolume
  dsimp only
  split <;> simp

/-! ### Connections and windows -/

@[simp] theorem State.fatal_connEvent (cid : Nat) : (s.connEvent cid).fatal = s.fatal := by
  unfold State.connEvent
  split <;> simp

@[simp] theorem State.fatal_freeConn (cid : Nat) (c : Conn) : (s.freeConn cid c).fatal = s.fatal := by
  unfold State.freeConn
  dsimp only
  repeat' split
  all_goals simp

@[simp] theorem State.fatal_winLater (i : Nat) (x : WinChange) : (s.winLater i x).fatal = s.fatal := by
  simp [State.winLater]

/-! ### Threads and cores -/

@[simp] theorem State.fatal_discardStaging (tid : Nat) : (s.discardStaging tid).fatal = s.fatal := by
  unfold State.discardStaging
  repeat' split
  all_goals simp

@[simp] theorem State.fatal_unexec (tid : Nat) : (s.unexec tid).fatal = s.fatal := by
  unfold State.unexec
  split <;> simp

@[simp] theorem State.fatal_halt (tid : Nat) (st remembered : ThState) : (s.halt tid st remembered).fatal = s.fatal := by
  simp [State.halt]

@[simp] theorem State.fatal_dropTileCores (tile : Nat) : (s.dropTileCores tile).fatal = s.fatal := by
  simp [State.dropTileCores]

@[simp] theorem State.fatal_kill (tid : Nat) : (s.kill tid).fatal = s.fatal := by
  simp [State.kill]

@[simp] theorem State.fatal_leaveDstop (tid : Nat) : (s.leaveDstop tid).fatal = s.fatal := by
  unfold State.leaveDstop
  split <;> simp

@[simp] theorem State.fatal_leaveAllDstop : s.leaveAllDstop.fatal = s.fatal := by
  simp [State.leaveAllDstop]

/-! ### Slices and owners -/

@[simp] theorem State.fatal_dropOps (qids : List Nat) : (s.dropOps qids).fatal = s.fatal := by
  simp [State.dropOps]

@[simp] theorem State.fatal_dropCommands (dead : Cmd → Bool) : (s.dropCommands dead).fatal = s.fatal := by
  simp [State.dropCommands]

@[simp] theorem State.fatal_stopOwner (p : Owner → Bool) (ref : HostRef → Bool) : (s.stopOwner p ref).fatal = s.fatal := by
  simp [State.stopOwner]

@[simp] theorem State.fatal_endOwner (p : Owner → Bool) : (s.endOwner p).fatal = s.fatal := by
  simp [State.endOwner]

@[simp] theorem State.fatal_freeSlice (sid : Nat) : (s.freeSlice sid).fatal = s.fatal := by
  simp [State.freeSlice]

/-! ### Host ports and functions -/

@[simp] theorem State.fatal_forceProfile (port : Nat) (l : List PfRecord) (rec' : Bool) :
    (s.forceProfile port l rec').fatal = s.fatal := by
  simp [State.forceProfile]

@[simp] theorem State.fatal_installProfile (port : Nat) (l : List PfRecord) : (s.installProfile port l).fatal = s.fatal := by
  simp [State.installProfile]

@[simp] theorem State.fatal_configRetry (f : FnRef) : (s.configRetry f).fatal = s.fatal := by
  simp [State.configRetry]

@[simp] theorem State.fatal_sendVector (f : FnRef) (v : Nat) : (s.sendVector f v).fatal = s.fatal := by
  unfold State.sendVector
  split <;> simp

@[simp] theorem State.fatal_flushVectors (f : FnRef) : (s.flushVectors f).fatal = s.fatal := by
  unfold State.flushVectors
  split <;> simp

@[simp] theorem State.fatal_flrStop (l : List FnRef) : (s.flrStop l).fatal = s.fatal := by
  simp [State.flrStop]

@[simp] theorem State.fatal_endFns (fs : List FnRef) : (s.endFns fs).fatal = s.fatal := by
  simp [State.endFns]

@[simp] theorem State.fatal_dlDown (port sub : Nat) : (s.dlDown port sub).fatal = s.fatal := by
  simp [State.dlDown]

@[simp] theorem State.fatal_domains (mask : Nat) (on : Bool) : (s.domains mask on).fatal = s.fatal := by
  simp [State.domains]

@[simp] theorem State.fatal_portGone (port : Nat) : (s.portGone port).fatal = s.fatal := by
  simp [State.portGone]

@[simp] theorem State.fatal_portStart (port : Nat) : (s.portStart port).fatal = s.fatal := by
  unfold State.portStart
  dsimp only
  split <;> simp

@[simp] theorem State.fatal_laneFaults (port : Nat) : (s.laneFaults port).fatal = s.fatal := by
  simp [State.laneFaults]

@[simp] theorem State.fatal_onSub (port sub : Nat) (f : SubLink → SubLink) : (s.onSub port sub f).fatal = s.fatal := by
  simp [State.onSub]

@[simp] theorem State.fatal_sendLtr : s.sendLtr.fatal = s.fatal := by
  unfold State.sendLtr
  refine fatal_foldl (fun s x => ?_) ..
  dsimp only
  repeat' split
  all_goals simp

/-! ### DRAM upkeep -/

@[simp] theorem State.fatal_refreshNow (c rank : Nat) : (s.refreshNow c rank).fatal = s.fatal := by
  simp [State.refreshNow]

@[simp] theorem State.fatal_calEnds (c : Nat) : (s.calEnds c).fatal = s.fatal := by
  unfold State.calEnds
  dsimp only
  split <;> simp

@[simp] theorem State.fatal_scrubTake : s.scrubTake.fatal = s.fatal := by
  unfold State.scrubTake
  split <;> simp

/-! ### Trust -/

@[simp] theorem State.fatal_extendMr (i : Nat) (e : Bytes) : (s.extendMr i e).fatal = s.fatal := by
  simp [State.extendMr]

@[simp] theorem State.fatal_extendMr3 : s.extendMr3.fatal = s.fatal := by
  simp [State.extendMr3]

@[simp] theorem State.fatal_setLevel (new : Nat) (jtag : Bool) : (s.setLevel new jtag).fatal = s.fatal := by
  simp [State.setLevel]

@[simp] theorem State.fatal_endSession : s.endSession.fatal = s.fatal := by
  simp [State.endSession]

/-! ### Power -/

@[simp] theorem State.fatal_setTile (t : Nat) (x : TileState) : (s.setTile t x).fatal = s.fatal := by
  simp [State.setTile]

@[simp] theorem State.fatal_clearSram (t : Nat) : (s.clearSram t).fatal = s.fatal := by
  simp [State.clearSram]

@[simp] theorem State.fatal_noteTj (tj : Nat) : (s.noteTj tj).fatal = s.fatal := by
  simp [State.noteTj]

@[simp] theorem State.fatal_endAuxLost : s.endAuxLost.fatal = s.fatal := by
  simp [State.endAuxLost]

/-! ### Event records -/

@[simp] theorem State.fatal_takeRec (r : OpenRec) : (s.takeRec r).1.fatal = s.fatal := by
  simp [State.takeRec]

/-! ### Fabric time -/

@[simp] theorem State.fatal_ftGo (new : FtState) : (s.ftGo new).fatal = s.fatal := by
  unfold State.ftGo
  split <;> simp

@[simp] theorem State.fatal_oscUpdate : s.oscUpdate.fatal = s.fatal := by
  simp [State.oscUpdate]

@[simp] theorem State.fatal_boundCheck : s.boundCheck.fatal = s.fatal := by
  simp [State.boundCheck]

@[simp] theorem State.fatal_loseSource : s.loseSource.fatal = s.fatal := by
  unfold State.loseSource
  dsimp only
  split <;> simp

@[simp] theorem State.fatal_startSlew : s.startSlew.fatal = s.fatal := by
  simp [State.startSlew]

@[simp] theorem State.fatal_commitBig (m : Int) : (s.commitBig m).fatal = s.fatal := by
  unfold State.commitBig
  dsimp only
  repeat' split
  all_goals simp

@[simp] theorem State.fatal_commitSmall (m : Int) : (s.commitSmall m).fatal = s.fatal := by
  unfold State.commitSmall
  dsimp only
  split <;> simp

@[simp] theorem State.fatal_commit (m : Int) : (s.commit m).fatal = s.fatal := by
  simp [State.commit]

@[simp] theorem State.fatal_ppsPassed : s.ppsPassed.fatal = s.fatal := by
  simp [State.ppsPassed]

@[simp] theorem State.fatal_ppsAbsence : s.ppsAbsence.fatal = s.fatal := by
  unfold State.ppsAbsence
  split <;> simp

@[simp] theorem State.fatal_passTime (dt : Nat) : (s.passTime dt).fatal = s.fatal := by
  simp [State.passTime]

@[simp] theorem State.fatal_periodsStepped (amt : Int) : (s.periodsStepped amt).fatal = s.fatal := by
  simp [State.periodsStepped]

@[simp] theorem State.fatal_ftSet (v : Nat) (cmd : Option Cmd) : (s.ftSet v cmd).fatal = s.fatal := by
  simp [State.ftSet]

@[simp] theorem State.fatal_dieAlign (die : Nat) (m : Int) : (s.dieAlign die m).fatal = s.fatal := by
  simp [State.dieAlign]

@[simp] theorem State.fatal_srcChanged (old : Nat) : (s.srcChanged old).fatal = s.fatal := by
  simp [State.srcChanged]

@[simp] theorem State.fatal_ftCfgWrite (off : Nat) (v : W32) : (s.ftCfgWrite off v).fatal = s.fatal := by
  simp [State.ftCfgWrite]

@[simp] theorem State.fatal_drivePps (v : Option Bool) : (s.drivePps v).fatal = s.fatal := by
  simp [State.drivePps]

/-! ### Registers -/

@[simp] theorem State.fatal_controlStore (f : FnRef) (off size : Nat) (v : W64) :
    (s.controlStore f off size v).fatal = s.fatal := by
  unfold State.controlStore
  repeat' split
  all_goals simp

@[simp] theorem State.fatal_controlWrite (f : FnRef) (off size : Nat) (v : W64) :
    (s.controlWrite f off size v).fatal = s.fatal := by
  simp [State.controlWrite]

@[simp] theorem State.fatal_msixWrite (f : FnRef) (off : Nat) (v : W32) : (s.msixWrite f off v).fatal = s.fatal := by
  simp [State.msixWrite]

/-! ## Operations that take an action of their caller's -/

theorem State.fatal_onDie {die : Nat} {act : State → State} (h : ∀ u, (act u).fatal = u.fatal) : (s.onDie die act).fatal = s.fatal := by
  simp [State.onDie, h]

theorem State.fatal_debug {tid : Nat} {eff : Thread → State → State} (h : ∀ t u, (eff t u).fatal = u.fatal) :
    (s.debug tid eff).fatal = s.fatal := by
  unfold State.debug
  split <;> simp [h]

/-- Seen from a die and brought back, a state is what it was. -/
theorem State.backFrom_seenFrom (die : Nat) : s.backFrom (s.seenFrom die) = s := by
  unfold State.backFrom State.seenFrom
  by_cases hstep : s.ftu.stepAt = s.ft
  · simp only [if_pos hstep]
    rfl
  · simp only [if_neg hstep]
    rfl

theorem State.fatal_enterAux : s.enterAux.fatal = s.fatal := rfl

end Sys2Proof.Machine
end

section
/-! SUPPORT. In FATAL (03 R104, 18 R494): what shared operations then do, beyond Laws/Fatal.lean. -/

namespace Sys2Proof.Machine

variable {s : State} (h : s.fatal = true)
include h

/-! ## Operations that then do nothing -/

theorem State.fetch_fatal (qid : Nat) : s.fetch qid = s := by
  unfold State.fetch
  split <;> simp [h]

theorem State.checkHead_fatal (qid : Nat) : s.checkHead qid = s := by
  unfold State.checkHead
  split <;> simp [h]

theorem State.headCheck_fatal (qid : Nat) : s.headCheck qid = s := by
  unfold State.headCheck
  split <;> simp [h, State.checkHead_fatal h]

theorem State.heldReady_fatal : s.heldReady = none := by
  simp [State.heldReady, State.gate, h]

theorem State.xk_fatal (tid w : Nat) (body : Thread → State → State × Ending) (mine : Thread → Bool) : s.xk tid w body mine = s := by
  simp [State.xk, State.readyThread_fatal h]

theorem State.thCtl_fatal (tid rd rs1 rs2 : Nat) (ops : List Nat) (always : Bool)
    (eff : Nat → Thread → Nat → State → State × Option Nat) : s.thCtl tid rd rs1 rs2 ops always eff = s :=
  State.xk_fatal h ..

theorem State.krmStart_fatal (qid opcode : Nat) : s.krmStart qid opcode = s := by
  simp [State.krmStart, State.readyHead_fatal h]

theorem State.blkStart_fatal (qid opcode : Nat) : s.blkStart qid opcode = s := by
  simp [State.blkStart, State.readyHead_fatal h]

theorem State.cryStart_fatal (qid opcode : Nat) : s.cryStart qid opcode = s := by
  simp [State.cryStart, State.readyHead_fatal h]

theorem State.dmaStart_fatal (qid opcode : Nat) : s.dmaStart qid opcode = s := by
  simp [State.dmaStart, State.readyHead_fatal h]

theorem State.pageKeyCtrl_fatal (f : FnRef) (page v : Nat) : s.pageKeyCtrl f page v = s :=
  State.pageWrite_fatal h ..

theorem State.onDie_fatal (die : Nat) {act : State → State} (hact : ∀ u : State, u.fatal = true → act u = u) : s.onDie die act = s := by
  rw [State.onDie, hact _ ((s.fatal_seenFrom die).trans h), State.backFrom_seenFrom]

/-! ## Operations that then stay in FATAL -/

/-- The data of a host read goes nowhere. -/
theorem State.deliverRead_fatal (tag : Nat) (r : HostReadSt) (how : ReadEnd) : s.deliverRead tag r how = s.dropRead tag := by
  simp [State.deliverRead, h]

theorem State.fatal_deliverRead (tag : Nat) (r : HostReadSt) (how : ReadEnd) : (s.deliverRead tag r how).fatal = true := by
  rw [State.deliverRead_fatal h, State.fatal_dropRead, h]

theorem State.fatal_entriesArrive (qid idx n : Nat) (data : Bytes) : (s.entriesArrive qid idx n data).fatal = true := by
  simp [State.entriesArrive, State.fetch_fatal, h]

theorem State.fatal_entriesFail (qid idx n st : Nat) : (s.entriesFail qid idx n st).fatal = true := by
  simp [State.entriesFail, State.fetch_fatal, h]

/-- A fold of steps that each stay in FATAL. -/
theorem fatal_foldl_of_fatal {α : Type} {f : State → α → State} (hf : ∀ s x, s.fatal = true → (f s x).fatal = true) (l : List α) :
    (l.foldl f s).fatal = true := by
  induction l generalizing s with
  | nil => exact h
  | cons x l ih => exact ih (hf s x h)

theorem State.fatal_endRefused (port : Nat) : (s.endRefused port).fatal = true :=
  fatal_foldl_of_fatal h (fun _ _ h => State.fatal_deliverRead h ..) _

theorem State.fatal_enableQueue (qid start : Nat) : (s.enableQueue qid start).fatal = true := by
  simp [State.enableQueue, State.writeBack_fatal, h]

theorem State.fatal_cmdOpen (f : FnRef) : (s.cmdOpen f).fatal = true := by
  unfold State.cmdOpen
  split <;> simp [State.fatal_enableQueue, h]

theorem State.fatal_openWaiting : s.openWaiting.fatal = true :=
  fatal_foldl_of_fatal h (fun _ x h => State.fatal_cmdOpen h x.ref) _

/-- A function that begins or ceases to master the bus stops and resumes nothing. -/
theorem State.fatal_masterChange (f : FnRef) (g : FnSt → FnSt) : (s.masterChange f g).fatal = true := by
  simp [State.masterChange, h]

theorem State.fatal_configWrite (f : FnRef) (r : CfgField) (v : Nat) : (s.configWrite f r v).fatal = true := by
  unfold State.configWrite
  repeat' split
  all_goals simp [State.fatal_endRefused, h]

theorem State.fatal_cipherWrite (f : FnRef) (page off size : Nat) (v : W64) : (s.cipherWrite f page off size v).fatal = true := by
  rw [State.cipherWrite, State.pageWrite_fatal h, h]

theorem State.fatal_idle : s.idle.fatal = true := by
  unfold State.idle
  rw [State.heldReady_fatal h]
  dsimp only
  split <;> simp [h]

end Sys2Proof.Machine
end

section
/-! SUPPORT. FATAL (03 R104, 18 R494) row by row: the rows of queues, commands, threads and engines then do nothing, and those that act
stay in FATAL, but for the five that can be a device reset or the loss of all power; O60 from these. -/

namespace Sys2Proof.Machine

section
variable {s : State} (h : s.fatal = true)
include h

/-! ## Rows that do nothing in FATAL -/

/-- The opcodes of 04 R131: no command starts, neither with service firmware nor with Buckram. -/
theorem exec_packet_fatal {i : Instr} {code : Nat} {c : Cmd} (hp : packetOf i = some (code, c)) : exec i s = .next s := by
  cases i
  case devIdentify | devHealth | devPortMode | devPortQuery | queueEnable | queueDisable | queueQuery | queueMove | fnQuery | sliceQuiesce
      | vfQuiesce | spoofQuery | tblCreate | tblSearch | tblNext | tblInsert | tblDelete | tblFlushByPort | tblAgingSet | twShaperSet
      | twPolicerSet | twDgSet | twSchedLoad | twSchedSwap | twQuery | krmConnQuery | krmConfig | blkVolumeQuery | blkQueueReset
      | blkSelftestQuery | cySliceTableSet | cyQuery | fwInfo | fwWrite | fwAbort | pwQuery | timeQuery | timeCfgSet | timeAsymSet
      | timeSet | ctRead | ctDumpSet | ctDumpCancel | ctSlicePerm | diagEcho | diagPinFault | diagLogRead | diagDramCal | diagScrubSet =>
    exact congrArg Host.Outcome.next (State.sf_fatal h ..)
  case devReset | queueDestroy | sliceCreate | sliceDestroy | spoofSet | krmWindowOpen | krmWindowModify | krmWindowRevoke
      | blkVolumeCreate | blkVolumeDestroy | cyChannelCreate | cyChannelDestroy | fwVerify | fwActivate | fwHealthConfirm
      | secLifecycleSet | secDebugChallenge | secDebugResponse | secDebugClose | secAttest | secMeasureRead | secKeyInstall | pwCapSet
      | diagErrInject =>
    exact congrArg Host.Outcome.next (State.bk_fatal h ..)
  case queueCreate | sliceReset | krmConnDestroy | pwTilePark | pwTileUnpark =>
    exact congrArg Host.Outcome.next (State.bkPart_fatal h ..)
  case twModeSetScheduled | twModeSetUnscheduled | blkSelftestStart | blkSelftestAbort | ctSampleSetCore | ctSampleSetPacket =>
    exact congrArg Host.Outcome.next ((ite_eq_left_iff.2 fun _ => State.sf_fatal h ..))
  case krmConnCreate | pwStateSetRun | pwStateSetStandby =>
    exact congrArg Host.Outcome.next (ite_eq_left_iff.2 fun _ => State.bk_fatal h ..)
  case krmConnSetPeer => exact congrArg Host.Outcome.next (ite_eq_right_iff.2 fun _ => State.bk_fatal h ..)
  all_goals cases hp

/-- The rows of a queue's head and its operations, of completions and doorbells, of cipher pages and of threads: each goes through an
operation of Laws/Fatal.lean. -/
theorem exec_inert_fatal {i : Instr} (hi : (actsInFatal i || (packetOf i).isSome) = false) : exec i s = .next s := by
  cases i
  case doorbellWork | doorbellInv | doorbellCq | doorbellArm =>
    exact congrArg Host.Outcome.next (State.doorbell_fatal h _)
  case entryHeadCheck => exact congrArg Host.Outcome.next (State.headCheck_fatal h _)
  case completionWrite => exact congrArg Host.Outcome.next (State.writeNext_fatal h _)
  case krmRqPost | nop | pktRxPost | pktTxSend =>
    exact congrArg Host.Outcome.next (by simp [doKrmRqPost, doNop, doPktRxPost, doPktTxSend, State.readyHead_fatal h])
  case krmWrite | krmRead | krmSend => exact congrArg Host.Outcome.next (State.krmStart_fatal h ..)
  case blkRead | blkWrite | blkFlush | blkTrim => exact congrArg Host.Outcome.next (State.blkStart_fatal h ..)
  case cryEncrypt | cryDecrypt | cryDigest => exact congrArg Host.Outcome.next (State.cryStart_fatal h ..)
  case dmaCopy | dmaFill => exact congrArg Host.Outcome.next (State.dmaStart_fatal h ..)
  case cyKeyStore256 | cyKeyStore512 | cyKeyClear | cyKeyDataWrite | cyJobDb =>
    exact congrArg Host.Outcome.next
      (by simp [doCyKeyStore256, doCyKeyStore512, doCyKeyClear, doCyKeyDataWrite, doCyJobDb, State.pageKeyCtrl_fatal h,
        State.pageWrite_fatal h])
  case rv64Instruction =>
    exact congrArg Host.Outcome.next (by simp [doRv64Instruction, State.readyThread_fatal h])
  case chWrf | chWr | chRecv | chTry | chGet | chAbort | chStat | chCfg | evWait | evClr | evRead | evPost =>
    exact congrArg Host.Outcome.next (State.xk_fatal h ..)
  case thCtlQuery | thCtlStop | thCtlResume | thCtlKill | thCtlStart | thCtlDiscard | thCtlSetpri | thCtlFpc | thCtlFval =>
    exact congrArg Host.Outcome.next (State.thCtl_fatal h ..)
  case jtagKzauth =>
    refine congrArg Host.Outcome.next ?_
    unfold doJtagKzauth
    repeat' split
    all_goals simp [State.bk_fatal h]
  case agingPassStart | bootSourceProbeTimeout | buckramBoot | buckramRequest | ceWriteback | dgSetApply | dramTrained | engineSlice
      | frameClassify | krmPacketReceive | krmReadResponse | krmStateFetched | krmWriteAccepted | learnInsert | mctpRequest
      | policerDecide | portTrained | powerWindow | queueIdle | romBoot | ruleChangeEffect | sampleRecordLatch | sidebandFault
      | sourceQueueAdvance | spDisp | steeringUpdate | tableLookup | tileIdle | tileWake | trialDeadline | twillAdmit =>
    exact congrArg Host.Outcome.next (by simp [doAgingPassStart, doBootSourceProbeTimeout, doBuckramBoot, doBuckramRequest,
      doCeWriteback, doDgSetApply, doDramTrained, doEngineSlice, doFrameClassify, doKrmPacketReceive, doKrmReadResponse,
      doKrmStateFetched, doKrmWriteAccepted, doLearnInsert, doMctpRequest, doPolicerDecide, doPortTrained, doPowerWindow, doQueueIdle,
      doRomBoot, doRuleChangeEffect, doSampleRecordLatch, doSidebandFault, doSourceQueueAdvance, doSpDisp, doSteeringUpdate,
      doTableLookup, doTileIdle, doTileWake, doTrialDeadline, doTwillAdmit, h])
  case agingVisit | calendarFire | frameReceive | frameTransmitStart | portModePoint | sampleSetEffect | scrubRead | sliceTableEffect =>
    exact congrArg Host.Outcome.next (State.onDie_fatal h _ fun u hu => by
      simp [doAgingVisit, doCalendarFire, doFrameReceive, doFrameTransmitStart, doPortModePoint, doSampleSetEffect, doScrubRead,
        doSliceTableEffect, hu])
  case activateTimeout | blkResetAbandon | cmdEnClear | cmdEnSet | debugLevelEffect | dumpRecordWrite | handoverComplete | handoverReady
      | handoverStateTimeout | krmAckTimer | krmPacketSend | krmRnrRetry | parkDrainLimit | parkPoint | pushTimeout | selftestRequest
      | unparkPoint | watchdogExpire | windowChangeEffect | blkPieceIssue | blkQueueResetComplete | blkRespReceive
      | connDestroyComplete | deadlockDetect | krmRetransmitTimeout | pktRxDeliver | sliceResetComplete | tilePowerOff
      | dmaBeatComplete | dmaBeatFail =>
    refine congrArg Host.Outcome.next ?_
    simp [doActivateTimeout, doBlkResetAbandon, doCmdEnClear, doCmdEnSet, doDebugLevelEffect, doDumpRecordWrite, doHandoverComplete,
      doHandoverReady, doHandoverStateTimeout, doKrmAckTimer, doKrmPacketSend, doKrmRnrRetry, doParkDrainLimit, doParkPoint,
      doPushTimeout, doSelftestRequest, doUnparkPoint, doWatchdogExpire, doWindowChangeEffect, doBlkPieceIssue, doBlkQueueResetComplete,
      doBlkRespReceive, doConnDestroyComplete, doDeadlockDetect, doKrmRetransmitTimeout, doPktRxDeliver, doSliceResetComplete,
      doTilePowerOff, doDmaBeatComplete, doDmaBeatFail, h]
    repeat' split
    all_goals rfl
  case connTransition | cycleBoundary | dumpLatch | msixSend | policerSetApply | shaperRefill | writebackBlock | eventRecordWrite | homeMove
      | sliceBindingEffect | spoofSetEffect | dmaBeatRetry | slotStart =>
    refine congrArg Host.Outcome.next (State.onDie_fatal h _ fun u hu => ?_)
    simp [doConnTransition, doCycleBoundary, doDumpLatch, doMsixSend, doPolicerSetApply, doShaperRefill, doWritebackBlock,
      doEventRecordWrite, doHomeMove, doSliceBindingEffect, doSpoofSetEffect, doDmaBeatRetry, doSlotStart, hu]
    repeat' split
    all_goals rfl
  all_goals cases hi

/-- Every row that is not listed as acting in FATAL. -/
theorem exec_fatal {i : Instr} (hi : actsInFatal i = false) : exec i s = .next s := by
  cases hp : packetOf i with
  | none => exact exec_inert_fatal h (by simp [hi, hp])
  | some p => exact exec_packet_fatal h hp

/-! ## Rows that act in FATAL -/

theorem fatal_doRegisterWrite (a : RegAccess) : (doRegisterWrite a s).fatal = true := by
  unfold doRegisterWrite
  split <;> simp [State.fatal_configWrite, State.fatal_cipherWrite, h]

theorem fatal_doFtCfgApply : (doFtCfgApply s).fatal = true := by
  refine fatal_foldl_of_fatal (by simp [h]) (fun s x hs => ?_) _
  dsimp only
  split <;> simp [hs]

theorem fatal_doEntryFetchDone (tag : Nat) (data : Bytes) : (doEntryFetchDone tag data s).fatal = true := by
  unfold doEntryFetchDone
  repeat' split
  all_goals simp [State.fatal_entriesArrive, h]

theorem fatal_doEntryFetchFail (tag : Nat) (how : ReadEnd) : (doEntryFetchFail tag how s).fatal = true := by
  unfold doEntryFetchFail
  repeat' split
  all_goals simp [State.fatal_entriesFail, h]

theorem fatal_doHostReadCompletion (tag : Nat) (how : ReadEnd) : (doHostReadCompletion tag how s).fatal = true := by
  unfold doHostReadCompletion
  repeat' split
  all_goals simp [State.fatal_deliverRead, h]

theorem fatal_doCompletionTimeout (tag : Nat) : (doCompletionTimeout tag s).fatal = true := by
  unfold doCompletionTimeout
  split <;> simp [State.fatal_deliverRead, h]

theorem fatal_doTlpError (port sub : Nat) (f : FnRef) (err : TlpErr) : (doTlpError port sub f err s).fatal = true := by
  unfold doTlpError
  dsimp only
  repeat' split
  all_goals simp [State.fatal_deliverRead, h]

theorem fatal_doDebugStop (tid : Nat) : (doDebugStop tid s).fatal = true := by
  refine (s.fatal_debug fun t u => ?_).trans h
  split <;> simp

theorem fatal_doDebugRegAccess (tid : Nat) (a : DebugAccess) : (doDebugRegAccess tid a s).fatal = true := by
  refine (s.fatal_debug fun t u => ?_).trans h
  repeat' split
  all_goals simp

theorem fatal_doThermalTrip (die tj : Nat) : (doThermalTrip die tj s).fatal = true := by
  simp [doThermalTrip, State.enterFatal_fatal, h]

theorem fatal_doFlitRetransmit (k : Nat) (again : Bool) : (doFlitRetransmit k again s).fatal = true := by
  unfold doFlitRetransmit
  split <;> simp [State.linkLost_fatal, h]

theorem fatal_doAuxEnter : (doAuxEnter s).fatal = true := by
  simp [doAuxEnter, State.fatal_enterAux, h]

theorem fatal_doPerstAssert (port : Nat) : (doPerstAssert port s).fatal = true := by
  simp [doPerstAssert, State.fatal_openWaiting, h]

/-- A row that acts in FATAL stays in it, unless it can be a device reset or the loss of all power. -/
theorem exec_stays_fatal {i : Instr} (hi : (actsInFatal i && !mayReset i) = true) : ∃ t, exec i s = .next t ∧ t.fatal = true := by
  cases i
  case registerWrite => exact ⟨_, rfl, fatal_doRegisterWrite h _⟩
  case ftCfgApply => exact ⟨_, rfl, fatal_doFtCfgApply h⟩
  case entryFetchDone => exact ⟨_, rfl, fatal_doEntryFetchDone h ..⟩
  case entryFetchFail => exact ⟨_, rfl, fatal_doEntryFetchFail h ..⟩
  case hostReadCompletion => exact ⟨_, rfl, fatal_doHostReadCompletion h ..⟩
  case completionTimeout => exact ⟨_, rfl, fatal_doCompletionTimeout h _⟩
  case tlpError => exact ⟨_, rfl, fatal_doTlpError h ..⟩
  case debugStop => exact ⟨_, rfl, fatal_doDebugStop h _⟩
  case debugRegAccess => exact ⟨_, rfl, fatal_doDebugRegAccess h ..⟩
  case debugResume | debugStep | debugDiscard | debugKill => exact ⟨_, rfl, (s.fatal_debug fun t u => by simp).trans h⟩
  case thermalTrip => exact ⟨_, rfl, fatal_doThermalTrip h ..⟩
  case flitRetransmit => exact ⟨_, rfl, fatal_doFlitRetransmit h ..⟩
  case auxEnter => exact ⟨_, rfl, fatal_doAuxEnter h⟩
  case perstAssert => exact ⟨_, rfl, fatal_doPerstAssert h _⟩
  case bmeClear | bmeSet | d3hotEnter | d3hotExit => exact ⟨_, rfl, State.fatal_masterChange h ..⟩
  case ftSetWrite => exact ⟨_, rfl, (s.fatal_ftSet ..).trans h⟩
  case ftMeasAtWrite | auxExit | forcedRefresh | ftAlignStatRead | ftClkInAbsent | ftClkInReturn | ftClkInvert | ftDistribute | ftNowRead
      | ftPpsOutPulse | holdoverBoundCheck | hotReset | hrefclkLost | hrefclkReturn | linkTrainingEnd | networkLinkDown | openDrainFault
      | perstDeassert | ppsEdge | ppsOutContend | sourceLost | strapTest | sysclkLost | sysclkReturn | thermCrit | thermForcingEnd
      | thermStep | thermThrottle =>
    exact ⟨_, rfl, by simp [doFtMeasAtWrite, doAuxExit, doForcedRefresh, doFtAlignStatRead, doFtClkInAbsent, doFtClkInReturn,
      doFtClkInvert, doFtDistribute, doFtNowRead, doFtPpsOutPulse, doHoldoverBoundCheck, doHotReset, doHrefclkLost, doHrefclkReturn,
      doLinkTrainingEnd, doNetworkLinkDown, doOpenDrainFault, doPerstDeassert, doPpsEdge, doPpsOutContend, doSourceLost, doStrapTest,
      doSysclkLost, doSysclkReturn, doThermCrit, doThermForcingEnd, doThermStep, doThermThrottle, h]⟩
  case calWindow | refresh | scrubPass =>
    exact ⟨_, rfl, (s.fatal_onDie fun u => by simp [doCalWindow, doRefresh, doScrubPass]).trans h⟩
  case rekeyGraceExpire | l0pNarrow | l0pWiden =>
    refine ⟨_, rfl, (s.fatal_onDie fun u => ?_).trans h⟩
    simp only [doRekeyGraceExpire, doL0pNarrow, doL0pWiden]
    split <;> simp
  case debugSessionExpire | eventMctpSend | flr | flrComplete | l1Entry | ppsOutCfgApply | vfEnableChange | iterationTimeout
      | steerHoldExpired | unsupportedRequest | ftStep | ppsInFall | profileRecoveryTimeout =>
    refine ⟨_, rfl, ?_⟩
    simp only [doDebugSessionExpire, doEventMctpSend, doFlr, doFlrComplete, doL1Entry, doPpsOutCfgApply, doVfEnableChange,
      doIterationTimeout, doSteerHoldExpired, doUnsupportedRequest, doFtStep, doPpsInFall, doProfileRecoveryTimeout]
    repeat' split
    all_goals simp [h]
  all_goals cases hi

end

/-- Settles O60: of the rows that can change a FATAL state at all, the five resets alone can end it, and the idle block passes time. -/
theorem fatalEndsOnlyAtReset : Obligations.FatalEndsOnlyAtReset := by
  unfold Obligations.FatalEndsOnlyAtReset
  refine ⟨fun s t h hfront hstep => ?step, fun s i code c h hp => exec_packet_fatal h hp, fun s i h hi => exec_fatal h hi⟩
  case step =>
    cases hpend : s.pending with
    | nil =>
      cases (step_nil hpend).symm.trans hstep
      exact State.fatal_idle h
    | cons i rest =>
      have hi : mayReset i = false := hfront i (by simp [hpend])
      have hexec : exec i { s with pending := rest } = .next t := (step_cons hpend).symm.trans hstep
      cases hact : actsInFatal i with
      | false =>
        cases (exec_fatal (s := { s with pending := rest }) h hact).symm.trans hexec
        exact h
      | true =>
        obtain ⟨u, hu, hfatal⟩ := exec_stays_fatal (s := { s with pending := rest }) h (i := i) (by simp [hact, hi])
        cases hu.symm.trans hexec
        exact hfatal

end Sys2Proof.Machine
end

section
/-! SUPPORT. The queue manager's turns (03 R82, R93, R102, R103): the check of the head of a queue, a NOP, completions and the write-back block. -/

namespace Sys2Proof.Machine

/-! ### The table of the queues -/

theorem Tab.get_mod_self {α : Type} (t : Tab α) (k : Nat) (f : α → α) : (t.mod k f).get k = (t.get k).map f := by
  induction t with
  | nil => rfl
  | cons x t ih =>
    obtain ⟨j, w⟩ := x
    by_cases hj : j = k
    · simp [Tab.mod, Tab.get, hj]
    · simp [Tab.mod, Tab.get, hj, ih]

theorem Tab.get_set_ne {α : Type} (t : Tab α) {k j : Nat} (v : α) (hne : j ≠ k) : (t.set k v).get j = t.get j := by
  induction t with
  | nil => simp [Tab.set, Tab.get, hne.symm]
  | cons x t ih =>
    obtain ⟨i, w⟩ := x
    simp only [Tab.set]
    split
    · simp [Tab.get, hne.symm]
    · split
      · next hi => simp [Tab.get, ← hi, hne.symm]
      · simp [Tab.get, ih]

theorem State.queue_onQueue (s : State) (qid : Nat) (f : Queue → Queue) : (s.onQueue qid f).queue qid = (s.queue qid).map f :=
  Tab.get_mod_self ..

@[simp] theorem State.queue_countBy (s : State) (kind index word n qid : Nat) : (s.countBy kind index word n).queue qid = s.queue qid := by
  simp [State.queue, State.countBy]

@[simp] theorem State.queue_count (s : State) (kind index word qid : Nat) : (s.count kind index word).queue qid = s.queue qid :=
  s.queue_countBy ..

/-! ### The head of a queue -/

/-- A queue whose head may be checked: its queue is neither stopped nor reset, and its head stands (03 R102). -/
structure HeadOpen (s : State) (qid : Nat) (q : Queue) : Prop where
  queue : s.queue qid = some q
  alive : s.fatal = false
  unblocked : s.blocked q = false
  masters : s.ownerHeld q.owner = false
  notResetting : s.ownerResetting q.owner = false
  dma : s.dmaTakes qid q = true
  room : s.opsOnTile q.home < 65536
  noReset : q.resetAt = none
  runs : q.state = .enabled ∨ q.state = .draining
  unchecked : q.headOk = false
  notReading : q.headReading = false

section
variable {u : State} {qid : Nat} {q : Queue}

theorem HeadOpen.checkHead (h : HeadOpen u qid q) : u.checkHead qid =
    if q.failed.has q.c then u.endFailed qid 64
    else match q.cache.get q.c with
      | none => u
      | some e =>
        if q.cls == .cmdSq then u.headCommand qid e
        else match headCheckSlot q.cls (q.owner == .firmware) e with
          | some st => u.endHead qid st (u.headC12 qid q e) e
          | none => match q.headEnd with
            | some st => u.endHead qid st (u.headC12 qid q e) e
            | none => if usesTable q.cls e && q.headFrags.isNone then u.headTable qid q e else u.headFinish qid q e := by
  have hroom : ¬ 65536 ≤ u.opsOnTile q.home := Nat.not_le.2 h.room
  have hruns : (q.state == .enabled || q.state == .draining) = true := by simpa using h.runs
  simp [State.checkHead, h.queue, h.alive, h.unblocked, h.masters, h.notResetting, h.dma, hroom, h.noReset, hruns, h.unchecked,
    h.notReading] <;> rfl

theorem HeadOpen.checkHead_failed (h : HeadOpen u qid q) (hf : q.failed.has q.c = true) : u.checkHead qid = u.endFailed qid 64 := by
  simp [h.checkHead, hf]

theorem HeadOpen.checkHead_uncached (h : HeadOpen u qid q) (hf : q.failed.has q.c = false) (hc : q.cache.get q.c = none) :
    u.checkHead qid = u := by
  simp [h.checkHead, hf, hc]

theorem HeadOpen.checkHead_cached (h : HeadOpen u qid q) {e : Bytes} (hf : q.failed.has q.c = false) (hc : q.cache.get q.c = some e) :
    u.checkHead qid =
      if q.cls = .cmdSq then u.headCommand qid e
      else match headCheckSlot q.cls (q.owner == .firmware) e, q.headEnd with
        | some st, _ => u.endHead qid st (u.headC12 qid q e) e
        | none, some st => u.endHead qid st (u.headC12 qid q e) e
        | none, none => if usesTable q.cls e && q.headFrags.isNone then u.headTable qid q e else u.headFinish qid q e := by
  simp only [h.checkHead, hf, hc, Bool.false_eq_true, if_false, beq_iff_eq]
  cases headCheckSlot q.cls (q.owner == .firmware) e <;> cases q.headEnd <;> rfl

end

/-- The queue manager's turn at a queue: its tile fetches on, then the head is checked. -/
theorem State.headCheck_some {s : State} {qid : Nat} {p : Queue} (hp : s.queue qid = some p) (hs : s.fatal = false) :
    s.headCheck qid = (s.fetchRound p.home).checkHead qid := by
  simp [State.headCheck, hp, hs]

theorem headCheckSlot_of_badOp {c : QClass} {e : Bytes} (h : entryOp e ∉ c.ops) (fw : Bool) : headCheckSlot c fw e = some St.badOp := by
  simp [headCheckSlot, h]

/-- The last checks of an entry: its fragments, then its class, then the reserved bytes (03 R102). -/
theorem State.headFinish_eq (s : State) (qid : Nat) (q : Queue) (e : Bytes) {l : List Frag} {x : State × Option Nat}
    (hl : l = entryFrags q.cls e q.headFrags) (hx : x = if entryOp e = 0 then (s, none) else s.headClass qid q e l) :
    s.headFinish qid q e = match headCheckFrags q.cls (q.owner == .firmware) e l, x.2 with
      | some st, _ => s.endHead qid st (s.headC12 qid q e) e
      | none, some st => x.1.endHead qid st (x.1.headC12 qid q e) e
      | none, none => if entryOp e ≠ 0 ∧ entryReservedZero q.cls e = false ∧ x.1.freeVal % 2 = 1 then x.1.useFree.queueHostError qid
          else x.1.onQueue qid fun q => { q with headOk := true } := by
  obtain ⟨v, st⟩ := x
  unfold State.headFinish
  rw [← hl]
  dsimp only
  rw [← hx]
  cases headCheckFrags q.cls (q.owner == .firmware) e l <;> cases st <;> rfl

/-- A NOP that may start. -/
theorem doNop_ready {s : State} {qid : Nat} {q : Queue} {e : Bytes} {u : State × Bool} (hr : s.readyHead qid = some (q, e))
    (hop : entryOp e = 0) (hcls : q.cls ≠ .cmdSq) (hu : u = if q.cls = .pktRx ∨ q.cls = .krmRq then (s, true) else s.shaperGo qid 0) :
    doNop qid s = if u.2 = true then u.1.endHead qid St.ok (u.1.headC12 qid q e) e else u.1 := by
  obtain ⟨v, go⟩ := u
  by_cases hrx : q.cls = .pktRx ∨ q.cls = .krmRq
  · rw [if_pos hrx] at hu
    cases hu
    simp [doNop, hr, hop, hcls, hrx]
  · rw [if_neg hrx] at hu
    simp only [doNop, hr, hop, ne_eq, not_true_eq_false, hcls, or_self, if_false, Bool.or_eq_true, beq_iff_eq, hrx, ← hu]
    cases go <;> simp

/-! ### Completions -/

section
variable {s : State} {cq : Nat} {q : Queue} (hq : s.queue cq = some q) (hs : s.fatal = false) (hcls : q.cls = .cq) (hen : q.state = .enabled)
include hq hs hcls hen

theorem State.writeNext_due (hheld : s.ownerHeld q.owner = false) {c : Compl} {l : List Compl} (hh : q.held = []) (hd : q.due = c :: l) :
    s.writeNext cq =
      if c.suppressed then (s.onQueue cq fun q => { q with due := l }).afterCompl c
      else if q.full then (s.onQueue cq fun q => { q with due := l, held := [c] }).openEpisode cq
      else (s.onQueue cq fun q => { q with due := l }).writeCompl cq c := by
  simp [State.writeNext, hq, hs, hcls, hen, hheld, hh, hd]

theorem State.writeNext_held (hheld : s.ownerHeld q.owner = false) {c : Compl} {l : List Compl} (hh : q.held = c :: l) :
    s.writeNext cq =
      if c.suppressed then ((s.onQueue cq fun q => { q with held := l }).closeEpisode cq).afterCompl c
      else if q.full then (match q.due with
        | [] => s
        | d :: r => s.onQueue cq fun q => { q with due := r, held := q.held ++ [d] })
      else ((s.onQueue cq fun q => { q with held := l }).writeCompl cq c).closeEpisode cq := by
  simp [State.writeNext, hq, hs, hcls, hen, hheld, hh] <;> rfl

theorem State.writeNext_ownerHeld (hheld : s.ownerHeld q.owner = true) {c : Compl} {l : List Compl} (hd : q.due = c :: l) :
    s.writeNext cq =
      if c.suppressed = true ∧ q.held = [] then (s.onQueue cq fun q => { q with due := l }).afterCompl c
      else match q.owner.fnRef with
        | some f => (s.onQueue cq fun q => { q with due := l, held := q.held ++ [c] }).count Ct.hostPort f.port 4
        | none => s.onQueue cq fun q => { q with due := l, held := q.held ++ [c] } := by
  simp [State.writeNext, hq, hs, hcls, hen, hheld, hd] <;> rfl

end

/-- No finished entry goes out while the next one in index order has not finished (03 R82). -/
theorem State.release_of_notDone {s : State} {qid : Nat} {q : Queue} (hq : s.queue qid = some q) (hn : q.waitDone.get q.nextDone = none)
    (n : Nat) : s.release qid n = s := by
  cases n <;> simp [State.release, hq, hn]

theorem State.finish_waits {s : State} {qid : Nat} {q : Queue} (hq : s.queue qid = some q) (hi : q.cls.indexed = true) {idx : Nat}
    (hidx : idx ≠ q.nextDone) (hn : q.waitDone.get q.nextDone = none) (c : Compl) (st n : Nat) :
    (s.finish qid idx c st n).queue qid = some { q with waitDone := q.waitDone.set idx c } := by
  have hput : ∀ t : State, t.queue qid = some q →
      (t.onQueue qid fun q => { q with waitDone := q.waitDone.set idx c }).queue qid = some { q with waitDone := q.waitDone.set idx c } :=
    fun t ht => by rw [t.queue_onQueue, ht]; rfl
  have hwait : (q.waitDone.set idx c).get q.nextDone = none := (Tab.get_set_ne _ c hidx.symm).trans hn
  simp only [State.finish, hq, hi, if_true]
  rw [State.release_of_notDone (hput _ (by simpa using hq)) hwait]
  exact hput _ (by simpa using hq)

/-! ### The write-back block -/

theorem le_append_right (a b : Bytes) (i n : Nat) : le (a ++ b) (a.length + i) n = le b i n := by
  induction a with
  | nil => simp
  | cons x a ih => simpa [Nat.add_right_comm _ 1 i, le_cons] using ih

theorem State.wbBytes_length (s : State) (q : Queue) : (s.wbBytes q).length = 16 := by
  simp [State.wbBytes, zeros]

/-- The fields of the write-back block of a work queue (03 R93). -/
theorem State.wbBytes_fields (s : State) {q : Queue} (hcls : q.cls ≠ .cq) :
    le (s.wbBytes q) 0 2 = q.c % 65536 ∧ le (s.wbBytes q) 4 2 = (q.replayHead.getD 0) % 65536 ∧
      le (s.wbBytes q) 8 8 = s.ft % 2 ^ 64 := by
  have hwb : s.wbBytes q = toLe 2 q.c ++ (toLe 2 (q.qstat (s.blocked q)) ++ (toLe 2 (q.replayHead.getD 0) ++ (zeros 2 ++ (toLe 8 s.ft ++ [])))) := by
    simp [State.wbBytes, hcls]
  rw [hwb]
  refine ⟨le_toLe 2 .., ?_, ?_⟩
  · exact (le_append_right (toLe 2 q.c) _ 2 2).trans ((le_append_right (toLe 2 _) _ 0 2).trans (le_toLe 2 ..))
  · exact (le_append_right (toLe 2 q.c) _ 6 8).trans ((le_append_right (toLe 2 _) _ 4 8).trans
      ((le_append_right (toLe 2 _) _ 2 8).trans ((le_append_right (zeros 2) _ 0 8).trans (le_toLe 8 ..))))

theorem doWritebackBlock_due {s : State} {qid : Nat} {q : Queue} (hq : s.queue qid = some q) (hframe : s.onFrame = true)
    (hdue : q.wbDue = true) (hcls : q.cls ≠ .cq) (hs : s.fatal = false) :
    doWritebackBlock qid s = (s.onQueue qid fun q => { q with wbDue := false }).writeBack qid := by
  simp [doWritebackBlock, hq, hs, hframe, hdue, hcls]

/-- Settles O33: each clause is the case of its row, through the lemma of the operation that the row turns to. -/
theorem entriesAreCheckedAndCompletionsWritten : Obligations.EntriesAreCheckedAndCompletionsWritten := by
  unfold Obligations.EntriesAreCheckedAndCompletionsWritten
  refine ⟨?uncached, ?cached, ?finish, ?nop, ?due, ?held, ?ownerHeld, ?waits, ?block⟩
  case uncached =>
    intro s u qid p q hp hs hu hq hal hbl hheld hres hdma hroom hreset hrun hok hread
    have hopen : HeadOpen u qid q := ⟨hq, hal, hbl, hheld, hres, hdma, hroom, hreset, hrun, hok, hread⟩
    have hturn : s.headCheck qid = u.checkHead qid := hu ▸ State.headCheck_some hp hs
    exact ⟨fun hf => congrArg Host.Outcome.next (hturn.trans (hopen.checkHead_failed hf)),
      fun hf hc => congrArg Host.Outcome.next (hturn.trans (hopen.checkHead_uncached hf hc))⟩
  case cached =>
    intro s u qid p q e hp hs hu hq hal hbl hheld hres hdma hroom hreset hrun hok hread hf hc
    have hopen : HeadOpen u qid q := ⟨hq, hal, hbl, hheld, hres, hdma, hroom, hreset, hrun, hok, hread⟩
    have hturn : s.headCheck qid = u.checkHead qid := hu ▸ State.headCheck_some hp hs
    exact congrArg Host.Outcome.next (hturn.trans (hopen.checkHead_cached hf hc))
  case finish =>
    intro s qid q e l x hl hx
    exact ⟨fun h => headCheckSlot_of_badOp h _, s.headFinish_eq qid q e hl hx⟩
  case nop =>
    intro s qid q e u hr hop hcls hu
    exact congrArg Host.Outcome.next (doNop_ready hr hop hcls hu)
  case due =>
    intro s cq q c l hq hs hcls hen hheld hh hd
    exact congrArg Host.Outcome.next (State.writeNext_due hq hs hcls hen hheld hh hd)
  case held =>
    intro s cq q c l hq hs hcls hen hheld hh
    exact congrArg Host.Outcome.next (State.writeNext_held hq hs hcls hen hheld hh)
  case ownerHeld =>
    intro s cq q c l hq hs hcls hen hheld hd
    exact congrArg Host.Outcome.next (State.writeNext_ownerHeld hq hs hcls hen hheld hd)
  case waits =>
    intro s qid idx st n q c hq hi hidx hn
    exact State.finish_waits hq hi hidx hn c st n
  case block =>
    intro s0 s qid q hseen hq hframe hdue hcls hs
    subst hseen
    exact ⟨congrArg (fun v => Host.Outcome.next (s0.backFrom v)) (doWritebackBlock_due hq hframe hdue hcls hs),
      State.wbBytes_length .., State.wbBytes_fields _ hcls⟩

end Sys2Proof.Machine
end

section
/-! SUPPORT. The four doorbell rows and the ends of a fetch (03 R95 to R100, R103): one lemma per case of a doorbell write. -/

namespace Sys2Proof.Machine

/-! ### The four forms of a doorbell write -/

/-- The four doorbell rows are one write (03 R95). -/
theorem exec_doorbells {s t : State} {w : BarWrite} (h : s.doorbell w = t) :
    exec (.doorbellWork w) s = .next t ∧ exec (.doorbellInv w) s = .next t ∧
      exec (.doorbellCq w) s = .next t ∧ exec (.doorbellArm w) s = .next t :=
  have hrow := congrArg Host.Outcome.next h
  ⟨hrow, hrow, hrow, hrow⟩

section
variable {s : State} {w : BarWrite}

theorem State.doorbell_shut (h : s.barOpen w.fn = false ∨ s.fatal = true) : s.doorbell w = s := by
  simp [State.doorbell, h]

section
variable (hopen : s.barOpen w.fn = true) (hs : s.fatal = false)
include hopen hs

theorem State.doorbell_reject (ht : s.dbTarget w = none) : s.doorbell w = s.dbReject w := by
  simp [State.doorbell, hopen, hs, ht]

variable {q : Queue} (ht : s.dbTarget w = some q)
include ht

/-- What a doorbell of a queue of the writer does (03 R95 to R100). -/
theorem State.doorbell_target : s.doorbell w =
    if 2 ^ 34 ≤ w.value.toNat then s.queueHostError (dbQid w)
    else if q.state ≠ .enabled then s.count Ct.func (fnWord w.fn) 1
    else if q.cls = .cq then s.ringCq q w else s.ringWork q w := by
  simp [State.doorbell, hopen, hs, ht]

theorem State.doorbell_notRinging (h : 2 ^ 34 ≤ w.value.toNat ∨ q.state ≠ .enabled) : s.doorbell w =
    if 2 ^ 34 ≤ w.value.toNat then s.queueHostError (dbQid w) else s.count Ct.func (fnWord w.fn) 1 := by
  rw [State.doorbell_target hopen hs ht]
  exact ite_congr rfl (fun _ => rfl) fun hval => if_pos (h.resolve_left hval)

theorem State.doorbell_rings (hval : w.value.toNat < 2 ^ 34) (hen : q.state = .enabled) : s.doorbell w =
    if q.cls = .cq then s.ringCq q w else s.ringWork q w := by
  rw [State.doorbell_target hopen hs ht, if_neg (Nat.not_le.2 hval), if_neg (not_not.2 hen)]

theorem State.doorbell_work (hval : w.value.toNat < 2 ^ 34) (hen : q.state = .enabled) (hcls : q.cls ≠ .cq) :
    s.doorbell w = s.ringWork q w :=
  (State.doorbell_rings hopen hs ht hval hen).trans (if_neg hcls)

theorem State.doorbell_cq (hval : w.value.toNat < 2 ^ 34) (hen : q.state = .enabled) (hcls : q.cls = .cq) :
    s.doorbell w = s.ringCq q w :=
  (State.doorbell_rings hopen hs ht hval hen).trans (if_pos hcls)

end

/-! ### The ends of a fetch -/

variable {tag qid idx n : Nat} {r : HostReadSt} (hr : s.readOut tag = some r) (hwhy : r.why = .entries qid idx n)
include hr hwhy

theorem doEntryFetchDone_entries (b : Bytes) :
    doEntryFetchDone tag b s = if r.dead then s.dropRead tag else (s.dropRead tag).entriesArrive qid idx n b := by
  simp [doEntryFetchDone, hr, hwhy]

theorem doEntryFetchFail_entries {how : ReadEnd} (hhow : readStatus how ≠ St.ok) :
    doEntryFetchFail tag how s = if r.dead then s.dropRead tag else (s.dropRead tag).entriesFail qid idx n (readStatus how) := by
  simp [doEntryFetchFail, hr, hwhy, hhow]

end

/-- Settles O32: the four doorbell rows are one write, which has one case for each clause. -/
theorem doorbellsRingTheirQueues : Obligations.DoorbellsRingTheirQueues := by
  unfold Obligations.DoorbellsRingTheirQueues
  refine ⟨?shut, ?reject, ?notRinging, ?work, ?cq, ?done, ?fail⟩
  case shut =>
    intro s w h
    exact exec_doorbells (State.doorbell_shut h)
  case reject =>
    intro s u w hopen hs ht hu
    exact exec_doorbells ((State.doorbell_reject hopen hs ht).trans hu.symm)
  case notRinging =>
    intro s u w q hopen hs ht h hu
    exact exec_doorbells ((State.doorbell_notRinging hopen hs ht h).trans hu.symm)
  case work =>
    intro s u w q hopen hs ht hval hen hcls hu
    subst hu
    exact exec_doorbells (State.doorbell_work hopen hs ht hval hen hcls)
  case cq =>
    intro s u w q hopen hs ht hval hen hcls hu
    subst hu
    exact exec_doorbells (State.doorbell_cq hopen hs ht hval hen hcls)
  case done =>
    intro s tag qid idx n b r hr hwhy
    exact congrArg Host.Outcome.next (doEntryFetchDone_entries hr hwhy b)
  case fail =>
    intro s tag qid idx n how r hr hwhy hhow
    exact congrArg Host.Outcome.next (doEntryFetchFail_entries hr hwhy hhow)

end Sys2Proof.Machine
end

section
/-! SUPPORT. The QUEUE commands (03 R88 to R91, R106): what is left of a queue that service firmware made and Buckram takes back, and the reply of
each command; O34 from these. -/

namespace Sys2Proof.Machine

/-! ### A table with one entry more -/

theorem Tab.del_set {α : Type} {t : Tab α} {k : Nat} (h : t.get k = none) (v : α) : (t.set k v).del k = t := by
  induction t with
  | nil => simp [Tab.set, Tab.del]
  | cons x t ih =>
    obtain ⟨j, w⟩ := x
    have hne : j ≠ k := fun e => by simp [Tab.get, e] at h
    have ht : Tab.get t k = none := by simpa [Tab.get, hne] using h
    simp only [Tab.set, if_neg hne.symm]
    split
    · simp [Tab.del]
    · simp [Tab.del, hne, ih ht]

/-- The entry put in is the one that is found by a property that none of the others has. -/
theorem Tab.find?_set {α : Type} {t : Tab α} {k : Nat} {v : α} {p : Nat × α → Bool} (hp : p (k, v) = true)
    (ht : ∀ x ∈ t, p x = false) : (t.set k v).find? p = some (k, v) := by
  induction t with
  | nil => simp [Tab.set, hp]
  | cons x t ih =>
    obtain ⟨j, w⟩ := x
    simp only [Tab.set]
    split
    · simp [hp]
    · split
      · simp [hp]
      · simp [ht (j, w) (by simp), ih fun y hy => ht y (by simp [hy])]

theorem Tab.has_iff {α : Type} {t : Tab α} {k : Nat} : t.has k = true ↔ ∃ v, (k, v) ∈ t := by
  induction t with
  | nil => simp [Tab.has, Tab.get]
  | cons x t ih =>
    obtain ⟨j, w⟩ := x
    by_cases hj : j = k
    · simp [Tab.has, Tab.get, hj]
    · simpa [Tab.has, Tab.get, hj, Ne.symm hj] using ih

theorem Tab.eq_or_mem_of_mem_set {α : Type} {t : Tab α} {k : Nat} {v : α} {x : Nat × α} (h : x ∈ t.set k v) : x = (k, v) ∨ x ∈ t := by
  induction t with
  | nil => simpa [Tab.set] using h
  | cons y t ih =>
    obtain ⟨j, w⟩ := y
    simp only [Tab.set] at h
    split at h
    · simpa using h
    · split at h
      · rcases List.mem_cons.1 h with rfl | h
        · exact .inl rfl
        · exact .inr (List.mem_cons_of_mem _ h)
      · rcases List.mem_cons.1 h with rfl | h
        · exact .inr (by simp)
        · exact (ih h).imp_right (List.mem_cons_of_mem _)

/-- A choice among a list is made as long as there is one. -/
theorem isSome_getElem?_mod {α : Type} (l : List α) (n : Nat) : (l[n % l.length]?).isSome = true ↔ ∃ a, a ∈ l := by
  rw [isSome_getElem?, ← List.length_pos_iff_exists_mem]
  exact ⟨fun h => Nat.zero_lt_of_lt h, fun h => Nat.mod_lt _ h⟩

/-! ### Both parts of a command that service firmware and Buckram apply -/

/-- A command whose opcode takes no parameter block has none where checks 1 to 8 pass. -/
theorem State.noBlock_of_precheck {s : State} {code : Nat} {c : Cmd} {who : Caller} {i : OpInfo} {deny lenOk ex form found : Bool}
    (hi : opInfo code = some i) (hpb : i.pb = false) (h : s.precheck code c who true deny lenOk ex form found = none) :
    c.pbLen = 0 ∧ cmdPbForm c = 0 := by
  have hpc : pbCheck i c lenOk = none := by
    unfold State.precheck at h
    simp only [hi, Bool.not_true, Bool.false_and, Bool.false_eq_true, if_false] at h
    split at h
    · cases h
    · split at h
      · cases h
      · split at h
        · cases h
        · next hp => exact hp
  unfold pbCheck at hpc
  split at hpc
  · cases hpc
  · next hc => simp_all

theorem State.blockMeet_of_noBlock (s : State) {c : Cmd} (h : cmdPbForm c = 0) : s.blockMeet c = s := by
  simp [State.blockMeet, h]

/-- A command that service firmware's part passes on to an idle mailbox, then Buckram's turn at it. -/
theorem State.bkPart_served {s t : State} {code : Nat} {c : Cmd} {who : Caller} {env : BkEnv} {deny found : Caller → State → Bool}
    {lenOk ex : Bool} {part : Caller → State → State × Option Nat}
    (h : s.accepts code c who (deny who (s.taken code c)) lenOk ex true (found who (s.taken code c)) = true)
    (hi : s.mailboxIdle = true) (hpart : part who (s.taken code c) = (t, none)) (hcmd : t.cmd = (s.taken code c).cmd)
    (hfatal : t.fatal = (s.taken code c).fatal) (hpower : t.power = (s.taken code c).power) (hpins : t.pins = (s.taken code c).pins) :
    doBuckramRequest env (s.bkPart code c deny lenOk ex part found) = bkOpcode code (t.blockFor c env) who env (t.blockMeet c) := by
  obtain ⟨hw, hm, hp⟩ := State.accepts_iff.1 h
  simp only [State.mailboxIdle, Bool.and_eq_true, List.isEmpty_iff] at hi
  obtain ⟨hbox, hrota, hf, hpow, hpin, -⟩ := s.taken_frame code c
  have hg : s.gate code c.src = .run := by
    simp only [State.mayStart, Bool.and_eq_true, decide_eq_true_eq] at hm
    exact hm.1.1
  obtain ⟨g1, g2, g3, g4⟩ := State.gate_run hg
  obtain ⟨hflags, hagain⟩ := State.precheck_none hp
  have hroom : (s.taken code c).mailboxFull = false := by simp [State.mailboxFull, hbox, hi.1]
  have hsent : s.bkPart code c deny lenOk ex part found = t.toBuckram code c who := by
    unfold State.bkPart
    rw [State.start_taken hw hm]
    simp [hflags, hagain, hpart, hroom]
  rw [hsent, State.toBuckram_served env (by simp [hfatal, hf, g1]) (by rw [hpower, hpow]; exact g2) (by simp [hpins, hpin, g3])
    (by rw [hpower, hpow]; exact g4) (by rw [hcmd, hbox, hi.1]) (by rw [hcmd, hrota, hi.2])]

/-! ### A queue that is made -/

/-- A check that refuses or goes on refuses nothing where it goes on and what follows refuses nothing. -/
theorem refuse_eq_none {p : Prop} [Decidable p] {e : Nat} {x : Option Nat} : (if p then some e else x) = none ↔ ¬ p ∧ x = none := by
  split <;> simp_all

/-- What a queue that is added changes: the queues, its counters, and the channels of its home (03 R88, 11 R302). -/
theorem State.addQueue_eq (s : State) (qid : Nat) (q : Queue) : ∃ x d, (∀ k v, (k, v) ∈ d → v.qid ≠ qid → (k, v) ∈ s.dma) ∧
    s.addQueue qid q = { s with ct := x, dma := d, qm := { s.qm with queues := s.qm.queues.set qid q } } := by
  unfold State.addQueue
  dsimp only
  split
  · split
    · refine ⟨_, _, fun k v hkv hne => ?_, rfl⟩
      rcases Tab.eq_or_mem_of_mem_set hkv with he | hmem
      · cases he
        exact absurd rfl hne
      · exact hmem
    · exact ⟨_, _, fun _ _ h _ => h, rfl⟩
  · exact ⟨_, _, fun _ _ h _ => h, rfl⟩

theorem State.addQueue_frame (s : State) (qid : Nat) (q : Queue) : (s.addQueue qid q).cmd = s.cmd ∧ (s.addQueue qid q).fatal = s.fatal ∧
    (s.addQueue qid q).power = s.power ∧ (s.addQueue qid q).pins = s.pins := by
  obtain ⟨x, d, -, he⟩ := s.addQueue_eq qid q
  rw [he]
  exact ⟨rfl, rfl, rfl, rfl⟩

/-- A state with other values used, other counters and other DMA channels: what the making of a queue leaves behind. -/
def State.withUse (s : State) (n : Nat) (x : CtSt) (d : Tab DmaChan) : State := { s with free := n, ct := x, dma := d }

/-- What is left of a new queue once it is taken back: fewer counters, and no channel more. -/
theorem State.unmake_addQueue (s : State) {qid : Nat} (hq : s.queue qid = none) (q : Queue) :
    ∃ x d, (∀ k, d.has k = true → s.dma.has k = true) ∧ (s.addQueue qid q).unmake qid = s.withUse s.free x d := by
  obtain ⟨x, d, hd, he⟩ := s.addQueue_eq qid q
  refine ⟨x, d.filter fun (_, x) => x.qid != qid, fun k hk => ?_, ?_⟩
  · obtain ⟨v, hv⟩ := Tab.has_iff.1 hk
    obtain ⟨hmem, hne⟩ := List.mem_filter.1 hv
    exact Tab.has_iff.2 ⟨v, hd k v hmem (by simpa using hne)⟩
  · rw [he]
    simp only [State.unmake, State.onDma, State.onQm, State.withUse, Tab.del_set hq]

section
variable {t : State} {n : Nat} {x : CtSt} {d : Tab DmaChan} (hd : ∀ k, d.has k = true → t.dma.has k = true)
include hd

/-- A tile with a free channel keeps one where no channel is added. -/
theorem State.dmaFree_isSome_of_fewer {k : Nat} (h : (t.dmaFree k).isSome = true) :
    ((t.withUse n x d).dmaFree k).isSome = true := by
  obtain ⟨i, hi, hfree⟩ := List.find?_isSome.1 h
  refine List.find?_isSome.2 ⟨i, hi, ?_⟩
  rw [Bool.not_eq_true'] at hfree ⊢
  exact Bool.eq_false_iff.2 fun hh => by simp [hd _ hh] at hfree

/-- A new queue's home is found where it was. -/
theorem State.createHome_isSome_of_fewer {c : Cmd} {cls : QClass} (h : (t.createHome c cls).isSome = true) :
    ((t.withUse n x d).createHome c cls).isSome = true := by
  have hfits : ∀ k, (cls != .dmaCh || (t.dmaFree k).isSome) = true →
      (cls != .dmaCh || ((t.withUse n x d).dmaFree k).isSome) = true := by
    intro k hk
    rw [Bool.or_eq_true] at hk ⊢
    exact hk.imp_right (State.dmaFree_isSome_of_fewer hd)
  unfold State.createHome at h ⊢
  dsimp only at h ⊢
  split
  · next hbit =>
    rw [if_pos hbit, isSome_getElem?_mod] at h
    obtain ⟨k, hk⟩ := h
    obtain ⟨hmem, hok⟩ := List.mem_filter.1 hk
    rw [Bool.and_eq_true] at hok
    exact (isSome_getElem?_mod _ _).2 ⟨k, List.mem_filter.2 ⟨hmem, (Bool.and_eq_true _ _).mpr ⟨hok.1, hfits k hok.2⟩⟩⟩
  · next hbit =>
    rw [if_neg hbit] at h
    split at h
    · next hf => rw [if_pos (hfits _ hf)]; rfl
    · cases h

/-- The checks of a new queue pass where they passed. -/
theorem State.queueCreateCheck_of_fewer {c : Cmd} {who : Caller} (h : t.queueCreateCheck c who = none) :
    (t.withUse n x d).queueCreateCheck c who = none := by
  have hhome : ∀ cls, (t.createHome c cls).isNone = false →
      ((t.withUse n x d).createHome c cls).isNone = false := by
    intro cls hc
    rw [← Option.not_isSome, Bool.not_eq_false'] at hc ⊢
    exact State.createHome_isSome_of_fewer hd hc
  have hslice : (t.withUse n x d).slice = t.slice := rfl
  have hscope : (t.withUse n x d).inScope = t.inScope := rfl
  have howner : (t.withUse n x d).createOwner = t.createOwner := rfl
  have htable : (t.withUse n x d).tableSize = t.tableSize := rfl
  have hcq : (t.withUse n x d).cqCheck = t.cqCheck := rfl
  have hok : (t.withUse n x d).homeOk = t.homeOk := rfl
  unfold State.queueCreateCheck at h ⊢
  simp only [hslice, hscope, howner, htable, hcq, hok] at h ⊢
  rw [refuse_eq_none] at h ⊢
  refine h.imp_right fun h => ?_
  cases hcls : QClass.ofCode (cmdByte c 16 % 16) with
  | none => simp [hcls] at h
  | some cls =>
    cases ho : t.createOwner c who with
    | none => simp [hcls, ho] at h
    | some o =>
      simp only [hcls, ho] at h ⊢
      rw [refuse_eq_none] at h ⊢
      refine h.imp_right fun h => ?_
      split at h
      · cases h
      · simp only [refuse_eq_none] at h ⊢
        obtain ⟨hexist, hroom, htile, hblk, hsome, -⟩ := h
        exact ⟨hexist, hroom, htile, hblk, Bool.eq_false_iff.1 (hhome cls (Bool.eq_false_iff.2 hsome)), trivial⟩

end

/-- A number that the checks of a new queue let through has no queue yet (03 R88). -/
theorem State.queue_of_queueCreateCheck {t : State} {c : Cmd} {who : Caller} (h : t.queueCreateCheck c who = none)
    (htgt : c.target.toNat ≠ targetNone) : t.queue c.target.toNat = none := by
  unfold State.queueCreateCheck at h
  dsimp only at h
  obtain ⟨-, h⟩ := refuse_eq_none.1 h
  split at h
  · obtain ⟨-, h⟩ := refuse_eq_none.1 h
    split at h
    · cases h
    · simpa [State.queue, Tab.has, htgt] using (refuse_eq_none.1 h).1
  · cases h

/-- The queue that service firmware writes for a QUEUE_CREATE (03 R88 R90). -/
def State.madeQueue (t : State) (c : Cmd) (cls : QClass) (o : Owner) : Queue :=
  { newQueue cls (cmdByte c 16 / 16) (cmdLe c 32 8) o (cmdLe c 20 2) ((t.createHome c cls).getD 0) (cmdLe c 22 2)
      (cmdLe c 40 8) (cmdLe c 24 2) (bit (cmdByte c 17) 2) t.ft with maker := some c }

/-- Service firmware's part of QUEUE_CREATE that passes its checks (03 R88). -/
theorem State.queueCreatePart_eq {t : State} {c : Cmd} {who : Caller} {cls : QClass} {o : Owner} (hcheck : t.queueCreateCheck c who = none)
    (hcls : QClass.ofCode (cmdByte c 16 % 16) = some cls) (ho : t.createOwner c who = some o) (htgt : c.target.toNat ≠ targetNone) :
    t.queueCreatePart c who = ((t.onFree (· + 2)).addQueue c.target.toNat (t.madeQueue c cls o), none) := by
  simp [State.queueCreatePart, State.madeQueue, hcheck, hcls, ho, htgt]

/-- Checks 1 to 8 without the look for the target's object turn on the lifecycle alone. -/
theorem State.precheck_of_trust {s t : State} (h : s.trust = t.trust) (code : Nat) (c : Cmd) (who : Caller)
    (three deny lenOk form found : Bool) :
    s.precheck code c who three deny lenOk false form found = t.precheck code c who three deny lenOk false form found := by
  simp [State.precheck, h]

/-- Buckram's part of QUEUE_CREATE: the queue that service firmware wrote for the command is bound (03 R88, 04 R125). -/
theorem bkQueueCreate_made {t u : State} {c : Cmd} {who : Caller} {q : Queue}
    (hpre : t.precheck 0x0201 c who true (queueCreateDeny c who t) true false true (t.queueCreateFound c who) = none)
    (hcheck : t.queueCreateCheck c who = none) (htgt : c.target.toNat ≠ targetNone) (hnew : ∀ x ∈ t.qm.queues, x.2.maker ≠ some c)
    (hq : q.maker = some c) (hu : u = (t.onFree (· + 2)).addQueue c.target.toNat q) :
    bkQueueCreate c who u = (u.onQueue c.target.toNat fun q => { q with maker := none }).reply 0x0201 c true (Answer.ok c.target.toNat) := by
  have hfree := State.queue_of_queueCreateCheck hcheck htgt
  obtain ⟨x, d, hd, hback⟩ := State.unmake_addQueue (t.onFree (· + 2)) (qid := c.target.toNat) hfree q
  obtain ⟨x', d', -, hadd⟩ := (t.onFree (· + 2)).addQueue_eq c.target.toNat q
  rw [← hu] at hback hadd
  have hmade : u.madeFor c = some (c.target.toNat, q) := by
    rw [hadd]
    exact Tab.find?_set (by simp [hq]) fun y hy => by simpa using hnew y hy
  have hfirst : u.precheck 0x0201 c who true (queueCreateDeny c who u) true false true
      ((u.unmake c.target.toNat).queueCreateFound c who) = none := by
    rw [hback]
    exact (State.precheck_of_trust (by rw [hadd]; rfl) ..).trans hpre
  have hown : (u.unmake c.target.toNat).queueCreateCheck c who = none := by
    rw [hback]
    exact State.queueCreateCheck_of_fewer (t := t) (n := t.free + 2) hd hcheck
  unfold bkQueueCreate
  simp only [hmade, hfirst, hown]

/-! ### The QUEUE commands -/

/-- QUEUE_CREATE, then Buckram's turn at it. -/
theorem doQueueCreate_served {s t : State} {c : Cmd} {who : Caller} (env : BkEnv) {cls : QClass} {o : Owner}
    (h : s.accepts 0x0201 c who (queueCreateDeny c who s) true false true ((s.taken 0x0201 c).queueCreateFound c who) = true)
    (hidle : s.mailboxIdle = true) (ht : t = s.taken 0x0201 c) (hcheck : t.queueCreateCheck c who = none)
    (hcls : QClass.ofCode (cmdByte c 16 % 16) = some cls) (ho : t.createOwner c who = some o) (htgt : c.target.toNat ≠ targetNone)
    (hnew : ∀ x ∈ t.qm.queues, x.2.maker ≠ some c) :
    doBuckramRequest env (doQueueCreate c s) = (((t.onFree (· + 2)).addQueue c.target.toNat (t.madeQueue c cls o)).onQueue
      c.target.toNat fun q => { q with maker := none }).bkAnswer 0x0201 c (Answer.ok c.target.toNat) := by
  subst ht
  obtain ⟨-, -, hp⟩ := State.accepts_iff.1 h
  obtain ⟨-, hpre⟩ := State.precheck_none hp
  obtain ⟨hlen, hform⟩ := State.noBlock_of_precheck (i := opRow 0x0201 [.p, .v, .s, .f] .both .qid [(16, 10), (32, 16)] true) rfl rfl hpre
  obtain ⟨hcmd, hfatal, hpower, hpins⟩ :=
    ((s.taken 0x0201 c).onFree (· + 2)).addQueue_frame c.target.toNat ((s.taken 0x0201 c).madeQueue c cls o)
  have hroom : (s.taken 0x0201 c).mailboxFull = false := by
    obtain ⟨hbox, -⟩ := s.taken_frame 0x0201 c
    simp only [State.mailboxIdle, Bool.and_eq_true, List.isEmpty_iff] at hidle
    simp [State.mailboxFull, hbox, hidle.1]
  unfold doQueueCreate
  rw [State.bkPart_served (part := fun who s => if s.mailboxFull then _ else _) h hidle
    (by simp only [hroom, Bool.false_eq_true, if_false, State.queueCreatePart_eq hcheck hcls ho htgt]) hcmd hfatal hpower hpins,
    State.blockFor_of_noBlock _ env hlen, State.blockMeet_of_noBlock _ hform]
  exact bkQueueCreate_made hpre hcheck htgt hnew rfl rfl

/-- QUEUE_DESTROY of a queue for which no shaper change waits. -/
theorem bkQueueDestroy_destroys {s : State} {c : Cmd} {who : Caller} {q : Queue}
    (hpre : s.precheck 0x0204 c who true false true true true true = none) (hq : s.queue c.target.toNat = some q)
    (hcheck : s.queueDestroyCheck c.target.toNat = none) (hpend : q.shaper.pend = []) :
    bkQueueDestroy c who s = (s.destroyQueue c.target.toNat).bkAnswer 0x0204 c Answer.ok := by
  unfold bkQueueDestroy
  rw [State.bkApply_accepted hpre]
  simp [hcheck, hq, hpend, State.bkAnswer]

theorem State.ownerWrite_cmd (s : State) (o : Owner) (a : Nat) (b : Bytes) (ro : Bool) : (s.ownerWrite o a b ro).1.cmd = s.cmd := by
  unfold State.ownerWrite
  split
  · split
    · next hw => exact (congrArg State.cmd (State.devWrite_beyondEvents hw) :)
    · rfl
  · split
    · exact foldl_keeps State.cmd (fun s (x : Nat × Bytes) => s.emit (.hostWrite _ x.1 x.2 _)) (fun _ _ => rfl) ..
    · rfl

/-- A write-back block that a work queue gets leaves commands as they are. -/
theorem State.writeBack_cmd {s : State} {qid : Nat} {q : Queue} (hq : s.queue qid = some q) (hcls : q.cls ≠ .cq) :
    (s.writeBack qid).cmd = s.cmd := by
  simp only [State.writeBack, hq, if_neg hcls]
  split
  · rfl
  · split
    · rfl
    · exact s.ownerWrite_cmd ..

theorem State.quiesceReplies_of_none {s : State} (h : s.cmd.quiesce = []) : s.quiesceReplies = s := by
  have hnone : (s.cmd.quiesce.filter fun (_, _, l) => !(l.all s.quiet)) = s.cmd.quiesce := by simp [h]
  have hsame : (s.onCmd fun m => { m with quiesce := m.quiesce.filter fun (_, _, l) => !(l.all s.quiet) }) = s :=
    State.onCmd_congr (g := id) (congrArg (fun l => { s.cmd with quiesce := l }) hnone)
  simp [State.quiesceReplies, h, hsame]

/-- A drained queue of a function, for which no command waits, goes idle (03 R89). -/
theorem doQueueIdle_drained {s : State} {qid : Nat} {q : Queue} (hq : s.queue qid = some q) (hs : s.fatal = false)
    (hdrained : s.drained qid = true) (hsid : q.owner.sid = none) (hcmds : q.disableCmds = []) (hquiesce : s.cmd.quiesce = [])
    (hcommand : q.command = false) (hcls : q.cls ≠ .cq) :
    doQueueIdle qid s = (s.onQueue qid fun q => { q with state := .idle, disableCmds := [], replayHead := none }).writeBack qid := by
  have hnone : ((s.onQueue qid fun q => { q with state := .idle, disableCmds := [], replayHead := none }).writeBack qid).cmd.quiesce = [] := by
    rw [State.writeBack_cmd (q := { q with state := .idle, disableCmds := [], replayHead := none }) (by rw [State.queue_onQueue, hq]; rfl) hcls]
    exact hquiesce
  simp [doQueueIdle, hs, hdrained, hq, hsid, hcmds, hcommand, State.quiesceReplies_of_none hnone]

theorem doHomeMove_due {s u : State} {qid t : Nat} {q : Queue} (hq : s.queue qid = some q) (hs : s.fatal = false)
    (hto : q.moveTo = some t) (hdue : s.dueAt q.moveAt s.onRebalance = true)
    (hu : u = s.onQueue qid fun q => { q with moveTo := none, moveCmds := [] }) :
    doHomeMove qid s = q.moveCmds.foldl (fun x c => x.reply 0x0206 c false
      { Answer.ok (x.rebalanceFt % 2 ^ 32) with ft := some x.rebalanceFt })
        (if u.homeFor t qid = q.home then u else u.rehome qid (u.homeFor t qid)) := by
  subst hu
  simp [doHomeMove, hq, hs, hto, hdue]

/-- Settles O34: service firmware's commands by their acceptance, the two of Buckram by its turn, and the two that follow them by their own
cases. -/
theorem queuesAreCreatedEnabledAndMoved : Obligations.QueuesAreCreatedEnabledAndMoved := by
  unfold Obligations.QueuesAreCreatedEnabledAndMoved
  refine ⟨?create, ?destroy, ?enable, ?disable, ?idle, ?query, ?move, ?homeMove⟩
  case create =>
    intro s t c who env cls o h hidle ht hcheck hcls ho htgt hnew
    exact ⟨_, rfl, congrArg Host.Outcome.next (doQueueCreate_served env h hidle ht hcheck hcls ho htgt hnew)⟩
  case destroy =>
    intro s c who env q h hq hcheck hpend
    obtain ⟨-, -, -, -, hp⟩ := State.bkAccepts_iff.1 h
    obtain ⟨-, hpre⟩ := State.precheck_none hp
    exact ⟨_, rfl, congrArg Host.Outcome.next ((State.bk_served h).trans (bkQueueDestroy_destroys hpre hq hcheck hpend))⟩
  case enable =>
    intro s c who q h hq hcommand hstate hcq
    refine congrArg Host.Outcome.next ((State.sf_accepted h).trans ?_)
    rcases hcq with hcq | ⟨k, hk, hen⟩
    · rcases hstate with hst | hst <;> simp [hq, hcommand, hst, hcq, State.answer]
    · rcases hstate with hst | hst <;> simp [hq, hcommand, hst, hk, hen, State.answer]
  case disable =>
    intro s c who q h hq hcommand hstate hcls
    refine congrArg Host.Outcome.next ((State.sf_accepted h).trans ?_)
    simp [hq, hcommand, hstate, hcls]
  case idle =>
    intro s qid q hq hs hdrained hsid hcmds hquiesce hcommand hcls
    exact congrArg Host.Outcome.next (doQueueIdle_drained hq hs hdrained hsid hcmds hquiesce hcommand hcls)
  case query =>
    intro s c who q h hq
    refine congrArg Host.Outcome.next ((State.sf_accepted h).trans ?_)
    simp [hq, State.answer]
  case move =>
    intro s c who q h hq ht hcommand hhome hchans hcls
    refine congrArg Host.Outcome.next ((State.sf_accepted h).trans ?_)
    have hnone : ((s.taken 0x0206 c).cy.chans.any fun (_, x) => x.jq == c.target.toNat) = false := by
      simpa [List.any_eq_false] using hchans
    have ht' : ¬ 4 ≤ cmdByte c 16 := Nat.not_le.2 ht
    simp [hq, ht', hcommand, hhome, hnone, hcls]
  case homeMove =>
    intro s0 s qid t q u v hseen hq hs hto hdue hu hv
    subst hseen hv
    exact congrArg (fun x => Host.Outcome.next (s0.backFrom x)) (doHomeMove_due hq hs hto hdue hu)

end Sys2Proof.Machine
end

section
/-! SUPPORT. A SEND entry whose frame finds no room (03 R80, 07 R189 R198): the state in which it waits, and a state that shows it; refutes O43. -/

namespace Sys2Proof.Machine

/-- A SEND entry whose frame finds no room leaves the state as it is: its shaper is not refilled. -/
theorem doPktTxSend_of_noRoom {s : State} {qid : Nat} {p q : Queue} {e : Bytes} (hr : s.readyHead qid = some (p, e))
    (hcls : p.cls = .pktTx) (hop : entryOp e = 1) (hq : (s.refill qid).queue qid = some q)
    (hroom : (s.refill qid).txRoom q qid e (txLen e (fragTotal (entryFrags .pktTx e p.headFrags))) = false) : doPktTxSend qid s = s := by
  simp [doPktTxSend, hr, hcls, hop, hq, hroom]

/-- A SEND entry of one fragment of 9,000 bytes of host memory, with its launch time at FT 0 (03 R80, 07 R201). -/
def sendOf9000 : Bytes := [1, 0, 1, 0] ++ zeros 4 ++ toLe 4 8 ++ zeros 36 ++ toLe 8 0x70000 ++ toLe 4 9000 ++ zeros 4

/-- A shaper without a rate limit and with a LIMIT of 4,096 bytes, as a refill at an instant leaves it (07 R198 R199). -/
def limitedShaper (now : Nat) : Shaper := { Shaper.fresh now with dest := .port 0 7, limit := 4096 }

/-- A PKT_TX queue with that entry at its head, checked, and that shaper. -/
def limitedQueue (now : Nat) : Queue :=
  { newQueue .pktTx 6 0x40000 .firmware 0 0 4 0x60000 0 false 0 with
    state := .enabled, p := 1, f := 1, cache := [(0, sendOf9000)], headOk := true, shaper := limitedShaper now }

/-- At FT 1,024, queue 3 is that queue, last refilled at FT 0. -/
def limitedState : State :=
  (State.reset.onTime fun x => { x with ft := 1024, osc := 1024 }).onQm fun m => { m with queues := [(3, limitedQueue 0)] }

theorem limitedState_ready : limitedState.readyHead 3 = some (limitedQueue 0, sendOf9000) := by decide +kernel

theorem limitedState_refilled : (limitedState.refill 3).queue 3 = some (limitedQueue 1024) := by decide +kernel

theorem limitedState_noRoom : (limitedState.refill 3).txRoom (limitedQueue 1024) 3 sendOf9000
    (txLen sendOf9000 (fragTotal (entryFrags .pktTx sendOf9000 (limitedQueue 0).headFrags))) = false := by decide +kernel

theorem limitedState_ne_refilled : limitedState ≠ limitedState.refill 3 := by
  intro h
  have hlast : (some (limitedQueue 0)).map (·.shaper.last) = (some (limitedQueue 1024)).map (·.shaper.last) :=
    congrArg (Option.map (·.shaper.last)) ((congrArg (State.queue · 3) h).trans limitedState_refilled)
  simp [limitedQueue, limitedShaper, Shaper.fresh] at hlast

/-- Refutes O43: a SEND entry without room waits as its first clause says, but the model answers the state before the refill, which is
another one wherever time has passed since the shaper's last refill. -/
theorem not_packetQueuesSendAndDeliver : ¬ Obligations.PacketQueuesSendAndDeliver := by
  unfold Obligations.PacketQueuesSendAndDeliver
  intro h
  obtain ⟨hsend, -⟩ := h
  have hclaim := hsend limitedState _ _ 3 _ _ (limitedQueue 0) (limitedQueue 1024) sendOf9000 _ _ limitedState_ready rfl rfl rfl
    limitedState_refilled rfl rfl rfl rfl
  rw [if_pos limitedState_noRoom] at hclaim
  have hmodel : exec (.pktTxSend 3) limitedState = .next limitedState :=
    congrArg Host.Outcome.next (doPktTxSend_of_noRoom limitedState_ready rfl rfl limitedState_refilled limitedState_noRoom)
  exact limitedState_ne_refilled (Host.Outcome.next.inj (hmodel.symm.trans hclaim))

end Sys2Proof.Machine
end

section
/-! SUPPORT. Management requests (04 R110 R118 R131): the fields of a request body, the command that a body decodes to, and an
opcode's row as what runs a command of that opcode; O59 from these. -/

namespace Sys2Proof.Machine

/-! ### Fields within a body -/

/-- A number is read alike behind a number that ends before it. -/
theorem le_toLe_append {m i : Nat} (h : m ≤ i) (v : Nat) (r : Bytes) (n : Nat) : le (toLe m v ++ r) i n = le r (i - m) n := by
  have hright := le_append_right (toLe m v) r (i - m) n
  rwa [toLe_length, Nat.add_sub_cancel' h] at hright

theorem sliceZ_length (b : Bytes) (i n : Nat) : (sliceZ b i n).length = n := by simp [sliceZ]

/-- Bytes that stand between others are read back at their place. -/
theorem sliceZ_field (a p r : Bytes) : sliceZ (a ++ (p ++ r)) a.length p.length = p := by
  refine List.ext_getElem (sliceZ_length ..) fun k _ hk => ?_
  have hget : (a ++ (p ++ r))[a.length + k]? = some p[k] := by
    rw [List.getElem?_append_right (Nat.le_add_right ..), Nat.add_sub_cancel_left, List.getElem?_append_left hk,
      List.getElem?_eq_getElem hk]
  simp [sliceZ, List.getD_eq_getElem?_getD, hget]

theorem slice_field (a p r : Bytes) : slice (a ++ (p ++ r)) a.length p.length = p := by
  simp [slice]

/-! ### The request body -/

theorem cmdHeader_length (code : Nat) (c : Cmd) : (cmdHeader code c).length = 64 := by
  simp [cmdHeader, sliceZ_length]

section
variable {code tag : Nat} {c : Cmd}

/-- What a packet that a management request carries is made of. -/
theorem inlinePacket_iff : inlinePacket code tag c = true ↔ c.src = .mctp tag ∧ c.params.length = 48 ∧ c.pb.length = c.pbLen ∧
    c.pbLen < 65536 ∧ c.pbErr = none ∧ c.data.length = opcodeData code := by
  simp [inlinePacket, and_assoc]

/-- The opcode of a body. -/
theorem le_requestBody_code (hcode : code < 65536) (c : Cmd) : le (requestBody code c) 0 2 = code := by
  simp [requestBody, cmdHeader, le_toLe, Nat.mod_eq_of_lt hcode]

/-- The other numbers of a body's header. -/
theorem le_requestBody_fields (hlen : c.pbLen < 65536) (code : Nat) :
    le (requestBody code c) 2 2 = c.flags.toNat ∧ le (requestBody code c) 4 4 = c.tag.toNat ∧
    le (requestBody code c) 8 4 = c.target.toNat ∧ le (requestBody code c) 12 2 = c.pbLen ∧
    le (requestBody code c) 14 2 = c.rsv.toNat := by
  have hflags : c.flags.toNat < 65536 := c.flags.isLt
  have htag : c.tag.toNat < 4294967296 := c.tag.isLt
  have htarget : c.target.toNat < 4294967296 := c.target.isLt
  have hrsv : c.rsv.toNat < 65536 := c.rsv.isLt
  simp [requestBody, cmdHeader, le_toLe_append, le_toLe, Nat.mod_eq_of_lt, hlen, hflags, htag, htarget, hrsv]

/-- The parameter area of a body. -/
theorem sliceZ_requestBody (hparams : c.params.length = 48) (code : Nat) : sliceZ (requestBody code c) 16 48 = c.params := by
  have hself : sliceZ c.params 0 48 = c.params := by simpa [hparams] using sliceZ_field [] c.params []
  have hfield := sliceZ_field (toLe 2 code ++ toLe 2 c.flags.toNat ++ toLe 4 c.tag.toNat ++ toLe 4 c.target.toNat
    ++ toLe 2 c.pbLen ++ toLe 2 c.rsv.toNat) c.params (c.pb ++ c.data)
  simpa [requestBody, cmdHeader, hself, hparams] using hfield

/-- The parameter block of a body and the data behind it. -/
theorem requestBody_tail (hpb : c.pb.length = c.pbLen) (code : Nat) :
    slice (requestBody code c) 64 c.pbLen = c.pb ∧ (requestBody code c).drop (64 + c.pbLen) = c.data := by
  have hhead := cmdHeader_length code c
  constructor
  · simpa [requestBody, hhead, hpb] using slice_field (cmdHeader code c) c.pb c.data
  · rw [requestBody]
    exact List.drop_left' (by simp [hhead, hpb])

/-- The body of an inline packet decodes to the packet (04 R110 R118). -/
theorem mctpCmd_requestBody (h : inlinePacket code tag c = true) : mctpCmd tag (requestBody code c) = c := by
  obtain ⟨hsrc, hparams, hpb, hlt, herr, -⟩ := inlinePacket_iff.1 h
  obtain ⟨hflags, htag, htarget, hlen, hrsv⟩ := le_requestBody_fields hlt code
  obtain ⟨hblock, hdata⟩ := requestBody_tail hpb code
  have hwhole : mctpCmd tag (requestBody code c) = { c with src := .mctp tag, pbErr := none } := by
    simp [mctpCmd, hflags, htag, htarget, hlen, hrsv, hblock, hdata, sliceZ_requestBody hparams]
  rw [hwhole, ← hsrc, ← herr]

/-- A request body is as long as its header, PB_LEN and the data of its opcode say. -/
theorem requestBody_length (hcode : code < 65536) (h : inlinePacket code tag c = true) :
    (requestBody code c).length =
      64 + le (requestBody code c) 12 2 + opcodeData (le (requestBody code c) 0 2) := by
  obtain ⟨-, -, hpb, hlt, -, hdata⟩ := inlinePacket_iff.1 h
  obtain ⟨-, -, -, hlen, -⟩ := le_requestBody_fields hlt code
  rw [le_requestBody_code hcode, hlen]
  simp [requestBody, cmdHeader_length, hpb, hdata, Nat.add_assoc]

end

/-! ### Rows by their opcode -/

/-- The opcode of a row has two bytes. -/
theorem packetOf_lt {i : Instr} {code : Nat} {c : Cmd} (h : packetOf i = some (code, c)) : code < 65536 := by
  cases i
  all_goals cases h
  all_goals decide

/-- PW_STATE_SET goes to Buckram with either row, which says whether byte 16 names a state (16 R449). -/
theorem runOpcode_pwStateSet (c : Cmd) (s : State) :
    runOpcode 0x0B04 c s = s.bk 0x0B04 c noDeny true false (paramCheck (cmdByte c 16 < 2)) := by
  by_cases hrun : cmdByte c 16 = 0
  · exact (if_pos hrun).trans (if_neg (by omega))
  · exact (if_neg hrun).trans (if_neg hrun)

/-- The row of an opcode that a packet chooses runs as the opcode does (04 R131). -/
theorem exec_of_packetOf {s : State} {i : Instr} {code : Nat} {c : Cmd} (h : packetOf i = some (code, c))
    (hrow : chosenRow s i = true) : exec i s = .next (runOpcode code c s) := by
  cases i
  case krmConnCreate | twModeSetScheduled | twModeSetUnscheduled | blkSelftestStart | ctSampleSetCore | ctSampleSetPacket =>
    cases h
    exact congrArg Host.Outcome.next (if_neg (by simpa [chosenRow] using hrow))
  case krmConnSetPeer =>
    cases h
    exact congrArg Host.Outcome.next (if_pos hrow)
  case blkSelftestAbort =>
    cases h
    exact congrArg Host.Outcome.next (if_neg (Nat.not_lt.2 (by simpa [chosenRow] using hrow)))
  case pwStateSetRun | pwStateSetStandby =>
    cases h
    rw [runOpcode_pwStateSet]
    exact congrArg Host.Outcome.next (if_neg (by simpa [chosenRow] using hrow))
  all_goals cases h
  all_goals rfl

/-! ### MCTP_REQUEST -/

section
variable {s : State} (hon : s.endpointOn = true)
include hon

/-- None of what shuts the endpoint holds. -/
theorem State.endpoint_open : (s.fatal || s.power.dev == .off || s.pins.sysRst || bit s.pins.fault 51) = false := by
  simpa [State.endpointOn] using hon

/-- A management request where the endpoint takes requests: one of malformed length is answered at once, any other is run. -/
theorem doMctpRequest_management (tag : Nat) (body : Bytes) :
    doMctpRequest tag { kind := 0x7F, bytes := body } s =
      if body.length < 64 ∨ body.length ≠ 64 + le body 12 2 + opcodeData (le body 0 2) then
        s.emitMctp false tag (replyBytes (le body 0 2) (mctpCmd tag body) (Answer.just St.badPblock) s.ft 0 false false)
      else runOpcode (le body 0 2) (mctpCmd tag body) s := by
  simp [doMctpRequest, State.endpoint_open hon]

theorem doMctpRequest_vendorSupport (tag : Nat) {body : Bytes} (hcode : byteAt body 1 = 6) :
    doMctpRequest tag { kind := 0, bytes := body } s = s.emitMctp false tag (vendorSupport body) := by
  simp [doMctpRequest, State.endpoint_open hon, hcode]

/-- The body of an inline packet runs the packet's opcode. -/
theorem doMctpRequest_requestBody {code tag : Nat} {c : Cmd} (hcode : code < 65536) (h : inlinePacket code tag c = true) :
    doMctpRequest tag { kind := 0x7F, bytes := requestBody code c } s = runOpcode code c s := by
  have hlen := requestBody_length hcode h
  have hwhole : ¬ ((requestBody code c).length < 64 ∨
      (requestBody code c).length ≠ 64 + le (requestBody code c) 12 2 + opcodeData (le (requestBody code c) 0 2)) := by
    omega
  rw [doMctpRequest_management hon, if_neg hwhole, le_requestBody_code hcode, mctpCmd_requestBody h]

end

theorem exec_mctpRequest (tag : Nat) (m : MctpMsg) (s : State) : exec (.mctpRequest tag m) s = .next (doMctpRequest tag m s) := rfl

/-- Settles O59: a body decodes to its packet, whose opcode both MCTP_REQUEST and the row run. -/
theorem managementRequestsRunTheirRows : Obligations.ManagementRequestsRunTheirRows := by
  unfold Obligations.ManagementRequestsRunTheirRows
  simp only [exec_mctpRequest]
  refine ⟨?decode, ?row, ?malformed, ?vendor⟩
  case decode => exact fun code tag c hcode h => ⟨le_requestBody_code hcode c, mctpCmd_requestBody h⟩
  case row =>
    intro s i code tag c hp h hrow hon
    rw [doMctpRequest_requestBody hon (packetOf_lt hp) h, exec_of_packetOf hp hrow]
  case malformed =>
    intro s tag body hon hbad
    rw [doMctpRequest_management hon, if_pos hbad]
  case vendor =>
    intro s tag body hon hcode
    rw [doMctpRequest_vendorSupport hon tag hcode]

end Sys2Proof.Machine
end

section
/-! SUPPORT. Device resets (04 R131, 17 R468, 19 R523): when one is armed, held and let go, and what it leaves; O22 from these. -/

namespace Sys2Proof.Machine

/-- Where Buckram takes a command at once, its own checks pass (04 R127). -/
theorem State.precheck_of_bkAccepts {s : State} {code : Nat} {c : Cmd} {who : Caller} {env : BkEnv} {deny lenOk ex form found : Bool}
    (h : s.bkAccepts code c who env deny lenOk ex form found = true) :
    (s.served code c).precheck code c who true deny lenOk ex form found = none := by
  obtain ⟨-, -, -, -, hp⟩ := State.bkAccepts_iff.1 h
  exact (State.precheck_none hp).2

variable {s : State}

/-- Buckram arms the reset for the next rebalance point; one that is armed already stands. -/
theorem bkDevReset_arms {c : Cmd} {who : Caller} (hpre : s.precheck 0x0105 c who true false true false true true = none) :
    bkDevReset c who s = (s.onPins fun p => { p with
      resetArmed := some (p.resetArmed.getD ((s.ft / 1048576 + 1) * 1048576, false)) }).bkAnswer 0x0105 c Answer.ok :=
  State.bkApply_accepted hpre

/-- At the point of an armed reset the device is reset, or the reset is held by its temperature (19 R523). -/
theorem doDeviceResetBegin_of_armed {t : Nat} (harmed : s.pins.resetArmed = some (t, false)) (hdue : s.dueAt t s.onRebalance = true)
    (straps : Straps) :
    doDeviceResetBegin straps s = if 100 ≤ s.power.tj then
      s.onPins fun p => { p with resetArmed := some (t, true), heldReset := true } else s.deviceReset straps := by
  simp [doDeviceResetBegin, harmed, hdue]

section
variable {tj : Nat} (hheld : s.pins.heldReset = true) (htj : tj < 100)
include hheld htj

/-- An armed reset that is held begins below 100 C. -/
theorem doHeldResetRelease_of_armed {r : Nat × Bool} (harmed : s.pins.resetArmed = some r) (straps : Straps) :
    doHeldResetRelease tj straps s = (s.onPower fun p => { p with tj := tj }).deviceReset straps := by
  simp [doHeldResetRelease, hheld, harmed, Nat.not_le.2 htj]

/-- Below 100 C a reset held at the release of SYS_RST# goes on to ROM. -/
theorem doHeldResetRelease_of_unarmed (harmed : s.pins.resetArmed = none) (straps : Straps) :
    doHeldResetRelease tj straps s = (s.onPower fun p => { p with tj := tj }).onPins fun p =>
      { p with heldReset := false, straps := straps } := by
  simp [doHeldResetRelease, hheld, harmed, Nat.not_le.2 htj]

end

theorem doLifecycleReset_due {t : Nat} (hat : s.trust.resetAt = some t) (hdue : s.dueAt t s.onRebalance = true) (straps : Straps) :
    doLifecycleReset straps s = s.deviceReset straps := by
  simp [doLifecycleReset, hat, hdue]

theorem exec_deviceResetBegin (straps : Straps) (s : State) :
    exec (.deviceResetBegin straps) s = .next (doDeviceResetBegin straps s) := rfl
theorem exec_heldResetRelease (tj : Nat) (straps : Straps) (s : State) :
    exec (.heldResetRelease tj straps) s = .next (doHeldResetRelease tj straps s) := rfl
theorem exec_lifecycleReset (straps : Straps) (s : State) :
    exec (.lifecycleReset straps) s = .next (doLifecycleReset straps s) := rfl

/-- Settles O22: DEV_RESET by Buckram's turn, the three rows that reset by their cases, what is left by the fields after a reset. -/
theorem deviceResets : Obligations.DeviceResets := by
  unfold Obligations.DeviceResets
  simp only [exec_deviceResetBegin, exec_heldResetRelease, exec_lifecycleReset]
  refine ⟨?arm, ?begin, ?heldArmed, ?heldSysRst, ?lifecycle, ?left⟩
  case arm =>
    intro s c who env h
    have hpre := State.precheck_of_bkAccepts h
    exact ⟨_, rfl, congrArg Host.Outcome.next ((State.bk_served h).trans (bkDevReset_arms hpre))⟩
  case begin =>
    intro s straps t harmed hdue
    rw [doDeviceResetBegin_of_armed harmed hdue]
  case heldArmed =>
    intro s straps tj r hheld harmed htj
    rw [doHeldResetRelease_of_armed hheld htj harmed]
  case heldSysRst =>
    intro s straps tj hheld harmed htj
    rw [doHeldResetRelease_of_unarmed hheld htj harmed]
  case lifecycle =>
    intro s straps t hat hdue
    rw [doLifecycleReset_due hat hdue]
  case left => exact fun s straps => ⟨rfl, rfl, rfl, rfl, rfl, rfl, rfl, rfl⟩

end Sys2Proof.Machine
end

section
/-! SUPPORT. The identity, health, echo, pin-fault and log commands (04 R131, 18 R495, 19 R530): the reply of each where it is
accepted; O25 from these. -/

namespace Sys2Proof.Machine

variable {s : State} {c : Cmd} {who : Caller}

theorem State.identity_length (s : State) : s.identity.length = 256 := sliceZ_length ..

theorem doDevIdentify_accepted (h : s.accepts 0x0101 c who false true false = true) :
    doDevIdentify c s = (s.taken 0x0101 c).answer 0x0101 c { Answer.ok with data := (s.taken 0x0101 c).identity } :=
  State.sf_accepted h

theorem doDevHealth_accepted (h : s.accepts 0x0102 c who false true false = true) :
    doDevHealth c s = (s.taken 0x0102 c).answer 0x0102 c
      (Answer.ok (s.taken 0x0102 c).healthFlags (s.taken 0x0102 c).parkedMask) :=
  State.sf_accepted h

theorem doDiagEcho_accepted (h : s.accepts 0x0E01 c who false true false = true) :
    doDiagEcho c s = (s.taken 0x0E01 c).answer 0x0E01 c { Answer.ok with data := sliceZ c.params 0 16 } :=
  State.sf_accepted h

theorem doDiagPinFault_accepted (h : s.accepts 0x0E02 c who false true false = true) :
    doDiagPinFault c s = (s.taken 0x0E02 c).answer 0x0E02 c
      (Answer.ok ((s.taken 0x0E02 c).pins.fault % 2 ^ 32) ((s.taken 0x0E02 c).pins.fault / 2 ^ 32 % 2 ^ 32)) :=
  State.sf_accepted h

/-- The number of the oldest record that the log holds (18 R495). -/
def State.logOldest (s : State) : Nat := s.ev.logCount - s.ev.log.length

/-- DIAG_LOG_READ from the next record number on returns none. -/
theorem doDiagLogRead_of_beyond (h : s.accepts 0x0E03 c who false true false = true)
    (hbeyond : (s.taken 0x0E03 c).ev.logCount ≤ cmdLe c 16 4) :
    doDiagLogRead c s = (s.taken 0x0E03 c).answer 0x0E03 c (Answer.ok (cmdLe c 16 4) (s.taken 0x0E03 c).ev.logCount) := by
  refine (State.sf_accepted h).trans ?_
  simp only [if_pos hbeyond]
  rfl

/-- DIAG_LOG_READ below it returns the records from the one asked for, or from the oldest. -/
theorem doDiagLogRead_of_below {t : State} (h : s.accepts 0x0E03 c who false true false = true) (ht : t = s.taken 0x0E03 c)
    (hbelow : ¬ t.ev.logCount ≤ cmdLe c 16 4) :
    doDiagLogRead c s = t.answer 0x0E03 c { Answer.ok (max (cmdLe c 16 4) t.logOldest) t.ev.logCount with
      data := ((t.ev.log.drop (max (cmdLe c 16 4) t.logOldest - t.logOldest)).take 128).flatten } := by
  subst ht
  refine (State.sf_accepted h).trans ?_
  simp only [if_neg hbelow]
  rfl

/-- Settles O25: each command by the reply of its row. -/
theorem identityHealthAndDiagnostics : Obligations.IdentityHealthAndDiagnostics := by
  unfold Obligations.IdentityHealthAndDiagnostics
  refine ⟨?identify, ?health, ?echo, ?pinFault, ?logRead⟩
  case identify =>
    exact fun s c who h => ⟨congrArg Host.Outcome.next (doDevIdentify_accepted h), State.identity_length _⟩
  case health => exact fun s c who h => congrArg Host.Outcome.next (doDevHealth_accepted h)
  case echo => exact fun s c who h => congrArg Host.Outcome.next (doDiagEcho_accepted h)
  case pinFault => exact fun s c who h => congrArg Host.Outcome.next (doDiagPinFault_accepted h)
  case logRead =>
    intro s c who h
    refine congrArg Host.Outcome.next ?_
    split
    · next hbeyond => exact doDiagLogRead_of_beyond h hbeyond
    · next hbelow => exact doDiagLogRead_of_below h rfl hbelow

end Sys2Proof.Machine
end

section
/-! SUPPORT. KRM connections by command (08 R234 to R239): a CID bound, its peer set, its opening at a frame boundary, its way to
CLOSING and its end; O44 from these. -/

namespace Sys2Proof.Machine

/-! ### A connection that is changed -/

/-- Two changes in a row are one. -/
theorem Tab.mod_mod {α : Type} (t : Tab α) (k : Nat) (f g : α → α) : (t.mod k f).mod k g = t.mod k fun v => g (f v) := by
  induction t with
  | nil => rfl
  | cons x t ih =>
    obtain ⟨j, w⟩ := x
    by_cases hj : j = k <;> simp [Tab.mod, hj, ih]

/-- Two changes that agree on the value at the key. -/
theorem Tab.mod_congr {α : Type} {t : Tab α} {k : Nat} {v : α} {f g : α → α} (h : t.get k = some v) (hfg : f v = g v) :
    t.mod k f = t.mod k g := by
  induction t with
  | nil => rfl
  | cons x t ih =>
    obtain ⟨j, w⟩ := x
    by_cases hj : j = k
    · have hw : w = v := by simpa [Tab.get, hj] using h
      simp [Tab.mod, hj, hw, hfg]
    · simp [Tab.mod, hj, ih (by simpa [Tab.get, hj] using h)]

section
variable {s : State} {cid : Nat} {c : Conn}

theorem State.conn_onConn (s : State) (cid : Nat) (f : Conn → Conn) : (s.onConn cid f).conn cid = (s.conn cid).map f :=
  Tab.get_mod_self ..

theorem State.onConn_onConn (s : State) (cid : Nat) (f g : Conn → Conn) :
    (s.onConn cid f).onConn cid g = s.onConn cid fun k => g (f k) :=
  congrArg (fun t => s.onKrm fun k => { k with conns := t }) (Tab.mod_mod ..)

theorem State.onConn_congr {f g : Conn → Conn} (hc : s.conn cid = some c) (hfg : f c = g c) : s.onConn cid f = s.onConn cid g :=
  congrArg (fun t => s.onKrm fun k => { k with conns := t }) (Tab.mod_congr hc hfg)

/-- The transition of a connection that is changed is reported as it then stands. -/
theorem State.connEvent_onConn (hc : s.conn cid = some c) (f : Conn → Conn) : (s.onConn cid f).connEvent cid =
    (s.onConn cid f).raise (sourceNo (f c).home 448) cid (f c).state.code (.own (f c).owner) := by
  unfold State.connEvent
  rw [State.conn_onConn, hc]
  rfl

/-! ### Opening (08 R234 R235) -/

/-- A connection as it is when it opens: its window and its first PSN (08 R235). -/
def Conn.opened (c : Conn) : Conn :=
  { c with
    state := .open, cwnd := max c.cwndFloor (c.iw * c.mss), sndNext := Config.firstPsn % 2 ^ 32
    at' := (Config.firstPsn + 2 ^ 32 - 1) % 2 ^ 32 }

/-- A PENDING connection enters OPEN. -/
theorem State.connEnter_open (hc : s.conn cid = some c) (hstate : c.state = .pending) :
    s.connEnter cid .open = (s.onConn cid Conn.opened).connEvent cid := by
  unfold State.connEnter
  simp only [hc, hstate, bne_self_eq_false, Bool.false_eq_true, if_false]
  rfl

/-- At its boundary a PENDING connection that is to open is OPEN, and raises its event. -/
theorem doConnTransition_opens {t : Nat} (hc : s.conn cid = some c) (hs : s.fatal = false) (hnext : c.next = [(.open, t)])
    (hstate : c.state = .pending) (hdue : s.dueFrame t = true) :
    doConnTransition cid s = (s.onConn cid fun k => { k with next := [] }.opened).raise (sourceNo c.home 448) cid
      ConnState.open.code (.own c.owner) := by
  have hfilter : c.next.filter (fun x => s.dueFrame x.2) = [(.open, t)] := by simp [hnext, hdue]
  have hrest : s.onConn cid (fun k => { k with next := k.next.filter fun x => !s.dueFrame x.2 }) =
      s.onConn cid fun k => { k with next := [] } :=
    State.onConn_congr hc (by simp [hnext, hdue])
  have hwait : (s.onConn cid fun k => { k with next := [] }).conn cid = some { c with next := [] } := by
    rw [State.conn_onConn, hc]
    rfl
  unfold doConnTransition
  simp only [hc, hs, Bool.false_eq_true, if_false, hfilter, hrest, List.foldl_cons, List.foldl_nil]
  rw [State.connEnter_open hwait hstate, State.onConn_onConn, State.connEvent_onConn hc]
  rfl

end

/-! ### The commands -/

/-- A command whose first part service firmware applies, sent on to a mailbox with room. -/
theorem State.bkPart_sent {s t : State} {code : Nat} {c : Cmd} {who : Caller} {deny found : Caller → State → Bool} {lenOk ex : Bool}
    {part : Caller → State → State × Option Nat}
    (h : s.accepts code c who (deny who (s.taken code c)) lenOk ex true (found who (s.taken code c)) = true)
    (hroom : (s.taken code c).mailboxFull = false) (hpart : part who (s.taken code c) = (t, none)) :
    s.bkPart code c deny lenOk ex part found = t.toBuckram code c who := by
  obtain ⟨hw, hm, hp⟩ := State.accepts_iff.1 h
  obtain ⟨hflags, hagain⟩ := State.precheck_none hp
  unfold State.bkPart
  rw [State.start_taken hw hm]
  simp [hflags, hagain, hpart, hroom]

section
variable {s : State} {c : Cmd} {who : Caller}

/-- The CID that a function's KRM_CONN_CREATE binds, by its target (08 R236 R237). -/
theorem bkKrmConnCreate_binds {f : FnRef} (hpre : s.precheck 0x0601 c (.fn f) true false true false true true = none)
    (hpeer : s.isSetPeer c = false) (hlen : c.pbLen = 64) (hcheck : s.connCreateCheck c = none)
    (hhome : bit (cmdByte c 20) 5 = false) (htgt : c.target.toNat ≠ targetNone) :
    bkKrmConnCreate c (.fn f) s = ((s.useFree.useFree.dropCounters Ct.conn c.target.toNat).onKrm fun x => { x with
        conns := x.conns.set c.target.toNat
          (newConn c (.function f) (cmdByte c 20 / 64) ((s.krm.gens.get c.target.toNat).getD 0) s.ft) }).onDamask
      fun d => { d with homePend := d.homePend ++ [(c.target.toNat, some (cmdByte c 20 / 64))] } := by
  have hpre' : s.precheck 0x0601 c (.fn f) true false (s.isSetPeer c || c.pbLen == 64) false true true = none := by
    simpa [hlen] using hpre
  have hconnHome : s.connHome c = some (cmdByte c 20 / 64) := by simp [State.connHome, hhome]
  refine (State.bkApply_accepted hpre').trans ?_
  simp only [hpeer, Bool.false_eq_true, if_false, hcheck, hconnHome, if_neg htgt]
  rfl

/-- KRM_CONN_CREATE on a PENDING CID gives it its peer (08 R238). -/
theorem bkKrmConnCreate_setsPeer {t : State} (hpre : s.precheck 0x0601 c who true false true false true true = none)
    (hpeer : s.isSetPeer c = true)
    (ht : t = (s.onConn c.target.toNat fun k => { k with peer := some (cmdLe c 16 4) }).tryOpen c.target.toNat) :
    bkKrmConnCreate c who s =
      t.bkAnswer 0x0601 c (Answer.ok c.target.toNat (((t.conn c.target.toNat).map (·.cgen)).getD 0)) := by
  have hpre' : s.precheck 0x0601 c who true false (s.isSetPeer c || c.pbLen == 64) false true true = none := by
    simpa [hpeer] using hpre
  subst ht
  refine (State.bkApply_accepted hpre').trans ?_
  simp only [hpeer, if_true]
  rfl

/-- KRM_CONN_DESTROY of a connection without claims: it will go to CLOSING, and Buckram gets the command. -/
theorem doKrmConnDestroy_accepted (h : s.accepts 0x0602 c who false true true = true)
    (hroom : (s.taken 0x0602 c).cmd.mailbox.length < 256)
    (hcheck : (s.taken 0x0602 c).connDestroyCheck c.target.toNat = none) :
    doKrmConnDestroy c s = ((s.taken 0x0602 c).connNext c.target.toNat .closing).toBuckram 0x0602 c who :=
  State.bkPart_sent h (by simp [State.mailboxFull, hroom]) (by simp [State.connDestroyPart, hcheck])

theorem doConnDestroyComplete_quiet {cid : Nat} {k : Conn} (hk : s.conn cid = some k) (hcmd : k.destroyCmd = some c)
    (hs : s.fatal = false) (hstate : k.state = .closing) (hquiet : s.connQuiet k = true) :
    doConnDestroyComplete cid s = (s.freeConn cid k).reply 0x0602 c true Answer.ok := by
  simp [doConnDestroyComplete, hk, hcmd, hs, hstate, hquiet]

theorem doKrmConnQuery_accepted {k : Conn} (h : s.accepts 0x0603 c who false true true = true)
    (hk : (s.taken 0x0603 c).conn c.target.toNat = some k) :
    doKrmConnQuery c s = (s.taken 0x0603 c).answer 0x0603 c
      { Answer.ok with data := (s.taken 0x0603 c).connBytes c.target.toNat k } := by
  refine (State.sf_accepted h).trans ?_
  simp only [hk]
  rfl

end

theorem exec_krmConnCreate_of_create {s : State} {c : Cmd} (hpeer : s.isSetPeer c = false) :
    exec (.krmConnCreate c) s = .next (s.krmCreate c) :=
  exec_of_packetOf (i := .krmConnCreate c) rfl (by simp [chosenRow, hpeer])

theorem exec_krmConnSetPeer_of_setPeer {s : State} {c : Cmd} (hpeer : s.isSetPeer c = true) :
    exec (.krmConnSetPeer c) s = .next (s.krmCreate c) :=
  exec_of_packetOf (i := .krmConnSetPeer c) rfl hpeer

/-- Settles O44: each row by its lemma above, the two of KRM_CONN_CREATE by Buckram's turn. -/
theorem connectionsAreCreatedOpenedAndDestroyed : Obligations.ConnectionsAreCreatedOpenedAndDestroyed := by
  unfold Obligations.ConnectionsAreCreatedOpenedAndDestroyed
  refine ⟨?create, ?setPeer, ?destroy, ?opens, ?complete, ?query⟩
  case create =>
    intro s c who env f h hwho hpeer hpeer' hlen hcheck hhome htgt
    subst hwho
    have hpre := State.precheck_of_bkAccepts h
    exact ⟨_, exec_krmConnCreate_of_create hpeer, congrArg Host.Outcome.next ((State.bk_served h).trans
      (bkKrmConnCreate_binds hpre hpeer' hlen hcheck hhome htgt))⟩
  case setPeer =>
    intro s c who env t h hpeer hpeer' ht
    have hpre := State.precheck_of_bkAccepts h
    exact ⟨_, exec_krmConnSetPeer_of_setPeer hpeer, congrArg Host.Outcome.next ((State.bk_served h).trans
      (bkKrmConnCreate_setsPeer hpre hpeer' ht))⟩
  case destroy =>
    exact fun s c who h hroom hcheck => congrArg Host.Outcome.next (doKrmConnDestroy_accepted h hroom hcheck)
  case opens =>
    intro s0 s cid t c hseen hc hs hnext hstate hframe hdue
    subst hseen
    exact congrArg (fun x => Host.Outcome.next (s0.backFrom x))
      (doConnTransition_opens hc hs hnext hstate (State.dueFrame_of_onFrame hframe hdue))
  case complete =>
    exact fun s cid c k hc hcmd hs hstate hquiet =>
      congrArg Host.Outcome.next (doConnDestroyComplete_quiet hc hcmd hs hstate hquiet)
  case query => exact fun s c who k h hk => congrArg Host.Outcome.next (doKrmConnQuery_accepted h hk)

end Sys2Proof.Machine
end

section
/-! SUPPORT. The TABLE commands (06 R160 to R185): the effect of each where its operands pass, the region that Buckram makes for a
forwarding table, and the end of an iteration; O36 from these. -/

namespace Sys2Proof.Machine

theorem Tab.get_set_self {α : Type} (t : Tab α) (k : Nat) (v : α) : (t.set k v).get k = some v := by
  induction t with
  | nil => simp [Tab.set, Tab.get]
  | cons x t ih =>
    obtain ⟨j, w⟩ := x
    simp only [Tab.set]
    split
    · simp [Tab.get]
    · split
      · simp [Tab.get]
      · next hne => simp [Tab.get, Ne.symm hne, ih]

section
variable {s t : State} {code : Nat} {c : Cmd} {who : Caller} {deny found : Caller → State → Bool} {lenOk ex form : Bool}
  {eff : Caller → State → State × Option Answer}
  (h : s.accepts code c who (deny who (s.taken code c)) lenOk ex form (found who (s.taken code c)) = true)
include h

/-- An accepted command whose effect answers at once. -/
theorem State.sf_answers {a : Answer} (heff : eff who (s.taken code c) = (t, some a)) :
    s.sf code c deny lenOk ex eff form found = t.answer code c a := by
  rw [State.sf_accepted h, heff]
  rfl

/-- An accepted command whose reply waits. -/
theorem State.sf_waits (heff : eff who (s.taken code c) = (t, none)) : s.sf code c deny lenOk ex eff form found = t := by
  rw [State.sf_accepted h, heff]

end

section
variable {s : State} {c : Cmd} {who : Caller}

/-! ### TBL_CREATE (06 R160 R161) -/

theorem State.createProfiles_new {id : Nat} (hid : s.tableInUse id = false) (hnone : s.damask.profileTable = none) :
    s.createProfiles id 5 = (s.onDamask fun d => { d with profileTable := some id }, Answer.ok 32) := by
  simp [State.createProfiles, hid, hnone]

/-- A bank of a form whose RANK is free, while the banks' rules have room for its own. -/
theorem State.createBank_new {id k form : Nat} (hk : 4 ≤ k ∧ k ≤ 15) (hform : form < 0xA0 ∧ form % 8 ≤ 4)
    (hid : s.tableInUse id = false) (hrank : s.damask.banks.has (field form 3 2) = false)
    (hroom : 2 ^ k + (s.damask.banks.map fun (_, b) => b.size).sum ≤ 32768) :
    s.createBank id k form = (s.onDamask fun d => { d with
      banks := d.banks.set (field form 3 2) { table := id, level := form % 8, size := 2 ^ k, rules := [] } }, Answer.ok (2 ^ k)) := by
  have hbad : ¬ (k < 4 || 15 < k || 0xA0 ≤ form || 4 < form % 8) = true := by simp; omega
  have hexist : ¬ (s.tableInUse id || s.damask.banks.has (field form 3 2)) = true := by simp [hid, hrank]
  exact (if_neg hbad).trans ((if_neg hexist).trans (if_neg (Nat.not_lt.2 hroom)))

/-- A forwarding table of a MAC form asks for its region, while no request waits before it (01 R27). -/
theorem State.createForwarding_asks {id k form i : Nat} {r : Region} (hk : 12 ≤ k ∧ k ≤ 26)
    (hform : form < 0x80 ∧ field form 3 3 < 5 ∧ form % 8 = 1) (hid : s.tableInUse id = false) (hbox : s.cmd.mailbox = [])
    (hlaid : s.layRegion none .device (2 ^ (k + 5) + 1024) = some (i, r)) :
    s.createForwarding c id k form = (s.post (.region i (some r) (some (c, k, form))), none) := by
  obtain ⟨hlt, hlevel, hkey⟩ := hform
  have hbad : ¬ (k < 12 || 26 < k || 128 ≤ form || 5 ≤ field form 3 3 || form % 8 < 1 || 5 < form % 8
      || (bit form 6 && form % 8 != 1)) = true := by simp [hkey]; omega
  have hroom : s.mailboxFull = false := by simp [State.mailboxFull, hbox]
  unfold State.createForwarding
  rw [if_neg hbad]
  simp only [hid, Bool.false_eq_true, if_false, hbox, List.foldl_nil, hlaid, hroom]

theorem doTblCreate_profiles (h : s.accepts 0x0401 c who false true false = true) (hform : cmdByte c 17 = 0xC0)
    (hk : cmdByte c 16 = 5) (hid : (s.taken 0x0401 c).tableInUse c.target.toNat = false)
    (hnone : (s.taken 0x0401 c).damask.profileTable = none) :
    doTblCreate c s = ((s.taken 0x0401 c).onDamask fun d => { d with profileTable := some c.target.toNat }).answer 0x0401 c
      (Answer.ok 32) :=
  State.sf_answers h (by simp only [hform, hk, if_true, State.createProfiles_new hid hnone])

theorem doTblCreate_bank (h : s.accepts 0x0401 c who false true false = true)
    (hform : 0x80 ≤ cmdByte c 17 ∧ cmdByte c 17 < 0xA0 ∧ cmdByte c 17 % 8 ≤ 4) (hk : 4 ≤ cmdByte c 16 ∧ cmdByte c 16 ≤ 15)
    (hid : (s.taken 0x0401 c).tableInUse c.target.toNat = false)
    (hrank : (s.taken 0x0401 c).damask.banks.has (field (cmdByte c 17) 3 2) = false)
    (hroom : 2 ^ cmdByte c 16 + ((s.taken 0x0401 c).damask.banks.map fun (_, b) => b.size).sum ≤ 32768) :
    doTblCreate c s = ((s.taken 0x0401 c).onDamask fun d => { d with
      banks := d.banks.set (field (cmdByte c 17) 3 2)
        { table := c.target.toNat, level := cmdByte c 17 % 8, size := 2 ^ cmdByte c 16, rules := [] } }).answer 0x0401 c
      (Answer.ok (2 ^ cmdByte c 16)) := by
  obtain ⟨hbank, hform⟩ := hform
  have hprof : ¬ cmdByte c 17 = 0xC0 := by omega
  exact State.sf_answers h (by simp only [if_neg hprof, if_pos hbank, State.createBank_new hk hform hid hrank hroom])

theorem doTblCreate_forwarding {i : Nat} {r : Region} (h : s.accepts 0x0401 c who false true false = true)
    (hk : 12 ≤ cmdByte c 16 ∧ cmdByte c 16 ≤ 26) (hform : cmdByte c 17 < 0x80 ∧ field (cmdByte c 17) 3 3 < 5 ∧ cmdByte c 17 % 8 = 1)
    (hid : (s.taken 0x0401 c).tableInUse c.target.toNat = false) (hbox : (s.taken 0x0401 c).cmd.mailbox = [])
    (hlaid : (s.taken 0x0401 c).layRegion none .device (2 ^ (cmdByte c 16 + 5) + 1024) = some (i, r)) :
    doTblCreate c s = (s.taken 0x0401 c).post (.region i (some r) (some (c, cmdByte c 16, cmdByte c 17))) := by
  have hprof : ¬ cmdByte c 17 = 0xC0 := by omega
  have hbank : ¬ 0x80 ≤ cmdByte c 17 := by omega
  exact State.sf_waits h (by simp only [if_neg hprof, if_neg hbank, State.createForwarding_asks hk hform hid hbox hlaid])

/-! ### Buckram's turn at the region (01 R25 R27) -/

/-- Buckram's turn at a region that is the only request waiting. -/
theorem doBuckramRequest_region {i : Nat} {r : Option Region} {why : Option (Cmd × Nat × Nat)} (env : BkEnv) (hs : s.fatal = false)
    (hpower : s.power.dev ≠ .off) (hreset : s.pins.sysRst = false) (hbox : s.cmd.mailbox = [.region i r why])
    (hrota : s.cmd.rota = [.firmware]) :
    doBuckramRequest env s = (s.onCmd fun m => { m with mailbox := [], rota := [] }).bkRegion i r why := by
  have hnext : s.bkNext = some .firmware := by simp [State.bkNext, hbox, hrota, bkCaller]
  have hfind : s.cmd.mailbox.find? (fun r => bkCaller r == .firmware) = some (.region i r why) := by simp [hbox, bkCaller]
  have hleft : (s.onCmd fun m => { m with
      mailbox := m.mailbox.erase (.region i r why)
      rota := if (m.mailbox.erase (.region i r why)).any fun x => bkCaller x == .firmware
        then m.rota.erase .firmware ++ [.firmware] else m.rota.erase .firmware })
      = s.onCmd fun m => { m with mailbox := [], rota := [] } := State.onCmd_congr (by simp [hbox, hrota])
  have hoff : (s.power.dev == .off) = false := by simpa using hpower
  unfold doBuckramRequest
  simp only [hs, hoff, hreset, hnext, hfind, Bool.or_false, Bool.false_eq_true, if_false]
  rw [hleft]

/-- The region of a TBL_CREATE that Buckram accepts becomes the table's. -/
theorem State.bkRegion_makes_table {i k form : Nat} {r : Region} (hok : s.regionChangeOk i (some r) = true) :
    s.bkRegion i (some r) (some (c, k, form)) = ((s.putRegion i (some r)).onTables fun l =>
      l.set c.target.toNat (Table.fresh k (form % 8) (field form 3 3) (bit form 6) i r.base)).reply 0x0401 c false
        (Answer.ok (2 ^ k)) := by
  have hget : (s.putRegion i (some r)).dram.regions.get i = some r := Tab.get_set_self ..
  simp [State.bkRegion, hok, State.finishForwarding, hget]

/-! ### Commands on a table (06 R179 R183 to R185) -/

theorem doTblSearch_other (h : s.accepts 0x0402 c who false (s.tblLenOk c 20 64 1) true = true)
    (ht : (s.taken 0x0402 c).tables.get c.target.toNat = none) :
    doTblSearch c s = (s.taken 0x0402 c).answer 0x0402 c ((s.taken 0x0402 c).tblSearch c.target.toNat c.pb) :=
  State.sf_answers h (by simp only [ht])

section
variable {t : Table}

theorem doTblSearch_forwarding (h : s.accepts 0x0402 c who false (s.tblLenOk c 20 64 1) true = true)
    (ht : (s.taken 0x0402 c).tables.get c.target.toNat = some t) :
    doTblSearch c s = ((s.taken 0x0402 c).readKey c.target.toNat t c.pb).answer 0x0402 c
      ((s.taken 0x0402 c).tblSearch c.target.toNat c.pb) :=
  State.sf_answers h (by simp only [ht])

theorem doTblNext_forwarding (h : s.accepts 0x0403 c who false true true = true)
    (ht : (s.taken 0x0403 c).tables.get c.target.toNat = some t) :
    doTblNext c s = ((s.taken 0x0403 c).tblNext c.target.toNat t (cmdLe c 16 8)).1.answer 0x0403 c
      ((s.taken 0x0403 c).tblNext c.target.toNat t (cmdLe c 16 8)).2 :=
  State.sf_answers h (by simp only [ht])

theorem doTblInsert_forwarding (h : s.accepts 0x0404 c who false (s.tblLenOk c 32 144 32) true = true)
    (ht : (s.taken 0x0404 c).tables.get c.target.toNat = some t) :
    doTblInsert c s = ((s.taken 0x0404 c).tblInsert c.target.toNat t c.pb).1.answer 0x0404 c
      ((s.taken 0x0404 c).tblInsert c.target.toNat t c.pb).2 :=
  State.sf_answers h (by simp only [ht])

theorem doTblDelete_forwarding (h : s.accepts 0x0405 c who false (s.tblLenOk c 20 4 1) true = true)
    (ht : (s.taken 0x0405 c).tables.get c.target.toNat = some t) :
    doTblDelete c s = ((s.taken 0x0405 c).tblDelete c.target.toNat t c.pb).1.answer 0x0405 c
      ((s.taken 0x0405 c).tblDelete c.target.toNat t c.pb).2 :=
  State.sf_answers h (by simp only [ht])

/-- An iteration without TBL_NEXT for 1 s. -/
theorem doIterationTimeout_closes {id : Nat} {it : Iter} (ht : s.tables.get id = some t) (hit : t.iter = some it)
    (hlate : it.lastFt + 1000000000 ≤ s.ft) : doIterationTimeout id s = s.onTable id fun t => { t with iter := none } := by
  simp [doIterationTimeout, ht, hit, hlate]

end

/-- A rule within its bank waits for the frame boundary (05 R147 R159). -/
theorem State.ruleInsert_waits {rank : Nat} {b : Bank} (hindex : le c.pb 0 4 < b.size) (hrsv : le c.pb 4 4 = 0)
    (haction : le c.pb 8 8 < 2 ^ 56 ∧ field (le c.pb 8 8) 14 2 ≠ 3 ∧ le c.pb 8 8 % 8 ≤ 4) :
    s.ruleInsert rank b c = s.later (.setRule rank (le c.pb 0 4) {
      action := le c.pb 8 8, value := le c.pb 16 64, mask := le c.pb 80 64 }) c 0x0404 := by
  obtain ⟨hwide, hcolour, hverdict⟩ := haction
  refine if_neg ?_
  simp only [Bool.or_eq_true, decide_eq_true_eq, bne_iff_ne, beq_iff_eq, hrsv, ne_eq, not_true_eq_false, or_false, hcolour]
  omega

theorem doTblInsert_rule {rank : Nat} {b : Bank} (h : s.accepts 0x0404 c who false (s.tblLenOk c 32 144 32) true = true)
    (ht : (s.taken 0x0404 c).tables.get c.target.toNat = none) (hb : (s.taken 0x0404 c).bankOf c.target.toNat = some (rank, b))
    (hindex : le c.pb 0 4 < b.size) (hrsv : le c.pb 4 4 = 0)
    (haction : le c.pb 8 8 < 2 ^ 56 ∧ field (le c.pb 8 8) 14 2 ≠ 3 ∧ le c.pb 8 8 % 8 ≤ 4) :
    doTblInsert c s = (s.taken 0x0404 c).onDamask fun d => { d with changes := d.changes ++ [(.setRule rank (le c.pb 0 4) {
      action := le c.pb 8 8, value := le c.pb 16 64, mask := le c.pb 80 64 }, (s.taken 0x0404 c).ft, some (c, 0x0404))] } :=
  State.sf_waits h (by simp only [ht, hb, State.ruleInsert_waits hindex hrsv haction, State.later])

theorem doTblFlushByPort_flushes {p : Nat} {b d e : State} (h : s.accepts 0x0406 c who false true true = true)
    (hp : p = cmdByte c 16) (hport : p < 32 ∨ p = 0xFF) (ht : (s.taken 0x0406 c).tables.has c.target.toNat = true)
    (hb : b = ((s.taken 0x0406 c).flushPart c.target.toNat 0 p).1) (hd : d = (b.flushPart c.target.toNat 1 p).1)
    (he : e = (d.flushPart c.target.toNat 2 p).1) :
    doTblFlushByPort c s = (e.flushPart c.target.toNat 3 p).1.answer 0x0406 c (Answer.ok
      (((s.taken 0x0406 c).flushPart c.target.toNat 0 p).2 + (b.flushPart c.target.toNat 1 p).2
        + (d.flushPart c.target.toNat 2 p).2 + (e.flushPart c.target.toNat 3 p).2)) := by
  subst hp hb hd he
  have hbad : ¬ (32 ≤ cmdByte c 16 && cmdByte c 16 != 0xFF) = true := by simp; omega
  have hparts : List.range 4 = [0, 1, 2, 3] := rfl
  exact State.sf_answers h (by
    simp only [if_neg hbad, ht, hparts, List.foldl_cons, List.foldl_nil, Nat.zero_add, Bool.not_true, Bool.false_eq_true, if_false])

theorem doTblAgingSet_waits (h : s.accepts 0x0407 c who false true true = true)
    (ht : (s.taken 0x0407 c).tables.has c.target.toNat = true) (hperiod : 1000000000 ≤ cmdLe c 16 8 ∧ cmdLe c 16 8 ≤ 10 ^ 15)
    (hphase : cmdLe c 24 8 < cmdLe c 16 8) :
    doTblAgingSet c s = ((s.taken 0x0407 c).onTable c.target.toNat fun t => { t with
      agingPend := t.agingPend ++ [(cmdLe c 16 8, cmdLe c 24 8, (s.taken 0x0407 c).ft)] }).answer 0x0407 c Answer.ok := by
  have hzero : ¬ cmdLe c 16 8 = 0 := by omega
  have hbad : ¬ (decide (cmdLe c 16 8 ≠ 0) && (decide (cmdLe c 16 8 < 1000000000) || decide (10 ^ 15 < cmdLe c 16 8)
      || decide (cmdLe c 16 8 ≤ cmdLe c 24 8))) = true := by simp; omega
  exact State.sf_answers h (by simp only [if_neg hbad, ht, if_neg hzero, Bool.not_true, Bool.false_eq_true, if_false])

end

/-- Settles O36: each command by its lemma above, the forwarding table's region by Buckram's turn. -/
theorem tableCommandsReply : Obligations.TableCommandsReply := by
  unfold Obligations.TableCommandsReply
  refine ⟨?profiles, ?bank, ?forwarding, ?region, ?searchOther, ?search, ?next, ?insert, ?insertRule, ?delete, ?flush, ?aging, ?timeout⟩
  case profiles =>
    exact fun s c who h hform hk hid hnone => congrArg Host.Outcome.next (doTblCreate_profiles h hform hk hid hnone)
  case bank =>
    exact fun s c who h hform hk hid hrank hroom => congrArg Host.Outcome.next (doTblCreate_bank h hform hk hid hrank hroom)
  case forwarding =>
    exact fun s c who i r h hk hform hid hbox hlaid =>
      congrArg Host.Outcome.next (doTblCreate_forwarding h hk hform hid hbox hlaid)
  case region =>
    exact fun s c env i k form r hs hpower hreset hbox hrota hok =>
      congrArg Host.Outcome.next ((doBuckramRequest_region env hs hpower hreset hbox hrota).trans (State.bkRegion_makes_table hok))
  case searchOther => exact fun s c who h ht => congrArg Host.Outcome.next (doTblSearch_other h ht)
  case search => exact fun s c who t h ht => congrArg Host.Outcome.next (doTblSearch_forwarding h ht)
  case next => exact fun s c who t h ht => congrArg Host.Outcome.next (doTblNext_forwarding h ht)
  case insert => exact fun s c who t h ht => congrArg Host.Outcome.next (doTblInsert_forwarding h ht)
  case insertRule =>
    exact fun s c who rank b h ht hb hindex hrsv haction =>
      congrArg Host.Outcome.next (doTblInsert_rule h ht hb hindex hrsv haction)
  case delete => exact fun s c who t h ht => congrArg Host.Outcome.next (doTblDelete_forwarding h ht)
  case flush =>
    exact fun s c who p b d e h hp hport ht hb hd he =>
      congrArg Host.Outcome.next (doTblFlushByPort_flushes h hp hport ht hb hd he)
  case aging => exact fun s c who h ht hperiod hphase => congrArg Host.Outcome.next (doTblAgingSet_waits h ht hperiod hphase)
  case timeout => exact fun s id t it ht hit hlate => congrArg Host.Outcome.next (doIterationTimeout_closes ht hit hlate)

end Sys2Proof.Machine
end

section
/-! SUPPORT. The reception of frames (05 R156 to R158): which frames a port takes, where they go, and the end of a steering change;
O38 from these. -/

namespace Sys2Proof.Machine

variable {s : State} {port : Nat} {b : Bytes}

/-! ### Frames that are not taken (05 R156, 16 R449) -/

theorem doFrameReceive_deaf (hdeaf : s.fatal = true ∨ s.linkUp port = false) (ok : Bool) : doFrameReceive port b ok s = s :=
  if_pos (by simpa using hdeaf)

section
variable (hs : s.fatal = false) (hup : s.linkUp port = true)
include hs hup

theorem doFrameReceive_standby (hstandby : s.power.dev = .standby ∨ s.power.standby.isSome = true) (ok : Bool) :
    doFrameReceive port b ok s = s.count Ct.netPort (port / 8) 1 :=
  (if_neg (by simp [hs, hup])).trans (if_pos hstandby)

theorem doFrameReceive_badFcs (hawake : ¬ (s.power.dev = .standby ∨ s.power.standby.isSome = true)) :
    doFrameReceive port b false s = s.count Ct.netPort (port / 8) (portWord port 4) :=
  (if_neg (by simp [hs, hup])).trans ((if_neg hawake).trans (if_pos rfl))

/-! ### Frames that are taken (05 R156 R158, 07 R214) -/

/-- The stage in which a frame is stored: held while its entry's steering change holds its flow and no home steers it. -/
def State.rxStage (s : State) (port hash tile : Nat) (home : Bool) : Stage :=
  if home then .arrived else match s.holding port hash tile with
    | some t => .steerHold t
    | none => .arrived

/-- A frame that is taken is counted, and then relayed, refused by its full buffer, or stored. -/
theorem doFrameReceive_taken {u : State} {ps : PState} {hash tile : Nat}
    (hawake : ¬ (s.power.dev = .standby ∨ s.power.standby.isSome = true))
    (hu : u = ((s.count Ct.netPort (port / 8) (portWord port 0)).countBy Ct.netPort (port / 8) (portWord port 1) b.length).steerNow)
    (hps : ps = u.damask.version.parse b port 128) (hhash : hash = ps.flowHash b (u.damask.version.profile port))
    (htile : tile = u.steer port ps b hash) :
    doFrameReceive port b true s = if u.isRelay b = true then u.relayReceive port b
      else if 0x8000000 < u.bufUse tile + b.length then u.count Ct.twill tile 5
      else (u.newFrame { u.newRx port b tile hash (u.rxStage port hash tile (u.byHome ps b)) with byHome := u.byHome ps b }).1 := by
  subst hu hps hhash htile
  exact (if_neg (by simp [hs, hup])).trans ((if_neg hawake).trans (if_neg (by simp)))

end

/-! ### Changes of steering (05 R156 R158) -/

/-- A frame held is released 4,096 ns after the point, and counted where the old tile still holds frames of its entry. -/
theorem doSteerHoldExpired_held {n p : Nat} {f : RxFrame} (hf : s.twill.frames.get n = some f) (hstage : f.stage = .steerHold p) :
    doSteerHoldExpired n s = if p + 4096 ≤ s.ft then
      (if s.oldHolds (netDie f.port * 512 + f.hash % 512) f.tile then s.count Ct.damask f.tile 18 else s).onFrameRx n
        fun f => { f with stage := .arrived } else s := by
  simp only [doSteerHoldExpired, hf, hstage]

theorem doSteeringUpdate_eq (s : State) :
    doSteeringUpdate s = if s.fatal = false ∧ s.steerPoint = true then s.rebalance.applySteering else s := by
  simp [doSteeringUpdate]

theorem exec_frameReceive (port : Nat) (b : Bytes) (ok : Bool) (s : State) :
    exec (.frameReceive port b ok) s = .next (s.backFrom (doFrameReceive port b ok (s.seenFrom (4 + port / 16)))) := rfl

/-- Settles O38: a frame by whether its port takes it, a held frame by its case, a steering change by its fields. -/
theorem framesAreReceivedAndSteered : Obligations.FramesAreReceivedAndSteered := by
  unfold Obligations.FramesAreReceivedAndSteered
  simp only [exec_frameReceive]
  refine ⟨?refused, ?taken, ?released, ?update, ?applied⟩
  case refused =>
    intro s0 s port b ok hseen hrefused
    subst hseen
    refine congrArg (fun x => Host.Outcome.next (s0.backFrom x)) ?_
    split
    · next hdeaf => exact doFrameReceive_deaf hdeaf ok
    · next hhears =>
      obtain ⟨hs, hup⟩ : (s0.seenFrom (4 + port / 16)).fatal = false ∧ (s0.seenFrom (4 + port / 16)).linkUp port = true := by
        simpa using hhears
      split
      · next hstandby => exact doFrameReceive_standby hs hup hstandby ok
      · next hawake =>
        have hok : ok = false := by tauto
        subst hok
        exact doFrameReceive_badFcs hs hup hawake
  case taken =>
    intro s0 s u port b ps hash tile home st hseen hs hup hdev hnone hu hps hhash htile hhome hst
    subst hseen
    have hawake : ¬ ((s0.seenFrom (4 + port / 16)).power.dev = .standby ∨
        (s0.seenFrom (4 + port / 16)).power.standby.isSome = true) := by simp [hdev, hnone]
    have hstage : st = u.rxStage port hash tile home := by
      rw [hst, State.rxStage]
      cases home <;> cases u.holding port hash tile <;> rfl
    rw [doFrameReceive_taken hs hup hawake hu hps hhash htile, hstage, hhome]
  case released => exact fun s n p f hf hstage => congrArg Host.Outcome.next (doSteerHoldExpired_held hf hstage)
  case update => exact fun s => congrArg Host.Outcome.next (doSteeringUpdate_eq s)
  case applied => exact fun s => ⟨rfl, rfl, rfl, rfl⟩

end Sys2Proof.Machine
end

section
/-! SUPPORT. The path of a received frame: its classification (05 R149 to R151), its policer (07 R205), its table (06 R173), its admission
(06 R165, 07 R188) and its disposal from the slow path (12 R349); O39 from these. -/

namespace Sys2Proof.Machine

variable {s : State} {n : Nat} {f : RxFrame}

theorem doFrameClassify_arrived (hs : s.fatal = false) (hf : s.twill.frames.get n = some f) (hstage : f.stage = .arrived) :
    doFrameClassify n s = s.classify n f := by
  simp only [doFrameClassify, hs, hf, hstage, Bool.false_eq_true, if_false]

/-! ### Policing (07 R203 R205) -/

/-- The policer of a parse, or a fresh one (07 R203). -/
def State.policerOf (s : State) (p : Parse) : Policer :=
  (s.twill.policers.get (p.policer.getD 0)).getD (Policer.fresh (s.unparked (p.policer.getD 0)))

section
variable {p : Parse} (hs : s.fatal = false) (hf : s.twill.frames.get n = some f) (hp : f.parse = some p)
include hs hf hp

/-- A disabled policer passes the frame; another colours it, and drops it where it is RED. -/
theorem doPolicerDecide_classified {x : Policer × Nat} {u : State} {p2 : Parse} (hstage : f.stage = .classified)
    (hx : x = (s.policerOf p).decide' s.ft f.bytes.length p.colour)
    (hu : u = (s.onTwill fun w => { w with policers := w.policers.set (p.policer.getD 0) x.1 }).count Ct.policer (p.policer.getD 0) x.2)
    (hp2 : p2 = { p with colour := x.2, result := splice p.result 53 [byte (x.2 + 4 * p.verdict)] }) :
    doPolicerDecide n s = if (s.policerOf p).rate = 0 then s.afterPolicer n f p
      else if x.2 = 2 then (u.sampleRec { f with parse := some p2 } 6 0 0).delFrame n else u.afterPolicer n f p2 := by
  subst hx hu hp2
  simp only [doPolicerDecide, hs, hf, hstage, hp, Bool.false_eq_true, if_false]
  rfl

/-! ### The table lookup (06 R165 R173) -/

theorem doTableLookup_missing (hstage : f.stage = .policed) (ht : s.tables.get p.table = none) :
    doTableLookup n s = s.dropRx n f 19 := by
  simp only [doTableLookup, hs, hf, hstage, hp, ht, Bool.false_eq_true, if_false]

/-- The frame takes the ACTION that its lookups find: it is dropped, sent to the slow path or resolved. -/
theorem doTableLookup_found {t : Table} {x : State × Nat} (hstage : f.stage = .policed) (ht : s.tables.get p.table = some t)
    (hx : x = s.lookups p.table t f p) :
    doTableLookup n s = if x.2 / 2 ^ 60 = 0 then x.1.dropRx n { f with tableAt := x.1.ft } 20
      else if x.2 / 2 ^ 60 = 4 then x.1.slowPath n { f with tableAt := x.1.ft } 0x40
      else x.1.onTwill fun w => { w with frames := w.frames.set n { f with tableAt := x.1.ft, stage := .resolved x.2 } } := by
  subst hx
  simp only [doTableLookup, hs, hf, hstage, hp, ht, Bool.false_eq_true, if_false]
  split
  · next h0 => rw [if_pos h0]
  · next h4 => rw [if_neg (by omega), if_pos h4]
  · next h0 h4 => rw [if_neg h0, if_neg h4]

end

/-! ### Admission (06 R165, 07 R188 R190, 16 R453) -/

theorem doTwillAdmit_resolved {a : Nat} (hs : s.fatal = false) (hf : s.twill.frames.get n = some f) (hstage : f.stage = .resolved a) :
    doTwillAdmit n s = if s.tileUsed f.tile = false ∧ a / 2 ^ 60 ∈ [1, 3, 5] then s else s.admitFrame n f a := by
  simp only [doTwillAdmit, hs, hf, hstage, admitsHere, Bool.false_eq_true, if_false, Bool.and_eq_true, Bool.not_eq_true',
    List.contains_iff_mem]

section
variable {a : Nat}

theorem State.admitFrame_port (ha : a / 2 ^ 60 = 1) :
    s.admitFrame n f a = match s.destFault (.port (a % 2 ^ 32 % 32) (field a 57 3)) with
      | some (w, _) => s.dropAdmit n f f.tile w
      | none => s.admitOne n f f.tile (.port (a % 2 ^ 32 % 32) (field a 57 3)) (.port (a % 2 ^ 32 % 32) (field a 57 3)) := by
  cases hfault : s.destFault (.port (a % 2 ^ 32 % 32) (field a 57 3)) <;> simp only [State.admitFrame, ha, hfault]

theorem State.admitFrame_queue (ha : a / 2 ^ 60 = 2) : s.admitFrame n f a = s.admitQueue n f (a % 2 ^ 32 % 65536) := by
  simp only [State.admitFrame, ha]

theorem State.admitFrame_group (ha : a / 2 ^ 60 = 3) :
    s.admitFrame n f a = match s.destFault (.dg (a % 2 ^ 32 % 16384) (field a 57 3)) with
      | some (w, _) => s.dropAdmit n f f.tile w
      | none => s.admitOne n f f.tile (.dg (a % 2 ^ 32 % 16384)) (.dg (a % 2 ^ 32 % 16384) (field a 57 3)) := by
  cases hfault : s.destFault (.dg (a % 2 ^ 32 % 16384) (field a 57 3)) <;> simp only [State.admitFrame, ha, hfault]

theorem State.admitFrame_flood {ports : List Nat} (ha : a / 2 ^ 60 = 5)
    (hports : ports = (List.range 32).filter fun m => bit (a % 2 ^ 32) m && m != f.port && s.linkUp m) :
    s.admitFrame n f a = if ports = [] then (s.sampleRec f 6 0 0).delFrame n else (s.delFrame n).floodCopies n (field a 57 3) f ports := by
  subst hports
  simp only [State.admitFrame, ha, List.isEmpty_iff]

theorem State.admitFrame_other (h1 : a / 2 ^ 60 ≠ 1) (h2 : a / 2 ^ 60 ≠ 2) (h3 : a / 2 ^ 60 ≠ 3) (h5 : a / 2 ^ 60 ≠ 5) :
    s.admitFrame n f a = s.dropRx n f 20 := by
  unfold State.admitFrame
  dsimp only
  split
  · exact absurd ‹_› h1
  · exact absurd ‹_› h2
  · exact absurd ‹_› h3
  · exact absurd ‹_› h5
  · rfl

end

/-! ### SP_DISP (12 R349) -/

section
variable {tile : Nat} {u : State}

/-- A handle without a frame is counted. -/
theorem State.dispose_noFrame {w0 : Nat} (hframe : s.handleFrame tile (w0 % 65536) = none) (w1 : Nat) :
    s.dispose tile w0 w1 = s.count Ct.cores tile 32 := by
  simp only [State.dispose, hframe]

/-- A message for a frame is counted where it is malformed, and else releases or admits the frame. -/
theorem State.dispose_frame {w0 a len : Nat} (hframe : s.handleFrame tile (w0 % 65536) = some (n, f, a))
    (hlen : len = if field w0 16 16 = 0 then f.bytes.length else field w0 16 16) (w1 : Nat) :
    s.dispose tile w0 w1 = if (field w0 16 16 ≠ 0 ∧ (field w0 16 16 < 60 ∨ f.bytes.length < field w0 16 16)) ∨ w0 / 2 ^ 32 ≠ 0 ∨
        w1 / 2 ^ 60 = 4 ∨ actionOk w1 = false then s.count Ct.cores tile 32
      else if w1 / 2 ^ 60 = 0 then s.delFrame n else s.admitFrame n { f with bytes := s.bufRead tile a len } w1 := by
  subst hlen
  simp only [State.dispose, hframe, Bool.not_eq_true']

variable (hs : s.fatal = false)
include hs

theorem doSpDisp_empty (hmsg : s.takeMsg (tile * 2048 + 1) = (u, none)) : doSpDisp tile s = u := by
  simp only [doSpDisp, hs, hmsg, Bool.false_eq_true, if_false]

theorem doSpDisp_words {src : Nat} {w0 w1 : W64} (hmsg : s.takeMsg (tile * 2048 + 1) = (u, some (src, [w0, w1]))) :
    doSpDisp tile s = u.dispose tile w0.toNat w1.toNat := by
  simp only [doSpDisp, hs, hmsg, Bool.false_eq_true, if_false]

/-- A message of another length than two words is counted. -/
theorem doSpDisp_otherLength {src : Nat} {l : List W64} (hmsg : s.takeMsg (tile * 2048 + 1) = (u, some (src, l)))
    (hlen : l.length ≠ 2) : doSpDisp tile s = u.count Ct.cores tile 32 := by
  simp only [doSpDisp, hs, hmsg, Bool.false_eq_true, if_false]
  match l, hlen with
  | [], _ | [_], _ | _ :: _ :: _ :: _, _ => rfl
  | [_, _], hlen => exact absurd rfl hlen

end

/-- Settles O39: each row by the stage of its frame, the admission by the type of the ACTION, SP_DISP by its message. -/
theorem framesPassDamaskAndTables : Obligations.FramesPassDamaskAndTables := by
  unfold Obligations.FramesPassDamaskAndTables
  refine ⟨?classify, ?police, ?missing, ?lookup, ?admission, ?action, ?message, ?noFrame, ?disposed⟩
  case classify =>
    intro s n f g x v prof ps c p w hs hf hstage hx hv hprof hps hc hp hw hg
    subst hx hv hprof hps hc hp hw hg
    exact congrArg Host.Outcome.next (doFrameClassify_arrived hs hf hstage)
  case police =>
    intro s n f p pol x u p2 hs hf hstage hp hpol hx hu hp2
    subst hpol
    exact congrArg Host.Outcome.next (doPolicerDecide_classified hs hf hp hstage hx hu hp2)
  case missing =>
    exact fun s n f p hs hf hstage hp ht => congrArg Host.Outcome.next (doTableLookup_missing hs hf hp hstage ht)
  case lookup =>
    exact fun s n f p t x hs hf hstage hp ht hx => congrArg Host.Outcome.next (doTableLookup_found hs hf hp hstage ht hx)
  case admission => exact fun s n a f hs hf hstage => congrArg Host.Outcome.next (doTwillAdmit_resolved hs hf hstage)
  case action =>
    intro s n a f arg tc ports harg htc hports
    subst harg htc
    split
    · next ha => exact State.admitFrame_port ha
    · next h1 =>
      split
      · next ha => exact State.admitFrame_queue ha
      · next h2 =>
        split
        · next ha => exact State.admitFrame_group ha
        · next h3 =>
          split
          · next ha => exact State.admitFrame_flood ha hports
          · next h5 => exact State.admitFrame_other h1 h2 h3 h5
  case message =>
    intro s tile u hs hu
    obtain ⟨u, m⟩ := u
    refine ⟨fun hnone => ?_, fun hother => ?_⟩
    · have hm : m = none := hnone
      exact congrArg Host.Outcome.next (doSpDisp_empty hs (hm ▸ hu.symm))
    · cases m with
      | none => simp at hother
      | some m =>
        exact congrArg Host.Outcome.next (doSpDisp_otherLength hs hu.symm (by simpa using hother))
  case noFrame =>
    exact fun s u tile src w0 w1 hs hmsg hframe =>
      congrArg Host.Outcome.next ((doSpDisp_words hs hmsg).trans (State.dispose_noFrame hframe _))
  case disposed =>
    exact fun s u tile n src a len f w0 w1 hs hmsg hframe hlen =>
      congrArg Host.Outcome.next ((doSpDisp_words hs hmsg).trans (State.dispose_frame hframe hlen _))

end Sys2Proof.Machine
end

section
/-! SUPPORT. The sweep visit of a bucket (06 R180): what it does and that it reads the bucket from DRAM (14 R404 R411), and a poisoned bucket
that shows it; refutes O37. -/

namespace Sys2Proof.Machine

section
variable {s : State} {id p line : Nat} {t : Table}

/-- A visit that is due reads its bucket, treats the four ways, and names the next bucket. -/
theorem doAgingVisit_bucket {start period : Nat} (hs : s.fatal = false) (ht : s.tables.get id = some t)
    (hpass : (t.part p).pass = some (start, period)) (hnext : (t.part p).passNext = line) (hline : line < t.nb)
    (hdue : roundUp (start + line * period / (2 * t.nb)) 1024 ≤ s.ft) :
    doAgingVisit id p line s = ((List.range 4).foldl (fun s i => s.visitSlot id p line i) (s.meetBuckets t p [line])).onPart id p
      fun x => { x with passNext := line + 1 } := by
  have hready : ¬ (line ≠ (t.part p).passNext || t.nb < line || s.ft < roundUp (start + line * period / (2 * t.nb)) 1024) = true := by
    simp [hnext]
    omega
  simp only [doAgingVisit, hs, ht, hpass, if_pos hline, if_neg hready, Bool.false_eq_true, if_false]

/-! ### A bucket without entries -/

theorem State.slots_getD_of_unlisted {b : Nat} (hb : b < t.nb) (hempty : (t.part p).buckets.get b = none) (i : Nat) :
    (s.slots t p b).getD i none = none := by
  have hnone : ∀ x ∈ s.slots t p b, x = none := by
    unfold State.slots
    rw [if_pos hb, hempty, Option.getD_none]
    split
    · exact fun x hx => List.eq_of_mem_replicate hx
    · intro x hx
      obtain ⟨⟨e, j⟩, he, rfl⟩ := List.mem_map.1 hx
      have he' : e = none := List.eq_of_mem_replicate ((List.mem_zipIdx' he).2 ▸ List.getElem_mem _)
      simp [he']
  cases h : (s.slots t p b)[i]? with
  | none => simp [List.getD, h]
  | some x => simp [List.getD, h, hnone x (List.mem_of_getElem? h)]

theorem State.visitSlots_of_unlisted (ht : s.tables.get id = some t) (hb : line < t.nb)
    (hempty : (t.part p).buckets.get line = none) (l : List Nat) : l.foldl (fun s i => s.visitSlot id p line i) s = s := by
  have hvisit (i : Nat) : s.visitSlot id p line i = s := by
    simp only [State.visitSlot, ht, State.slots_getD_of_unlisted hb hempty]
  induction l with
  | nil => rfl
  | cons i l ih => rw [List.foldl_cons, hvisit, ih]

end

@[simp] theorem State.backFrom_ct (s u : State) : (s.backFrom u).ct = u.ct := by
  unfold State.backFrom
  dsimp only
  split <;> rfl

@[simp] theorem State.onPart_ct (s : State) (id p : Nat) (f : Partition → Partition) : (s.onPart id p f).ct = s.ct := rfl

/-! ### A poisoned bucket -/

/-- An empty table of 4,096 entries at device address 0, whose pass of FT 0 is to visit bucket 0 of every partition (06 R161 R180). -/
def sweptTable : Table :=
  { Table.fresh 12 1 0 true 0 0 with
    period := 1000000000
    parts := List.replicate 4
      { buckets := [], stash := List.replicate 8 none, learnQ := [], pass := some (0, 1000000000), passNext := 0 } }

/-- The device at FT 0 with that table as table 3 in a region of its own, and the first line of the region poisoned (14 R402). -/
def poisonedBucketState : State :=
  (State.reset.onTables fun _ => [(3, sweptTable)]).onDram fun d => { d with
    regions := [(0, { base := 0, size := 147456, local3 := none, chanBase := 0, enabled := true, owner := .device, used := 132096 })]
    poison := [0] }

/-- That state as the die of partition 0 sees it. -/
def poisonedBucketSeen : State := poisonedBucketState.seenFrom 0

theorem poisonedBucketSeen_fatal : poisonedBucketSeen.fatal = false := by decide +kernel

theorem poisonedBucketSeen_table : poisonedBucketSeen.tables.get 3 = some sweptTable := by decide +kernel

theorem poisonedBucketSeen_counters : poisonedBucketSeen.ct.words = [] := by decide +kernel

/-- Reading the bucket is counted, in POISON_READ (14 R405 R411). -/
theorem poisonedBucketSeen_read_counters : (poisonedBucketSeen.meetBuckets sweptTable 0 [0]).ct.words.isEmpty = false := by
  decide +kernel

theorem poisonedBucketSeen_read_table : (poisonedBucketSeen.meetBuckets sweptTable 0 [0]).tables.get 3 = some sweptTable := by
  decide +kernel

theorem exec_agingVisit (id p line : Nat) (s : State) :
    exec (.agingVisit id p line) s = .next (s.backFrom (doAgingVisit id p line (s.seenFrom p))) := rfl

/-- Refutes O37: the fourth clause has a visit of a bucket treat its four ways alone, but the model reads the bucket first, which counts
POISON_READ where a line of it is poisoned. -/
theorem not_tableEntriesAreFoundLearnedAndAged : ¬ Obligations.TableEntriesAreFoundLearnedAndAged := by
  unfold Obligations.TableEntriesAreFoundLearnedAndAged
  rintro ⟨-, -, -, hvisit, -⟩
  have hpass : (sweptTable.part 0).pass = some (0, 1000000000) := rfl
  have hnext : (sweptTable.part 0).passNext = 0 := rfl
  have hline : 0 < sweptTable.nb := by decide
  have hunlisted : (sweptTable.part 0).buckets.get 0 = none := rfl
  have hdue : roundUp (0 + 0 * 1000000000 / (2 * sweptTable.nb)) 1024 ≤ poisonedBucketSeen.ft := by decide +kernel
  obtain ⟨hbucket, -⟩ := hvisit poisonedBucketState poisonedBucketSeen 3 0 0 0 1000000000 sweptTable rfl poisonedBucketSeen_fatal
    poisonedBucketSeen_table hpass hnext
  have hclaim := Host.Outcome.next.inj ((exec_agingVisit ..).symm.trans (hbucket hline hdue))
  have hfree : (((poisonedBucketSeen.visitSlot 3 0 0 0).visitSlot 3 0 0 1).visitSlot 3 0 0 2).visitSlot 3 0 0 3 = poisonedBucketSeen :=
    State.visitSlots_of_unlisted poisonedBucketSeen_table hline hunlisted (List.range 4)
  have hmodel := doAgingVisit_bucket poisonedBucketSeen_fatal poisonedBucketSeen_table hpass hnext hline hdue
  rw [State.visitSlots_of_unlisted poisonedBucketSeen_read_table hline hunlisted] at hmodel
  rw [hfree, ← poisonedBucketSeen, hmodel] at hclaim
  have hcounters : (poisonedBucketSeen.meetBuckets sweptTable 0 [0]).ct = poisonedBucketSeen.ct := by
    simpa using congrArg State.ct hclaim
  simpa [hcounters, poisonedBucketSeen_counters] using poisonedBucketSeen_read_counters

end Sys2Proof.Machine
end

section
/-! SUPPORT. The source queues of a queue that has moved (03 R91, 07 R189 R191): the oldest of their frames goes first, whatever tile holds it,
and a state that shows it; refutes O40. -/

namespace Sys2Proof.Machine

/-- While the oldest frame of a queue's source queues waits for its launch time, none of them advances. -/
theorem doSourceQueueAdvance_of_launch {s : State} {qid : Nat} {q : Queue} {f : TwFrame} {l : List TwFrame}
    (hq : s.queue qid = some q) (hf : s.twFrames (s.sourceTile qid q.home) (.source qid) = f :: l) (hlaunch : f.launch.isSome = true) :
    doSourceQueueAdvance qid s = s := by
  simp [doSourceQueueAdvance, State.advanceSource, hq, hf, hlaunch]

/-- A frame of 60 bytes for class 7 of port 0, that operation `op` started. -/
def startedFrame (op : Nat) (launch : Option Nat) : TwFrame :=
  { bytes := zeros 60, colour := 0, admitFt := 0, op := some op, rx := none, copy := none, launch := launch, dest := .port 0 7 }

/-- A PKT_TX queue with its home on tile 0. -/
def movedQueue : Queue :=
  { newQueue .pktTx 6 0x40000 .firmware 0 0 4 0x60000 0 false 0 with state := .enabled }

/-- Queue 3 is that queue. Tile 0 holds its frame of operation 5, and tile 1, its home before, that of operation 3, which waits for a
launch time; port 0 is up. -/
def movedState : State :=
  ((State.reset.onQm fun m => { m with queues := [(3, movedQueue)] }).onLogical 0 fun x => { x with up := true }).onTwill fun w =>
    { w with queues := [{ TwQueue.fresh 0 (.source 3) with frames := [startedFrame 5 none] },
      { TwQueue.fresh 1 (.source 3) with frames := [startedFrame 3 (some 1024)] }] }

theorem movedState_home_frames : movedState.twFrames 0 (.source 3) = [startedFrame 5 none] := by decide +kernel

theorem movedState_oldest_frames :
    movedState.twFrames (movedState.sourceTile 3 movedQueue.home) (.source 3) = [startedFrame 3 (some 1024)] := by decide +kernel

theorem movedState_dest : movedState.destFault (.port 0 7) = none := by decide +kernel

theorem movedState_room : movedState.admitFail 0 (.port 0 7) 60 0 true = none := by decide +kernel

/-- The frame on the home tile passed to its port would leave that tile's source queue empty. -/
theorem movedState_popped_frames :
    ((movedState.popTw 0 (.source 3)).enqueue 0 (.port 0 7) (startedFrame 5 none)).twFrames 0 (.source 3) = [] := by decide +kernel

/-- Refutes O40: its fifth clause has the head of the source queue on the queue's home tile pass, but the model, by R191, advances the oldest
frame, which a tile that was the home before may still hold. -/
theorem not_shapersPolicersAndGroups : ¬ Obligations.ShapersPolicersAndGroups := by
  unfold Obligations.ShapersPolicersAndGroups
  rintro ⟨-, -, -, -, hadvance, -⟩
  have hqueue : movedState.queue 3 = some movedQueue := rfl
  have hclaim : exec (.sourceQueueAdvance 3) movedState =
      .next ((movedState.popTw 0 (.source 3)).enqueue 0 (.port 0 7) (startedFrame 5 none)) :=
    hadvance movedState 3 movedQueue (startedFrame 5 none) [] rfl hqueue movedState_home_frames rfl rfl movedState_dest movedState_room
  have hmodel : exec (.sourceQueueAdvance 3) movedState = .next movedState :=
    congrArg Host.Outcome.next (doSourceQueueAdvance_of_launch hqueue movedState_oldest_frames rfl)
  have hstate := Host.Outcome.next.inj (hmodel.symm.trans hclaim)
  have hframes := congrArg (State.twFrames · 0 (.source 3)) hstate
  simp [movedState_home_frames, movedState_popped_frames] at hframes

end Sys2Proof.Machine
end

section
/-! SUPPORT. Schedules (07 R207 R216 to R229): a physical port that is changed, the schedule commands where they are accepted, and what a
cycle boundary, a slot start and a free port do; O41 from these. -/

namespace Sys2Proof.Machine

/-! ### A physical port that is changed -/

section
variable {s : State} {p : Nat}

theorem State.onPhys_onPhys (s : State) (p : Nat) (f g : PhysPort → PhysPort) :
    (s.onPhys p f).onPhys p g = s.onPhys p (g ∘ f) :=
  congrArg (fun l => s.onTwill fun w => { w with phys := l }) (List.modify_modify_eq f g p s.twill.phys)

/-- Two changes that agree on the port. -/
theorem State.onPhys_congr {f g : PhysPort → PhysPort} (hfg : f (s.phys p) = g (s.phys p)) : s.onPhys p f = s.onPhys p g := by
  refine congrArg (fun l => s.onTwill fun w => { w with phys := l }) (List.ext_getElem? fun i => ?_)
  by_cases hi : p = i
  · subst hi
    cases hx : s.twill.phys[p]? with
    | none => simp [modAt, hx]
    | some x =>
      have hport : s.phys p = x := by simp [State.phys, List.getD, hx]
      rw [hport] at hfg
      simp [modAt, hx, hfg]
  · simp [modAt, hi]

/-- A change that leaves the port as it is. -/
theorem State.onPhys_of_fixed {f : PhysPort → PhysPort} (h : f (s.phys p) = s.phys p) : s.onPhys p f = s :=
  calc s.onPhys p f = s.onPhys p id := State.onPhys_congr h
    _ = s := congrArg (fun l => s.onTwill fun w => { w with phys := l }) (List.modify_id p s.twill.phys)

/-- A field that a change of the port keeps. -/
theorem State.phys_onPhys_keeps {β : Type} (view : PhysPort → β) {f : PhysPort → PhysPort} (hf : ∀ x, view (f x) = view x) :
    view ((s.onPhys p f).phys p) = view (s.phys p) := by
  have hget : (s.onPhys p f).phys p = (((s.twill.phys[p]?).map f).getD PhysPort.reset) := by
    simp [State.phys, State.onPhys, modAt, List.getD]
  rw [hget, State.phys, List.getD]
  cases s.twill.phys[p]? with
  | none => rfl
  | some x => exact hf x

theorem State.phys_of_twill {t : State} (h : t.twill = s.twill) : t.phys p = s.phys p := by
  rw [State.phys, h, State.phys]

/-! ### Events and replies of a port -/

@[simp] theorem State.raise_twill (s : State) (src obj detail : Nat) (sc : Scope) : (s.raise src obj detail sc).twill = s.twill :=
  (congrArg State.twill (s.raise_beyondEvents src obj detail sc) :)

@[simp] theorem State.twEvent_twill (s : State) (p k detail at' : Nat) : (s.twEvent p k detail at').twill = s.twill := by
  simp [State.twEvent]

@[simp] theorem State.reply_twill (s : State) (code : Nat) (c : Cmd) (byBk : Bool) (a : Answer) :
    (s.reply code c byBk a).twill = s.twill := by
  obtain ⟨-, -, -, -, -, -, -, htwill, -⟩ := s.reply_frame code c byBk a
  exact htwill

/-- A mode that takes effect leaves the changes that wait. -/
theorem State.setScheduled_schedPend (s : State) (p : Nat) (v : Bool) (b : Nat) :
    ((s.setScheduled p v b).phys p).schedPend = (s.phys p).schedPend := by
  unfold State.setScheduled
  split
  · rfl
  · rw [State.phys_of_twill (State.twEvent_twill ..)]
    exact State.phys_onPhys_keeps PhysPort.schedPend fun _ => rfl

theorem State.fallBack_schedPend (s : State) (p b : Nat) : ((s.fallBack p b).phys p).schedPend = (s.phys p).schedPend := by
  unfold State.fallBack
  rw [State.phys_of_twill (State.twEvent_twill ..)]
  exact (State.setScheduled_schedPend ..).trans (State.phys_onPhys_keeps PhysPort.schedPend fun _ => rfl)

end

/-! ### Cycle boundaries (07 R219 R220 R226) -/

/-- A cycle boundary with its swap taken: what the fallback and the mode changes then meet. -/
def State.swapped (s : State) (p b : Nat) : State := (s.onPhys p fun x => { x with lastBoundary := b }).applySwap p b

/-- A fallback governs the boundary. -/
def State.fallsBack (s : State) (p b : Nat) : Bool := ((s.swapped p b).phys p).fallback.any fun t => decide (t < b)

/-- The state that the mode changes of the boundary meet. -/
def State.fellBack (s : State) (p b : Nat) : State := if s.fallsBack p b then (s.swapped p b).fallBack p b else s.swapped p b

section
variable {s : State} {p b : Nat} (hb : s.cycleNow p = some b) (hs : s.fatal = false)

theorem State.swapped_of_none (h : (s.phys p).swap = none) : s.swapped p b = s.onPhys p fun x => { x with lastBoundary := b } := by
  have hswap : ((s.onPhys p fun x => { x with lastBoundary := b }).phys p).swap = none :=
    (State.phys_onPhys_keeps PhysPort.swap fun _ => by rfl).trans h
  unfold State.swapped State.applySwap
  rw [hswap]

/-- A swap that is due exchanges the tables, with its event and its reply. -/
theorem State.swapped_of_due {t : Nat} {c : Cmd} (h : (s.phys p).swap = some (t, c)) (hdue : t ≤ b) :
    s.swapped p b = ((s.onPhys p fun x => { x with
      lastBoundary := b, swap := none, active := x.shadow, shadow := x.active }).twEvent p 2 0 b).reply 0x0505 c false
        { Answer.ok with ft := some b } := by
  have hswap : ((s.onPhys p fun x => { x with lastBoundary := b }).phys p).swap = some (t, c) :=
    (State.phys_onPhys_keeps PhysPort.swap fun _ => by rfl).trans h
  unfold State.swapped State.applySwap
  simp only [hswap, if_neg (Nat.not_lt.2 hdue), State.onPhys_onPhys]
  rfl

/-- The swap exchanges the tables alone: the fallback and the changes that wait are as before. -/
theorem State.swapped_phys : ((s.swapped p b).phys p).fallback = (s.phys p).fallback ∧
    ((s.swapped p b).phys p).schedPend = (s.phys p).schedPend := by
  have hkeep {f : PhysPort → PhysPort} (hf : ∀ x, (f x).fallback = x.fallback ∧ (f x).schedPend = x.schedPend) :
      ((s.onPhys p f).phys p).fallback = (s.phys p).fallback ∧ ((s.onPhys p f).phys p).schedPend = (s.phys p).schedPend :=
    ⟨State.phys_onPhys_keeps PhysPort.fallback fun x => (hf x).1, State.phys_onPhys_keeps PhysPort.schedPend fun x => (hf x).2⟩
  unfold State.swapped State.applySwap
  split
  · exact hkeep fun _ => ⟨rfl, rfl⟩
  · split
    · exact hkeep fun _ => ⟨rfl, rfl⟩
    · dsimp only
      rw [State.phys_of_twill ((State.reply_twill ..).trans (State.twEvent_twill ..)), State.onPhys_onPhys]
      exact hkeep fun _ => ⟨rfl, rfl⟩

theorem State.fallsBack_iff : s.fallsBack p b = (s.phys p).fallback.any fun t => decide (t < b) := by
  rw [State.fallsBack, State.swapped_phys.1]

theorem State.fellBack_schedPend : ((s.fellBack p b).phys p).schedPend = (s.phys p).schedPend := by
  unfold State.fellBack
  split
  · exact (State.fallBack_schedPend ..).trans State.swapped_phys.2
  · exact State.swapped_phys.2

include hb hs

/-- The mode changes accepted before the boundary take effect at it, in their order, after its swap and its fallback. -/
theorem doCycleBoundary_at : doCycleBoundary p s =
    ((s.phys p).schedPend.filter fun x => x.2.2 < b).foldl (fun u x => u.applyMode p (s.fallsBack p b) x.1 x.2.1 b)
      ((s.fellBack p b).onPhys p fun x => { x with schedPend := x.schedPend.filter fun y => !(y.2.2 < b) }) := by
  rw [← s.fellBack_schedPend (p := p) (b := b)]
  simp only [doCycleBoundary, hb, hs, Bool.false_eq_true, if_false]
  rfl

/-- Without a mode change that waits, the boundary is over with the fallback. -/
theorem doCycleBoundary_noChange (hpend : (s.phys p).schedPend = []) : doCycleBoundary p s = s.fellBack p b := by
  have hnone : ((s.fellBack p b).phys p).schedPend = [] := State.fellBack_schedPend.trans hpend
  rw [doCycleBoundary_at hb hs, hpend]
  apply State.onPhys_of_fixed
  rw [hnone]
  exact congrArg (fun l => { (s.fellBack p b).phys p with schedPend := l }) hnone.symm

/-- A change to SCHEDULED with FT locked, and neither swap nor fallback. -/
theorem doCycleBoundary_scheduled {t : Nat} {c : Cmd} (hswap : (s.phys p).swap = none) (hfall : (s.phys p).fallback = none)
    (hpend : (s.phys p).schedPend = [(true, c, t)]) (ht : t < b) (hlocked : s.ftLocked = true) :
    doCycleBoundary p s = ((s.onPhys p fun x => { x with lastBoundary := b, schedPend := [] }).setScheduled p true b).reply 0x0506 c
      false { Answer.ok 1 with ft := some b } := by
  have hno : s.fallsBack p b = false := by rw [State.fallsBack_iff, hfall]; rfl
  have hleft : (s.fellBack p b).onPhys p (fun x => { x with schedPend := x.schedPend.filter fun y => !(y.2.2 < b) }) =
      s.onPhys p fun x => { x with lastBoundary := b, schedPend := [] } := by
    rw [State.fellBack, hno, if_neg Bool.false_ne_true, State.swapped_of_none hswap, State.onPhys_onPhys]
    exact State.onPhys_congr (by simp [hpend, ht])
  have hstill : (s.onPhys p fun x => { x with lastBoundary := b, schedPend := [] }).ftLocked = true := hlocked
  rw [doCycleBoundary_at hb hs, hleft, hpend, hno]
  simp [ht, State.applyMode, hstill]

/-- A fallback, with neither swap nor mode change. -/
theorem doCycleBoundary_fallBack {t : Nat} (hswap : (s.phys p).swap = none) (hfall : (s.phys p).fallback = some t) (ht : t < b)
    (hpend : (s.phys p).schedPend = []) :
    doCycleBoundary p s = (s.onPhys p fun x => { x with lastBoundary := b }).fallBack p b := by
  have hfalls : s.fallsBack p b = true := by simp [State.fallsBack_iff, hfall, ht]
  rw [doCycleBoundary_noChange hb hs hpend, State.fellBack, if_pos hfalls, State.swapped_of_none hswap]

/-- A swap that is due, with neither fallback nor mode change. -/
theorem doCycleBoundary_swap {t : Nat} {c : Cmd} (hswap : (s.phys p).swap = some (t, c)) (ht : t ≤ b)
    (hfall : (s.phys p).fallback = none) (hpend : (s.phys p).schedPend = []) :
    doCycleBoundary p s = ((s.onPhys p fun x => { x with
      lastBoundary := b, swap := none, active := x.shadow, shadow := x.active }).twEvent p 2 0 b).reply 0x0505 c false
        { Answer.ok with ft := some b } := by
  have hno : ¬ s.fallsBack p b = true := by simp [State.fallsBack_iff, hfall]
  rw [doCycleBoundary_noChange hb hs hpend, State.fellBack, if_neg hno, State.swapped_of_due hswap ht]

end

/-! ### Slots and free ports (07 R207 R223) -/

section
variable {s : State} {p n : Nat}

/-- A slot into which no step led, and which the boundary taken last does not cut off, starts. -/
theorem doSlotStart_starts {c : Sched} (hs : s.fatal = false) (hactive : (s.phys p).active = some c)
    (hsched : (s.phys p).scheduled = true) (hstep : s.ftu.stepAt ≤ (c.slotAt s.ft).2)
    (hlast : (s.phys p).lastBoundary ≤ (c.slotAt s.ft).2) :
    doSlotStart p s = s.onPhys p fun x => { x with slot := some (c.slotAt s.ft) } := by
  simp [doSlotStart, hs, hactive, hsched, Nat.not_lt.2 hstep, Nat.not_lt.2 hlast]

/-- A free port that is UNSCHEDULED, with no change of that waiting, starts the head that is chosen. -/
theorem doFrameTransmitStart_unscheduled {h : Head} {tc : Nat} (hs : s.fatal = false) (hup : s.linkUp n = true)
    (hsched : (s.phys (n / 8)).scheduled = false) (hpend : (s.phys (n / 8)).schedPend = [])
    (hchoice : s.choose n false (if (s.phys (n / 8)).freeFrom ≤ s.ft then (s.phys (n / 8)).freeFrom * 200 else 0) none = some (h, tc)) :
    doFrameTransmitStart n s = ((s.transmit n h).setLast (n * 8 + tc) h.tile).setLast (rotQueue h.tile n tc) h.key.rank := by
  simp [doFrameTransmitStart, hs, hup, hsched, hpend, hchoice, rotTile]

end

/-! ### Commands (07 R216 R220 R221 R229) -/

section
variable {s : State} {c : Cmd} {who : Caller}

theorem doTwSchedLoad_first (h : s.accepts 0x0504 c who false (loadLenOk c) true = true) (hok : loadOk c.pb = true)
    (hfirst : bit (byteAt c.pb 20) 0 = true) (hswap : ((s.taken 0x0504 c).phys c.target.toNat).swap = none) {t : Sched}
    (ht : t = (List.range (le c.pb 18 2)).foldl (fun (t : Sched) i => { t with
      slots := t.slots.set (le c.pb 16 2 + i) (le c.pb (32 + 2 * i) 2) }) (loadHeader c.pb)) :
    doTwSchedLoad c s = ((s.taken 0x0504 c).onPhys c.target.toNat fun x => { x with shadow := some t }).answer 0x0504 c
      (Answer.ok t.slots.length) :=
  State.sf_answers h (by simp [hok, hfirst, hswap, ht])

theorem doTwSchedSwap_waits {t : Sched} (h : s.accepts 0x0505 c who false true true = true)
    (hshadow : ((s.taken 0x0505 c).phys c.target.toNat).shadow = some t) (hlead : (s.taken 0x0505 c).cmdStart + 100000 ≤ cmdLe c 16 8)
    (hcomplete : t.complete = true) (hswap : ((s.taken 0x0505 c).phys c.target.toNat).swap = none)
    (hbound : t.isBoundary (cmdLe c 16 8) = true)
    (hactive : ∀ a, ((s.taken 0x0505 c).phys c.target.toNat).active = some a → a.isBoundary (cmdLe c 16 8) = true) :
    doTwSchedSwap c s = (s.taken 0x0505 c).onPhys c.target.toNat fun x => { x with swap := some (cmdLe c 16 8, c) } := by
  have hall : ((s.taken 0x0505 c).phys c.target.toNat).active.all (·.isBoundary (cmdLe c 16 8)) = true :=
    (Option.all_eq_true ..).2 hactive
  exact State.sf_waits h (by simp [hshadow, Nat.not_lt.2 hlead, hcomplete, hswap, hbound, hall])

section
variable (h : s.accepts 0x0506 c who false true true = true)
include h

/-- TW_MODE_SET to SCHEDULED of a port in mode 0 with a table: it waits where FT is locked, and ends S_NOT_LOCKED elsewhere. -/
theorem State.twModeSet_scheduled (hmode : cmdByte c 16 = 1) (hport : ((s.taken 0x0506 c).phys c.target.toNat).mode = 0)
    (hactive : ((s.taken 0x0506 c).phys c.target.toNat).active.isSome = true) :
    s.twModeSet c = if (s.taken 0x0506 c).ftLocked = true then
      (s.taken 0x0506 c).onPhys c.target.toNat fun x => { x with schedPend := x.schedPend ++ [(true, c, (s.taken 0x0506 c).ft)] }
      else (s.taken 0x0506 c).answer 0x0506 c (Answer.just St.notLocked) := by
  have hsome : ((s.taken 0x0506 c).phys c.target.toNat).active.isNone = false := by simpa using hactive
  cases hlocked : (s.taken 0x0506 c).ftLocked with
  | true => exact State.sf_waits h (by simp [hmode, hport, hsome, hlocked])
  | false => exact State.sf_answers h (by simp [hmode, hport, hsome, hlocked])

/-- TW_MODE_SET to UNSCHEDULED: a port without a table is so at once. -/
theorem State.twModeSet_unscheduled (hmode : cmdByte c 16 = 0) :
    s.twModeSet c = if ((s.taken 0x0506 c).phys c.target.toNat).active.isNone then (s.taken 0x0506 c).answer 0x0506 c (Answer.ok 0)
      else (s.taken 0x0506 c).onPhys c.target.toNat fun x => { x with
        schedPend := x.schedPend ++ [(false, c, (s.taken 0x0506 c).ft)] } := by
  cases hnone : ((s.taken 0x0506 c).phys c.target.toNat).active.isNone with
  | true => exact State.sf_answers h (by simp [hmode, hnone])
  | false => exact State.sf_waits h (by simp [hmode, hnone])

end

theorem doTwQuery_accepted (h : s.accepts 0x0507 c who false true true = true) {x : PhysPort}
    (hx : x = (s.taken 0x0507 c).phys c.target.toNat) :
    doTwQuery c s = (s.taken 0x0507 c).answer 0x0507 c ({ Answer.ok with
      data := [byte x.modeByte, byte (b2n x.swap.isSome + 2 * b2n (x.shadow.any (·.complete)) + 4 * b2n x.active.isSome), 0, 0]
        ++ toLe 4 x.fallbackFrames ++ toLe 8 ((x.swap.map (·.1)).getD 0) ++ schedHeader x.active ++ schedHeader x.shadow
        ++ (List.range 64).flatMap fun i => (s.taken 0x0507 c).portSample (8 * c.target.toNat + i / 8) (i % 8) }) := by
  subst hx
  exact State.sf_accepted h

end

/-- Settles O41: the commands by their acceptance, a cycle boundary by what waits for it. -/
theorem schedulesTakeEffectAtCycleBoundaries : Obligations.SchedulesTakeEffectAtCycleBoundaries := by
  unfold Obligations.SchedulesTakeEffectAtCycleBoundaries
  refine ⟨?load, ?swap, ?scheduled, ?notLocked, ?unscheduled, ?entered, ?fell, ?swapped, ?slot, ?transmit, ?query⟩
  case load => exact fun s c who t h hok hfirst hswap ht => congrArg Host.Outcome.next (doTwSchedLoad_first h hok hfirst hswap ht)
  case swap =>
    exact fun s c who t h hshadow hlead hcomplete hswap hbound hactive =>
      congrArg Host.Outcome.next (doTwSchedSwap_waits h hshadow hlead hcomplete hswap hbound hactive)
  case scheduled =>
    intro s c who h hmode hport hactive hlocked
    have hrow : doTwModeSetScheduled c s = s.twModeSet c := if_neg (by simp [hmode])
    exact congrArg Host.Outcome.next (hrow.trans ((State.twModeSet_scheduled h hmode hport hactive).trans (if_pos hlocked)))
  case notLocked =>
    intro s c who h hmode hport hactive hlocked
    have hrow : doTwModeSetScheduled c s = s.twModeSet c := if_neg (by simp [hmode])
    exact congrArg Host.Outcome.next (hrow.trans ((State.twModeSet_scheduled h hmode hport hactive).trans (if_neg (by simp [hlocked]))))
  case unscheduled =>
    intro s c who h hmode
    have hrow : doTwModeSetUnscheduled c s = s.twModeSet c := if_neg (by simp [hmode])
    exact congrArg Host.Outcome.next (hrow.trans (State.twModeSet_unscheduled h hmode))
  case entered =>
    rintro s0 _ p b t c rfl hb hs hswap hfall hpend ht hlocked
    exact congrArg (fun u => Host.Outcome.next (s0.backFrom u)) (doCycleBoundary_scheduled hb hs hswap hfall hpend ht hlocked)
  case fell =>
    rintro s0 _ p b t rfl hb hs hswap hfall ht hpend
    exact congrArg (fun u => Host.Outcome.next (s0.backFrom u)) (doCycleBoundary_fallBack hb hs hswap hfall ht hpend)
  case swapped =>
    rintro s0 _ p b t c rfl hb hs hswap ht hfall hpend
    exact congrArg (fun u => Host.Outcome.next (s0.backFrom u)) (doCycleBoundary_swap hb hs hswap ht hfall hpend)
  case slot =>
    rintro s0 _ p c rfl hs hactive hsched hstep hlast
    exact congrArg (fun u => Host.Outcome.next (s0.backFrom u)) (doSlotStart_starts hs hactive hsched hstep hlast)
  case transmit =>
    rintro s0 _ n h tc rfl hs hup hsched hpend hchoice
    exact congrArg (fun u => Host.Outcome.next (s0.backFrom u)) (doFrameTransmitStart_unscheduled hs hup hsched hpend hchoice)
  case query => exact fun s c who x h hx => congrArg Host.Outcome.next (doTwQuery_accepted h hx)

end Sys2Proof.Machine
end

section
/-! SUPPORT. Port modes, links and samples (07 R209 R210 R228, 19 R527): the mode point of a port and the replies that wait for it, a port that
has trained, and the rows of the port commands; O42 from these. -/

namespace Sys2Proof.Machine

section
variable {s : State} {p : Nat}

/-! ### The mode point (07 R210) -/

theorem State.modeDone_iff (s : State) (p m t : Nat) :
    s.modeDone p m t = true ↔ (modePorts p m).all (fun n => s.linkUp n) = true ∨ t + 500000000 ≤ s.ft := by
  simp [State.modeDone]

/-- The reply of the mode change in force, with none left of an earlier mode. -/
theorem State.modeReply_of_wait {t b : Nat} {c : Cmd} (hwait : (s.phys p).modeWait = some (t, b, c)) (hold : (s.phys p).modeOld = []) :
    s.modeReply p = if s.modeDone p (s.phys p).mode t = true then
      (s.onPhys p fun x => { x with modeWait := none }).reply 0x0103 c false { Answer.ok (s.phys p).mode with ft := some b } else s := by
  simp [State.modeReply, hold, hwait]

/-- The mode changes that wait for training once the mode point has replaced the mode: that of the old mode among them. -/
def PhysPort.waitsOf (x : PhysPort) : List (Nat × Nat × Nat × Cmd) :=
  match x.modeWait with
  | some (t, b, c) => x.modeOld ++ [(x.mode, t, b, c)]
  | none => x.modeOld

/-- A port with the ports of its old mode down, the lane bits of PIN_FAULT clear and the new mode in force. -/
def State.modeChanged (s : State) (p m t : Nat) (c : Cmd) : State :=
  ((((modePorts p (s.phys p).mode).foldl (fun v n => v.portDown n false) s).pinClear (16 + p)).pinClear (20 + p)).onPhys p fun x =>
    { x with mode := m, modePend := none, modeWait := some (t, s.rebalanceFt, c), modeOld := (s.phys p).waitsOf }

theorem doPortModePoint_due {m t : Nat} {c : Cmd} (hs : s.fatal = false) (hpend : (s.phys p).modePend = some (m, t, c))
    (hdue : s.dueRebalance t = true) :
    doPortModePoint p s = (modePorts p m).foldl
      (fun v n => v.onLogical n fun x => { x with training := true, dropped := false, remapped := false }) (s.modeChanged p m t c) := by
  unfold doPortModePoint State.modeChanged State.rebalanceFt PhysPort.waitsOf
  cases (s.phys p).modeWait <;> simp only [hs, hpend, hdue, Bool.not_true, Bool.false_eq_true, if_false]

theorem doPortModePoint_notDue (hs : s.fatal = false) (hpend : ((s.phys p).modePend.all fun x => !s.dueRebalance x.2.1) = true) :
    doPortModePoint p s = s.modeReply p := by
  cases hx : (s.phys p).modePend with
  | none => simp only [doPortModePoint, hs, hx, Bool.false_eq_true, if_false]
  | some x =>
    have hnot : (!s.dueRebalance x.2.1) = true := (Option.all_eq_true ..).1 hpend x hx
    obtain ⟨m, t, c⟩ := x
    simp only [doPortModePoint, hs, hx, hnot, Bool.false_eq_true, if_false, if_true]

/-! ### Training (19 R527) -/

/-- A port of its mode that trains takes its lanes, the lane bits of its physical port follow, and without a lane dropped it comes up. -/
theorem doPortTrained_trains {n : Nat} (hs : s.fatal = false) (hclk : s.pins.sysclk = true)
    (htrain : (s.twill.logical.getD n LogPort.reset).training = true) (hmode : n ∈ modePorts (n / 8) (s.phys (n / 8)).mode)
    (lost remapped : Bool) {v : State}
    (hv : v = (s.onLogical n fun x => { x with dropped := lost, remapped := remapped }).portLaneFaults (n / 8)) :
    doPortTrained n lost remapped s = if lost then v
      else ((v.onLogical n fun x => { x with up := true, training := false }).linkChange n true).modeReply (n / 8) := by
  have hgo : ¬ (s.fatal || !s.pins.sysclk || !(s.twill.logical.getD n LogPort.reset).training
      || !(modePorts (n / 8) (s.phys (n / 8)).mode).contains n) = true := by
    rw [htrain]
    simp [hs, hclk, hmode]
  subst hv
  exact if_neg hgo

/-! ### Sample records (07 R228) -/

theorem doSampleRecordLatch_eq (s : State) : doSampleRecordLatch s = if s.fatal = false ∧ s.onRebalance = true then
    s.onTwill fun w => { w with queues := w.queues.map s.latchOf } else s := by
  unfold doSampleRecordLatch
  cases hs : s.fatal <;> cases hgrid : s.onRebalance <;> simp

end

/-! ### Commands (07 R209 R210) -/

section
variable {s : State} {c : Cmd} {who : Caller}

/-- A port that takes no change of its mode: SCHEDULED, or with a change of either kind waiting. -/
def PhysPort.busy (x : PhysPort) : Bool := x.scheduled || !x.schedPend.isEmpty || x.modePend.isSome

theorem PhysPort.busy_iff (x : PhysPort) : x.busy = true ↔ x.scheduled = true ∨ x.schedPend ≠ [] ∨ x.modePend ≠ none := by
  simp [PhysPort.busy, or_assoc, Option.isSome_iff_ne_none]

section
variable (h : s.accepts 0x0103 c who false true true = true)
include h

theorem doDevPortMode_badCode (hcode : 3 < cmdByte c 16) :
    doDevPortMode c s = (s.taken 0x0103 c).answer 0x0103 c (Answer.just St.badParam) :=
  State.sf_answers h (by simp [hcode])

theorem doDevPortMode_busy (hcode : ¬ 3 < cmdByte c 16) (hbusy : ((s.taken 0x0103 c).phys c.target.toNat).busy = true) :
    doDevPortMode c s = (s.taken 0x0103 c).answer 0x0103 c (Answer.just St.badState) :=
  State.sf_answers h ((if_neg hcode).trans (if_pos hbusy))

theorem doDevPortMode_waits (hcode : ¬ 3 < cmdByte c 16) (hfree : ¬ ((s.taken 0x0103 c).phys c.target.toNat).busy = true) :
    doDevPortMode c s = (s.taken 0x0103 c).onPhys c.target.toNat fun x => { x with
      modePend := some (cmdByte c 16, (s.taken 0x0103 c).ft, c) } :=
  State.sf_waits h ((if_neg hcode).trans (if_neg hfree))

end

theorem doDevPortQuery_accepted (h : s.accepts 0x0104 c who false true true = true) {x : LogPort}
    (hx : x = (s.taken 0x0104 c).twill.logical.getD c.target.toNat LogPort.reset) :
    doDevPortQuery c s = (s.taken 0x0104 c).useFree.answer 0x0104 c ({ Answer.ok with
      data := Config.layout 0x0104 [b2n x.up,
        if c.target.toNat ∈ modePorts (c.target.toNat / 8) ((s.taken 0x0104 c).phys (c.target.toNat / 8)).mode then
          8 / 2 ^ ((s.taken 0x0104 c).phys (c.target.toNat / 8)).mode else 0,
        b2n x.dropped, (s.taken 0x0104 c).freeVal] }) := by
  subst hx
  exact State.sf_answers h (by simp)

end

/-- Settles O42: the commands by their acceptance, the mode point by whether a change is due, the other rows by their lemmas above. -/
theorem portModesLinksAndSamples : Obligations.PortModesLinksAndSamples := by
  unfold Obligations.PortModesLinksAndSamples
  refine ⟨?mode, ?due, ?notDue, ?reply, ?trained, ?linkDown, ?portDown, ?query, ?latch⟩
  case mode =>
    intro s c who h
    refine congrArg Host.Outcome.next ?_
    split
    · next hcode => exact doDevPortMode_badCode h hcode
    · next hcode =>
      split
      · next hbusy => exact doDevPortMode_busy h hcode ((PhysPort.busy_iff _).2 hbusy)
      · next hfree => exact doDevPortMode_waits h hcode (mt (PhysPort.busy_iff _).1 hfree)
  case due =>
    rintro s0 _ p m t c _ _ rfl hs hpend hdue rfl rfl
    exact congrArg (fun u => Host.Outcome.next (s0.backFrom u)) (doPortModePoint_due hs hpend hdue)
  case notDue =>
    rintro s0 _ p rfl hs hpend
    exact congrArg (fun u => Host.Outcome.next (s0.backFrom u)) (doPortModePoint_notDue hs hpend)
  case reply =>
    rintro s p _ t b c hwait hold rfl
    simp only [State.modeReply_of_wait hwait hold, State.modeDone_iff]
  case trained =>
    rintro s n lost remapped _ _ _ hs hclk htrain hmode rfl rfl rfl
    exact congrArg Host.Outcome.next (doPortTrained_trains hs hclk htrain hmode lost remapped rfl)
  case linkDown => exact fun s n => rfl
  case portDown =>
    rintro s _ n training rfl
    rfl
  case query => exact fun s c who x h hx => congrArg Host.Outcome.next (doDevPortQuery_accepted h hx)
  case latch => exact fun s => congrArg Host.Outcome.next (doSampleRecordLatch_eq s)

end Sys2Proof.Machine
end

section
/-! SUPPORT. Sealing and opening (08 R247 R248, 10 R289 R312): a cipher that adds a key stream block by block is its own inverse,
and the key streams of AES-256 in counter mode and of ChaCha20 fill their blocks; O52 from these. -/

namespace Sys2Proof.Machine

/-! ### Data in blocks -/

@[simp] theorem xorBytes_length (a b : Bytes) : (xorBytes a b).length = min a.length b.length := List.length_zipWith

/-- Adding the same bytes twice gives the first ones back, as far as the others reach. -/
theorem xorBytes_xorBytes {a k : Bytes} (h : a.length ≤ k.length) : xorBytes (xorBytes a k) k = a := by
  induction a generalizing k with
  | nil => rfl
  | cons x a ih =>
    cases k with
    | nil => simp at h
    | cons y k =>
      have hx : x ^^^ y ^^^ y = x := by simp
      have htail : xorBytes (xorBytes a k) k = a := ih (by simpa using h)
      exact congrArg₂ List.cons hx htail

theorem blocksOf_nil (n m : Nat) : blocksOf n m [] = [] := by cases m <;> rfl

theorem blocksOf_cons {n m : Nat} {b : Bytes} (hb : b ≠ []) : blocksOf n (m + 1) b = b.take n :: blocksOf n m (b.drop n) := by
  simp [blocksOf, hb]

/-- Lists that all have the length `n`. -/
def Uniform (n : Nat) (l : List Bytes) : Prop := ∀ b ∈ l, b.length = n

theorem Uniform.cons {n : Nat} {b : Bytes} {l : List Bytes} (hb : b.length = n) (h : Uniform n l) : Uniform n (b :: l) :=
  List.forall_mem_cons.2 ⟨hb, h⟩

theorem Uniform.length_flatten {n : Nat} {l : List Bytes} (h : Uniform n l) : l.flatten.length = l.length * n := by
  rw [List.length_flatten, List.map_congr_left h, List.map_const', List.sum_replicate, smul_eq_mul]

/-- Bytes that fill `k` blocks are cut into `k` blocks. -/
theorem blocksOf_filled {n k m : Nat} {b : Bytes} (hn : 0 < n) (hb : b.length = n * k) (hk : k ≤ m) :
    (blocksOf n m b).length = k ∧ Uniform n (blocksOf n m b) := by
  induction m generalizing k b with
  | zero => exact ⟨by simp [blocksOf]; omega, by simp [blocksOf, Uniform]⟩
  | succ m ih =>
    cases k with
    | zero =>
      have : b = [] := List.eq_nil_of_length_eq_zero (by simpa using hb)
      subst this
      simp [blocksOf_nil, Uniform]
    | succ k =>
      rw [Nat.mul_succ] at hb
      have hne : b ≠ [] := List.ne_nil_of_length_pos (by omega)
      obtain ⟨hlen, huniform⟩ := ih (b := b.drop n) (k := k) (by simp; omega) (by omega)
      rw [blocksOf_cons hne]
      exact ⟨by simp [hlen], huniform.cons (by simp; omega)⟩

theorem chunks_filled {n k : Nat} {b : Bytes} (hn : 0 < n) (hb : b.length = n * k) :
    (chunks n b).length = k ∧ Uniform n (chunks n b) :=
  blocksOf_filled hn hb (by rw [hb, Nat.mul_div_cancel_left k hn]; omega)

/-! ### Key streams -/

/-- Blocks of data with the blocks of a key stream from block `c` on added to them. -/
def addStream (ks : Nat → Bytes) : Nat → List Bytes → Bytes
  | _, [] => []
  | c, b :: l => xorBytes b (ks c) ++ addStream ks (c + 1) l

theorem gcmCtr_flatten (rk : List Bytes) (iv : Bytes) (c : Nat) (l : List Bytes) :
    (gcmCtr rk iv c l).flatten = addStream (fun c => aesEnc rk (iv ++ toBe 4 (c % 2 ^ 32))) c l := by
  induction l generalizing c with
  | nil => rfl
  | cons b l ih => simp [gcmCtr, addStream, ih]

theorem chachaBlocks_eq (key nonce : Bytes) (c : Nat) (l : List Bytes) :
    chachaBlocks key nonce c l = addStream (chachaBlock key nonce) c l := by
  induction l generalizing c with
  | nil => rfl
  | cons b l ih => simp [chachaBlocks, addStream, ih]

section
variable {n : Nat} {ks : Nat → Bytes} (hks : ∀ c, n ≤ (ks c).length)
include hks

/-- A key stream keeps the length of the data. -/
theorem addStream_length {m : Nat} {b : Bytes} (c : Nat) (hb : b.length ≤ n * m) :
    (addStream ks c (blocksOf n m b)).length = b.length := by
  induction m generalizing c b with
  | zero => simp_all [blocksOf, addStream]
  | succ m ih =>
    rw [Nat.mul_succ] at hb
    by_cases hne : b = []
    · simp [hne, blocksOf_nil, addStream]
    · have hrest := ih (b := b.drop n) (c + 1) (by simp; omega)
      have hk := hks c
      simp only [blocksOf_cons hne, addStream, List.length_append, hrest, xorBytes_length, List.length_take, List.length_drop]
      omega

/-- The first block of what comes out is the first block of the data with the key stream added, the rest comes from the rest. -/
theorem addStream_first_rest {m : Nat} {b : Bytes} (c : Nat) (hne : b ≠ []) (hb : b.length ≤ n * (m + 1)) :
    (addStream ks c (blocksOf n (m + 1) b)).take n = xorBytes (b.take n) (ks c) ∧
      (addStream ks c (blocksOf n (m + 1) b)).drop n = addStream ks (c + 1) (blocksOf n m (b.drop n)) := by
  rw [Nat.mul_succ] at hb
  have hk := hks c
  have hfirst : (xorBytes (b.take n) (ks c)).length = min n b.length := by simp; omega
  have hrest := addStream_length hks (m := m) (b := b.drop n) (c + 1) (by simp; omega)
  rw [blocksOf_cons hne, addStream]
  by_cases hfull : n ≤ b.length
  · rw [Nat.min_eq_left hfull] at hfirst
    exact ⟨List.take_left' hfirst, List.drop_left' hfirst⟩
  · have hlast : addStream ks (c + 1) (blocksOf n m (b.drop n)) = [] :=
      List.eq_nil_of_length_eq_zero (hrest.trans (by simp; omega))
    have hshort : (xorBytes (b.take n) (ks c)).length ≤ n := hfirst.trans_le (Nat.min_le_left ..)
    rw [hlast, List.append_nil]
    exact ⟨List.take_of_length_le hshort, List.drop_of_length_le hshort⟩

/-- Added again, a key stream gives the data back. -/
theorem addStream_addStream {m : Nat} {b : Bytes} (c : Nat) (hb : b.length ≤ n * m) :
    addStream ks c (blocksOf n m (addStream ks c (blocksOf n m b))) = b := by
  induction m generalizing c b with
  | zero => simp_all [blocksOf, addStream]
  | succ m ih =>
    by_cases hne : b = []
    · simp [hne, blocksOf_nil, addStream]
    · obtain ⟨hfirst, hrest⟩ := addStream_first_rest hks c hne hb
      have hk := hks c
      have hback : xorBytes (xorBytes (b.take n) (ks c)) (ks c) = b.take n := xorBytes_xorBytes (by simp; omega)
      have hout : addStream ks c (blocksOf n (m + 1) b) ≠ [] := by
        refine List.ne_nil_of_length_pos ?_
        rw [addStream_length hks c hb]
        exact List.length_pos_of_ne_nil hne
      rw [Nat.mul_succ] at hb
      rw [blocksOf_cons hout, addStream, hfirst, hrest, hback, ih _ (by simp; omega), List.take_append_drop]

/-- A cipher that adds a key stream block by block is its own inverse. -/
theorem addStream_chunks (hn : 0 < n) (c : Nat) (b : Bytes) : addStream ks c (chunks n (addStream ks c (chunks n b))) = b := by
  have hb : b.length ≤ n * (b.length / n + 1) := (Nat.lt_mul_div_succ _ hn).le
  have hlen : (addStream ks c (chunks n b)).length = b.length := addStream_length hks c hb
  have hsame : chunks n (addStream ks c (chunks n b)) = blocksOf n (b.length / n + 1) (addStream ks c (chunks n b)) := by
    rw [chunks, hlen]
  rw [hsame]
  exact addStream_addStream hks c hb

end

/-! ### AES-256 and GCM -/

theorem toBe_length (n v : Nat) : (toBe n v).length = n := by simp [toBe]

/-- The key schedule goes on with a word of four bytes. -/
theorem expandKey_succ {w : List Bytes} (n i rc : Nat) (hlen : 8 ≤ w.length) (hw : Uniform 4 w) :
    ∃ rc' b, b.length = 4 ∧ expandKey (n + 1) i rc w = expandKey n (i + 1) rc' (b :: w) := by
  have holdest : (w.getD 7 []).length = 4 := by
    rw [List.getD_eq_getElem _ _ (by omega)]
    exact hw _ (List.getElem_mem _)
  have hlatest : (w.headD []).length = 4 := by
    cases w with
    | nil => simp at hlen
    | cons t w => exact hw t (by simp)
  refine ⟨_, _, ?_, rfl⟩
  rw [xorBytes_length, holdest]
  generalize w.headD [] = t at hlatest
  split
  · split
    · next a r hrotated =>
      have hrot := congrArg List.length hrotated
      simp [hlatest] at hrot
      simp; omega
    · next hrotated =>
      have hrot := congrArg List.length hrotated
      simp [hlatest] at hrot
  · split
    · simp [hlatest]
    · simp [hlatest]

/-- The key schedule is in words of four bytes. -/
theorem expandKey_words {n : Nat} (i rc : Nat) {w : List Bytes} (hlen : 8 ≤ w.length) (hw : Uniform 4 w) :
    (expandKey n i rc w).length = w.length + n ∧ Uniform 4 (expandKey n i rc w) := by
  induction n generalizing i rc w with
  | zero => exact ⟨rfl, hw⟩
  | succ n ih =>
    obtain ⟨rc', b, hb, hnext⟩ := expandKey_succ n i rc hlen hw
    obtain ⟨hlen', hw'⟩ := ih (i + 1) rc' (w := b :: w) (Nat.le_succ_of_le hlen) (hw.cons hb)
    rw [hnext, hlen', List.length_cons]
    exact ⟨by omega, hw'⟩

theorem roundKeys_words (key : Bytes) : (roundKeys key).length = 15 ∧ Uniform 16 (roundKeys key) := by
  obtain ⟨hlen, hw⟩ := chunks_filled (n := 4) (k := 8) (b := sliceZ key 0 32) (by omega) (by simp [sliceZ])
  obtain ⟨hlen', hw'⟩ := expandKey_words (n := 52) 8 1 (w := (chunks 4 (sliceZ key 0 32)).reverse) (by simp [hlen])
    (fun b hb => hw b (List.mem_reverse.1 hb))
  have hall : Uniform 4 (expandKey 52 8 1 (chunks 4 (sliceZ key 0 32)).reverse).reverse := fun b hb => hw' b (List.mem_reverse.1 hb)
  refine chunks_filled (by omega) ?_
  rw [hall.length_flatten, List.length_reverse, hlen', List.length_reverse, hlen]

/-- The rounds end in a block of 16 bytes. -/
theorem aesRounds_length {rk : List Bytes} (hne : rk ≠ []) (hrk : Uniform 16 rk) (b : Bytes) : (aesRounds rk b).length = 16 := by
  induction rk generalizing b with
  | nil => exact absurd rfl hne
  | cons k r ih =>
    obtain ⟨hk, hr⟩ := List.forall_mem_cons.1 hrk
    cases r with
    | nil => simp [aesRounds, shiftRows, hk]
    | cons k' r => exact ih (by simp) hr _

theorem aesEnc_roundKeys_length (key b : Bytes) : (aesEnc (roundKeys key) b).length = 16 := by
  obtain ⟨hlen, hrk⟩ := roundKeys_words key
  unfold aesEnc
  cases h : roundKeys key with
  | nil => simp [h] at hlen
  | cons k r =>
    rw [h] at hlen hrk
    exact aesRounds_length (by rintro rfl; simp at hlen) (List.forall_mem_cons.1 hrk).2 _

theorem gcmCrypt_gcmCrypt (key iv data : Bytes) : gcmCrypt key iv (gcmCrypt key iv data) = data := by
  simp only [gcmCrypt, gcmCtr_flatten]
  exact addStream_chunks (fun c => (aesEnc_roundKeys_length ..).ge) (by omega) 2 data

@[simp] theorem gcmTag_length (key iv aad ct : Bytes) : (gcmTag key iv aad ct).length = 16 := by
  unfold gcmTag
  rw [xorBytes_length, toBe_length, aesEnc_roundKeys_length, Nat.min_self]

/-- AES-256-GCM opens what it sealed (10 R289). -/
theorem gcmOpen_gcmSeal (key iv aad pt : Bytes) :
    gcmOpen key iv aad (gcmSeal key iv aad pt).1 (gcmSeal key iv aad pt).2 = some pt := by
  simp [gcmOpen, gcmSeal, gcmCrypt_gcmCrypt]

/-! ### ChaCha20-Poly1305 -/

theorem quarter_length (w : List Nat) (a b c d : Nat) : (quarter w a b c d).length = w.length := by simp [quarter]

theorem chachaDouble_length (w : List Nat) : (chachaDouble w).length = w.length := by
  unfold chachaDouble
  simp only [quarter_length]

theorem foldl_chachaDouble_length (l : List Nat) (w : List Nat) : (l.foldl (fun w _ => chachaDouble w) w).length = w.length :=
  List.foldlRecOn (motive := fun v => v.length = w.length) l _ rfl fun v hv _ _ => (chachaDouble_length v).trans hv

theorem chachaBlock_length (key nonce : Bytes) (n : Nat) : (chachaBlock key nonce n).length = 64 := by
  unfold chachaBlock
  extract_lets w r
  have hw : w.length = 16 := by simp [w]
  have hr : r.length = 16 := (foldl_chachaDouble_length ..).trans hw
  have hwords : Uniform 4 (List.zipWith (fun a b => toLe 4 ((a + b) % 2 ^ 32)) r w) := by
    intro b hb
    obtain ⟨i, hi, rfl⟩ := List.getElem_of_mem hb
    rw [List.getElem_zipWith, toLe_length]
  rw [hwords.length_flatten, List.length_zipWith, hr, hw, Nat.min_self]

theorem chachaCrypt_chachaCrypt (key nonce data : Bytes) : chachaCrypt key nonce (chachaCrypt key nonce data) = data := by
  simp only [chachaCrypt, chachaBlocks_eq]
  exact addStream_chunks (fun c => (chachaBlock_length key nonce c).ge) (by omega) 1 data

@[simp] theorem chachaTag_length (key nonce aad ct : Bytes) : (chachaTag key nonce aad ct).length = 16 := by
  simp [chachaTag, poly1305]

/-! ### KRM packets and cipher jobs -/

/-- What follows a KRM header, taken apart again: the counter, the ciphertext and the tag (08 R247 R248). -/
theorem openUnder_sealed (key salt h ct : Bytes) {ctr tag : Bytes} (hctr : ctr.length = 8) (htag : tag.length = 16) :
    openUnder key salt h (ctr ++ ct ++ tag) = gcmOpen key (salt ++ ctr) (h ++ ctr) ct tag := by
  have hct : (ctr ++ ct ++ tag).length - 24 = ct.length := by simp; omega
  have htagAt : (ctr ++ ct ++ tag).length - 16 = (ctr ++ ct).length := by simp; omega
  unfold openUnder
  rw [hct, htagAt, List.drop_left]
  simp only [List.append_assoc, List.take_left' hctr, List.drop_left' hctr, List.take_left]

/-- An AEAD job that opens, of additional data, ciphertext and tag (10 R309 R312). -/
theorem cryOutput_opens {d : Bytes} (key : Bytes) {a ct tag : Bytes} (hop : entryOp d = 2) (ha : cryAad d = a.length)
    (htag : tag.length = 16) :
    (cryAlg d = 1 → cryOutput d key (a ++ (ct ++ tag)) =
      (gcmCrypt key (slice d 16 12) ct, gcmTag key (slice d 16 12) a ct == tag)) ∧
    (cryAlg d = 3 → cryOutput d key (a ++ (ct ++ tag)) =
      (chachaCrypt key (slice d 16 12) ct, chachaTag key (slice d 16 12) a ct == tag)) := by
  constructor
  all_goals
    intro halg
    simp [cryOutput, halg, hop, ha, htag]

/-- An AEAD job that seals (10 R309 R312). -/
theorem cryOutput_seals {e : Bytes} (key : Bytes) {a pt : Bytes} (hop : entryOp e = 1) (ha : cryAad e = a.length) :
    (cryAlg e = 1 → cryOutput e key (a ++ pt) =
      (gcmCrypt key (slice e 16 12) pt ++ gcmTag key (slice e 16 12) a (gcmCrypt key (slice e 16 12) pt), true)) ∧
    (cryAlg e = 3 → cryOutput e key (a ++ pt) =
      (chachaCrypt key (slice e 16 12) pt ++ chachaTag key (slice e 16 12) a (chachaCrypt key (slice e 16 12) pt), true)) := by
  constructor
  all_goals
    intro halg
    simp [cryOutput, halg, hop, ha, gcmSeal]

/-- Settles O52: both ciphers are their own inverses, and their tags are of what was sealed. -/
theorem sealedDataOpensToWhatWasSealed : Obligations.SealedDataOpensToWhatWasSealed := by
  unfold Obligations.SealedDataOpensToWhatWasSealed
  refine ⟨gcmOpen_gcmSeal, ?packet, ?job⟩
  case packet =>
    intro key salt h ctr body hctr
    exact (openUnder_sealed key salt h _ hctr (gcmTag_length ..)).trans (gcmOpen_gcmSeal ..)
  case job =>
    intro e d key a pt halg hsame hseal hopen hae had hiv
    rcases halg with halg | halg
    · rw [(cryOutput_seals key hseal hae).1 halg, (cryOutput_opens key hopen had (gcmTag_length ..)).1 (hsame.trans halg), hiv,
        gcmCrypt_gcmCrypt, beq_self_eq_true]
    · rw [(cryOutput_seals key hseal hae).2 halg, (cryOutput_opens key hopen had (chachaTag_length ..)).2 (hsame.trans halg), hiv,
        chachaCrypt_chachaCrypt, beq_self_eq_true]

end Sys2Proof.Machine
end

section
/-! SUPPORT. Windows (08 R250 to R254): the changes that Buckram has wait for their frame boundary, the opening of a window there, and what
an access meets at a window; O45 from these. -/

namespace Sys2Proof.Machine

section
variable {s : State} {c : Cmd} {who : Caller}

/-! ### The commands (08 R252 to R254) -/

/-- KRM_WINDOW_OPEN at an index that was never used. -/
theorem bkKrmWindowOpen_waits {i : Nat} (hpre : s.precheck 0x0604 c who true false true true true true = none)
    (hok : winParamsOk c false = true) (hfree : s.freeWindow = some i) (hunused : s.krm.windows.get i = none) :
    bkKrmWindowOpen c who s =
      (s.useFree.onKrm fun k => { k with windows := k.windows.set i (Window.unused who.owner) }).winLater i {
        base := winBase c, wlen := winLen c, perm := winPerm c, gen := 0, state := .open, accepted := s.ft
        code := 0x0604, cmd := c, key := i * 1024 } := by
  have htake : s.useFree.takeWindow i who.owner =
      (s.useFree.onKrm fun k => { k with windows := k.windows.set i (Window.unused who.owner) }, 0) := by
    unfold State.takeWindow
    rw [show s.useFree.krm.windows.get i = none from hunused]
  refine (State.bkApply_accepted hpre).trans ?_
  simp only [hok, Bool.not_true, Bool.false_eq_true, if_false, hfree, htake, Nat.add_zero]
  rfl

/-- KRM_WINDOW_MODIFY to a length that is not 0. -/
theorem bkKrmWindowModify_waits (hpre : s.precheck 0x0605 c who true false true true true true = none)
    (hok : winParamsOk c true = true) (hlen : winLen c ≠ 0) :
    bkKrmWindowModify c who s = s.winLater (c.target.toNat / 1024) {
      base := winBase c, wlen := winLen c, perm := winPerm c, gen := c.target.toNat % 1024, state := .open
      accepted := s.ft, code := 0x0605, cmd := c, key := 0 } := by
  refine (State.bkApply_accepted hpre).trans ?_
  simp only [hok, Bool.not_true, Bool.false_eq_true, if_false, if_neg hlen]

/-- KRM_WINDOW_REVOKE below the last generation. -/
theorem bkKrmWindowRevoke_waits {w : Window} (hpre : s.precheck 0x0606 c who true false true true true true = none)
    (hw : s.krm.windows.get (c.target.toNat / 1024) = some w) (hgen : c.target.toNat % 1024 < 1023) :
    bkKrmWindowRevoke c who s = s.winLater (c.target.toNat / 1024) {
      base := w.latestRange.1, wlen := w.latestRange.2.1, perm := w.latestRange.2.2, gen := c.target.toNat % 1024 + 1
      state := .open, accepted := s.ft, code := 0x0606, cmd := c
      key := c.target.toNat / 1024 * 1024 + c.target.toNat % 1024 + 1 } := by
  refine (State.bkApply_accepted hpre).trans ?_
  simp only [hw, if_pos hgen]

end

section
variable {s : State} {i : Nat} {w : Window}

/-! ### The boundary (08 R250 R253) -/

theorem State.areaWrite_beyondEvents (s : State) (region off : Nat) (b : Bytes) :
    (s.areaWrite region off b).beyondEvents = s.beyondEvents := by
  unfold State.areaWrite
  split <;> simp

/-- A descriptor written leaves the time as it is. -/
theorem State.writeWindow_frameFt (s : State) (i : Nat) : (s.writeWindow i).frameFt = s.frameFt := by
  unfold State.writeWindow
  split
  · next w _ => exact (congrArg State.frameFt (s.areaWrite_beyondEvents windowRegion (i * 32) (s.windowBytes w)) :)
  · rfl

/-- The only change of a window that waits, of an OPEN: at its boundary the descriptor changes and the OPEN replies. -/
theorem doWindowChangeEffect_opens {x : WinChange} (hw : s.krm.windows.get i = some w) (hs : s.fatal = false) (hpend : w.pend = [x])
    (hcode : x.code = 0x0604) (hdue : s.dueFrame x.accepted = true) : doWindowChangeEffect i s =
      (((s.onKrm fun k => { k with windows := k.windows.mod i fun w => { w with
        base := x.base, wlen := x.wlen, perm := x.perm, gen := x.gen, state := x.state
        pend := w.pend.filter fun y => !s.dueFrame y.accepted
        waits := w.waits } }).writeWindow i).reply 0x0604 x.cmd true { Answer.ok x.key with ft := some s.frameFt }).windowReplies := by
  have hnow : w.pend.filter (fun y => s.dueFrame y.accepted) = [x] := by simp [hpend, hdue]
  have hother : ¬ (x.code = 0x0605 ∨ x.code = 0x0606) := by omega
  unfold doWindowChangeEffect
  simp only [hw, hs, Bool.false_eq_true, if_false, hnow, List.foldl_cons, List.foldl_nil, if_neg hother, if_pos hcode,
    State.writeWindow_frameFt]
  rfl

/-! ### The check of an access (08 R251) -/

section
variable {c : Conn} {off len p : Nat} (hw : s.krm.windows.get i = some w) (hread : s.areaPoisoned windowRegion (i * 32) = false)
include hw hread

/-- The check of a window whose descriptor can be read, by the key of a generation. -/
theorem State.windowCheck_key {g : Nat} (hg : g < 1024) : s.windowCheck c (i * 1024 + g) off len p =
    if w.state = .open ∧ w.gen ≠ g then .inr 1
    else if w.state = .open ∧ w.owner = c.owner ∧ bit w.perm p ∧ off + len ≤ w.wlen then .inl ((w.base + off) % 2 ^ 64)
    else .inr 2 := by
  have hindex : (i * 1024 + g) / 1024 = i := by omega
  have hgen : (i * 1024 + g) % 1024 = g := by omega
  simp only [State.windowCheck, hindex, hgen, hw, hread, Bool.false_eq_true, if_false]

theorem State.windowCheck_granted (hgen : w.gen < 1024) (hstate : w.state = .open) (howner : w.owner = c.owner)
    (hperm : bit w.perm p = true) (hlen : off + len ≤ w.wlen) :
    s.windowCheck c (i * 1024 + w.gen) off len p = .inl ((w.base + off) % 2 ^ 64) := by
  rw [State.windowCheck_key hw hread hgen, if_neg (fun h => h.2 rfl), if_pos ⟨hstate, howner, hperm, hlen⟩]

theorem State.windowCheck_revoked {g : Nat} (hg : g < 1024) (hstate : w.state = .open) (hne : g ≠ w.gen) :
    s.windowCheck c (i * 1024 + g) off len p = .inr 1 := by
  rw [State.windowCheck_key hw hread hg, if_pos ⟨hstate, hne.symm⟩]

theorem State.windowCheck_denied (hgen : w.gen < 1024)
    (h : w.state ≠ .open ∨ w.owner ≠ c.owner ∨ bit w.perm p = false ∨ w.wlen < off + len) :
    s.windowCheck c (i * 1024 + w.gen) off len p = .inr 2 := by
  have hrefused : ¬ (w.state = .open ∧ w.owner = c.owner ∧ bit w.perm p = true ∧ off + len ≤ w.wlen) := by
    rintro ⟨hstate, howner, hperm, hlen⟩
    rcases h with h | h | h | h
    · exact h hstate
    · exact h howner
    · simp [hperm] at h
    · omega
  rw [State.windowCheck_key hw hread hgen, if_neg (fun h => h.2 rfl), if_neg hrefused]

end

theorem State.windowCheck_absent {key : Nat} (hw : s.krm.windows.get (key / 1024) = none) (c : Conn) (off len p : Nat) :
    s.windowCheck c key off len p = .inr 2 := by
  simp only [State.windowCheck, hw]

end

/-- Settles O45: the commands by Buckram's turn at them, the boundary and the check by their cases. -/
theorem windowsOpenChangeAndRefuse : Obligations.WindowsOpenChangeAndRefuse := by
  unfold Obligations.WindowsOpenChangeAndRefuse
  refine ⟨?opens, ?modify, ?revoke, ?effect, ?check, ?absent⟩
  case opens =>
    intro s c who env i h hok hfree hunused
    have hpre := State.precheck_of_bkAccepts h
    exact ⟨_, rfl, congrArg Host.Outcome.next ((State.bk_served h).trans (bkKrmWindowOpen_waits hpre hok hfree hunused))⟩
  case modify =>
    intro s c who env h hok hlen
    have hpre := State.precheck_of_bkAccepts h
    exact ⟨_, rfl, congrArg Host.Outcome.next ((State.bk_served h).trans (bkKrmWindowModify_waits hpre hok hlen))⟩
  case revoke =>
    intro s c who env w h hw hgen
    have hpre := State.precheck_of_bkAccepts h
    exact ⟨_, rfl, congrArg Host.Outcome.next ((State.bk_served h).trans (bkKrmWindowRevoke_waits hpre hw hgen))⟩
  case effect =>
    intro s i w x hw hs hpend hcode hframe hdue
    exact congrArg Host.Outcome.next (doWindowChangeEffect_opens hw hs hpend hcode (State.dueFrame_of_onFrame hframe hdue))
  case check =>
    intro s c w i off len p hw hread hgen
    exact ⟨State.windowCheck_granted hw hread hgen, fun g hg => State.windowCheck_revoked hw hread hg,
      State.windowCheck_denied hw hread hgen⟩
  case absent => exact fun s c key off len p hw => State.windowCheck_absent hw c off len p

end Sys2Proof.Machine
end

section
/-! SUPPORT. KRM_SQ and KRM_RQ entries that may start (08 R233 R258 R259): the end of one whose connection refuses it, and the start
of the others; O47 from these. -/

namespace Sys2Proof.Machine

variable {s : State} {qid o : Nat} {q : Queue} {e : Bytes}

/-- An entry on a connection that its owner does not have is a spoof event (08 R233). -/
theorem State.krmStart_notOwned (hr : s.readyHead qid = some (q, e)) (hcls : q.cls = .krmSq) (hop : entryOp e = o)
    (howner : (s.conn (krmCid e)).any (fun c => c.owner == q.owner) = false) :
    s.krmStart qid o = (s.spoofFailed q.owner 1).endHead qid St.denied (krmCid e) e := by
  unfold State.krmStart
  simp only [hr, hcls, hop, bne_self_eq_false, Bool.or_self, Bool.false_eq_true, if_false]
  cases hc : s.conn (krmCid e) with
  | none => rfl
  | some c =>
    have hother : (c.owner != q.owner) = true := by simpa [hc] using howner
    exact if_pos hother

/-- An entry on a connection of its owner (08 R234 R258, 09 R270). -/
theorem State.krmStart_owned {c : Conn} {y : State × Bool} {z : State × Nat} (hr : s.readyHead qid = some (q, e))
    (hcls : q.cls = .krmSq) (hop : entryOp e = o) (hc : s.conn (krmCid e) = some c) (howner : c.owner = q.owner)
    (hy : y = s.shaperGo qid (fragTotal (entryFrags .krmSq e q.headFrags))) (hz : z = y.1.newOp qid e (entryFrags .krmSq e q.headFrags)) :
    s.krmStart qid o =
      if c.state ≠ .open ∨ c.claims ≠ 0 then s.endHead qid St.badState (krmCid e) e
      else if s.cachedConn (krmCid e) = false then s
      else if y.2 = false then y.1
      else if o = 2 then z.1.krmGo (krmCid e)
      else (z.1.readFrags z.2 q.owner 0 (entryFrags .krmSq e q.headFrags)).krmGo (krmCid e) := by
  obtain ⟨u, go⟩ := y
  subst hz
  unfold State.krmStart
  simp only [hr, hcls, hop, hc, howner, bne_self_eq_false, Bool.or_self, Bool.false_eq_true, if_false, Bool.or_eq_true, bne_iff_ne,
    ne_eq, Bool.not_eq_true', ← hy]
  cases go with
  | false => simp
  | true =>
    by_cases hread : o = 2
    · simp [hread]
    · simp [hread]

/-- The three rows of KRM_SQ entries are one start, by the opcode. -/
theorem exec_krmEntries {x : State} (h : s.krmStart qid o = x) : (o = 1 → exec (.krmWrite qid) s = .next x) ∧
    (o = 2 → exec (.krmRead qid) s = .next x) ∧ (o = 3 → exec (.krmSend qid) s = .next x) := by
  refine ⟨?_, ?_, ?_⟩
  all_goals
    rintro rfl
    exact congrArg Host.Outcome.next h

/-- A receive buffer is posted when its shaper lets it pass (08 R259, 07 R200). -/
theorem doKrmRqPost_posts {y : State × Bool} (hr : s.readyHead qid = some (q, e)) (hcls : q.cls = .krmRq) (hop : entryOp e = 1)
    (hy : y = s.shaperGo qid (fragTotal (entryFrags .krmRq e q.headFrags))) :
    doKrmRqPost qid s = if y.2 = true then (y.1.newOp qid e (entryFrags .krmRq e q.headFrags)).1 else y.1 := by
  obtain ⟨u, go⟩ := y
  unfold doKrmRqPost
  simp only [hr, hcls, hop, bne_self_eq_false, Bool.or_self, Bool.false_eq_true, if_false, ← hy]
  cases go <;> rfl

/-- Settles O47: each clause by its lemma above. -/
theorem krmEntriesStart : Obligations.KrmEntriesStart := by
  unfold Obligations.KrmEntriesStart
  refine ⟨?notOwned, ?owned, ?post⟩
  case notOwned =>
    intro s x qid o q e hr hcls hop howner hx
    exact exec_krmEntries ((State.krmStart_notOwned hr hcls hop howner).trans hx.symm)
  case owned =>
    intro s x qid o q e c y z hr hcls hop hc howner hy hz hx
    exact exec_krmEntries ((State.krmStart_owned hr hcls hop hc howner hy hz).trans hx.symm)
  case post => exact fun s qid q e y hr hcls hop hy => congrArg Host.Outcome.next (doKrmRqPost_posts hr hcls hop hy)

end Sys2Proof.Machine
end

section
/-! SUPPORT. KRM packets (08 R232 R249 R255 R256 R261 to R264): what each row of the data path does with a packet, an acceptance, a read
that ends or a timer; O46 from these. -/

namespace Sys2Proof.Machine

variable {s : State} {cid n : Nat} {c : Conn}

/-! ### Frames received (08 R241 R249) -/

/-- The levels of a frame as the KRM engine parses them again. -/
def State.krmParse (s : State) (f : RxFrame) : PState :=
  (s.versionOf f).parse f.bytes f.port ((s.versionOf f).profile f.port).depth

section
variable {f : RxFrame} {p : Parse} (hs : s.fatal = false) (hf : s.twill.frames.get n = some f) (hstage : f.stage = .krm)
  (hp : f.parse = some p)
include hs hf hstage hp

theorem doKrmPacketReceive_notKrm (hk : krmPacket f (s.krmParse f) p.l4Ok = none) :
    doKrmPacketReceive n s = (s.count Ct.krm (s.krmTile f (s.krmParse f)) 4).delFrame n := by
  unfold State.krmParse at hk
  simp only [doKrmPacketReceive, hs, hf, hstage, hp, hk, Bool.false_eq_true, if_false]
  rfl

variable {k : KrmPkt} (hk : krmPacket f (s.krmParse f) p.l4Ok = some k)
include hk

theorem doKrmPacketReceive_noConn (hc : s.conn (be k.header 4 4 / 4096) = none) :
    doKrmPacketReceive n s = (s.count Ct.krm f.tile 5).delFrame n := by
  unfold State.krmParse at hk
  simp only [doKrmPacketReceive, hs, hf, hstage, hp, hk, hc, Bool.false_eq_true, if_false]

theorem doKrmPacketReceive_conn (hc : s.conn (be k.header 4 4 / 4096) = some c) : doKrmPacketReceive n s =
    if c.state = .free ∨ be k.header 4 4 % 4096 ≠ c.cgen then (s.count Ct.krm c.home 5).delFrame n
    else if s.cachedConn (be k.header 4 4 / 4096) = true then s.krmTake n (be k.header 4 4 / 4096) c k else s := by
  unfold State.krmParse at hk
  simp only [doKrmPacketReceive, hs, hf, hstage, hp, hk, hc, Bool.false_eq_true, if_false, Bool.or_eq_true, beq_iff_eq, bne_iff_ne]
  cases s.cachedConn (be k.header 4 4 / 4096) <;> simp

end

/-- A frame whose slices are under way is taken when Calico has given them all (10 R295). -/
theorem State.krmTake_inWork {w : InlineWork} {k : KrmPkt}
    (hw : s.cy.inlineWork.find? (fun w => w.frame == some n) = some w) :
    s.krmTake n cid c k = if w.left = 0 then (s.delFrame n).krmForConn cid c k else s := by
  simp only [State.krmTake, hw]

/-- A frame that has no slices yet: one to open waits for them where the hold has room (10 R295). -/
theorem State.krmTake_new {k : KrmPkt} (hw : s.cy.inlineWork.find? (fun w => w.frame == some n) = none) :
    s.krmTake n cid c k =
      if s.krmToOpen c k = false then (s.delFrame n).krmForConn cid c k
      else if 33554432 < s.heldBytes c.home + 32 + k.rest.length then (s.delFrame n).krmCount cid 11
      else s.inlineItem c.home 0 (16 + k.rest.length) (some n) (32 + k.rest.length) := by
  simp only [State.krmTake, hw, Bool.not_eq_true']

/-- Checks 3 to 5 of R249 count a packet that is not for its connection. -/
theorem State.krmForConn_refused {u : State} {k : KrmPkt}
    (hu : u = (s.krmCount cid 1).krmCount cid 3 (if hOpc k.header = 2 then 0 else hLen k.header)) :
    (c.state ≠ .open → s.krmForConn cid c k = u.krmCount cid 6) ∧
    (c.state = .open → k.src ≠ c.peerIp ∨ k.port ≠ u.peerUdp c → s.krmForConn cid c k = u.krmCount cid 7) ∧
    (c.state = .open → k.src = c.peerIp → k.port = u.peerUdp c → bit (byteAt k.header 0) 3 ≠ c.sealed →
      s.krmForConn cid c k = u.krmCount cid 8) := by
  unfold State.krmForConn
  simp only [← hu]
  refine ⟨fun hstate => ?_, fun hstate hsource => ?_, fun hstate hsrc hport hseal => ?_⟩
  · simp [hstate]
  · simp [hstate, hsource]
  · simp [hstate, hsrc, hport, hseal]

/-! ### Connection state fetched (08 R232, 14 R404) -/

theorem doKrmStateFetched_eq (hs : s.fatal = false) : doKrmStateFetched cid s =
    if s.areaPoisoned connRegion (cid * 128) = true ∨ s.areaPoisoned connRegion (cid * 128 + 64) = true then
      (s.areaMeet connRegion (cid * 128) 128).connFail cid St.uncorrectable none none
    else (s.areaMeet connRegion (cid * 128) 128).fetchConn cid := by
  simp only [doKrmStateFetched, hs, Bool.false_eq_true, if_false, Bool.or_eq_true]

/-! ### Writes accepted (08 R255 R261) -/

/-- What the accepted write of a packet counts for: the read that a READ_RESP answers, or the message of a SEND. -/
def State.countAccepted (u : State) (cid : Nat) (c : Conn) (p : HeldPkt) : State :=
  if hOpc p.header = 3 then
    (match c.reads.find? (fun (r : PendRead) => r.rtag == hW p.header) with
      | some r => ((u.onConn cid fun c => { c with reads := c.reads.map fun (r : PendRead) =>
          (if r.rtag = hW p.header then { r with left := r.left - p.body.length } else r) }).onOp r.op fun o =>
          { o with bytes := o.bytes + p.body.length }).krmCheck cid r.op
      | none => u.onConn cid fun c => { c with reads := c.reads.map fun (r : PendRead) =>
          (if r.rtag = hW p.header then { r with left := r.left - p.body.length } else r) })
  else if hOpc p.header = 4 then u.sendApplied cid p.header else u

section
variable {psn : Nat} {p : HeldPkt} {x : State} (hs : s.fatal = false) (hc : s.conn cid = some c)
  (hp : c.hold.find? (fun p => p.psn == psn && p.admitted.isSome) = some p)
  (hx : x = (s.onConn cid (·.consume psn)).countAccepted cid c p)
include hs hc hp hx

/-- An accepted write is counted; on an OPEN connection it is answered, and what the hold lets go follows. -/
theorem doKrmWriteAccepted_admitted : doKrmWriteAccepted cid psn s =
    (if c.state = .open then
        (p.refuse.elim (x.afterApply cid psn (hPfl p.header) p.ce p.waited) fun r => x.nak cid r psn).drainHold cid c.hold.length
      else x).windowReplies := by
  subst hx
  unfold doKrmWriteAccepted State.countAccepted
  simp only [hs, hc, hp, Bool.false_eq_true, if_false]
  by_cases h3 : hOpc p.header = 3
  · simp only [h3, if_true]
    cases c.reads.find? (fun (r : PendRead) => r.rtag == hW p.header) <;> cases p.refuse <;> rfl
  · by_cases h4 : hOpc p.header = 4
    · simp only [h4, if_true]
      cases p.refuse <;> rfl
    · simp only [h3, h4, if_false]
      cases p.refuse <;> rfl

end

/-! ### Reads served (08 R256) -/

theorem State.makeReads_krm (s : State) (port : Nat) : (s.makeReads port).krm = s.krm := by
  unfold State.makeReads
  refine (foldl_keeps State.krm _ (fun s x => ?_) _ _).trans rfl
  repeat' split
  all_goals rfl

theorem State.dropRead_krm (s : State) (tag : Nat) : (s.dropRead tag).krm = s.krm := by
  unfold State.dropRead
  split
  · exact State.makeReads_krm ..
  · rfl

/-- The answer to a read that was served: its packets, or the NAK of its failure. -/
def State.answerServed (u : State) (cid psn : Nat) (c : Conn) (r : Served) : ReadEnd → State
  | .data b => u.onConn cid fun d => { d with queue := d.queue ++ respPackets c r (sliceZ b 0 r.len) }
  | .timeout => u.nak cid 5 psn
  | .poisoned => u.nak cid 7 psn
  | _ => u.nak cid 6 psn

theorem doKrmReadResponse_served {u : State} {psn t : Nat} {r : Served} (hs : s.fatal = false) (ht : s.serveTag cid psn = some t)
    (hc : s.conn cid = some c) (hr : c.served.find? (fun (r : Served) => r.psn == psn) = some r)
    (hu : u = (s.dropRead t).onConn cid fun c => { c with served := c.served.filter (·.psn != psn) }) (e : ReadEnd) :
    doKrmReadResponse cid psn e s =
      (if c.state = .open then (u.answerServed cid psn c r e).drainHold cid c.hold.length else u).windowReplies := by
  have hc' : (s.dropRead t).conn cid = some c := (congrArg (·.conns.get cid) (s.dropRead_krm t)).trans hc
  subst hu
  unfold doKrmReadResponse State.serveDone
  simp only [hs, ht, hc', hr, Bool.false_eq_true, if_false]
  by_cases hstate : c.state = .open
  · simp only [hstate, bne_self_eq_false, Bool.false_eq_true, if_false, if_true]
    cases e with
    | data b =>
      have hu : ((s.dropRead t).onConn cid fun c => { c with served := c.served.filter (·.psn != psn) }).conn cid =
          some { c with served := c.served.filter (·.psn != psn) } := by
        rw [State.conn_onConn, hc']
        rfl
      exact congrArg (fun v => (State.drainHold v cid c.hold.length).windowReplies) (State.onConn_congr hu rfl)
    | _ => rfl
  · simp [hstate]

/-! ### Packets sent and timers (08 R261 to R264) -/

theorem doKrmPacketSend_sends (hc : s.conn cid = some c) (hs : s.fatal = false) (hstate : c.state = .open)
    (hcached : s.cachedConn cid = true) :
    doKrmPacketSend cid s = (c.ctl.foldl (fun s (o, r, n) => s.sendCtl cid o r n) s).krmSend cid := by
  simp [doKrmPacketSend, hc, hs, hstate, hcached]

theorem doKrmAckTimer_due {t : Nat} (hc : s.conn cid = some c) (hs : s.fatal = false) (hstate : c.state = .open)
    (hack : c.ackDue = some t) (hdue : t ≤ s.ft) : doKrmAckTimer cid s = s.ackNow cid := by
  simp [doKrmAckTimer, hc, hs, hstate, hack, hdue]

theorem doKrmRetransmitTimeout_due {p : SentPkt} (hc : s.conn cid = some c) (hold : c.oldest = some p) (hs : s.fatal = false)
    (hstate : c.state = .open) (hframe : s.onFrame = true) (hwait : p.rnrAt = none)
    (hdue : p.lastFt + min 100000000 (c.rto * 2 ^ c.backoff) ≤ s.ft) : doKrmRetransmitTimeout cid s =
      if c.retryMax ≤ c.backoff then (s.krmCount cid 17).connFail cid St.remoteTimeout p.op p.piece
      else ((s.krmCount cid 17).onConn cid fun c => { c with
        backoff := c.backoff + 1, cwnd := c.cwndFloor, roundEnd := some ((c.sndNext + 2 ^ 32 - 1) % 2 ^ 32)
        sent := c.sent.map fun (q : SentPkt) => { q with resend := q.resend || q.psn == p.psn, lost := true } }).krmSend cid := by
  have hlate : ¬ s.ft < p.lastFt + min 100000000 (c.rto * 2 ^ c.backoff) := Nat.not_lt.2 hdue
  unfold doKrmRetransmitTimeout
  simp only [hc, hold, hs, hstate, hframe, hwait, hlate, bne_self_eq_false, Bool.not_true, Option.isSome_none, Bool.or_self,
    decide_false, Bool.false_eq_true, if_false, Nat.lt_succ_iff]

theorem doKrmRnrRetry_due {l : List SentPkt} (hc : s.conn cid = some c) (hs : s.fatal = false) (hstate : c.state = .open)
    (hframe : s.onFrame = true) (hl : l = c.sent.filter (fun p => p.rnrAt.any (· ≤ s.ft))) (hne : l ≠ []) :
    doKrmRnrRetry cid s = ((s.krmCount cid 18 l.length).onConn cid fun c => { c with sent := c.sent.map fun (p : SentPkt) =>
      (if p.rnrAt.any (· ≤ s.ft) then { p with rnrAt := none, resend := true } else p) }).krmSend cid := by
  unfold doKrmRnrRetry
  simp only [hc, ← hl, hs, hstate, hframe, List.isEmpty_eq_false_iff.2 hne, bne_self_eq_false, Bool.not_true, Bool.or_self,
    Bool.false_eq_true, if_false]

/-! ### The rows -/

theorem exec_krmPacketReceive (n : Nat) (s : State) : exec (.krmPacketReceive n) s = .next (doKrmPacketReceive n s) := rfl
theorem exec_krmStateFetched (cid : Nat) (s : State) : exec (.krmStateFetched cid) s = .next (doKrmStateFetched cid s) := rfl
theorem exec_krmWriteAccepted (cid psn : Nat) (s : State) :
    exec (.krmWriteAccepted cid psn) s = .next (doKrmWriteAccepted cid psn s) := rfl
theorem exec_krmReadResponse (cid psn : Nat) (e : ReadEnd) (s : State) :
    exec (.krmReadResponse cid psn e) s = .next (doKrmReadResponse cid psn e s) := rfl
theorem exec_krmPacketSend (cid : Nat) (s : State) : exec (.krmPacketSend cid) s = .next (doKrmPacketSend cid s) := rfl
theorem exec_krmAckTimer (cid : Nat) (s : State) : exec (.krmAckTimer cid) s = .next (doKrmAckTimer cid s) := rfl
theorem exec_krmRetransmitTimeout (cid : Nat) (s : State) :
    exec (.krmRetransmitTimeout cid) s = .next (doKrmRetransmitTimeout cid s) := rfl
theorem exec_krmRnrRetry (cid : Nat) (s : State) : exec (.krmRnrRetry cid) s = .next (doKrmRnrRetry cid s) := rfl

/-- Settles O46: each row by the lemma of its turn. -/
theorem krmPacketsAreReceivedAndSent : Obligations.KrmPacketsAreReceivedAndSent := by
  unfold Obligations.KrmPacketsAreReceivedAndSent
  simp only [exec_krmPacketReceive, exec_krmStateFetched, exec_krmWriteAccepted, exec_krmReadResponse, exec_krmPacketSend,
    exec_krmAckTimer, exec_krmRetransmitTimeout, exec_krmRnrRetry]
  refine ⟨?receive, ?take, ?refused, ?fetched, ?accepted, ?served, ?send, ?ack, ?timeout, ?rnr⟩
  case receive =>
    intro s n f p hs hf hstage hp
    refine ⟨fun hk => congrArg Host.Outcome.next (doKrmPacketReceive_notKrm hs hf hstage hp hk), fun k hk =>
      ⟨fun hc => congrArg Host.Outcome.next (doKrmPacketReceive_noConn hs hf hstage hp hk hc),
        fun c hc => ⟨fun hout => ?_, fun huse hgen => ?_⟩⟩⟩
    · rw [doKrmPacketReceive_conn hs hf hstage hp hk hc, if_pos hout]
    · rw [doKrmPacketReceive_conn hs hf hstage hp hk hc, if_neg (by simp [huse, hgen])]
  case take =>
    intro s n cid c k
    refine ⟨fun w hw => State.krmTake_inWork hw, fun hw => ⟨fun hclear => ?_, fun hopen hroom => ?_, fun hopen hfull => ?_⟩⟩
    · rw [State.krmTake_new hw, if_pos hclear]
    · rw [State.krmTake_new hw, if_neg (by simp [hopen]), if_neg (Nat.not_lt.2 hroom)]
    · rw [State.krmTake_new hw, if_neg (by simp [hopen]), if_pos hfull]
  case refused => exact fun s u cid c k hu => State.krmForConn_refused hu
  case fetched =>
    intro s cid hs
    refine ⟨fun hfirst hsecond => ?_, fun hpoisoned => ?_⟩
    · rw [doKrmStateFetched_eq hs, if_neg (by simp [hfirst, hsecond])]
    · rw [doKrmStateFetched_eq hs, if_pos hpoisoned]
  case accepted =>
    intro s u x cid psn c p hs hc hp hu hx
    have haccepted := doKrmWriteAccepted_admitted hs hc hp (hu ▸ hx)
    refine ⟨fun hstate => ?_, fun hstate => ⟨fun hgood => ?_, fun r hrefuse => ?_⟩⟩
    · rw [haccepted, if_neg hstate]
    · rw [haccepted, if_pos hstate, hgood, Option.elim_none]
    · rw [haccepted, if_pos hstate, hrefuse, Option.elim_some]
  case served =>
    intro s u cid psn t c r e hs ht hc hr hu
    have hserved := doKrmReadResponse_served hs ht hc hr hu e
    refine ⟨fun hstate => ?_, fun hstate => ?_⟩
    · rw [hserved, if_neg hstate]
    · rw [hserved, if_pos hstate]
      cases e <;> rfl
  case send => exact fun s cid c hc hs hstate hcached => congrArg Host.Outcome.next (doKrmPacketSend_sends hc hs hstate hcached)
  case ack =>
    exact fun s cid t c hc hs hstate hack hdue => congrArg Host.Outcome.next (doKrmAckTimer_due hc hs hstate hack hdue)
  case timeout =>
    intro s cid c p hc hold hs hstate hframe hwait hdue
    have htimeout := doKrmRetransmitTimeout_due hc hold hs hstate hframe hwait hdue
    refine ⟨fun hlimit => ?_, fun hmore => ?_⟩
    · rw [htimeout, if_pos hlimit]
    · rw [htimeout, if_neg (Nat.not_le.2 hmore)]
  case rnr =>
    exact fun s cid c l hc hs hstate hframe hl hne => congrArg Host.Outcome.next (doKrmRnrRetry_due hc hs hstate hframe hl hne)

end Sys2Proof.Machine
end

section
/-! SUPPORT. Volumes (09 R267 to R272) and their self-tests (09 R285 to R287): Buckram's turn at a creation and a destruction, the commands
that service firmware answers, and a test request that goes to its member; O48 from these. -/

namespace Sys2Proof.Machine

section
variable {s : State} {c : Cmd} {who : Caller}

/-! ### Creation and destruction (09 R267 R270 R271) -/

theorem newVolume_ram (c : Cmd) (o : Owner) (region : Option Nat) (now : Nat) :
    (newVolume c o region now).ram = bit (cmdByte c 16) 3 := rfl

/-- A remote volume's members are those that the parameter block names. -/
theorem newVolume_members (h : bit (cmdByte c 16) 3 = false) (o : Owner) (region : Option Nat) (now : Nat) :
    (newVolume c o region now).members = createMembers c := by
  simp [newVolume, h]

section
variable (hpre : s.precheck 0x0701 c who true false true false true true = none) (hlen : volumeLenOk c = true)
  (hcheck : s.volumeCreateCheck c who = none)
include hpre hlen hcheck

/-- A remote volume claims its members' connections. -/
theorem bkBlkVolumeCreate_remote {vid : Nat} (hremote : bit (cmdByte c 16) 3 = false)
    (hvid : vid = (if c.target.toNat = targetNone then
      (chooseFree s.freeVal 16384 s.blk.volumes.length s.blk.volumes.has).getD 0 else c.target.toNat)) :
    bkBlkVolumeCreate c who s = ((s.useFree.claim (createMembers c)).onBlk fun b => { b with
      volumes := b.volumes.set vid (newVolume c who.owner none s.ft) }).bkAnswer 0x0701 c (Answer.ok vid) := by
  subst hvid
  refine (State.bkApply_accepted (hlen ▸ hpre)).trans ?_
  simp only [hcheck, newVolume_ram, hremote, newVolume_members hremote, Bool.false_eq_true, if_false]
  rfl

/-- A RAM volume takes a region. -/
theorem bkBlkVolumeCreate_ram {u : State} {r vid : Nat} (hram : bit (cmdByte c 16) 3 = true)
    (hvid : vid = (if c.target.toNat = targetNone then
      (chooseFree s.freeVal 16384 s.blk.volumes.length s.blk.volumes.has).getD 0 else c.target.toNat))
    (hregion : s.useFree.newRegion none .function (cmdLe c 24 8 * (if bit (cmdByte c 16) 4 then 4096 else 512)) (some who.owner) =
      some (u, r)) :
    bkBlkVolumeCreate c who s = (u.onBlk fun b => { b with
      volumes := b.volumes.set vid { newVolume c who.owner none s.ft with region := some r } }).bkAnswer 0x0701 c (Answer.ok vid) := by
  subst hvid
  have hnew : s.useFree.newRegion none .function ((newVolume c who.owner none s.useFree.ft).nblocks *
      (newVolume c who.owner none s.useFree.ft).bs) (some (newVolume c who.owner none s.useFree.ft).owner) = some (u, r) := hregion
  refine (State.bkApply_accepted (hlen ▸ hpre)).trans ?_
  simp only [hcheck, newVolume_ram, hram, if_true, hnew]
  rfl

/-- A RAM volume for which there is no region is refused. -/
theorem bkBlkVolumeCreate_noRegion (hram : bit (cmdByte c 16) 3 = true)
    (hregion : s.useFree.newRegion none .function (cmdLe c 24 8 * (if bit (cmdByte c 16) 4 then 4096 else 512)) (some who.owner) =
      none) :
    bkBlkVolumeCreate c who s = s.useFree.bkAnswer 0x0701 c (Answer.just St.noResource) := by
  have hnew : s.useFree.newRegion none .function ((newVolume c who.owner none s.useFree.ft).nblocks *
      (newVolume c who.owner none s.useFree.ft).bs) (some (newVolume c who.owner none s.useFree.ft).owner) = none := hregion
  refine (State.bkApply_accepted (hlen ▸ hpre)).trans ?_
  simp only [hcheck, newVolume_ram, hram, if_true, hnew]
  rfl

end

/-- A destruction of a volume that no started command names. -/
theorem bkBlkVolumeDestroy_unused {v : Volume} (hpre : s.precheck 0x0702 c who true false true true true true = none)
    (hv : s.volume c.target.toNat = some v) (hunused : s.volumeBusy c.target.toNat = false) :
    bkBlkVolumeDestroy c who s = (s.dropVolume c.target.toNat v).bkAnswer 0x0702 c Answer.ok := by
  refine (State.bkApply_accepted hpre).trans ?_
  simp only [hv, hunused, Bool.false_eq_true, if_false]
  rfl

/-! ### Queries and tests (09 R272 R285 R287) -/

theorem doBlkVolumeQuery_accepted {v : Volume} (h : s.accepts 0x0703 c who false true true = true)
    (hv : (s.taken 0x0703 c).volume c.target.toNat = some v) :
    doBlkVolumeQuery c s = (s.taken 0x0703 c).answer 0x0703 c
      { Answer.ok with data := (s.taken 0x0703 c).volumeBytes c.target.toNat v } := by
  refine (State.sf_accepted h).trans ?_
  simp only [hv]
  rfl

theorem doBlkSelftestQuery_accepted {v : Volume} (h : s.accepts 0x0706 c who false true true = true)
    (hv : (s.taken 0x0706 c).volume c.target.toNat = some v) :
    doBlkSelftestQuery c s = (s.taken 0x0706 c).answer 0x0706 c (Answer.ok v.test.code v.progress) := by
  refine (State.sf_accepted h).trans ?_
  simp only [hv]
  rfl

theorem doBlkSelftestStart_idle {v : Volume} {t : TestState} (h : s.accepts 0x0705 c who false true true = true)
    (hv : (s.taken 0x0705 c).volume c.target.toNat = some v) (hidle : v.testing = false)
    (hcode : cmdByte c 16 = 0 ∧ t = .short ∨ cmdByte c 16 = 1 ∧ t = .extended) :
    doBlkSelftestStart c s = ((s.taken 0x0705 c).onVolume c.target.toNat fun v => { v with
      test := t, testNext := List.replicate v.span 0, testDone := 0, testBad := false, failLba := none
      testBusy := [] }).answer 0x0705 c (Answer.ok t.code) := by
  refine (if_neg (by omega)).trans ((State.sf_accepted h).trans ?_)
  obtain ⟨hcode, rfl⟩ | ⟨hcode, rfl⟩ := hcode
  all_goals
    simp only [hv, hcode, hidle, Bool.false_eq_true, if_false]
    rfl

theorem doBlkSelftestAbort_testing {v : Volume} (h : s.accepts 0x0705 c who false true true = true)
    (hv : (s.taken 0x0705 c).volume c.target.toNat = some v) (htest : v.testing = true) (hcode : cmdByte c 16 = 2) :
    doBlkSelftestAbort c s = ((s.taken 0x0705 c).testEnd c.target.toNat v .aborted).answer 0x0705 c
      (Answer.ok (((((s.taken 0x0705 c).testEnd c.target.toNat v .aborted).volume c.target.toNat).map (·.test.code)).getD 0)) := by
  refine (if_neg (by omega)).trans ((State.sf_accepted h).trans ?_)
  simp only [hv, hcode, htest, if_true]
  rfl

end

theorem State.volumeBytes_length (s : State) (vid : Nat) (v : Volume) : (s.volumeBytes vid v).length = 64 := by
  simp [State.volumeBytes, zeros]

/-- The blocks and the commands of a volume in the 64 bytes of its query (09 R272). -/
theorem State.volumeBytes_fields (s : State) (vid : Nat) (v : Volume) :
    le (s.volumeBytes vid v) 8 8 = v.nblocks % 2 ^ 64 ∧ le (s.volumeBytes vid v) 24 8 = v.cmds % 2 ^ 64 := by
  have hzeros (r : Bytes) (i n : Nat) : le (zeros 4 ++ r) (4 + i) n = le r i n := le_append_right (zeros 4) r i n
  simp only [State.volumeBytes, List.append_assoc, List.cons_append, List.nil_append, le_cons]
  refine ⟨?_, ?_⟩
  · exact (hzeros _ 0 8).trans (le_toLe 8 ..)
  · exact (hzeros _ 16 8).trans ((le_toLe_append (by decide) ..).trans ((le_toLe_append (by decide) ..).trans (le_toLe 8 ..)))

/-! ### Test requests (09 R285 R286) -/

/-- A piece that is not issued yet is to go to a tile. -/
def State.pieceWaitsFor (s : State) (tile : Nat) : Bool :=
  s.blk.pieces.any fun (_, p) => !p.issued && !p.done && match s.volume p.vid with
    | some x => s.memberTile p.vid x p.member == tile
    | none => false

/-- The next request of a member of a volume under test is in its turn, and no piece of its tile goes before it. -/
structure TestDue (s : State) (vid m k : Nat) (v : Volume) : Prop where
  volume : s.volume vid = some v
  alive : s.fatal = false
  testing : v.testing = true
  member : m < v.span
  next : k = v.testNext.getD m 0
  more : k < v.testCount v.test m
  turn : v.testTurn m k = true
  answered : v.testBusy.any (fun (x, _, _) => x == m) = false
  fresh : v.testStale.any (·.1 == m) = false
  noPiece : s.pieceWaitsFor (s.memberTile vid v m) = false

section
variable {s : State} {vid m k : Nat} {v : Volume}

/-- The request goes on: to the lines of a RAM volume, or to its target where its connection is OPEN. -/
theorem TestDue.request (h : TestDue s vid m k v) : doSelftestRequest vid m s =
    match v.region with
    | some rg => ((s.ramMeet v rg (v.testUnit m k)).onVolume vid fun w => { w with testNext := w.testNext.set m (k + 1) }).testStep
        vid m ((v.testUnit m k).bind (s.ramBad v rg)).isNone ((v.testUnit m k).bind (s.ramBad v rg))
    | none =>
      if (s.conn (v.member m).cid).all (·.state != .open) then s
      else
        let x := (s.onVolume vid fun w => { w with testNext := w.testNext.set m (k + 1) }).takeRtag
        (x.1.onVolume vid fun w => { w with testBusy := w.testBusy ++ [(m, x.2, k)] }).blkSend (v.member m).cid none
          (match v.testUnit m k with
            | none => capsule 7 (if v.bs = 4096 then 12 else 9) x.2 (v.member m).rvol 0 0 0
            | some u => capsule 5 (if v.bs = 4096 then 12 else 9) x.2 (v.member m).rvol (min v.nblocks ((u + 1) * v.bu) - u * v.bu)
                ((v.member m).rbase + u / v.span * v.bu) 0) := by
  obtain ⟨hv, halive, htesting, hmember, rfl, hmore, hturn, hanswered, hfresh, hpiece⟩ := h
  unfold doSelftestRequest
  simp only [hv]
  refine (if_neg ?_).trans ?_
  · simp only [halive, htesting, hanswered, hfresh, hturn, Nat.not_le.2 hmember, Nat.not_le.2 hmore, decide_false, Bool.not_true,
      Bool.false_or, Bool.or_false]
    exact (Bool.not_eq_true _).mpr hpiece
  · rfl

theorem TestDue.request_ram {rg : Nat} {bad : Option Nat} (h : TestDue s vid m k v) (hregion : v.region = some rg)
    (hbad : bad = (v.testUnit m k).bind (s.ramBad v rg)) :
    doSelftestRequest vid m s = ((s.ramMeet v rg (v.testUnit m k)).onVolume vid fun w => { w with
      testNext := w.testNext.set m (k + 1) }).testStep vid m bad.isNone bad := by
  rw [h.request, hregion, hbad]

theorem TestDue.request_notOpen {c : Conn} (h : TestDue s vid m k v) (hregion : v.region = none)
    (hc : s.conn (v.member m).cid = some c) (hstate : c.state ≠ .open) : doSelftestRequest vid m s = s := by
  rw [h.request, hregion]
  exact if_pos (by simpa [hc] using hstate)

theorem TestDue.request_open {c : Conn} {x : State × Nat} (h : TestDue s vid m k v) (hregion : v.region = none)
    (hc : s.conn (v.member m).cid = some c) (hstate : c.state = .open)
    (hx : x = (s.onVolume vid fun w => { w with testNext := w.testNext.set m (k + 1) }).takeRtag) :
    doSelftestRequest vid m s =
      (x.1.onVolume vid fun w => { w with testBusy := w.testBusy ++ [(m, x.2, k)] }).blkSend (v.member m).cid none
        (match v.testUnit m k with
          | none => capsule 7 (if v.bs = 4096 then 12 else 9) x.2 (v.member m).rvol 0 0 0
          | some u => capsule 5 (if v.bs = 4096 then 12 else 9) x.2 (v.member m).rvol (min v.nblocks ((u + 1) * v.bu) - u * v.bu)
              ((v.member m).rbase + u / v.span * v.bu) 0) := by
  subst hx
  rw [h.request, hregion]
  exact if_neg (by simp [hc, hstate])

end

theorem exec_selftestRequest (vid m : Nat) (s : State) : exec (.selftestRequest vid m) s = .next (doSelftestRequest vid m s) := rfl

/-- Settles O48: the creation and the destruction by Buckram's turn, the other commands by their acceptance, a test request that is due by
where its member's blocks are. -/
theorem volumesAndTheirSelfTests : Obligations.VolumesAndTheirSelfTests := by
  unfold Obligations.VolumesAndTheirSelfTests
  simp only [exec_selftestRequest]
  refine ⟨?remote, ?ram, ?full, ?destroy, ?query, ?bytes, ?start, ?abort, ?progress, ?ramTest, ?remoteTest⟩
  case remote =>
    intro s c who env vid h hlen hcheck hremote hvid
    have hpre := State.precheck_of_bkAccepts h
    exact ⟨_, rfl, congrArg Host.Outcome.next ((State.bk_served h).trans (bkBlkVolumeCreate_remote hpre hlen hcheck hremote hvid))⟩
  case ram =>
    intro s c who env u r vid h hlen hcheck hram hvid hregion
    have hpre := State.precheck_of_bkAccepts h
    exact ⟨_, rfl, congrArg Host.Outcome.next ((State.bk_served h).trans
      (bkBlkVolumeCreate_ram hpre hlen hcheck hram hvid hregion))⟩
  case full =>
    intro s c who env h hlen hcheck hram hregion
    have hpre := State.precheck_of_bkAccepts h
    exact ⟨_, rfl, congrArg Host.Outcome.next ((State.bk_served h).trans
      (bkBlkVolumeCreate_noRegion hpre hlen hcheck hram hregion))⟩
  case destroy =>
    intro s c who env v h hv hunused
    have hpre := State.precheck_of_bkAccepts h
    exact ⟨_, rfl, congrArg Host.Outcome.next ((State.bk_served h).trans (bkBlkVolumeDestroy_unused hpre hv hunused))⟩
  case query => exact fun s c who v h hv => congrArg Host.Outcome.next (doBlkVolumeQuery_accepted h hv)
  case bytes => exact fun s vid v => ⟨s.volumeBytes_length vid v, s.volumeBytes_fields vid v⟩
  case start =>
    exact fun s c who v t h hv hidle hcode => congrArg Host.Outcome.next (doBlkSelftestStart_idle h hv hidle hcode)
  case abort =>
    exact fun s c who v h hv htest hcode => congrArg Host.Outcome.next (doBlkSelftestAbort_testing h hv htest hcode)
  case progress => exact fun s c who v h hv => congrArg Host.Outcome.next (doBlkSelftestQuery_accepted h hv)
  case ramTest =>
    intro s vid m k rg bad v hv hs htest hm hk hmore hturn hbusy hstale hpiece hregion hbad
    have hdue : TestDue s vid m k v := ⟨hv, hs, htest, hm, hk, hmore, hturn, hbusy, hstale, hpiece⟩
    exact congrArg Host.Outcome.next (hdue.request_ram hregion hbad)
  case remoteTest =>
    intro s vid m k v c x hv hs htest hm hk hmore hturn hbusy hstale hpiece hregion hc hx
    have hdue : TestDue s vid m k v := ⟨hv, hs, htest, hm, hk, hmore, hturn, hbusy, hstale, hpiece⟩
    exact ⟨fun hstate => congrArg Host.Outcome.next (hdue.request_notOpen hregion hc hstate),
      fun hstate => congrArg Host.Outcome.next (hdue.request_open hregion hc hstate hx)⟩

end Sys2Proof.Machine
end

section
/-! SUPPORT. Block entries and their pieces (09 R273 to R283), responses (R278 R279) and the reset of a block queue (R284): what becomes of
an entry that may start, of a piece to issue, of a message of a claimed connection, and of a queue from its reset to the reply; O49 from
these. -/

namespace Sys2Proof.Machine

/-! ### Entries (09 R274 R276 R277 R282) -/

section
variable {s : State} {qid op : Nat} {q : Queue} {e : Bytes}

/-- An entry that now fails a check ends with its status (09 R271 R274). -/
theorem State.blkStart_failed {st : Nat} (hr : s.readyHead qid = some (q, e)) (hcls : q.cls = .blkSq) (hop : entryOp e = op)
    (hcheck : s.blkEntryCheck qid q.owner e (fragTotal (entryFrags .blkSq e q.headFrags)) = some st) :
    s.blkStart qid op = s.endHead qid st (blkC12 e) e := by
  unfold State.blkStart
  simp only [hr, hcls, hop, bne_self_eq_false, Bool.or_self, Bool.false_eq_true, if_false, hcheck]

/-- An entry that passes its checks waits, or becomes a command with its pieces (09 R276 R282, 07 R200). -/
theorem State.blkStart_passed {x : Volume} {y : State × Bool} {z : State × Nat} (hr : s.readyHead qid = some (q, e))
    (hcls : q.cls = .blkSq) (hop : entryOp e = op) (hx : s.volume (blkVid e) = some x)
    (hcheck : s.blkEntryCheck qid q.owner e (fragTotal (entryFrags .blkSq e q.headFrags)) = none)
    (hy : y = s.shaperGo qid (fragTotal (entryFrags .blkSq e q.headFrags))) (hz : z = y.1.newOp qid e (entryFrags .blkSq e q.headFrags)) :
    s.blkStart qid op = if s.orderedOk qid e x = false then s else if y.2 = false then y.1 else
      ((blkSplit x z.2 (blkVid e) e).foldl (fun s p => s.onBlk fun b => { b with
        pieces := b.pieces.set b.nextPiece p, nextPiece := b.nextPiece + 1 })
      ((if x.span = 4 ∧ entryOrdered e = true then (z.1.count Ct.block q.home 0).count Ct.block q.home 1
          else z.1.count Ct.block q.home 0).onVolume (blkVid e) fun y => { y with
        cmds := (y.cmds + 1) % 2 ^ 48, vseq := y.vseq + 1 })).onOp z.2 fun o => { o with admitted := true } := by
  obtain ⟨u, go⟩ := y
  subst hz
  unfold State.blkStart
  simp only [hr, hcls, hop, hx, hcheck, bne_self_eq_false, Bool.or_self, Bool.false_eq_true, if_false, Bool.not_eq_true', ← hy]
  cases go <;> rfl

/-- The four rows of BLK_SQ entries are one start, by the opcode. -/
theorem exec_blkEntries {w : State} (h : s.blkStart qid op = w) : (op = 1 → exec (.blkRead qid) s = .next w) ∧
    (op = 2 → exec (.blkWrite qid) s = .next w) ∧ (op = 3 → exec (.blkFlush qid) s = .next w) ∧
    (op = 4 → exec (.blkTrim qid) s = .next w) := by
  refine ⟨?_, ?_, ?_, ?_⟩
  all_goals
    rintro rfl
    exact congrArg Host.Outcome.next h

end

/-! ### The pieces of a command (09 R276 R277) -/

section
variable {v : Volume} {n vid m : Nat} {e : Bytes}

/-- The piece of a command at a member: a FLUSH has one for each, any other one where the member has a share. -/
def memberPiece (v : Volume) (n vid : Nat) (e : Bytes) (m : Nat) : Option Piece :=
  if entryOp e = 3 then some (newPiece n vid m 3 0 0 m v.vseq)
  else (v.share m (blkLba e) (blkLba e + blkNblk e)).map fun (l, ml, c) => newPiece n vid m (entryOp e) ml c l v.vseq

theorem blkSplit_eq (v : Volume) (n vid : Nat) (e : Bytes) :
    blkSplit v n vid e = (List.range v.span).filterMap (memberPiece v n vid e) := rfl

theorem memberPiece_member {p : Piece} (h : memberPiece v n vid e m = some p) : p.member = m := by
  unfold memberPiece at h
  split at h
  · cases h
    rfl
  · obtain ⟨x, -, rfl⟩ := Option.map_eq_some_iff.1 h
    rfl

theorem blkSplit_length_le (v : Volume) (n vid : Nat) (e : Bytes) : (blkSplit v n vid e).length ≤ v.span :=
  (List.length_filterMap_le ..).trans_eq List.length_range

theorem blkSplit_length_flush (hop : entryOp e = 3) (v : Volume) (n vid : Nat) : (blkSplit v n vid e).length = v.span := by
  have hpiece : memberPiece v n vid e = fun m => some (newPiece n vid m 3 0 0 m v.vseq) := funext fun m => if_pos hop
  rw [blkSplit_eq, hpiece, List.filterMap_eq_map', List.length_map, List.length_range]

/-- A command has at most one piece at a member. -/
theorem blkSplit_members_nodup (v : Volume) (n vid : Nat) (e : Bytes) : ((blkSplit v n vid e).map (·.member)).Nodup := by
  rw [blkSplit_eq, List.map_filterMap]
  refine List.nodup_range.filterMap fun a a' b ha ha' => ?_
  obtain ⟨p, hp, rfl⟩ := Option.map_eq_some_iff.1 ha
  obtain ⟨p', hp', hb⟩ := Option.map_eq_some_iff.1 ha'
  rw [← memberPiece_member hp, ← memberPiece_member hp', hb]

end

/-! ### Issuing a piece (09 R280 R283) -/

theorem State.onPiece_congr {s : State} {k : Nat} {p : Piece} {f g : Piece → Piece} (hp : s.piece k = some p) (hfg : f p = g p) :
    s.onPiece k f = s.onPiece k g :=
  congrArg (fun t => s.onBlk fun b => { b with pieces := t }) (Tab.mod_congr hp hfg)

/-- A piece that is issued: a WRITE's data is read, a RAM volume's piece is done there, any other goes to its target. -/
def State.pieceGo (u : State) (k : Nat) (p : Piece) (o : Op) (v : Volume) (q : Queue) : State :=
  match p.bop, v.region with
  | 2, _ => (u.pieceReads k p.op q.owner o v (v.runs p.member (blkSpan o.entry).1 (blkSpan o.entry).2)).pieceForm k
  | 1, some rg => (u.blkSlices p v).ramRead k o p.vid v rg q.owner (v.runs p.member (blkSpan o.entry).1 (blkSpan o.entry).2)
  | _, some _ => u.pieceDone k St.ok 0 true
  | _, none => u.pieceSend k p v []

section
variable {u : State} {k : Nat} {p : Piece} {o : Op} {v : Volume} {q : Queue}

theorem State.pieceGo_write (h : p.bop = 2) : u.pieceGo k p o v q =
    (u.pieceReads k p.op q.owner o v (v.runs p.member (blkSpan o.entry).1 (blkSpan o.entry).2)).pieceForm k := by
  unfold State.pieceGo
  split
  · rfl
  · next hread _ => omega
  · next hwrite _ => exact absurd h hwrite
  · next hwrite => exact absurd h hwrite

theorem State.pieceGo_send (h : p.bop ≠ 2) (hregion : v.region = none) : u.pieceGo k p o v q = u.pieceSend k p v [] := by
  unfold State.pieceGo
  rw [hregion]
  split
  · next hwrite => exact absurd hwrite h
  · next hsome => cases hsome
  · next hsome _ _ => cases hsome
  · rfl

theorem State.pieceGo_ram {rg : Nat} (hregion : v.region = some rg) : u.pieceGo k p o v q =
    if p.bop = 2 then (u.pieceReads k p.op q.owner o v (v.runs p.member (blkSpan o.entry).1 (blkSpan o.entry).2)).pieceForm k
    else if p.bop = 1 then (u.blkSlices p v).ramRead k o p.vid v rg q.owner (v.runs p.member (blkSpan o.entry).1 (blkSpan o.entry).2)
    else u.pieceDone k St.ok 0 true := by
  unfold State.pieceGo
  rw [hregion]
  split
  · next hwrite => rw [if_pos hwrite]
  · next hread hsome =>
    cases hsome
    rw [if_neg (by omega), if_pos hread]
  · next hwrite hread => rw [if_neg hwrite, if_neg hread]
  · next hnone _ => cases hnone

end

/-- A piece that is not issued, of a running command, with no earlier piece of its member before it (09 R283). -/
structure PieceDue (s : State) (k : Nat) (p : Piece) (o : Op) (v : Volume) (q : Queue) : Prop where
  piece : s.piece k = some p
  op : s.op p.op = some o
  volume : s.volume p.vid = some v
  queue : s.queue o.qid = some q
  alive : s.fatal = false
  notIssued : p.issued = false
  notDone : p.done = false
  running : o.status = none
  notHeld : s.pieceHeld p v = false

section
variable {s u : State} {k : Nat} {p : Piece} {o : Op} {v : Volume} {q : Queue}

/-- A remote piece looks at its connection, then for a place; then any piece that moves data for its owner's bus mastering. -/
theorem PieceDue.issue (h : PieceDue s k p o v q) : doBlkPieceIssue k s =
    if !v.ram && (s.conn (v.member p.member).cid).all (·.state == .pending) then s
    else if !v.ram && (s.conn (v.member p.member).cid).all (·.state != .open) then s.pieceDone k St.badState 0 true
    else if !v.ram && (s.respPlace (s.memberTile p.vid v p.member) (p.respBytes v.bs)).isNone then s
    else if s.ownerHeld q.owner && (p.bop == 1 || p.bop == 2) then s
    else (s.onPiece k fun y => { y with issued := true, slot := if v.ram then none
      else (s.respPlace (s.memberTile p.vid v p.member) (p.respBytes v.bs)).map fun off =>
        (s.memberTile p.vid v p.member, off) }).pieceGo k p o v q := by
  obtain ⟨hp, ho, hv, hq, halive, hissued, hdone, hstatus, hheld⟩ := h
  unfold doBlkPieceIssue
  simp only [hp, ho, hv, hq, halive, hissued, hdone, hstatus, hheld, Option.isSome_none, Bool.or_self, Bool.false_eq_true, if_false]
  rfl

section
variable {c : Conn} (h : PieceDue s k p o v q) (hremote : v.ram = false) (hc : s.conn (v.member p.member).cid = some c)
include h hremote hc

theorem PieceDue.issue_pending (hstate : c.state = .pending) : doBlkPieceIssue k s = s := by
  rw [h.issue, if_pos (by simp [hremote, hc, hstate])]

theorem PieceDue.issue_lost (hpending : c.state ≠ .pending) (hopen : c.state ≠ .open) :
    doBlkPieceIssue k s = s.pieceDone k St.badState 0 true := by
  rw [h.issue, if_neg (by simp [hc, hpending]), if_pos (by simp [hremote, hc, hopen])]

theorem PieceDue.issue_noPlace (hstate : c.state = .open)
    (hplace : s.respPlace (s.memberTile p.vid v p.member) (p.respBytes v.bs) = none) : doBlkPieceIssue k s = s := by
  rw [h.issue, if_neg (by simp [hc, hstate]), if_neg (by simp [hc, hstate]), if_pos (by simp [hremote, hplace])]

/-- With a place for its response a remote piece waits for bus mastering alone. -/
theorem PieceDue.issue_placed {off : Nat} (hstate : c.state = .open)
    (hplace : s.respPlace (s.memberTile p.vid v p.member) (p.respBytes v.bs) = some off)
    (hu : u = s.onPiece k fun y => { y with issued := true, slot := some (s.memberTile p.vid v p.member, off) }) :
    doBlkPieceIssue k s = if s.ownerHeld q.owner = true ∧ (p.bop = 1 ∨ p.bop = 2) then s else u.pieceGo k p o v q := by
  rw [h.issue, if_neg (by simp [hc, hstate]), if_neg (by simp [hc, hstate]), if_neg (by simp [hplace]), hu]
  simp [hremote, hplace]

end

/-- A piece of a RAM volume waits for bus mastering alone. -/
theorem PieceDue.issue_ram (h : PieceDue s k p o v q) (hram : v.ram = true)
    (hu : u = s.onPiece k fun y => { y with issued := true, slot := none }) :
    doBlkPieceIssue k s = if s.ownerHeld q.owner = true ∧ (p.bop = 1 ∨ p.bop = 2) then s else u.pieceGo k p o v q := by
  rw [h.issue, hu]
  simp [hram]

end

/-! ### Responses (09 R278 R279) -/

section
variable {s : State} {cid : Nat} {b : BlkMsg}

theorem doBlkRespReceive_next {c : Conn} {l : List BlkMsg} (hc : s.conn cid = some c) (hmsgs : c.blkMsgs = b :: l)
    (hs : s.fatal = false) : doBlkRespReceive cid s = (s.onConn cid fun c => { c with blkMsgs := l }).blkResp cid b := by
  simp [doBlkRespReceive, hc, hmsgs, hs]

/-- A response that names an outstanding piece. -/
theorem State.blkResp_piece {k : Nat} {p : Piece} {v : Volume} (h : s.pieceOfTag cid b.rtag = some (k, p, v)) : s.blkResp cid b =
    if b.respOk v.bs (p.respData v.bs b.tstat) = false then s.count Ct.block (((s.conn cid).map (·.home)).getD 0) 2
    else if p.bop = 1 ∧ b.tstat = 0 then s.respTaken k p v
    else s.pieceDone k (tstatStatus b.tstat) b.tstat true := by
  unfold State.blkResp
  simp only [h, Bool.not_eq_true']

end

/-! ### The reset of a queue (09 R284) -/

theorem doBlkQueueReset_accepted {s : State} {c : Cmd} {who : Caller} {q : Queue} (h : s.accepts 0x0704 c who false true true = true)
    (hq : (s.taken 0x0704 c).queue c.target.toNat = some q) (hcls : q.cls = .blkSq) (hstate : q.state = .enabled) :
    doBlkQueueReset c s = ((((((s.taken 0x0704 c).onQueue c.target.toNat fun q => { q with
      state := .draining, resetAt := some (s.taken 0x0704 c).ft, resetEnd := q.p, resetTags := 0, resetAbandoned := 0
      resetCmd := some c }).writeBack c.target.toNat).resetConsume c.target.toNat 65536).abortPieces c.target.toNat).fetch
        c.target.toNat) := by
  refine (State.sf_accepted h).trans ?_
  simp only [hq, hcls, hstate, bne_self_eq_false, Bool.or_self, Bool.false_eq_true, if_false]

/-- A time limit of a reset has passed. -/
theorem Queue.resetOver {q : Queue} {t limit now : Nat} (hreset : q.resetAt = some t) (hdue : t + limit ≤ now) :
    q.resetAt.all (fun t => decide (now < t + limit)) = false := by
  simpa [hreset] using hdue

theorem doBlkResetAbandon_due {s : State} {qid t : Nat} {q : Queue} (hq : s.queue qid = some q) (hs : s.fatal = false)
    (hreset : q.resetAt = some t) (hdue : t + 150000000 ≤ s.ft) :
    doBlkResetAbandon qid s = (s.blk.pieces.filter fun (_, p) => !p.done && (s.op p.op).any (·.qid == qid)).foldl
      (fun s (k, p) => ((s.count Ct.block (match s.volume p.vid with
          | some v => s.memberTile p.vid v p.member
          | none => 0) 3).onQueue qid fun q => { q with
        resetAbandoned := q.resetAbandoned + 1 }).pieceDone k St.abortedReset 0 false) s := by
  unfold doBlkResetAbandon
  simp only [hq]
  exact if_neg (by simp only [hs, Queue.resetOver hreset hdue, Bool.or_self, Bool.false_eq_true, not_false_eq_true])

theorem doBlkQueueResetComplete_finished {s : State} {qid : Nat} {q : Queue} {c : Cmd} (hq : s.queue qid = some q)
    (hs : s.fatal = false) (hcmd : q.resetCmd = some c) (hreset : q.resetAt ≠ none) (hend : q.c = q.resetEnd)
    (hfinished : s.allFinished qid = true) :
    doBlkQueueResetComplete qid s = ((s.onQueue qid fun q => { q.dropCached with
      state := .enabled, p := q.resetEnd, c := q.resetEnd, f := q.resetEnd, resetAt := none, resetCmd := none }).writeBack qid).reply
        0x0704 c false (Answer.ok q.resetTags q.resetAbandoned) := by
  simp [doBlkQueueResetComplete, hq, hcmd, hs, hreset, hend, hfinished]

theorem exec_blkPieceIssue (k : Nat) (s : State) : exec (.blkPieceIssue k) s = .next (doBlkPieceIssue k s) := rfl
theorem exec_blkRespReceive (cid : Nat) (s : State) : exec (.blkRespReceive cid) s = .next (doBlkRespReceive cid s) := rfl
theorem exec_blkQueueReset (c : Cmd) (s : State) : exec (.blkQueueReset c) s = .next (doBlkQueueReset c s) := rfl
theorem exec_blkResetAbandon (qid : Nat) (s : State) : exec (.blkResetAbandon qid) s = .next (doBlkResetAbandon qid s) := rfl
theorem exec_blkQueueResetComplete (qid : Nat) (s : State) :
    exec (.blkQueueResetComplete qid) s = .next (doBlkQueueResetComplete qid s) := rfl

/-- Settles O49: an entry by its checks, a piece by its connection, its place and its owner's bus mastering, a response by the piece that it
names, the reset by its three rows. -/
theorem blockCommandsAreSplitIssuedAndReset : Obligations.BlockCommandsAreSplitIssuedAndReset := by
  unfold Obligations.BlockCommandsAreSplitIssuedAndReset
  simp only [exec_blkPieceIssue, exec_blkRespReceive, exec_blkQueueReset, exec_blkResetAbandon, exec_blkQueueResetComplete]
  refine ⟨?failed, ?passed, ?split, ?remote, ?ram, ?message, ?response, ?reset, ?abandon, ?complete⟩
  case failed =>
    intro s w qid op st q e hr hcls hop hcheck hw
    exact exec_blkEntries ((State.blkStart_failed hr hcls hop hcheck).trans hw.symm)
  case passed =>
    intro s w qid op q e x y z hr hcls hop hx hcheck hy hz hw
    exact exec_blkEntries ((State.blkStart_passed hr hcls hop hx hcheck hy hz).trans hw.symm)
  case split =>
    exact fun v n vid e =>
      ⟨blkSplit_length_le v n vid e, fun hop => blkSplit_length_flush hop v n vid, blkSplit_members_nodup v n vid e⟩
  case remote =>
    intro s k p o v q c hp ho hv hq hs hissued hdone hstatus hheld hremote hregion hc
    have hdue : PieceDue s k p o v q := ⟨hp, ho, hv, hq, hs, hissued, hdone, hstatus, hheld⟩
    refine ⟨fun hpending => congrArg Host.Outcome.next (hdue.issue_pending hremote hc hpending),
      fun hpending hopen => congrArg Host.Outcome.next (hdue.issue_lost hremote hc hpending hopen),
      fun hopen hplace => congrArg Host.Outcome.next (hdue.issue_noPlace hremote hc hopen hplace), fun off u hopen hplace hu => ?_⟩
    rw [hdue.issue_placed hremote hc hopen hplace (hu.trans (State.onPiece_congr hp rfl))]
    refine ⟨fun hmaster hdata => ?_, fun hwrite hmaster => ?_, fun hwrite hmaster => ?_⟩
    · rw [if_pos ⟨hmaster, hdata⟩]
    · rw [if_neg (by grind), State.pieceGo_send hwrite hregion]
    · rw [if_neg (by simp [hmaster]), State.pieceGo_write hwrite]
  case ram =>
    intro s u k rg p o v q hp ho hv hq hs hissued hdone hstatus hheld hram hregion hu
    have hdue : PieceDue s k p o v q := ⟨hp, ho, hv, hq, hs, hissued, hdone, hstatus, hheld⟩
    rw [hdue.issue_ram hram hu]
    refine ⟨fun hmaster hdata => ?_, fun hfree => ?_⟩
    · rw [if_pos ⟨hmaster, hdata⟩]
    · rw [if_neg (by grind), State.pieceGo_ram hregion]
  case message => exact fun s cid c b l hc hmsgs hs => congrArg Host.Outcome.next (doBlkRespReceive_next hc hmsgs hs)
  case response =>
    intro s cid k b p v h
    rw [State.blkResp_piece h]
    refine ⟨fun hform => if_pos hform, fun hform => ⟨fun hread hgood => ?_, fun hother => ?_⟩⟩
    · rw [if_neg (by simp [hform]), if_pos ⟨hread, hgood⟩]
    · rw [if_neg (by simp [hform]), if_neg (by omega)]
  case reset =>
    exact fun s c who q h hq hcls hstate => congrArg Host.Outcome.next (doBlkQueueReset_accepted h hq hcls hstate)
  case abandon =>
    exact fun s qid t q hq hs hreset hdue => congrArg Host.Outcome.next (doBlkResetAbandon_due hq hs hreset hdue)
  case complete =>
    exact fun s qid q c hq hs hcmd hreset hend hfinished =>
      congrArg Host.Outcome.next (doBlkQueueResetComplete_finished hq hs hcmd hreset hend hfinished)

end Sys2Proof.Machine
end

section
/-! SUPPORT. Cipher channels (10 R291 R292 R297 to R303 R306 R313): Buckram's turn at a creation and a destruction, writes through the
cipher page, the slice tables, the rows of a tile and the engine slice of a channel's own entry; O50 from these. -/

namespace Sys2Proof.Machine

/-! ### Channel commands (10 R297 to R299 R313) -/

section
variable {s : State} {c : Cmd} {who : Caller}

/-- A creation that names its channel. -/
theorem bkCyChannelCreate_named {o : Owner} {q : Queue} (hpre : s.precheck 0x0801 c who true false true false true true = none)
    (hcheck : s.cyCreateCheck c who = none) (ho : s.cyOwner c who = some o) (hq : s.queue (cmdLe c 20 2) = some q)
    (htarget : c.target.toNat ≠ targetNone) :
    bkCyChannelCreate c who s =
      (s.onCy fun y => { y with chans := y.chans.set c.target.toNat (newCyChan c o who) }).bkAnswer 0x0801 c
        (Answer.ok c.target.toNat) := by
  refine (State.bkApply_accepted hpre).trans ?_
  simp only [hcheck, ho, hq, if_neg htarget]
  rfl

/-- A destruction of a channel whose queue is at rest. -/
theorem bkCyChannelDestroy_quiet {x : CyChan} (hpre : s.precheck 0x0802 c who true false true true true true = none)
    (hx : s.cyChan c.target.toNat = some x) (hquiet : s.quiet x.jq = true) :
    bkCyChannelDestroy c who s =
      (s.onCy fun y => { y with chans := y.chans.del c.target.toNat }).bkAnswer 0x0802 c Answer.ok := by
  refine (State.bkApply_accepted hpre).trans ?_
  simp only [hx, hquiet, if_true]
  rfl

theorem doCySliceTableSet_waits (h : s.accepts 0x0803 c who false (c.pbLen == 2048) true = true)
    (hentries : ∀ i, i < 1024 → sliceEntryOk (le c.pb (2 * i) 2) = true) (hon : (s.taken 0x0803 c).tileOn c.target.toNat = true) :
    doCySliceTableSet c s = (s.taken 0x0803 c).onCy fun y => { y with
      pend := y.pend ++ [(c.target.toNat, (List.range 1024).map (fun i => le c.pb (2 * i) 2), (s.taken 0x0803 c).ft, c)] } := by
  have hall : ((List.range 1024).map fun i => le c.pb (2 * i) 2).all sliceEntryOk = true := by
    simpa [List.all_eq_true] using hentries
  refine (State.sf_accepted h).trans ?_
  simp only [hall, hon, Bool.not_true, Bool.false_eq_true, if_false]

section
variable (h : s.accepts 0x0804 c who false true (decide (2 ≤ c.target.toNat % 65536)) = true)
include h

theorem doCyQuery_channel {x : CyChan} (hx : (s.taken 0x0804 c).cyChan c.target.toNat = some x) :
    doCyQuery c s = (s.taken 0x0804 c).answer 0x0804 c
      { Answer.ok with data := (s.taken 0x0804 c).cyBytes c.target.toNat x } := by
  refine (State.sf_accepted h).trans ?_
  simp only [hx]
  rfl

/-- The two lowest channels of a tile are inline and always there. -/
theorem doCyQuery_inline (hx : (s.taken 0x0804 c).cyChan c.target.toNat = none) (hinline : c.target.toNat % 65536 < 2) :
    doCyQuery c s = (s.taken 0x0804 c).answer 0x0804 c
      { Answer.ok with data := (s.taken 0x0804 c).inlineBytes c.target.toNat } := by
  refine (State.sf_accepted h).trans ?_
  simp only [hx, if_pos hinline]
  rfl

end

end

/-- Two changes of Calico that agree on it. -/
theorem State.onCy_congr {s : State} {f g : CySt → CySt} (h : f s.cy = g s.cy) : s.onCy f = s.onCy g := by
  unfold State.onCy
  rw [h]

/-- The only table that waits, at its boundary: it governs, and its command is answered. -/
theorem doSliceTableEffect_due {s : State} {tile a : Nat} {l : List Nat} {c : Cmd} (hs : s.fatal = false)
    (hdue : s.dueFrame a = true) (hpend : s.cy.pend = [(tile, l, a, c)]) :
    doSliceTableEffect tile s = (s.onCy fun y => { y with pend := [], tables := y.tables.set tile l }).reply 0x0803 c false
      { Answer.ok with ft := some s.frameFt } := by
  have hnow : s.cy.pend.filter (fun x => x.1 == tile && s.dueFrame x.2.2.1) = [(tile, l, a, c)] := by simp [hpend, hdue]
  have hlater : (s.onCy fun y => { y with pend := y.pend.filter fun x => !(x.1 == tile && s.dueFrame x.2.2.1) }) =
      s.onCy fun y => { y with pend := [] } := State.onCy_congr (by simp [hpend, hdue])
  unfold doSliceTableEffect
  simp only [hs, Bool.false_eq_true, if_false, hnow, hlater, List.foldl_cons, List.foldl_nil]
  rfl

/-! ### The cipher page (10 R301 to R303) -/

section
variable {s : State} {f : FnRef} {page t : Nat} (hs : s.fatal = false) (hb : s.barOpen f = true)
include hs hb

/-- A write through a cipher page that is not bound is counted (10 R301, log 32). -/
theorem State.pageWrite_unbound (hp : s.chanOfPage f page = none) (g : Nat → State → State) :
    s.pageWrite f page g = s.count Ct.func (fnWord f) 0 := by
  simp [State.pageWrite, hs, hb, hp]

variable {x : CyChan} (hp : s.chanOfPage f page = some (t, x))
include hp

/-- CY_KEY_CTRL changes the channel of its page. -/
theorem State.pageKeyCtrl_of_bound (v : Nat) : s.pageKeyCtrl f page v = s.onChanCy t (·.keyCtrl v) :=
  State.pageWrite_of_bound hs hb hp _

/-- Each row of CY_KEY_CTRL takes the values of its own KLEN. -/
theorem exec_keyCtrl (v : W32) :
    (field v.toNat 6 2 = 1 → exec (.cyKeyStore256 f page v) s = .next (s.onChanCy t (·.keyCtrl v.toNat))) ∧
    (field v.toNat 6 2 = 2 → exec (.cyKeyStore512 f page v) s = .next (s.onChanCy t (·.keyCtrl v.toNat))) ∧
    (field v.toNat 6 2 = 0 → exec (.cyKeyClear f page v) s = .next (s.onChanCy t (·.keyCtrl v.toNat))) := by
  have hown {k : Nat} (hk : field v.toNat 6 2 = k) : ¬ otherKlen v.toNat k = true := by simp [otherKlen, hk]
  refine ⟨fun hk => ?_, fun hk => ?_, fun hk => ?_⟩
  all_goals exact congrArg Host.Outcome.next ((if_neg (hown hk)).trans (State.pageKeyCtrl_of_bound hs hb hp v.toNat))

end

theorem doCyKeyDataWrite_eq {w : Nat} (hw : w < 8) (f : FnRef) (page : Nat) (v : W64) (s : State) :
    doCyKeyDataWrite f page w v s = s.pageWrite f page fun t s => s.onChanCy t fun x => { x with staging := x.staging.set w v } :=
  if_neg (Nat.not_le.2 hw)

section
variable {s : State} {f : FnRef} {page t : Nat} {x : CyChan} {v : W64} (hs : s.fatal = false) (hb : s.barOpen f = true)
  (hp : s.chanOfPage f page = some (t, x)) (hx : s.cyChan t = some x)
include hs hb hp hx

/-- A doorbell of another queue than the channel's is an error of the page. -/
theorem doCyJobDb_otherQueue (hqid : v.toNat % 65536 ≠ x.jq) :
    doCyJobDb f page v s = (s.onChanCy t fun x => { x with err := x.err ||| 2 }).count Ct.func (fnWord f) 0 := by
  refine (State.pageWrite_of_bound hs hb hp _).trans ?_
  simp only [hx, ne_eq, hqid, not_false_eq_true, if_true]

theorem doCyJobDb_rings {q : Queue} (hqid : v.toNat % 65536 = x.jq) (hq : s.queue x.jq = some q) (hstate : q.state = .enabled) :
    doCyJobDb f page v s = s.ringWork q { fn := f, bar := 2, offset := page * 4096 + 0x18, size := 8, value := v } := by
  refine (State.pageWrite_of_bound hs hb hp _).trans ?_
  simp only [hx, hqid, ne_eq, not_true_eq_false, if_false, hq, hstate, bne_self_eq_false, Bool.false_eq_true]

end

/-! ### Key slots (10 R302) -/

section
variable {x : CyChan} {v k : Nat}

theorem CyChan.keyCtrl_staging (x : CyChan) (v : Nat) : (x.keyCtrl v).staging = List.replicate 8 0 := rfl

/-- Where no slot holds a half of a 512-bit key, none loses its other half. -/
theorem CyChan.dropWide_of_noWide (hwide : x.wide = 0) (k : Nat) : x.dropWide k = x := by
  simp [CyChan.dropWide, hwide, bit]

theorem CyChan.keyCtrl_store256 (hk : k = v % 8) (hwide : x.wide = 0) (hklen : field v 6 2 = 1) : x.keyCtrl v = { x with
    slots := x.slots.set k (x.stagedKey 0), valid := if bit x.valid k then x.valid else x.valid + 2 ^ k
    staging := List.replicate 8 0 } := by
  simp only [CyChan.keyCtrl, hklen, ← hk, CyChan.dropWide_of_noWide hwide, CyChan.putSlot]

theorem CyChan.keyCtrl_clear (hk : k = v % 8) (hwide : x.wide = 0) (hklen : field v 6 2 = 0) : x.keyCtrl v = { x with
    slots := x.slots.set k (zeros 32), valid := if bit x.valid k then x.valid - 2 ^ k else x.valid
    staging := List.replicate 8 0 } := by
  simp only [CyChan.keyCtrl, hklen, ← hk, CyChan.dropWide_of_noWide hwide]

/-- A 512-bit key begins at an even slot. -/
theorem CyChan.keyCtrl_store512_odd (hk : k = v % 8) (hklen : field v 6 2 = 2) (hodd : k % 2 = 1) :
    x.keyCtrl v = { x with err := x.err ||| 1, staging := List.replicate 8 0 } := by
  simp only [CyChan.keyCtrl, hklen, ← hk, hodd, if_true]

end

/-! ### Rows and engine slices (10 R291 R292) -/

section
variable {s : State} {tile : Nat} {r : CyRow} (hr : s.cy.rows.getD tile { start := 0, row := 0, frame := 0, lanes := 0 } = r)
include hr

/-- A new frame begins with row 0 when the last row is over. -/
theorem State.rowNow_frame (hframe : s.onFrame = true) (hover : r.start + 32 ≤ s.time.osc) :
    s.rowNow tile = some { start := s.time.osc, row := 0, frame := s.ft / 1024, lanes := 0 } := by
  unfold State.rowNow
  simp only [hr]
  rw [if_neg (by omega), if_neg (by omega), if_pos hframe]

/-- Within a frame the next row begins 32 ns after the last. -/
theorem State.rowNow_next (hframe : s.onFrame = false) (hspare : s.spareTime = false) (hover : s.time.osc = r.start + 32)
    (hsame : s.ft / 1024 = r.frame) (hmore : r.row < 31) :
    s.rowNow tile = some { start := s.time.osc, row := r.row + 1, frame := s.ft / 1024, lanes := 0 } := by
  unfold State.rowNow
  simp only [hr, hframe, hspare, Bool.false_eq_true, if_false]
  rw [if_neg (by omega), if_neg (by omega), if_pos hover, if_neg (not_not.2 hsame), if_pos hmore]

end

/-- The engine slice of a lane goes to the channel that its entry names where that is ready. -/
theorem doEngineSlice_own {s u v : State} {tile lane ch : Nat} {r : CyRow} (hs : s.fatal = false) (htile : tile < 4)
    (hlane : lane < 32) (hon : s.tileOn tile = true) (hu : u = s.settleJobs tile) (hrow : u.rowNow tile = some r)
    (hfree : bit r.lanes lane = false)
    (hv : v = u.onCy (fun y => { y with rows := y.rows.set tile { r with lanes := r.lanes + 2 ^ lane } }))
    (howner : v.sliceOwner tile lane r.row = some ch) (hready : v.channelReady tile ch = true) :
    doEngineSlice tile lane s = v.giveSlice tile ch true := by
  unfold doEngineSlice
  simp only [hs, hon, Nat.not_le.2 htile, Nat.not_le.2 hlane, decide_false, Bool.not_true, Bool.or_self, Bool.false_eq_true, if_false,
    ← hu, hrow, hfree, ← hv, howner, Option.filter_some, hready, if_true]

/-! ### Rekeying (10 R306) -/

theorem State.rekey_of_noNext {s : State} {cid : Nat} {k : InlineKey} (hk : s.sealKey cid = some k) (hnext : k.next = none) :
    s.rekey cid = s := by
  simp [State.rekey, hk, hnext]

/-- At the end of its grace time the previous key of a connection is discarded. -/
theorem doRekeyGraceExpire_over {s : State} {cid : Nat} {k : InlineKey} (hk : s.sealKey cid = some k) (hnext : k.next = none)
    (hprevious : k.previous ≠ none) (hs : s.fatal = false) (hover : k.graceEnd ≤ s.ft) :
    doRekeyGraceExpire cid s = s.onCy fun y => { y with cidKeys := y.cidKeys.mod cid fun k => { k with previous := none } } := by
  unfold doRekeyGraceExpire
  simp only [State.rekey_of_noNext hk hnext, hk]
  exact if_neg (by simp [hs, hprevious, Nat.not_lt.2 hover])

/-- Settles O50: the creation and the destruction by Buckram's turn, the page's writes by its channel, the other commands by their
acceptance, a slice by its row and the entry of its lane. -/
theorem cipherChannelsKeysAndSlices : Obligations.CipherChannelsKeysAndSlices := by
  unfold Obligations.CipherChannelsKeysAndSlices
  refine ⟨?create, ?destroy, ?keyCtrl, ?slots, ?staging, ?doorbell, ?tableSet, ?tableEffect, ?query, ?queryInline, ?slice, ?row,
    ?grace⟩
  case create =>
    intro s c who env o q h hcheck ho hq htarget
    have hpre := State.precheck_of_bkAccepts h
    exact ⟨_, rfl, congrArg Host.Outcome.next ((State.bk_served h).trans (bkCyChannelCreate_named hpre hcheck ho hq htarget))⟩
  case destroy =>
    intro s c who env x h hx hquiet
    have hpre := State.precheck_of_bkAccepts h
    exact ⟨_, rfl, congrArg Host.Outcome.next ((State.bk_served h).trans (bkCyChannelDestroy_quiet hpre hx hquiet))⟩
  case keyCtrl => exact fun s f page t x v hs hb hp => exec_keyCtrl hs hb hp v
  case slots =>
    exact fun x v k hk hwide => ⟨x.keyCtrl_staging v, CyChan.keyCtrl_store256 hk hwide, CyChan.keyCtrl_clear hk hwide,
      CyChan.keyCtrl_store512_odd hk⟩
  case staging =>
    intro s f page w t x v hs hb hw
    have hwrite := doCyKeyDataWrite_eq hw f page v s
    exact ⟨fun hp => congrArg Host.Outcome.next (hwrite.trans (State.pageWrite_of_bound hs hb hp _)),
      fun hp => congrArg Host.Outcome.next (hwrite.trans (State.pageWrite_unbound hs hb hp _))⟩
  case doorbell =>
    intro s f page t x q v hs hb hp hx
    exact ⟨fun hqid => congrArg Host.Outcome.next (doCyJobDb_otherQueue hs hb hp hx hqid),
      fun hqid hq hstate => congrArg Host.Outcome.next (doCyJobDb_rings hs hb hp hx hqid hq hstate)⟩
  case tableSet => exact fun s c who h hentries hon => congrArg Host.Outcome.next (doCySliceTableSet_waits h hentries hon)
  case tableEffect =>
    rintro s0 s tile a l c rfl hs hframe hdue hpend
    exact congrArg (fun u => Host.Outcome.next (s0.backFrom u))
      (doSliceTableEffect_due hs (State.dueFrame_of_onFrame hframe hdue) hpend)
  case query => exact fun s c who x h hx => congrArg Host.Outcome.next (doCyQuery_channel h hx)
  case queryInline => exact fun s c who h hx hinline => congrArg Host.Outcome.next (doCyQuery_inline h hx hinline)
  case slice =>
    exact fun s u v tile lane ch r hs htile hlane hon hu hrow hfree hv howner hready => congrArg Host.Outcome.next
      (doEngineSlice_own hs htile hlane hon hu hrow hfree hv howner hready)
  case row => exact fun s tile r hr => ⟨State.rowNow_frame hr, State.rowNow_next hr⟩
  case grace =>
    rintro s0 s cid k rfl hk hnext hprevious hs hover
    exact congrArg (fun u => Host.Outcome.next (s0.backFrom u)) (doRekeyGraceExpire_over hk hnext hprevious hs hover)

end Sys2Proof.Machine
end

section
/-! SUPPORT. Cipher jobs (10 R307 to R312): an entry that may start, a job whose engine slices have ended, the key and the output of a
digest; O51 from these. -/

namespace Sys2Proof.Machine

/-! ### Entries (10 R308 R309) -/

section
variable {s : State} {qid op : Nat} {q : Queue} {e : Bytes} (hr : s.readyHead qid = some (q, e)) (hcls : q.cls = .cryJq)
  (hop : entryOp e = op)
include hr hcls hop

/-- An entry whose queue has lost its channel. -/
theorem State.cryStart_noChannel (hchan : s.chanOfQueue qid = none) : s.cryStart qid op = s.endHead qid St.badState 0 e := by
  unfold State.cryStart
  simp only [hr, hcls, hop, bne_self_eq_false, Bool.or_self, Bool.false_eq_true, if_false, hchan]

variable {t : Nat} {x : CyChan} (hchan : s.chanOfQueue qid = some (t, x))
include hchan

/-- An entry whose slot holds no key of the width of its algorithm. -/
theorem State.cryStart_noKey (hkey : x.keyOf (cryAlg e) (crySlot e) = none) :
    s.cryStart qid op = s.endHead qid St.badState t e := by
  unfold State.cryStart
  simp only [hr, hcls, hop, bne_self_eq_false, Bool.or_self, Bool.false_eq_true, if_false, hchan, hkey]

/-- An entry with a key waits for a place among the channel's jobs and for its shaper, or becomes a job, which takes one engine slice even
where it has no bytes (log 32). -/
theorem State.cryStart_keyed {key : Bytes} {y : State × Bool} {z : State × Nat}
    (hkey : x.keyOf (cryAlg e) (crySlot e) = some key) (hy : y = s.shaperGo qid (fragTotal (entryFrags .cryJq e q.headFrags)))
    (hz : z = y.1.newOp qid e (entryFrags .cryJq e q.headFrags)) :
    s.cryStart qid op = if 16 ≤ x.active.length then s else if y.2 = false then y.1 else
      (((z.1.onOp z.2 fun o => { o with admitted := true }).onChanCy t fun x => { x with active := x.active ++ [{
        op := z.2, key := key, total := max 1 (cryWork e (fragTotal (entryFrags .cryJq e q.headFrags))), done := 0
        perSlice := sliceBytes (cryAlg e), lastRow := 0, written := 0 }] }).readFrags z.2 q.owner 0
          (entryFrags .cryJq e q.headFrags)) := by
  obtain ⟨u, go⟩ := y
  subst hz
  unfold State.cryStart
  simp only [hr, hcls, hop, bne_self_eq_false, Bool.or_self, Bool.false_eq_true, if_false, hchan, hkey, ← hy]
  cases go <;> rfl

end

/-- The three rows of CRY_JQ entries are one start, by the opcode. -/
theorem exec_cryEntries {s w : State} {qid op : Nat} (h : s.cryStart qid op = w) : (op = 1 → exec (.cryEncrypt qid) s = .next w) ∧
    (op = 2 → exec (.cryDecrypt qid) s = .next w) ∧ (op = 3 → exec (.cryDigest qid) s = .next w) := by
  refine ⟨?_, ?_, ?_⟩
  all_goals
    rintro rfl
    exact congrArg Host.Outcome.next h

/-! ### The end of a job (10 R310 R312) -/

/-- The bytes of a job are all processed, and the row of its last engine slice, whose begin `lastRow` holds plus 1, is over. -/
theorem State.jobSettle_done {s : State} {j : Job} {o : Op} {q : Queue} (ho : s.op j.op = some o) (hq : s.queue o.qid = some q)
    (hserved : j.lastRow ≠ 0) (hended : j.lastRow + 31 ≤ s.time.osc) (hread : o.failAt = none) (hdone : j.total ≤ j.done) (t : Nat) :
    s.jobSettle t j = s.jobDone t j o q.owner (s.ft + (j.lastRow + 31) - s.time.osc) := by
  have hover : ¬ s.time.osc + 1 < j.lastRow + 32 := by omega
  unfold State.jobSettle
  simp only [ho, hq, hread, hserved, hover, decide_false, Option.isSome_none, Bool.or_self, Bool.false_eq_true, if_false]
  exact if_pos hdone

theorem State.jobDone_output {s : State} {j : Job} {o : Op} {b : Bytes} {ok : Bool}
    (hout : cryOutput o.entry j.key (o.data (fragTotal o.frags)) = (b, ok)) (t : Nat) (w : Owner) (at' : Nat) :
    s.jobDone t j o w at' =
      (if ok then (((s.jobWrite t j o w b b.length).jobGone j.op).onChanCy t fun x => { x with
          jobs := (x.jobs + 1) % 2 ^ 48 }).count Ct.calico (t / 65536) 2
        else ((((s.jobWrite t j o w b b.length).jobGone j.op).onChanCy t fun x => { x with
          jobs := (x.jobs + 1) % 2 ^ 48 }).count Ct.calico (t / 65536) 2).count Ct.calico (t / 65536) 3).finishOp j.op
        (if ok then St.ok else St.authfail) b.length t at' ([byte (b2n (!ok))] ++ zeros 7) := by
  simp only [State.jobDone, hout]

/-! ### Keys and digests (10 R308 R309) -/

theorem CyChan.keyOf_digest (x : CyChan) (k : Nat) : x.keyOf 4 k = some [] := rfl

/-- An AEAD algorithm takes a key of 256 bits from a valid slot alone. -/
theorem CyChan.keyOf_aead_of_invalid {x : CyChan} {alg k : Nat} (halg : aead alg = true) (hinvalid : bit x.valid k = false) :
    x.keyOf alg k = none := by
  simp only [aead, Bool.or_eq_true, beq_iff_eq] at halg
  obtain rfl | rfl := halg
  all_goals simp [CyChan.keyOf, hinvalid]

theorem cryOutput_digest {e : Bytes} (halg : cryAlg e = 4) (key src : Bytes) :
    cryOutput e key src = (shake256 src (cryParam e), true) := by
  simp only [cryOutput, halg]

/-- Settles O51: an entry by its channel and its key, a job by its last row and its output. -/
theorem cipherJobsStartAndEnd : Obligations.CipherJobsStartAndEnd := by
  unfold Obligations.CipherJobsStartAndEnd
  refine ⟨?noChannel, ?noKey, ?keyed, ?settle, ?done, ?keys, ?digest⟩
  case noChannel =>
    intro s w qid op q e hr hcls hop hchan hw
    exact exec_cryEntries ((State.cryStart_noChannel hr hcls hop hchan).trans hw.symm)
  case noKey =>
    intro s w qid op t q e x hr hcls hop hchan hkey hw
    exact exec_cryEntries ((State.cryStart_noKey hr hcls hop hchan hkey).trans hw.symm)
  case keyed =>
    intro s w qid op t q e key x y z hr hcls hop hchan hkey hy hz hw
    exact exec_cryEntries ((State.cryStart_keyed hr hcls hop hchan hkey hy hz).trans hw.symm)
  case settle =>
    exact fun s t j o q ho hq hserved hended hread hdone => State.jobSettle_done ho hq hserved hended hread hdone t
  case done =>
    rintro s u t at' j o w b ok hout rfl
    exact State.jobDone_output hout t w at'
  case keys =>
    exact fun x k => ⟨x.keyOf_digest k,
      fun hinvalid => ⟨CyChan.keyOf_aead_of_invalid rfl hinvalid, CyChan.keyOf_aead_of_invalid rfl hinvalid⟩⟩
  case digest => exact fun e key src halg => cryOutput_digest halg key src

end Sys2Proof.Machine
end

section
/-! SUPPORT. Host links and functions (13 R386 to R389): L1 entry, L0p, and the changes of bus mastering and power state; O1 and O2 from
these. -/

namespace Sys2Proof.Machine

variable {s : State} {port sub : Nat} {l : SubLink} {x : FnSt} {f : FnRef}

/-! ### L1 and L0p (13 R388 R389) -/

theorem exec_l1Entry (port sub idleNs : Nat) (s : State) : exec (.l1Entry port sub idleNs) s = .next (doL1Entry port sub idleNs s) := rfl
theorem exec_l0pNarrow (port sub a b : Nat) (s : State) :
    exec (.l0pNarrow port sub a b) s = .next (s.backFrom (doL0pNarrow port sub a b (s.seenFrom (6 + port)))) := rfl
theorem exec_l0pWiden (port sub a b : Nat) (s : State) :
    exec (.l0pWiden port sub a b) s = .next (s.backFrom (doL0pWiden port sub a b (s.seenFrom (6 + port)))) := rfl

/-- No outstanding read of a sub-link: its functions' requests are all elsewhere. -/
theorem State.subLink_not_busy (hreads : ∀ r ∈ s.host.reads, r.2.ref.fn.port = port → s.subLinkOf r.2.ref.fn ≠ sub) :
    (s.host.reads.any fun (_, r) => r.ref.fn.port == port && s.subLinkOf r.ref.fn == sub) = false := by
  simpa using fun a b => hreads (a, b)

theorem doL1Entry_quiet {idleNs : Nat} (hup : s.subUp port sub = some l) (hx : s.fn (s.firstPf port sub) = some x)
    (haspm : x.aspmL1 = true) (hquiet : 8000 ≤ idleNs)
    (hreads : ∀ r ∈ s.host.reads, r.2.ref.fn.port = port → s.subLinkOf r.2.ref.fn ≠ sub) :
    doL1Entry port sub idleNs s = s.onSub port sub fun y => { y with inL1 := true, l1sub := s.l1Substate port x } := by
  simp only [doL1Entry, hup, hx, haspm, hquiet, State.subLink_not_busy hreads]
  simp

theorem doL0pNarrow_of_up (hup : s.subUp port sub = some l) (a b : Nat) : doL0pNarrow port sub a b s =
    if s.onGrid 65536 0 = true ∧ l.l0p = true ∧ 4 < l.width ∧ a < 200 ∧ b < 200 then
      s.onSub port sub fun y => { y with width := max 4 (y.width / 2) } else s := by
  have hload (n : Nat) : 2 * n < 400 ↔ n < 200 := by omega
  simp only [doL0pNarrow, hup, hload, Bool.and_eq_true, decide_eq_true_eq, and_assoc]

theorem doL0pWiden_of_up (hup : s.subUp port sub = some l) (a b : Nat) : doL0pWiden port sub a b s =
    if s.onFrame = true ∧ l.l0p = true ∧ (750 < a ∨ 750 < b) then
      s.onSub port sub fun y => { y with width := y.trainedWidth } else s := by
  simp only [doL0pWiden, hup, Bool.and_eq_true, Bool.or_eq_true, decide_eq_true_eq, and_assoc]

/-- Settles O1: L1 where nothing is outstanding, and the two conditions of L0p as the host die sees its own counter. -/
theorem hostLinkPowerChanges : Obligations.HostLinkPowerChanges := by
  unfold Obligations.HostLinkPowerChanges
  refine ⟨?entry, ?narrow, ?widen⟩
  case entry =>
    intro s port sub idleNs l x hup hx haspm hquiet hreads
    rw [exec_l1Entry, doL1Entry_quiet hup hx haspm hquiet hreads]
  case narrow =>
    rintro s0 _ port sub a b l rfl hup
    rw [exec_l0pNarrow, doL0pNarrow_of_up hup]
  case widen =>
    rintro s0 _ port sub a b l rfl hup
    rw [exec_l0pWiden, doL0pWiden_of_up hup]

/-! ### Bus mastering and power states (13 R386 R387) -/

theorem exec_bmeClear (f : FnRef) (s : State) : exec (.bmeClear f) s = .next (s.masterChange f fun x => { x with bme := false }) := rfl
theorem exec_bmeSet (f : FnRef) (s : State) : exec (.bmeSet f) s = .next (s.masterChange f fun x => { x with bme := true }) := rfl
theorem exec_d3hotEnter (f : FnRef) (s : State) : exec (.d3hotEnter f) s = .next (s.masterChange f fun x => { x with d3hot := true }) := rfl
theorem exec_d3hotExit (f : FnRef) (s : State) : exec (.d3hotExit f) s = .next (s.masterChange f fun x => { x with d3hot := false }) := rfl

/-- A function found is the one asked for. -/
theorem State.fn_ref (hx : s.fn f = some x) : x.ref = f := by
  simpa using List.find?_some hx

/-- A change of a function's registers is read back. -/
theorem State.fn_onFn {g : FnSt → FnSt} (hg : ∀ y : FnSt, (g y).ref = y.ref) : (s.onFn f g).fn f = (s.fn f).map g := by
  have hsame : ((fun y : FnSt => y.ref == f) ∘ fun y => if y.ref == f then g y else y) = fun y => y.ref == f := by
    funext y
    by_cases hy : y.ref = f <;> simp [hy, hg]
  simp only [State.fn, State.onFn, State.onHost_host, List.find?_map, hsame]
  cases hfind : s.host.fns.find? (·.ref == f) with
  | none => rfl
  | some y => simpa using fun h => absurd (by simpa using List.find?_some hfind) h

theorem State.mastering_of_fn (hx : s.fn f = some x) : s.mastering f = (x.bme && !x.d3hot) := by
  simp only [State.mastering, hx]

theorem State.fn_of_configurable (hc : s.configurable f = true) : ∃ x, s.fn f = some x := by
  unfold State.configurable at hc
  split at hc
  · exact ⟨_, ‹_›⟩
  · cases hc

/-- What a change of Bus Master Enable or the power state brings: nothing more in FATAL or where the function masters the bus as before. -/
theorem State.masterChange_of_configurable (hc : s.configurable f = true) (hx : s.fn f = some x) {g : FnSt → FnSt}
    (hg : ∀ y : FnSt, (g y).ref = y.ref) : s.masterChange f g =
      if s.fatal = true ∨ ((g x).bme && !(g x).d3hot) = s.mastering f then s.onFn f g
      else if s.mastering f = true then (s.onFn f g).bmeStop f else (s.onFn f g).bmeResume f := by
  have hnew : (s.onFn f g).mastering f = ((g x).bme && !(g x).d3hot) :=
    State.mastering_of_fn (by rw [State.fn_onFn hg, hx, Option.map_some])
  simp [State.masterChange, hc, hnew]

/-- A function that masters the bus as before goes on. -/
theorem State.masterChange_same (hc : s.configurable f = true) (hx : s.fn f = some x) {g : FnSt → FnSt} (hg : ∀ y : FnSt, (g y).ref = y.ref)
    (hsame : ((g x).bme && !(g x).d3hot) = s.mastering f) : s.masterChange f g = s.onFn f g := by
  rw [State.masterChange_of_configurable hc hx hg, if_pos (.inr hsame)]

section
variable (hc : s.configurable f = true) (hs : s.fatal = false)
include hc hs

/-- A change after which the function does not master the bus stops one that did. -/
theorem State.masterChange_stops {g : FnSt → FnSt} (hg : ∀ y : FnSt, (g y).ref = y.ref)
    (hoff : ∀ y : FnSt, ((g y).bme && !(g y).d3hot) = false) :
    s.masterChange f g = if s.mastering f then (s.onFn f g).bmeStop f else s.onFn f g := by
  obtain ⟨x, hx⟩ := State.fn_of_configurable hc
  rw [State.masterChange_of_configurable hc hx hg, hoff]
  cases s.mastering f <;> simp [hs]

/-- A change that makes a function a master resumes it. -/
theorem State.masterChange_resumes (hx : s.fn f = some x) (hold : s.mastering f = false) {g : FnSt → FnSt}
    (hg : ∀ y : FnSt, (g y).ref = y.ref) (hon : ((g x).bme && !(g x).d3hot) = true) :
    s.masterChange f g = (s.onFn f g).bmeResume f := by
  rw [State.masterChange_of_configurable hc hx hg, hon, hold]
  simp [hs]

end

/-- In FATAL the bit alone changes. -/
theorem State.masterChange_of_fatal (hc : s.configurable f = true) (hs : s.fatal = true) (g : FnSt → FnSt) :
    s.masterChange f g = s.onFn f g := by
  simp [State.masterChange, hc, hs]

/-- Settles O2: each of the four rows is one change of the function's registers, which stops or resumes it as it masters the bus. -/
theorem busMasteringCommands : Obligations.BusMasteringCommands := by
  unfold Obligations.BusMasteringCommands
  simp only [exec_bmeClear, exec_bmeSet, exec_d3hotEnter, exec_d3hotExit]
  refine ⟨?stops, ?resumes, ?goesOn, ?fatal⟩
  case stops =>
    intro s f hc hs
    exact ⟨congrArg _ (State.masterChange_stops hc hs (fun _ => rfl) fun _ => rfl),
      congrArg _ (State.masterChange_stops hc hs (fun _ => rfl) fun _ => Bool.and_false _)⟩
  case resumes =>
    intro s f x hc hs hx hold
    constructor
    · cases hd3 : x.d3hot
      · exact congrArg _ (State.masterChange_resumes hc hs hx hold (fun _ => rfl) (by simp [hd3]))
      · exact congrArg _ (State.masterChange_same hc hx (fun _ => rfl) (by simp [hd3, hold]))
    · cases hbme : x.bme
      · exact congrArg _ (State.masterChange_same hc hx (fun _ => rfl) (by simp [hbme, hold]))
      · exact congrArg _ (State.masterChange_resumes hc hs hx hold (fun _ => rfl) (by simp [hbme]))
  case goesOn =>
    intro s f hc hs hmaster
    obtain ⟨x, hx⟩ := State.fn_of_configurable hc
    obtain ⟨hbme, hd3⟩ : x.bme = true ∧ x.d3hot = false := by
      simpa [State.mastering_of_fn hx] using hmaster
    exact ⟨congrArg _ (State.masterChange_same hc hx (fun _ => rfl) (by simp [hmaster, hd3])),
      congrArg _ (State.masterChange_same hc hx (fun _ => rfl) (by simp [hmaster, hbme]))⟩
  case fatal =>
    intro s f hc hs
    simp only [State.masterChange_of_fatal hc hs, and_self]

end Sys2Proof.Machine
end

section
/-! SUPPORT. The command ring's end (13 R370) in a state that lists a function twice; refutes O3. -/

namespace Sys2Proof.Machine

theorem exec_cmdEnClear (f : FnRef) (s : State) : exec (.cmdEnClear f) s = .next (doCmdEnClear f s) := rfl

/-- A function's CMD_EN cleared: each entry of its number begins to close where that entry's own ring is in being. -/
theorem doCmdEnClear_taken {s : State} {f : FnRef} {x : FnSt} (hx : s.fn f = some x) (hb : s.barOpen f = true)
    (hs : s.fatal = false) (hen : x.cmdEn = true) (hactive : x.cmdActive = false) :
    doCmdEnClear f s = s.onFn f fun y => { y with cmdEn := false, cmdClosing := y.cmdActive } := by
  simp [doCmdEnClear, hx, hb, hs, hen, hactive]

/-- PF 0 of HP0, its memory space enabled and CMD_EN 1, with the ring in being or not. -/
def enabledFn (active : Bool) : FnSt := { FnSt.reset (pfRef 0 0) with mse := true, cmdEn := true, cmdActive := active }

/-- HP0 has the recovery profile; PF 0 is listed twice, first without a ring in being and then with one. -/
def listedTwice : State :=
  State.reset.onHost fun h => { h with
    ports := [{ HostPort.reset with profile := some (recoveryProfile 1) }], fns := [enabledFn false, enabledFn true] }

theorem listedTwice_barOpen : listedTwice.barOpen (pfRef 0 0) = true := by decide +kernel

/-- Refutes O3: its last clause has CMD_EN cleared leave no ring closing wherever the function found has none in being, but the model
clears the bit in every entry of that number by the entry's own ring, so that a second entry with a ring in being begins to close. -/
theorem not_commandRingOpensAndCloses : ¬ Obligations.CommandRingOpensAndCloses := by
  unfold Obligations.CommandRingOpensAndCloses
  rintro ⟨-, -, -, -, hclosed⟩
  have hfn : listedTwice.fn (pfRef 0 0) = some (enabledFn false) := rfl
  have hclaim := hclosed listedTwice (pfRef 0 0) (enabledFn false) hfn listedTwice_barOpen rfl rfl rfl
  have hmodel := (exec_cmdEnClear (pfRef 0 0) listedTwice).trans
    (congrArg Host.Outcome.next (doCmdEnClear_taken hfn listedTwice_barOpen rfl rfl rfl))
  have hstate := Host.Outcome.next.inj (hmodel.symm.trans hclaim)
  have hclosing := congrArg (fun s : State => s.host.fns.map (·.cmdClosing)) hstate
  exact absurd hclosing (by decide)

end Sys2Proof.Machine
end

section
/-! SUPPORT. Resets of functions and of host ports (13 R366 R383 to R385 R392): what each row of the reset table does where it acts; O4 from
these. -/

namespace Sys2Proof.Machine

variable {s : State} {f : FnRef} {x : FnSt} {port : Nat}

/-! ### Functions (13 R383 R384) -/

theorem doFlr_of_running (hx : s.fn f = some x) (hrun : x.flrAt = none) : doFlr f s =
    (s.unquiesced fun o => o.fnRef.any (fun g => (s.withVfs f).contains g && (g.vf || o.sid.isSome))).flrStop (s.withVfs f) := by
  simp [doFlr, hx, hrun]

/-- A function in reset with its reads ended is at its reset values, or gone where it is no longer present. -/
theorem doFlrComplete_of_quiet (hx : s.fn f = some x) (hreset : x.flrAt ≠ none) (hreads : ∀ r ∈ s.host.reads, r.2.ref.fn ≠ f) :
    doFlrComplete f s = if s.fnPresent f = true then (s.endFns [f]).onFn f fun y => { FnSt.reset f with aer := y.aer }
      else (s.endFns [f]).onHost fun h => { h with fns := h.fns.filter fun (y : FnSt) => y.ref != f } := by
  have hquiet : (s.host.reads.any fun (_, r) => r.ref.fn == f) = false := by simpa using fun a b => hreads (a, b)
  simp only [doFlrComplete, hx, Option.isNone_eq_false_iff.2 (Option.isSome_iff_ne_none.2 hreset), hquiet, Bool.or_self, Bool.false_eq_true,
    if_false]

theorem State.onHost_congr {g h : HostSt → HostSt} (hgh : g s.host = h s.host) : s.onHost g = s.onHost h := by
  simp only [State.onHost, hgh]

/-- The state in which the VFs that a change of VF Enable and NumVFs removes have stopped. -/
def State.vfsStopped (s : State) (f : FnRef) (x : FnSt) (on : Bool) (n : Nat) : State :=
  let gone := (s.vfRange f x.vfEnable x.numVfs).filter fun g => !(s.vfRange f on n).contains g
  ((s.unquiesced fun o => o.fnRef.any gone.contains).flrStop gone).onFn f fun y => { y with vfEnable := on, numVfs := n }

/-- That state with the VFs that are new. -/
def State.vfsChanged (s : State) (f : FnRef) (x : FnSt) (on : Bool) (n : Nat) : State :=
  (s.vfsStopped f x on n).onHost fun h => { h with
    fns := h.fns ++ ((s.vfRange f on n).filter fun g => !h.fns.any (·.ref == g)).map FnSt.reset }

/-- VF Enable and NumVFs written: NumVFs keeps its value where the new one is above TotalVFs. -/
theorem doVfEnableChange_eq (hx : s.fn f = some x) (on : Bool) (n : Nat) : doVfEnableChange f on n s =
    if x.flrAt.isSome then s.configRetry f
    else if f.vf || !(s.pfRecord f.port f.num).any (·.sriov) then s
    else s.vfsChanged f x on (if s.totalVfs f.port f.num < n then x.numVfs else n) := by
  simp only [doVfEnableChange, hx, State.vfsChanged, State.vfsStopped, State.vfRange]

theorem doVfEnableChange_of_pf {r : PfRecord} {n : Nat} (hx : s.fn f = some x) (hpf : f.vf = false) (hrun : x.flrAt = none)
    (hr : s.pfRecord f.port f.num = some r) (hsriov : r.sriov = true) (hn : n ≤ s.totalVfs f.port f.num) (on : Bool) :
    doVfEnableChange f on n s = s.vfsChanged f x on n := by
  simp [doVfEnableChange_eq hx, hpf, hrun, hr, hsriov, Nat.not_lt.2 hn]

theorem doVfEnableChange_of_above {n : Nat} (hx : s.fn f = some x) (hn : s.totalVfs f.port f.num < n)
    (hold : x.numVfs ≤ s.totalVfs f.port f.num) (on : Bool) : doVfEnableChange f on n s = doVfEnableChange f on x.numVfs s := by
  rw [doVfEnableChange_eq hx, doVfEnableChange_eq hx, if_pos hn, if_neg (Nat.not_lt.2 hold)]

/-! ### Ports (13 R366 R385) -/

theorem doHotReset_of_released (hperst : (s.hostPort port).perst = false) (sub : Nat) : doHotReset port sub s = s.dlDown port sub := by
  simp [doHotReset, hperst]

theorem doPerstAssert_of_released (hperst : (s.hostPort port).perst = false) : doPerstAssert port s =
    (((s.portGone port).onHostPort port fun p => { p with perst := true }).domains (hostDomains port) false).openWaiting := by
  simp [doPerstAssert, hperst]

theorem doPerstDeassert_of_mainPower (hperst : (s.hostPort port).perst = true) (haux : s.power.dev ≠ .aux) (hoff : s.power.dev ≠ .off)
    (htrip : s.pins.thermTrip = false) (hrst : s.pins.sysRst = false) :
    doPerstDeassert port s = (s.onHostPort port fun p => { p with perst := false }).portStart port := by
  simp [doPerstDeassert, hperst, State.onHostPort, haux, hoff, htrip, hrst]

theorem doProfileRecoveryTimeout_of_unverified {t : Nat} (ht : (s.hostPort port).deassertedAt = some t)
    (hprofile : (s.hostPort port).profile = none) : doProfileRecoveryTimeout port s =
      if t + 900000000 ≤ s.time.osc then s.forceProfile port (recoveryProfile (s.subLinks port)) true else s := by
  simp [doProfileRecoveryTimeout, ht, hprofile]

/-! ### The rows -/

theorem exec_flr (f : FnRef) (s : State) : exec (.flr f) s = .next (doFlr f s) := rfl
theorem exec_flrComplete (f : FnRef) (s : State) : exec (.flrComplete f) s = .next (doFlrComplete f s) := rfl
theorem exec_vfEnableChange (f : FnRef) (on : Bool) (n : Nat) (s : State) :
    exec (.vfEnableChange f on n) s = .next (doVfEnableChange f on n s) := rfl
theorem exec_hotReset (port sub : Nat) (s : State) : exec (.hotReset port sub) s = .next (doHotReset port sub s) := rfl
theorem exec_perstAssert (port : Nat) (s : State) : exec (.perstAssert port) s = .next (doPerstAssert port s) := rfl
theorem exec_perstDeassert (port : Nat) (s : State) : exec (.perstDeassert port) s = .next (doPerstDeassert port s) := rfl
theorem exec_profileRecoveryTimeout (port : Nat) (s : State) :
    exec (.profileRecoveryTimeout port) s = .next (doProfileRecoveryTimeout port s) := rfl

/-- Settles O4: each row of the reset table where it acts. -/
theorem resetsOfFunctionsAndPorts : Obligations.ResetsOfFunctionsAndPorts := by
  unfold Obligations.ResetsOfFunctionsAndPorts
  simp only [exec_flr, exec_flrComplete, exec_vfEnableChange, exec_hotReset, exec_perstAssert, exec_perstDeassert,
    exec_profileRecoveryTimeout]
  refine ⟨?flr, ?present, ?gone, ?vfs, ?above, ?hot, ?assert, ?deassert, ?recovery⟩
  case flr =>
    intro s f x hx hrun
    rw [doFlr_of_running hx hrun]
  case present | gone =>
    intro s f x hx hreset hpresent hreads
    simp only [doFlrComplete_of_quiet hx hreset hreads, hpresent, if_true, if_false, Bool.false_eq_true]
  case vfs =>
    rintro s f x r n on _ u hx hpf hrun hr hsriov hn rfl hu
    obtain rfl : u = s.vfsStopped f x on n := hu
    exact congrArg _ ((doVfEnableChange_of_pf hx hpf hrun hr hsriov hn on).trans (State.onHost_congr rfl))
  case above =>
    intro s f x n on hx hn hold
    rw [doVfEnableChange_of_above hx hn hold]
  case hot =>
    intro s port sub hperst
    rw [doHotReset_of_released hperst]
  case assert =>
    intro s port hperst
    rw [doPerstAssert_of_released hperst]
  case deassert =>
    intro s port hperst haux hoff htrip hrst
    rw [doPerstDeassert_of_mainPower hperst haux hoff htrip hrst]
  case recovery =>
    intro s port t ht hprofile
    rw [doProfileRecoveryTimeout_of_unverified ht hprofile]

end Sys2Proof.Machine
end

section
/-! SUPPORT. Link training and errors of the host links (13 R361 R368 R390), and the ends of host reads and the messages of vectors (13 R372
R373 R375, 18 R496); O5 and O6 from these. -/

namespace Sys2Proof.Machine

variable {s : State} {f : FnRef} {port sub tag : Nat} {l : SubLink} {r : HostReadSt}

/-! ### Link training (13 R361) -/

theorem doLinkTrainingEnd_trains {width : Nat} (hperst : (s.hostPort port).perst = false)
    (hdeassert : (s.hostPort port).deassertedAt ≠ none) (hclk : s.pins.hrefclk.getD port false = true)
    (hready : s.pins.hrefReadyAt.getD port 0 ≤ s.time.osc) (hl : (s.hostPort port).subLinks[sub]? = some l) (hdown : l.up = false)
    (hwidth : width ∈ [1, 2, 4, 8, 16]) (hfits : width ≤ 16 / s.subLinks port) (rm dr : Bool) :
    doLinkTrainingEnd port sub width rm dr s = ((s.onHostPort port fun p => { p with
      subLinks := modAt p.subLinks sub fun y => { y with
        up := true, inL1 := false, l1sub := 0, ltr := false, trainedWidth := width, width := width, remapped := rm, dropped := dr
        rate := linkRates.getD (Config.freeNat s.free % 7) 2500, l0p := Config.freeNat (s.free + 1) % 2 == 1 } }).onFree (· + 2)).laneFaults
          port := by
  obtain ⟨hlt, -⟩ := List.getElem?_eq_some_iff.1 hl
  have hget : (s.hostPort port).subLinks.getD sub SubLink.fresh = l := by simp [List.getD_eq_getElem?_getD, hl]
  have hin : [1, 2, 4, 8, 16].contains width = true := List.contains_iff_mem.2 hwidth
  simp only [doLinkTrainingEnd, hperst, Option.isSome_iff_ne_none.2 hdeassert, hclk, decide_eq_true hready, decide_eq_true hlt, hin,
    decide_eq_true hfits, hget, hdown]
  rfl

/-! ### Link errors (13 R390) -/

theorem doTlpError_of_up (hl : (s.hostPort port).subLinks[sub]? = some l) (hup : l.up = true) (f : FnRef) (err : TlpErr) :
    doTlpError port sub f err s = match err with
      | .linkLevel e => s.logAer (s.firstPf port sub) (.link e)
      | .unexpectedCompletion => s.logAer (s.aerFn f) .unexpectedCompletion
      | .poisonedWrite => s.logAer (s.aerFn f) .poisonedTlp
      | .poisonedRead tag => (match s.readOut tag with
        | some r => (s.logAer r.ref.fn .poisonedTlp).deliverRead tag r .poisoned
        | none => s)
      | .fatalLink e => (s.logAer (s.firstPf port sub) (.fatalLink e)).dlDown port sub := by
  simp only [doTlpError, hl, Option.any_some, hup, Bool.not_true, Bool.false_eq_true, if_false] <;>
    (cases err <;> rfl)

theorem doUnsupportedRequest_ioOrAtomic (hperst : (s.hostPort f.port).perst = false) :
    doUnsupportedRequest f .ioOrAtomic s = (s.emit (.unsupported f)).logAer (s.aerFn f) .unsupportedRequest := by
  simp [doUnsupportedRequest, hperst]

/-- A memory request that the function does not decode. -/
theorem doUnsupportedRequest_memory (hperst : (s.hostPort f.port).perst = false) (hbar : s.barOpen f = false) :
    doUnsupportedRequest f .memoryRead s = (s.emit (.unsupported f)).logAer (s.aerFn f) .unsupportedRequest ∧
    doUnsupportedRequest f .memoryWrite s = s.logAer (s.aerFn f) .unsupportedRequest := by
  simp [doUnsupportedRequest, hperst, hbar]

theorem exec_linkTrainingEnd (port sub width : Nat) (rm dr : Bool) (s : State) :
    exec (.linkTrainingEnd port sub width rm dr) s = .next (doLinkTrainingEnd port sub width rm dr s) := rfl
theorem exec_tlpError (port sub : Nat) (f : FnRef) (err : TlpErr) (s : State) :
    exec (.tlpError port sub f err) s = .next (doTlpError port sub f err s) := rfl
theorem exec_unsupportedRequest (f : FnRef) (req : BadRequest) (s : State) :
    exec (.unsupportedRequest f req) s = .next (doUnsupportedRequest f req s) := rfl

/-- Settles O5: training where its conditions hold, and each error as the table of R390 names it. -/
theorem linkTrainingAndErrors : Obligations.LinkTrainingAndErrors := by
  unfold Obligations.LinkTrainingAndErrors
  simp only [exec_linkTrainingEnd, exec_tlpError, exec_unsupportedRequest]
  refine ⟨?trains, ?errors, ?poisonedRead, ?io, ?memory⟩
  case trains =>
    intro s port sub width rm dr l hperst hdeassert hclk hready hl hdown hwidth hfits
    rw [doLinkTrainingEnd_trains hperst hdeassert hclk hready hl hdown hwidth hfits]
  case errors =>
    intro s port sub f l le fe hl hup
    simp only [doTlpError_of_up hl hup, and_self]
  case poisonedRead =>
    intro s port sub tag f l r hl hup hr
    simp only [doTlpError_of_up hl hup, hr]
  case io =>
    intro s f hperst
    rw [doUnsupportedRequest_ioOrAtomic hperst]
  case memory =>
    intro s f hperst hbar
    obtain ⟨hread, hwrite⟩ := doUnsupportedRequest_memory hperst hbar
    rw [hread, hwrite]
    exact ⟨rfl, rfl⟩

/-! ### Host reads (13 R373 R375) -/

/-- A completion of an outstanding read ends it; poisoned data is logged. -/
theorem doHostReadCompletion_of_out {how : ReadEnd} (hr : s.readOut tag = some r) (htime : how ≠ .timeout) :
    doHostReadCompletion tag how s =
      (if how = .poisoned then s.logAer r.ref.fn .poisonedTlp else s).deliverRead tag r (r.ended how) := by
  cases how with
  | timeout => exact absurd rfl htime
  | _ => simp [doHostReadCompletion, hr]

/-- A completion of a read that has timed out is unexpected. -/
theorem doHostReadCompletion_of_timedOut (hr : s.readOut tag = none) (hf : s.host.timedOut.get tag = some f) (how : ReadEnd) :
    doHostReadCompletion tag how s = (s.onHost fun h => { h with timedOut := h.timedOut.del tag }).logAer f .unexpectedCompletion := by
  simp only [doHostReadCompletion, hr, hf]

theorem doCompletionTimeout_due (hr : s.readOut tag = some r) (hdue : r.deadline ≤ s.time.osc) : doCompletionTimeout tag s =
    (((s.logAer r.ref.fn .completionTimeout).count Ct.hostPort r.ref.fn.port 2).onHost fun h => { h with
      timedOut := h.timedOut.set tag r.ref.fn }).deliverRead tag r .timeout := by
  simp only [doCompletionTimeout, hr, if_neg (Nat.not_lt.2 hdue)]

/-! ### Vectors (13 R372, 18 R496) -/

theorem doMsixSend_due {v t : Nat} (hs : s.fatal = false)
    (hreq : s.host.msixReq.find? (fun y => y.1 == f && y.2.1 == v && s.dueAt y.2.2 (s.onGrid 256 0)) = some (f, v, t)) :
    doMsixSend f v s = ((s.onHost fun h => { h with
      msixReq := h.msixReq.filter fun y => y.1 != f || y.2.1 != v || y.2.2 != t }).onFn f fun x => { x with
        vecSent := Tab.set x.vecSent v t }).sendVector f v := by
  simp only [doMsixSend, hreq, hs, Bool.false_eq_true, if_false]

theorem State.sendVector_of_running {v : Nat} {x : FnSt} (hx : s.fn f = some x) (hpresent : s.fnPresent f = true)
    (hrun : x.flrAt = none) (hv : v < s.tableSize f) :
    s.sendVector f v = if x.msixEnable && s.mastering f && !x.vecMasked v then
        (((s.onFn f fun x => { x with vecPending := x.vecPending.erase v }).leaveL1 f).emit (x.vecMessage f v)).count Ct.hostPort f.port 3
      else s.onFn f fun x => { x with vecPending := if x.vecPending.contains v then x.vecPending else x.vecPending ++ [v] } := by
  simp [State.sendVector, hx, hpresent, hrun, Nat.not_le.2 hv]

theorem exec_hostReadCompletion (tag : Nat) (how : ReadEnd) (s : State) :
    exec (.hostReadCompletion tag how) s = .next (doHostReadCompletion tag how s) := rfl
theorem exec_completionTimeout (tag : Nat) (s : State) : exec (.completionTimeout tag) s = .next (doCompletionTimeout tag s) := rfl
theorem exec_msixSend (f : FnRef) (v : Nat) (s : State) :
    exec (.msixSend f v) s = .next (s.backFrom (doMsixSend f v (s.seenFrom (6 + f.port)))) := rfl

/-- Settles O6: the ends of a read by its tag, and a vector's message at its instant on the host die. -/
theorem hostReadsEndAndVectorsAreSent : Obligations.HostReadsEndAndVectorsAreSent := by
  unfold Obligations.HostReadsEndAndVectorsAreSent
  simp only [exec_hostReadCompletion, exec_completionTimeout, exec_msixSend]
  refine ⟨?ends, ?poisoned, ?late, ?timeout, ?msix, ?vector⟩
  case ends =>
    intro s tag r how hr htime hpoison
    rw [doHostReadCompletion_of_out hr htime, if_neg hpoison]
  case poisoned =>
    intro s tag r hr
    rw [doHostReadCompletion_of_out hr (by decide), if_pos rfl]
    rfl
  case late =>
    intro s tag f how hr hf
    rw [doHostReadCompletion_of_timedOut hr hf]
  case timeout =>
    intro s tag r hr hdue
    rw [doCompletionTimeout_due hr hdue]
  case msix =>
    rintro s0 _ f v t rfl hs hreq
    rw [doMsixSend_due hs hreq]
  case vector =>
    intro s f v x hx hpresent hrun hv
    exact State.sendVector_of_running hx hpresent hrun hv

end Sys2Proof.Machine
end

section
/-! SUPPORT. Slices and spoof sets (13 R376 to R382, R392): Buckram's turn at a slice's creation, destruction and sets, the frame boundaries at
which they take effect, and the commands that service firmware answers; O35 from these. -/

namespace Sys2Proof.Machine

/-- A command for Buckram, then Buckram's turn: what Buckram makes of it in the state where it is in progress. -/
theorem thenBuckram_of_bkAccepts {i : Instr} {s t : State} {code : Nat} {c : Cmd} {who : Caller} {env : BkEnv}
    {deny found : Caller → State → Bool} {lenOk ex form : Bool} {own : Caller → State → Option Nat} {deny' lenOk' ex' form' found' : Bool}
    (h : s.bkAccepts code c who env deny' lenOk' ex' form' found' = true)
    (hexec : exec i s = .next (s.bk code c deny lenOk ex own form found))
    (hturn : bkOpcode code c who env (s.served code c) = t) : ThenBuckram i env s t :=
  ⟨_, hexec, congrArg Host.Outcome.next ((State.bk_served h).trans hturn)⟩

variable {s : State} {c : Cmd} {who : Caller} {x : SliceSt} {sid : Nat}

/-! ### Creation and destruction (13 R376 R382) -/

theorem bkSliceCreate_named {f : FnRef} (hpre : s.precheck 0x0302 c (.fn f) true false true false true true = none)
    (hcheck : s.sliceCreateCheck c f = none) (htarget : c.target.toNat ≠ targetNone) :
    bkSliceCreate c (.fn f) s = s.useFree.onHost fun h => { h with
      slices := h.slices.set c.target.toNat (newSlice f (cmdLe c 16 4) s.ft c) } := by
  refine (State.bkApply_accepted hpre).trans ?_
  simp only [hcheck, if_neg htarget]
  rfl

theorem doSliceBindingEffect_due {cc : Cmd} (hx : s.slice sid = some x) (hcmd : x.createCmd = some cc) (hs : s.fatal = false)
    (hdue : s.dueFrame x.createdAt = true) : doSliceBindingEffect sid s =
      (s.onHost fun h => { h with slices := h.slices.mod sid fun x => { x with live := true, createCmd := none } }).reply
        0x0302 cc true { Answer.ok sid with ft := some s.frameFt } := by
  simp only [doSliceBindingEffect, hx, hcmd, hs, hdue, Bool.not_true, Bool.or_self, Bool.false_eq_true, if_false]
  rfl

theorem bkSliceDestroy_free (hpre : s.precheck 0x0305 c who true false true true true true = none)
    (hx : s.slice c.target.toNat = some x) (hreset : x.resetAt = none) (hpend : x.spoofPend = none)
    (howns : s.sliceOwns c.target.toNat = false) :
    bkSliceDestroy c who s = (s.freeSlice c.target.toNat).bkAnswer 0x0305 c Answer.ok := by
  refine (State.bkApply_accepted hpre).trans ?_
  simp only [hx, hreset, hpend, howns, Option.isSome_none, Bool.or_self, Bool.false_eq_true, if_false]
  rfl

/-! ### Draining and reset (13 R380 R381 R392) -/

theorem doSliceQuiesce_accepted (h : s.accepts 0x0303 c who false true true = true) :
    doSliceQuiesce c s = (s.taken 0x0303 c).quiesce 0x0303 c fun o => o.sid == some c.target.toNat :=
  State.sf_accepted h

theorem doVfQuiesce_accepted (h : s.accepts 0x0306 c who false true true = true) (hvf : (fnOfWord c.target.toNat).vf = true) :
    doVfQuiesce c s = (s.taken 0x0306 c).quiesce 0x0306 c fun o => o.fnRef == some (fnOfWord c.target.toNat) := by
  unfold doVfQuiesce
  rw [hvf]
  exact State.sf_accepted h

/-- The slice stops as its reset is accepted. -/
theorem doSliceReset_sent (h : s.accepts 0x0304 c who false true true = true) (hx : (s.taken 0x0304 c).slice c.target.toNat = some x)
    (hreset : x.resetAt = none) (hroom : (s.taken 0x0304 c).cmd.mailbox.length < 256) :
    doSliceReset c s = ((((s.taken 0x0304 c).onHost fun h => { h with
      slices := h.slices.mod c.target.toNat fun x => { x with resetAt := some (s.taken 0x0304 c).time.osc } }).unquiesced
        fun o => o.sid == some c.target.toNat).stopOwner (fun o => o.sid == some c.target.toNat)
          ((s.taken 0x0304 c).refOfSlice c.target.toNat)).toBuckram 0x0304 c who :=
  State.bkPart_sent h (by simp [State.mailboxFull, hroom]) (by simp only [State.sliceResetPart, hx, hreset]; rfl)

theorem doSliceResetComplete_quiet {cc : Cmd} (hx : s.slice sid = some x) (hcmd : x.resetCmd = some cc) (hs : s.fatal = false)
    (hreads : ∀ r ∈ s.host.reads, s.refOfSlice sid r.2.ref = false) : doSliceResetComplete sid s =
      ((s.endOwner fun o => o.sid == some sid).onHost fun h => { h with
        slices := h.slices.mod sid fun x => { x with resetAt := none, resetCmd := none } }).reply 0x0304 cc true Answer.ok := by
  have hquiet : (s.host.reads.any fun (_, r) => s.refOfSlice sid r.ref) = false := by simpa using fun a b => hreads (a, b)
  simp only [doSliceResetComplete, hx, hcmd, hs, hquiet, Bool.or_self, Bool.false_eq_true, if_false]

/-! ### Spoof sets (13 R377 R378) -/

theorem bkSpoofSet_waits (hpre : s.precheck 0x0307 c who true false (spoofLenOk c) true true true = none)
    (hx : s.slice c.target.toNat = some x) (hok : spoofOk c.pb = true) (hpend : x.spoofPend = none)
    (huse : s.spoofUse x.mgr.port c.target.toNat + (spoofOf c.pb).entries ≤ 131072) :
    bkSpoofSet c who s = s.onHost fun h => { h with
      slices := h.slices.mod c.target.toNat fun x => { x with spoofPend := some (spoofOf c.pb, s.ft, c) } } := by
  refine (State.bkApply_accepted hpre).trans ?_
  simp only [hx, hok, hpend, Bool.not_true, Bool.false_eq_true, if_false, if_neg (Nat.not_lt.2 huse)]

theorem doSpoofSetEffect_due {y : SpoofSets} {t : Nat} {cc : Cmd} (hx : s.slice sid = some x) (hpend : x.spoofPend = some (y, t, cc))
    (hs : s.fatal = false) (hdue : s.dueFrame t = true) : doSpoofSetEffect sid s =
      (s.onHost fun h => { h with slices := h.slices.mod sid fun x => { x with spoof := y, spoofPend := none } }).reply
        0x0307 cc true { Answer.ok y.entries with ft := some s.frameFt } := by
  simp only [doSpoofSetEffect, hx, hpend, hs, hdue, Bool.not_true, Bool.or_self, Bool.false_eq_true, if_false]
  rfl

theorem doSpoofQuery_accepted (h : s.accepts 0x0308 c who false true true = true)
    (hx : (s.taken 0x0308 c).slice c.target.toNat = some x) :
    doSpoofQuery c s = (s.taken 0x0308 c).answer 0x0308 c { Answer.ok with data := x.spoof.bytes } := by
  refine (State.sf_accepted h).trans ?_
  simp only [hx]
  rfl

/-! ### The rows at a die's own counter -/

theorem exec_sliceBindingEffect (sid : Nat) (s : State) :
    exec (.sliceBindingEffect sid) s = .next (s.backFrom (doSliceBindingEffect sid (s.seenFrom (s.sliceDie sid)))) := rfl
theorem exec_spoofSetEffect (sid : Nat) (s : State) :
    exec (.spoofSetEffect sid) s = .next (s.backFrom (doSpoofSetEffect sid (s.seenFrom (s.sliceDie sid)))) := rfl

/-- Settles O35: Buckram's turn at a creation, a destruction and new sets, their boundaries, and the other commands by their acceptance. -/
theorem slicesAndSpoofSets : Obligations.SlicesAndSpoofSets := by
  unfold Obligations.SlicesAndSpoofSets
  refine ⟨?create, ?bound, ?quiesce, ?vfQuiesce, ?reset, ?resetComplete, ?destroy, ?spoofSet, ?spoofEffect, ?spoofQuery, ?fnQuery⟩
  case create =>
    rintro s c _ env f h rfl hcheck htarget
    exact thenBuckram_of_bkAccepts h rfl (bkSliceCreate_named (State.precheck_of_bkAccepts h) hcheck htarget)
  case bound =>
    rintro s0 _ sid x c rfl hx hcmd hs hdue
    rw [exec_sliceBindingEffect, doSliceBindingEffect_due hx hcmd hs hdue]
  case quiesce => exact fun s c who h => congrArg Host.Outcome.next (doSliceQuiesce_accepted h)
  case vfQuiesce => exact fun s c who h hvf => congrArg Host.Outcome.next (doVfQuiesce_accepted h hvf)
  case reset => exact fun s c who x h hx hreset hroom => congrArg Host.Outcome.next (doSliceReset_sent h hx hreset hroom)
  case resetComplete =>
    exact fun s sid x c hx hcmd hs hreads => congrArg Host.Outcome.next (doSliceResetComplete_quiet hx hcmd hs hreads)
  case destroy =>
    intro s c who env x h hx hreset hpend howns
    exact thenBuckram_of_bkAccepts h rfl (bkSliceDestroy_free (State.precheck_of_bkAccepts h) hx hreset hpend howns)
  case spoofSet =>
    intro s c who env x h hx hok hpend huse
    exact thenBuckram_of_bkAccepts h rfl (bkSpoofSet_waits (State.precheck_of_bkAccepts h) hx hok hpend huse)
  case spoofEffect =>
    rintro s0 _ sid t x y c rfl hx hpend hs hdue
    rw [exec_spoofSetEffect, doSpoofSetEffect_due hx hpend hs hdue]
  case spoofQuery => exact fun s c who x h hx => congrArg Host.Outcome.next (doSpoofQuery_accepted h hx)
  case fnQuery => exact fun s c who h => congrArg Host.Outcome.next (State.sf_accepted h)

end Sys2Proof.Machine
end

section
/-! SUPPORT. The memory code (14 R397 to R402): its field arithmetic is linear over exclusive or, so that the syndromes of a codeword with errors
are those of the errors alone; O9 from this, and O10 for the eight codewords of a line. -/

namespace Sys2Proof.Machine

/-! ### The field (14 R398) -/

theorem xor_lt_256 {a b : Nat} (ha : a < 256) (hb : b < 256) : a ^^^ b < 256 := Nat.xor_lt_two_pow (n := 8) ha hb

/-- Multiplication by alpha shifts, and takes the field polynomial away where bit 7 was set. -/
theorem gfDouble_eq {a : Nat} (ha : a < 256) : gfDouble a = a <<< 1 ^^^ if a.testBit 7 then 0x11D else 0 := by
  have hbit : a.testBit 7 = decide (128 ≤ a) := by
    rw [Nat.testBit_eq_decide_div_mod_eq]
    exact decide_eq_decide.2 (by omega)
  have htwice : a <<< 1 = 2 * a := by rw [Nat.shiftLeft_eq, pow_one, Nat.mul_comm]
  rw [gfDouble, hbit, htwice]
  by_cases h : a < 128
  · simp [h, Nat.not_le.2 h]
  · simp [h, Nat.not_lt.1 h]

theorem gfDouble_lt : ∀ {a : Nat}, a < 256 → gfDouble a < 256 := by decide +kernel

theorem gfDouble_eq_zero : ∀ {a : Nat}, a < 256 → gfDouble a = 0 → a = 0 := by decide +kernel

/-- Multiplication by alpha is linear. -/
theorem gfDouble_xor {a b : Nat} (ha : a < 256) (hb : b < 256) : gfDouble (a ^^^ b) = gfDouble a ^^^ gfDouble b := by
  rw [gfDouble_eq ha, gfDouble_eq hb, gfDouble_eq (xor_lt_256 ha hb), Nat.testBit_xor, Nat.shiftLeft_xor_distrib]
  cases a.testBit 7 <;> cases b.testBit 7 <;> simp [Nat.xor_assoc, Nat.xor_comm, Nat.xor_left_comm]

theorem gfDouble_inj {a b : Nat} (ha : a < 256) (hb : b < 256) (h : gfDouble a = gfDouble b) : a = b := by
  have hzero : gfDouble (a ^^^ b) = 0 := by rw [gfDouble_xor ha hb, h, Nat.xor_self]
  exact Nat.xor_eq_zero_iff.1 (gfDouble_eq_zero (xor_lt_256 ha hb) hzero)

theorem gfShift_inj {n a b : Nat} (ha : a < 256) (hb : b < 256) (h : gfShift n a = gfShift n b) : a = b := by
  induction n generalizing a b with
  | zero => exact h
  | succ n ih => exact gfDouble_inj ha hb (ih (gfDouble_lt ha) (gfDouble_lt hb) h)

theorem gfShift_add (m n a : Nat) : gfShift (m + n) a = gfShift m (gfShift n a) := by
  induction n generalizing a with
  | zero => rfl
  | succ n ih => exact ih (gfDouble a)

theorem gfShift_lt {n a : Nat} (ha : a < 256) : gfShift n a < 256 := by
  induction n generalizing a with
  | zero => exact ha
  | succ n ih => exact ih (gfDouble_lt ha)

/-- No power of alpha below the length of a codeword fixes a field element but 0. -/
theorem gfShift_ne_self : ∀ k < 10, k ≠ 0 → ∀ e < 256, e ≠ 0 → gfShift k e ≠ e := by decide +kernel

/-- The powers of alpha below the length of a codeword are told apart by every field element but 0. -/
theorem gfShift_exponent_inj {m n e : Nat} (hm : m < 10) (hn : n < 10) (he : e < 256) (h0 : e ≠ 0)
    (h : gfShift m e = gfShift n e) : m = n := by
  have hle {m n : Nat} (hm : m < 10) (hmn : n ≤ m) (h : gfShift m e = gfShift n e) : m = n := by
    by_contra hne
    have hfix : gfShift (m - n) e = e := by
      apply gfShift_inj (n := n) (gfShift_lt he) he
      rw [← gfShift_add, Nat.add_sub_cancel' hmn, h]
    exact gfShift_ne_self (m - n) (by omega) (by omega) e he h0 hfix
  rcases Nat.le_total n m with hmn | hmn
  · exact hle hm hmn h
  · exact (hle hn hmn h.symm).symm

/-! ### Syndromes (14 R398 R399) -/

/-- The value of a word at alpha. -/
def atAlpha (cw : List Nat) (a : Nat) : Nat := cw.foldl (fun a c => gfDouble a ^^^ c) a

/-- Codewords added symbol by symbol. -/
def addWords (l m : List Nat) : List Nat := List.zipWith (· ^^^ ·) l m

/-- A word with an error at one symbol, by the numbers of symbols before and after it. -/
def errorWord (p e q : Nat) : List Nat := List.replicate p 0 ++ e :: List.replicate q 0

theorem foldl_xor_addWords {l m : List Nat} (hlen : l.length = m.length) (a b : Nat) :
    (addWords l m).foldl (· ^^^ ·) (a ^^^ b) = l.foldl (· ^^^ ·) a ^^^ m.foldl (· ^^^ ·) b := by
  induction l generalizing m a b with
  | nil => obtain rfl := List.eq_nil_of_length_eq_zero hlen.symm; rfl
  | cons c l ih =>
    cases m with
    | nil => simp at hlen
    | cons d m =>
      have hswap : a ^^^ b ^^^ (c ^^^ d) = (a ^^^ c) ^^^ (b ^^^ d) := by ac_rfl
      simpa [addWords, hswap] using ih (by simpa using hlen) (a ^^^ c) (b ^^^ d)

theorem atAlpha_addWords {l m : List Nat} (hlen : l.length = m.length) (hl : ∀ c ∈ l, c < 256) (hm : ∀ c ∈ m, c < 256)
    {a b : Nat} (ha : a < 256) (hb : b < 256) : atAlpha (addWords l m) (a ^^^ b) = atAlpha l a ^^^ atAlpha m b := by
  induction l generalizing m a b with
  | nil => obtain rfl := List.eq_nil_of_length_eq_zero hlen.symm; rfl
  | cons c l ih =>
    cases m with
    | nil => simp at hlen
    | cons d m =>
      obtain ⟨hc, hl⟩ := List.forall_mem_cons.1 hl
      obtain ⟨hd, hm⟩ := List.forall_mem_cons.1 hm
      have hswap : gfDouble (a ^^^ b) ^^^ (c ^^^ d) = (gfDouble a ^^^ c) ^^^ (gfDouble b ^^^ d) := by
        rw [gfDouble_xor ha hb]
        ac_rfl
      have hrest := ih (by simpa using hlen) hl hm (xor_lt_256 (gfDouble_lt ha) hc) (xor_lt_256 (gfDouble_lt hb) hd)
      simpa [addWords, atAlpha, hswap] using hrest

/-- Syndromes are linear. -/
theorem rsSyndrome_addWords {l m : List Nat} (hlen : l.length = m.length) (hl : ∀ c ∈ l, c < 256) (hm : ∀ c ∈ m, c < 256) :
    rsSyndrome (addWords l m) = ((rsSyndrome l).1 ^^^ (rsSyndrome m).1, (rsSyndrome l).2 ^^^ (rsSyndrome m).2) :=
  Prod.ext (foldl_xor_addWords hlen 0 0) (atAlpha_addWords hlen hl hm (a := 0) (b := 0) (by decide) (by decide))

theorem foldl_xor_zeros (n a : Nat) : (List.replicate n 0).foldl (· ^^^ ·) a = a := by
  induction n generalizing a with
  | zero => rfl
  | succ n ih => simpa [List.replicate_succ] using ih a

theorem atAlpha_zeros (n a : Nat) : atAlpha (List.replicate n 0) a = gfShift n a := by
  induction n generalizing a with
  | zero => rfl
  | succ n ih =>
    calc atAlpha (List.replicate (n + 1) 0) a = atAlpha (List.replicate n 0) (gfDouble a) := by
          simp [List.replicate_succ, atAlpha]
      _ = gfShift (n + 1) a := ih (gfDouble a)

theorem gfShift_zero (n : Nat) : gfShift n 0 = 0 := by
  induction n with
  | zero => rfl
  | succ n ih => exact ih

/-- The syndromes of one error: the error, and the error at the power of alpha of its place. -/
theorem rsSyndrome_errorWord (p e q : Nat) : rsSyndrome (errorWord p e q) = (e, gfShift q e) := by
  have hafter : gfShift q e = atAlpha (List.replicate q 0) (gfDouble (atAlpha (List.replicate p 0) 0) ^^^ e) := by
    rw [atAlpha_zeros p, gfShift_zero, show gfDouble 0 ^^^ e = e from Nat.zero_xor e, atAlpha_zeros]
  refine Prod.ext ?_ ?_
  · simp [rsSyndrome, errorWord, foldl_xor_zeros]
  · rw [hafter]
    simp [rsSyndrome, errorWord, atAlpha]

/-! ### The encoder (14 R398) -/

/-- The encoder's remainder with one data symbol more. -/
def rsStep (r : Nat × Nat) (d : Nat) : Nat × Nat :=
  (r.2 ^^^ gfDouble (d ^^^ r.1) ^^^ (d ^^^ r.1), gfDouble (d ^^^ r.1))

theorem rsCheck_eq (data : List Nat) : rsCheck data = data.foldl rsStep (0, 0) := rfl

/-- A pair of symbols is the remainder of a word with values `a` at 1 and `b` at alpha: appended to it, it makes both 0. -/
structure Remainder (r : Nat × Nat) (a b : Nat) : Prop where
  high : r.1 < 256
  low : r.2 < 256
  value : b < 256
  atOne : a = r.1 ^^^ r.2
  atTwo : gfDouble (gfDouble b) = gfDouble r.1 ^^^ r.2

theorem Remainder.step {r : Nat × Nat} {a b d : Nat} (hr : Remainder r a b) (hd : d < 256) :
    Remainder (rsStep r d) (a ^^^ d) (gfDouble b ^^^ d) := by
  obtain ⟨hh, hl, hb, hone, hα⟩ := hr
  have ht : d ^^^ r.1 < 256 := xor_lt_256 hd hh
  refine ⟨xor_lt_256 (xor_lt_256 hl (gfDouble_lt ht)) ht, gfDouble_lt ht, xor_lt_256 (gfDouble_lt hb) hd, ?_, ?_⟩
  · calc a ^^^ d = r.2 ^^^ (d ^^^ r.1) ^^^ (gfDouble (d ^^^ r.1) ^^^ gfDouble (d ^^^ r.1)) := by
          rw [hone, Nat.xor_self, Nat.xor_zero]; ac_rfl
      _ = r.2 ^^^ gfDouble (d ^^^ r.1) ^^^ (d ^^^ r.1) ^^^ gfDouble (d ^^^ r.1) := by ac_rfl
  · calc gfDouble (gfDouble (gfDouble b ^^^ d)) = gfDouble r.2 ^^^ (gfDouble (gfDouble d) ^^^ gfDouble (gfDouble r.1)) := by
          rw [gfDouble_xor (gfDouble_lt hb) hd, hα, gfDouble_xor (xor_lt_256 (gfDouble_lt hh) hl) (gfDouble_lt hd),
            gfDouble_xor (gfDouble_lt hh) hl]
          ac_rfl
      _ = gfDouble r.2 ^^^ gfDouble (gfDouble (d ^^^ r.1)) ^^^ (gfDouble (d ^^^ r.1) ^^^ gfDouble (d ^^^ r.1)) := by
          rw [Nat.xor_self, Nat.xor_zero, gfDouble_xor hd hh, gfDouble_xor (gfDouble_lt hd) (gfDouble_lt hh)]
      _ = gfDouble (r.2 ^^^ gfDouble (d ^^^ r.1) ^^^ (d ^^^ r.1)) ^^^ gfDouble (d ^^^ r.1) := by
          rw [gfDouble_xor (xor_lt_256 hl (gfDouble_lt ht)) ht, gfDouble_xor hl (gfDouble_lt ht)]
          ac_rfl

theorem Remainder.fold {data : List Nat} (hdata : ∀ d ∈ data, d < 256) {r : Nat × Nat} {a b : Nat} (hr : Remainder r a b) :
    Remainder (data.foldl rsStep r) (data.foldl (· ^^^ ·) a) (atAlpha data b) := by
  induction data generalizing r a b with
  | nil => exact hr
  | cons d data ih =>
    obtain ⟨hd, hdata⟩ := List.forall_mem_cons.1 hdata
    exact ih hdata (hr.step hd)

/-- The check symbols are the remainder of the data. -/
theorem rsCheck_remainder {data : List Nat} (hdata : ∀ d ∈ data, d < 256) :
    Remainder (rsCheck data) (data.foldl (· ^^^ ·) 0) (atAlpha data 0) :=
  Remainder.fold hdata ⟨by decide, by decide, by decide, rfl, rfl⟩

theorem rsEncode_lt {data : List Nat} (hdata : ∀ d ∈ data, d < 256) : ∀ c ∈ rsEncode data, c < 256 := by
  have hr := rsCheck_remainder hdata
  simp only [rsEncode, List.mem_append, List.mem_cons, List.not_mem_nil, or_false]
  rintro c (hc | rfl | rfl)
  · exact hdata c hc
  · exact hr.high
  · exact hr.low

@[simp] theorem rsEncode_length (data : List Nat) : (rsEncode data).length = data.length + 2 := by simp [rsEncode]

/-- A codeword as the encoder makes it has no syndrome. -/
theorem rsSyndrome_rsEncode {data : List Nat} (hdata : ∀ d ∈ data, d < 256) : rsSyndrome (rsEncode data) = (0, 0) := by
  have hr := rsCheck_remainder hdata
  refine Prod.ext ?_ ?_
  · calc (rsSyndrome (rsEncode data)).1 = data.foldl (· ^^^ ·) 0 ^^^ (rsCheck data).1 ^^^ (rsCheck data).2 := by
          simp [rsSyndrome, rsEncode]
      _ = 0 := by rw [hr.atOne, Nat.xor_assoc, Nat.xor_self]
  · calc (rsSyndrome (rsEncode data)).2 = gfDouble (gfDouble (atAlpha data 0) ^^^ (rsCheck data).1) ^^^ (rsCheck data).2 := by
          simp [rsSyndrome, rsEncode, atAlpha]
      _ = 0 := by
        rw [gfDouble_xor (gfDouble_lt hr.value) hr.high, hr.atTwo, Nat.xor_assoc, Nat.xor_self]

/-! ### Errors and poison (14 R399 R402) -/

theorem errorWord_length (p e q : Nat) : (errorWord p e q).length = p + q + 1 := by simp [errorWord, Nat.add_assoc]

theorem errorWord_lt {e : Nat} (he : e < 256) (p q : Nat) : ∀ c ∈ errorWord p e q, c < 256 := by
  simp [errorWord, or_imp, forall_and, he]

/-- The symbols of an error word. -/
theorem errorWord_getElem (p e q i : Nat) (hi : i < (errorWord p e q).length) : (errorWord p e q)[i] = if p = i then e else 0 := by
  simp only [errorWord, List.getElem_append, List.getElem_cons, List.getElem_replicate, List.length_replicate]
  grind

theorem addWords_length {l m : List Nat} (hlen : l.length = m.length) : (addWords l m).length = l.length := by
  simp [addWords, hlen]

theorem addWords_lt {l m : List Nat} (hl : ∀ c ∈ l, c < 256) (hm : ∀ c ∈ m, c < 256) : ∀ c ∈ addWords l m, c < 256 := by
  intro c hc
  obtain ⟨i, hi, rfl⟩ := List.getElem_of_mem hc
  simp only [addWords, List.length_zipWith, Nat.lt_min] at hi
  simpa [addWords] using xor_lt_256 (hl _ (List.getElem_mem hi.1)) (hm _ (List.getElem_mem hi.2))

/-- One symbol changed is an error word added. -/
theorem modAt_xor {l : List Nat} {p : Nat} (hp : p < l.length) (e : Nat) :
    modAt l p (· ^^^ e) = addWords l (errorWord p e (l.length - 1 - p)) := by
  refine List.ext_getElem ?_ fun i hi hi' => ?_
  · simp [modAt, addWords, errorWord_length]
    omega
  · simp only [modAt, addWords, List.getElem_modify, List.getElem_zipWith, errorWord_getElem]
    split <;> simp

/-- A codeword with an error at one symbol has the syndromes of the error. -/
theorem rsSyndrome_oneError {data : List Nat} (hlen : data.length = 8) (hdata : ∀ d ∈ data, d < 256) {p e q : Nat} (hpq : p + q = 9)
    (he : e < 256) : rsSyndrome (addWords (rsEncode data) (errorWord p e q)) = (e, gfShift q e) := by
  rw [rsSyndrome_addWords (by simp [errorWord_length, hlen, hpq]) (rsEncode_lt hdata) (errorWord_lt he p q), rsSyndrome_rsEncode hdata,
    rsSyndrome_errorWord]
  simp

/-- The decoder names the place and the error of the syndromes of one error. -/
theorem rsFix_of_oneError {cw : List Nat} (hlen : cw.length = 10) {p e : Nat} (hp : p < 10) (h0 : e ≠ 0) (he : e < 256)
    (hsyn : rsSyndrome cw = (e, gfShift (9 - p) e)) : rsFix cw = some [(p, e)] := by
  have hfind : (List.range 10).find? (fun s => gfShift (9 - s) e == gfShift (9 - p) e) = some p := by
    rw [List.find?_range_eq_some]
    refine ⟨beq_self_eq_true _, List.mem_range.2 hp, fun j hj => ?_⟩
    have hne : gfShift (9 - j) e ≠ gfShift (9 - p) e := fun h =>
      absurd (gfShift_exponent_inj (by omega) (by omega) he h0 h) (by omega)
    simpa using hne
  simp only [rsFix, hsyn, hlen, h0, false_and, if_false, hfind, Option.map_some]

theorem rsFix_of_noError {cw : List Nat} (hsyn : rsSyndrome cw = (0, 0)) : rsFix cw = some [] := by
  simp [rsFix, hsyn]

/-- The poison syndrome is that of no error of one symbol. -/
theorem rsFix_of_poison {cw : List Nat} (hsyn : rsSyndrome cw = poisonSyndrome) : rsFix cw = none := by
  simp [rsFix, hsyn, poisonSyndrome, gfDouble]

/-- The mark of poison: both check symbols changed by 0xA5. -/
def poisonWord : List Nat := addWords (errorWord 8 0xA5 1) (errorWord 9 0xA5 0)

theorem rsSyndrome_poisoned {data : List Nat} (hlen : data.length = 8) (hdata : ∀ d ∈ data, d < 256) :
    rsSyndrome (addWords (rsEncode data) poisonWord) = poisonSyndrome := by
  rw [rsSyndrome_addWords (by rw [rsEncode_length, hlen]; rfl) (rsEncode_lt hdata) (by decide), rsSyndrome_rsEncode hdata]
  decide

theorem addWords_assoc (l m n : List Nat) : addWords (addWords l m) n = addWords l (addWords m n) := by
  refine List.ext_getElem (by simp [addWords, Nat.min_assoc]) fun i hi hi' => ?_
  simp [addWords, Nat.xor_assoc]

/-- Settles O9: the syndromes are linear, and the powers of alpha tell the ten places apart. -/
theorem singleSymbolErrorsAreCorrected : Obligations.SingleSymbolErrorsAreCorrected := by
  unfold Obligations.SingleSymbolErrorsAreCorrected
  refine ⟨?clean, ?corrected, ?poison⟩
  case clean => exact fun data _ hdata => rsSyndrome_rsEncode hdata
  case corrected =>
    intro data p e hlen hdata hp h0 he
    have hcw : (rsEncode data).length = 10 := by rw [rsEncode_length, hlen]
    have hsyn : rsSyndrome (modAt (rsEncode data) p (· ^^^ e)) = (e, gfShift (9 - p) e) := by
      rw [modAt_xor (by omega), hcw]
      exact rsSyndrome_oneError hlen hdata (by omega) he
    exact rsFix_of_oneError (by simp [modAt, hlen]) hp (by omega) he hsyn
  case poison =>
    intro data hlen hdata
    have hcw : (rsEncode data).length = 10 := by rw [rsEncode_length, hlen]
    have hmark : modAt (modAt (rsEncode data) 8 (· ^^^ 0xA5)) 9 (· ^^^ 0xA5) = addWords (rsEncode data) poisonWord := by
      rw [modAt_xor (by simp [modAt, hlen]), modAt_xor (by omega), addWords_length (by simp [errorWord_length, hcw]), hcw, addWords_assoc]
      rfl
    have hsyn : rsSyndrome (modAt (modAt (rsEncode data) 8 (· ^^^ 0xA5)) 9 (· ^^^ 0xA5)) = poisonSyndrome := by
      rw [hmark, rsSyndrome_poisoned hlen hdata]
    exact ⟨hsyn, rsFix_of_poison hsyn⟩

/-! ### Lines (14 R399 R402) -/

/-- The data symbols of codeword `k` of a line. -/
def lineSymbols (b : Bytes) (k : Nat) : List Nat := (List.range 8).map fun s => byteAt b (8 * k + s)

theorem byteAt_lt (b : Bytes) (i : Nat) : byteAt b i < 256 := (b.getD i 0).isLt

@[simp] theorem lineSymbols_length (b : Bytes) (k : Nat) : (lineSymbols b k).length = 8 := by simp [lineSymbols]

theorem lineSymbols_lt (b : Bytes) (k : Nat) : ∀ d ∈ lineSymbols b k, d < 256 := by
  simp [lineSymbols, byteAt_lt]

/-- The codewords of a line as read are those written with the words of their errors and of poison added. -/
theorem lineCodewords_eq {b errors : Bytes} {poisoned : Bool} {E : Nat → List Nat}
    (hE : ∀ k, k < 8 → ((List.range 10).map fun s => byteAt errors (10 * k + s) ^^^ if poisoned && 8 ≤ s then 0xA5 else 0) = E k) :
    lineCodewords b errors poisoned = (List.range 8).map fun k => addWords (rsEncode (lineSymbols b k)) (E k) := by
  refine List.map_congr_left fun k hk => ?_
  rw [← hE k (List.mem_range.1 hk)]
  refine List.ext_getElem (by simp [addWords]) fun i hi hi' => ?_
  simp [addWords, Nat.xor_assoc]
  rfl

/-- The corrections of a line in which symbol `p` of codeword `k` has the error `e k`. -/
def deviceFixes (p : Nat) (e : Nat → Nat) : List (Nat × Nat × Nat) :=
  (List.range 8).flatMap fun k => if e k = 0 then [] else [(k, p, e k)]

/-- Codewords with errors of one symbol position decode as good. -/
theorem decodeLine_oneDevice {W : Nat → List Nat} {p : Nat} {e : Nat → Nat} (hp : p < 10) (hlen : ∀ k, k < 8 → (W k).length = 10)
    (he : ∀ k, e k < 256) (hsyn : ∀ k, k < 8 → rsSyndrome (W k) = (e k, gfShift (9 - p) (e k))) :
    decodeLine ((List.range 8).map W) = .good (deviceFixes p e) := by
  have hnot : (((List.range 8).map W).all fun cw => rsSyndrome cw == poisonSyndrome) = false := by
    rw [List.all_eq_false]
    refine ⟨W 0, List.mem_map_of_mem (List.mem_range.2 (by decide)), ?_⟩
    rw [hsyn 0 (by decide), beq_iff_eq, Prod.ext_iff]
    rintro ⟨h0, h1⟩
    rw [show e 0 = 0 from h0, gfShift_zero] at h1
    exact absurd h1 (by decide)
  have hfix (k : Nat) (hk : k < 8) : rsFix (W k) = some (if e k = 0 then [] else [(p, e k)]) := by
    by_cases h0 : e k = 0
    · rw [if_pos h0, rsFix_of_noError (by rw [hsyn k hk, h0, gfShift_zero])]
    · rw [if_neg h0, rsFix_of_oneError (hlen k hk) hp h0 (he k) (hsyn k hk)]
  have hfixes : (((List.range 8).map W).zipIdx.map fun (cw, k) => (rsFix cw).map fun l => l.map fun (s, x) => (k, s, x)) =
      (List.range 8).map fun k => some (if e k = 0 then [] else [(k, p, e k)]) := by
    refine List.ext_getElem (by simp) fun i hi hi' => ?_
    have hi8 : i < 8 := by simpa using hi
    simp only [List.getElem_map, List.getElem_zipIdx, List.getElem_range, hfix i hi8, Nat.zero_add, Option.map_some]
    split <;> rfl
  have hflat : (((List.range 8).map fun k => some (if e k = 0 then [] else [(k, p, e k)])).filterMap id).flatten = deviceFixes p e := by
    rw [List.filterMap_map, deviceFixes, List.flatMap_def]
    simp
  have hone : ((List.range 10).any fun q => (deviceFixes p e).all fun (_, s, x) => s == q || oneBit x) = true := by
    refine List.any_eq_true.2 ⟨p, List.mem_range.2 hp, List.all_eq_true.2 ?_⟩
    rintro ⟨k, s, x⟩ hmem
    simp only [deviceFixes, List.mem_flatMap] at hmem
    obtain ⟨j, -, hj⟩ := hmem
    split at hj
    · simp at hj
    · simp_all
  simp only [decodeLine, hnot, hfixes, hflat, hone, Bool.false_eq_true, if_false, if_true]
  simp

/-- The corrections of one device change symbol `p` of a codeword by its error. -/
theorem foldl_deviceFixes (p : Nat) (e : Nat → Nat) {j : Nat} (hj : j < 8) (q c : Nat) :
    (deviceFixes p e).foldl (fun c (k, s, x) => if k = j ∧ s = q then c ^^^ x else c) c = c ^^^ if p = q then e j else 0 := by
  have hword (k c : Nat) : (if e k = 0 then [] else [(k, p, e k)]).foldl (fun c (k, s, x) => if k = j ∧ s = q then c ^^^ x else c) c =
      if k = j then c ^^^ (if p = q then e j else 0) else c := by
    by_cases hk : k = j <;> by_cases hq : p = q <;> by_cases h0 : e k = 0 <;> simp_all
  have hrange (n : Nat) : (List.range n).foldl (fun c k => if k = j then c ^^^ (if p = q then e j else 0) else c) c =
      if j < n then c ^^^ (if p = q then e j else 0) else c := by
    induction n with
    | zero => rfl
    | succ n ih =>
      rw [List.range_succ, List.foldl_append, ih]
      grind
  rw [deviceFixes, List.foldl_flatMap]
  simp only [hword, hrange, hj, if_true]

/-- A data symbol of a codeword of a line, as read. -/
theorem lineSymbol_read (b : Bytes) {i p : Nat} (hp : p < 10) (e : Nat → Nat) (hi : i < 64) :
    (((List.range 8).map fun k => addWords (rsEncode (lineSymbols b k)) (errorWord p (e k) (9 - p))).getD (i / 8) []).getD (i % 8) 0 =
      byteAt b i ^^^ if p = i % 8 then e (i / 8) else 0 := by
  have hj : i / 8 < 8 := by omega
  have hm : i % 8 < (addWords (rsEncode (lineSymbols b (i / 8))) (errorWord p (e (i / 8)) (9 - p))).length := by
    simp [addWords, errorWord_length]
    omega
  have hword : ((List.range 8).map fun k => addWords (rsEncode (lineSymbols b k)) (errorWord p (e k) (9 - p))).getD (i / 8) [] =
      addWords (rsEncode (lineSymbols b (i / 8))) (errorWord p (e (i / 8)) (9 - p)) := by
    simp [List.getD_eq_getElem?_getD, hj]
  have hdata : (rsEncode (lineSymbols b (i / 8)))[i % 8]'(by simp; omega) = byteAt b i := by
    simp only [rsEncode]
    rw [List.getElem_append_left (by simp; omega)]
    simp [lineSymbols, Nat.div_add_mod]
  rw [hword, List.getD_eq_getElem _ _ hm]
  simp only [addWords, List.getElem_zipWith, hdata, errorWord_getElem]

/-- The data of a line whose errors are those of one device, corrected. -/
theorem lineData_oneDevice {b : Bytes} (hb : b.length = 64) {p : Nat} (hp : p < 10) (e : Nat → Nat) :
    lineData ((List.range 8).map fun k => addWords (rsEncode (lineSymbols b k)) (errorWord p (e k) (9 - p))) (deviceFixes p e) = b := by
  refine List.ext_getElem (by simp [lineData, hb]) fun i hi hi' => ?_
  have hi64 : i < 64 := by simpa [lineData] using hi
  have hj : i / 8 < 8 := by omega
  simp only [lineData, List.getElem_map, List.getElem_range, foldl_deviceFixes p e hj, lineSymbol_read b hp e hi64, Nat.xor_assoc, Nat.xor_self, Nat.xor_zero]
  simp [byte, byteAt, hi']

/-- The error words of a line whose errors lie at one symbol position. -/
theorem errors_oneDevice {errors : Bytes} {p : Nat} (hp : p < 10) (hother : ∀ i, i % 10 ≠ p → byteAt errors i = 0) (k : Nat) :
    ((List.range 10).map fun s => byteAt errors (10 * k + s) ^^^ if false && 8 ≤ s then 0xA5 else 0) =
      errorWord p (byteAt errors (10 * k + p)) (9 - p) := by
  refine List.ext_getElem (by simp [errorWord_length]; omega) fun i hi hi' => ?_
  have hi10 : i < 10 := by simpa using hi
  rw [errorWord_getElem]
  simp only [List.getElem_map, List.getElem_range, Bool.false_and, Bool.false_eq_true, if_false, Nat.xor_zero]
  split
  · next h => rw [h]
  · exact hother _ (by omega)

/-- A line with the errors of one device decodes as good, and its corrected data are the 64 bytes. -/
theorem decodeLine_of_oneDevice {b errors : Bytes} {p : Nat} (hb : b.length = 64) (hp : p < 10)
    (hother : ∀ i, i % 10 ≠ p → byteAt errors i = 0) :
    decodeLine (lineCodewords b errors false) = .good (deviceFixes p fun k => byteAt errors (10 * k + p)) ∧
      lineData (lineCodewords b errors false) (deviceFixes p fun k => byteAt errors (10 * k + p)) = b := by
  rw [lineCodewords_eq fun k _ => errors_oneDevice hp hother k]
  refine ⟨decodeLine_oneDevice hp (fun k _ => ?_) (fun k => byteAt_lt ..) fun k _ => ?_, lineData_oneDevice hb hp _⟩
  · rw [addWords_length] <;> simp [errorWord_length]
    omega
  · exact rsSyndrome_oneError (lineSymbols_length b k) (lineSymbols_lt b k) (by omega) (byteAt_lt ..)

theorem deviceFixes_zeros (n p : Nat) : deviceFixes p (fun k => byteAt (zeros n) (10 * k + p)) = [] := by
  simp [deviceFixes, byteAt_zeros]

theorem decodeLine_of_poisoned (b : Bytes) : decodeLine (lineCodewords b (zeros 80) true) = .poisoned := by
  have hmark (k : Nat) : ((List.range 10).map fun s => byteAt (zeros 80) (10 * k + s) ^^^ if true && 8 ≤ s then 0xA5 else 0) =
      poisonWord := by
    simp only [byteAt_zeros]
    decide
  have hall : ((List.range 8).map fun k => addWords (rsEncode (lineSymbols b k)) poisonWord).all
      (fun cw => rsSyndrome cw == poisonSyndrome) = true := by
    simp [rsSyndrome_poisoned (lineSymbols_length b _) (lineSymbols_lt b _)]
  rw [lineCodewords_eq fun k _ => hmark k, decodeLine, if_pos hall]

/-- Settles O10: a clean line is one whose device has errors of 0, and a poisoned one has the mark in every codeword. -/
theorem poisonedAndCleanLinesAreRecognised : Obligations.PoisonedAndCleanLinesAreRecognised := by
  unfold Obligations.PoisonedAndCleanLinesAreRecognised
  refine ⟨?clean, ?oneDevice⟩
  case clean =>
    intro b hb
    obtain ⟨hgood, hdata⟩ := decodeLine_of_oneDevice (errors := zeros 80) (p := 0) hb (by decide) fun i _ => byteAt_zeros 80 i
    rw [deviceFixes_zeros] at hgood hdata
    exact ⟨hgood, hdata, decodeLine_of_poisoned b⟩
  case oneDevice =>
    intro b errors p hb _ hp hother
    exact ⟨_, decodeLine_of_oneDevice hb hp hother⟩

end Sys2Proof.Machine
end

section
/-! SUPPORT. Memory channels (14 R396 R408 R409 R414) and their scrubbing (14 R401 R410): training, refresh, calibration windows, sideband faults,
passes, reads and write-backs, and the two commands; O11 and O12 from these. -/

namespace Sys2Proof.Machine

variable {s u : State} {c : Nat}

/-! ### Training and refresh (14 R396 R408) -/

theorem doDramTrained_first {found : List ChannelPop} (hs : s.fatal = false) (hdone : s.dram.done = false) (hstage : s.boot.stage = .buckram)
    (hpower : s.pins.mainPwrOk = true) (hlen : found.length = 12) : doDramTrained found s =
      (found.zipIdx.foldl (fun s (p, c) => s.trainChannel c p) s).onDram fun d => { d with done := true } := by
  simp [doDramTrained, hs, hdone, hstage, hpower, hlen]

theorem doRefresh_of_refreshing {r : Nat} (hr : s.refreshing c r = true) : doRefresh c r s =
    if s.onGrid ((s.channel c).tRef r) (240 * ((c + r) % 16)) = true then s.refreshNow c r else s := by
  simp [doRefresh, hr]

theorem doForcedRefresh_due {r t : Nat} (hr : s.refreshing c r = true) (hmem : (r, t) ∈ (s.channel c).lastRefresh)
    (hdue : t + 4 * (s.channel c).tRef r ≤ s.time.osc) : doForcedRefresh c r s = s.refreshNow c r := by
  have hany : ((s.channel c).lastRefresh.any fun (x, y) => x == r && decide (y + 4 * (s.channel c).tRef r ≤ s.time.osc)) = true :=
    List.any_eq_true.2 ⟨(r, t), hmem, by simpa using hdue⟩
  simp only [doForcedRefresh, hr, hany, Bool.and_self, if_true]

/-! ### Calibration windows (14 R409) -/

/-- The end of the last requested window answers the request. -/
theorem State.calEnds_over {k : Cmd} (hcmd : (s.channel c).calCmd = some k) (hleft : (s.channel c).calLeft = 0)
    (huntil : (s.channel c).calUntil ≤ s.ft) : s.calEnds c =
      (s.onChannel c fun x => { x with calCmd := none }).reply 0x0E04 k false { Answer.ok with ft := some (s.channel c).calUntil } := by
  simp only [State.calEnds, hcmd, hleft, huntil, and_self, if_true]

/-- A window in a slot of a channel that works and holds none: its periodic one, or the next that is requested. -/
theorem doCalWindow_inSlot {load : Nat} {h0 h1 : Bool} (hu : u = s.calEnds c) (hs : u.fatal = false) (hgrid : u.onGrid 4096 0 = true)
    (htrained : (u.channel c).trained = true) (hon : u.channelOn c = true) (hfree : (u.channel c).calUntil ≤ u.ft) :
    doCalWindow c h0 h1 load s = if periodicWindow (u.gridFt 4096 0) = some c then
        u.onChannel c fun x => { x with calUntil := u.gridFt 4096 0 + 1024, hot := [h0, h1] }
      else if u.calTurn c = true then u.onChannel c fun x => { x with
        calUntil := u.gridFt 4096 0 + 1024, hot := [h0, h1], calLeft := x.calLeft - 1
        calNext := if 500 < load then (u.gridFt 4096 0 / 65536 + 1) * 65536 else (u.gridFt 4096 0 / 8192 + 1) * 8192 }
      else u := by
  simp [doCalWindow, ← hu, hs, hgrid, htrained, hon, Nat.not_lt.2 hfree]

/-! ### Sideband faults (14 R414) -/

/-- The state in which a channel's faulty sideband is isolated and its pin fault noted, with a free value taken. -/
def State.sidebandIsolated (s : State) (c : Nat) : State :=
  ((s.onChannel c fun x => { x with sidebandBad := true }).pinFault (32 + c)).useFree

theorem doSidebandFault_working (hs : s.fatal = false) (hdone : s.dram.done = true) (hgood : (s.channel c).sidebandBad = false)
    (hon : s.channelOn c = true) : doSidebandFault c s =
      ((s.sidebandIsolated c).channelLog 5 c (Config.freeNat ((s.sidebandIsolated c).free - 1) % 5)).raise (memSource c 3) c 0 .dev := by
  simp only [doSidebandFault, hs, hdone, hgood, hon, Bool.not_true, Bool.or_self, Bool.false_eq_true, if_false]
  rfl

/-! ### The rows of O11 -/

theorem exec_dramTrained (found : List ChannelPop) (s : State) : exec (.dramTrained found) s = .next (doDramTrained found s) := rfl
theorem exec_refresh (c r : Nat) (s : State) : exec (.refresh c r) s = .next (s.backFrom (doRefresh c r (s.seenFrom (c / 3)))) := rfl
theorem exec_forcedRefresh (c r : Nat) (s : State) : exec (.forcedRefresh c r) s = .next (doForcedRefresh c r s) := rfl
theorem exec_calWindow (c load : Nat) (h0 h1 : Bool) (s : State) :
    exec (.calWindow c h0 h1 load) s = .next (s.backFrom (doCalWindow c h0 h1 load (s.seenFrom (c / 3)))) := rfl
theorem exec_sidebandFault (c : Nat) (s : State) : exec (.sidebandFault c) s = .next (doSidebandFault c s) := rfl

/-- Settles O11: each row on a channel that it acts on, its instants by the die's own counter. -/
theorem memoryIsTrainedAndRefreshed : Obligations.MemoryIsTrainedAndRefreshed := by
  unfold Obligations.MemoryIsTrainedAndRefreshed
  refine ⟨?trained, ?refresh, ?forced, ?window, ?ended, ?sideband⟩
  case trained =>
    intro s found hs hdone hstage hpower hlen
    rw [exec_dramTrained, doDramTrained_first hs hdone hstage hpower hlen]
  case refresh =>
    rintro s0 _ c r rfl hr
    rw [exec_refresh, doRefresh_of_refreshing hr]
  case forced =>
    intro s c r t hr hmem hdue
    rw [exec_forcedRefresh, doForcedRefresh_due hr hmem hdue]
  case window =>
    rintro s0 _ c load h0 h1 u rfl hu hs hgrid htrained hon hfree
    rw [exec_calWindow, doCalWindow_inSlot hu hs hgrid htrained hon hfree]
  case ended => exact fun s c k hcmd hleft huntil => State.calEnds_over hcmd hleft huntil
  case sideband => exact fun s c hs hdone hgood hon => congrArg Host.Outcome.next (doSidebandFault_working hs hdone hgood hon)

/-! ### Passes and reads of the scrubber (14 R401 R410) -/

theorem doScrubPass_starts {left : Nat} (hu : u = s.scrubTake) (hs : u.fatal = false) (hgrid : u.onGrid u.dram.scrubPeriod 0 = true)
    (hr : u.refreshing c 0 = true) (hnew : (u.channel c).scrubStart ≠ some (u.gridFt u.dram.scrubPeriod 0))
    (hleft : left = if (u.channel c).scrubStart = none then 0 else (u.channel c).lines - (u.channel c).scrubNext) :
    doScrubPass c s = (if left = 0 then u else u.countBy Ct.ddr (512 + c) 1 left).onChannel c fun x => { x with
      scrubStart := some (u.gridFt u.dram.scrubPeriod 0), scrubNext := 0, scrubPass := min x.lines (x.scrubPass + left) } := by
  have hgridFt : (if left = 0 then u else u.countBy Ct.ddr (512 + c) 1 left).gridFt u.dram.scrubPeriod 0 = u.gridFt u.dram.scrubPeriod 0 := by
    split <;> rfl
  simp only [doScrubPass, ← hu, hs, hgrid, hr, beq_eq_false_iff_ne.2 hnew, Bool.not_true, Bool.or_self, Bool.false_eq_true, if_false]
  cases hstart : (u.channel c).scrubStart with
  | none =>
    obtain rfl : left = 0 := by simp [hleft, hstart]
    simp
  | some t =>
    obtain rfl : left = (u.channel c).lines - (u.channel c).scrubNext := by simp [hleft, hstart]
    simp only [hgridFt]

/-- The scrubber's place moved past line `i`, and the errors that stood in the line taken with it. -/
def State.scrubbed (s : State) (c i : Nat) : State :=
  (s.onChannel c fun x => if 0 < x.scrubPass then { x with scrubPass := x.scrubPass - 1 } else { x with scrubNext := i + 1 }).onDram
    fun d => { d with faults := d.faults.del (c * 2 ^ 34 + i) }

/-- A channel's modules are what they were after a change that leaves them. -/
theorem State.channel_onChannel_pop {f : ChannelSt → ChannelSt} (hf : ∀ x, (f x).pop = x.pop) (j : Nat) :
    ((s.onChannel c f).channel j).pop = (s.channel j).pop := by
  simp only [State.channel, State.onChannel, State.onDram_dram, modAt, List.getD_eq_getElem?_getD, List.getElem?_modify]
  cases s.dram.channels[j]? with
  | none => rfl
  | some x => by_cases h : c = j <;> simp [h, hf]

theorem State.lineRank_onChannel {f : ChannelSt → ChannelSt} (hf : ∀ x, (f x).pop = x.pop) (k : Nat) :
    (s.onChannel c f).lineRank k = s.lineRank k := by
  simp only [State.lineRank, State.channel_onChannel_pop hf]

/-- The scrubber reads the line that is due, with the errors that its devices give. -/
theorem doScrubRead_due {r sub i rank sb : Nat} {errors : Bytes} {l : List (List Nat)} (hs : s.fatal = false)
    (hr : s.refreshing c r = true) (hperiod : s.dram.scrubPeriod ≠ 0) (hline : s.scrubLine c = some i)
    (hrank : rank = (s.lineRank (c * 2 ^ 34 + i)).1) (hsb : sb = (s.lineRank (c * 2 ^ 34 + i)).2) (hu : u = s.scrubbed c i)
    (hl : l = lineCodewords (u.lineBytes (c * 2 ^ 34 + i)) (s.lineErrors (c * 2 ^ 34 + i) (burstSymbols errors))
      (s.dram.poison.contains (c * 2 ^ 34 + i))) :
    doScrubRead c r sub errors s = match decodeLine l with
      | .poisoned => u
      | .uncorrectable => ((u.setLine (c * 2 ^ 34 + i) (lineData l [])).count Ct.ddr (rankIndex c rank sb) 4).foundUe c rank sb 0 (64 * i)
      | .good [] => u
      | .good m => (u.setLine (c * 2 ^ 34 + i) (lineData l m)).correctLine (c * 2 ^ 34 + i) rank sb 0 3 m := by
  have hkeep : ∀ x : ChannelSt, (if 0 < x.scrubPass then { x with scrubPass := x.scrubPass - 1 } else { x with scrubNext := i + 1 }).pop =
      x.pop := fun x => by split <;> rfl
  subst hrank hsb hl hu
  simp only [doScrubRead, hs, hr, hline, beq_eq_false_iff_ne.2 hperiod, Bool.not_true, Bool.or_self, Bool.false_eq_true, if_false,
    State.lineRank_onChannel hkeep] <;> rfl

theorem State.lineBytes_length (s : State) (k : Nat) : (s.lineBytes k).length = 64 := by simp [State.lineBytes]

/-- A line that its devices give without errors, and in which none stand, is left as it is. -/
theorem doScrubRead_clean {r i : Nat} (hs : s.fatal = false) (hr : s.refreshing c r = true) (hperiod : s.dram.scrubPeriod ≠ 0)
    (hline : s.scrubLine c = some i) (hfault : s.dram.faults.get (c * 2 ^ 34 + i) = none) (sub : Nat) :
    doScrubRead c r sub (zeros 80) s = s.scrubbed c i := by
  have hburst : burstSymbols (zeros 80) = zeros 80 := by decide +kernel
  rw [doScrubRead_due hs hr hperiod hline rfl rfl rfl rfl]
  simp only [State.lineErrors, hfault, hburst]
  cases s.dram.poison.contains (c * 2 ^ 34 + i) with
  | true => rw [decodeLine_of_poisoned]
  | false =>
    obtain ⟨hgood, -⟩ := decodeLine_of_oneDevice (errors := zeros 80) (p := 0)
      ((s.scrubbed c i).lineBytes_length (c * 2 ^ 34 + i)) (by decide) fun j _ => byteAt_zeros 80 j
    rw [hgood, deviceFixes_zeros]

theorem doCeWriteback_working (hs : s.fatal = false) (hr : s.refreshing c 0 = true) :
    doCeWriteback c s = s.onChannel c fun x => { x with writebacks := x.writebacks.drop 1 } := by
  simp [doCeWriteback, hs, hr]

/-! ### The commands (14 R409 R410) -/

section
variable {cc : Cmd} {who : Caller}

theorem doDiagScrubSet_accepted (h : s.accepts 0x0E05 cc who false true true = true) : doDiagScrubSet cc s =
    if cmdLe cc 16 8 = 0 then
      ((s.taken 0x0E05 cc).onDram fun d => { d with
        scrubPeriod := 0, scrubPend := none
        channels := d.channels.map fun x => { x with scrubStart := none, scrubPass := 0 } }).answer 0x0E05 cc Answer.ok
    else if 3600000000000 ≤ cmdLe cc 16 8 ∧ cmdLe cc 16 8 ≤ 2592000000000000 then
      ((s.taken 0x0E05 cc).onDram fun d => { d with scrubPend := some (cmdLe cc 16 8) }).answer 0x0E05 cc Answer.ok
    else (s.taken 0x0E05 cc).answer 0x0E05 cc (Answer.just St.badParam) := by
  refine (State.sf_accepted h).trans ?_
  by_cases h0 : cmdLe cc 16 8 = 0
  · simp only [h0, ne_eq, not_true_eq_false, false_and, if_false, if_true]
    rfl
  · by_cases hrange : 3600000000000 ≤ cmdLe cc 16 8 ∧ cmdLe cc 16 8 ≤ 2592000000000000
    · have hnot : ¬(cmdLe cc 16 8 ≠ 0 ∧ (cmdLe cc 16 8 < 3600000000000 ∨ 2592000000000000 < cmdLe cc 16 8)) := by omega
      simp only [if_neg hnot, if_neg h0, if_pos hrange]
      rfl
    · have hbad : cmdLe cc 16 8 ≠ 0 ∧ (cmdLe cc 16 8 < 3600000000000 ∨ 2592000000000000 < cmdLe cc 16 8) := by omega
      simp only [if_pos hbad, if_neg h0, if_neg hrange]
      rfl

variable (h : s.accepts 0x0E04 cc who false true true = true)
include h

theorem doDiagDramCal_idle (htrained : ((s.taken 0x0E04 cc).channel cc.target.toNat).trained = true)
    (hidle : ((s.taken 0x0E04 cc).channel cc.target.toNat).calCmd = none) :
    doDiagDramCal cc s = (s.taken 0x0E04 cc).onChannel cc.target.toNat fun x =>
      { x with calLeft := 64, calNext := (s.taken 0x0E04 cc).ft, calCmd := some cc } := by
  refine (State.sf_accepted h).trans ?_
  simp only [htrained, hidle, Option.isSome_none, Bool.not_true, Bool.or_self, Bool.false_eq_true, if_false]

theorem doDiagDramCal_refused (hbad : ((s.taken 0x0E04 cc).channel cc.target.toNat).trained = false ∨
      ((s.taken 0x0E04 cc).channel cc.target.toNat).calCmd ≠ none) :
    doDiagDramCal cc s = (s.taken 0x0E04 cc).answer 0x0E04 cc (Answer.just St.badState) := by
  have hcond : (!((s.taken 0x0E04 cc).channel cc.target.toNat).trained ||
      ((s.taken 0x0E04 cc).channel cc.target.toNat).calCmd.isSome) = true := by
    simpa [Option.isSome_iff_ne_none] using hbad
  refine (State.sf_accepted h).trans ?_
  simp only [hcond, if_true]
  rfl

end

/-! ### The rows of O12 -/

theorem exec_scrubPass (c : Nat) (s : State) : exec (.scrubPass c) s = .next (s.backFrom (doScrubPass c (s.seenFrom (c / 3)))) := rfl
theorem exec_scrubRead (c r sub : Nat) (errors : Bytes) (s : State) :
    exec (.scrubRead c r sub errors) s = .next (s.backFrom (doScrubRead c r sub errors (s.seenFrom (c / 3)))) := rfl
theorem exec_ceWriteback (c : Nat) (s : State) : exec (.ceWriteback c) s = .next (doCeWriteback c s) := rfl

/-- Settles O12: a pass at its instant, a line read as its codewords decode, and the commands by their acceptance. -/
theorem scrubbingAndItsCommands : Obligations.ScrubbingAndItsCommands := by
  unfold Obligations.ScrubbingAndItsCommands
  refine ⟨?pass, ?read, ?clean, ?writeback, ?set, ?calibrate, ?refused⟩
  case pass =>
    rintro s0 _ c left u rfl hu hs hgrid hr hnew hleft
    rw [exec_scrubPass, doScrubPass_starts hu hs hgrid hr hnew hleft]
  case read =>
    rintro s0 _ c r sub i rank sb errors u l rfl hs hr hperiod hline hrank hsb hu hl
    exact congrArg (fun v => Host.Outcome.next (s0.backFrom v)) (doScrubRead_due hs hr hperiod hline hrank hsb hu hl)
  case clean =>
    rintro s0 _ c r sub i rfl hs hr hperiod hline hfault
    exact congrArg (fun v => Host.Outcome.next (s0.backFrom v)) (doScrubRead_clean hs hr hperiod hline hfault sub)
  case writeback => exact fun s c hs hr => congrArg Host.Outcome.next (doCeWriteback_working hs hr)
  case set => exact fun s c who h => congrArg Host.Outcome.next (doDiagScrubSet_accepted h)
  case calibrate => exact fun s c who h htrained hidle => congrArg Host.Outcome.next (doDiagDramCal_idle h htrained hidle)
  case refused => exact fun s c who h hbad => congrArg Host.Outcome.next (doDiagDramCal_refused h hbad)

end Sys2Proof.Machine
end

section
/-! SUPPORT. The stages of boot (15 R416 R422 to R431, 19 R523): ROM, the probes of the media, Buckram's boot and the end of a push; O21 from
these. -/

namespace Sys2Proof.Machine

variable {s : State} {straps : Straps} {media : List Medium}

/-! ### ROM (15 R422 R423, 19 R523) -/

/-- ROM has the device: its stage, outside FATAL, with power, and no reset held or thermal trip. -/
structure RomRuns (s : State) : Prop where
  stage : s.boot.stage = .rom
  fatal : s.fatal = false
  power : s.power.dev ≠ .off
  held : s.pins.heldReset = false
  trip : s.pins.thermTrip = false

theorem RomRuns.gate (h : RomRuns s) :
    (s.boot.stage != .rom || s.fatal || s.power.dev == .off || s.pins.heldReset || s.pins.thermTrip) = false := by
  simp [h.stage, h.fatal, h.power, h.held, h.trip]

theorem State.romBegan_iff : s.romBegan = true ↔ s.trust.mrCount.getD 0 0 ≠ 0 := bne_iff_ne

theorem doRomBoot_hot (h : RomRuns s) (hhot : 100 ≤ s.power.tj) :
    doRomBoot straps media s = s.onPins fun p => { p with heldReset := true, sysRst := false } := by
  rw [doRomBoot, h.gate, if_neg Bool.false_ne_true, if_pos hhot]

theorem doRomBoot_first (h : RomRuns s) (hcool : s.power.tj < 100) (hfirst : s.trust.mrCount.getD 0 0 = 0) :
    doRomBoot straps media s =
      if (s.romStart straps (media.any fun m => m.source == 1 && m.present)).trust.lc = 5
        then (s.romStart straps (media.any fun m => m.source == 1 && m.present)).onBoot fun z => { z with stage := .retired }
        else s.romStart straps (media.any fun m => m.source == 1 && m.present) := by
  have hbegan : (!s.romBegan) = true := by
    rw [Bool.not_eq_true', ← Bool.not_eq_true, State.romBegan_iff, not_not, hfirst]
  rw [doRomBoot, h.gate, if_neg Bool.false_ne_true, if_neg (Nat.not_le.2 hcool), if_pos hbegan]

theorem doRomBoot_next (h : RomRuns s) (hcool : s.power.tj < 100) (hnext : s.trust.mrCount.getD 0 0 ≠ 0)
    (hclk : s.pins.sysclk = true) :
    doRomBoot straps media s = (s.takeMedia media).trySources 1 media (fun u j => u.startBuckram j) s.bootOrder := by
  have hbegan : (!s.romBegan) = false := by rw [State.romBegan_iff.2 hnext]; rfl
  rw [doRomBoot, h.gate, if_neg Bool.false_ne_true, if_neg (Nat.not_le.2 hcool), hbegan, if_neg Bool.false_ne_true]
  simp only [hclk, Bool.not_true, Bool.false_eq_true, if_false]

/-! ### Probes, Buckram and pushes (15 R416 R425 R430 R431) -/

theorem doBootSourceProbeTimeout_over {x : Nat} (hs : s.fatal = false)
    (hstage : (s.boot.stage = .rom ∧ s.trust.mrCount.getD 0 0 ≠ 0) ∨ s.boot.stage = .buckram) (hx : x < 2) (hnew : x ∉ s.boot.probed)
    (horder : x ∈ s.bootOrder) (hover : s.boot.probeFrom + (if x = 0 then 1000000 else 100000000) ≤ s.time.osc) :
    doBootSourceProbeTimeout x s =
      (s.bootLog 18 0 x 0 1).onBoot fun z => { z with probed := z.probed ++ [x], probeFrom := s.time.osc } := by
  have hrun : ((s.boot.stage == .rom && s.romBegan) || s.boot.stage == .buckram) = true := by
    simpa [State.romBegan_iff] using hstage
  have hprobed : s.boot.probed.contains x = false := by simpa using hnew
  have hin : s.bootOrder.contains x = true := by simpa using horder
  have hgate : (s.fatal || !((s.boot.stage == .rom && s.romBegan) || s.boot.stage == .buckram) || 2 ≤ x || s.boot.probed.contains x
      || !s.bootOrder.contains x || s.time.osc < s.boot.probeFrom + (if x = 0 then 1000000 else 100000000)) = false := by
    simp only [hs, hrun, hprobed, hin, Nat.not_le.2 hx, Nat.not_lt.2 hover, decide_false, Bool.not_true, Bool.or_self]
  exact if_neg (by simp only [hgate, Bool.false_eq_true, not_false_iff])

/-- Buckram runs, with DRAM trained on the main rails. -/
structure BuckramRuns (s : State) : Prop where
  fatal : s.fatal = false
  stage : s.boot.stage = .buckram
  trained : s.dram.done = true
  rails : s.pins.mainPwrOk = true
  power : s.power.dev = .run

theorem doBuckramBoot_of_runs (h : BuckramRuns s) : doBuckramBoot media s = match (List.range 4).find? s.tileTrained with
    | none => ((s.bootLog 25 0 s.boot.sourceBk 0 0).bootLog 19 0 s.boot.sourceBk 0 0).onBoot fun z =>
        { z with stage := .recovery true, refused := true }
    | some t => (((s.placeRegions t).onBoot fun z => { z with codeRegion := 0, refused := false }).takeMedia media).trySources 0 media
        (fun v j => v.startSf j 0) ((s.placeRegions t).onBoot fun z => { z with codeRegion := 0, refused := false }).boot.left := by
  have hgate : (s.fatal || s.boot.stage != .buckram || !s.dram.done || !s.pins.mainPwrOk || s.power.dev != .run) = false := by
    simp [h.fatal, h.stage, h.trained, h.rails, h.power]
  refine (if_neg (by simp only [hgate, Bool.false_eq_true, not_false_iff])).trans ?_
  cases (List.range 4).find? s.tileTrained <;> rfl

theorem doPushTimeout_over {src till : Nat} {sf : Bool} (hstage : s.boot.stage = .push src till sf) (hs : s.fatal = false)
    (hover : till ≤ s.ft) : doPushTimeout s =
      if sf then (s.bootLog 18 0 src 0 3).trySources 0 [] (fun v j => v.startSf j 0) s.boot.left
      else (s.bootLog 18 0 src 0 3).trySources 1 [] (fun v j => v.startBuckram j) s.boot.left := by
  have hgate : (s.fatal || decide (s.ft < till)) = false := by simp [hs, hover]
  have hboot : (s.bootLog 18 0 src 0 3).boot = s.boot := State.onEv_boot ..
  simp only [doPushTimeout, hstage, hgate, hboot, Bool.false_eq_true, if_false]

/-! ### The rows -/

theorem exec_romBoot (straps : Straps) (media : List Medium) (s : State) :
    exec (.romBoot straps media) s = .next (doRomBoot straps media s) := rfl
theorem exec_bootSourceProbeTimeout (x : Nat) (s : State) :
    exec (.bootSourceProbeTimeout x) s = .next (doBootSourceProbeTimeout x s) := rfl
theorem exec_buckramBoot (media : List Medium) (s : State) : exec (.buckramBoot media) s = .next (doBuckramBoot media s) := rfl
theorem exec_pushTimeout (s : State) : exec .pushTimeout s = .next (doPushTimeout s) := rfl

/-- Settles O21: ROM's two rows by temperature and by whether it has begun, then each later stage where it may act. -/
theorem bootStages : Obligations.BootStages := by
  unfold Obligations.BootStages
  refine ⟨?first, ?hot, ?next, ?probe, ?noTile, ?tile, ?push⟩
  case first =>
    rintro s straps media _ hstage hs hpower hheld htrip hcool hfirst rfl
    rw [exec_romBoot, doRomBoot_first ⟨hstage, hs, hpower, hheld, htrip⟩ hcool hfirst]
  case hot =>
    intro s straps media hstage hs hpower hheld htrip hhot
    rw [exec_romBoot, doRomBoot_hot ⟨hstage, hs, hpower, hheld, htrip⟩ hhot]
  case next =>
    intro s straps media hstage hs hpower hheld htrip hcool hnext hclk
    rw [exec_romBoot, doRomBoot_next ⟨hstage, hs, hpower, hheld, htrip⟩ hcool hnext hclk]
  case probe =>
    intro s x hs hstage hx hnew horder hover
    rw [exec_bootSourceProbeTimeout, doBootSourceProbeTimeout_over hs hstage hx hnew horder hover]
  case noTile =>
    intro s media hs hstage htrained hrails hpower hnone
    rw [exec_buckramBoot, doBuckramBoot_of_runs ⟨hs, hstage, htrained, hrails, hpower⟩]
    simp only [hnone]
  case tile =>
    rintro s media t _ hs hstage htrained hrails hpower hsome rfl
    rw [exec_buckramBoot, doBuckramBoot_of_runs ⟨hs, hstage, htrained, hrails, hpower⟩]
    simp only [hsome]
  case push =>
    intro s src till sf hstage hs hover
    rw [exec_pushTimeout, doPushTimeout_over hstage hs hover]

end Sys2Proof.Machine
end

section
/-! SUPPORT. The field update of a slot (15 R435 to R438) and the measurements (17 R475): what each command answers where it passes its checks;
O17, O18 and O19 from these. -/

namespace Sys2Proof.Machine

variable {s u : State} {c : Cmd} {who : Caller} {b : Bytes}

/-! ### FW_ABORT (15 R438) -/

theorem doFwAbort_accepted (h : s.accepts 0x0906 c who false true false = true) : doFwAbort c s =
    if ((s.taken 0x0906 c).imgSlot c.target.toNat).writing then
      ((s.taken 0x0906 c).onSlot c.target.toNat fun x =>
        { x with manifest := none, writing := false, held := none, received := [] }).answer 0x0906 c Answer.ok
    else (s.taken 0x0906 c).answer 0x0906 c (Answer.just St.badState) := by
  refine (State.sf_accepted h).trans ?_
  cases hw : ((s.taken 0x0906 c).imgSlot c.target.toNat).writing
  · simp only [hw, Bool.false_eq_true, if_false]
    rfl
  · simp only [hw, if_true]
    rfl

/-- Settles O17: the acceptance gives its one effect, by whether the slot is WRITING. -/
theorem fwAbortEndsAWrite : Obligations.FwAbortEndsAWrite := by
  unfold Obligations.FwAbortEndsAWrite
  exact fun s c who h => congrArg Host.Outcome.next (doFwAbort_accepted h)

/-! ### SEC_MEASURE_READ (17 R475) -/

/-- A structure of its own length is read whole. -/
theorem sliceZ_whole (b : Bytes) : sliceZ b 0 b.length = b := by simpa using sliceZ_field [] b []

/-- Four registers and their counts, in their order. -/
theorem TrustSt.measurements_four {t : TrustSt} {a b d e : Bytes} {i j k l : Nat} (hmr : t.mr = [a, b, d, e])
    (hcount : t.mrCount = [i, j, k, l]) (ha : a.length = 64) (hb : b.length = 64) (hd : d.length = 64) (he : e.length = 64) :
    t.measurements = a ++ b ++ d ++ e ++ toLe 4 i ++ toLe 4 j ++ toLe 4 k ++ toLe 4 l := by
  have whole {m : Bytes} (hm : m.length = 64) : sliceZ m 0 64 = m := by rw [← hm, sliceZ_whole]
  simp [TrustSt.measurements, hmr, hcount, whole ha, whole hb, whole hd, whole he]

theorem bkSecMeasureRead_accepted (hpre : s.precheck 0x0A06 c who true false true false true true = none) :
    bkSecMeasureRead c who s = s.bkAnswer 0x0A06 c { Answer.ok with data := s.trust.measurements } :=
  State.bkApply_accepted hpre

/-- Settles O18: Buckram's turn gives the registers and counts as they stand. -/
theorem measurementsAreReadWhole : Obligations.MeasurementsAreReadWhole := by
  unfold Obligations.MeasurementsAreReadWhole
  intro s c who env a b d e i j k l h hmr hcount ha hb hd he
  refine ⟨thenBuckram_of_bkAccepts h rfl ?_, by simp [ha, hb, hd, he]⟩
  rw [← TrustSt.measurements_four hmr hcount ha hb hd he]
  exact bkSecMeasureRead_accepted (State.precheck_of_bkAccepts h)

/-! ### FW_INFO and FW_WRITE (15 R435 R436) -/

theorem State.slotInfo_length (s : State) (j : Nat) : (s.slotInfo j).length = 16 := by simp [State.slotInfo, zeros]

theorem State.fwInfo_length (s : State) : s.fwInfo.length = 96 := by
  simp [State.fwInfo, zeros, State.slotInfo_length, List.range_succ]

theorem doFwInfo_accepted (h : s.accepts 0x0901 c who false true false = true) :
    doFwInfo c s = (s.taken 0x0901 c).useFree.answer 0x0901 c { Answer.ok with data := (s.taken 0x0901 c).fwInfo } :=
  State.sf_accepted h

theorem doFwWrite_accepted (h : s.accepts 0x0902 c who false true false = true) :
    doFwWrite c s = ((s.taken 0x0902 c).fwWrite c).1.answer 0x0902 c ((s.taken 0x0902 c).fwWrite c).2 :=
  State.sf_accepted h

section
variable (hbuf : cmdRbuf c = false) (hdesc : fwDescOk c = true) (hread : c.pbErr = none) (hlen : c.data.length = 65536)
include hbuf hdesc hread hlen

/-- A block that does not match its CRC is not stored. -/
theorem State.fwWrite_crcErr (hcrc : crc32c 0xFFFFFFFF c.data ≠ cmdLe c 20 4) : s.fwWrite c = (s, Answer.just St.crcErr) := by
  simp [State.fwWrite, hbuf, hdesc, hread, hlen, hcrc]

variable (hcrc : crc32c 0xFFFFFFFF c.data = cmdLe c 20 4) (htrial : c.target.toNat < 2 → s.trialOpen = false)
  (hactive : s.slotActive c.target.toNat = false) (hpush : s.pushComp.any (fun k => k != c.target.toNat / 2) = false)
include hcrc htrial hactive hpush

/-- A block that matches its CRC, of an inactive slot that the stage admits, is the manifest or a payload block that it counts. -/
theorem State.fwWrite_block : s.fwWrite c =
    if cmdLe c 16 4 = 0 then
      (((s.onSlot c.target.toNat fun x => { x with
        manifest := none, words := [], writing := true, verified := false, held := some c.data, received := [] }).pushBlock
          c.target.toNat 0 (List.replicate 65536 0xFF)).pushBlock c.target.toNat (slotLast c.target.toNat) (recordBytes []), Answer.ok)
    else match (s.imgSlot c.target.toNat).held with
      | none => (s, Answer.just St.badState)
      | some b =>
        if mfBlocks b < cmdLe c 16 4 || maxBlocks (c.target.toNat / 2) < cmdLe c 16 4 then (s, Answer.just St.badParam)
        else
          let got := if (s.imgSlot c.target.toNat).received.contains (cmdLe c 16 4) then (s.imgSlot c.target.toNat).received
            else (s.imgSlot c.target.toNat).received ++ [cmdLe c 16 4]
          ((s.onSlot c.target.toNat fun x => { x with
            manifest := none, payload := Tab.set x.payload (cmdLe c 16 4) c.data, received := got
            writing := true, verified := false }).pushBlock c.target.toNat (cmdLe c 16 4) c.data, Answer.ok got.length) := by
  have hform : (cmdRbuf c || !fwDescOk c) = false := by simp [hbuf, hdesc]
  have hbytes : (c.data.length != 65536) = false := by simp [hlen]
  have hmatch : (crc32c 0xFFFFFFFF c.data != cmdLe c 20 4) = false := by simp [hcrc]
  have hopen : (decide (c.target.toNat < 2) && s.trialOpen) = false := by
    by_cases ht : c.target.toNat < 2 <;> simp [ht, htrial]
  simp only [State.fwWrite, hform, hread, hbytes, hmatch, hopen, hactive, hpush, Option.isNone_none, Option.isSome_none, Bool.true_and,
    Bool.or_self, Bool.false_eq_true, if_false] <;>
    (cases (s.imgSlot c.target.toNat).held <;> rfl)

end

/-! ### FW_VERIFY (15 R437) -/

section
variable (hpre : s.precheck 0x0903 c who true false true false true true = none) {media : Bool} {changed : List (Nat × Bytes)}
include hpre

theorem bkFwVerify_incomplete
    (hmissing : ((s.imgSlot c.target.toNat).held.all fun b => decide ((s.imgSlot c.target.toNat).received.length < mfBlocks b)) = true) :
    bkFwVerify c who media changed s = s.bkAnswer 0x0903 c (Answer.just St.badState) := by
  refine (State.bkApply_accepted hpre).trans ?_
  cases hheld : (s.imgSlot c.target.toNat).held with
  | none =>
    simp only [hheld]
    rfl
  | some b =>
    have hless : (s.imgSlot c.target.toNat).received.length < mfBlocks b := by simpa [hheld] using hmissing
    simp only [hheld, if_pos hless]
    rfl

variable (hheld : (s.imgSlot c.target.toNat).held = some b) (hall : mfBlocks b ≤ (s.imgSlot c.target.toNat).received.length)
include hheld hall

theorem bkFwVerify_mediumFails (hmedium : media = false ∨ s.pushReadable c.target.toNat = false) :
    bkFwVerify c who media changed s = (s.readPush c.target.toNat).bkAnswer 0x0903 c (Answer.just St.mediaErr) := by
  have hfails : (!media || !s.pushReadable c.target.toNat) = true := by simpa using hmedium
  refine (State.bkApply_accepted hpre).trans ?_
  simp only [hheld, if_neg (Nat.not_lt.2 hall), hfails, if_true]
  rfl

/-- A slot with every block is checked as its medium gives it again, and staged where the checks pass. -/
theorem bkFwVerify_checked (hmedia : media = true) (hreadable : s.pushReadable c.target.toNat = true)
    (hu : u = (s.readPush c.target.toNat).reread c.target.toNat changed) :
    bkFwVerify c who media changed s = match mfCheck u.trust.fuses u.trust.lc (c.target.toNat / 2) b, (u.imgSlot c.target.toNat).load b with
      | some r, _ => u.bkAnswer 0x0903 c (Answer.just (fwStatus r))
      | none, some r => u.bkAnswer 0x0903 c (Answer.just (fwStatus r))
      | none, none => (((u.onSlot c.target.toNat fun x =>
          { x with manifest := some b, verified := true, writing := false }).program c.target.toNat 0).pushBlock c.target.toNat 0 b).bkAnswer
            0x0903 c (Answer.ok (mfSeq b)) := by
  refine (State.bkApply_accepted hpre).trans ?_
  simp only [hheld, if_neg (Nat.not_lt.2 hall), hmedia, hreadable, ← hu, Bool.not_true, Bool.or_self, Bool.false_eq_true, if_false]
  cases mfCheck u.trust.fuses u.trust.lc (c.target.toNat / 2) b with
  | some r => rfl
  | none => cases (u.imgSlot c.target.toNat).load b <;> rfl

end

/-- Settles O19: the commands that service firmware answers by their acceptance, a block by its place, and a verification by Buckram's turn. -/
theorem fieldUpdateOfASlot : Obligations.FieldUpdateOfASlot := by
  unfold Obligations.FieldUpdateOfASlot
  refine ⟨?info, ?write, ?crcErr, ?manifest, ?payload, ?verify, ?incomplete, ?medium⟩
  case info => exact fun s c who h => ⟨congrArg Host.Outcome.next (doFwInfo_accepted h), State.fwInfo_length _⟩
  case write => exact fun s c who h => congrArg Host.Outcome.next (doFwWrite_accepted h)
  case crcErr => exact fun s c hbuf hdesc hread hlen hcrc => State.fwWrite_crcErr hbuf hdesc hread hlen hcrc
  case manifest =>
    intro s c hbuf hdesc hread hlen hcrc htrial hactive hpush hn
    rw [State.fwWrite_block hbuf hdesc hread hlen hcrc htrial hactive hpush, if_pos hn]
  case payload =>
    rintro s c b _ hbuf hdesc hread hlen hcrc htrial hactive hpush hheld hn hcount hmax rfl
    have hcounted : (decide (mfBlocks b < cmdLe c 16 4) || decide (maxBlocks (c.target.toNat / 2) < cmdLe c 16 4)) = false := by
      simp [hcount, hmax]
    rw [State.fwWrite_block hbuf hdesc hread hlen hcrc htrial hactive hpush, if_neg hn]
    simp only [hheld, hcounted, Bool.false_eq_true, if_false]
  case verify =>
    intro s c who env b u h hmedia hreadable hheld hall hu
    exact thenBuckram_of_bkAccepts h rfl (bkFwVerify_checked (State.precheck_of_bkAccepts h) hheld hall hmedia hreadable hu)
  case incomplete =>
    intro s c who env h hmissing
    exact thenBuckram_of_bkAccepts h rfl (bkFwVerify_incomplete (State.precheck_of_bkAccepts h) hmissing)
  case medium =>
    intro s c who env b h hmedium hheld hall
    exact thenBuckram_of_bkAccepts h rfl (bkFwVerify_mediumFails (State.precheck_of_bkAccepts h) hheld hall hmedium)

end Sys2Proof.Machine
end

section
/-! SUPPORT. What ending the functions of a host port leaves alone (13 R384 R385, 16 R457): the pins, and the state of each tile, through the ends
of operations, queues, connections and volumes that it brings. -/

namespace Sys2Proof.Machine

/-- The pins and the states of the tiles. -/
def State.pinsAndTiles (s : State) : PinSt × List TileState := (s.pins, s.power.tiles)

@[simp] theorem pinsAndTiles_ite (p : Prop) [Decidable p] (s t : State) :
    (if p then s else t).pinsAndTiles = if p then s.pinsAndTiles else t.pinsAndTiles := apply_ite ..

@[simp] theorem pinsAndTiles_foldl {α : Type} {f : State → α → State} (hf : ∀ s x, (f s x).pinsAndTiles = s.pinsAndTiles)
    (l : List α) (s : State) : (l.foldl f s).pinsAndTiles = s.pinsAndTiles := foldl_keeps State.pinsAndTiles f hf l s

theorem State.pinsAndTiles_of_beyondEvents {s t : State} (h : t.beyondEvents = s.beyondEvents) : t.pinsAndTiles = s.pinsAndTiles :=
  (congrArg State.pinsAndTiles h :)

variable {s : State}

/-! ### The parts of the state -/

@[simp] theorem State.pinsAndTiles_onFtu (f : FtuSt → FtuSt) : (s.onFtu f).pinsAndTiles = s.pinsAndTiles := rfl
@[simp] theorem State.pinsAndTiles_onFatal (f : Bool → Bool) : (s.onFatal f).pinsAndTiles = s.pinsAndTiles := rfl
@[simp] theorem State.pinsAndTiles_onMem (f : List Host.Cell → List Host.Cell) : (s.onMem f).pinsAndTiles = s.pinsAndTiles := rfl
@[simp] theorem State.pinsAndTiles_onDram (f : DramSt → DramSt) : (s.onDram f).pinsAndTiles = s.pinsAndTiles := rfl
@[simp] theorem State.pinsAndTiles_onHost (f : HostSt → HostSt) : (s.onHost f).pinsAndTiles = s.pinsAndTiles := rfl
@[simp] theorem State.pinsAndTiles_onQm (f : QmSt → QmSt) : (s.onQm f).pinsAndTiles = s.pinsAndTiles := rfl
@[simp] theorem State.pinsAndTiles_onCmd (f : CmdSt → CmdSt) : (s.onCmd f).pinsAndTiles = s.pinsAndTiles := rfl
@[simp] theorem State.pinsAndTiles_onDamask (f : DamaskSt → DamaskSt) : (s.onDamask f).pinsAndTiles = s.pinsAndTiles := rfl
@[simp] theorem State.pinsAndTiles_onTwill (f : TwillSt → TwillSt) : (s.onTwill f).pinsAndTiles = s.pinsAndTiles := rfl
@[simp] theorem State.pinsAndTiles_onKrm (f : KrmSt → KrmSt) : (s.onKrm f).pinsAndTiles = s.pinsAndTiles := rfl
@[simp] theorem State.pinsAndTiles_onBlk (f : BlkSt → BlkSt) : (s.onBlk f).pinsAndTiles = s.pinsAndTiles := rfl
@[simp] theorem State.pinsAndTiles_onCy (f : CySt → CySt) : (s.onCy f).pinsAndTiles = s.pinsAndTiles := rfl
@[simp] theorem State.pinsAndTiles_onDma (f : Tab DmaChan → Tab DmaChan) : (s.onDma f).pinsAndTiles = s.pinsAndTiles := rfl
@[simp] theorem State.pinsAndTiles_onCores (f : CoresSt → CoresSt) : (s.onCores f).pinsAndTiles = s.pinsAndTiles := rfl
@[simp] theorem State.pinsAndTiles_onBoot (f : BootSt → BootSt) : (s.onBoot f).pinsAndTiles = s.pinsAndTiles := rfl
@[simp] theorem State.pinsAndTiles_onTrust (f : TrustSt → TrustSt) : (s.onTrust f).pinsAndTiles = s.pinsAndTiles := rfl
@[simp] theorem State.pinsAndTiles_onEv (f : EvSt → EvSt) : (s.onEv f).pinsAndTiles = s.pinsAndTiles := rfl
@[simp] theorem State.pinsAndTiles_onCt (f : CtSt → CtSt) : (s.onCt f).pinsAndTiles = s.pinsAndTiles := rfl
@[simp] theorem State.pinsAndTiles_onOut (f : List Out → List Out) : (s.onOut f).pinsAndTiles = s.pinsAndTiles := rfl
@[simp] theorem State.pinsAndTiles_onFree (f : Nat → Nat) : (s.onFree f).pinsAndTiles = s.pinsAndTiles := rfl

/-- Power changed in all but the tiles. -/
theorem State.pinsAndTiles_onPower {f : PowerSt → PowerSt} (hf : (f s.power).tiles = s.power.tiles) :
    (s.onPower f).pinsAndTiles = s.pinsAndTiles := by
  simp [State.pinsAndTiles, hf]

/-! ### Memory, counters, the log and events -/

@[simp] theorem State.pinsAndTiles_pokeBytes (a : Nat) (bs : Bytes) : (s.pokeBytes a bs).pinsAndTiles = s.pinsAndTiles :=
  State.pinsAndTiles_of_beyondEvents (s.pokeBytes_beyondEvents ..)

@[simp] theorem State.pinsAndTiles_cleanLines (a n : Nat) : (s.cleanLines a n).pinsAndTiles = s.pinsAndTiles :=
  State.pinsAndTiles_of_beyondEvents (s.cleanLines_beyondEvents ..)

@[simp] theorem State.pinsAndTiles_coreRecord (tile : Nat) (b : Bytes) : (s.coreRecord tile b).pinsAndTiles = s.pinsAndTiles :=
  State.pinsAndTiles_of_beyondEvents (s.coreRecord_beyondEvents ..)

@[simp] theorem State.pinsAndTiles_logRecord (kind : Nat) (parts : List (Nat × Bytes)) :
    (s.logRecord kind parts).pinsAndTiles = s.pinsAndTiles :=
  State.pinsAndTiles_of_beyondEvents (s.logRecord_beyondEvents ..)

@[simp] theorem State.pinsAndTiles_raise (src obj detail : Nat) (sc : Scope) : (s.raise src obj detail sc).pinsAndTiles = s.pinsAndTiles :=
  State.pinsAndTiles_of_beyondEvents (s.raise_beyondEvents ..)

@[simp] theorem State.pinsAndTiles_countBy (kind index word n : Nat) : (s.countBy kind index word n).pinsAndTiles = s.pinsAndTiles := by
  simp [State.countBy]

@[simp] theorem State.pinsAndTiles_count (kind index word : Nat) : (s.count kind index word).pinsAndTiles = s.pinsAndTiles := by
  simp [State.count]

@[simp] theorem State.pinsAndTiles_dropCounters (kind index : Nat) : (s.dropCounters kind index).pinsAndTiles = s.pinsAndTiles := by
  simp [State.dropCounters]

@[simp] theorem State.pinsAndTiles_dropRegion (k : Nat) : (s.dropRegion k).pinsAndTiles = s.pinsAndTiles := by
  simp [State.dropRegion]

@[simp] theorem State.pinsAndTiles_emit (o : Out) : (s.emit o).pinsAndTiles = s.pinsAndTiles := by
  simp [State.emit]

@[simp] theorem State.pinsAndTiles_areaWrite (region off : Nat) (b : Bytes) : (s.areaWrite region off b).pinsAndTiles = s.pinsAndTiles := by
  unfold State.areaWrite
  split <;> simp

@[simp] theorem State.pinsAndTiles_wipeKeyRecord (idx : Nat) : (s.wipeKeyRecord idx).pinsAndTiles = s.pinsAndTiles := by
  simp [State.wipeKeyRecord]

@[simp] theorem State.pinsAndTiles_enterFatal (cause die addr : Nat) : (s.enterFatal cause die addr).pinsAndTiles = s.pinsAndTiles := by
  simp [State.enterFatal]

/-! ### Completions, replies and frames -/

@[simp] theorem State.pinsAndTiles_onQueue (qid : Nat) (f : Queue → Queue) : (s.onQueue qid f).pinsAndTiles = s.pinsAndTiles := by
  simp [State.onQueue]

@[simp] theorem State.pinsAndTiles_deliver (c : Compl) : (s.deliver c).pinsAndTiles = s.pinsAndTiles := by
  unfold State.deliver
  split <;> simp

@[simp] theorem State.pinsAndTiles_release (qid n : Nat) : (s.release qid n).pinsAndTiles = s.pinsAndTiles := by
  induction n generalizing s with
  | zero => rfl
  | succ n ih =>
    unfold State.release
    repeat' split
    all_goals simp [ih]

@[simp] theorem State.pinsAndTiles_finish (qid idx : Nat) (c : Compl) (status bytes : Nat) :
    (s.finish qid idx c status bytes).pinsAndTiles = s.pinsAndTiles := by
  unfold State.finish
  split <;> simp

@[simp] theorem State.pinsAndTiles_finishOp (n status bytes c12 ft : Nat) (tail : Bytes) :
    (s.finishOp n status bytes c12 ft tail).pinsAndTiles = s.pinsAndTiles := by
  unfold State.finishOp
  repeat' split
  all_goals simp

@[simp] theorem State.pinsAndTiles_reply (code : Nat) (c : Cmd) (byBk : Bool) (a : Answer) :
    (s.reply code c byBk a).pinsAndTiles = s.pinsAndTiles := by
  obtain ⟨-, -, -, -, -, -, -, -, -, -, -, -, -, -, hpower, -, -, hpins⟩ := s.reply_frame code c byBk a
  simp only [State.pinsAndTiles, hpower, hpins]

@[simp] theorem State.pinsAndTiles_sampleRec (f : RxFrame) (out drop dest : Nat) :
    (s.sampleRec f out drop dest).pinsAndTiles = s.pinsAndTiles := by
  simp [State.sampleRec]

@[simp] theorem State.pinsAndTiles_txEnd (n status bytes ft frac port : Nat) :
    (s.txEnd n status bytes ft frac port).pinsAndTiles = s.pinsAndTiles := by
  unfold State.txEnd
  split <;> simp

@[simp] theorem State.pinsAndTiles_sampleTw (f : TwFrame) (out drop dest : Nat) :
    (s.sampleTw f out drop dest).pinsAndTiles = s.pinsAndTiles := by
  unfold State.sampleTw
  repeat' split
  all_goals simp

@[simp] theorem State.pinsAndTiles_discardTw (tile : Nat) (f : TwFrame) (word status : Nat) :
    (s.discardTw tile f word status).pinsAndTiles = s.pinsAndTiles := by
  unfold State.discardTw
  split <;> simp

@[simp] theorem State.pinsAndTiles_dropSource (qid : Nat) : (s.dropSource qid).pinsAndTiles = s.pinsAndTiles := by
  simp [State.dropSource, State.discardQueues]

/-! ### Queues, connections and volumes -/

@[simp] theorem State.pinsAndTiles_removeQueue (qid : Nat) : (s.removeQueue qid).pinsAndTiles = s.pinsAndTiles := by
  simp [State.removeQueue]

@[simp] theorem State.pinsAndTiles_quiesceReplies : s.quiesceReplies.pinsAndTiles = s.pinsAndTiles := by
  simp [State.quiesceReplies]

@[simp] theorem State.pinsAndTiles_destroyQueue (qid : Nat) : (s.destroyQueue qid).pinsAndTiles = s.pinsAndTiles := by
  unfold State.destroyQueue
  repeat' split
  all_goals simp

@[simp] theorem State.pinsAndTiles_onConn (cid : Nat) (f : Conn → Conn) : (s.onConn cid f).pinsAndTiles = s.pinsAndTiles := by
  simp [State.onConn]

@[simp] theorem State.pinsAndTiles_connNext (cid : Nat) (st : ConnState) : (s.connNext cid st).pinsAndTiles = s.pinsAndTiles := by
  simp [State.connNext]

@[simp] theorem State.pinsAndTiles_testEnd (vid : Nat) (v : Volume) (st : TestState) :
    (s.testEnd vid v st).pinsAndTiles = s.pinsAndTiles := by
  simp [State.testEnd, State.onVolume]

@[simp] theorem State.pinsAndTiles_dropVolume (vid : Nat) (v : Volume) : (s.dropVolume vid v).pinsAndTiles = s.pinsAndTiles := by
  unfold State.dropVolume
  dsimp only
  split <;> simp

@[simp] theorem State.pinsAndTiles_connEvent (cid : Nat) : (s.connEvent cid).pinsAndTiles = s.pinsAndTiles := by
  unfold State.connEvent
  split <;> simp

@[simp] theorem State.pinsAndTiles_freeConn (cid : Nat) (c : Conn) : (s.freeConn cid c).pinsAndTiles = s.pinsAndTiles := by
  unfold State.freeConn
  dsimp only
  repeat' split
  all_goals simp

@[simp] theorem State.pinsAndTiles_winLater (i : Nat) (x : WinChange) : (s.winLater i x).pinsAndTiles = s.pinsAndTiles := by
  simp [State.winLater]

/-! ### Owners, functions and ports -/

@[simp] theorem State.pinsAndTiles_dropOps (qids : List Nat) : (s.dropOps qids).pinsAndTiles = s.pinsAndTiles := by
  simp [State.dropOps]

@[simp] theorem State.pinsAndTiles_dropCommands (dead : Cmd → Bool) : (s.dropCommands dead).pinsAndTiles = s.pinsAndTiles := by
  unfold State.dropCommands
  dsimp only
  rw [State.pinsAndTiles_onDram, State.pinsAndTiles_onTrust, State.pinsAndTiles_onPower rfl]
  simp

@[simp] theorem State.pinsAndTiles_stopOwner (p : Owner → Bool) (ref : HostRef → Bool) :
    (s.stopOwner p ref).pinsAndTiles = s.pinsAndTiles := by
  simp [State.stopOwner]

@[simp] theorem State.pinsAndTiles_endOwner (p : Owner → Bool) : (s.endOwner p).pinsAndTiles = s.pinsAndTiles := by
  simp [State.endOwner]

@[simp] theorem State.pinsAndTiles_freeSlice (sid : Nat) : (s.freeSlice sid).pinsAndTiles = s.pinsAndTiles := by
  simp [State.freeSlice]

@[simp] theorem State.pinsAndTiles_flrStop (l : List FnRef) : (s.flrStop l).pinsAndTiles = s.pinsAndTiles := by
  simp [State.flrStop]

@[simp] theorem State.pinsAndTiles_endFns (fs : List FnRef) : (s.endFns fs).pinsAndTiles = s.pinsAndTiles := by
  simp [State.endFns]

@[simp] theorem State.pinsAndTiles_portGone (port : Nat) : (s.portGone port).pinsAndTiles = s.pinsAndTiles := by
  simp [State.portGone, State.onHostPort]

/-! ### The trip -/

theorem State.pins_tileOff (s : State) (t : Nat) : (((s.dropTileCores t).clearSram t).setTile t .off).pins = s.pins := rfl

theorem State.tiles_tileOff (s : State) (t : Nat) :
    (((s.dropTileCores t).clearSram t).setTile t .off).power.tiles = modAt s.power.tiles t fun _ => .off := rfl

/-- The four tiles switched off: their cores and SRAM are lost. -/
theorem State.pinsAndTiles_tilesOff (s : State) :
    ((List.range 4).foldl (fun s t => ((s.dropTileCores t).clearSram t).setTile t .off) s).pinsAndTiles =
      (s.pins, modAt (modAt (modAt (modAt s.power.tiles 0 fun _ => .off) 1 fun _ => .off) 2 fun _ => .off) 3 fun _ => .off) := by
  have hrange : List.range 4 = [0, 1, 2, 3] := rfl
  simp only [hrange, List.foldl_cons, List.foldl_nil, State.pinsAndTiles, State.pins_tileOff, State.tiles_tileOff]

/-- A trip taken leaves the trip pin set and the tiles off. -/
theorem pinsAndTiles_doThermalTrip {tj : Nat} (hon : s.thermalOn = true) (hhot : 115 ≤ tj) (die : Nat) :
    (doThermalTrip die tj s).pinsAndTiles = ({ s.pins with thermTrip := true },
      modAt (modAt (modAt (modAt s.power.tiles 0 fun _ => .off) 1 fun _ => .off) 2 fun _ => .off) 3 fun _ => .off) := by
  have hlogged : ((((((s.noteTj tj).onPins fun p => { p with thermTrip := true }).emit .thermTrip).logRecord 34
      [(8, [byte die, byte tj])]).enterFatal 6 die noAddr).pinsAndTiles = ({ s.pins with thermTrip := true }, s.power.tiles)) := by
    rw [State.pinsAndTiles_enterFatal, State.pinsAndTiles_logRecord, State.pinsAndTiles_emit]
    rfl
  unfold doThermalTrip
  rw [if_neg (by simp [hon, hhot])]
  dsimp only
  rw [State.pinsAndTiles_onPower rfl, State.pinsAndTiles_portGone, State.pinsAndTiles_portGone, State.pinsAndTiles_tilesOff]
  obtain ⟨hpins, htiles⟩ := Prod.mk.inj hlogged
  rw [hpins, htiles]

/-- The trip makes the device FATAL with its switched domains and the tiles off. -/
theorem doThermalTrip_hot {tj : Nat} (hon : s.thermalOn = true) (hhot : 115 ≤ tj) (die : Nat) :
    (doThermalTrip die tj s).fatal = true ∧ (doThermalTrip die tj s).power.domains = 0 ∧ (doThermalTrip die tj s).pins.thermTrip = true ∧
      (doThermalTrip die tj s).power.tiles =
        modAt (modAt (modAt (modAt s.power.tiles 0 fun _ => .off) 1 fun _ => .off) 2 fun _ => .off) 3 fun _ => .off := by
  obtain ⟨hpins, htiles⟩ := Prod.mk.inj (pinsAndTiles_doThermalTrip hon hhot die)
  refine ⟨?_, ?_, by rw [hpins], htiles⟩
  all_goals
    unfold doThermalTrip
    rw [if_neg (by simp [hon, hhot])]
  · simp [State.enterFatal_fatal]
  · rfl

end Sys2Proof.Machine
end

section
/-! SUPPORT. The power cap and its windows, thermal throttling and idle tiles (16 R448 R456 R457); O15 from these. -/

namespace Sys2Proof.Machine

variable {s : State} {c : Cmd} {who : Caller}

/-! ### The power cap (16 R456) -/

theorem bkPwCapSet_accepted (hpre : s.precheck 0x0B03 c who true false true false = none) : bkPwCapSet c who s =
    if 150 ≤ cmdLe c 16 2 ∧ cmdLe c 16 2 ≤ 650 then
      s.onPower fun p => { p with capPend := p.capPend ++ [(cmdLe c 16 2, s.ft, c)] }
    else s.bkAnswer 0x0B03 c (Answer.just St.badParam) := by
  refine (State.bkApply_accepted hpre).trans ?_
  by_cases hcap : 150 ≤ cmdLe c 16 2 ∧ cmdLe c 16 2 ≤ 650
  · have hlow : ¬(decide (cmdLe c 16 2 < 150) || decide (650 < cmdLe c 16 2)) = true := by simp; omega
    simp only [if_neg hlow, if_pos hcap]
  · have hout : (decide (cmdLe c 16 2 < 150) || decide (650 < cmdLe c 16 2)) = true := by simp; omega
    simp only [if_pos hout, if_neg hcap]
    rfl

theorem State.gridFt_of_time {t : State} (ht : t.time = s.time) (p φ : Nat) : t.gridFt p φ = s.gridFt p φ := by
  unfold State.gridFt State.onGrid State.past State.ft
  rw [ht]

/-- The replies of the caps that begin to govern carry the instant of the window, which stands while they are written. -/
theorem State.capReplies_ft (due : List (Nat × Nat × Cmd)) {t : State} (ht : t.time = s.time) :
    due.foldl (fun x d => x.reply 0x0B03 d.2.2 true { Answer.ok with ft := some (x.gridFt 10000 0) }) t =
      due.foldl (fun x d => x.reply 0x0B03 d.2.2 true { Answer.ok with ft := some (s.gridFt 10000 0) }) t := by
  induction due generalizing t with
  | nil => simp only [List.foldl_nil]
  | cons d due ih =>
    simp only [List.foldl_cons, State.gridFt_of_time ht]
    exact ih ((t.reply_frame ..).2.2.1.trans ht)

/-- The window at a boundary of 10,000 ns. -/
theorem doPowerWindow_boundary {w cap : Nat} {due : List (Nat × Nat × Cmd)} {l : List Nat} {u v : State}
    (hs : s.fatal = false) (hdev : s.power.dev ≠ .off) (hgrid : s.onGrid 10000 0 = true)
    (hlast : s.power.lastWindow ≠ s.gridFt 10000 0 / 10000 + 1) (hdue : due = s.power.capPend.filter (fun x => x.2.1 < s.ft))
    (hcap : cap = ((due.getLast?).map fun x => x.1).getD s.power.cap)
    (hl : l = (s.power.windows ++ [w]).drop (s.power.windows.length + 1 - 100))
    (hu : u = s.onClocks (fun p => { p with
      windows := l, lastWindow := s.gridFt 10000 0 / 10000 + 1, cap := cap, capPend := p.capPend.filter fun x => s.ft ≤ x.2.1
      level := if p.level = 10 ∧ capExceeded cap l = true then 10 else ladderStep cap p.level l }))
    (hv : v = (if u.power.ladder = 10 ∧ capExceeded cap l = true ∧ u.power.capUnmet = false then u.raise (sourceNo 6 20) noObject cap .dev
      else u)) :
    doPowerWindow w s = due.foldl (fun x d => x.reply 0x0B03 d.2.2 true { Answer.ok with ft := some (s.gridFt 10000 0) })
      (v.onPower fun p => { p with capUnmet := v.power.ladder == 10 && capExceeded cap l }) := by
  have hgate : (s.fatal || s.power.dev == .off || !s.onGrid 10000 0 || s.power.lastWindow == s.gridFt 10000 0 / 10000 + 1) = false := by
    simp [hs, hdev, hgrid, hlast]
  have hu_cap : u.power.cap = cap ∧ u.power.windows = l := by rw [hu]; exact ⟨rfl, rfl⟩
  have hv_power : v.power = u.power := by
    rw [hv]
    split
    · exact (congrArg State.power (u.raise_beyondEvents ..) :)
    · rfl
  have hv_time : v.time = s.time := by
    rw [hv]
    split
    · exact (congrArg State.time (u.raise_beyondEvents ..) :).trans (by rw [hu]; rfl)
    · rw [hu]; rfl
  have hraise : v = if (u.power.ladder == 10 && capExceeded cap l) && !u.power.capUnmet then u.raise (sourceNo 6 20) noObject cap .dev
      else u := by
    rw [hv]
    exact if_congr (by simp [and_assoc]) rfl rfl
  unfold doPowerWindow
  simp only [hgate, ← hdue, Bool.false_eq_true, if_false]
  generalize htaken : s.onClocks _ = t
  have ht : t = u := by
    rw [← htaken, hu, hl, hcap]
    cases due.getLast? <;> rfl
  subst ht
  rw [hu_cap.1, hu_cap.2, ← hraise, ← hv_power]
  exact State.capReplies_ft due hv_time

theorem ladderStep_full (cap level : Nat) {l : List Nat} (hl : 8 ≤ l.length) : ladderStep cap level l =
    if 8 * cap < (l.drop (l.length - 8)).sum then min 10 (level + 1)
    else if (l.drop (l.length - 8)).sum < 8 * (cap - 5) then level - 1 else level := by
  have hlen : (l.drop (l.length - 8)).length = 8 := by simp; omega
  simp only [ladderStep, hlen, Nat.mul_comm _ 8]

/-! ### Thermal limits (16 R457) -/

variable {die tj : Nat}

theorem doThermThrottle_begins (hon : s.thermalOn = true) (hhot : 100 ≤ tj) (hcalm : s.power.throttle = false) :
    doThermThrottle die tj s = ((s.noteTj tj).onClocks fun p =>
      { p with throttle := true, forced := max 4 p.forced, lastForce := s.time.osc }).raise (sourceNo 6 18) die tj .dev := by
  have hgate : (!s.thermalOn || decide (tj < 100)) = false := by simp [hon, hhot]
  have hkept : (s.noteTj tj).power.throttle = false := hcalm
  unfold doThermThrottle
  rw [hgate]
  simp only [hkept]
  rfl

theorem doThermStep_due (hon : s.thermalOn = true) (hhot : 100 ≤ tj) (hthrottle : s.power.throttle = true)
    (hdue : s.power.lastForce + 100000 ≤ s.time.osc) : doThermStep die tj s =
      (s.noteTj tj).onClocks fun p => { p with forced := min 10 (p.forced + 1), lastForce := p.lastForce + 100000 } := by
  have hgate : (!s.thermalOn || decide (tj < 100)) = false := by simp [hon, hhot]
  have hforce : ((s.noteTj tj).power.throttle && decide ((s.noteTj tj).power.lastForce + 100000 ≤ (s.noteTj tj).time.osc)) = true := by
    rw [Bool.and_eq_true, decide_eq_true_eq]
    exact ⟨hthrottle, hdue⟩
  unfold doThermStep
  rw [hgate]
  simp only [hforce]
  rfl

theorem doThermForcingEnd_cool (hon : s.thermalOn = true) (hcool : tj < 98) :
    doThermForcingEnd die tj s = (s.noteTj tj).onClocks fun p => { p with throttle := false, forced := 0 } := by
  have hgate : (!s.thermalOn || decide (98 ≤ tj)) = false := by simp [hon, hcool]
  unfold doThermForcingEnd
  rw [hgate]
  rfl

/-- Above 105 C the instant since when it has been hot stands. -/
theorem State.noteTj_hotSince {t : Nat} (hhot : 105 < tj) (hsince : s.power.hotSince = some t) :
    (s.noteTj tj).power.hotSince = some t := by
  simp only [State.noteTj, State.onPower, if_pos hhot, hsince, Option.getD_some]

theorem State.noteTj_stood {t : Nat} (hhot : 105 < tj) (hsince : s.power.hotSince = some t) (hdue : t + 100000000 ≤ s.time.osc) :
    ((s.noteTj tj).power.hotSince.any fun t => t + 100000000 ≤ (s.noteTj tj).time.osc) = true := by
  have htime : (s.noteTj tj).time.osc = s.time.osc := rfl
  rw [State.noteTj_hotSince hhot hsince, Option.any_some, htime]
  exact decide_eq_true hdue

theorem doThermCrit_stood {t : Nat} (hon : s.thermalOn = true) (hhot : 105 < tj) (hcrit : s.power.crit = false)
    (hsince : s.power.hotSince = some t) (hdue : t + 100000000 ≤ s.time.osc) : doThermCrit die tj s =
      (((s.noteTj tj).onPower fun p => { p with crit := true }).logRecord 35 [(8, [byte die, byte tj])]).raise
        (sourceNo 6 19) die tj .sec := by
  have hkept : (s.noteTj tj).power.crit = false := by simp [State.noteTj, hcrit]
  unfold doThermCrit
  rw [if_neg (by simp [hon, hhot])]
  exact if_pos (by rw [hkept, State.noteTj_stood hhot hsince hdue]; rfl)

/-! ### Idle tiles (16 R448) -/

theorem doTileIdle_quiet {tile : Nat} (hs : s.fatal = false) (hactive : s.power.tiles.getD tile .off = .active)
    (hquiet : s.tileQuiet tile = true) : doTileIdle tile s = s.setTile tile .idle := by
  simp only [doTileIdle, hs, hactive, hquiet]
  rfl

theorem doTileWake_idle {tile : Nat} (hs : s.fatal = false) (hidle : s.power.tiles.getD tile .off = .idle) :
    doTileWake tile s = s.setTile tile .active := by
  simp only [doTileWake, hs, hidle]
  rfl

/-! ### O15 -/

theorem exec_powerWindow (w : Nat) (s : State) : exec (.powerWindow w) s = .next (doPowerWindow w s) := rfl
theorem exec_thermThrottle (die tj : Nat) (s : State) : exec (.thermThrottle die tj) s = .next (doThermThrottle die tj s) := rfl
theorem exec_thermStep (die tj : Nat) (s : State) : exec (.thermStep die tj) s = .next (doThermStep die tj s) := rfl
theorem exec_thermForcingEnd (die tj : Nat) (s : State) : exec (.thermForcingEnd die tj) s = .next (doThermForcingEnd die tj s) := rfl
theorem exec_thermCrit (die tj : Nat) (s : State) : exec (.thermCrit die tj) s = .next (doThermCrit die tj s) := rfl
theorem exec_thermalTrip (die tj : Nat) (s : State) : exec (.thermalTrip die tj) s = .next (doThermalTrip die tj s) := rfl
theorem exec_tileIdle (tile : Nat) (s : State) : exec (.tileIdle tile) s = .next (doTileIdle tile s) := rfl
theorem exec_tileWake (tile : Nat) (s : State) : exec (.tileWake tile) s = .next (doTileWake tile s) := rfl

/-- Settles O15: Buckram's turn at a cap, the window at a boundary, the thermal limits one reading at a time, and the two rows of an idle tile. -/
theorem powerCapAndThermalLimits : Obligations.PowerCapAndThermalLimits := by
  refine ⟨?cap, ?window, ?ladder, ?throttle, ?step, ?forcingEnd, ?crit, ?trip, ?idle, ?wake⟩
  case cap => exact fun s c who env h => thenBuckram_of_bkAccepts h rfl (bkPwCapSet_accepted (State.precheck_of_bkAccepts h))
  case window =>
    intro s w cap due l u v hs hdev hgrid hlast hdue hcap hl hu hv
    rw [exec_powerWindow, doPowerWindow_boundary hs hdev hgrid hlast hdue hcap hl hu hv]
  case ladder => exact fun cap level l hl => ladderStep_full cap level hl
  case throttle =>
    intro s die tj hon hhot hcalm
    rw [exec_thermThrottle, doThermThrottle_begins hon hhot hcalm]
  case step =>
    intro s die tj hon hhot hthrottle hdue
    rw [exec_thermStep, doThermStep_due hon hhot hthrottle hdue]
  case forcingEnd =>
    intro s die tj hon hcool
    rw [exec_thermForcingEnd, doThermForcingEnd_cool hon hcool]
  case crit =>
    intro s die tj t hon hhot hcrit hsince hdue
    rw [exec_thermCrit, doThermCrit_stood hon hhot hcrit hsince hdue]
  case trip =>
    intro s die tj hon hhot
    exact ⟨_, exec_thermalTrip die tj s, doThermalTrip_hot hon hhot die⟩
  case idle =>
    intro s tile hs hactive hquiet
    rw [exec_tileIdle, doTileIdle_quiet hs hactive hquiet]
  case wake =>
    intro s tile hs hidle
    rw [exec_tileWake, doTileWake_idle hs hidle]

end Sys2Proof.Machine
end

section
/-! SUPPORT. Parking and unparking a tile (16 R449 R451 R452 R453 R455): service firmware's part with Buckram's turn after it, and the
points, limits and frame boundaries that follow; O13 from these. -/

namespace Sys2Proof.Machine

/-! ### Service firmware's part, then Buckram's turn -/

/-- A command without a parameter block that service firmware's part passes on to an idle mailbox, then Buckram's turn, where the part
leaves the mailbox and what lets Buckram run as they were. -/
theorem thenBuckram_of_part {i : Instr} {s t u : State} {code : Nat} {c : Cmd} {who : Caller} {env : BkEnv} {x : OpInfo}
    {deny found : Caller → State → Bool} {lenOk ex : Bool} {part : Caller → State → State × Option Nat}
    (h : s.accepts code c who (deny who (s.taken code c)) lenOk ex true (found who (s.taken code c)) = true) (hidle : s.mailboxIdle = true)
    (hexec : exec i s = .next (s.bkPart code c deny lenOk ex part found)) (hinfo : opInfo code = some x) (hpb : x.pb = false)
    (hpart : part who (s.taken code c) = (t, none)) (hcmd : t.cmd = (s.taken code c).cmd) (hfatal : t.fatal = (s.taken code c).fatal)
    (hdev : t.power.dev = (s.taken code c).power.dev) (hpins : t.pins = (s.taken code c).pins)
    (hturn : bkOpcode code c who env t = u) : ThenBuckram i env s u := by
  refine ⟨_, hexec, congrArg Host.Outcome.next ?_⟩
  obtain ⟨-, hm, hp⟩ := State.accepts_iff.1 h
  obtain ⟨-, hpre⟩ := State.precheck_none hp
  obtain ⟨hlen, hform⟩ := State.noBlock_of_precheck hinfo hpb hpre
  simp only [State.mailboxIdle, Bool.and_eq_true, List.isEmpty_iff] at hidle
  obtain ⟨hbox, hrota, hf, hpow, hpin, -⟩ := s.taken_frame code c
  have hgate : s.gate code c.src = .run := by
    simp only [State.mayStart, Bool.and_eq_true, decide_eq_true_eq] at hm
    exact hm.1.1
  obtain ⟨g1, g2, g3, g4⟩ := State.gate_run hgate
  rw [State.bkPart_sent h (by simp [State.mailboxFull, hbox, hidle.1]) hpart]
  refine (State.toBuckram_served env (by rw [hfatal, hf, g1]) (by rw [hdev, hpow]; exact g2) (by rw [hpins, hpin, g3])
    (by rw [hdev, hpow]; exact g4) (by rw [hcmd, hbox, hidle.1]) (by rw [hcmd, hrota, hidle.2])).trans ?_
  rw [State.blockFor_of_noBlock _ env hlen, State.blockMeet_of_noBlock _ hform, hturn]

variable {s : State} {c : Cmd} {who : Caller} {o : ParkOp}

/-- Binding channels elsewhere changes the DMA channels alone. -/
theorem State.reserveDma_eq (s : State) (qid home t : Nat) : ∃ d, s.reserveDma qid home t = s.onDma fun _ => d := by
  unfold State.reserveDma
  dsimp only
  repeat' split
  all_goals exact ⟨_, rfl⟩

theorem State.parkReserve_eq (s : State) (t : Nat) : ∃ d, s.parkReserve t = s.onDma fun _ => d := by
  unfold State.parkReserve
  generalize s.dmaQueuesOn t = l
  induction l generalizing s with
  | nil => exact ⟨s.dma, rfl⟩
  | cons k l ih =>
    obtain ⟨d, hd⟩ := s.reserveDma_eq k t (s.moveChoice t k true)
    obtain ⟨e, he⟩ := ih (s.reserveDma k t (s.moveChoice t k true))
    exact ⟨e, by rw [List.foldl_cons, he, hd]; rfl⟩

/-- The park that PW_TILE_PARK opens (16 R451). -/
def parkOpened (s : State) (c : Cmd) : ParkOp := {
  tile := c.target.toNat, unpark := false, point := roundUp (s.ft + 500000) 1048576, passed := false
  limit := roundUp (s.ft + 500000) 1048576 + 200000000, ready := false, cmd := c }

/-- Service firmware opens the park. -/
theorem State.parkPart_opens (hcheck : s.parkCheck c.target.toNat = none) :
    s.parkPart c = ((s.parkReserve c.target.toNat).onPower fun p => { p with op := some (parkOpened s c) }, none) := by
  simp only [State.parkPart, hcheck]
  rfl

theorem State.parkOwn_of_op (hop : s.power.op = some o) (hcmd : o.cmd = c) : s.parkOwn c = true := by
  simp [State.parkOwn, hop, hcmd]

/-- Buckram leaves the park that this command opened. -/
theorem bkPwTilePark_own (hpre : s.precheck 0x0B01 c who true false true false = none) (hown : s.parkOwn c = true) :
    bkPwTilePark c who s = s := by
  unfold bkPwTilePark
  rw [if_neg (by simp [hpre])]
  refine (State.bkApply_accepted hpre).trans ?_
  simp only [hown, if_true]

theorem State.unparkPart_opens (hparked : s.power.tiles.getD c.target.toNat .off = .parked) (hop : s.power.op = none)
    (hact : s.boot.activation = none) : s.unparkPart c = (s.onPower fun p => { p with op := some {
      tile := c.target.toNat, unpark := true, point := 0, passed := false, limit := 0, ready := false, cmd := c } }, none) := by
  simp only [State.unparkPart, hparked, hop, hact]
  rfl

/-- Buckram starts the tile of the unpark that this command opened. -/
theorem bkPwTileUnpark_own (hpre : s.precheck 0x0B02 c who true false true false = none) (hown : s.parkOwn c = true) :
    bkPwTileUnpark c who s = (s.tileStart c.target.toNat).onPower fun p => { p with
      op := p.op.map fun o => { o with ready := true, point := nextRebalance s.ft } } := by
  unfold bkPwTileUnpark
  rw [if_neg (by simp [hpre])]
  refine (State.bkApply_accepted hpre).trans ?_
  simp only [hown, if_true]

/-! ### The points of a park (16 R452 R453) -/

theorem doParkPoint_due (hop : s.power.op = some o) (hs : s.fatal = false) (hpark : o.unpark = false) (hpassed : o.passed = false)
    (hdue : s.dueAt o.point s.onRebalance = true) : doParkPoint s =
      ((((((s.moveQueues o.tile).moveConns o.tile).steerAway o.tile).killStopped o.tile).onFree (· + 2 ^ 22)).onPower
        (fun p => { p with op := some { o with passed := true } })).movePolicers.settleCaches := by
  simp only [doParkPoint, hop]
  exact if_neg (by simp [hs, hpark, hpassed, hdue])

theorem doParkDrainLimit_tile (hop : s.power.op = some o) (hs : s.fatal = false) (hpark : o.unpark = false) (hpassed : o.passed = true)
    (hlimit : o.limit ≤ s.ft) : doParkDrainLimit s = s.drainEnd o.tile := by
  simp only [doParkDrainLimit, hop]
  exact if_neg (by simp [hs, hpark, hpassed, hlimit])

theorem doParkDrainLimit_standby {limit : Nat} (hop : s.power.op = none) (hstandby : s.power.standby = some (c, limit))
    (hs : s.fatal = false) (hlimit : limit ≤ s.ft) :
    doParkDrainLimit s = (((s.drainEnd 0).drainEnd 1).drainEnd 2).drainEnd 3 := by
  have hrange : List.range 4 = [0, 1, 2, 3] := rfl
  simp only [doParkDrainLimit, hop, hstandby, hrange, List.foldl_cons, List.foldl_nil]
  exact if_neg (by simp [hs, hlimit])

theorem doTilePowerOff_parks (hop : s.power.op = some o) (hs : s.fatal = false) (hpark : o.unpark = false) (hpassed : o.passed = true)
    (hwaits : s.cmd.mailbox.any (fun r => match r with
      | .command 0x0B01 _ _ => true
      | _ => false) = false)
    (hframe : s.onFrame = true) (hempty : s.tileEmpty o.tile = true) {u : State}
    (hu : u = ((s.carryContexts o.tile).loseTile o.tile).onPower (fun p => { p with op := none })) :
    doTilePowerOff s = u.reply 0x0B01 o.cmd true { Answer.ok with ft := some u.frameFt } := by
  unfold doTilePowerOff
  rw [hop, hu]
  refine if_neg fun hgate => ?_
  simp only [Bool.or_eq_true, Bool.not_eq_true', hs, hpark, hpassed, hframe, hempty, Bool.false_eq_true, Bool.true_eq_false, false_or,
    or_false] at hgate
  exact Bool.false_ne_true (hwaits.symm.trans hgate)

theorem doTilePowerOff_standby {limit : Nat} (hop : s.power.op = none) (hstandby : s.power.standby = some (c, limit))
    (hs : s.fatal = false) (hbox : s.cmd.mailbox = []) (hframe : s.onFrame = true) (hempty : (List.range 4).all s.tileEmpty = true) :
    doTilePowerOff s = s.enterStandby.reply 0x0B04 c true (Answer.ok 1) := by
  unfold doTilePowerOff
  simp only [hop, hstandby]
  exact if_neg (by simp only [hs, hbox, hframe, hempty]; decide)

theorem doUnparkPoint_due (hop : s.power.op = some o) (hs : s.fatal = false) (hunpark : o.unpark = true) (hready : o.ready = true)
    (hdue : s.dueAt o.point s.onRebalance = true) {u v w : State}
    (hu : u = (s.power.away.filter fun x => x.1 == o.tile && s.krm.conns.has x.2).foldl (fun w x =>
      (w.onConn x.2 fun c => { c with home := x.1 }).onDamask fun d => { d with homePend := d.homePend ++ [(x.2, some x.1)] })
      (s.onPower fun p => { p with op := none }))
    (hv : v = (u.onPower fun p => { p with away := p.away.filter fun x => x.1 != o.tile }).trimCached)
    (hw : w = (v.onDamask fun d => { d with indPend := some (v.freeTables v.free) }).onFree (· + 1024)) :
    doUnparkPoint s = (w.applySteering.movePolicers.settleCaches).reply 0x0B02 o.cmd true { Answer.ok with ft := some w.rebalanceFt } := by
  subst hu hv hw
  simp only [doUnparkPoint, hop]
  exact if_neg (by simp [hs, hunpark, hready, hdue])

/-! ### O13 -/

theorem exec_parkPoint (s : State) : exec .parkPoint s = .next (doParkPoint s) := rfl
theorem exec_parkDrainLimit (s : State) : exec .parkDrainLimit s = .next (doParkDrainLimit s) := rfl
theorem exec_tilePowerOff (s : State) : exec .tilePowerOff s = .next (doTilePowerOff s) := rfl
theorem exec_unparkPoint (s : State) : exec .unparkPoint s = .next (doUnparkPoint s) := rfl

/-- Settles O13: service firmware opens the park or unpark and Buckram's turn finds it its own; the points and limits act as they come due. -/
theorem parkingATile : Obligations.ParkingATile := by
  refine ⟨?park, ?parkPoint, ?drainTile, ?drainStandby, ?offTile, ?offStandby, ?unpark, ?unparkPoint⟩
  case park =>
    intro s c who env h hidle hcheck
    obtain ⟨d, hd⟩ := (s.taken 0x0B01 c).parkReserve_eq c.target.toNat
    have hpre := (State.precheck_none (State.accepts_iff.1 h).2.2).2
    refine thenBuckram_of_part (x := opRow 0x0B01 mP0 .both .tile []) h hidle rfl rfl rfl (State.parkPart_opens hcheck) ?_ ?_ ?_ ?_
      (bkPwTilePark_own ((State.precheck_of_trust ?_ ..).trans hpre) (State.parkOwn_of_op rfl rfl))
    all_goals rw [hd]; rfl
  case parkPoint =>
    intro s o hop hs hpark hpassed hdue
    rw [exec_parkPoint, doParkPoint_due hop hs hpark hpassed hdue]
  case drainTile =>
    intro s o hop hs hpark hpassed hlimit
    rw [exec_parkDrainLimit, doParkDrainLimit_tile hop hs hpark hpassed hlimit]
  case drainStandby =>
    intro s c limit hop hstandby hs hlimit
    rw [exec_parkDrainLimit, doParkDrainLimit_standby hop hstandby hs hlimit]
  case offTile =>
    intro s u o hop hs hpark hpassed hwaits hframe hempty hu
    rw [exec_tilePowerOff, doTilePowerOff_parks hop hs hpark hpassed hwaits hframe hempty hu]
  case offStandby =>
    intro s c limit hop hstandby hs hbox hframe hempty
    rw [exec_tilePowerOff, doTilePowerOff_standby hop hstandby hs hbox hframe hempty]
  case unpark =>
    intro s c who env h hidle hparked hop hact
    have hpre := (State.precheck_none (State.accepts_iff.1 h).2.2).2
    exact thenBuckram_of_part (x := opRow 0x0B02 mP0 .both .tile []) h hidle rfl rfl rfl (State.unparkPart_opens hparked hop hact)
      rfl rfl rfl rfl (bkPwTileUnpark_own ((State.precheck_of_trust rfl ..).trans hpre) (State.parkOwn_of_op rfl rfl))
  case unparkPoint =>
    intro s u v o hop hs hunpark hready hdue hu hv
    rw [exec_unparkPoint, doUnparkPoint_due hop hs hunpark hready hdue hu hv rfl]

end Sys2Proof.Machine
end

section
/-! SUPPORT. STANDBY, AUX and OFF (16 R447 R449 R450 R458): Buckram's turn at PW_STATE_SET, the main rails leaving and returning, and the
64 bytes of PW_QUERY; O14 from these. -/

namespace Sys2Proof.Machine

variable {s : State} {c : Cmd} {who : Caller}

/-! ### PW_STATE_SET (16 R449) -/

theorem bkPwStateSet_standby (hpre : s.precheck 0x0B04 c who true false true false = none) (hone : cmdByte c 16 = 1) :
    bkPwStateSet c who s = if s.power.dev = .standby then s.bkAnswer 0x0B04 c (Answer.ok 1)
      else if s.standbyRefused = true then s.bkAnswer 0x0B04 c (Answer.just St.badState)
      else s.onPower fun p => { p with standby := some (c, s.ft + 200000000) } := by
  refine (State.bkApply_accepted hpre).trans ?_
  by_cases hin : s.power.dev = .standby
  · simp only [hone, if_pos hin]
    rfl
  · by_cases hrefused : s.standbyRefused = true
    · simp only [hone, if_neg hin, if_pos hrefused]
      rfl
    · simp only [hone, if_neg hin, if_neg hrefused]

theorem bkPwStateSet_run (hpre : s.precheck 0x0B04 c who true false true false = none) (hzero : cmdByte c 16 = 0) {u : State}
    (hu : u = if s.power.dev = .standby then s.leaveStandby else s) :
    bkPwStateSet c who s = u.bkAnswer 0x0B04 c (Answer.ok u.powerCode) := by
  refine (State.bkApply_accepted hpre).trans ?_
  subst hu
  simp only [hzero]
  rfl

theorem exec_pwStateSetStandby (hone : cmdByte c 16 = 1) : exec (.pwStateSetStandby c) s =
    .next (s.bk 0x0B04 c noDeny true false (paramCheck (cmdByte c 16 < 2))) :=
  congrArg Host.Outcome.next (if_neg (by omega))

theorem exec_pwStateSetRun (hzero : cmdByte c 16 = 0) : exec (.pwStateSetRun c) s =
    .next (s.bk 0x0B04 c noDeny true false (paramCheck (cmdByte c 16 < 2))) :=
  congrArg Host.Outcome.next (if_neg (by omega))

/-! ### AUX and OFF (16 R450 R447) -/

theorem doAuxEnter_running (hdev : s.power.dev ≠ .off) (hpower : s.pins.mainPwrOk = true) (hrst : s.pins.sysRst = false) :
    doAuxEnter s = s.enterAux.endAuxLost := by
  unfold doAuxEnter
  rw [if_neg (by simp [hdev, hpower]), if_neg (by simp [hrst])]

theorem doAuxExit_starts (hdev : s.power.dev ≠ .off) (hpower : s.pins.mainPwrOk = false) (hrst : s.pins.sysRst = false)
    (hs : s.fatal = false) (hheld : s.pins.heldReset = false) :
    doAuxExit s = (List.range 2).foldl (fun u p => if (u.hostPort p).perst then u else u.portStart p)
      (((s.onPins fun p => { p with mainPwrOk := true }).onPower (s.onPins fun p => { p with mainPwrOk := true }).railsPower).coresIdle) := by
  unfold doAuxExit
  rw [if_neg (by simp [hdev, hpower])]
  exact if_neg (by simp [hs, hrst, hheld])

/-! ### PW_QUERY (16 R458) -/

theorem State.powerBytes_length (s : State) : s.powerBytes.length = 64 := by
  simp [State.powerBytes, zeros]

theorem doPwQuery_accepted (h : s.accepts 0x0B05 c who false true false = true) : doPwQuery c s =
    (s.taken 0x0B05 c).answer 0x0B05 c { Answer.ok with data := (s.taken 0x0B05 c).powerBytes } :=
  State.sf_accepted h

/-! ### O14 -/

theorem exec_auxEnter (s : State) : exec .auxEnter s = .next (doAuxEnter s) := rfl
theorem exec_auxExit (s : State) : exec .auxExit s = .next (doAuxExit s) := rfl
theorem exec_pwQuery (c : Cmd) (s : State) : exec (.pwQuery c) s = .next (doPwQuery c s) := rfl

/-- Settles O14: Buckram's turn at a state request, the reset states that AUX and OFF leave, and the length of the power state's bytes. -/
theorem powerStatesAndQuery : Obligations.PowerStatesAndQuery := by
  refine ⟨?standby, ?run, ?auxEnter, ?auxExit, ?powerOff, ?query⟩
  case standby =>
    intro s c who env h hone
    exact thenBuckram_of_bkAccepts h (exec_pwStateSetStandby hone) (bkPwStateSet_standby (State.precheck_of_bkAccepts h) hone)
  case run =>
    intro s u c who env h hzero hu
    exact thenBuckram_of_bkAccepts h (exec_pwStateSetRun hzero) (bkPwStateSet_run (State.precheck_of_bkAccepts h) hzero hu)
  case auxEnter =>
    intro s hdev hpower hrst
    rw [exec_auxEnter, doAuxEnter_running hdev hpower hrst]
    exact ⟨rfl, rfl, rfl, rfl, rfl, rfl, rfl⟩
  case auxExit =>
    intro s hdev hpower hrst hs hheld
    rw [exec_auxExit, doAuxExit_starts hdev hpower hrst hs hheld]
  case powerOff => exact fun s => ⟨doPowerOff s, rfl, rfl, rfl, rfl, rfl, rfl, rfl, rfl⟩
  case query =>
    intro s c who h
    exact ⟨by rw [exec_pwQuery, doPwQuery_accepted h], State.powerBytes_length _⟩

end Sys2Proof.Machine
end

section
/-! SUPPORT. SYS_RST#, the strap test, the clock inputs and shorted open-drain lines (19 R520 to R530): each row by whether ROM has begun and by
what the pin was; O16 from these. -/

namespace Sys2Proof.Machine

variable {s : State} {port : Nat}

theorem doStrapTest_eq (stuck : Nat) : doStrapTest stuck s = if s.romBegan = true ∧ s.pins.sysRst = false then
    (List.range 7).foldl (fun u i => if bit stuck i then u.pinFault (44 + i) else u) s else s := by
  unfold doStrapTest
  by_cases htest : s.romBegan = true ∧ s.pins.sysRst = false
  · rw [if_pos htest]
    exact if_neg (by simp [htest.1, htest.2])
  · rw [if_neg htest]
    exact if_pos (by simpa [or_iff_not_imp_left] using htest)

/-! ### SYSCLK (19 R520) -/

theorem doSysclkLost_absent (hclk : s.pins.sysclk = false) : doSysclkLost s = s := if_pos (by simp [hclk])

/-- A clock that was there is lost. -/
theorem doSysclkLost_present (hclk : s.pins.sysclk = true) : doSysclkLost s = if s.romBegan then
    (let u := ((s.onPins fun p => { p with sysclk := false }).pinFault 0).logRecord 36 [(8, [1])]
     let u := (List.range 32).foldl (fun u n => if u.linkUp n then u.portDown n true else u) u
     (if u.ftu.src = 1 ∧ u.ftu.srcPresent then u.onFtu fun f => { f with announceLost := true } else u).oscUpdate)
    else s.onPins fun p => { p with sysclk := false } := by
  unfold doSysclkLost
  rw [if_neg (by simp [hclk])]
  have hbegan : (s.onPins fun p => { p with sysclk := false }).romBegan = s.romBegan := rfl
  by_cases hrom : s.romBegan = true
  · rw [if_pos hrom]
    exact if_neg (by simp [hbegan, hrom])
  · rw [if_neg hrom]
    exact if_pos (by simpa [hbegan] using hrom)

theorem doSysclkReturn_waits (h : s.pins.sysclk = true ∨ (s.romBegan = true ∧ s.onFrame = false)) : doSysclkReturn s = s := by
  unfold doSysclkReturn
  by_cases hclk : s.pins.sysclk = true
  · exact if_pos hclk
  · obtain ⟨hrom, hframe⟩ := h.resolve_left hclk
    rw [if_neg hclk, if_neg (by simp [hrom]), if_pos (by simp [hframe])]

theorem doSysclkReturn_beforeRom (hclk : s.pins.sysclk = false) (hrom : s.romBegan = false) :
    doSysclkReturn s = s.onPins fun p => { p with sysclk := true } := by
  unfold doSysclkReturn
  rw [if_neg (by simp [hclk]), if_pos (by simp [hrom])]

theorem doSysclkReturn_atFrame (hclk : s.pins.sysclk = false) (hrom : s.romBegan = true) (hframe : s.onFrame = true) {u : State}
    (hu : u = (((s.onPins fun p => { p with sysclk := true }).pinClear 0).logRecord 36 [(8, [2])]).oscUpdate) :
    doSysclkReturn s = if u.fatal then u else
      ((List.range 4).flatMap fun p => modePorts p (u.phys p).mode).foldl (fun v n =>
        v.onLogical n fun x => if x.up then x else { x with training := true, dropped := false }) u := by
  subst hu
  unfold doSysclkReturn
  rw [if_neg (by simp [hclk]), if_neg (by simp [hrom]), if_neg (by simp [hframe])]

/-! ### HREFCLKn (19 R520, 13 R385) -/

theorem doHrefclkLost_eq {u : State} (hu : u = s.onPins fun p => { p with hrefclk := p.hrefclk.set port false }) :
    doHrefclkLost port s = if s.pins.hrefclk.getD port false = false then s
      else if u.romBegan = true then
        (List.range (u.hostPort port).subLinks.length).foldl (fun v k => v.dlDown port k) (u.pinFault (1 + port))
      else u := by
  subst hu
  unfold doHrefclkLost
  refine if_congr (by simp) rfl ?_
  by_cases hrom : (s.onPins fun p => { p with hrefclk := p.hrefclk.set port false }).romBegan = true
  · rw [if_pos hrom]
    exact if_neg (by simpa using hrom)
  · rw [if_neg hrom]
    exact if_pos (by simpa using hrom)

/-! ### O16 -/

theorem exec_strapTest (stuck : Nat) (s : State) : exec (.strapTest stuck) s = .next (doStrapTest stuck s) := rfl
theorem exec_sysclkLost (s : State) : exec .sysclkLost s = .next (doSysclkLost s) := rfl
theorem exec_sysclkReturn (s : State) : exec .sysclkReturn s = .next (doSysclkReturn s) := rfl
theorem exec_hrefclkLost (port : Nat) (s : State) : exec (.hrefclkLost port) s = .next (doHrefclkLost port s) := rfl

/-- What SYS_RST# leaves, whatever came before (19 R523). -/
theorem doSysReset_leaves (s : State) : (doSysReset s).pins.sysRst = true ∧ (doSysReset s).trust.fuses = s.trust.fuses ∧
    (doSysReset s).ev.log = s.ev.log ∧ (doSysReset s).fatal = false ∧ (doSysReset s).boot.stage = .rom ∧
    (doSysReset s).qm.queues = [] ∧ (doSysReset s).mem = [] := by
  have htri : (s.drivePps none).trust = s.trust ∧ (s.drivePps none).ev = s.ev := by
    unfold State.drivePps
    split <;> exact ⟨rfl, rfl⟩
  exact ⟨rfl, (congrArg TrustSt.fuses htri.1 :), (congrArg EvSt.log htri.2 :), rfl, rfl, rfl, rfl⟩

/-- Settles O16: the reset state, and each clock row by what the pin was and whether ROM has begun. -/
theorem pinsAndClocks : Obligations.PinsAndClocks := by
  refine ⟨?sysReset, ?strapTest, ?lost, ?lostAlready, ?returnWaits, ?returnBeforeRom, ?returnAtFrame, ?hrefLost, ?hrefReturn, ?openDrain⟩
  case sysReset => exact fun s => ⟨doSysReset s, rfl, doSysReset_leaves s⟩
  case strapTest =>
    intro s stuck
    rw [exec_strapTest, doStrapTest_eq]
  case lost =>
    intro s hclk
    rw [exec_sysclkLost, doSysclkLost_present hclk]
  case lostAlready =>
    intro s hclk
    rw [exec_sysclkLost, doSysclkLost_absent hclk]
  case returnWaits =>
    intro s h
    rw [exec_sysclkReturn, doSysclkReturn_waits h]
  case returnBeforeRom =>
    intro s hclk hrom
    rw [exec_sysclkReturn, doSysclkReturn_beforeRom hclk hrom]
  case returnAtFrame =>
    intro s hclk hrom hframe
    exact ⟨_, rfl, by rw [exec_sysclkReturn, doSysclkReturn_atFrame hclk hrom hframe rfl]⟩
  case hrefLost =>
    intro s u port hu
    rw [exec_hrefclkLost, doHrefclkLost_eq hu]
  case hrefReturn =>
    intro s u port hu
    subst hu
    rfl
  case openDrain => exact fun s b => rfl

end Sys2Proof.Machine
end

section
/-! SUPPORT. Debug authorisation (17 R469 R470 R471 R473): Buckram's turn at a challenge, a response and a close, and the two frame boundaries of a
session; O23 from these. -/

namespace Sys2Proof.Machine

variable {s : State} {c : Cmd} {who : Caller}

/-! ### Buckram's turns -/

theorem purposeOk_iff {p : Nat} : purposeOk p = true ↔ p < 4 ∨ (0x11 ≤ p ∧ p ≤ 0x15) := by simp [purposeOk]

/-- A challenge of a valid purpose replaces the one held. -/
theorem bkSecDebugChallenge_held (hpre : s.precheck 0x0A02 c who true false true false = none) {p n : Nat} {b : Bytes}
    (hp : p = cmdByte c 16) (hn : n = (s.trust.challengeCount + 1) % 2 ^ 32) (hok : p < 4 ∨ (0x11 ≤ p ∧ p ≤ 0x15))
    (hcarrier : p < 4 → s.trust.level < p → s.otherCarrier c = false)
    (hb : b = dsn ++ toLe 8 s.ft ++ sliceZ (Config.random32 s.free) 0 32 ++
      [byte p, byte s.trust.lc, byte s.trust.level, byte (b2n (c.src == .jtag))] ++ toLe 4 n ++ zeros 8) :
    bkSecDebugChallenge c who s = ((s.onTrust fun x => { x with challenge := some (b, s.ft), challengeCount := n }).useFree).bkAnswer
      0x0A02 c { Answer.ok with data := b } := by
  refine (State.bkApply_accepted hpre).trans ?_
  subst hp hn hb
  have hvalid : ¬(!purposeOk (cmdByte c 16)) = true := by simpa using purposeOk_iff.2 hok
  have hfree : ¬(decide (cmdByte c 16 < 4) && decide (s.trust.level < cmdByte c 16) && s.otherCarrier c) = true := by
    simpa [and_assoc] using hcarrier
  simp only [if_neg hvalid, if_neg hfree]
  rfl

theorem challengeBytes_length (p lc level k n ft free : Nat) :
    (dsn ++ toLe 8 ft ++ sliceZ (Config.random32 free) 0 32 ++ [byte p, byte lc, byte level, byte k] ++ toLe 4 n ++ zeros 8).length = 64 := by
  simp [dsn, zeros, sliceZ_length]

/-- A challenge for a level above the present one while the other carrier has a session. -/
theorem bkSecDebugChallenge_refused (hpre : s.precheck 0x0A02 c who true false true false = none) (hp : cmdByte c 16 < 4)
    (hlevel : s.trust.level < cmdByte c 16) (hcarrier : s.otherCarrier c = true) :
    bkSecDebugChallenge c who s = s.bkAnswer 0x0A02 c (Answer.just St.badState) := by
  refine (State.bkApply_accepted hpre).trans ?_
  have hvalid : ¬(!purposeOk (cmdByte c 16)) = true := by simpa using purposeOk_iff.2 (.inl hp)
  have hother : (decide (cmdByte c 16 < 4) && decide (s.trust.level < cmdByte c 16) && s.otherCarrier c) = true := by
    simp [hp, hlevel, hcarrier]
  simp only [if_neg hvalid, if_pos hother]
  rfl

theorem bkSecDebugResponse_checked (hpre : s.precheck 0x0A03 c who true false (c.pbLen == 3088) false = none) :
    bkSecDebugResponse c who s = match s.authCheck c false with
      | some e => s.bkAnswer 0x0A03 c (Answer.just e)
      | none => if s.trust.levelPend.isSome || s.otherCarrier c then s.bkAnswer 0x0A03 c (Answer.just St.badState)
        else s.onTrust fun x => { x with challenge := none, levelPend := some (authGrant c.pb, c, s.ft, authDuration c.pb) } := by
  refine (State.bkApply_accepted hpre).trans ?_
  cases hcheck : s.authCheck c false with
  | some e => rfl
  | none =>
    by_cases hbusy : (s.trust.levelPend.isSome || s.otherCarrier c) = true
    · simp only [if_pos hbusy]
      rfl
    · simp only [if_neg hbusy]

theorem bkSecDebugClose_ends (hpre : s.precheck 0x0A04 c who true false true false = none) {u : State}
    (hu : u = if s.trust.session = true ∧ s.otherCarrier c = false then s.endSession else s) :
    bkSecDebugClose c who s = u.bkAnswer 0x0A04 c (Answer.ok u.trust.level) := by
  refine (State.bkApply_accepted hpre).trans ?_
  have hends : (if s.trust.session && !s.otherCarrier c then s.endSession else s) = u := hu ▸ if_congr (by simp) rfl rfl
  simp only [hends]
  rfl

/-! ### The frame boundaries of a session (17 R471) -/

theorem doDebugLevelEffect_due {lv a dur : Nat} {u : State} (hpend : s.trust.levelPend = some (lv, c, a, dur)) (hs : s.fatal = false)
    (hdue : s.dueAt (nextFrame a) s.onFrame = true)
    (hu : u = s.onTrust fun x => { x with levelPend := none, session := true, carrierJtag := c.src == .jtag
                                          sessionEnd := if dur = 0 then none else some (s.frameFt + dur * 1000000000) }) :
    doDebugLevelEffect s = ((if lv < 2 then u.leaveAllDstop else u).setLevel lv (c.src == .jtag)).bkAnswer 0x0A03 c
      { Answer.ok lv with ft := some s.frameFt } := by
  subst hu
  simp only [doDebugLevelEffect, hpend]
  exact if_neg (by simp [hs, State.dueFrame, hdue])

theorem doDebugSessionExpire_due {t : Nat} (hend : s.trust.sessionEnd = some t) (hsession : s.trust.session = true)
    (hdue : s.dueAt (nextFrame t) s.onFrame = true) : doDebugSessionExpire s = if s.pins.thermTrip then s else s.endSession := by
  simp only [doDebugSessionExpire, hend, State.dueFrame, hsession, hdue]
  cases s.pins.thermTrip <;> rfl

/-! ### JTAG_KZAUTH (17 R471) -/

theorem doJtagKzauth_jtag (hsrc : c.src = .jtag) : doJtagKzauth 0x0A02 c s = doSecDebugChallenge c s ∧
    doJtagKzauth 0x0A03 c s = doSecDebugResponse c s ∧ doJtagKzauth 0x0A04 c s = doSecDebugClose c s := by
  have hjtag : ¬(c.src != .jtag) = true := by simp [hsrc]
  exact ⟨if_neg hjtag, if_neg hjtag, if_neg hjtag⟩

/-! ### O23 -/

theorem exec_debugLevelEffect (s : State) : exec .debugLevelEffect s = .next (doDebugLevelEffect s) := rfl
theorem exec_debugSessionExpire (s : State) : exec .debugSessionExpire s = .next (doDebugSessionExpire s) := rfl

/-- Settles O23: Buckram's turns at the three debug opcodes, the boundaries at which a session begins and ends, and the JTAG mailbox. -/
theorem debugAuthorisation : Obligations.DebugAuthorisation := by
  refine ⟨?challenge, ?refused, ?response, ?effect, ?expire, ?close, ?jtag, ?jtagChallenge, ?jtagClose⟩
  case challenge =>
    intro s c who env t p n b h ht hp hn hok hcarrier hb
    subst ht
    exact ⟨thenBuckram_of_bkAccepts h rfl (bkSecDebugChallenge_held (State.precheck_of_bkAccepts h) hp hn hok hcarrier hb),
      hb ▸ challengeBytes_length ..⟩
  case refused =>
    intro s c who env h hp hlevel hcarrier
    exact thenBuckram_of_bkAccepts h rfl (bkSecDebugChallenge_refused (State.precheck_of_bkAccepts h) hp hlevel hcarrier)
  case response =>
    intro s c who env h
    exact thenBuckram_of_bkAccepts h rfl (bkSecDebugResponse_checked (State.precheck_of_bkAccepts h))
  case effect =>
    intro s lv a dur c u hpend hs hdue hu
    rw [exec_debugLevelEffect, doDebugLevelEffect_due hpend hs hdue hu]
  case expire =>
    intro s t hend hsession hdue
    rw [exec_debugSessionExpire, doDebugSessionExpire_due hend hsession hdue]
  case close =>
    intro s c who env u h hu
    exact thenBuckram_of_bkAccepts h rfl (bkSecDebugClose_ends (State.precheck_of_bkAccepts h) hu)
  case jtag =>
    intro s c hsrc
    obtain ⟨hchallenge, hresponse, hclose⟩ := doJtagKzauth_jtag (s := s) hsrc
    exact ⟨congrArg Host.Outcome.next hchallenge, congrArg Host.Outcome.next hresponse, congrArg Host.Outcome.next hclose⟩
  case jtagChallenge => exact fun s c hsrc => ⟨_, congrArg Host.Outcome.next (doJtagKzauth_jtag hsrc).1, rfl⟩
  case jtagClose =>
    intro s c who env hsrc h hsession hcarrier
    have hclose := (doJtagKzauth_jtag (s := s) hsrc).2.2
    exact thenBuckram_of_bkAccepts h (congrArg Host.Outcome.next hclose)
      (bkSecDebugClose_ends (State.precheck_of_bkAccepts h) (if_pos ⟨hsession, hcarrier⟩).symm)

end Sys2Proof.Machine
end

section
/-! SUPPORT. Lifecycle transitions, wrapped keys, attestation and injected errors (17 R465 R466 R468 R476 R479): Buckram's turn at each; O24 from
these. -/

namespace Sys2Proof.Machine

variable {s : State} {c : Cmd} {who : Caller}

/-! ### SEC_LIFECYCLE_SET (17 R468) -/

theorem bkSecLifecycleSet_refused {e : Nat} (hpre : s.precheck 0x0A01 c who true false (c.pbLen == 3088) false = none)
    (hcheck : s.authCheck c true = some e) (noise : Bool) :
    bkSecLifecycleSet c who noise s = s.bkAnswer 0x0A01 c (Answer.just e) := by
  refine (State.bkApply_accepted hpre).trans ?_
  simp only [hcheck]
  rfl

/-- A transition that its checks let pass: what stops it, and its effects with the record burned last. -/
theorem bkSecLifecycleSet_checked {v : State} {x : State × Bool} {noise : Bool}
    (hpre : s.precheck 0x0A01 c who true false (c.pbLen == 3088) false = none) (hcheck : s.authCheck c true = none)
    (hx : x = ((s.onTrust fun y => { y with challenge := none }).onFuses
      (burnFlags c.pb ((unsealOrk s.trust.fuses c.pb).getD []))).transitionEffects s.trust.lc (authGrant c.pb) c.pb noise)
    (hv : v = (x.1.onFuses fun f => { f with lcLog := f.lcLog ++ [authGrant c.pb] }).extendMr3) :
    bkSecLifecycleSet c who noise s =
      if 64 ≤ s.trust.fuses.lcLog.length ∨ (s.trust.lc = 4 ∧ authGrant c.pb = 3 ∧ s.trust.fuses.ds.all Option.isSome = true) then
        s.bkAnswer 0x0A01 c (Answer.just St.noResource)
      else if burnOrk c.pb = true ∧ unsealOrk s.trust.fuses c.pb = none then s.bkAnswer 0x0A01 c (Answer.just St.authfail)
      else if x.2 = true then (v.onTrust fun y => { y with
          resetAt := some (y.resetAt.getD (roundUp (v.ft + 10000000) 1048576)) }).bkAnswer 0x0A01 c (Answer.ok (authGrant c.pb))
      else (if authFlags c.pb = 0 then x.1 else x.1.extendMr3).bkAnswer 0x0A01 c (Answer.just St.timeout) := by
  refine (State.bkApply_accepted hpre).trans ?_
  have hused : (decide (64 ≤ s.trust.fuses.lcLog.length) ||
      (s.trust.lc == 4 && authGrant c.pb == 3 && s.trust.fuses.ds.all Option.isSome)) = true ↔
      64 ≤ s.trust.fuses.lcLog.length ∨ (s.trust.lc = 4 ∧ authGrant c.pb = 3 ∧ s.trust.fuses.ds.all Option.isSome = true) := by
    simp only [Bool.or_eq_true, Bool.and_eq_true, decide_eq_true_eq, beq_iff_eq, and_assoc]
  have hsealed : (burnOrk c.pb && (unsealOrk s.trust.fuses c.pb).isNone) = true ↔
      burnOrk c.pb = true ∧ unsealOrk s.trust.fuses c.pb = none := by
    simp only [Bool.and_eq_true, Option.isNone_iff_eq_none]
  simp only [hcheck, hused, hsealed]
  by_cases hnone : 64 ≤ s.trust.fuses.lcLog.length ∨ (s.trust.lc = 4 ∧ authGrant c.pb = 3 ∧ s.trust.fuses.ds.all Option.isSome = true)
  · simp only [if_pos hnone]
    rfl
  by_cases hork : burnOrk c.pb = true ∧ unsealOrk s.trust.fuses c.pb = none
  · simp only [if_neg hnone, if_pos hork]
    rfl
  simp only [if_neg hnone, if_neg hork, ← hx]
  obtain ⟨t, done⟩ := x
  subst hv
  cases done <;> rfl

/-! ### SEC_KEY_INSTALL (17 R465) -/

theorem le_two_of_keyKindOk (h : keyKindOk c = true) : cmdByte c 16 ≤ 2 := by
  simp only [keyKindOk, Bool.and_eq_true, decide_eq_true_eq] at h
  exact h.1

/-- An install that its checks let pass, of an object that may take a key. -/
theorem bkSecKeyInstall_unwraps {o : Owner} (hpre : s.precheck 0x0A07 c who true false (keyLenOk c) false
      (keyTargetOk (cmdByte c 16) c.target.toNat) (s.keyFound c who) = none)
    (hkind : keyKindOk c = true) (hobj : s.keyObject (cmdByte c 16) c.target.toNat = some o)
    (hfree : cmdByte c 16 = 1 → s.cy.vidKeys.has c.target.toNat = false) :
    bkSecKeyInstall c who s = match s.unwrap c o with
      | .inl (e, d) => s.bkAnswer 0x0A07 c { Answer.just e with d0 := d }
      | .inr pt => (if cmdByte c 16 = 0 then s.keyForConn c.target.toNat pt
          else if cmdByte c 16 = 1 then s.keyForVolume c.target.toNat pt
          else s.installChan c.target.toNat (cmdByte c 17) pt).bkAnswer 0x0A07 c Answer.ok := by
  refine (State.bkApply_accepted hpre).trans ?_
  have hk := le_two_of_keyKindOk hkind
  have hkeyless : ¬(cmdByte c 16 == 1 && s.cy.vidKeys.has c.target.toNat) = true := by simpa using hfree
  simp only [if_neg (show ¬2 < cmdByte c 16 by omega), hobj, hkind, Bool.not_true, Bool.false_eq_true, if_false, if_neg hkeyless]
  cases s.unwrap c o with
  | inl ed => rfl
  | inr pt =>
    generalize cmdByte c 16 = kind at hk
    interval_cases kind <;> rfl

/-- A volume that has a key. -/
theorem bkSecKeyInstall_exists {o : Owner} (hpre : s.precheck 0x0A07 c who true false (keyLenOk c) false
      (keyTargetOk (cmdByte c 16) c.target.toNat) (s.keyFound c who) = none)
    (hkind : keyKindOk c = true) (hone : cmdByte c 16 = 1) (hobj : s.keyObject 1 c.target.toNat = some o)
    (hkeyed : s.cy.vidKeys.has c.target.toNat = true) :
    bkSecKeyInstall c who s = s.bkAnswer 0x0A07 c (Answer.just St.exist) := by
  refine (State.bkApply_accepted hpre).trans ?_
  simp only [hone, hobj, hkind, hkeyed]
  rfl

/-! ### SEC_ATTEST (17 R476) -/

theorem bkSecAttest_part (hpre : s.precheck 0x0A05 c who true false (c.pbLen == 0 || c.pbLen == 32) false = none) (hlen : c.pbLen = 0)
    (rpmb : Bool) : bkSecAttest c who rpmb s = s.bkAnswer 0x0A05 c (s.reportPart who (cmdLe c 16 4) (cmdByte c 20)) := by
  refine (State.bkApply_accepted hpre).trans ?_
  simp only [if_neg (show ¬c.pbLen = 32 by omega)]
  rfl

theorem bkSecAttest_signs (hpre : s.precheck 0x0A05 c who true false (c.pbLen == 0 || c.pbLen == 32) false = none) (hlen : c.pbLen = 32)
    (hparams : cmdLe c 16 5 = 0) {rpmb : Bool} {r : State × Option Answer} {a : Answer} (hr : r = s.signReport c who rpmb)
    (ha : r.2 = some a) : bkSecAttest c who rpmb s = r.1.bkAnswer 0x0A05 c a := by
  refine (State.bkApply_accepted hpre).trans ?_
  obtain ⟨t, a'⟩ := r
  obtain rfl : a' = some a := ha
  simp only [if_pos hlen, hparams, bne_self_eq_false, Bool.false_eq_true, if_false, ← hr]
  rfl

/-! ### DIAG_ERR_INJECT (17 R479) -/

theorem bkDiagErrInject_accepted (hpre : s.precheck 0x0E06 c who true false true false = none) :
    bkDiagErrInject c who s = (s.siteError c.target.toNat (Config.errSite c.target.toNat (sliceZ c.params 0 16))
      (Config.errPattern c.target.toNat (sliceZ c.params 0 16))).bkAnswer 0x0E06 c Answer.ok :=
  State.bkApply_accepted hpre

/-! ### O24 -/

/-- Settles O24: Buckram's turn at each of the four opcodes, in the state where the command is in progress. -/
theorem lifecycleKeysAndAttestation : Obligations.LifecycleKeysAndAttestation := by
  refine ⟨?refused, ?transition, ?install, ?keyed, ?part, ?signed, ?inject⟩
  case refused =>
    intro s c who env e h hcheck
    exact thenBuckram_of_bkAccepts h rfl (bkSecLifecycleSet_refused (State.precheck_of_bkAccepts h) hcheck env.noiseOk)
  case transition =>
    intro s c who env t v x h ht hx hv
    subst ht
    refine thenBuckram_of_bkAccepts h rfl ?_
    cases hcheck : (s.served 0x0A01 c).authCheck c true with
    | some e => exact bkSecLifecycleSet_refused (State.precheck_of_bkAccepts h) hcheck env.noiseOk
    | none => exact bkSecLifecycleSet_checked (State.precheck_of_bkAccepts h) hcheck hx hv
  case install =>
    intro s c who env t o h ht hkind hobj hfree
    subst ht
    exact thenBuckram_of_bkAccepts h rfl (bkSecKeyInstall_unwraps (State.precheck_of_bkAccepts h) hkind hobj hfree)
  case keyed =>
    intro s c who env o h hkind hone hobj hkeyed
    exact thenBuckram_of_bkAccepts h rfl (bkSecKeyInstall_exists (State.precheck_of_bkAccepts h) hkind hone hobj hkeyed)
  case part =>
    intro s c who env h hlen
    exact thenBuckram_of_bkAccepts h rfl (bkSecAttest_part (State.precheck_of_bkAccepts h) hlen env.rpmbOk)
  case signed =>
    intro s c who env r a h hlen hparams hr ha
    exact thenBuckram_of_bkAccepts h rfl (bkSecAttest_signs (State.precheck_of_bkAccepts h) hlen hparams hr ha)
  case inject =>
    intro s c who env h
    exact thenBuckram_of_bkAccepts h rfl (bkDiagErrInject_accepted (State.precheck_of_bkAccepts h))

end Sys2Proof.Machine
end

section
/-! SUPPORT. Counters, their latch, permissions and sampling (18 R498 R500 R502 R508); O26 from these. -/

namespace Sys2Proof.Machine

variable {s : State} {c : Cmd} {who : Caller}

/-! ### Reading (18 R500) -/

/-- CT_READ by what the check of the caller and the kind of the block say. -/
theorem doCtRead_accepted (h : s.accepts 0x0D01 c who (ctClassDenied c who s) true false (ctForm c) ((s.taken 0x0D01 c).ctFound c who) = true)
    {t : State} (ht : t = s.taken 0x0D01 c) : doCtRead c s =
      match t.ctDenied who (ctKind c.target.toNat) (ctIndex c.target.toNat) with
      | some e => t.answer 0x0D01 c (Answer.just e)
      | none => if ctKind c.target.toNat = 24 then t.answer 0x0D01 c
            (match (t.ct.dumps.get (ctIndex c.target.toNat)).bind (·.lastRecord) with
             | some b => { Answer.ok (le b 6 2) with data := b }
             | none => Answer.ok)
          else (t.latchBlock (ctKind c.target.toNat) (ctIndex c.target.toNat)).1.answer 0x0D01 c
            { Answer.ok (t.latchBlock (ctKind c.target.toNat) (ctIndex c.target.toNat)).2.length with
              data := ((t.latchBlock (ctKind c.target.toNat) (ctIndex c.target.toNat)).2.map (toLe 8)).flatten } := by
  subst ht
  refine (State.sf_accepted h).trans ?_
  dsimp only
  cases hden : (s.taken 0x0D01 c).ctDenied who (ctKind c.target.toNat) (ctIndex c.target.toNat) with
  | some e => rfl
  | none =>
    by_cases hdump : ctKind c.target.toNat = 24
    · simp only [if_pos hdump]
      cases ((s.taken 0x0D01 c).ct.dumps.get (ctIndex c.target.toNat)).bind (·.lastRecord) <;> rfl
    · simp only [if_neg hdump]
      rfl

/-- The latch of a counter block whose words are counters takes each as it stands, and changes the counters alone. -/
theorem State.latchBlock_counters {kind : Nat} (hk : kind < 10) (hone : kind ≠ 1) (idx : Nat) :
    (s.latchBlock kind idx).2 = (List.range (ctWords kind idx)).map (s.counter kind idx) ∧
      (s.latchBlock kind idx).1 = { s with ct := (s.latchBlock kind idx).1.ct } := by
  have hword : s.ctWord kind idx = s.counter kind idx := by
    funext k
    unfold State.ctWord
    split
    · omega
    · omega
    · exact absurd rfl hone
    · rfl
  have hbuffer : kind ≠ 25 := by omega
  unfold State.latchBlock
  rw [if_neg hbuffer]
  exact ⟨by rw [← hword], rfl⟩

/-! ### Counting (18 R498) -/

theorem ctAdd_one_of_lt {v : Nat} (h : v < 2 ^ 48 - 1) : ctAdd v 1 = v + 1 := by
  have hfits : ¬(2 ^ 63 ≤ v ∨ 2 ^ 48 ≤ v % 2 ^ 48 + 1) := by omega
  simp only [ctAdd, ← Bool.decide_or, decide_eq_false hfits, b2n, Bool.false_eq_true, if_false]
  omega

/-- The greatest count wraps to 0 with OVF. -/
theorem ctAdd_one_wraps : ctAdd (2 ^ 48 - 1) 1 = 2 ^ 63 := by decide

theorem State.counter_count (s : State) (kind idx w : Nat) : (s.count kind idx w).counter kind idx w = ctAdd (s.counter kind idx w) 1 :=
  congrArg (Option.getD · 0) (Tab.get_set_self ..)

/-! ### Permissions and sampling (18 R502 R508) -/

theorem doCtSlicePerm_accepted (h : s.accepts 0x0D04 c who false true true = true) : doCtSlicePerm c s =
    if 1 < cmdByte c 16 then (s.taken 0x0D04 c).answer 0x0D04 c (Answer.just St.badParam)
    else ((s.taken 0x0D04 c).onHost fun h => { h with
      slices := h.slices.mod c.target.toNat fun x => { x with ctAllowed := cmdByte c 16 == 1 } }).answer 0x0D04 c Answer.ok := by
  refine (State.sf_accepted h).trans ?_
  by_cases hvalue : 1 < cmdByte c 16
  · simp only [if_pos hvalue]
    rfl
  · simp only [if_neg hvalue]
    rfl

theorem State.sampleSet_valid (h : s.accepts 0x0D05 c who false true false = true) (hkind : cmdByte c 16 ≤ 1)
    (hk : cmdByte c 17 = 0 ∨ (8 ≤ cmdByte c 17 ∧ cmdByte c 17 ≤ 24)) : s.sampleSet c =
      (s.taken 0x0D05 c).onCores fun x => { x with
        samplePend := x.samplePend ++ [(c.target.toNat, cmdByte c 16 == 1, cmdByte c 17, (s.taken 0x0D05 c).ft, c)] } := by
  refine (State.sf_accepted h).trans ?_
  have hok : ¬(decide (1 < cmdByte c 16) || !sampleKOk (cmdByte c 17)) = true := by simp [sampleKOk]; omega
  simp only [if_neg hok]

theorem State.sampleSet_invalid (h : s.accepts 0x0D05 c who false true false = true) (hzero : cmdByte c 17 ≠ 0)
    (hk : cmdByte c 17 < 8 ∨ 24 < cmdByte c 17) : s.sampleSet c = (s.taken 0x0D05 c).answer 0x0D05 c (Answer.just St.badParam) := by
  refine (State.sf_accepted h).trans ?_
  have hbad : (decide (1 < cmdByte c 16) || !sampleKOk (cmdByte c 17)) = true := by simp [sampleKOk]; omega
  simp only [if_pos hbad]
  rfl

theorem exec_ctSampleSetCore (hkind : cmdByte c 16 = 0) : exec (.ctSampleSetCore c) s = .next (s.sampleSet c) :=
  congrArg Host.Outcome.next (if_neg (by omega))

theorem exec_ctSampleSetPacket (hkind : cmdByte c 16 = 1) : exec (.ctSampleSetPacket c) s = .next (s.sampleSet c) :=
  congrArg Host.Outcome.next (if_neg (by omega))

/-! ### O26 -/

theorem exec_ctRead (c : Cmd) (s : State) : exec (.ctRead c) s = .next (doCtRead c s) := rfl
theorem exec_ctSlicePerm (c : Cmd) (s : State) : exec (.ctSlicePerm c) s = .next (doCtSlicePerm c s) := rfl
theorem exec_sampleSetEffect (tile : Nat) (s : State) :
    exec (.sampleSetEffect tile) s = .next (s.backFrom (doSampleSetEffect tile (s.seenFrom tile))) := rfl

/-- Settles O26: a read by its check, the latch and the count of a counter word, and the settings as they are taken and come into force. -/
theorem countersAreLatchedWhole : Obligations.CountersAreLatchedWhole := by
  refine ⟨?read, ?denied, ?record, ?latch, ?count, ?perm, ?sample, ?badSample, ?effect⟩
  case read =>
    intro s c who h hden hkind
    rw [exec_ctRead, doCtRead_accepted h rfl, hden]
    exact congrArg Host.Outcome.next (if_neg hkind)
  case denied =>
    intro s c who e h hden
    rw [exec_ctRead, doCtRead_accepted h rfl, hden]
  case record =>
    intro s c who h hden hkind
    rw [exec_ctRead, doCtRead_accepted h rfl, hden]
    exact congrArg Host.Outcome.next (if_pos hkind)
  case latch => exact fun s kind idx hk hone => State.latchBlock_counters hk hone idx
  case count =>
    intro s kind idx w _
    rw [State.counter_count]
    exact ⟨ctAdd_one_of_lt, fun hmax => by rw [hmax, ctAdd_one_wraps]⟩
  case perm =>
    intro s c who h
    rw [exec_ctSlicePerm, doCtSlicePerm_accepted h]
  case sample =>
    intro s c who h hk
    refine ⟨fun hkind => ?_, fun hkind => ?_⟩
    · rw [exec_ctSampleSetCore hkind, State.sampleSet_valid h (by omega) hk, hkind]
      rfl
    · rw [exec_ctSampleSetPacket hkind, State.sampleSet_valid h (by omega) hk, hkind]
      rfl
  case badSample =>
    intro s c who h hzero hk
    exact ⟨fun hkind => by rw [exec_ctSampleSetCore hkind, State.sampleSet_invalid h hzero hk],
      fun hkind => by rw [exec_ctSampleSetPacket hkind, State.sampleSet_invalid h hzero hk]⟩
  case effect =>
    rintro s0 _ tile rfl hs
    rw [exec_sampleSetEffect]
    refine congrArg (fun t => Host.Outcome.next (s0.backFrom t)) ?_
    exact if_neg (by rw [hs]; decide)

end Sys2Proof.Machine
end

section
/-! SUPPORT. Dumps (18 R503 R504 R506 R507). The armed dumps stand through device writes, owner's writes and raised events: one lemma for each
operation on the way. Then arming, latching, writing and cancelling; O27 from these. -/

namespace Sys2Proof.Machine

/-- The armed dumps. -/
def State.dumps (s : State) : Tab Dump := s.ct.dumps

variable {s : State}

/-! ### What the dumps stand through -/

@[simp] theorem State.dumps_countBy (kind index word n : Nat) : (s.countBy kind index word n).dumps = s.dumps := rfl
@[simp] theorem State.dumps_count (kind index word : Nat) : (s.count kind index word).dumps = s.dumps := rfl
@[simp] theorem State.dumps_onThread (tid : Nat) (f : Thread → Thread) : (s.onThread tid f).dumps = s.dumps := rfl
@[simp] theorem State.dumps_leaveReaders (tid : Nat) (t : Thread) : (s.leaveReaders tid t).dumps = s.dumps := rfl
@[simp] theorem State.dumps_coreSettle (core : Nat) : (s.coreSettle core).dumps = s.dumps := rfl
@[simp] theorem State.dumps_useFree : s.useFree.dumps = s.dumps := rfl
@[simp] theorem State.dumps_emit (o : Out) : (s.emit o).dumps = s.dumps := rfl
@[simp] theorem State.dumps_leaveL1 (f : FnRef) : (s.leaveL1 f).dumps = s.dumps := rfl
@[simp] theorem State.dumps_onEv (f : EvSt → EvSt) : (s.onEv f).dumps = s.dumps := rfl
@[simp] theorem State.dumps_onCores (f : CoresSt → CoresSt) : (s.onCores f).dumps = s.dumps := rfl

theorem State.dumps_pokeByte (s : State) (a : Nat) (b : Byte) : (s.pokeByte a b).dumps = s.dumps := by
  unfold State.pokeByte
  split <;> rfl

@[simp] theorem State.dumps_pokeBytes (a : Nat) (bs : Bytes) : (s.pokeBytes a bs).dumps = s.dumps :=
  foldl_keeps State.dumps (fun s (x : Byte × Nat) => s.pokeByte (a + x.2) x.1) (fun s _ => s.dumps_pokeByte ..) _ s

@[simp] theorem State.dumps_cleanLines (a n : Nat) : (s.cleanLines a n).dumps = s.dumps :=
  foldl_keeps State.dumps (fun s (x : ChannelSt × Nat) => s.countBy Ct.ddr (512 + x.2) 0 _) (fun _ _ => rfl) _ _

theorem State.dumps_devWrite {t : State} {q : Requester} {a : Nat} {bs : Bytes} (hw : s.devWrite q a bs = some t) : t.dumps = s.dumps := by
  unfold State.devWrite at hw
  split at hw
  · obtain rfl := Option.some.inj hw
    simp
  · cases hw

@[simp] theorem State.dumps_ownerWrite (o : Owner) (a : Nat) (b : Bytes) (ro : Bool) : (s.ownerWrite o a b ro).1.dumps = s.dumps := by
  unfold State.ownerWrite
  split
  · split
    · next hw => exact State.dumps_devWrite hw
    · rfl
  · split
    · exact (foldl_keeps State.dumps _ (fun _ _ => State.dumps_emit _) _ _).trans (State.dumps_leaveL1 _)
    · rfl

@[simp] theorem State.dumps_writeSlot (o : Owner) (a : Nat) (b : Bytes) : (s.writeSlot o a b).dumps = s.dumps := by
  simp [State.writeSlot]

@[simp] theorem State.dumps_coreRecord (tile : Nat) (b : Bytes) : (s.coreRecord tile b).dumps = s.dumps := by
  unfold State.coreRecord
  split <;> rfl

@[simp] theorem State.dumps_settleFollow (tid : Nat) (t : Thread) (level : Nat) : (s.settleFollow tid t level).dumps = s.dumps := by
  unfold State.settleFollow
  repeat' split
  all_goals simp

@[simp] theorem State.dumps_unblock (tid v level : Nat) : (s.unblock tid v level).dumps = s.dumps := by
  unfold State.unblock
  split <;> simp

@[simp] theorem State.dumps_wakeEv (tid : Nat) : (s.wakeEv tid).dumps = s.dumps := by
  unfold State.wakeEv
  repeat' split
  all_goals simp

@[simp] theorem State.dumps_wakeBy (bitNo tid : Nat) : (s.wakeBy bitNo tid).dumps = s.dumps := by
  unfold State.wakeBy
  repeat' split
  all_goals simp

@[simp] theorem State.dumps_postEvent (tid bitNo : Nat) : (s.postEvent tid bitNo).dumps = s.dumps := by
  unfold State.postEvent
  split
  · rfl
  · dsimp only
    split
    · exact (foldl_keeps State.dumps _ (fun _ _ => State.dumps_wakeBy ..) _ _).trans (State.dumps_onThread ..)
    · simp

@[simp] theorem State.dumps_loseRecord (d : EvDest) : (s.loseRecord d).dumps = s.dumps := by
  cases d <;> rfl

@[simp] theorem State.dumps_openRecord (d : EvDest) (src obj detail : Nat) (sid : Option Nat) :
    (s.openRecord d src obj detail sid).dumps = s.dumps := by
  unfold State.openRecord
  repeat' split
  all_goals simp

@[simp] theorem State.dumps_toFn (f : FnRef) (src obj detail : Nat) (sid : Option Nat) : (s.toFn f src obj detail sid).dumps = s.dumps := by
  unfold State.toFn
  split
  · rfl
  · split
    · exact State.dumps_openRecord ..
    · exact State.dumps_loseRecord ..

@[simp] theorem State.dumps_toFirmware (src obj detail : Nat) (sid : Option Nat) : (s.toFirmware src obj detail sid).dumps = s.dumps := by
  unfold State.toFirmware
  extract_lets routed die base p
  have hroute : routed.dumps = s.dumps := by
    unfold routed
    split <;> simp
  split
  · exact hroute
  · split
    · next hw => exact (State.dumps_devWrite hw).trans hroute
    · exact hroute

@[simp] theorem State.dumps_raise (src obj detail : Nat) (sc : Scope) : (s.raise src obj detail sc).dumps = s.dumps := by
  unfold State.raise
  repeat' split
  all_goals simp

/-- A latch takes words or empties a sample buffer: it leaves the dumps and the time unit. -/
theorem State.latchBlock_frame (s : State) (kind idx : Nat) :
    (s.latchBlock kind idx).1.dumps = s.dumps ∧ (s.latchBlock kind idx).1.ftu = s.ftu := by
  unfold State.latchBlock
  dsimp only
  split
  · have hbuffer : ∀ x : CtSt, (if idx < 4 then { x with coreBuf := modAt x.coreBuf (idx % 4) fun _ => [] }
        else { x with pktBuf := modAt x.pktBuf (idx % 4) fun _ => [] }).dumps = x.dumps := fun x => by split <;> rfl
    exact ⟨hbuffer s.ct, rfl⟩
  · exact ⟨rfl, rfl⟩

/-! ### A dump changed -/

variable {n : Nat} {d : Dump}

/-- Two changes that agree on the dump are one. -/
theorem State.onDump_congr {f g : Dump → Dump} (h : s.dumps.get n = some d) (hfg : f d = g d) : s.onDump n f = s.onDump n g :=
  congrArg (fun x => s.onCt fun y => { y with dumps := x }) (Tab.mod_congr h hfg)

theorem State.dumps_onDump_get (f : Dump → Dump) (h : s.dumps.get n = some d) : (s.onDump n f).dumps.get n = some (f d) := by
  refine (Tab.get_mod_self ..).trans ?_
  rw [show s.ct.dumps.get n = some d from h]
  rfl

/-! ### Arming (18 R503) -/

variable {c : Cmd} {who : Caller}

theorem doCtDumpSet_armed {u : State} (h : s.accepts 0x0D02 c who (ctClassDenied c who s) true false
      (ctForm c && ctKind c.target.toNat != 24) ((s.taken 0x0D02 c).ctFound c who) = true) (hu : u = s.taken 0x0D02 c)
    (hden : u.ctDenied who (ctKind c.target.toNat) (ctIndex c.target.toNat) = none)
    (hperiod : cmdLe c 24 8 = 0 ∨ (100000 ≤ cmdLe c 24 8 ∧ cmdLe c 24 8 ≤ 10 ^ 15 ∧ cmdLe c 16 8 < cmdLe c 24 8))
    (harea : cmdRbuf c = true → slotSize (ctKind c.target.toNat) (ctIndex c.target.toNat) ≤ (cmdRbufDesc c).len)
    (hfree : chooseFree u.freeVal 4096 u.ct.dumps.length u.ct.dumps.has = some n) :
    doCtDumpSet c s = ((u.onCt fun x => { x with dumps := Tab.set x.dumps n {
        owner := who, block := c.target.toNat, period := cmdLe c 24 8
        phase := if cmdLe c 24 8 = 0 ∧ cmdLe c 16 8 < u.ft then nextFrame u.ft else cmdLe c 16 8
        area := if cmdRbuf c then (u.refOf who.owner).map fun r => (r, cmdRbufDesc c) else none, latched := none, seq := 0
        skipped := false, latchedSkip := false, lastRecord := none, fromFt := u.ft, oneShotDone := false } }).useFree).answer 0x0D02 c
          (Answer.ok n) := by
  subst hu
  refine (State.sf_accepted h).trans ?_
  have hp : ¬(cmdLe c 24 8 != 0 && (decide (cmdLe c 24 8 < 100000) || decide (10 ^ 15 < cmdLe c 24 8) || decide (cmdLe c 24 8 ≤ cmdLe c 16 8))) =
      true := by
    simp only [Bool.and_eq_true, Bool.or_eq_true, decide_eq_true_eq, bne_iff_ne]
    omega
  have ha : ¬(cmdRbuf c && decide ((cmdRbufDesc c).len < slotSize (ctKind c.target.toNat) (ctIndex c.target.toNat))) = true := by
    simpa using harea
  simp only [hden, if_neg hp, if_neg ha, hfree]
  rfl

/-! ### Latching (18 R504) -/

/-- An instant of a dump has come: the FT of a one-shot dump that is past, or the instant of a period that FT has come to. -/
def State.dumpInstant (s : State) (d : Dump) (t : Nat) : Prop :=
  (d.period = 0 ∧ d.oneShotDone = false ∧ d.phase ≤ s.ft ∧ t = s.ft) ∨
    (d.period ≠ 0 ∧ s.onGrid d.period d.phase = true ∧ t = s.gridFt d.period d.phase ∧ d.fromFt ≤ t)

/-- At its instant a dump latches, or passes the instant over. -/
theorem doDumpLatch_instant {t : Nat} (hd : s.ct.dumps.get n = some d) (hs : s.fatal = false) (ht : s.dumpInstant d t) {u : State}
    (hu : u = s.onDump n fun x => { x with fromFt := t + 1, oneShotDone := d.period == 0 }) :
    doDumpLatch n s = if d.latched.isSome then u.onDump n fun x => { x with skipped := true }
      else (u.latchBlock (ctKind d.block) (ctIndex d.block)).1.onDump n fun x => { x with
        latched := some (t, u.ftu.state.code, (u.latchBlock (ctKind d.block) (ctIndex d.block)).2)
        latchedSkip := d.skipped, skipped := false } := by
  have htime : (if d.period = 0 then s.ft else s.gridFt d.period d.phase) = t := by
    rcases ht with ⟨hzero, -, -, rfl⟩ | ⟨hperiod, -, rfl, -⟩
    · exact if_pos hzero
    · exact if_neg hperiod
  have hdue : (if d.period = 0 then !d.oneShotDone && decide (d.phase ≤ s.ft) else decide (d.fromFt ≤ t) && s.onGrid d.period d.phase) = true := by
    rcases ht with ⟨hzero, hdone, hphase, -⟩ | ⟨hperiod, hgrid, -, hfrom⟩
    · rw [if_pos hzero, hdone, decide_eq_true hphase]
      rfl
    · rw [if_neg hperiod, hgrid, decide_eq_true hfrom]
      rfl
  obtain ⟨hdumps, hftu⟩ := u.latchBlock_frame (ctKind d.block) (ctIndex d.block)
  have hat : (u.latchBlock (ctKind d.block) (ctIndex d.block)).1.dumps.get n = some { d with fromFt := t + 1, oneShotDone := d.period == 0 } := by
    rw [hdumps, hu]
    exact State.dumps_onDump_get _ hd
  have hsame : u = s.onDump n fun d => { d with fromFt := t + 1, oneShotDone := d.period == 0 } := hu.trans (State.onDump_congr hd rfl)
  simp only [doDumpLatch, hd, htime, hdue, hs, Bool.not_true, Bool.or_self, Bool.false_eq_true, if_false, ← hsame]
  by_cases hwaits : d.latched.isSome = true
  · rw [if_pos hwaits, if_pos hwaits]
  · rw [if_neg hwaits, if_neg hwaits, hftu]
    exact State.onDump_congr hat rfl

/-! ### Writing and cancelling (18 R506 R507) -/

/-- A latched record written: to its slot where it has an area, with the event where it is late. -/
theorem State.writeDump_latched {t fts : Nat} {l : List Nat} (hd : s.ct.dumps.get n = some d) (hl : d.latched = some (t, fts, l)) {late : Bool}
    {b : Bytes} {u : State} (hlate : late = decide (t + 50000 < s.ft)) (hb : b = dumpBytes n d t fts l late)
    (hu : u = match d.area with
      | some (_, f) => s.writeSlot d.owner.owner (f.addr + d.seq % max 1 (f.len / slotSize (ctKind d.block) (ctIndex d.block)) *
          slotSize (ctKind d.block) (ctIndex d.block)) b
      | none => s) :
    s.writeDump n d = (if late then u.raise (sourceNo (lateTile (ctKind d.block) (ctIndex d.block)) 832) n
        (min ((u.ft - t) / 1000) 0xFFFFFFFF) (.own d.owner.owner) else u).onDump n fun x => { x with
      latched := none, latchedSkip := false, seq := d.seq + 1, lastRecord := some b } := by
  have hdumps : u.dumps = s.dumps := by
    rw [hu]
    split
    · simp
    · rfl
  have hkept : (if late then u.raise (sourceNo (lateTile (ctKind d.block) (ctIndex d.block)) 832) n
      (min ((u.ft - t) / 1000) 0xFFFFFFFF) (.own d.owner.owner) else u).dumps.get n = some d := by
    have hraised : (if late then u.raise (sourceNo (lateTile (ctKind d.block) (ctIndex d.block)) 832) n
        (min ((u.ft - t) / 1000) 0xFFFFFFFF) (.own d.owner.owner) else u).dumps = s.dumps := by
      split
      · rw [State.dumps_raise, hdumps]
      · exact hdumps
    rw [hraised]
    exact hd
  refine Eq.trans ?_ (State.onDump_congr hkept (f := fun x => { x with
    latched := none, latchedSkip := false, seq := x.seq + 1, lastRecord := some b }) rfl)
  subst hu hb hlate
  simp only [State.writeDump, hl] <;> rfl

theorem doDumpRecordWrite_free (hd : s.ct.dumps.get n = some d) (hs : s.fatal = false)
    (hheld : d.area = none ∨ s.ownerHeld d.owner.owner = false) : doDumpRecordWrite n s = s.writeDump n d := by
  simp only [doDumpRecordWrite, hd]
  refine if_neg ?_
  rcases hheld with harea | hheld
  · simp [hs, harea]
  · simp [hs, hheld]

/-- Checks 1 to 8 find the object. -/
theorem State.found_of_precheck {code : Nat} {three deny lenOk ex form found : Bool}
    (h : s.precheck code c who three deny lenOk ex form found = none) : found = true := by
  by_contra hfound
  rw [Bool.not_eq_true] at hfound
  unfold State.precheck at h
  simp only [hfound, Bool.not_false, Bool.or_true, if_true] at h
  repeat' split at h
  all_goals cases h

/-- The owner cancels: an instant due at its own FT is latched first, and what is latched is written. -/
theorem doCtDumpCancel_owned (h : s.accepts 0x0D03 c who false true false true
      (((s.taken 0x0D03 c).ct.dumps.get c.target.toNat).any (·.owner == who)) = true)
    (hd : (doDumpLatch c.target.toNat (s.taken 0x0D03 c)).ct.dumps.get c.target.toNat = some d) :
    doCtDumpCancel c s = (((doDumpLatch c.target.toNat (s.taken 0x0D03 c)).writeDump c.target.toNat d).onCt fun x => { x with
      dumps := Tab.del x.dumps c.target.toNat }).answer 0x0D03 c Answer.ok := by
  have hfound := State.found_of_precheck (State.accepts_iff.1 h).2.2
  obtain ⟨d', hget, howner⟩ := (Option.any_eq_true ..).1 hfound
  unfold doCtDumpCancel
  rw [State.sf_accepted h]
  have hown : ¬(d'.owner != who) = true := by simpa using howner
  simp only [hget, if_neg hown, hd]
  rfl

/-! ### O27 -/

theorem exec_ctDumpSet (c : Cmd) (s : State) : exec (.ctDumpSet c) s = .next (doCtDumpSet c s) := rfl
theorem exec_dumpLatch (n : Nat) (s : State) :
    exec (.dumpLatch n) s = .next (s.backFrom (doDumpLatch n (s.seenFrom (s.dumpDie n)))) := rfl
theorem exec_dumpRecordWrite (n : Nat) (s : State) : exec (.dumpRecordWrite n) s = .next (doDumpRecordWrite n s) := rfl
theorem exec_ctDumpCancel (c : Cmd) (s : State) : exec (.ctDumpCancel c) s = .next (doCtDumpCancel c s) := rfl

/-- Settles O27: the dumps stand through the writes and raises of their records, so a record's number is the armed dump's. -/
theorem dumpsAreArmedLatchedAndWritten : Obligations.DumpsAreArmedLatchedAndWritten := by
  refine ⟨?arm, ?latch, ?skip, ?record, ?slot, ?cancel⟩
  case arm =>
    intro s c who n u h hu hden hperiod harea hfree
    rw [exec_ctDumpSet, doCtDumpSet_armed h hu hden hperiod harea hfree]
  case latch =>
    rintro s0 _ n t d u rfl hd hs hl ht hu
    rw [exec_dumpLatch, doDumpLatch_instant hd hs ht hu, if_neg (by simp [hl])]
  case skip =>
    rintro s0 _ n t d rfl hd hs hl ht
    rw [exec_dumpLatch, doDumpLatch_instant hd hs ht rfl, if_pos (Option.isSome_iff_ne_none.2 hl)]
  case record =>
    intro s n t fts l d hd hs harea hl hearly
    have hlate : (false : Bool) = decide (t + 50000 < s.ft) := (decide_eq_false (by omega)).symm
    rw [exec_dumpRecordWrite, doDumpRecordWrite_free hd hs (.inl harea), State.writeDump_latched (u := s) hd hl hlate rfl (by rw [harea])]
    exact congrArg Host.Outcome.next (State.onDump_congr hd rfl)
  case slot =>
    intro s n t fts a sz l d r f late b u hd hs harea hl hheld hlate hb hsz ha hu
    rw [exec_dumpRecordWrite, doDumpRecordWrite_free hd hs (.inr hheld),
      State.writeDump_latched hd hl hlate hb (hu.trans (by rw [harea, ha, hsz]))]
  case cancel =>
    intro s c who d h hd _
    rw [exec_ctDumpCancel, doCtDumpCancel_owned h hd]

end Sys2Proof.Machine
end

section
/-! SUPPORT. Delivery of event records (18 R489 R490 R491 R492, 19 R530); O28 from these. -/

namespace Sys2Proof.Machine

variable {s : State} {r : OpenRec}

theorem doEventRecordWrite_due {f : FnRef} {x : FnSt} {q : Queue} (hx : s.fn f = some x) (hr : s.openRec (.fn f) = some r)
    (hq : s.queue x.cqQid = some q) (hs : s.fatal = false) (hactive : x.cmdActive = true)
    (hdue : s.dueAt (nextFrame r.ft) s.onFrame = true) (hfull : q.full = false) (hheld : q.held = []) (hnone : q.due = [])
    (hepisode : q.episode = false) (hmaster : s.mastering f = true) (hflr : x.flrAt = none) :
    doEventRecordWrite f s = (s.takeRec r).1.writeCompl x.cqQid {
      qid := x.cqQid, ok := true, suppressed := false, bytes := (s.takeRec r).2, data := none, event := true, tag := none } := by
  simp only [doEventRecordWrite, hx, hr, hq]
  exact if_neg (by simp [hs, hactive, State.dueFrame, hdue, hfull, hheld, hnone, hepisode, hmaster, hflr])

theorem doEventMctpSend_due (hr : s.ev.opened.find? (fun r => r.dest == .management && s.dieReports (sourceDie r.source)) = some r)
    (hrst : s.pins.sysRst = false) (hruns : bit s.pins.fault 51 = false) (hdue : s.dueAt (nextFrame r.ft) s.onFrame = true) :
    doEventMctpSend s = ((s.takeRec r).1.emitMctp true ((s.takeRec r).1.freeVal % 8) (s.takeRec r).2).useFree := by
  simp only [doEventMctpSend, hr]
  exact if_neg (by simp [hrst, hruns, State.dueFrame, hdue])

/-- The interface of MGMT stops at its bit of PIN_FAULT. -/
theorem doEventMctpSend_stopped (hstopped : bit s.pins.fault 51 = true) : doEventMctpSend s = s := by
  unfold doEventMctpSend
  split
  · rfl
  · exact if_pos (by simp [hstopped])

/-- The fields of an event record (18 R490). -/
theorem eventBytes_fields (src count obj ft detail : Nat) (sid : Option Nat) (lost : Bool) :
    (eventBytes src count obj ft detail sid lost).length = 32 ∧ le (eventBytes src count obj ft detail sid lost) 0 4 = src % 8192 ∧
    le (eventBytes src count obj ft detail sid lost) 8 4 = count % 2 ^ 32 ∧ le (eventBytes src count obj ft detail sid lost) 16 8 = ft % 2 ^ 64 ∧
    bit (byteAt (eventBytes src count obj ft detail sid lost) 30) 2 = true := by
  have hzeros : zeros 4 = toLe 4 0 := by decide
  have hsrc : src % 8192 % 4294967296 = src % 8192 := by omega
  have hflags : bit (byte (4 + 8 * b2n lost)).toNat 2 = true := by cases lost <;> decide
  unfold eventBytes
  rw [hzeros]
  refine ⟨by simp, by simp [le_toLe, hsrc], by simp [le_toLe_append, le_toLe], by simp [le_toLe_append, le_toLe], ?_⟩
  simpa [byteAt, List.getElem?_append, toLe_length] using hflags

/-- A raise for an object that has an open record adds to it. -/
theorem State.openRecord_open {d : EvDest} (hr : r ∈ s.ev.opened) (hd : r.dest = d) (detail : Nat) (sid : Option Nat) :
    (s.openRecord d r.source r.object detail sid).ev.opened = s.ev.opened.map fun x =>
      if x.dest = d ∧ x.source = r.source ∧ x.object = r.object then { x with count := min (x.count + 1) 0xFFFFFFFF, detail := detail }
      else x := by
  have hopen : (s.ev.opened.any fun x => x.dest == d && x.source == r.source && x.object == r.object) = true :=
    List.any_eq_true.2 ⟨r, hr, by simp [hd]⟩
  unfold State.openRecord
  rw [if_pos hopen]
  exact List.map_congr_left fun x _ => if_congr (by simp [and_assoc]) rfl rfl

/-! ### O28 -/

theorem exec_eventRecordWrite (f : FnRef) (s : State) :
    exec (.eventRecordWrite f) s = .next (s.backFrom (doEventRecordWrite f (s.seenFrom (6 + f.port)))) := rfl
theorem exec_eventMctpSend (s : State) : exec .eventMctpSend s = .next (doEventMctpSend s) := rfl

/-- Settles O28: the two deliveries at their boundaries, the fields of a record, and the raise that adds to an open one. -/
theorem eventRecordsAreDelivered : Obligations.EventRecordsAreDelivered := by
  refine ⟨?write, ?send, ?stopped, ?fields, ?raise⟩
  case write =>
    rintro s0 _ f x r q rfl hx hr hq hs hactive hdue hfull hheld hnone hepisode hmaster hflr
    rw [exec_eventRecordWrite, doEventRecordWrite_due hx hr hq hs hactive hdue hfull hheld hnone hepisode hmaster hflr]
  case send =>
    intro s r hr hrst hruns hdue
    rw [exec_eventMctpSend, doEventMctpSend_due hr hrst hruns hdue]
  case stopped =>
    intro s hstopped
    rw [exec_eventMctpSend, doEventMctpSend_stopped hstopped]
  case fields => exact fun s r => eventBytes_fields ..
  case raise => exact fun s d r detail sid hr hd => State.openRecord_open hr hd detail sid

end Sys2Proof.Machine
end

section
/-! SUPPORT. DMA entries (11 R319 R320 R324 R325 R327): the length of a beat, the start of an entry on its channel, and the end of a beat by how it
ends; O53 from these. -/

namespace Sys2Proof.Machine

variable {s : State} {e : Bytes}

/-! ### The length of a beat (11 R320) -/

/-- A beat ends where its destination line, its 64 bytes there or the entry ends, and a COPY's also where those of its source do. -/
theorem beatLen_eq (e : Bytes) (k : Nat) : beatLen e k =
    min (min (min (dmaDstLen e - k % dmaDstLen e) (64 - dmaDstAt e k % 64)) (dmaTotal e - k))
      (if dmaCopies e then min (dmaSrcLen e - k % dmaSrcLen e) (64 - dmaSrcAt e k % 64) else 64) := by
  unfold beatLen
  dsimp only
  split <;> omega

theorem beatLen_bounds {k : Nat} (hk : k < dmaTotal e) (hsrc : dmaCopies e = true → 0 < dmaSrcLen e) :
    1 ≤ beatLen e k ∧ k + beatLen e k ≤ dmaTotal e ∧ k % dmaDstLen e + beatLen e k ≤ dmaDstLen e ∧ dmaDstAt e k % 64 + beatLen e k ≤ 64 ∧
      (dmaCopies e = true → k % dmaSrcLen e + beatLen e k ≤ dmaSrcLen e ∧ dmaSrcAt e k % 64 + beatLen e k ≤ 64) := by
  have hdst : 0 < dmaDstLen e := by
    rcases Nat.eq_zero_or_pos (dmaDstLen e) with hzero | hpos
    · simp [dmaTotal, hzero] at hk
    · exact hpos
  have hline : k % dmaDstLen e < dmaDstLen e := Nat.mod_lt _ hdst
  rw [beatLen_eq]
  by_cases hcopy : dmaCopies e = true
  · have hsline : k % dmaSrcLen e < dmaSrcLen e := Nat.mod_lt _ (hsrc hcopy)
    rw [if_pos hcopy]
    refine ⟨?_, ?_, ?_, ?_, fun _ => ⟨?_, ?_⟩⟩ <;> omega
  · rw [if_neg hcopy]
    refine ⟨?_, ?_, ?_, ?_, fun h => absurd h hcopy⟩ <;> omega

/-! ### The start of an entry (11 R319) -/

theorem State.dmaStart_ready {qid op : Nat} {q : Queue} {y : State × Bool} {z : State × Nat} (hhead : s.readyHead qid = some (q, e))
    (hcls : q.cls = .dmaCh) (hop : entryOp e = op) (hy : y = if dmaShare e = 0 then s.shaperGo qid (dmaTotal e) else (s, true))
    (hz : z = y.1.newOp qid e []) : s.dmaStart qid op = match s.dmaKey qid q with
      | none => s
      | some k => if y.2 = false then y.1 else
          (((z.1.onOp z.2 fun o => { o with admitted := true }).onDmaChan k fun x => { x with
            op := some z.2, paced := dmaShare e != 0, retries := 0, nextK := 0, count := beatCount e (dmaTotal e) 0, beats := []
            doneBytes := 0, failing := none }).issueBeats k 64).dmaSettle k := by
  have hgate : ¬(q.cls != .dmaCh || entryOp e != op) = true := by simp [hcls, hop]
  unfold State.dmaStart
  simp only [hhead, if_neg hgate, ← hy]
  cases s.dmaKey qid q with
  | none => rfl
  | some k =>
    obtain ⟨u, go⟩ := y
    subst hz
    cases go <;> rfl

/-! ### The end of a beat (11 R324) -/

variable {tile chan b n k : Nat} {x : DmaChan} {y : Beat} {w : Owner}

theorem doDmaBeatComplete_held {d : Bytes} (hx : s.dmaChan (tile * 256 + chan) = some x) (he : s.dmaEntry x = some (n, e, w))
    (hy : x.beats.find? (·.k == b) = some y) (hdata : y.data = some d) (hhost : bit (dmaFl e) 1 = false) (hheld : s.ownerHeld w = true) :
    doDmaBeatComplete tile chan b s = s := by
  simp only [doDmaBeatComplete, hx, he, hy, hdata]
  exact if_pos (by simp [hhost, hheld])

theorem doDmaBeatComplete_writes {d : Bytes} (hx : s.dmaChan (tile * 256 + chan) = some x) (he : s.dmaEntry x = some (n, e, w))
    (hy : x.beats.find? (·.k == b) = some y) (hdata : y.data = some d) (hs : s.fatal = false)
    (hmay : bit (dmaFl e) 1 = true ∨ s.ownerHeld w = false) : doDmaBeatComplete tile chan b s = match s.beatWrite e w b d with
      | none => s.beatFail (tile * 256 + chan) b .writeError
      | some u => ((u.onDmaChan (tile * 256 + chan) fun x => { x with
          beats := x.beats.filter (·.k != b), doneBytes := x.doneBytes + y.len }).issueBeats (tile * 256 + chan) 64).dmaSettle
            (tile * 256 + chan) := by
  have hgate : ¬(s.fatal || (!bit (dmaFl e) 1 && s.ownerHeld w)) = true := by
    rw [hs]
    rcases hmay with hdev | hfree
    · simp [hdev]
    · simp [hfree]
  simp only [doDmaBeatComplete, hx, he, hy, hdata, if_neg hgate] <;> (cases s.beatWrite e w b d <;> rfl)

theorem doDmaBeatFail_issued {how : BeatFault} (hx : s.dmaChan (tile * 256 + chan) = some x) (he : s.dmaEntry x = some (n, e, w))
    (hy : x.beats.find? (·.k == b) = some y) (hissued : y.retryAt = none) (hs : s.fatal = false)
    (hmay : how ≠ .busMaster ∨ s.ownerHeld w = true) : doDmaBeatFail tile chan b how s =
      ((s.dropBeatRead tile chan b).beatFail (tile * 256 + chan) b how).issueBeats (tile * 256 + chan) 64 := by
  have hgate : ¬(s.fatal || y.retryAt.isSome || (how == .busMaster && !s.ownerHeld w)) = true := by
    rw [hs, hissued]
    rcases hmay with hother | hheld
    · simp [hother]
    · simp [hheld]
  simp only [doDmaBeatFail, hx, he, hy, if_neg hgate]

/-- Poison, an uncorrectable error and bus mastering end the entry at once. -/
theorem State.beatFail_atOnce (hx : s.dmaChan k = some x) (he : s.dmaEntry x = some (n, e, w)) (hy : x.beats.find? (·.k == b) = some y) :
    s.beatFail k b .poisoned = s.dmaFinish k x St.poisoned false ∧ s.beatFail k b .uncorrectable = s.dmaFinish k x St.uncorrectable false ∧
      s.beatFail k b .busMaster = s.dmaFinish k x St.abortedBme false := by
  refine ⟨?_, ?_, ?_⟩ <;> simp only [State.beatFail, hx, he, hy]

/-- Any other fault leaves the beat to its retries, and without one left the entry to fail. -/
theorem State.beatFail_retried {how : BeatFault} (hx : s.dmaChan k = some x) (he : s.dmaEntry x = some (n, e, w))
    (hy : x.beats.find? (·.k == b) = some y) (hhow : how = .readTimeout ∨ how = .readError ∨ how = .writeError) : s.beatFail k b how =
      if x.failing.isSome then (s.onDmaChan k fun x => { x with beats := x.beats.filter (·.k != b) }).dmaSettle k
      else if y.tries < dmaRetry e then
        s.onBeat k b fun y => { y with data := none, tries := y.tries + 1, retryAt := some (nextFrame s.ft) }
      else (s.onDmaChan k fun z => { z with
        failing := some (if how = .readTimeout then St.hostReadTimeout else if how = .writeError then St.hostWriteErr else St.hostReadErr,
          how == .writeError, if how = .writeError then dmaDstAt e b else dmaSrcAt e b)
        beats := x.beats.filter fun y => y.k != b && y.retryAt.isNone }).dmaSettle k := by
  have hbeats : ∀ f : Option (Nat × Bool × Nat), (s.onDmaChan k fun z => { z with
      failing := f, beats := z.beats.filter fun y => y.k != b && y.retryAt.isNone }) = s.onDmaChan k fun z => { z with
        failing := f, beats := x.beats.filter fun y => y.k != b && y.retryAt.isNone } :=
    fun f => congrArg (fun d => s.onDma fun _ => d) (Tab.mod_congr hx rfl)
  simp only [State.beatFail, hx, he, hy, ← hbeats]
  rcases hhow with rfl | rfl | rfl <;> rfl

theorem doDmaBeatRetry_due {t : Nat} (hx : s.dmaChan (tile * 256 + chan) = some x) (he : s.dmaEntry x = some (n, e, w))
    (hy : x.beats.find? (·.k == b) = some y) (hwaits : y.retryAt = some t) (hs : s.fatal = false) (ht : t ≤ s.ft) (hframe : s.onFrame = true) :
    doDmaBeatRetry tile chan b s = if s.ownerHeld w = true then s else
      ((((s.onDmaChan (tile * 256 + chan) fun x => { x with retries := min 255 (x.retries + 1) }).count Ct.dma tile 1).onBeat
        (tile * 256 + chan) b fun y => { y with retryAt := none }).beatRead (tile * 256 + chan) b) := by
  have hdue : s.dueAt t s.onFrame = true := by simp [State.dueAt, ht, hframe]
  have hgate : (s.fatal || !s.dueAt t s.onFrame || s.ownerHeld w) = s.ownerHeld w := by simp [hs, hdue]
  simp only [doDmaBeatRetry, hx, he, hy, hwaits, hgate]

/-! ### O53 -/

theorem exec_dmaBeatComplete (tile chan b : Nat) (s : State) :
    exec (.dmaBeatComplete tile chan b) s = .next (doDmaBeatComplete tile chan b s) := rfl
theorem exec_dmaBeatFail (tile chan b : Nat) (how : BeatFault) (s : State) :
    exec (.dmaBeatFail tile chan b how) s = .next (doDmaBeatFail tile chan b how s) := rfl
theorem exec_dmaBeatRetry (tile chan b : Nat) (s : State) :
    exec (.dmaBeatRetry tile chan b) s = .next (s.backFrom (doDmaBeatRetry tile chan b (s.seenFrom tile))) := rfl

/-- Settles O53: the start of an entry, the bounds of a beat, and each end of a beat by its fault and the retries left. -/
theorem dmaEntriesMoveInBeats : Obligations.DmaEntriesMoveInBeats := by
  refine ⟨?start, ?bounds, ?complete, ?fail, ?fault, ?retry⟩
  case start =>
    rintro s w qid op q e y z hhead hcls hop hy hz rfl
    refine ⟨?_, ?_⟩
    · rintro rfl
      exact congrArg Host.Outcome.next (State.dmaStart_ready hhead hcls hop hy hz)
    · rintro rfl
      exact congrArg Host.Outcome.next (State.dmaStart_ready hhead hcls hop hy hz)
  case bounds => exact fun e k hk hsrc => beatLen_bounds hk hsrc
  case complete =>
    intro s tile chan b n x y e d w hx he hy hdata hs
    refine ⟨fun hhost hheld => ?_, fun hmay => ⟨fun hrefused => ?_, fun u hwritten => ?_⟩⟩
    · rw [exec_dmaBeatComplete, doDmaBeatComplete_held hx he hy hdata hhost hheld]
    · rw [exec_dmaBeatComplete, doDmaBeatComplete_writes hx he hy hdata hs hmay, hrefused]
    · rw [exec_dmaBeatComplete, doDmaBeatComplete_writes hx he hy hdata hs hmay, hwritten]
  case fail =>
    intro s tile chan b n x y e w how hx he hy hissued hs hmay
    rw [exec_dmaBeatFail, doDmaBeatFail_issued hx he hy hissued hs hmay]
  case fault =>
    intro s k b n x y e w how hx he hy
    obtain ⟨hpoison, huncorrectable, hmaster⟩ := State.beatFail_atOnce hx he hy
    refine ⟨?_, ?_, ?_, fun hhow => ⟨fun hfailing => ?_, fun hnone hleft => ?_, fun hnone hout => ?_⟩⟩
    · rintro rfl
      exact hpoison
    · rintro rfl
      exact huncorrectable
    · rintro rfl
      exact hmaster
    · rw [State.beatFail_retried hx he hy hhow, if_pos (Option.isSome_iff_ne_none.2 hfailing)]
    · rw [State.beatFail_retried hx he hy hhow, if_neg (by simp [hnone]), if_pos hleft]
    · rw [State.beatFail_retried hx he hy hhow, if_neg (by simp [hnone]), if_neg (by omega)]
  case retry =>
    rintro s0 _ tile chan b n t x y e w rfl hx he hy hwaits hs ht hframe
    rw [exec_dmaBeatRetry, doDmaBeatRetry_due hx he hy hwaits hs ht hframe]

end Sys2Proof.Machine
end

section
/-! SUPPORT. A row of Xkzch (12 R338 R340 R358): what an instruction that a thread issues comes to, and its retirement. Then the CH instructions
(12 R343 R345 R346 R347); O54 from these. -/

namespace Sys2Proof.Machine

variable {r s : State} {tid w : Nat} {t : Thread} {g : Bool}

/-! ### Issue and retirement -/

/-- A row of Xkzch whose word stands at the pc of a thread that may issue: its effect on the state in which it is issued. -/
theorem State.xk_issued (h : r.issued tid w = some (s, t, g)) (body : Thread → State → State × Ending) {mine : Thread → Bool}
    (hm : mine t = true) : r.xk tid w body mine = s.issueEnd tid t g (body t s) := by
  unfold State.issued at h
  split at h
  · cases h
  · next t0 ht0 =>
    split at h
    · next hfetch =>
      dsimp only at h
      obtain ⟨t', ht', heq⟩ := Option.map_eq_some_iff.1 h
      obtain ⟨htag, rfl, hg⟩ := heq
      unfold State.xk
      simp only [ht0, hfetch, ht', hm, if_true]
      rfl
    · cases h

/-- The draw of a sample changes no thread. -/
theorem State.tagIssue_thread (s : State) (tid k : Nat) : (s.tagIssue tid).1.thread k = s.thread k := by
  unfold State.tagIssue
  dsimp only
  split
  · rfl
  · repeat' split
    all_goals rfl

/-- The thread that issues stands in the state in which it issues. -/
theorem State.thread_of_issued (h : r.issued tid w = some (s, t, g)) : s.thread tid = some t := by
  unfold State.issued at h
  split at h
  · cases h
  · next t0 _ =>
    split at h
    · dsimp only at h
      obtain ⟨t', ht', heq⟩ := Option.map_eq_some_iff.1 h
      obtain ⟨rfl, rfl, -⟩ := heq
      exact (State.tagIssue_thread ..).trans ht'
    · cases h

/-- Two changes that agree on the thread are one. -/
theorem State.onThread_congr {f f' : Thread → Thread} (h : s.thread tid = some t) (hff : f t = f' t) : s.onThread tid f = s.onThread tid f' :=
  congrArg (fun l => s.onCores fun c => { c with threads := l }) (Tab.mod_congr h hff)

/-- An instruction that retires with a value writes rd and moves the pc. -/
theorem State.retired_eq {u y : State} {rd v addr level : Nat} {x : Thread} (hx : u.thread tid = some x)
    (hy : y = u.onThread tid fun z => { (z.setReg rd v) with
      pc := (x.pc + 4) % 2 ^ 64, instret := (z.instret + 1) % 2 ^ 64
      state := if z.stepping && z.state == ThState.run then ThState.dstop else z.state, stepping := false }) :
    s.retired tid t g u rd v addr level = (if g = true then y.issueRecord tid t.pc addr level 0 else y).coreSettle (tid / 8) := by
  have hboth : (u.onThread tid (·.setReg rd v)).onThread tid (fun t => { t with
      pc := (x.pc + 4) % 2 ^ 64, instret := (t.instret + 1) % 2 ^ 64
      state := if t.stepping && t.state == ThState.run then ThState.dstop else t.state, stepping := false }) = y := by
    rw [hy]
    refine congrArg (fun l => u.onCores fun c => { c with threads := l }) ((Tab.mod_mod ..).trans (congrArg (Tab.mod _ _) ?_))
    funext z
    unfold Thread.setReg
    split <;> rfl
  simp only [State.retired, State.retire4, hx, State.issueEnd, hboth]

/-! ### Writing channels (12 R345 R346) -/

variable {rd rs1 rs2 : Nat}

theorem doChWrf_issued {d ch len : Nat} (h : r.issued tid (xkWord xkCh 0 rd rs1 rs2) = some (s, t, g)) (hd : d = t.reg rs1)
    (hch : ch = d % 8192) (hlen : len = field d 16 4 + 1) : doChWrf tid rd rs1 rs2 r = match s.wrfStatus tid t d with
      | some st => s.retired tid t g (if st = 2 then s.onThread tid fun t => { t with spaceWatch := some (ch, len) } else s) rd st ch
      | none => s.retired tid t g (if len = 1 then
            (s.onChan ch fun c => { c with reserved := c.reserved + 1 }).commitOpen tid ch [t.regs.getD rs2 0]
          else (s.onChan ch fun c => { c with reserved := c.reserved + len }).onThread tid fun t => { t with
            stagingCh := some ch, stagingLen := len, staging := [t.regs.getD rs2 0] }) rd 0 ch := by
  subst hch hlen hd
  refine (State.xk_issued h _ rfl).trans ?_
  dsimp only
  cases s.wrfStatus tid t (t.reg rs1) with
  | some st =>
    by_cases hspace : st = 2
    · subst hspace
      rfl
    · dsimp only
      rw [if_neg hspace]
      split
      · next heq => exact absurd (Option.some.inj heq) hspace
      · next heq =>
        obtain rfl := Option.some.inj heq
        rfl
      · next heq => cases heq
  | none =>
    by_cases hone : field (t.reg rs1) 16 4 + 1 = 1
    · simp only [hone, if_true]
      rfl
    · have hthread : (s.onChan (t.reg rs1 % 8192) fun c => { c with reserved := c.reserved + (field (t.reg rs1) 16 4 + 1) }).thread tid =
          some t := (State.thread_of_issued h :)
      simp only [if_neg hone]
      exact congrArg (fun u => s.retired tid t g u rd 0 (t.reg rs1 % 8192)) (State.onThread_congr hthread rfl)

theorem doChWr_issued {l : List W64} (h : r.issued tid (xkWord xkCh 1 rd 0 rs2) = some (s, t, g)) (hl : l = t.staging ++ [t.regs.getD rs2 0]) :
    doChWr tid rd rs2 r = match t.stagingCh with
      | none => s.retired tid t g s rd 6 0
      | some ch => if (s.openChan ch).isNone then s.retired tid t g s rd 4 ch
        else s.retired tid t g (if t.stagingLen ≤ l.length then s.commitOpen tid ch l else s.onThread tid fun t => { t with staging := l })
          rd 0 ch := by
  subst hl
  refine (State.xk_issued h _ rfl).trans ?_
  cases t.stagingCh with
  | none => rfl
  | some ch =>
    by_cases hclosed : (s.openChan ch).isNone = true
    · simp only [if_pos hclosed]
      rfl
    · by_cases hlast : t.stagingLen ≤ (t.staging ++ [t.regs.getD rs2 0]).length
      · simp only [if_neg hclosed, if_pos hlast]
        rfl
      · simp only [if_neg hclosed, if_neg hlast]
        rfl

theorem doChAbort_issued (h : r.issued tid (xkWord xkCh 5 rd 0 0) = some (s, t, g)) : doChAbort tid rd r = match t.stagingCh with
      | none => s.retired tid t g s rd 6 0
      | some ch => s.retired tid t g (s.discardStaging tid) rd 0 ch := by
  refine (State.xk_issued h _ rfl).trans ?_
  cases t.stagingCh <;> rfl

/-! ### Reading channels (12 R347) -/

theorem doChRecv_issued {v : Nat} (h : r.issued tid (xkWord xkCh 2 rd rs1 0) = some (s, t, g)) (hv : v = t.reg rs1) :
    doChRecv tid rd rs1 r = match s.readStatus tid v with
      | some st => s.retired tid t g s rd st (v % 8192)
      | none => match s.takeMsg v with
        | (u, some (src, l)) => s.retired tid t g (u.onThread tid fun t => { t with recv := l }) rd (recvWord src l) v 7
        | (_, none) => s.issueEnd tid t g ((s.onThread tid fun u => { u with
          state := .blockedCh, waitCh := v, waitRd := rd }).onChan v fun c => { c with readers := c.readers ++ [tid] }, .blocked) := by
  subst hv
  refine (State.xk_issued h _ rfl).trans ?_
  dsimp only
  cases s.readStatus tid (t.reg rs1) with
  | some st => rfl
  | none =>
    simp only [State.recvMsg]
    obtain ⟨u, m⟩ := s.takeMsg (t.reg rs1)
    cases m <;> rfl

theorem doChTry_issued {v : Nat} (h : r.issued tid (xkWord xkCh 3 rd rs1 0) = some (s, t, g)) (hv : v = t.reg rs1) :
    doChTry tid rd rs1 r = match s.readStatus tid v with
      | some st => s.retired tid t g s rd st (v % 8192)
      | none => match s.takeMsg v with
        | (u, some (src, l)) => s.retired tid t g (u.onThread tid fun t => { t with recv := l }) rd (recvWord src l) v 7
        | (_, none) => s.retired tid t g s rd 1 v := by
  subst hv
  refine (State.xk_issued h _ rfl).trans ?_
  dsimp only
  cases s.readStatus tid (t.reg rs1) with
  | some st => rfl
  | none =>
    simp only [State.recvMsg]
    obtain ⟨u, m⟩ := s.takeMsg (t.reg rs1)
    cases m <;> rfl

/-! ### Queries and configuration (12 R343) -/

theorem doChStat_issued {v : Nat} (h : r.issued tid (xkWord xkCh 6 rd rs1 0) = some (s, t, g)) (hv : v = t.reg rs1) :
    doChStat tid rd rs1 r = if 8192 ≤ v ∨ (2 ≤ v % 2048 ∧ v % 2048 < 16) ∨ s.tileOn (v / 2048) = false then
        s.retired tid t g s rd 4 (v % 8192)
      else match s.chan v with
        | some c => s.retired tid t g s rd c.fill v
        | none => s.retired tid t g s.useFree rd (s.freeVal % 65536 * 2 ^ 32) v := by
  subst hv
  refine (State.xk_issued h _ rfl).trans ?_
  simp only [Bool.not_eq_true']
  by_cases hbad : 8192 ≤ t.reg rs1 ∨ (2 ≤ t.reg rs1 % 2048 ∧ t.reg rs1 % 2048 < 16) ∨ s.tileOn (t.reg rs1 / 2048) = false
  · simp only [if_pos hbad]
    rfl
  · simp only [if_neg hbad]
    cases s.chan (t.reg rs1) <;> rfl

theorem doChCfg_issued {v x : Nat} (h : r.issued tid (xkWord xkCh 7 rd rs1 rs2) = some (s, t, g)) (hv : v = t.reg rs1) (hx : x = t.reg rs2) :
    doChCfg tid rd rs1 rs2 r = match s.cfgStatus tid v x with
      | some st => s.retired tid t g s rd st (v % 8192)
      | none => s.retired tid t g (((s.onCores fun c => { c with
          chans := c.chans.set v (chanOf (s.chan v) (v % 2048) x) }).spaceCheck v).tileSettle (tid / 256)) rd 0 v := by
  subst hv hx
  refine (State.xk_issued h _ rfl).trans ?_
  dsimp only
  cases s.cfgStatus tid (t.reg rs1) (t.reg rs2) <;> rfl

/-! ### O54 -/

/-- Settles O54: each row as the effect of an issued instruction, and what the retirement of one with a value changes. -/
theorem channelInstructionsAnswer : Obligations.ChannelInstructionsAnswer := by
  refine ⟨?wrf, ?wr, ?abort, ?recv, ?tryRecv, ?get, ?stat, ?cfg, ?retire⟩
  case wrf => exact fun r s tid t g rd rs1 rs2 d ch len h hd hch hlen => congrArg Host.Outcome.next (doChWrf_issued h hd hch hlen)
  case wr => exact fun r s tid t g rd rs2 l h hl => congrArg Host.Outcome.next (doChWr_issued h hl)
  case abort => exact fun r s tid t g rd h => congrArg Host.Outcome.next (doChAbort_issued h)
  case recv => exact fun r s tid t g rd rs1 v h hv => congrArg Host.Outcome.next (doChRecv_issued h hv)
  case tryRecv => exact fun r s tid t g rd rs1 v h hv => congrArg Host.Outcome.next (doChTry_issued h hv)
  case get => exact fun r s tid t g rd rs1 h => congrArg Host.Outcome.next (State.xk_issued h _ rfl)
  case stat => exact fun r s tid t g rd rs1 v h hv => congrArg Host.Outcome.next (doChStat_issued h hv)
  case cfg => exact fun r s tid t g rd rs1 rs2 v w h hv hw => congrArg Host.Outcome.next (doChCfg_issued h hv hw)
  case retire => exact fun s u y tid rd v addr level t x g hx hy => State.retired_eq hx hy

end Sys2Proof.Machine
end

section
/-! SUPPORT. The EV instructions, TH.CTL, deadlock and the watchdog (12 R336 R350 R351 R352 R353): one lemma for what every row of TH.CTL has in
common, then the effect of each; O55 from these. -/

namespace Sys2Proof.Machine

variable {r s : State} {tid : Nat} {t : Thread} {g : Bool} {rd rs1 rs2 : Nat}

/-! ### Events (12 R350) -/

theorem doEvWait_issued {m : Nat} (h : r.issued tid (xkWord xkEv 0 rd rs1 0) = some (s, t, g)) (hm : m = t.pending &&& t.reg rs1) :
    doEvWait tid rd rs1 r = if m ≠ 0 then s.retired tid t g s rd m 0 else s.issueEnd tid t g (s.onThread tid fun u => { u with
      state := .blockedEv, waitMask := t.reg rs1, waitRd := rd }, .blocked) := by
  subst hm
  refine (State.xk_issued h _ rfl).trans ?_
  by_cases hpending : t.pending &&& t.reg rs1 ≠ 0
  · simp only [if_pos hpending]
    rfl
  · simp only [if_neg hpending]

theorem doEvClr_issued {u : State} (h : r.issued tid (xkWord xkEv 1 rd rs1 0) = some (s, t, g))
    (hu : u = s.onThread tid fun u => { u with pending := u.pending - (u.pending &&& t.reg rs1) }) : doEvClr tid rd rs1 r =
      s.retired tid t g (if tid % 8 = 0 ∧ bit (t.reg rs1) 29 = true then u.onCore (tid / 8) fun c => { c with deadlockArmed := true } else u)
        rd t.pending 0 := by
  subst hu
  exact State.xk_issued h _ rfl

theorem doEvPost_issued {k b : Nat} (h : r.issued tid (xkWord xkEv 3 rd rs1 rs2) = some (s, t, g)) (hk : k = t.reg rs1) (hb : b = t.reg rs2) :
    doEvPost tid rd rs1 rs2 r = if 1024 ≤ k ∨ s.thread k = none ∨ b < 24 ∨ 27 < b then s.retired tid t g s rd 8 0
      else s.retired tid t g (s.postEvent k b) rd 0 0 := by
  subst hk hb
  refine (State.xk_issued h _ rfl).trans ?_
  simp only [Option.isNone_iff_eq_none]
  by_cases hbad : 1024 ≤ t.reg rs1 ∨ s.thread (t.reg rs1) = none ∨ t.reg rs2 < 24 ∨ 27 < t.reg rs2
  · simp only [if_pos hbad]
    rfl
  · simp only [if_neg hbad]
    rfl

/-! ### TH.CTL (12 R351) -/

variable {ops : List Nat} {always : Bool} {eff : Nat → Thread → Nat → State → State × Option Nat}

/-- Outside thread 0 it is illegal, and of a thread that does not exist it answers 0. -/
theorem State.thCtl_none (h : r.issued tid (xkWord xkEv 4 rd rs1 rs2) = some (s, t, g)) (hop : field (t.reg rs1) 8 4 ∈ ops)
    (hnone : tid % 8 ≠ 0 ∨ s.thread (tid + t.reg rs1 % 8) = none) : r.thCtl tid rd rs1 rs2 ops always eff =
      if tid % 8 ≠ 0 then s.issueEnd tid t g (s, .fault 2 (xkWord xkEv 4 rd rs1 rs2) 0) else s.retired tid t g s rd 0 0 := by
  refine (State.xk_issued h _ (mine := fun t => ops.contains (field (t.reg rs1) 8 4)) (List.contains_iff_mem.2 hop)).trans ?_
  by_cases hfirst : tid % 8 ≠ 0
  · simp only [if_pos hfirst]
  · simp only [if_neg hfirst, hnone.resolve_left hfirst]
    rfl

variable {k : Nat} {x : Thread}

/-- In thread 0, of a thread that exists: the effect where it may be applied, and its value or else the state word. -/
theorem State.thCtl_thread (h : r.issued tid (xkWord xkEv 4 rd rs1 rs2) = some (s, t, g)) (hop : field (t.reg rs1) 8 4 ∈ ops)
    (hfirst : tid % 8 = 0) (hk : k = tid + t.reg rs1 % 8) (hx : s.thread k = some x) {u : State} {v : Option Nat}
    (heff : (if always = true ∨ (k ≠ tid ∧ x.state ≠ .dstop) then eff k x (t.reg rs2) s else (s, none)) = (u, v)) :
    r.thCtl tid rd rs1 rs2 ops always eff = s.retired tid t g u rd (v.getD (u.thWord k)) 0 := by
  subst hk
  refine (State.xk_issued h _ (mine := fun t => ops.contains (field (t.reg rs1) 8 4)) (List.contains_iff_mem.2 hop)).trans ?_
  have hmay : (if always || (tid + t.reg rs1 % 8 != tid && x.state != .dstop) then eff (tid + t.reg rs1 % 8) x (t.reg rs2) s else (s, none)) =
      (u, v) := (if_congr (by simp only [Bool.or_eq_true, Bool.and_eq_true, bne_iff_ne]) rfl rfl).trans heff
  simp only [if_neg (not_not.2 hfirst), hx, hmay]
  rfl

/-- An effect on the state alone, of a row that is applied to another thread that is not in DSTOP. -/
theorem State.thCtl_other {p : Prop} [Decidable p] {f : State} (h : r.issued tid (xkWord xkEv 4 rd rs1 rs2) = some (s, t, g))
    (hop : field (t.reg rs1) 8 4 ∈ ops) (hfirst : tid % 8 = 0) (hk : k = tid + t.reg rs1 % 8) (hx : s.thread k = some x)
    (heff : eff k x (t.reg rs2) s = (if p then f else s, none)) {u : State} (hu : u = if k ≠ tid ∧ x.state ≠ .dstop ∧ p then f else s) :
    r.thCtl tid rd rs1 rs2 ops false eff = s.retired tid t g u rd (u.thWord k) 0 := by
  refine State.thCtl_thread h hop hfirst hk hx (v := none) ?_
  subst hu
  rw [heff]
  by_cases hmay : k ≠ tid ∧ x.state ≠ .dstop
  · rw [if_pos (.inr hmay)]
    exact congrArg (·, none) (if_congr (by simp [hmay]) rfl rfl)
  · rw [if_neg (by simpa using hmay), if_neg fun hall => hmay ⟨hall.1, hall.2.1⟩]

/-- What STOP, RESUME and DISCARD do by the thread's state. -/
theorem stop_by_state (x : Thread) (a b : State) : (match x.state with
    | .run | .blockedCh | .blockedEv => (a, none)
    | _ => (b, (none : Option Nat))) = (if x.state = .run ∨ x.state = .blockedCh ∨ x.state = .blockedEv then a else b, none) := by
  cases x.state <;> rfl

theorem stopped_by_state (x : Thread) (a b : State) : (match x.state with
    | .sstop | .faulted => (a, none)
    | _ => (b, (none : Option Nat))) = (if x.state = .sstop ∨ x.state = .faulted then a else b, none) := by
  cases x.state <;> rfl

/-- A row that answers a value of a faulted thread. -/
theorem State.thCtl_answers {a : Thread → Nat} (h : r.issued tid (xkWord xkEv 4 rd rs1 rs2) = some (s, t, g))
    (hop : field (t.reg rs1) 8 4 ∈ ops) (hfirst : tid % 8 = 0) (hk : k = tid + t.reg rs1 % 8) (hx : s.thread k = some x) :
    r.thCtl tid rd rs1 rs2 ops false (fun _ x _ s => (s, if x.state = .faulted then some (a x) else none)) =
      s.retired tid t g s rd (if k ≠ tid ∧ x.state = .faulted then a x else s.thWord k) 0 := by
  have hval : (if k ≠ tid ∧ x.state ≠ .dstop then (if x.state = .faulted then some (a x) else none) else none).getD (s.thWord k) =
      if k ≠ tid ∧ x.state = .faulted then a x else s.thWord k := by
    by_cases hfault : x.state = .faulted
    · by_cases hself : k = tid <;> simp [hfault, hself]
    · simp [hfault]
  rw [← hval]
  refine State.thCtl_thread h hop hfirst hk hx ?_
  by_cases hmay : k ≠ tid ∧ x.state ≠ .dstop
  · rw [if_pos (.inr hmay), if_pos hmay]
  · rw [if_neg (by simpa using hmay), if_neg hmay]

/-- An operation number that QUERY takes. -/
theorem query_mem {n : Nat} (h : field n 8 4 = 0 ∨ 9 ≤ field n 8 4) : field n 8 4 ∈ [0, 9, 10, 11, 12, 13, 14, 15] := by
  have hlt : field n 8 4 < 16 := Nat.mod_lt _ (by decide)
  generalize field n 8 4 = m at h hlt
  interval_cases m <;> simp_all

section
variable (h : r.issued tid (xkWord xkEv 4 rd rs1 rs2) = some (s, t, g)) (hfirst : tid % 8 = 0) (hk : k = tid + t.reg rs1 % 8)
  (hx : s.thread k = some x)
include h hfirst hk hx

theorem doThCtlQuery_thread (hop : field (t.reg rs1) 8 4 = 0 ∨ 9 ≤ field (t.reg rs1) 8 4) :
    doThCtlQuery tid rd rs1 rs2 r = s.retired tid t g s rd (s.thWord k) 0 :=
  State.thCtl_thread h (query_mem hop) hfirst hk hx (v := none) (if_pos (Or.inl rfl))

theorem doThCtlStop_thread (hop : field (t.reg rs1) 8 4 = 1) {u : State} (hu : u = if k ≠ tid ∧ x.state ≠ .dstop ∧
      (x.state = .run ∨ x.state = .blockedCh ∨ x.state = .blockedEv) then s.halt k .sstop .run else s) :
    doThCtlStop tid rd rs1 rs2 r = s.retired tid t g u rd (u.thWord k) 0 :=
  State.thCtl_other h (by rw [hop]; decide) hfirst hk hx (stop_by_state x _ _) hu

theorem doThCtlResume_thread (hop : field (t.reg rs1) 8 4 = 2) {u : State} (hu : u = if k ≠ tid ∧ x.state ≠ .dstop ∧
      (x.state = .sstop ∨ x.state = .faulted) then s.onThread k fun x => { x with state := .run } else s) :
    doThCtlResume tid rd rs1 rs2 r = s.retired tid t g u rd (u.thWord k) 0 :=
  State.thCtl_other h (by rw [hop]; decide) hfirst hk hx (stopped_by_state x _ _) hu

theorem doThCtlKill_thread (hop : field (t.reg rs1) 8 4 = 3) {u : State}
    (hu : u = if k ≠ tid ∧ x.state ≠ .dstop then (s.halt k .idle .run).discardStaging k else s) :
    doThCtlKill tid rd rs1 rs2 r = s.retired tid t g u rd (u.thWord k) 0 :=
  State.thCtl_other h (by rw [hop]; decide) hfirst hk hx (p := True) (f := (s.halt k .idle .run).discardStaging k) rfl
    (hu.trans (if_congr (by rw [and_true]) rfl rfl))

theorem doThCtlStart_thread (hop : field (t.reg rs1) 8 4 = 4) {u : State} (hu : u = if k ≠ tid ∧ x.state ≠ .dstop ∧ x.state = .idle then
      (s.discardStaging k).onThread k fun x => { x with state := .run, remembered := .run, pc := t.reg rs2 / 2 * 2 } else s) :
    doThCtlStart tid rd rs1 rs2 r = s.retired tid t g u rd (u.thWord k) 0 :=
  State.thCtl_other h (by rw [hop]; decide) hfirst hk hx (apply_ite (·, none) ..).symm hu

theorem doThCtlDiscard_thread (hop : field (t.reg rs1) 8 4 = 5) {u : State} (hu : u = if k ≠ tid ∧ x.state ≠ .dstop ∧
      (x.state = .sstop ∨ x.state = .faulted) then s.discardStaging k else s) :
    doThCtlDiscard tid rd rs1 rs2 r = s.retired tid t g u rd (u.thWord k) 0 :=
  State.thCtl_other h (by rw [hop]; decide) hfirst hk hx (stopped_by_state x _ _) hu

theorem doThCtlSetpri_thread (hop : field (t.reg rs1) 8 4 = 6) {u : State} (hu : u = s.onCore (tid / 8) fun c => { c with
      hipri := if t.reg rs2 % 2 = 1 then some (k % 8) else if c.hipri = some (k % 8) then none else c.hipri }) :
    doThCtlSetpri tid rd rs1 rs2 r = s.retired tid t g u rd (u.thWord k) 0 := by
  refine State.thCtl_thread h (by rw [hop]; decide) hfirst hk hx (v := none) ((if_pos (Or.inl rfl)).trans ?_)
  subst hu
  simp only [beq_iff_eq]

end

/-! ### Deadlock and the watchdog (12 R352 R353) -/

variable {core : Nat} {c : CoreSt}

theorem doDeadlockDetect_stood {at' : Nat} (hc : s.core core = some c) (hsince : c.blockedSince = some at') (hs : s.fatal = false)
    (hrun : c.hung = false) (harmed : c.deadlockArmed = true) (hall : s.allBlocked core = true) (hstood : at' + 2048 ≤ s.time.osc) :
    doDeadlockDetect core s = (((s.onCore core fun c => { c with deadlockArmed := false }).count Ct.cores (core / 32) (core % 32)).postEvent
      (core * 8) 29).coreSettle core := by
  simp only [doDeadlockDetect, hc, hsince]
  exact if_neg (by simp [hs, hrun, harmed, hall, hstood])

theorem doWatchdogExpire_stood (hc : s.core core = some c) (ht : s.thread (core * 8) = some t) (hs : s.fatal = false)
    (hrun : c.hung = false) (hframe : s.onFrame = true) (hcond : s.wdCondition core = true) (hpaused : s.wdPaused core = false)
    (hstart : c.wdStart ≠ none) (hstood : t.wdInterval ≤ c.wdTime s.ft) : doWatchdogExpire core s = s.coreHung core
      (if bit t.pending 28 || (coreThreads core).any (fun k => (s.thread k).any fun x => x.state == .faulted) then 0 else 1) := by
  have hgate : ¬(s.fatal || c.hung || !s.onFrame || !s.wdCondition core || s.wdPaused core || c.wdStart.isNone ||
      decide (c.wdTime s.ft < t.wdInterval)) = true := by
    simp [hs, hrun, hframe, hcond, hpaused, hstart, hstood]
  have hfaulted : ∀ k, (match s.thread k with
      | some x => x.state == .faulted
      | none => false) = (s.thread k).any fun x => x.state == .faulted := fun k => by cases s.thread k <;> rfl
  have hany : ((coreThreads core).any fun k => match s.thread k with
      | some x => x.state == .faulted
      | none => false) = (coreThreads core).any fun k => (s.thread k).any fun x => x.state == .faulted :=
    congrArg (List.any _) (funext hfaulted)
  simp only [doWatchdogExpire, hc, ht, if_neg hgate]
  exact congrArg (fun b => s.coreHung core (if bit t.pending 28 || b then 0 else 1)) hany

/-! ### O55 -/

theorem exec_deadlockDetect (core : Nat) (s : State) : exec (.deadlockDetect core) s = .next (doDeadlockDetect core s) := rfl
theorem exec_watchdogExpire (core : Nat) (s : State) : exec (.watchdogExpire core) s = .next (doWatchdogExpire core s) := rfl

/-- Settles O55: the EV rows, the rows of TH.CTL by what they have in common and by their effect, and the two detections. -/
theorem eventAndThreadControlInstructions : Obligations.EventAndThreadControlInstructions := by
  refine ⟨?wait, ?clear, ?read, ?post, ?illegal, ?ctl, ?deadlock, ?watchdog⟩
  case wait => exact fun r s tid t g rd rs1 m h hm => congrArg Host.Outcome.next (doEvWait_issued h hm)
  case clear => exact fun r s tid t g rd rs1 u h hu => congrArg Host.Outcome.next (doEvClr_issued h hu)
  case read => exact fun r s tid t g rd h => congrArg Host.Outcome.next (State.xk_issued h _ rfl)
  case post => exact fun r s tid t g rd rs1 rs2 k b h hk hb => congrArg Host.Outcome.next (doEvPost_issued h hk hb)
  case illegal =>
    rintro r s tid t g rd rs1 rs2 _ h hnone rfl
    refine ⟨fun hop => ?_, fun hop => ?_, fun hop => ?_, fun hop => ?_, fun hop => ?_, fun hop => ?_, fun hop => ?_, fun hop => ?_,
      fun hop => ?_⟩
    all_goals exact congrArg Host.Outcome.next (State.thCtl_none h (by rw [hop]; decide) hnone)
  case ctl =>
    intro r s tid t g rd rs1 rs2 k x h hfirst hk hx
    refine ⟨fun hop => ?_, fun hop u hu => ?_, fun hop u hu => ?_, fun hop u hu => ?_, fun hop u hu => ?_, fun hop u hu => ?_, fun hop u hu => ?_,
      fun hop u hu => ?_, fun hop u hu => ?_⟩
    · exact congrArg Host.Outcome.next (doThCtlQuery_thread h hfirst hk hx hop)
    · exact congrArg Host.Outcome.next (doThCtlStop_thread h hfirst hk hx hop hu)
    · exact congrArg Host.Outcome.next (doThCtlResume_thread h hfirst hk hx hop hu)
    · exact congrArg Host.Outcome.next (doThCtlKill_thread h hfirst hk hx hop hu)
    · exact congrArg Host.Outcome.next (doThCtlStart_thread h hfirst hk hx hop hu)
    · exact congrArg Host.Outcome.next (doThCtlDiscard_thread h hfirst hk hx hop hu)
    · exact congrArg Host.Outcome.next (doThCtlSetpri_thread h hfirst hk hx hop hu)
    · subst hu
      exact congrArg Host.Outcome.next (State.thCtl_answers h (by rw [hop]; decide) hfirst hk hx)
    · subst hu
      exact congrArg Host.Outcome.next (State.thCtl_answers h (by rw [hop]; decide) hfirst hk hx)
  case deadlock =>
    intro s core t c hc hsince hs hrun harmed hall hstood
    rw [exec_deadlockDetect, doDeadlockDetect_stood hc hsince hs hrun harmed hall hstood]
  case watchdog =>
    intro s core c t hc ht hs hrun hframe hcond hpaused hstart hstood
    rw [exec_watchdogExpire, doWatchdogExpire_stood hc ht hs hrun hframe hcond hpaused hstart hstood]

end Sys2Proof.Machine
end

section
/-! SUPPORT. The base instructions and the debugger (12 R333 R338 R355 R356): the issue of a fetched instruction, the fields of an encoded word, the
registers, and the debugger's operations by the level in force; O56 from these. -/

namespace Sys2Proof.Machine

variable {r s : State} {tid : Nat} {t t0 : Thread} {g : Bool}

/-! ### Issue (12 R338) -/

theorem State.issue_tagged {u : State} (htag : u.tagIssue tid = (s, g)) (body : State → State × Ending) :
    u.issue tid t body = s.issueEnd tid t g (body s) := by
  simp only [State.issue, htag]

theorem doRv64Instruction_fetched {raw len : Nat} (hready : r.readyThread tid = some t0) (hfetch : r.fetchAt tid t0.pc = .ok raw len)
    (hown : (len = 4 && isXkzch raw) = false) (ht : (r.fetched t0.pc len).thread tid = some t)
    (htag : (r.fetched t0.pc len).tagIssue tid = (s, g)) : doRv64Instruction tid r = s.issueEnd tid t g
      (if len = 4 then s.rvExec tid t raw raw 4
       else match expand raw with
        | some w => s.rvExec tid t w raw 2
        | none => (s, .fault 2 raw 0)) := by
  unfold doRv64Instruction
  simp only [hready, hfetch, hown, Bool.false_eq_true, if_false, State.rvIssue, ht]
  by_cases hfour : len = 4
  · rw [if_pos hfour, if_pos hfour]
    exact State.issue_tagged htag _
  · rw [if_neg hfour, if_neg hfour]
    cases expand raw <;> exact State.issue_tagged htag _

theorem doRv64Instruction_fetchFault {c v : Nat} (hready : r.readyThread tid = some t) (hfetch : r.fetchAt tid t.pc = .fault c v)
    (htag : (if v = t.pc then r else r.fetched t.pc 2).tagIssue tid = (s, g)) :
    doRv64Instruction tid r = s.issueEnd tid t g (s, .fault c v 0) := by
  unfold doRv64Instruction
  simp only [hready, hfetch]
  exact State.issue_tagged htag _

/-! ### ADDI and SUB (12 R333) -/

variable {rd r1 r2 imm : Nat}

/-- The fields of an I-type word. -/
theorem encI_fields (hrd : rd < 32) (h1 : r1 < 32) (himm : imm < 4096) : encI 0x13 0 rd r1 imm % 128 = 0x13 ∧
    field (encI 0x13 0 rd r1 imm) 7 5 = rd ∧ field (encI 0x13 0 rd r1 imm) 12 3 = 0 ∧ field (encI 0x13 0 rd r1 imm) 15 5 = r1 ∧
    encI 0x13 0 rd r1 imm / 2 ^ 20 = imm := by
  simp only [encI, field, Nat.reducePow]
  omega

/-- The fields of an R-type word. -/
theorem encR_fields (hrd : rd < 32) (h1 : r1 < 32) (h2 : r2 < 32) : encR 0x33 0 0x20 rd r1 r2 % 128 = 0x33 ∧
    field (encR 0x33 0 0x20 rd r1 r2) 7 5 = rd ∧ field (encR 0x33 0 0x20 rd r1 r2) 12 3 = 0 ∧
    field (encR 0x33 0 0x20 rd r1 r2) 15 5 = r1 ∧ field (encR 0x33 0 0x20 rd r1 r2) 20 5 = r2 ∧
    field (encR 0x33 0 0x20 rd r1 r2) 25 7 = 0x20 := by
  simp only [encR, field, Nat.reducePow]
  omega

/-- A sign-extended immediate as a bit vector's. -/
theorem sx_signExtend (i : BitVec 12) : sx 12 i.toNat = (i.signExtend 64).toNat := by
  have hsigned : signed 12 i.toNat = i.toInt := by
    have hlt := i.isLt
    simp only [signed, BitVec.toInt, Nat.mod_eq_of_lt hlt]
    split <;> split <;> omega
  simp [sx, unsigned, hsigned, BitVec.signExtend, BitVec.toNat_ofInt]

theorem State.rvExec_addi (s : State) (tid len : Nat) (t : Thread) (rd r1 : BitVec 5) (imm : BitVec 12) :
    s.rvExec tid t (encI 0x13 0 rd.toNat r1.toNat imm.toNat) (encI 0x13 0 rd.toNat r1.toNat imm.toNat) len =
      (s.onThread tid (·.setReg rd.toNat ((t.reg r1.toNat + (imm.signExtend 64).toNat) % 2 ^ 64)),
        .retire ((t.pc + len) % 2 ^ 64) 0 0 0) := by
  obtain ⟨hop, hrd, hf3, hr1, himm⟩ := encI_fields rd.isLt r1.isLt imm.isLt
  unfold State.rvExec
  simp only [hop, hrd, hf3, hr1, himm, ← sx_signExtend]
  rfl

theorem State.rvExec_sub (s : State) (tid len : Nat) (t : Thread) (rd r1 r2 : BitVec 5) (h2 : t.reg r2.toNat < 2 ^ 64) :
    s.rvExec tid t (encR 0x33 0 0x20 rd.toNat r1.toNat r2.toNat) (encR 0x33 0 0x20 rd.toNat r1.toNat r2.toNat) len =
      (s.onThread tid (·.setReg rd.toNat ((BitVec.ofNat 64 (t.reg r1.toNat) - BitVec.ofNat 64 (t.reg r2.toNat)).toNat)),
        .retire ((t.pc + len) % 2 ^ 64) 0 0 0) := by
  obtain ⟨hop, hrd, hf3, hr1, hr2, hf7⟩ := encR_fields rd.isLt r1.isLt r2.isLt
  have hdiff : (BitVec.ofNat 64 (t.reg r1.toNat) - BitVec.ofNat 64 (t.reg r2.toNat)).toNat =
      (t.reg r1.toNat + 2 ^ 64 - t.reg r2.toNat) % 2 ^ 64 := by
    simp only [BitVec.toNat_sub, BitVec.toNat_ofNat]
    omega
  unfold State.rvExec
  simp only [hop, hrd, hf3, hr1, hr2, hf7, hdiff]
  rfl

/-! ### Registers (12 R333) -/

theorem Thread.reg_setReg_ne {k r : Nat} (hk : k ≠ r) (t : Thread) (v : Nat) : (t.setReg r v).reg k = t.reg k := by
  unfold Thread.setReg
  split
  · rfl
  · simp [Thread.reg, List.getElem?_set_ne hk.symm]

theorem Thread.reg_setReg_self {r : Nat} {t : Thread} (hr : r ≠ 0) (hlen : r < t.regs.length) (v : Nat) : (t.setReg r v).reg r = v % 2 ^ 64 := by
  simp [Thread.setReg, Thread.reg, if_neg hr, hlen]

/-- x0 discards. -/
theorem Thread.reg_setReg_zero (t : Thread) (r v : Nat) : (t.setReg r v).reg 0 = t.reg 0 := by
  rcases Nat.eq_zero_or_pos r with rfl | hr
  · rfl
  · exact Thread.reg_setReg_ne (by omega) t v

/-! ### The debugger (12 R355 R356) -/

variable {eff : Thread → State → State}

theorem State.debug_closed (hlevel : s.trust.level < 2) (tid : Nat) (eff : Thread → State → State) : s.debug tid eff = s := by
  unfold State.debug
  split
  · rfl
  · exact if_neg (by simpa [State.debugOpen] using hlevel)

theorem State.debug_open (ht : s.thread tid = some t) (hlevel : 2 ≤ s.trust.level) : s.debug tid eff = (eff t s).coreSettle (tid / 8) := by
  simp only [State.debug, ht]
  exact if_pos (decide_eq_true hlevel)

theorem doDebugStop_open (ht : s.thread tid = some t) (hlevel : 2 ≤ s.trust.level) : doDebugStop tid s =
    (if t.state = .dstop then s
     else if t.state = .run ∨ t.state = .blockedCh ∨ t.state = .blockedEv then s.halt tid .dstop .run
     else s.onThread tid fun x => { x with state := .dstop, remembered := t.state }).coreSettle (tid / 8) := by
  refine (State.debug_open ht hlevel).trans (congrArg (State.coreSettle · (tid / 8)) ?_)
  cases t.state <;> rfl

theorem doDebugRegAccess_open (ht : s.thread tid = some t) (hlevel : 2 ≤ s.trust.level) (a : DebugAccess) : doDebugRegAccess tid a s =
    (match a with
      | .readReg n => (s.debugRead tid t n).elim s fun v => s.emit (.readValue v)
      | .writeReg n v => s.onThread tid fun t => s.debugWrite tid t n v
      | .readStaging => s.emit (.readBuffer (t.staging.flatMap fun (w : W64) => toLe 8 w.toNat))
      | .readReceive => s.emit (.readBuffer (t.recv.flatMap fun (w : W64) => toLe 8 w.toNat))).coreSettle (tid / 8) := by
  refine (State.debug_open ht hlevel).trans (congrArg (State.coreSettle · (tid / 8)) ?_)
  cases a with
  | readReg n => cases hread : s.debugRead tid t n <;> simp only [hread] <;> rfl
  | writeReg n v => rfl
  | readStaging => rfl
  | readReceive => rfl

theorem State.debug_registers {n : Nat} (hlow : 1 ≤ n) (hhigh : n < 32) (s : State) (tid : Nat) (t : Thread) (v : W64) :
    s.debugRead tid t n = some (t.reg n) ∧ s.debugWrite tid t n v = t.setReg n v.toNat ∧
      s.debugRead tid t 0 = some t.pc ∧ s.debugRead tid t 35 = some t.instret ∧ s.debugRead tid t 37 = some tid := by
  have hreg : n ≠ 0 := by omega
  refine ⟨?_, ?_, rfl, rfl, rfl⟩
  · unfold State.debugRead
    rw [if_neg hreg, if_pos hhigh]
  · unfold State.debugWrite
    rw [if_neg hreg, if_pos hhigh]

/-! ### O56 -/

/-- Settles O56: the issue of a fetched instruction, its two ends, the two computed instructions, the registers and the debugger. -/
theorem baseInstructionsAndDebugger : Obligations.BaseInstructionsAndDebugger := by
  refine ⟨?fetched, ?fetchFault, ?ends, ?addi, ?sub, ?registers, ?closed, ?debugOpen, ?access⟩
  case fetched =>
    exact fun r s tid raw len t t0 g hready hfetch hown ht htag =>
      congrArg Host.Outcome.next (doRv64Instruction_fetched hready hfetch hown ht htag)
  case fetchFault =>
    exact fun r s tid c v t g hready hfetch htag => congrArg Host.Outcome.next (doRv64Instruction_fetchFault hready hfetch htag)
  case ends =>
    rintro s u _ _ tid c v a npc l f t g rfl rfl
    exact ⟨rfl, rfl⟩
  case addi => exact fun s tid len t rd r1 imm => s.rvExec_addi tid len t rd r1 imm
  case sub => exact fun s tid len t rd r1 r2 h2 => s.rvExec_sub tid len t rd r1 r2 h2
  case registers =>
    exact fun t r v => ⟨t.reg_setReg_zero r v, fun hr hlen => Thread.reg_setReg_self hr hlen v, fun k hk => Thread.reg_setReg_ne hk t v⟩
  case closed =>
    intro s tid t a _ hlevel
    have hclosed : ∀ eff, Host.Outcome.next (s.debug tid eff) = (.next s : Res) := fun eff => congrArg _ (State.debug_closed hlevel tid eff)
    exact ⟨hclosed _, hclosed _, hclosed _, hclosed _, hclosed _, hclosed _⟩
  case debugOpen =>
    intro s tid t a ht hlevel
    exact ⟨congrArg Host.Outcome.next (doDebugStop_open ht hlevel), congrArg Host.Outcome.next (State.debug_open ht hlevel),
      congrArg Host.Outcome.next (State.debug_open ht hlevel), congrArg Host.Outcome.next (State.debug_open ht hlevel),
      congrArg Host.Outcome.next (State.debug_open ht hlevel), congrArg Host.Outcome.next (doDebugRegAccess_open ht hlevel a)⟩
  case access => exact fun s tid n t v hlow hhigh => State.debug_registers hlow hhigh s tid t v

end Sys2Proof.Machine
end
